-- ==== Sys2Proof/Word.lean ====
section
/-!
DEFINITION. The word and byte types of the internal address space (R13, R35: registers and memories are 32 bits wide), the four
polders (R18), and the two parts (R1, R2).
-/
namespace Sys2Proof

/-- One 32-bit word of the internal address space (R35). -/
abbrev Word := BitVec 32

/-- One byte of a packet, a frame or a flash device. -/
abbrev Byte := BitVec 8

/-- The polders of R18: FGC4400 has all four, FGC4200 has A and B (R2). -/
inductive PolderId where
  | A | B | C | D
  deriving DecidableEq, Repr

/-- The parts of R1. -/
inductive Part where
  | fgc4400 | fgc4200
  deriving DecidableEq, Repr

/-- The polder's number in command targets and in `PCT_ID.POLDER`: 1 for A to 4 for D. -/
def PolderId.num : PolderId → Nat
  | .A => 1 | .B => 2 | .C => 3 | .D => 4

/-- The polder of a command target code 0x01 to 0x04 (R400). -/
def PolderId.ofNum : Nat → Option PolderId
  | 1 => some .A | 2 => some .B | 3 => some .C | 4 => some .D | _ => none

end Sys2Proof
end

