-- ==== Sys2Proof/Syntax.lean ====
section
/-!
DEFINITION. The commands: one constructor for each row of spec/opcode_table.json, with the row's operands, and the records that
operands are made of. Every command carries first the instant `t` at which it arrives, in femtoseconds of device time.
-/
namespace Sys2Proof

/-- The masters of R25: the engines and the Movia monitor of a polder, the Hall bridge, the Dikehouse watch core. -/
inductive Master where
  | ce (p : PolderId) | se (p : PolderId) | hall | dkh | mon (p : PolderId)
  deriving DecidableEq, Repr

/-- Sender ID of a master (R25). -/
def Master.id : Master → Nat
  | .ce _ => 1 | .se _ => 2 | .hall => 3 | .dkh => 4 | .mon _ => 5

/-- The targets of a command (R400): the Hall, a polder, the Dikehouse. -/
inductive Target where
  | hall
  | polder (p : PolderId)
  | dikehouse
  deriving DecidableEq, Repr

/-- Target code of R400. -/
def Target.code : Target → Nat
  | .hall => 0 | .polder p => p.num | .dikehouse => 15

/-- Where a command packet came from (R395, R397): the SPI target, or an Ethernet port (0 ETH-A, 1 ETH-B) with source address and UDP port. -/
inductive Source where
  | spi
  | eth (port : Nat) (ip : Nat) (udp : Nat)
  deriving DecidableEq, Repr

/-- A command as its target receives it: session index, sequence number, the session's protocol version (0x10, 0x20, 0x21), payload. -/
structure Cmd where
  sess : Nat
  seq : Nat
  ver : Nat
  payload : List Byte
  deriving DecidableEq, Repr

/-- A HELLO that has passed the checks of R403: where it came from, its `VER`, its `SEQ`, its payload (R419). -/
structure HelloArgs where
  src : Source
  ver : Nat
  seq : Nat
  payload : List Byte
  deriving DecidableEq, Repr

/-- What the filter chain and the estimators deliver to one swing-engine update: the path C outputs of streams 0 to 14 in chain format (code
units with 16 fractional bits, R253), and the outputs of blocks whose internals the spec does not give (R56, R63, R89), in pu with 60
fractional bits. -/
structure SwingIn where
  vals : List Int
  /-- frequency of the positive-sequence component of UA to UC, in pu, which the grid-frequency estimator follows while it does not hold -/
  wg : Int
  /-- U1 and its phase, U2 and its phase against the frame that turns with -θ, the positive-sequence component of VA to VC -/
  u1 : Int
  u1arg : Nat
  u2 : Int
  u2arg : Nat
  v1 : Int
  v1arg : Nat
  /-- the positive-sequence component of IA to IC: magnitude and phase -/
  i1 : Int
  i1arg : Nat
  deriving DecidableEq, Repr

/-- One fast sample instant: the codes of FC0 to FC2 before the median filter, and which inputs lie beyond full scale (R212 to R222). -/
structure FastIn where
  codes : Int × Int × Int
  ovr : Nat
  deriving DecidableEq, Repr

/-- One slot of the multiplexed converters: the codes of MC0 and MC1 as the inputs give them, and which of them lie beyond full scale
(bit 0 MC0, bit 1 MC1); the fast code of the shadow input at the slot's instant when it lies off the fast grid is interpolated
by the model. -/
structure SlotIn where
  mc0 : Int
  mc1 : Int
  ovr : Nat
  deriving DecidableEq, Repr

/-- One path M output instant: the outputs of streams 0 to 14 in chain format (R237). -/
structure PathIn where
  vals : List Int
  deriving DecidableEq, Repr

/-- A message between the lanes of a safe pulse block (R342): whether lane 1 receives it (else lane 2), whether its CRC is correct, the demand,
filtered inputs and check value it carries, and the read-back of x_GEN1 (bit 0) and x_GEN2 (bit 1) as the field die senses it (R352,
notes/assumptions/28.md). -/
structure LaneIn where
  toLane1 : Bool
  good : Bool
  demand : Bool
  inputs : Nat
  check : Word
  rb : Nat
  deriving DecidableEq, Repr

/-- A training frame as the receiver of a link sees it (R298): its first symbol is K28.5, its capability byte, state byte and check symbol, and
in ALIGN the number of consecutive frames received without error so far. -/
structure TrainIn where
  k28 : Bool
  caps : Nat
  state : Nat
  check : Nat
  run : Nat
  deriving DecidableEq, Repr

/-- A Sync, with its Follow_Up where it is two-step (R379 to R387): port (0 ETH-A, 1 ETH-B), domain number, clockIdentity of the grandmaster,
logSyncInterval, the Hall time of its reception in ns, and its origin time with the corrections it carries, in fs of the domain's time. -/
structure SyncIn where
  port : Nat
  domain : Nat
  gm : Nat
  interval : Int
  rx : Nat
  origin : Int
  deriving DecidableEq, Repr

/-- An Announce (R380, R381, R387): port, domain number, the fields that the default best master clock algorithm compares, and logAnnounceInterval. -/
structure AnnounceIn where
  port : Nat
  domain : Nat
  prio1 : BitVec 8
  cls : BitVec 8
  accuracy : BitVec 8
  variance : BitVec 16
  prio2 : BitVec 8
  gm : BitVec 64
  steps : BitVec 16
  sender : BitVec 64
  interval : Int
  deriving DecidableEq, Repr

/-- Regions of a memory error (R43, R44, R424): of a polder, the packet buffers of the Hall, the memory of the Dikehouse. -/
inductive EccRegion where
  | ceCode | ceData | seCode | seData
  | table (off : Nat)
  | gallery (off : Nat)
  | capture (off : Nat)
  | filter (stream : Nat)
  | spb
  | mailbox | hallPackets | watchCore
  deriving DecidableEq, Repr

/-- A memory error: its region, and whether two bits of the word are wrong. A single-bit error is corrected and counted; the table has no row of its
own for it (notes/assumptions/15.md). -/
structure MemError where
  region : EccRegion
  double : Bool
  deriving DecidableEq, Repr

/-- What the read-back stage of output `k` has sampled: its level, at that number of consecutive ticks of 1 µs (R329). -/
structure RbSeen where
  k : Nat
  high : Bool
  ticks : Nat
  deriving DecidableEq, Repr

/-- What a window comparator meets: the voltage in microvolts at its input. -/
structure CmpSeen where
  k : Nat
  uv : Int
  deriving DecidableEq, Repr

/-- The same with the number of CLK_P cycles that the voltage lasts (R231). -/
structure CmpHeld where
  k : Nat
  uv : Int
  cycles : Nat
  deriving DecidableEq, Repr

/-- A pin that has stood at a level for a number of CLK_P cycles. -/
structure PinHeld where
  low : Bool
  cycles : Nat
  deriving DecidableEq, Repr

/-- Rails of R494. -/
inductive Rail where
  | vaon | vddH | vddio
  | vdd (p : PolderId)
  | vdda (p : PolderId)
  | lp (p : PolderId)
  deriving DecidableEq, Repr

/-- A polder's debug port, with the level of `x_DBG_EN` (R504). -/
structure DebugPort where
  pol : PolderId
  en : Bool
  deriving DecidableEq, Repr

/-- The engine that the debug port addresses, CE or SE, with the level of `x_DBG_EN` (R504). -/
structure DebugEngine where
  ce : Bool
  en : Bool
  deriving DecidableEq, Repr

/-- The NV stores: a polder's, or the device's. -/
inductive NvStore where
  | polder (p : PolderId)
  | device
  deriving DecidableEq, Repr


/-- The commands and events of the table. Commands of a host, of the Movia monitor or of an engine are rows; so is every
event that the clock, a converter, a link or a pin brings about. -/
inductive Instr where
  /-- HELLO (R406): Opens a session: chooses the version, assigns the session ID and index, and derives the session key. -/
  | hello (t : Nat) (h : HelloArgs)
  /-- BYE (R408): Closes the session after its reply and releases its tokens. -/
  | bye (t : Nat) (c : Cmd)
  /-- TOKEN_TAKE (R410): Takes all the named control tokens or none, with optional FORCE for ADMIN, and renews their leases. -/
  | tokenTake (t : Nat) (c : Cmd)
  /-- TOKEN_RELEASE (R410): Releases the named tokens, with the sluice effects of a lapse but no TOKEN notification. -/
  | tokenRelease (t : Nat) (c : Cmd)
  /-- SUBSCRIBE (R412): Replaces the session's subscription to notification classes and targets as a whole. -/
  | subscribe (t : Nat) (c : Cmd)
  /-- GET_NOTIFICATIONS (R413): Returns one kept notification of the session by its SEQ. -/
  | getNotifications (t : Nat) (c : Cmd)
  /-- SET_NETWORK (R417): Writes the Hall network registers and applies them with HAL_APPLY.GO. -/
  | setNetwork (t : Nat) (c : Cmd)
  /-- SET_SV (R416): Writes a polder's sampled-value addressing, svID and confRev, and applies them. -/
  | setSv (t : Nat) (c : Cmd)
  /-- SET_KEY (R408): Installs or erases a key slot with its role and token mask, and closes sessions on that slot. -/
  | setKey (t : Nat) (c : Cmd)
  /-- GET_HALL (R419): Returns the Hall state, tokens, events and counters, taken in one Hall clock cycle. -/
  | getHall (t : Nat) (c : Cmd)
  /-- READ_WORDS (R420): Reads n words of the target window as Hall-bridge accesses, with their side effects. -/
  | readWords (t : Nat) (tgt : Target) (c : Cmd)
  /-- WRITE_WORDS (R421): Writes n words in order through the Hall bridge and stops at the first word that cannot be written. -/
  | writeWords (t : Nat) (tgt : Target) (c : Cmd)
  /-- SET_BASES (R83): Stages and commits the per-unit bases, f_nom and converter scalings in one sluice. -/
  | setBases (t : Nat) (p : PolderId) (c : Cmd)
  /-- SET_INERTIA (R83): Stages and commits the inertia, damping, estimator bandwidth and power filter time constant. -/
  | setInertia (t : Nat) (p : PolderId) (c : Cmd)
  /-- SET_DROOPS (R83): Stages and commits the P–f and Q–V droops. -/
  | setDroops (t : Nat) (p : PolderId) (c : Cmd)
  /-- SET_VOLTAGE_LAW (R83): Stages and commits Tv, the virtual impedance, the voltage loop gain, Bc and their enables. -/
  | setVoltageLaw (t : Nat) (p : PolderId) (c : Cmd)
  /-- SET_LIMITS (R83): Stages and commits the current limit, negative-sequence gain, frequency clamp and limit mode. -/
  | setLimits (t : Nat) (p : PolderId) (c : Cmd)
  /-- SET_ANCHOR (R83): Stages and commits the time-anchor enable, bandwidth, fade time, limit and offset. -/
  | setAnchor (t : Nat) (p : PolderId) (c : Cmd)
  /-- SET_POINTS (R83): Stages and commits the masked stair targets P, Q, V and f. -/
  | setPoints (t : Nat) (p : PolderId) (c : Cmd)
  /-- GET_SWING (R84): Latches the measurement group and returns the swing-engine values of one update. -/
  | getSwing (t : Nat) (p : PolderId) (c : Cmd)
  /-- REQUEST_REGIME (R118): Stages a write of PCT_REGREQ and commits it at once or at a given time; R88 judges the request. -/
  | requestRegime (t : Nat) (p : PolderId) (c : Cmd)
  /-- BREAKER (R93): Opens or closes the breaker output and replies after confirmation, failure or a replacing order. -/
  | breaker (t : Nat) (p : PolderId) (c : Cmd)
  /-- SET_START_SYNC (R118): Stages and commits PCT_REGCFG and the pre-charge, energise, back-off and sync settings. -/
  | setStartSync (t : Nat) (p : PolderId) (c : Cmd)
  /-- SET_RIDE (R118): Stages and commits the ride-through, slip, RoCoF, DC-guard and stop settings. -/
  | setRide (t : Nat) (p : PolderId) (c : Cmd)
  /-- SET_ENVELOPE (R106): Stages and commits the 16 points of the UV or OV envelope. -/
  | setEnvelope (t : Nat) (p : PolderId) (c : Cmd)
  /-- GET_REGIME (R118): Returns the regime state, regime events and ride quantities. -/
  | getRegime (t : Nat) (p : PolderId) (c : Cmd)
  /-- SET_EMBANKMENT (R152): Stages and commits the topology, zero-sequence removal, common-mode estimate and filter reactance. -/
  | setEmbankment (t : Nat) (p : PolderId) (c : Cmd)
  /-- SET_BAND (R152): Stages and commits the band mode, target switching frequency, band values and trim gain. -/
  | setBand (t : Nat) (p : PolderId) (c : Cmd)
  /-- SET_PREDICTION (R152): Stages and commits the slope source, fit length, external lead, hold-off and related settings. -/
  | setPrediction (t : Nat) (p : PolderId) (c : Cmd)
  /-- SET_NP_BALANCE (R152): Stages and commits the neutral-point balancing settings. -/
  | setNpBalance (t : Nat) (p : PolderId) (c : Cmd)
  /-- GET_EMBANKMENT (R153): Returns the per-phase embankment values of one sampling, with status and events. -/
  | getEmbankment (t : Nat) (p : PolderId) (c : Cmd)
  /-- SET_MODULATOR (R185): Stages and commits the modulator mode, options, dead times, minimum pulse and safe-state gap. -/
  | setModulator (t : Nat) (p : PolderId) (c : Cmd)
  /-- SET_BOOTSTRAP (R185): Stages and commits the bootstrap profile and the chopper levels. -/
  | setBootstrap (t : Nat) (p : PolderId) (c : Cmd)
  /-- SET_PULSE_SHAPE (R185): Stages and commits one leg's gate-drive step word and the current threshold. -/
  | setPulseShape (t : Nat) (p : PolderId) (c : Cmd)
  /-- SET_CARRIER (R185): Stages and commits the masked carrier period, CPWM duties and COT/CFT timers into the buffers. -/
  | setCarrier (t : Nat) (p : PolderId) (c : Cmd)
  /-- GET_MODULATOR (R186): Returns the modulator state and the values in force, taken in one CLK_P cycle. -/
  | getModulator (t : Nat) (p : PolderId) (c : Cmd)
  /-- SET_LEARNER (R211): Stages and commits the learner options, gain, forgetting factor, lead, limit, mask and intervals. -/
  | setLearner (t : Nat) (p : PolderId) (c : Cmd)
  /-- LEARNER_STORE (R211): Carries out SAVE, RESTORE, CLEAR or ERASE by a direct write of LRN_CMD, or answers STATE. -/
  | learnerStore (t : Nat) (p : PolderId) (c : Cmd)
  /-- GET_LEARNER (R211): Returns the learner state, counters, weight and one phase's coefficients. -/
  | getLearner (t : Nat) (p : PolderId) (c : Cmd)
  /-- SET_GALLERY (R204): Stages and commits the gallery probes, trigger, length, pre-trigger rows and decimation. -/
  | setGallery (t : Nat) (p : PolderId) (c : Cmd)
  /-- GALLERY_CONTROL (R211): Arms, forces or stops the gallery by a direct write of GAL_CMD, or answers STATE. -/
  | galleryControl (t : Nat) (p : PolderId) (c : Cmd)
  /-- READ_GALLERY (R211): Returns rows of a DONE gallery record in time order. -/
  | readGallery (t : Nat) (p : PolderId) (c : Cmd)
  /-- SET_ACQUISITION (R235): Stages and commits the frame trigger, plausibility checks, restart delay and tolerances. -/
  | setAcquisition (t : Nat) (p : PolderId) (c : Cmd)
  /-- SET_COMPARATOR (R235): Stages and commits one window comparator's thresholds and configuration. -/
  | setComparator (t : Nat) (p : PolderId) (c : Cmd)
  /-- RUN_INPUT_TEST (R229): Tests the selected inputs through the test DAC, level by level, and reports offsets and gain errors. -/
  | runInputTest (t : Nat) (p : PolderId) (c : Cmd)
  /-- GET_ACQUISITION (R236): Returns raw samples, over-range bits, status and check counters, taken in one CLK_P cycle. -/
  | getAcquisition (t : Nat) (p : PolderId) (c : Cmd)
  /-- SET_FILTERS (R262): Stages and commits the filter responses, the metering block length, HSEL and SV_EN. -/
  | setFilters (t : Nat) (p : PolderId) (c : Cmd)
  /-- GET_METERING (R263): Latches the metered set and returns one block's values. -/
  | getMetering (t : Nat) (p : PolderId) (c : Cmd)
  /-- SET_CAPTURE (R255): Stages and commits the capture configuration. -/
  | setCapture (t : Nat) (p : PolderId) (c : Cmd)
  /-- CAPTURE_CONTROL (R262): Arms, forces or stops capture directly, or arms it through a timed sluice. -/
  | captureControl (t : Nat) (p : PolderId) (c : Cmd)
  /-- READ_CAPTURE (R262): Returns words of a DONE capture record in time order. -/
  | readCapture (t : Nat) (p : PolderId) (c : Cmd)
  /-- SLUICE_OPEN (R274): Allocates a free sluice to the token holder's session. -/
  | sluiceOpen (t : Nat) (p : PolderId) (c : Cmd)
  /-- SLUICE_STAGE (R277): Stages all or none of n masked entries after the limits-table checks. -/
  | sluiceStage (t : Nat) (p : PolderId) (c : Cmd)
  /-- SLUICE_COMMIT (R279): Requests an immediate commit after the check, or schedules a timed one. -/
  | sluiceCommit (t : Nat) (p : PolderId) (c : Cmd)
  /-- SLUICE_ABORT (R285): Aborts the owner's sluice, or another session's SCHEDULED sluice for a token holder. -/
  | sluiceAbort (t : Nat) (p : PolderId) (c : Cmd)
  /-- GET_SLUICE (R290): Returns a sluice's state, commit time and staged entries. -/
  | getSluice (t : Nat) (p : PolderId) (c : Cmd)
  /-- SET_STAIR (R290): Stages and commits one stair's landing configuration, rates and landing level. -/
  | setStair (t : Nat) (p : PolderId) (c : Cmd)
  /-- GET_STAIRS (R291): Returns the stair state, outputs, targets in force and dwell remaining of one update. -/
  | getStairs (t : Nat) (p : PolderId) (c : Cmd)
  /-- SET_DIKE (R318): Stages and commits the trip enables, masks, trip-chain options, settle time and limits. -/
  | setDike (t : Nat) (p : PolderId) (c : Cmd)
  /-- SET_L1 (R318): Stages and commits one link's L1 thresholds, blanking and count. -/
  | setL1 (t : Nat) (p : PolderId) (c : Cmd)
  /-- CLEAR_TRIPS (R309): Writes DIK_CLR through a sluice: clears the named latches all-or-nothing, or answers TRIP_STILL_ACTIVE. -/
  | clearTrips (t : Nat) (p : PolderId) (c : Cmd)
  /-- TRIP (R318): Raises a software trip, from any session, and records the reason code. -/
  | trip (t : Nat) (p : PolderId) (c : Cmd)
  /-- GET_DIKE (R319): Returns the trip latches, active sources, first latch, events and self-test results. -/
  | getDike (t : Nat) (p : PolderId) (c : Cmd)
  /-- SET_GATE_LINK (R316): Stages and commits one link's configuration and sense full scale. -/
  | setGateLink (t : Nat) (p : PolderId) (c : Cmd)
  /-- GATE_LINK_CONTROL (R318): Retrains a link or sends READ_ID, SELFTEST, CLR_L2 or CLR_FAULT, and replies with the response. -/
  | gateLinkControl (t : Nat) (p : PolderId) (c : Cmd)
  /-- RUN_SELF_TEST (R313): Runs the window-comparator and/or gate-unit self-tests and returns DIK_STEST. -/
  | runSelfTest (t : Nat) (p : PolderId) (c : Cmd)
  /-- GET_GATE_LINKS (R319): Returns configuration, state, errors and monitored values of all four links. -/
  | getGateLinks (t : Nat) (p : PolderId) (c : Cmd)
  /-- SET_FIELD_INPUTS (R339): Stages and commits the input filter times and queued edges. -/
  | setFieldInputs (t : Nat) (p : PolderId) (c : Cmd)
  /-- SET_FIELD_OUTPUTS (R339): Stages and commits the test-pulse, retry and read-back settings of the outputs. -/
  | setFieldOutputs (t : Nat) (p : PolderId) (c : Cmd)
  /-- SET_OUTPUTS (R339): Writes FIO_DOCMD through a sluice with the selected outputs masked. -/
  | setOutputs (t : Nat) (p : PolderId) (c : Cmd)
  /-- GET_FIELD_IO (R339): Returns the field I/O state and counters, taken in one CLK_P cycle. -/
  | getFieldIo (t : Nat) (p : PolderId) (c : Cmd)
  /-- GET_FIELD_EVENTS (R323): Returns and removes up to n entries from the field event queue. -/
  | getFieldEvents (t : Nat) (p : PolderId) (c : Cmd)
  /-- CLEAR_FIELD_DIAG (R330): Writes FIO_DODIAG directly to clear diagnostic flags. -/
  | clearFieldDiag (t : Nat) (p : PolderId) (c : Cmd)
  /-- SET_SAFETY (R360): Stages and commits the safety parameter set and returns the new check value. -/
  | setSafety (t : Nat) (p : PolderId) (c : Cmd)
  /-- CONFIRM_SAFETY (R362): Confirms the set in force by check value or password and stores it in NV. -/
  | confirmSafety (t : Nat) (p : PolderId) (c : Cmd)
  /-- SAFETY_ACK (R348): Acknowledges a safe pulse block in WAIT_ACK or with latched faults, and starts the enable-path test. -/
  | safetyAck (t : Nat) (p : PolderId) (c : Cmd)
  /-- GET_SAFETY (R367): Returns lane 1's safety state, parameter set and counters in one CLK_P cycle. -/
  | getSafety (t : Nat) (p : PolderId) (c : Cmd)
  /-- SET_SAFETY_PASSWORD (R363): Changes the safety password when given the confirmed check value. -/
  | setSafetyPassword (t : Nat) (p : PolderId) (c : Cmd)
  /-- READ_SAFETY_LOG (R364): Returns entries of the safety change log. -/
  | readSafetyLog (t : Nat) (p : PolderId) (c : Cmd)
  /-- SET_CLOCK (R393): Converts f_ref and trim to NINT and FRAC and stages only the clock registers that change. -/
  | setClock (t : Nat) (p : PolderId) (c : Cmd)
  /-- GET_CLOCK (R393): Returns the PLL configuration, state, events and lock statistics. -/
  | getClock (t : Nat) (p : PolderId) (c : Cmd)
  /-- SET_TIME_SOURCES (R393): Stages and commits the PTP domain configurations and the presented-time options. -/
  | setTimeSources (t : Nat) (p : PolderId) (c : Cmd)
  /-- GET_TIME (R393): Returns presented time and the time-unit state, taken in one CLK_P cycle. -/
  | getTime (t : Nat) (p : PolderId) (c : Cmd)
  /-- SET_PPS (R389): Stages and commits the PPS direction, minimum quality and width. -/
  | setPps (t : Nat) (p : PolderId) (c : Cmd)
  /-- SET_TIME (R386): Steps TBL and presented time directly, only while the quality is NONE or FREE. -/
  | setTime (t : Nat) (p : PolderId) (c : Cmd)
  /-- GET_NV (R472): Returns the NV bank state, sequences and write counts. -/
  | getNv (t : Nat) (p : PolderId) (c : Cmd)
  /-- FW_SLOT (R453): Erases, writes or checks the non-active, non-trial firmware slot. -/
  | fwSlot (t : Nat) (p : PolderId) (c : Cmd)
  /-- FW_ACTIVATE (R450): Writes TRIAL_PENDING for a valid slot, or makes it active in rescue, and restarts the polder. -/
  | fwActivate (t : Nat) (p : PolderId) (c : Cmd)
  /-- FW_CONFIRM (R451): Makes the trial slot active, raises PCT_MINRB, sets revocation bits and writes CONFIRMED. -/
  | fwConfirm (t : Nat) (p : PolderId) (c : Cmd)
  /-- GET_FIRMWARE (R449): Returns the boot state and the headers and check results of both slots. -/
  | getFirmware (t : Nat) (p : PolderId) (c : Cmd)
  /-- SET_PERFORMANCE (R443): Stages and commits the polder's performance mode. -/
  | setPerformance (t : Nat) (p : PolderId) (c : Cmd)
  /-- SLEEP (R454): Replies and then takes the polder into SLEEP in order within 5 ms. -/
  | sleep (t : Nat) (p : PolderId) (c : Cmd)
  /-- POLDER_POWER (R460): Requests a Dikehouse action for the named polders, all-or-nothing. -/
  | polderPower (t : Nat) (c : Cmd)
  /-- SET_WATCH (R457): Writes one watch input's configuration, with thresholds converted to codes. -/
  | setWatch (t : Nat) (c : Cmd)
  /-- SET_RULE (R458): Writes one Dikehouse rule's condition and action and stores them. -/
  | setRule (t : Nat) (c : Cmd)
  /-- SET_SUPERVISION (R463): Writes one polder's Dikehouse supervision settings and stores them. -/
  | setSupervision (t : Nat) (c : Cmd)
  /-- GET_DIKEHOUSE (R473): Returns the Dikehouse state, events, time, watch inputs, restart counts and NV state. -/
  | getDikehouse (t : Nat) (c : Cmd)
  /-- READ_LOG (R482): Returns consecutive event-log records from the SRAM or NV store. -/
  | readLog (t : Nat) (tgt : Target) (c : Cmd)
  /-- SET_LOG (R480): Writes PCT_LOGCFG through a sluice. -/
  | setLog (t : Nat) (p : PolderId) (c : Cmd)
  /-- GET_ENGINES (R440): Returns engine states, events, counters, mailbox states, epochs and lock owners. -/
  | getEngines (t : Nat) (p : PolderId) (c : Cmd)
  /-- SET_MONITOR (R489): Writes PCT_MONCFG through a sluice and optionally ends the open monitor session. -/
  | setMonitor (t : Nat) (p : PolderId) (c : Cmd)
  /-- MONITOR_HELP (R486): Monitor command HELP prints the command list. -/
  | monitorHelp (t : Nat) (p : PolderId)
  /-- MONITOR_ID (R486): Monitor command ID prints PCT_ID, PCT_FWVER and PCT_BOOT. -/
  | monitorId (t : Nat) (p : PolderId)
  /-- MONITOR_STAT (R486): Monitor command STAT prints the regime, trip latches, safety, clock and time state. -/
  | monitorStat (t : Nat) (p : PolderId)
  /-- UNLOCK (R485): Monitor command UNLOCK prints a challenge, or is refused under lockout or without a key. -/
  | unlock (t : Nat) (p : PolderId)
  /-- UNLOCK_RESPONSE (R485): A response line to a challenge is checked by the Hall and sets the level or counts a failure. -/
  | unlockResponse (t : Nat) (p : PolderId) (resp : List Byte)
  /-- LOCK (R486): Monitor command LOCK returns the session to level LOCKED. -/
  | lock (t : Nat) (p : PolderId)
  /-- QUIT (R484): Monitor command QUIT ends the session and releases its locks. -/
  | quit (t : Nat) (p : PolderId)
  /-- RD (R486): Monitor command RD reads 1–64 words of the polder window as sender 0x5. -/
  | rd (t : Nat) (p : PolderId) (addr : Nat) (n : Nat)
  /-- MONITOR_LOG (R486): Monitor command LOG prints event-log records. -/
  | monitorLog (t : Nat) (p : PolderId) (first : Nat) (n : Nat)
  /-- DUMP_GAL (R486): Monitor command DUMP GAL prints gallery words of a DONE record. -/
  | dumpGal (t : Nat) (p : PolderId) (first : Nat) (n : Nat)
  /-- DUMP_CAP (R486): Monitor command DUMP CAP prints capture words of a DONE record. -/
  | dumpCap (t : Nat) (p : PolderId) (first : Nat) (n : Nat)
  /-- ENG (R486): Monitor command ENG prints the fields of GET_ENGINES. -/
  | eng (t : Nat) (p : PolderId)
  /-- WR (R487): Monitor command WR makes one permitted direct write, or refuses it and logs code 0x5. -/
  | wr (t : Nat) (p : PolderId) (addr : Nat) (v : Word)
  /-- MONITOR_TRIP (R486): Monitor command TRIP writes DIK_SWTRIP and logs the code. -/
  | monitorTrip (t : Nat) (p : PolderId) (code : Nat)
  /-- MONITOR_CLEAR (R486): Monitor command CLEAR writes DIK_CLR under R309 and prints DIK_CLRRES. -/
  | monitorClear (t : Nat) (p : PolderId) (mask : Nat)
  /-- MONITOR_DO (R486): Monitor command DO writes FIO_DOCMD as sender 0x5. -/
  | monitorDo (t : Nat) (p : PolderId) (mask : Nat) (v : Nat)
  /-- MONITOR_RESTART (R486): Monitor command RESTART resets the polder with cause 0x7 in regimes without the law. -/
  | monitorRestart (t : Nat) (p : PolderId)
  /-- MONITOR_RATE_SET (R483): A CR after at least 1 ms of idle line sets the monitor baud rate and opens a session. -/
  | monitorRateSet (t : Nat) (p : PolderId) (baud : Nat)
  /-- MONITOR_SESSION_TIMEOUT (R484): 600 s without input end the monitor session and release its locks. -/
  | monitorSessionTimeout (t : Nat) (p : PolderId)
  /-- MONITOR_LOCKOUT_END (R485): 15 min after the fifth wrong response, UNLOCK is accepted again. -/
  | monitorLockoutEnd (t : Nat) (p : PolderId)
  /-- DIRECT_REGISTER_WRITE (R513): A direct write to a register without a row of its own takes effect per field access type or is an access error. -/
  | directRegisterWrite (t : Nat) (m : Master) (addr : Nat) (v : Word)
  /-- MEASUREMENT_GROUP_LATCH (R82): A read of SWG_P latches the whole swing-engine measurement group. -/
  | measurementGroupLatch (t : Nat) (p : PolderId) (m : Master)
  /-- METER_LATCH (R250): A read of FLT_MTR0 latches the whole metered set with its time. -/
  | meterLatch (t : Nat) (p : PolderId) (m : Master)
  /-- TIME_LATCH (R392): A read of TIM_NOW_FR latches the presented-time registers. -/
  | timeLatch (t : Nat) (p : PolderId) (m : Master)
  /-- MAILBOX_PUSH (R428): A sender's write of MBX_DATAq pushes one tagged word, or is refused into a full queue. -/
  | mailboxPush (t : Nat) (p : PolderId) (m : Master) (onBehalf : Bool) (q : Nat) (w : Word)
  /-- MAILBOX_POP (R431): A receiver's read of MBX_DATAq pops the head word and may set EMPTY. -/
  | mailboxPop (t : Nat) (p : PolderId) (m : Master) (q : Nat)
  /-- LOCK_ACQUIRE (R434): A read of a lock register acquires a free lock or reports its owner. -/
  | lockAcquire (t : Nat) (p : PolderId) (ms : List Master) (k : Nat)
  /-- LOCK_RELEASE (R436): A write of a lock register releases it if the writer owns it, otherwise it is recorded as bad. -/
  | lockRelease (t : Nat) (p : PolderId) (m : Master) (k : Nat)
  /-- QPOP (R323): A write of FIO_QPOP removes the head entry of the field event queue. -/
  | qpop (t : Nat) (p : PolderId) (m : Master) (v : Word)
  /-- GALLERY_ARM (R205): GAL_CMD.ARM arms the gallery with the configuration in force. -/
  | galleryArm (t : Nat) (p : PolderId) (m : Master)
  /-- GALLERY_FORCE (R205): GAL_CMD.FORCE triggers an ARMED gallery. -/
  | galleryForce (t : Nat) (p : PolderId) (m : Master)
  /-- GALLERY_STOP (R205): GAL_CMD.STOP moves ARMED to IDLE or TRIGGERED to DONE. -/
  | galleryStop (t : Nat) (p : PolderId) (m : Master)
  /-- CAPTURE_ARM (R256): CAP_CMD.ARM arms the capture engine with the configuration in force. -/
  | captureArm (t : Nat) (p : PolderId) (m : Master)
  /-- CAPTURE_FORCE (R256): CAP_CMD.FORCE triggers an ARMED capture. -/
  | captureForce (t : Nat) (p : PolderId) (m : Master)
  /-- CAPTURE_STOP (R256): CAP_CMD.STOP stops the capture engine. -/
  | captureStop (t : Nat) (p : PolderId) (m : Master)
  /-- LEARNER_SAVE (R198): LRN_CMD.SAVE stores the learner section in NV. -/
  | learnerSave (t : Nat) (p : PolderId) (m : Master)
  /-- LEARNER_RESTORE (R199): LRN_CMD.RESTORE loads a matching learner section and sweeps the tables, in state OFF only. -/
  | learnerRestore (t : Nat) (p : PolderId) (m : Master)
  /-- LEARNER_CLEAR (R195): LRN_CMD.CLEAR zeroes the coefficients and sweeps the tables, in state OFF only. -/
  | learnerClear (t : Nat) (p : PolderId) (m : Master)
  /-- LEARNER_ERASE (R198): LRN_CMD.ERASE invalidates the learner section in NV. -/
  | learnerErase (t : Nat) (p : PolderId) (m : Master)
  /-- LEARNER_TABLE_WRITE (R197): An expert write to the learner table is taken in state OFF and is an access error otherwise. -/
  | learnerTableWrite (t : Nat) (p : PolderId) (m : Master) (off : Nat) (v : Word)
  /-- CNTCLR_EMB (R151): EMB_CNTCLR.CLR clears the LATE and MISSED counters. -/
  | cntclrEmb (t : Nat) (p : PolderId) (m : Master)
  /-- SWTRIP (R310): A write of DIK_SWTRIP makes trip source 8 active for one cycle. -/
  | swtrip (t : Nat) (p : PolderId) (m : Master)
  /-- DIK_CLR (R309): A write of DIK_CLR clears the named latches if each source has settled, all-or-nothing. -/
  | dikClr (t : Nat) (p : PolderId) (m : Master) (mask : Nat)
  /-- BUFFERED_WRITE (R168): A direct write of a double-buffered modulator register fills the buffer, clamped, possibly late. -/
  | bufferedWrite (t : Nat) (p : PolderId) (m : Master) (off : Nat) (v : Word)
  /-- OUTPUT_ORDER (R326): A direct write of FIO_DOCMD orders outputs, with arbitration by sender ID and assignments kept. -/
  | outputOrder (t : Nat) (p : PolderId) (orders : List (Master × Nat × Nat))
  /-- APPLY_GO (R417): HAL_APPLY.GO brings the held Hall configuration into force and stores it. -/
  | applyGo (t : Nat)
  /-- APPLY_DISCARD (R417): HAL_APPLY.DISCARD returns held Hall values to those in force. -/
  | applyDiscard (t : Nat)
  /-- CNTCLR (R417): HAL_APPLY.CNTCLR clears the Hall counters. -/
  | cntclr (t : Nat)
  /-- DKH_SAVE (R471): DKH_CMD.SAVE stores the Dikehouse configuration in the device NV. -/
  | dkhSave (t : Nat)
  /-- WAKECLR (R459): DKH_CMD.WAKECLR releases DKH_WAKE. -/
  | wakeclr (t : Nat)
  /-- DKHREQ_TRIP (R462): A Dikehouse write of PCT_DKHREQ.TRIP latches trip bit 8. -/
  | dkhreqTrip (t : Nat) (p : PolderId)
  /-- DKHREQ_STOP (R462): A Dikehouse write of PCT_DKHREQ.STOP is a rank-3 stop request with the given mode. -/
  | dkhreqStop (t : Nat) (p : PolderId) (mode : Nat)
  /-- SWING_UPDATE (R54): Each Ts the swing engine samples stairs and RWS values and computes power, frequency, phase, EMF and current references. -/
  | swingUpdate (t : Nat) (p : PolderId) (x : SwingIn)
  /-- DWELL_END (R269): A stair's dwell time expires and the stair ramps on towards its target. -/
  | dwellEnd (t : Nat) (p : PolderId) (k : Nat)
  /-- ANCHOR_BLOCK (R77): 10 s of continuous clamping block the anchor and set ANCHOR_SAT. -/
  | anchorBlock (t : Nat) (p : PolderId)
  /-- ANCHOR_UNBLOCK (R77): 10 s of anchor error below 1/256 rev clear ANCHOR_BLK. -/
  | anchorUnblock (t : Nat) (p : PolderId)
  /-- COEFFICIENT_SET_COMPLETE (R191): The CE completes the new coefficient set and the sweep of the tables starts. `n` is the number of complete
  sets before it, as `LRN_CYCLES` counts; the row acts for that set alone. -/
  | coefficientSetComplete (t : Nat) (p : PolderId) (n : Nat)
  /-- SWEEP_END (R191): The sweep of the three learner tables ends; SWEEP clears and LRN_CYCLES increments. -/
  | sweepEnd (t : Nat) (p : PolderId)
  /-- LEARNER_AUTOSAVE (R198): Every LRN_SAVEINT minutes of LEARN with AUTOSAVE the learner section is saved. -/
  | learnerAutosave (t : Nat) (p : PolderId)
  /-- REGIME_EVALUATION (R86): Each 10 µs CE cycle the regime machine evaluates its causes by precedence and makes at most one transition. -/
  | regimeEvaluation (t : Nat) (p : PolderId)
  /-- PRECHARGE_TIMEOUT (R90): SWG_PRE_TMO expires in PRECHARGE; STANDBY with PRE_TMO. -/
  | prechargeTimeout (t : Nat) (p : PolderId)
  /-- ENERGISE_TIMEOUT (R97): SWG_EN_TMO expires in ENERGISE; STOPPING in DE-ENERGISE with EN_FAIL. -/
  | energiseTimeout (t : Nat) (p : PolderId)
  /-- ENERGISE_COMPLETE (R97): 20 ms of settled voltage in SETTLE take the polder to FORMING. -/
  | energiseComplete (t : Nat) (p : PolderId)
  /-- SYNC_TIMEOUT (R90): SWG_SYNC_TMO expires before the close command; READY with SYNC_TMO. -/
  | syncTimeout (t : Nat) (p : PolderId)
  /-- CLOSE_COMMAND (R102): The match conditions held for SWG_SYNC_DWELL issue the breaker close; phase CLOSING. -/
  | closeCommand (t : Nat) (p : PolderId)
  /-- BREAKER_CLOSE_DELAY (R93): With AUX_EN at 0, BRK follows a commanded close after SWG_BRK_TCLOSE. -/
  | breakerCloseDelay (t : Nat) (p : PolderId)
  /-- BRK_TIMEOUT (R93): BRK_TMO expires without confirmation; BRK_FAIL sets and a failed close returns to READY. -/
  | brkTimeout (t : Nat) (p : PolderId)
  /-- BACKOFF_WAIT_END (R98): The random back-off wait ends and the polder enters ENERGISE on a dead bus. -/
  | backoffWaitEnd (t : Nat) (p : PolderId)
  /-- COLLISION (R99): SWG_IMAG ≥ 0.5 pu for 1 ms at low voltage after back-off; the polder backs off and retries. -/
  | collision (t : Nat) (p : PolderId)
  /-- DEAD_BUS_CHANGE (R89): |U1| on one side of SWG_DEAD_V for 2 ms changes PCT_REGIME.DEAD. -/
  | deadBusChange (t : Nat) (p : PolderId)
  /-- RIDE_IN (R104): The ride voltage out of band for SWG_RIDE_TDET enters RIDE. -/
  | rideIn (t : Nat) (p : PolderId)
  /-- RIDE_OUT (R104): The ride voltage within the recovery band for SWG_RIDE_TREC ends RIDE. -/
  | rideOut (t : Nat) (p : PolderId)
  /-- STOP_TMO (R111): SWG_STOP_TMO expires in the STOPPING ramp and the stop proceeds to OPENING. -/
  | stopTmo (t : Nat) (p : PolderId)
  /-- FAST_SAMPLE (R214): FC0–FC2 sample together and the median filter passes the sample on. -/
  | fastSample (t : Nat) (p : PolderId) (x : FastIn)
  /-- EMBANKMENT_DECISION (R130): At each decision instant the controller fits the slope, predicts the crossing and may commit a move. -/
  | embankmentDecision (t : Nat) (p : PolderId) (leg : Nat)
  /-- LEVEL_CHANGE (R157): At a command instant the outgoing switch turns off, subject to minimum-pulse delay. -/
  | levelChange (t : Nat) (p : PolderId) (leg : Nat)
  /-- DEAD_TIME_END (R157): T_dt after the command instant the incoming switch turns on. -/
  | deadTimeEnd (t : Nat) (p : PolderId) (leg : Nat)
  /-- TIMER_MOVE (R163): In COT or CFT the timer ends the on-time or off-time with a level change. -/
  | timerMove (t : Nat) (p : PolderId) (leg : Nat)
  /-- PERIOD_BOUNDARY (R164): At each carrier period boundary buffers reload, dropping is decided and carrier edges are placed. -/
  | periodBoundary (t : Nat) (p : PolderId)
  /-- CENTRE_RELOAD (R167): With UPD at 1 the carrier centre reloads TON and moves the move down. -/
  | centreReload (t : Nat) (p : PolderId)
  /-- REFRESH_PULSE (R172): MOD_BS_TMAX at the higher level forces a bootstrap refresh pulse. -/
  | refreshPulse (t : Nat) (p : PolderId) (leg : Nat)
  /-- REFRESH_PULSE_STEP (R172): A timed inner step of a refresh pulse switches the next switch. -/
  | refreshPulseStep (t : Nat) (p : PolderId) (leg : Nat)
  /-- REFERENCE_STARVATION (R181): No new references for 5 µs makes trip source 9 active. -/
  | referenceStarvation (t : Nat) (p : PolderId) (leg : Nat)
  /-- SAFE_STATE_STEP2 (R177): MOD_SS_GAP after step 1, S2 and S3 of 3-level legs turn off. -/
  | safeStateStep2 (t : Nat) (p : PolderId)
  /-- SEQUENCING_END (R179): MOD_SS_GAP after the last edge sequencing ends; SAFE sets and GEN lines fall for GENMASK latches. -/
  | sequencingEnd (t : Nat) (p : PolderId)
  /-- DOWNLINK_FRAME (R293): Each frame period a downlink frame is sent with states, fine edge time and message byte. -/
  | downlinkFrame (t : Nat) (p : PolderId) (n : Nat)
  /-- UPLINK_FRAME (R300): An uplink frame is checked and its sense, L2, fault and status fields are used, or it counts as missing. -/
  | uplinkFrame (t : Nat) (p : PolderId) (n : Nat) (bad : Bool) (w : Word)
  /-- L2_WINDOW_END (R308): The 10 µs L2 window closes. -/
  | l2WindowEnd (t : Nat) (p : PolderId)
  /-- LINK_LOST (R301): LOSSN missing frames or a new hold-expired report take an UP link to LOST. -/
  | linkLost (t : Nat) (p : PolderId) (n : Nat)
  /-- TRAINING_FRAME (R298): A valid training frame moves the link through negotiation to the agreed version. -/
  | trainingFrame (t : Nat) (p : PolderId) (n : Nat) (x : TrainIn)
  /-- TRAINING_FAILURE (R298): A training bound expires; FAILRSN is recorded and the link returns to DOWN. -/
  | trainingFailure (t : Nat) (p : PolderId) (n : Nat)
  /-- TRAINING_RETRY (R298): 10 ms after a failure the link starts training again. -/
  | trainingRetry (t : Nat) (p : PolderId) (n : Nat)
  /-- GATE_UNIT_RESPONSE (R297): A response message from the gate unit completes the outstanding message. -/
  | gateUnitResponse (t : Nat) (p : PolderId) (n : Nat) (code : Nat) (payload : List Byte)
  /-- MESSAGE_TIMEOUT (R297): A message unanswered for 50 µs fails and its command returns TIMEOUT. -/
  | messageTimeout (t : Nat) (p : PolderId) (n : Nat)
  /-- TRIPI_CHANGE (R311): x_TRIPI after its filter changes level, activating trip source 0 and optionally driving x_TRIPO. -/
  | tripiChange (t : Nat) (p : PolderId) (x : PinHeld)
  /-- THERMAL_TRIP (R303): A thermal limit held for 1 ms, or a gate-unit temperature report, makes trip source 13 active. -/
  | thermalTrip (t : Nat) (p : PolderId)
  /-- COMPARATOR_SELF_TEST_LEVEL (R312): A self-test level settles and is judged, and the next level is applied. -/
  | comparatorSelfTestLevel (t : Nat) (p : PolderId) (outside : Bool)
  /-- SLOT_SAMPLE (R215): Each 100 ns slot MC0 and MC1 sample their inputs with flags. -/
  | slotSample (t : Nat) (p : PolderId) (x : SlotIn)
  /-- FRAME_RESTART (R218): AFE_TDLY after a carrier event a new frame starts, abandoning slots. -/
  | frameRestart (t : Nat) (p : PolderId)
  /-- COMPARATOR_ACTED (R231): A comparator outside for FILT cycles and unblanked makes trip source 1 active. -/
  | comparatorActed (t : Nat) (p : PolderId) (x : CmpHeld)
  /-- BLANKING_END (R232): A comparator's blanking ends and an output still outside acts. -/
  | blankingEnd (t : Nat) (p : PolderId) (k : Nat)
  /-- SETTLING_END (R232): 50 µs after power-up or wake the converters have settled and SETTLING clears. -/
  | settlingEnd (t : Nat) (p : PolderId)
  /-- INPUT_TEST_LEVEL (R229): A test level has waited 10 µs and averaged 64 samples; the next level is applied. The row names its
  input and level, and acts for them alone. -/
  | inputTestLevel (t : Nat) (p : PolderId) (k level : Nat)
  /-- PATH_M_OUTPUT (R237): Every 16 µs path M delivers an output to the resampler and capture. -/
  | pathMOutput (t : Nat) (p : PolderId) (x : PathIn)
  /-- METERING_CYCLE_COMPLETE (R247): The CE completes a metered cycle and at a block end replaces the metered set. The row names the
  cycle by the instant of its end, and acts for it alone. -/
  | meteringCycleComplete (t : Nat) (p : PolderId) (ends : Nat)
  /-- SAMPLED_VALUE_INSTANT (R251): A lane S sample is handed to the Hall for instant k. The row acts for the oldest sample of
  the lane alone. -/
  | sampledValueInstant (t : Nat) (p : PolderId) (k : Nat)
  /-- SV_FRAME_SEND (R416): The Hall sends a sampled-value frame for a handed-over sample. -/
  | svFrameSend (t : Nat) (p : PolderId)
  /-- SVLOST (R416): A sample not sent within 250 µs of handover is dropped and counted. -/
  | svlost (t : Nat) (p : PolderId)
  /-- CAPTURE_TIME_TRIGGER (R257): Presented time reaches CAP_TT and triggers an ARMED capture. -/
  | captureTimeTrigger (t : Nat) (p : PolderId)
  /-- FIRE_EDGE (R259): A qualified x_FIRE edge triggers an ARMED unit on falling, or arms a MEMBER on rising. -/
  | fireEdge (t : Nat) (p : PolderId) (falling : Bool)
  /-- FIRE_PULSE_END (R259): The 1 µs x_FIRE pulse of a SOLO or MEMBER trigger ends. -/
  | firePulseEnd (t : Nat) (p : PolderId)
  /-- ARM_EDGE (R259): A rising edge of x_ARM arms the capture when ARMPIN is 1. -/
  | armEdge (t : Nat) (p : PolderId)
  /-- SLUICE_CHECK (R280): 2 µs before a timed commit instant the sluice enters CHECK and is checked. -/
  | sluiceCheck (t : Nat) (p : PolderId) (n : Nat)
  /-- SLUICE_TIMED_COMMIT (R279): At its instant a SCHEDULED sluice writes all entries in one CLK_P cycle and notifies its owner. -/
  | sluiceTimedCommit (t : Nat) (p : PolderId) (n : Nat)
  /-- SLUICE_IDLE_TIMEOUT (R278): An OPEN sluice idle for STS_IDLE_TMO aborts with reason IDLE. -/
  | sluiceIdleTimeout (t : Nat) (p : PolderId) (n : Nat)
  /-- FIELD_INPUT_CHANGE (R322): An input's counter filter reaches an extreme and the filtered state changes with its event time. -/
  | fieldInputChange (t : Nat) (p : PolderId) (k : Nat)
  /-- READBACK_FAULT (R329): Read-back disagreeing with the driven state for 5 ticks sets EXT_DRIVE or NO_DRIVE, and XWIRE. The row carries what the
  read-back stage has sampled, an agreement or a shorter deviation too (notes/assumptions/27.md). -/
  | readbackFault (t : Nat) (p : PolderId) (x : RbSeen)
  /-- ILIM (R330): An output stage in current limit for 10 µs sets ILIM. -/
  | ilim (t : Nat) (p : PolderId) (k : Nat)
  /-- THERM (R333): An output stage shuts down thermally and THERM latches. -/
  | therm (t : Nat) (p : PolderId) (k : Nat)
  /-- THERMAL_RESTART (R333): With RETRY, a cooled stage restarts no earlier than 100 ms after shutdown. -/
  | thermalRestart (t : Nat) (p : PolderId) (k : Nat)
  /-- TEST_PULSE_START (R334): After TP_INT of on-time the output is driven off for a test pulse. -/
  | testPulseStart (t : Nat) (p : PolderId) (k : Nat)
  /-- TEST_PULSE_END (R335): TP_W after its start the pulse ends and passes or sets TESTFAIL. -/
  | testPulseEnd (t : Nat) (p : PolderId) (k : Nat) (low : Bool)
  /-- LP_LOSS (R328): LP_x below 17.5 V clears outputs, zeroes inputs and queues a loss entry. -/
  | lpLoss (t : Nat) (p : PolderId)
  /-- LP_RETURN (R328): LP_x at or above 18 V for 10 ms sets LPOK and queues a return entry. -/
  | lpReturn (t : Nat) (p : PolderId)
  /-- LANE_MESSAGE (R342): A lane receives the other lane's demand state, inputs and parameter check value. -/
  | laneMessage (t : Nat) (p : PolderId) (x : LaneIn)
  /-- LANE_DISAGREEMENT (R342): Lanes disagreeing for 500 µs latch an internal fault. -/
  | laneDisagreement (t : Nat) (p : PolderId)
  /-- LANE_STOPPED (R342): No valid lane message for 1 ms latches an internal fault and lane 2 takes the GEN lines low. -/
  | laneStopped (t : Nat) (p : PolderId)
  /-- PARAMETER_CHECK (R352): Every 10 ms each lane checks its parameter copy against SPB_CRC_OK. -/
  | parameterCheck (t : Nat) (p : PolderId)
  /-- SAFETY_INPUT_FILTERED (R345): A safety input held for T_f changes its filtered state and the pair demands or releases. -/
  | safetyInputFiltered (t : Nat) (p : PolderId) (k : Nat)
  /-- DISC (R346): A discrepancy lasting longer than SPB_DISC latches source 6. -/
  | disc (t : Nat) (p : PolderId) (pair : Nat)
  /-- STOMET_FRAME (R355): A copy of a Stomet frame is checked by each lane, compared and possibly accepted. -/
  | stometFrame (t : Nat) (p : PolderId) (port : Nat) (ip : Nat) (bytes : List Byte)
  /-- COMPARISON_WINDOW_END (R356): A comparison window ends without a partner: source 7 in strict mode, or a counted miss. -/
  | comparisonWindowEnd (t : Nat) (p : PolderId)
  /-- WDOG (R356): No accepted Stomet frame for SPB_WD latches source 7. -/
  | wdog (t : Nat) (p : PolderId)
  /-- NETWORK_DOWN (R357): No frame on a port for SPB_NETDOWN marks that network down in available mode. -/
  | networkDown (t : Nat) (p : PolderId) (port : Nat)
  /-- NETWORK_RESUME (R357): A network up for 1 s resumes comparison of copies. -/
  | networkResume (t : Nat) (p : PolderId) (port : Nat)
  /-- STOMET_TRANSMIT (R359): Every SPB_TXPER the polder sends its status frame if both lanes agree. -/
  | stometTransmit (t : Nat) (p : PolderId)
  /-- ENABLE_PATH_TEST_START (R351): The enable-path test starts once the Dike allows both GEN lines. -/
  | enablePathTestStart (t : Nat) (p : PolderId)
  /-- ENABLE_PATH_TEST_STEP (R351): After 200 µs one series switch step is judged and the next opens. The row carries the
  read-back of both lines, and judges the return of the line 100 µs after a switch has closed too (notes/assumptions/28.md). -/
  | enablePathTestStep (t : Nat) (p : PolderId) (gen1 : Bool) (gen2 : Bool)
  /-- TEST_AGE_HOUR (R351): An hour of power advances SPB_TESTAGE and may set TEST_DUE. -/
  | testAgeHour (t : Nat) (p : PolderId)
  /-- PASSWORD_LOCKOUT_END (R363): 15 minutes after the fifth wrong password, password commands are checked again. -/
  | passwordLockoutEnd (t : Nat) (p : PolderId)
  /-- REFCLK_MISSING (R374): No x_REFCLK edge for 150 ns switches CLK_P to the backup oscillator. -/
  | refclkMissing (t : Nat) (p : PolderId)
  /-- UNLOCK_PLL (R374): Phase error above 1 ns at 4 comparisons switches CLK_P to the backup oscillator. -/
  | unlockPll (t : Nat) (p : PolderId)
  /-- REFOK (R376): 16 good reference edges set REFOK and start the first stored-band attempt. -/
  | refok (t : Nat) (p : PolderId) (temp : Int)
  /-- PLL_LOCK (R376): A lock attempt succeeds and CLK_P returns to the PLL glitch-free. -/
  | pllLock (t : Nat) (p : PolderId) (ok : Bool) (band : Nat) (temp : Int)
  /-- BAND_SEARCH_RETRY (R376): A failed attempt is followed by another band search every 10 ms. -/
  | bandSearchRetry (t : Nat) (p : PolderId)
  /-- CALIBRATION_COMPLETE (R376): The delay lines recalibrate and LOCK sets. -/
  | calibrationComplete (t : Nat) (p : PolderId)
  /-- HALL_TIME_STROBE (R378): Every 1 ms the Hall strobe is timestamped in TBL and the conversion fit updates. -/
  | hallTimeStrobe (t : Nat) (p : PolderId) (hallNs : Nat)
  /-- HALL_LOST (R378): Strobes missing for 3 s take both domains to LOST. -/
  | hallLost (t : Nat) (p : PolderId)
  /-- SYNC_MESSAGE (R382): A PTP Sync updates the servo offset, rate and phase of its domain's base. -/
  | syncMessage (t : Nat) (p : PolderId) (x : SyncIn)
  /-- ANNOUNCE_MESSAGE (R380): An Announce selects the grandmaster and port of a domain. -/
  | announceMessage (t : Nat) (p : PolderId) (x : AnnounceIn)
  /-- DOMAIN_LOST (R379): No valid Sync or Announce for 3 s takes the domain to LOST. -/
  | domainLost (t : Nat) (p : PolderId) (n : Nat)
  /-- REVERT (R383): TB0 LOCKED for TIM_REVERTT becomes the active base again. -/
  | revert (t : Nat) (p : PolderId)
  /-- HOLDOVER_EXPIRY (R385): TIM_HOLDTMO after leaving LOCKED the quality falls from HOLDOVER. -/
  | holdoverExpiry (t : Nat) (p : PolderId)
  /-- PEER_DELAY_MEASUREMENT (R387): Once per second the Hall measures each port's peer delay. -/
  | peerDelayMeasurement (t : Nat) (p : PolderId) (port : Nat) (delayNs : Nat)
  /-- PDELAY_REQ (R387): A received Pdelay_Req is answered by the Hall in hardware. -/
  | pdelayReq (t : Nat) (port : Nat) (bytes : List Byte)
  /-- PPS_OUTPUT (R389): At each whole second of presented time the PPS output rises if the quality allows. -/
  | ppsOutput (t : Nat) (p : PolderId)
  /-- PPS_PULSE_END (R389): WIDTH ms after its rise the PPS output falls. -/
  | ppsPulseEnd (t : Nat) (p : PolderId)
  /-- PPS_IN (R390): A rising edge on the PPS input is timestamped and its error shown. -/
  | ppsIn (t : Nat) (p : PolderId)
  /-- COMMAND_PACKET (R403): A received command packet passes the ordered checks and is queued for its target, or is answered with the failure. -/
  | commandPacket (t : Nat) (src : Source) (prp : Option (Nat × Nat)) (bytes : List Byte)
  /-- ARP_REQUEST (R395): An ARP request for the Hall's address is answered. -/
  | arpRequest (t : Nat) (port : Nat) (prp : Option (Nat × Nat)) (target : Nat) (senderIp : Nat) (senderMac : Nat)
  /-- ICMP_ECHO (R395): An ICMP echo request is answered within the rate limit. -/
  | icmpEcho (t : Nat) (port : Nat) (prp : Option (Nat × Nat)) (srcIp : Nat) (data : List Byte)
  /-- ETH_LINK_CHANGE (R394): An SGMII link goes down or up; the node carries on through the other port and sends gratuitous ARP on link up. -/
  | ethLinkChange (t : Nat) (port : Nat) (up : Bool)
  /-- SUPERVISION_FRAME (R394): Every 2 s the PRP node sends a supervision frame. -/
  | supervisionFrame (t : Nat)
  /-- SPI_STATUS (R397): An SPI STATUS transaction returns the waiting-packet state. -/
  | spiStatus (t : Nat)
  /-- SPI_WRITE (R398): An SPI WRITE delivers one command packet, or is discarded if short or buffer full. -/
  | spiWrite (t : Nat) (len : Nat) (bytes : List Byte)
  /-- SPI_READ (R398): An SPI READ clocks out and removes the oldest waiting packet. -/
  | spiRead (t : Nat) (clocked : Nat)
  /-- COMMAND_DELIVERY (R414): A queued command is pushed into its target's queue once the previous command is answered. -/
  | commandDelivery (t : Nat) (tgt : Target)
  /-- TARGET_REPLY (R411): The target's reply is forwarded, or sent as a DONE notification when late. -/
  | targetReply (t : Nat) (tgt : Target)
  /-- REPLY_TIMEOUT (R411): A delivered command unanswered at 50 ms is answered TIMEOUT, detail 0x01. -/
  | replyTimeout (t : Nat) (tgt : Target)
  /-- DELIVERY_TIMEOUT (R414): A command undelivered at 50 ms is withdrawn and answered TIMEOUT, detail 0x00. -/
  | deliveryTimeout (t : Nat) (tgt : Target)
  /-- MAILBOX_STUCK (R430): A queue full for 1 ms sets STUCK and the Hall answers the command TIMEOUT. -/
  | mailboxStuck (t : Nat) (p : PolderId) (q : Nat)
  /-- SESSION_TIMEOUT (R408): HAL_SESSTMO without an authenticated packet closes the session with SESSION_END. -/
  | sessionTimeout (t : Nat) (idx : Nat)
  /-- TOKEN_LAPSE (R410): A token's 2 s lease lapses; open sluices abort and the holder is notified. -/
  | tokenLapse (t : Nat) (k : Nat)
  /-- CE_WATCHDOG (R424): The CE watchdog expires; the CE restarts and trip bit 8 latches. -/
  | ceWatchdog (t : Nat) (p : PolderId)
  /-- SE_WATCHDOG (R424): The SE watchdog expires; the SE restarts and all sluices abort. -/
  | seWatchdog (t : Nat) (p : PolderId)
  /-- ECC_DOUBLE_ERROR (R423, R44): A double-bit error in an engine memory resets that engine or the polder. -/
  | eccDoubleError (t : Nat) (p : PolderId) (x : MemError)
  /-- ENGINE_RESTART_COMPLETE (R424): An engine has restarted and runs its main loop again. -/
  | engineRestartComplete (t : Nat) (p : PolderId) (ce : Bool)
  /-- ENGINE_HALT (R426): The debug port halts an engine; a CE halt raises trip bit 12. -/
  | engineHalt (t : Nat) (p : PolderId) (e : DebugEngine)
  /-- ENGINE_RELEASE (R426): The debug port releases a halted engine, which continues. -/
  | engineRelease (t : Nat) (p : PolderId) (ce : Bool)
  /-- VAON_RISE (R444): VAON rises; the Dikehouse starts from ROM, applies its patch and loads its configuration. -/
  | vaonRise (t : Nat)
  /-- RAIL_LOSS (R496): A supply rail is lost, with the effects of R496 on the Dikehouse, Hall and polders. -/
  | railLoss (t : Nat) (r : Rail)
  /-- BROWN_OUT (R444): A polder's supervisor finds a rail out of limits and holds the polder in reset. -/
  | brownOut (t : Nat) (p : PolderId) (vdd : Bool)
  /-- POLDER_RESET_RELEASE (R445): The polder's reset is released and the SE boot ROM starts the boot sequence. -/
  | polderResetRelease (t : Nat) (p : PolderId)
  /-- BOOT_COMPLETE (R445): The boot reaches t5: STANDBY, REGIME notification and heartbeat supervision. -/
  | bootComplete (t : Nat) (p : PolderId)
  /-- BOOTFAIL (R463): A boot not at t5 within 600 ms counts as a lost heartbeat. -/
  | bootfail (t : Nat) (p : PolderId)
  /-- FW_TRIAL_TIMEOUT (R451): PCT_FWTMO reaches 0; REVERTED is written and the polder restarts with the guard. -/
  | fwTrialTimeout (t : Nat) (p : PolderId)
  /-- FLASH_ERASE_COMPLETE (R453): A slot erase completes and its DONE notification follows. -/
  | flashEraseComplete (t : Nat) (p : PolderId)
  /-- WAKE_COMPLETE (R455): A woken polder reaches STANDBY and heartbeat supervision resumes. -/
  | wakeComplete (t : Nat) (p : PolderId)
  /-- WATCH_SAMPLE (R456): The watch converter samples one input, filters it and updates its state. -/
  | watchSample (t : Nat) (k : Nat) (code : Nat)
  /-- RULE_EVALUATION (R458): Every 1 ms the Dikehouse evaluates its rules and combines and carries out the requested actions. -/
  | ruleEvaluation (t : Nat)
  /-- HEARTBEAT_READ (R463): Every 10 ms the Dikehouse reads PCT_HBEAT of each supervised polder. -/
  | heartbeatRead (t : Nat) (p : PolderId)
  /-- HBLOST (R463): PCT_HBEAT unchanged for 100 ms loses the heartbeat and requests the policy action. -/
  | hblost (t : Nat) (p : PolderId)
  /-- GUARD_TIMEOUT (R461): STOPTMO expires with the regime still running; TRIP is written and the action proceeds 1 ms later. -/
  | guardTimeout (t : Nat) (p : PolderId)
  /-- ACTION_DELAY_END (R463): 1 ms after a TRIP of TRIP_RESTART or a guard timeout, or after a reset pulse, the pending action proceeds. -/
  | actionDelayEnd (t : Nat) (p : PolderId)
  /-- NV_WRITE (R469): Within 100 ms of a change, and 100 ms after the last write, a whole record is written to the unused bank. -/
  | nvWrite (t : Nat) (n : NvStore)
  /-- NV_WRITE_COMPLETE (R469): A record write completes and is read back; the bank comes into use or the write retries or fails. -/
  | nvWriteComplete (t : Nat) (n : NvStore) (good : Bool)
  /-- HALL_RESET_RELEASE (R444): Once VDD_H and VDDIO lie within their limits and the Dikehouse has started, the Hall leaves reset, loads its stored values and serves traffic within 20 ms. -/
  | hallResetRelease (t : Nat)
  /-- CORRECTION_SLEW (R384): While C slews towards 0, the quality rises to GOOD when |C| falls to TIM_GOODTHR and TIM_STAT.SLEW clears when C reaches 0. -/
  | correctionSlew (t : Nat) (p : PolderId)
  /-- TIMER_MIDPOINT_RELOAD (R167): With UPD at 1 in COT or CFT, the buffers reload at the midpoint of each running timer and the running timer ends at its start plus the new MOD_TTMRp, or at once. -/
  | timerMidpointReload (t : Nat) (p : PolderId) (leg : Nat)
  /-- EXTEST (R504): Selecting EXTEST on the polder's debug port with x_DBG_EN high holds the polder in reset, so lane 2 takes the gate-enable lines low. -/
  | extest (t : Nat) (x : DebugPort)
  /-- COMPARATOR_INSIDE (R230): A window comparator's input returns inside its window with one step of hysteresis, so its output and trip source 1 become inactive and the settle time for clearing starts. -/
  | comparatorInside (t : Nat) (p : PolderId) (x : CmpSeen)
  /-- RAW_INPUT_CHANGE (R321): A field input pin changes its raw state, updating FIO_DI.RAW, the direction of its counter filter and the unbroken-time filters of the safety lanes. -/
  | rawInputChange (t : Nat) (p : PolderId) (k : Nat) (high : Bool)
  deriving DecidableEq, Repr

end Sys2Proof
end

