-- ==== Sys2Proof/Decode.lean ====
section
/-!
DEFINITION. The command that a word spells by the bits of spec/opcode_table.json.
-/
namespace Sys2Proof

/-- No row of the table gives bits: its rows are host commands, which arrive as packets (COMMAND_PACKET parses them, R400 to R404), lines of
the monitor, accesses, and events. So no word spells a command. -/
def decodeTableWord (_nbits _w : Nat) : Option Instr := none

end Sys2Proof
end

