-- ==== Sys2Proof/Config.lean ====
section
/-!
DEFINITION. What an implementation fixes and what the spec leaves open: values without a body, so that no proof can lean on one.
Values that must differ from draw to draw are functions of a draw count, which the state advances with every draw.
-/
namespace Sys2Proof

/-- Session ID drawn at the n-th draw: random and non-zero (R406); the model adds 1 to it. UNVERIFIED: notes/assumptions/7.md. -/
opaque Config.sessionId : Nat → Fin 4294967295

/-- Byte i of the 16-byte device nonce of the n-th draw (R406). -/
opaque Config.nonceByte : Nat → Nat → BitVec 8

/-- Byte i of the 16-byte challenge of the n-th UNLOCK (R485). -/
opaque Config.challengeByte : Nat → Nat → BitVec 8

/-- Random draw n of the back-off source (R98); the wait is this value modulo the window W, in ms. -/
opaque Config.backoffDraw : PolderId → Nat → Nat

/-- Which way a result between two codes of a datapath is rounded, where the spec names no rounding: polder, draw, site of the computation: true rounds up (R54, R66). -/
opaque Config.roundsUp : PolderId → Nat → Nat → Bool

/-- Revisions of a polder's analogue and field die, and of the logic die (R37, `PCT_ID`): "Per die". -/
opaque Config.adieRev : PolderId → BitVec 4
opaque Config.fdieRev : PolderId → BitVec 4
opaque Config.ldieRev : BitVec 4

/-- Factory MAC address of the device (R394, R418). -/
opaque Config.factoryMac : BitVec 48

/-- Frequency of a polder's backup oscillator in kHz above its lower limit of 365,000 kHz (R374: 365 to 400 MHz). -/
opaque Config.backupAbove : PolderId → Fin 35001

/-- A double-bit error delivers a word whose bits the spec does not give (R44). -/
opaque Config.eccWord : Nat → Word

/-- Time from t4 to t5 of a polder's boot in fs, of which the spec gives bounds only (R445). Free value, notes/assumptions/21.md. -/
opaque Config.settledFor : PolderId → Nat → Nat

/-- What phase j of the resampler's polyphase filter, of 256 to a period of its source, makes between two neighbouring source samples: the spec gives the number
of phases but not the coefficients (R245). Free value, notes/assumptions/55.md. -/
opaque Config.phaseOut : Int → Int → Nat → Int

/-- What a metered ratio or angle whose divisor or phasor is 0 reads, by its ID in R248 and its numerator: the spec states none. Free value,
notes/assumptions/47.md. -/
opaque Config.noRatio : Nat → Int → Int

/-- How many table indices a learner sweep has gone on to by a swing-engine update: the spec bounds the time of a sweep and gives its order (R191). Free
value of the polder and the draw, notes/assumptions/55.md. -/
opaque Config.sweepPace : PolderId → Nat → Nat

/-- Temperature of a polder's analogue die in degrees Celsius at an instant (R371). Free value, notes/assumptions/30.md. -/
opaque Config.dieTemp : PolderId → Nat → Int

/-- Whether the read-back of an NV write is good, where a row does not say: polder, draw (R469). Free value, notes/assumptions/34.md. -/
opaque Config.nvGood : PolderId → Nat → Bool

/-- Frequency in Hz of the oscillator that the integrator connects to a polder's x_REFCLK (R368: 10 to 50 MHz). -/
opaque Config.refHz : PolderId → Nat

/-- Public key of an index in the one-time memory, as the coordinates of its point (R447, R448). Free value, notes/assumptions/57.md. -/
opaque Config.publicKey : Nat → Nat × Nat

/-- Salt byte i of the n-th stored password (R363). -/
opaque Config.saltByte : Nat → Nat → BitVec 8

/-- Phase correction in fs, and new `TIM_RATEn`, of a servo (R382: a proportional-integral loop whose gains the spec does not give), as functions
of the bandwidth in mHz, the offset in fs, the rate so far and the time since the last Sync in fs. -/
opaque Config.servoPhase : Nat → Int → Int → Nat → Int
opaque Config.servoRate : Nat → Int → Int → Nat → Int

/-- `TIM_PPS_ERR` where the edge lies further from the second than the register can say (R392): polder, draw. -/
opaque Config.ppsErr : PolderId → Nat → Word

/-- What a reply or record field of n bytes, and a 32-bit register, hold for a value outside their range (notes/assumptions/22.md): width, or the
register's offset, and value. -/
opaque Config.fieldBeyond : Nat → Int → Nat
opaque Config.wordBeyond : Nat → Int → Word

/-- The two sequence numbers that GET_NOTIFICATIONS returns when nothing is kept (R419 states none): draw, which of the two. -/
opaque Config.noSeq : Nat → Bool → BitVec 16

/-- Priority code point of frames that R396 does not class (ARP, ICMP, supervision). -/
opaque Config.otherPcp : Fin 8

/-- Words in which the Hall bridge frames a command for the Hall-to-SE queue (R428: not documented): opcode and payload to number of words
above one, and the words themselves by draw. -/
opaque Config.frameWords : Nat → List (BitVec 8) → Nat
opaque Config.frameWord : Nat → Nat → BitVec 32

/-- Hall time in ns at the start of device time, of which the spec gives no start (R378); and how many ns after its reception the answer to a Pdelay_Req leaves,
by the instant of reception (R387). Free values, notes/assumptions/56.md. -/
opaque Config.hallEpoch : Nat
opaque Config.pdelayTurn : Nat → Nat

/-- UDP port that the Hall's notifications come from, of which the spec gives the destination alone (R412). Free value, notes/assumptions/38.md. -/
opaque Config.notifyPort : Fin 65536

/-- Bits 31:28 and 11:0 of a debug port's IDCODE, of which the spec gives bits 27:12 alone (R504). Free value, notes/assumptions/50.md. -/
opaque Config.idcodeRest : PolderId → BitVec 32

/-- `PCT_BOOT.CAUSE` of the boot that follows EXTEST (R504; R450's codes name none for it). -/
opaque Config.extestCause : PolderId → BitVec 4

end Sys2Proof
end

