-- ==== Sys2Proof/Machine/Regs.lean ====
section
/-!
DEFINITION. The addresses of every register and the place of every field, from the register maps of spec/ (one
abbreviation per register, `A.<register>`, its byte offset in its window as R14 and R33 place it; one per field, `F.<register>_<field>`).
A register that the spec repeats for an index takes the index as an argument.
-/

namespace Sys2Proof.Machine

/-- A field of a register: the register's byte offset in its window, and the field's highest and lowest bit. -/
structure Fld where
  off : Nat
  hi : Nat
  lo : Nat
  deriving DecidableEq, Repr

/-- PCT_ID, spec/01_polders_and_dies.md R39. -/
abbrev A.PCT_ID : Nat := 0x0
abbrev F.PCT_ID_PART : Fld := ⟨A.PCT_ID, 31, 16⟩
abbrev F.PCT_ID_POLDER : Fld := ⟨A.PCT_ID, 15, 12⟩
abbrev F.PCT_ID_ADIE_REV : Fld := ⟨A.PCT_ID, 11, 8⟩
abbrev F.PCT_ID_FDIE_REV : Fld := ⟨A.PCT_ID, 7, 4⟩
abbrev F.PCT_ID_LDIE_REV : Fld := ⟨A.PCT_ID, 3, 0⟩
/-- PCT_ACCERR, spec/01_polders_and_dies.md R39. -/
abbrev A.PCT_ACCERR : Nat := 0x10
abbrev F.PCT_ACCERR_VALID : Fld := ⟨A.PCT_ACCERR, 31, 31⟩
abbrev F.PCT_ACCERR_OVERRUN : Fld := ⟨A.PCT_ACCERR, 30, 30⟩
abbrev F.PCT_ACCERR_KIND : Fld := ⟨A.PCT_ACCERR, 29, 28⟩
abbrev F.PCT_ACCERR_SENDER : Fld := ⟨A.PCT_ACCERR, 27, 24⟩
abbrev F.PCT_ACCERR_OFFSET : Fld := ⟨A.PCT_ACCERR, 23, 2⟩
/-- SWG_CTRL, spec/02_swing_engine.md R80. -/
abbrev A.SWG_CTRL : Nat := 0x60000
abbrev F.SWG_CTRL_ILIM_MODE : Fld := ⟨A.SWG_CTRL, 7, 6⟩
abbrev F.SWG_CTRL_NSEQ_EN : Fld := ⟨A.SWG_CTRL, 5, 5⟩
abbrev F.SWG_CTRL_ANCHOR_EN : Fld := ⟨A.SWG_CTRL, 4, 4⟩
abbrev F.SWG_CTRL_VIMP_EN : Fld := ⟨A.SWG_CTRL, 3, 3⟩
abbrev F.SWG_CTRL_CFF_EN : Fld := ⟨A.SWG_CTRL, 2, 2⟩
abbrev F.SWG_CTRL_FNOM : Fld := ⟨A.SWG_CTRL, 1, 1⟩
/-- SWG_STAT, spec/02_swing_engine.md R80. -/
abbrev A.SWG_STAT : Nat := 0x60004
abbrev F.SWG_STAT_RATE : Fld := ⟨A.SWG_STAT, 31, 30⟩
abbrev F.SWG_STAT_ANCHOR : Fld := ⟨A.SWG_STAT, 29, 28⟩
abbrev F.SWG_STAT_RUN : Fld := ⟨A.SWG_STAT, 6, 6⟩
abbrev F.SWG_STAT_ILIM : Fld := ⟨A.SWG_STAT, 5, 5⟩
abbrev F.SWG_STAT_FCLAMP : Fld := ⟨A.SWG_STAT, 4, 4⟩
abbrev F.SWG_STAT_SAT : Fld := ⟨A.SWG_STAT, 3, 3⟩
abbrev F.SWG_STAT_NSEQ : Fld := ⟨A.SWG_STAT, 2, 2⟩
abbrev F.SWG_STAT_FEHOLD : Fld := ⟨A.SWG_STAT, 1, 1⟩
abbrev F.SWG_STAT_ANCHOR_BLK : Fld := ⟨A.SWG_STAT, 0, 0⟩
/-- SWG_EVT, spec/02_swing_engine.md R80. -/
abbrev A.SWG_EVT : Nat := 0x60008
abbrev F.SWG_EVT_ANCHOR_SAT : Fld := ⟨A.SWG_EVT, 5, 5⟩
abbrev F.SWG_EVT_ANCHOR_LOST : Fld := ⟨A.SWG_EVT, 4, 4⟩
abbrev F.SWG_EVT_SAT : Fld := ⟨A.SWG_EVT, 3, 3⟩
abbrev F.SWG_EVT_FCLAMP : Fld := ⟨A.SWG_EVT, 2, 2⟩
abbrev F.SWG_EVT_ILIM : Fld := ⟨A.SWG_EVT, 1, 1⟩
abbrev F.SWG_EVT_TRIPSTOP : Fld := ⟨A.SWG_EVT, 0, 0⟩
/-- SWG_ANCHOR_CTRL, spec/02_swing_engine.md R80. -/
abbrev A.SWG_ANCHOR_CTRL : Nat := 0x6000C
abbrev F.SWG_ANCHOR_CTRL_FADE : Fld := ⟨A.SWG_ANCHOR_CTRL, 31, 16⟩
abbrev F.SWG_ANCHOR_CTRL_BW : Fld := ⟨A.SWG_ANCHOR_CTRL, 15, 0⟩
/-- SWG_SBASE, spec/02_swing_engine.md R81. -/
abbrev A.SWG_SBASE : Nat := 0x60010
/-- SWG_VBASE, spec/02_swing_engine.md R81. -/
abbrev A.SWG_VBASE : Nat := 0x60014
/-- SWG_SCL_I, spec/02_swing_engine.md R81. -/
abbrev A.SWG_SCL_I : Nat := 0x60018
/-- SWG_SCL_V, spec/02_swing_engine.md R81. -/
abbrev A.SWG_SCL_V : Nat := 0x6001C
/-- SWG_SCL_DC, spec/02_swing_engine.md R81. -/
abbrev A.SWG_SCL_DC : Nat := 0x60020
/-- SWG_BC, spec/02_swing_engine.md R81. -/
abbrev A.SWG_BC : Nat := 0x60024
/-- SWG_INERTIA, spec/02_swing_engine.md R81. -/
abbrev A.SWG_INERTIA : Nat := 0x60030
/-- SWG_DAMP, spec/02_swing_engine.md R81. -/
abbrev A.SWG_DAMP : Nat := 0x60034
/-- SWG_FEBW, spec/02_swing_engine.md R81. -/
abbrev A.SWG_FEBW : Nat := 0x60038
/-- SWG_TPQ, spec/02_swing_engine.md R81. -/
abbrev A.SWG_TPQ : Nat := 0x6003C
/-- SWG_MP, spec/02_swing_engine.md R81. -/
abbrev A.SWG_MP : Nat := 0x60040
/-- SWG_NQ, spec/02_swing_engine.md R81. -/
abbrev A.SWG_NQ : Nat := 0x60044
/-- SWG_TV, spec/02_swing_engine.md R81. -/
abbrev A.SWG_TV : Nat := 0x60048
/-- SWG_RV, spec/02_swing_engine.md R81. -/
abbrev A.SWG_RV : Nat := 0x6004C
/-- SWG_XV, spec/02_swing_engine.md R81. -/
abbrev A.SWG_XV : Nat := 0x60050
/-- SWG_GV, spec/02_swing_engine.md R81. -/
abbrev A.SWG_GV : Nat := 0x60054
/-- SWG_ILIM, spec/02_swing_engine.md R81. -/
abbrev A.SWG_ILIM : Nat := 0x60058
/-- SWG_KNEG, spec/02_swing_engine.md R81. -/
abbrev A.SWG_KNEG : Nat := 0x6005C
/-- SWG_DFMAX, spec/02_swing_engine.md R81. -/
abbrev A.SWG_DFMAX : Nat := 0x60060
/-- SWG_PREF, spec/02_swing_engine.md R81. -/
abbrev A.SWG_PREF : Nat := 0x60070
/-- SWG_QREF, spec/02_swing_engine.md R81. -/
abbrev A.SWG_QREF : Nat := 0x60074
/-- SWG_VREF, spec/02_swing_engine.md R81. -/
abbrev A.SWG_VREF : Nat := 0x60078
/-- SWG_FREF, spec/02_swing_engine.md R81. -/
abbrev A.SWG_FREF : Nat := 0x6007C
/-- SWG_ANCHOR_LIM, spec/02_swing_engine.md R81. -/
abbrev A.SWG_ANCHOR_LIM : Nat := 0x60080
/-- SWG_ANCHOR_OFS, spec/02_swing_engine.md R81. -/
abbrev A.SWG_ANCHOR_OFS : Nat := 0x60084
/-- SWG_P, spec/02_swing_engine.md R81. -/
abbrev A.SWG_P : Nat := 0x600A0
/-- SWG_Q, spec/02_swing_engine.md R81. -/
abbrev A.SWG_Q : Nat := 0x600A4
/-- SWG_VMAG, spec/02_swing_engine.md R81. -/
abbrev A.SWG_VMAG : Nat := 0x600A8
/-- SWG_FREQ, spec/02_swing_engine.md R81. -/
abbrev A.SWG_FREQ : Nat := 0x600AC
/-- SWG_THETA, spec/02_swing_engine.md R81. -/
abbrev A.SWG_THETA : Nat := 0x600B0
/-- SWG_EMF, spec/02_swing_engine.md R81. -/
abbrev A.SWG_EMF : Nat := 0x600B4
/-- SWG_IMAG, spec/02_swing_engine.md R81. -/
abbrev A.SWG_IMAG : Nat := 0x600B8
/-- SWG_V2, spec/02_swing_engine.md R81. -/
abbrev A.SWG_V2 : Nat := 0x600BC
/-- SWG_ANCHOR_ERR, spec/02_swing_engine.md R81. -/
abbrev A.SWG_ANCHOR_ERR : Nat := 0x600C0
/-- SWG_ANCHOR_W, spec/02_swing_engine.md R81. -/
abbrev A.SWG_ANCHOR_W : Nat := 0x600C4
/-- SWG_MTNS, spec/02_swing_engine.md R81. -/
abbrev A.SWG_MTNS : Nat := 0x600C8
/-- PCT_REGIME, spec/03_regimes.md R114. -/
abbrev A.PCT_REGIME : Nat := 0x20
abbrev F.PCT_REGIME_CUR : Fld := ⟨A.PCT_REGIME, 31, 28⟩
abbrev F.PCT_REGIME_PREV : Fld := ⟨A.PCT_REGIME, 27, 24⟩
abbrev F.PCT_REGIME_PHASE : Fld := ⟨A.PCT_REGIME, 23, 20⟩
abbrev F.PCT_REGIME_RIDE : Fld := ⟨A.PCT_REGIME, 19, 19⟩
abbrev F.PCT_REGIME_DEAD : Fld := ⟨A.PCT_REGIME, 18, 18⟩
abbrev F.PCT_REGIME_BRK : Fld := ⟨A.PCT_REGIME, 17, 17⟩
abbrev F.PCT_REGIME_DCOK : Fld := ⟨A.PCT_REGIME, 16, 16⟩
abbrev F.PCT_REGIME_TRY : Fld := ⟨A.PCT_REGIME, 15, 12⟩
/-- PCT_REGREQ, spec/03_regimes.md R114. -/
abbrev A.PCT_REGREQ : Nat := 0x24
abbrev F.PCT_REGREQ_MODE : Fld := ⟨A.PCT_REGREQ, 7, 4⟩
abbrev F.PCT_REGREQ_TARGET : Fld := ⟨A.PCT_REGREQ, 3, 0⟩
/-- PCT_REGCFG, spec/03_regimes.md R114. -/
abbrev A.PCT_REGCFG : Nat := 0x28
abbrev F.PCT_REGCFG_BRK_EN : Fld := ⟨A.PCT_REGCFG, 31, 31⟩
abbrev F.PCT_REGCFG_BRK_DO : Fld := ⟨A.PCT_REGCFG, 30, 29⟩
abbrev F.PCT_REGCFG_AUX_EN : Fld := ⟨A.PCT_REGCFG, 28, 28⟩
abbrev F.PCT_REGCFG_AUX_POL : Fld := ⟨A.PCT_REGCFG, 27, 27⟩
abbrev F.PCT_REGCFG_AUX_DI : Fld := ⟨A.PCT_REGCFG, 26, 25⟩
abbrev F.PCT_REGCFG_PRE_EN : Fld := ⟨A.PCT_REGCFG, 24, 24⟩
abbrev F.PCT_REGCFG_PRE_DO : Fld := ⟨A.PCT_REGCFG, 23, 22⟩
abbrev F.PCT_REGCFG_TRIP_BRK : Fld := ⟨A.PCT_REGCFG, 21, 21⟩
abbrev F.PCT_REGCFG_BRK_TMO : Fld := ⟨A.PCT_REGCFG, 15, 0⟩
/-- PCT_REGEVT, spec/03_regimes.md R114. -/
abbrev A.PCT_REGEVT : Nat := 0x2C
abbrev F.PCT_REGEVT_BRK_LOST : Fld := ⟨A.PCT_REGEVT, 15, 15⟩
abbrev F.PCT_REGEVT_STOP_TMO : Fld := ⟨A.PCT_REGEVT, 14, 14⟩
abbrev F.PCT_REGEVT_DCGUARD : Fld := ⟨A.PCT_REGEVT, 13, 13⟩
abbrev F.PCT_REGEVT_ROCOF : Fld := ⟨A.PCT_REGEVT, 12, 12⟩
abbrev F.PCT_REGEVT_PHASEJUMP : Fld := ⟨A.PCT_REGEVT, 11, 11⟩
abbrev F.PCT_REGEVT_SLIP : Fld := ⟨A.PCT_REGEVT, 10, 10⟩
abbrev F.PCT_REGEVT_ENVELOPE : Fld := ⟨A.PCT_REGEVT, 9, 9⟩
abbrev F.PCT_REGEVT_RIDE_OUT : Fld := ⟨A.PCT_REGEVT, 8, 8⟩
abbrev F.PCT_REGEVT_RIDE_IN : Fld := ⟨A.PCT_REGEVT, 7, 7⟩
abbrev F.PCT_REGEVT_BRK_FAIL : Fld := ⟨A.PCT_REGEVT, 6, 6⟩
abbrev F.PCT_REGEVT_SYNC_TMO : Fld := ⟨A.PCT_REGEVT, 5, 5⟩
abbrev F.PCT_REGEVT_BACKOFF_FAIL : Fld := ⟨A.PCT_REGEVT, 4, 4⟩
abbrev F.PCT_REGEVT_COLLISION : Fld := ⟨A.PCT_REGEVT, 3, 3⟩
abbrev F.PCT_REGEVT_EN_FAIL : Fld := ⟨A.PCT_REGEVT, 2, 2⟩
abbrev F.PCT_REGEVT_PRE_TMO : Fld := ⟨A.PCT_REGEVT, 1, 1⟩
abbrev F.PCT_REGEVT_REQ_REFUSED : Fld := ⟨A.PCT_REGEVT, 0, 0⟩
/-- PCT_REGT_NS, spec/03_regimes.md R115. -/
abbrev A.PCT_REGT_NS : Nat := 0x30
/-- PCT_REGT_SL, spec/03_regimes.md R115. -/
abbrev A.PCT_REGT_SL : Nat := 0x34
/-- PCT_REGT_SH, spec/03_regimes.md R115. -/
abbrev A.PCT_REGT_SH : Nat := 0x38
/-- SWG_DC_RDY, spec/03_regimes.md R115. -/
abbrev A.SWG_DC_RDY : Nat := 0x60100
/-- SWG_DC_BAL, spec/03_regimes.md R115. -/
abbrev A.SWG_DC_BAL : Nat := 0x60104
/-- SWG_PRE_TMO, spec/03_regimes.md R115. -/
abbrev A.SWG_PRE_TMO : Nat := 0x60108
/-- SWG_DEAD_V, spec/03_regimes.md R115. -/
abbrev A.SWG_DEAD_V : Nat := 0x6010C
/-- SWG_EN_RATE, spec/03_regimes.md R115. -/
abbrev A.SWG_EN_RATE : Nat := 0x60110
/-- SWG_EN_TMO, spec/03_regimes.md R115. -/
abbrev A.SWG_EN_TMO : Nat := 0x60114
/-- SWG_BO_BASE, spec/03_regimes.md R115. -/
abbrev A.SWG_BO_BASE : Nat := 0x60118
/-- SWG_BO_TRIES, spec/03_regimes.md R115. -/
abbrev A.SWG_BO_TRIES : Nat := 0x6011C
/-- SWG_SYNC_BW, spec/03_regimes.md R115. -/
abbrev A.SWG_SYNC_BW : Nat := 0x60120
/-- SWG_SYNC_LIM, spec/03_regimes.md R115. -/
abbrev A.SWG_SYNC_LIM : Nat := 0x60124
/-- SWG_SYNC_DV, spec/03_regimes.md R115. -/
abbrev A.SWG_SYNC_DV : Nat := 0x60128
/-- SWG_SYNC_DF, spec/03_regimes.md R115. -/
abbrev A.SWG_SYNC_DF : Nat := 0x6012C
/-- SWG_SYNC_DA, spec/03_regimes.md R115. -/
abbrev A.SWG_SYNC_DA : Nat := 0x60130
/-- SWG_SYNC_DWELL, spec/03_regimes.md R115. -/
abbrev A.SWG_SYNC_DWELL : Nat := 0x60134
/-- SWG_SYNC_TMO, spec/03_regimes.md R115. -/
abbrev A.SWG_SYNC_TMO : Nat := 0x60138
/-- SWG_BRK_TCLOSE, spec/03_regimes.md R115. -/
abbrev A.SWG_BRK_TCLOSE : Nat := 0x6013C
/-- SWG_SYNC_VLO, spec/03_regimes.md R115. -/
abbrev A.SWG_SYNC_VLO : Nat := 0x60140
/-- SWG_SYNC_VHI, spec/03_regimes.md R115. -/
abbrev A.SWG_SYNC_VHI : Nat := 0x60144
/-- SWG_RIDE_LO, spec/03_regimes.md R115. -/
abbrev A.SWG_RIDE_LO : Nat := 0x60150
/-- SWG_RIDE_HI, spec/03_regimes.md R115. -/
abbrev A.SWG_RIDE_HI : Nat := 0x60154
/-- SWG_RIDE_HYS, spec/03_regimes.md R115. -/
abbrev A.SWG_RIDE_HYS : Nat := 0x60158
/-- SWG_RIDE_TDET, spec/03_regimes.md R115. -/
abbrev A.SWG_RIDE_TDET : Nat := 0x6015C
/-- SWG_RIDE_TREC, spec/03_regimes.md R115. -/
abbrev A.SWG_RIDE_TREC : Nat := 0x60160
/-- SWG_SLIP_ANG, spec/03_regimes.md R115. -/
abbrev A.SWG_SLIP_ANG : Nat := 0x60168
/-- SWG_PJ_THR, spec/03_regimes.md R115. -/
abbrev A.SWG_PJ_THR : Nat := 0x6016C
/-- SWG_ROCOF_MAX, spec/03_regimes.md R115. -/
abbrev A.SWG_ROCOF_MAX : Nat := 0x60170
/-- SWG_ROCOF_WIN, spec/03_regimes.md R115. -/
abbrev A.SWG_ROCOF_WIN : Nat := 0x60174
/-- SWG_DCG_LO, spec/03_regimes.md R115. -/
abbrev A.SWG_DCG_LO : Nat := 0x60178
/-- SWG_DCG_HI, spec/03_regimes.md R115. -/
abbrev A.SWG_DCG_HI : Nat := 0x6017C
/-- SWG_DCG_K, spec/03_regimes.md R115. -/
abbrev A.SWG_DCG_K : Nat := 0x60180
/-- SWG_STOP_RATE, spec/03_regimes.md R115. -/
abbrev A.SWG_STOP_RATE : Nat := 0x60184
/-- SWG_STOP_TMO, spec/03_regimes.md R115. -/
abbrev A.SWG_STOP_TMO : Nat := 0x60188
/-- SWG_VDC, spec/03_regimes.md R115. -/
abbrev A.SWG_VDC : Nat := 0x601A0
/-- SWG_ROCOF, spec/03_regimes.md R115. -/
abbrev A.SWG_ROCOF : Nat := 0x601A4
/-- SWG_PJ_LAST, spec/03_regimes.md R115. -/
abbrev A.SWG_PJ_LAST : Nat := 0x601A8
/-- SWG_RIDE_T, spec/03_regimes.md R115. -/
abbrev A.SWG_RIDE_T : Nat := 0x601AC
/-- SWG_U1, spec/03_regimes.md R115. -/
abbrev A.SWG_U1 : Nat := 0x601B0
/-- SWG_RIDE_CFG, spec/03_regimes.md R116. -/
abbrev A.SWG_RIDE_CFG : Nat := 0x60164
abbrev F.SWG_RIDE_CFG_VMEAS : Fld := ⟨A.SWG_RIDE_CFG, 7, 7⟩
abbrev F.SWG_RIDE_CFG_NSEQ_RIDE : Fld := ⟨A.SWG_RIDE_CFG, 6, 6⟩
abbrev F.SWG_RIDE_CFG_RIDE_ILIM : Fld := ⟨A.SWG_RIDE_CFG, 5, 4⟩
abbrev F.SWG_RIDE_CFG_HOLD_STAIRS : Fld := ⟨A.SWG_RIDE_CFG, 3, 3⟩
abbrev F.SWG_RIDE_CFG_ENV_ACT : Fld := ⟨A.SWG_RIDE_CFG, 2, 2⟩
abbrev F.SWG_RIDE_CFG_SLIP_ACT : Fld := ⟨A.SWG_RIDE_CFG, 1, 1⟩
abbrev F.SWG_RIDE_CFG_DCG_EN : Fld := ⟨A.SWG_RIDE_CFG, 0, 0⟩
/-- SWG_UVENV, spec/03_regimes.md R116. -/
abbrev A.SWG_UVENV (i : Nat) : Nat := 0x60200 + 0x4 * i
abbrev F.SWG_UVENV_TIME (i : Nat) : Fld := ⟨(A.SWG_UVENV i), 31, 16⟩
abbrev F.SWG_UVENV_VOLT (i : Nat) : Fld := ⟨(A.SWG_UVENV i), 15, 0⟩
/-- SWG_OVENV, spec/03_regimes.md R116. -/
abbrev A.SWG_OVENV (i : Nat) : Nat := 0x60240 + 0x4 * i
abbrev F.SWG_OVENV_TIME (i : Nat) : Fld := ⟨(A.SWG_OVENV i), 31, 16⟩
abbrev F.SWG_OVENV_VOLT (i : Nat) : Fld := ⟨(A.SWG_OVENV i), 15, 0⟩
/-- EMB_CTRL, spec/04_embankment.md R149. -/
abbrev A.EMB_CTRL : Nat := 0x70000
abbrev F.EMB_CTRL_TOPO : Fld := ⟨A.EMB_CTRL, 15, 14⟩
abbrev F.EMB_CTRL_BANDMODE : Fld := ⟨A.EMB_CTRL, 13, 12⟩
abbrev F.EMB_CTRL_SLOPE_SRC : Fld := ⟨A.EMB_CTRL, 11, 10⟩
abbrev F.EMB_CTRL_FIT_N : Fld := ⟨A.EMB_CTRL, 9, 8⟩
abbrev F.EMB_CTRL_ZS_REMOVE : Fld := ⟨A.EMB_CTRL, 7, 7⟩
abbrev F.EMB_CTRL_NP_EN : Fld := ⟨A.EMB_CTRL, 6, 6⟩
abbrev F.EMB_CTRL_CM_EST : Fld := ⟨A.EMB_CTRL, 5, 5⟩
/-- EMB_STAT, spec/04_embankment.md R149. -/
abbrev A.EMB_STAT : Nat := 0x70004
abbrev F.EMB_STAT_LVLc : Fld := ⟨A.EMB_STAT, 11, 10⟩
abbrev F.EMB_STAT_LVLb : Fld := ⟨A.EMB_STAT, 9, 8⟩
abbrev F.EMB_STAT_LVLa : Fld := ⟨A.EMB_STAT, 7, 6⟩
abbrev F.EMB_STAT_SECTc : Fld := ⟨A.EMB_STAT, 5, 5⟩
abbrev F.EMB_STAT_SECTb : Fld := ⟨A.EMB_STAT, 4, 4⟩
abbrev F.EMB_STAT_SECTa : Fld := ⟨A.EMB_STAT, 3, 3⟩
abbrev F.EMB_STAT_NPSAT : Fld := ⟨A.EMB_STAT, 2, 2⟩
abbrev F.EMB_STAT_RFSH : Fld := ⟨A.EMB_STAT, 1, 1⟩
abbrev F.EMB_STAT_ACTIVE : Fld := ⟨A.EMB_STAT, 0, 0⟩
/-- EMB_EVT, spec/04_embankment.md R149. -/
abbrev A.EMB_EVT : Nat := 0x70008
abbrev F.EMB_EVT_NPSAT : Fld := ⟨A.EMB_EVT, 5, 5⟩
abbrev F.EMB_EVT_TRIM_LIM : Fld := ⟨A.EMB_EVT, 4, 4⟩
abbrev F.EMB_EVT_OUTER : Fld := ⟨A.EMB_EVT, 3, 3⟩
abbrev F.EMB_EVT_MISSED : Fld := ⟨A.EMB_EVT, 2, 2⟩
abbrev F.EMB_EVT_LATE : Fld := ⟨A.EMB_EVT, 1, 1⟩
abbrev F.EMB_EVT_HOLD : Fld := ⟨A.EMB_EVT, 0, 0⟩
/-- EMB_CNTCLR, spec/04_embankment.md R149. -/
abbrev A.EMB_CNTCLR : Nat := 0x7000C
abbrev F.EMB_CNTCLR_CLR : Fld := ⟨A.EMB_CNTCLR, 0, 0⟩
/-- EMB_FSW, spec/04_embankment.md R150. -/
abbrev A.EMB_FSW : Nat := 0x70010
/-- EMB_XL, spec/04_embankment.md R150. -/
abbrev A.EMB_XL : Nat := 0x70014
/-- EMB_HFIX, spec/04_embankment.md R150. -/
abbrev A.EMB_HFIX : Nat := 0x70018
/-- EMB_HMIN, spec/04_embankment.md R150. -/
abbrev A.EMB_HMIN : Nat := 0x7001C
/-- EMB_HMAX, spec/04_embankment.md R150. -/
abbrev A.EMB_HMAX : Nat := 0x70020
/-- EMB_TEXT, spec/04_embankment.md R150. -/
abbrev A.EMB_TEXT : Nat := 0x70024
/-- EMB_HOLD, spec/04_embankment.md R150. -/
abbrev A.EMB_HOLD : Nat := 0x70028
/-- EMB_SETTLE, spec/04_embankment.md R150. -/
abbrev A.EMB_SETTLE : Nat := 0x7002C
/-- EMB_IZC, spec/04_embankment.md R150. -/
abbrev A.EMB_IZC : Nat := 0x70030
/-- EMB_OUTER, spec/04_embankment.md R150. -/
abbrev A.EMB_OUTER : Nat := 0x70034
/-- EMB_SMIN, spec/04_embankment.md R150. -/
abbrev A.EMB_SMIN : Nat := 0x70038
/-- EMB_SECT_HYS, spec/04_embankment.md R150. -/
abbrev A.EMB_SECT_HYS : Nat := 0x7003C
/-- EMB_NPK, spec/04_embankment.md R150. -/
abbrev A.EMB_NPK : Nat := 0x70040
/-- EMB_V0MAX, spec/04_embankment.md R150. -/
abbrev A.EMB_V0MAX : Nat := 0x70044
/-- EMB_TRIMK, spec/04_embankment.md R150. -/
abbrev A.EMB_TRIMK : Nat := 0x70048
/-- EMB_NPTF, spec/04_embankment.md R150. -/
abbrev A.EMB_NPTF : Nat := 0x7004C
/-- EMB_ERR, spec/04_embankment.md R150. -/
abbrev A.EMB_ERR (i : Nat) : Nat := 0x70080 + 0x10 * i
/-- EMB_SLOPE, spec/04_embankment.md R150. -/
abbrev A.EMB_SLOPE (i : Nat) : Nat := 0x70084 + 0x10 * i
/-- EMB_BAND, spec/04_embankment.md R150. -/
abbrev A.EMB_BAND (i : Nat) : Nat := 0x70088 + 0x10 * i
/-- EMB_TRIM, spec/04_embankment.md R150. -/
abbrev A.EMB_TRIM (i : Nat) : Nat := 0x7008C + 0x10 * i
/-- EMB_FSWM, spec/04_embankment.md R150. -/
abbrev A.EMB_FSWM (i : Nat) : Nat := 0x700B0 + 0x4 * i
/-- EMB_CNT, spec/04_embankment.md R150. -/
abbrev A.EMB_CNT (i : Nat) : Nat := 0x700C0 + 0x4 * i
/-- EMB_V0, spec/04_embankment.md R150. -/
abbrev A.EMB_V0 : Nat := 0x700D0
/-- EMB_VNP, spec/04_embankment.md R150. -/
abbrev A.EMB_VNP : Nat := 0x700D4
/-- MOD_CTRL, spec/05_modulator.md R183. -/
abbrev A.MOD_CTRL : Nat := 0x80000
abbrev F.MOD_CTRL_SS_SINK : Fld := ⟨A.MOD_CTRL, 31, 28⟩
abbrev F.MOD_CTRL_BS_EN : Fld := ⟨A.MOD_CTRL, 23, 20⟩
abbrev F.MOD_CTRL_AUX_MODE : Fld := ⟨A.MOD_CTRL, 17, 16⟩
abbrev F.MOD_CTRL_AUX_CFG : Fld := ⟨A.MOD_CTRL, 15, 15⟩
abbrev F.MOD_CTRL_UPD : Fld := ⟨A.MOD_CTRL, 8, 8⟩
abbrev F.MOD_CTRL_MODE : Fld := ⟨A.MOD_CTRL, 1, 0⟩
/-- MOD_STAT, spec/05_modulator.md R183. -/
abbrev A.MOD_STAT : Nat := 0x80004
abbrev F.MOD_STAT_LATE : Fld := ⟨A.MOD_STAT, 8, 8⟩
abbrev F.MOD_STAT_LEGS : Fld := ⟨A.MOD_STAT, 7, 4⟩
abbrev F.MOD_STAT_SEQ : Fld := ⟨A.MOD_STAT, 2, 2⟩
abbrev F.MOD_STAT_SAFE : Fld := ⟨A.MOD_STAT, 1, 1⟩
abbrev F.MOD_STAT_RUN : Fld := ⟨A.MOD_STAT, 0, 0⟩
/-- MOD_EVT, spec/05_modulator.md R183. -/
abbrev A.MOD_EVT : Nat := 0x80008
abbrev F.MOD_EVT_CLAMP : Fld := ⟨A.MOD_EVT, 6, 6⟩
abbrev F.MOD_EVT_DT_ABORT : Fld := ⟨A.MOD_EVT, 5, 5⟩
abbrev F.MOD_EVT_BS_WARN : Fld := ⟨A.MOD_EVT, 4, 4⟩
abbrev F.MOD_EVT_RFSH : Fld := ⟨A.MOD_EVT, 3, 3⟩
abbrev F.MOD_EVT_DROP : Fld := ⟨A.MOD_EVT, 2, 2⟩
abbrev F.MOD_EVT_MINP : Fld := ⟨A.MOD_EVT, 1, 1⟩
abbrev F.MOD_EVT_SAFE : Fld := ⟨A.MOD_EVT, 0, 0⟩
/-- MOD_SW, spec/05_modulator.md R183. -/
abbrev A.MOD_SW : Nat := 0x8000C
abbrev F.MOD_SW_AUX : Fld := ⟨A.MOD_SW, 15, 12⟩
abbrev F.MOD_SW_C : Fld := ⟨A.MOD_SW, 11, 8⟩
abbrev F.MOD_SW_B : Fld := ⟨A.MOD_SW, 7, 4⟩
abbrev F.MOD_SW_A : Fld := ⟨A.MOD_SW, 3, 0⟩
/-- MOD_SHAPE, spec/05_modulator.md R183. -/
abbrev A.MOD_SHAPE (i : Nat) : Nat := 0x80040 + 0x4 * i
abbrev F.MOD_SHAPE_S4_ON (i : Nat) : Fld := ⟨(A.MOD_SHAPE i), 31, 28⟩
abbrev F.MOD_SHAPE_S4_OFF (i : Nat) : Fld := ⟨(A.MOD_SHAPE i), 27, 24⟩
abbrev F.MOD_SHAPE_S3_ON (i : Nat) : Fld := ⟨(A.MOD_SHAPE i), 23, 20⟩
abbrev F.MOD_SHAPE_S3_OFF (i : Nat) : Fld := ⟨(A.MOD_SHAPE i), 19, 16⟩
abbrev F.MOD_SHAPE_S2_ON (i : Nat) : Fld := ⟨(A.MOD_SHAPE i), 15, 12⟩
abbrev F.MOD_SHAPE_S2_OFF (i : Nat) : Fld := ⟨(A.MOD_SHAPE i), 11, 8⟩
abbrev F.MOD_SHAPE_S1_ON (i : Nat) : Fld := ⟨(A.MOD_SHAPE i), 7, 4⟩
abbrev F.MOD_SHAPE_S1_OFF (i : Nat) : Fld := ⟨(A.MOD_SHAPE i), 3, 0⟩
/-- MOD_SHAPEH, spec/05_modulator.md R183. -/
abbrev A.MOD_SHAPEH (i : Nat) : Nat := 0x80050 + 0x4 * i
abbrev F.MOD_SHAPEH_S4_ON (i : Nat) : Fld := ⟨(A.MOD_SHAPEH i), 31, 28⟩
abbrev F.MOD_SHAPEH_S4_OFF (i : Nat) : Fld := ⟨(A.MOD_SHAPEH i), 27, 24⟩
abbrev F.MOD_SHAPEH_S3_ON (i : Nat) : Fld := ⟨(A.MOD_SHAPEH i), 23, 20⟩
abbrev F.MOD_SHAPEH_S3_OFF (i : Nat) : Fld := ⟨(A.MOD_SHAPEH i), 19, 16⟩
abbrev F.MOD_SHAPEH_S2_ON (i : Nat) : Fld := ⟨(A.MOD_SHAPEH i), 15, 12⟩
abbrev F.MOD_SHAPEH_S2_OFF (i : Nat) : Fld := ⟨(A.MOD_SHAPEH i), 11, 8⟩
abbrev F.MOD_SHAPEH_S1_ON (i : Nat) : Fld := ⟨(A.MOD_SHAPEH i), 7, 4⟩
abbrev F.MOD_SHAPEH_S1_OFF (i : Nat) : Fld := ⟨(A.MOD_SHAPEH i), 3, 0⟩
/-- MOD_CMP, spec/05_modulator.md R183. -/
abbrev A.MOD_CMP (i : Nat) : Nat := 0x80064 + 0x4 * i
abbrev F.MOD_CMP_SIDE (i : Nat) : Fld := ⟨(A.MOD_CMP i), 31, 31⟩
abbrev F.MOD_CMP_TON (i : Nat) : Fld := ⟨(A.MOD_CMP i), 30, 0⟩
/-- MOD_DT, spec/05_modulator.md R184. -/
abbrev A.MOD_DT (i : Nat) : Nat := 0x80010 + 0x4 * i
/-- MOD_TMIN, spec/05_modulator.md R184. -/
abbrev A.MOD_TMIN : Nat := 0x80020
/-- MOD_SS_GAP, spec/05_modulator.md R184. -/
abbrev A.MOD_SS_GAP : Nat := 0x80024
/-- MOD_BS_TMAX, spec/05_modulator.md R184. -/
abbrev A.MOD_BS_TMAX : Nat := 0x80028
/-- MOD_BS_TRF, spec/05_modulator.md R184. -/
abbrev A.MOD_BS_TRF : Nat := 0x8002C
/-- MOD_BS_WARN, spec/05_modulator.md R184. -/
abbrev A.MOD_BS_WARN : Nat := 0x80030
/-- MOD_SHAPE_ITH, spec/05_modulator.md R184. -/
abbrev A.MOD_SHAPE_ITH : Nat := 0x80034
/-- MOD_CHOP_ON, spec/05_modulator.md R184. -/
abbrev A.MOD_CHOP_ON : Nat := 0x80038
/-- MOD_CHOP_OFF, spec/05_modulator.md R184. -/
abbrev A.MOD_CHOP_OFF : Nat := 0x8003C
/-- MOD_PER, spec/05_modulator.md R184. -/
abbrev A.MOD_PER : Nat := 0x80060
/-- MOD_TTMR, spec/05_modulator.md R184. -/
abbrev A.MOD_TTMR (i : Nat) : Nat := 0x80080 + 0x4 * i
/-- LRN_CTRL, spec/06_learner_gallery.md R199. -/
abbrev A.LRN_CTRL : Nat := 0x90000
abbrev F.LRN_CTRL_AUTOSAVE : Fld := ⟨A.LRN_CTRL, 3, 3⟩
abbrev F.LRN_CTRL_WARM : Fld := ⟨A.LRN_CTRL, 2, 2⟩
abbrev F.LRN_CTRL_FREEZE : Fld := ⟨A.LRN_CTRL, 1, 1⟩
abbrev F.LRN_CTRL_EN : Fld := ⟨A.LRN_CTRL, 0, 0⟩
/-- LRN_STAT, spec/06_learner_gallery.md R199. -/
abbrev A.LRN_STAT : Nat := 0x90004
abbrev F.LRN_STAT_NVVALID : Fld := ⟨A.LRN_STAT, 5, 5⟩
abbrev F.LRN_STAT_SWEEP : Fld := ⟨A.LRN_STAT, 4, 4⟩
abbrev F.LRN_STAT_STATE : Fld := ⟨A.LRN_STAT, 2, 0⟩
/-- LRN_EVT, spec/06_learner_gallery.md R199. -/
abbrev A.LRN_EVT : Nat := 0x90008
abbrev F.LRN_EVT_SAVE_FAIL : Fld := ⟨A.LRN_EVT, 5, 5⟩
abbrev F.LRN_EVT_SAVED : Fld := ⟨A.LRN_EVT, 4, 4⟩
abbrev F.LRN_EVT_WARM_REJ : Fld := ⟨A.LRN_EVT, 3, 3⟩
abbrev F.LRN_EVT_WARM_OK : Fld := ⟨A.LRN_EVT, 2, 2⟩
abbrev F.LRN_EVT_CLAMP : Fld := ⟨A.LRN_EVT, 1, 1⟩
abbrev F.LRN_EVT_SKIP : Fld := ⟨A.LRN_EVT, 0, 0⟩
/-- LRN_CMD, spec/06_learner_gallery.md R199. -/
abbrev A.LRN_CMD : Nat := 0x9000C
abbrev F.LRN_CMD_ERASE : Fld := ⟨A.LRN_CMD, 3, 3⟩
abbrev F.LRN_CMD_CLEAR : Fld := ⟨A.LRN_CMD, 2, 2⟩
abbrev F.LRN_CMD_RESTORE : Fld := ⟨A.LRN_CMD, 1, 1⟩
abbrev F.LRN_CMD_SAVE : Fld := ⟨A.LRN_CMD, 0, 0⟩
/-- LRN_GAIN, spec/06_learner_gallery.md R200. -/
abbrev A.LRN_GAIN : Nat := 0x90010
/-- LRN_FORGET, spec/06_learner_gallery.md R200. -/
abbrev A.LRN_FORGET : Nat := 0x90014
/-- LRN_LEAD, spec/06_learner_gallery.md R200. -/
abbrev A.LRN_LEAD : Nat := 0x90018
/-- LRN_CLIM, spec/06_learner_gallery.md R200. -/
abbrev A.LRN_CLIM : Nat := 0x9001C
/-- LRN_HMASK0, spec/06_learner_gallery.md R200. -/
abbrev A.LRN_HMASK0 : Nat := 0x90020
/-- LRN_HMASK1, spec/06_learner_gallery.md R200. -/
abbrev A.LRN_HMASK1 : Nat := 0x90024
/-- LRN_FADE, spec/06_learner_gallery.md R200. -/
abbrev A.LRN_FADE : Nat := 0x90028
/-- LRN_DFUPD, spec/06_learner_gallery.md R200. -/
abbrev A.LRN_DFUPD : Nat := 0x9002C
/-- LRN_SAVEINT, spec/06_learner_gallery.md R200. -/
abbrev A.LRN_SAVEINT : Nat := 0x90030
/-- LRN_CYCLES, spec/06_learner_gallery.md R200. -/
abbrev A.LRN_CYCLES : Nat := 0x90040
/-- LRN_SKIPS, spec/06_learner_gallery.md R200. -/
abbrev A.LRN_SKIPS : Nat := 0x90044
/-- LRN_PEAK, spec/06_learner_gallery.md R200. -/
abbrev A.LRN_PEAK : Nat := 0x90048
/-- LRN_COEF, spec/06_learner_gallery.md R200. -/
abbrev A.LRN_COEF (i : Nat) : Nat := 0x90100 + 0x4 * i
/-- GAL_CTRL, spec/06_learner_gallery.md R209. -/
abbrev A.GAL_CTRL : Nat := 0xA0000
abbrev F.GAL_CTRL_EVSEL : Fld := ⟨A.GAL_CTRL, 31, 24⟩
abbrev F.GAL_CTRL_TSLOT : Fld := ⟨A.GAL_CTRL, 23, 20⟩
abbrev F.GAL_CTRL_TEDGE : Fld := ⟨A.GAL_CTRL, 19, 18⟩
abbrev F.GAL_CTRL_TSRC : Fld := ⟨A.GAL_CTRL, 17, 14⟩
abbrev F.GAL_CTRL_DECMODE : Fld := ⟨A.GAL_CTRL, 13, 13⟩
abbrev F.GAL_CTRL_NPROBE : Fld := ⟨A.GAL_CTRL, 4, 0⟩
/-- GAL_STAT, spec/06_learner_gallery.md R209. -/
abbrev A.GAL_STAT : Nat := 0xA0004
abbrev F.GAL_STAT_RATECHG : Fld := ⟨A.GAL_STAT, 2, 2⟩
abbrev F.GAL_STAT_STATE : Fld := ⟨A.GAL_STAT, 1, 0⟩
/-- GAL_CMD, spec/06_learner_gallery.md R209. -/
abbrev A.GAL_CMD : Nat := 0xA000C
abbrev F.GAL_CMD_STOP : Fld := ⟨A.GAL_CMD, 2, 2⟩
abbrev F.GAL_CMD_FORCE : Fld := ⟨A.GAL_CMD, 1, 1⟩
abbrev F.GAL_CMD_ARM : Fld := ⟨A.GAL_CMD, 0, 0⟩
/-- GAL_PROBE, spec/06_learner_gallery.md R210. -/
abbrev A.GAL_PROBE (i : Nat) : Nat := 0xA0010 + 0x4 * i
/-- GAL_LEN, spec/06_learner_gallery.md R210. -/
abbrev A.GAL_LEN : Nat := 0xA0020
/-- GAL_PRE, spec/06_learner_gallery.md R210. -/
abbrev A.GAL_PRE : Nat := 0xA0024
/-- GAL_DEC, spec/06_learner_gallery.md R210. -/
abbrev A.GAL_DEC : Nat := 0xA0028
/-- GAL_TLEVEL, spec/06_learner_gallery.md R210. -/
abbrev A.GAL_TLEVEL : Nat := 0xA002C
/-- GAL_START, spec/06_learner_gallery.md R210. -/
abbrev A.GAL_START : Nat := 0xA0040
/-- GAL_TIDX, spec/06_learner_gallery.md R210. -/
abbrev A.GAL_TIDX : Nat := 0xA0044
/-- GAL_ROWS, spec/06_learner_gallery.md R210. -/
abbrev A.GAL_ROWS : Nat := 0xA0048
/-- GAL_TNS, spec/06_learner_gallery.md R210. -/
abbrev A.GAL_TNS : Nat := 0xA004C
/-- GAL_TSL, spec/06_learner_gallery.md R210. -/
abbrev A.GAL_TSL : Nat := 0xA0050
/-- GAL_TSH, spec/06_learner_gallery.md R210. -/
abbrev A.GAL_TSH : Nat := 0xA0054
/-- AFE_CTRL, spec/07_analogue_front.md R233. -/
abbrev A.AFE_CTRL : Nat := 0x30000
abbrev F.AFE_CTRL_PLS_TRIP : Fld := ⟨A.AFE_CTRL, 7, 7⟩
abbrev F.AFE_CTRL_SHD_EN : Fld := ⟨A.AFE_CTRL, 6, 6⟩
abbrev F.AFE_CTRL_PLS_EN : Fld := ⟨A.AFE_CTRL, 5, 5⟩
abbrev F.AFE_CTRL_TRIG : Fld := ⟨A.AFE_CTRL, 2, 0⟩
/-- AFE_STAT, spec/07_analogue_front.md R233. -/
abbrev A.AFE_STAT : Nat := 0x30004
abbrev F.AFE_STAT_FRAME : Fld := ⟨A.AFE_STAT, 31, 16⟩
abbrev F.AFE_STAT_SHDTURN : Fld := ⟨A.AFE_STAT, 6, 5⟩
abbrev F.AFE_STAT_SETTLING : Fld := ⟨A.AFE_STAT, 4, 4⟩
abbrev F.AFE_STAT_TEST : Fld := ⟨A.AFE_STAT, 3, 3⟩
abbrev F.AFE_STAT_SHD_FAULT : Fld := ⟨A.AFE_STAT, 2, 2⟩
abbrev F.AFE_STAT_PLS_FAULT : Fld := ⟨A.AFE_STAT, 1, 1⟩
abbrev F.AFE_STAT_CARRIER : Fld := ⟨A.AFE_STAT, 0, 0⟩
/-- AFE_EVT, spec/07_analogue_front.md R233. -/
abbrev A.AFE_EVT : Nat := 0x30008
abbrev F.AFE_EVT_CMP : Fld := ⟨A.AFE_EVT, 13, 8⟩
abbrev F.AFE_EVT_TEST_ABORT : Fld := ⟨A.AFE_EVT, 5, 5⟩
abbrev F.AFE_EVT_ABORT : Fld := ⟨A.AFE_EVT, 4, 4⟩
abbrev F.AFE_EVT_SHD_FAIL : Fld := ⟨A.AFE_EVT, 3, 3⟩
abbrev F.AFE_EVT_PLS_FAIL : Fld := ⟨A.AFE_EVT, 2, 2⟩
abbrev F.AFE_EVT_SUS : Fld := ⟨A.AFE_EVT, 1, 1⟩
abbrev F.AFE_EVT_OVR : Fld := ⟨A.AFE_EVT, 0, 0⟩
/-- AFE_OVR, spec/07_analogue_front.md R233. -/
abbrev A.AFE_OVR : Nat := 0x3000C
abbrev F.AFE_OVR_AIN : Fld := ⟨A.AFE_OVR, 14, 0⟩
/-- AFE_CMP_THR, spec/07_analogue_front.md R233. -/
abbrev A.AFE_CMP_THR (i : Nat) : Nat := 0x30040 + 0x4 * i
abbrev F.AFE_CMP_THR_HI (i : Nat) : Fld := ⟨(A.AFE_CMP_THR i), 15, 8⟩
abbrev F.AFE_CMP_THR_LO (i : Nat) : Fld := ⟨(A.AFE_CMP_THR i), 7, 0⟩
/-- AFE_CMP_CFG, spec/07_analogue_front.md R233. -/
abbrev A.AFE_CMP_CFG (i : Nat) : Nat := 0x30060 + 0x4 * i
abbrev F.AFE_CMP_CFG_EN (i : Nat) : Fld := ⟨(A.AFE_CMP_CFG i), 31, 31⟩
abbrev F.AFE_CMP_CFG_SRC (i : Nat) : Fld := ⟨(A.AFE_CMP_CFG i), 27, 24⟩
abbrev F.AFE_CMP_CFG_BREF (i : Nat) : Fld := ⟨(A.AFE_CMP_CFG i), 22, 20⟩
abbrev F.AFE_CMP_CFG_FILT (i : Nat) : Fld := ⟨(A.AFE_CMP_CFG i), 19, 16⟩
abbrev F.AFE_CMP_CFG_BLANK (i : Nat) : Fld := ⟨(A.AFE_CMP_CFG i), 15, 0⟩
/-- AFE_CMP_STAT, spec/07_analogue_front.md R233. -/
abbrev A.AFE_CMP_STAT : Nat := 0x30080
abbrev F.AFE_CMP_STAT_TEST_OUT : Fld := ⟨A.AFE_CMP_STAT, 13, 8⟩
abbrev F.AFE_CMP_STAT_OUT : Fld := ⟨A.AFE_CMP_STAT, 5, 0⟩
/-- AFE_TEST, spec/07_analogue_front.md R233. -/
abbrev A.AFE_TEST : Nat := 0x30090
abbrev F.AFE_TEST_EN : Fld := ⟨A.AFE_TEST, 31, 31⟩
abbrev F.AFE_TEST_INPUT : Fld := ⟨A.AFE_TEST, 23, 20⟩
abbrev F.AFE_TEST_CODE : Fld := ⟨A.AFE_TEST, 9, 0⟩
/-- AFE_DIAG, spec/07_analogue_front.md R233. -/
abbrev A.AFE_DIAG : Nat := 0x30094
abbrev F.AFE_DIAG_VALID : Fld := ⟨A.AFE_DIAG, 31, 31⟩
abbrev F.AFE_DIAG_TESTED : Fld := ⟨A.AFE_DIAG, 30, 16⟩
abbrev F.AFE_DIAG_FAILED : Fld := ⟨A.AFE_DIAG, 14, 0⟩
/-- AFE_RAW, spec/07_analogue_front.md R233. -/
abbrev A.AFE_RAW (i : Nat) : Nat := 0x30100 + 0x4 * i
abbrev F.AFE_RAW_FLAG (i : Nat) : Fld := ⟨(A.AFE_RAW i), 17, 16⟩
abbrev F.AFE_RAW_CODE (i : Nat) : Fld := ⟨(A.AFE_RAW i), 15, 0⟩
/-- AFE_TDLY, spec/07_analogue_front.md R234. -/
abbrev A.AFE_TDLY : Nat := 0x30010
/-- AFE_PLS_TOL, spec/07_analogue_front.md R234. -/
abbrev A.AFE_PLS_TOL : Nat := 0x30014
/-- AFE_SHD_TOL, spec/07_analogue_front.md R234. -/
abbrev A.AFE_SHD_TOL : Nat := 0x30018
/-- AFE_PLS_N, spec/07_analogue_front.md R234. -/
abbrev A.AFE_PLS_N : Nat := 0x3001C
/-- AFE_PLS_DIFF, spec/07_analogue_front.md R234. -/
abbrev A.AFE_PLS_DIFF : Nat := 0x30020
/-- AFE_SHD_DIFF, spec/07_analogue_front.md R234. -/
abbrev A.AFE_SHD_DIFF : Nat := 0x30024
/-- AFE_PLS_CNT, spec/07_analogue_front.md R234. -/
abbrev A.AFE_PLS_CNT : Nat := 0x30028
/-- AFE_SHD_CNT, spec/07_analogue_front.md R234. -/
abbrev A.AFE_SHD_CNT : Nat := 0x3002C
/-- FLT_CTRL, spec/08_filter_capture.md R260. -/
abbrev A.FLT_CTRL : Nat := 0x40000
abbrev F.FLT_CTRL_HSEL : Fld := ⟨A.FLT_CTRL, 15, 8⟩
abbrev F.FLT_CTRL_SV_EN : Fld := ⟨A.FLT_CTRL, 0, 0⟩
/-- FLT_STAT, spec/08_filter_capture.md R260. -/
abbrev A.FLT_STAT : Nat := 0x40004
abbrev F.FLT_STAT_BLKCYC : Fld := ⟨A.FLT_STAT, 31, 16⟩
abbrev F.FLT_STAT_MPATH : Fld := ⟨A.FLT_STAT, 4, 4⟩
abbrev F.FLT_STAT_PREF : Fld := ⟨A.FLT_STAT, 3, 2⟩
abbrev F.FLT_STAT_SVRUN : Fld := ⟨A.FLT_STAT, 1, 1⟩
/-- FLT_EVT, spec/08_filter_capture.md R260. -/
abbrev A.FLT_EVT : Nat := 0x40008
abbrev F.FLT_EVT_HARM_ACC : Fld := ⟨A.FLT_EVT, 2, 2⟩
abbrev F.FLT_EVT_SHORTBLK : Fld := ⟨A.FLT_EVT, 1, 1⟩
abbrev F.FLT_EVT_RESTART : Fld := ⟨A.FLT_EVT, 0, 0⟩
/-- FLT_RESP, spec/08_filter_capture.md R260. -/
abbrev A.FLT_RESP (i : Nat) : Nat := 0x40040 + 0x4 * i
abbrev F.FLT_RESP_M (i : Nat) : Fld := ⟨(A.FLT_RESP i), 7, 4⟩
abbrev F.FLT_RESP_C (i : Nat) : Fld := ⟨(A.FLT_RESP i), 3, 0⟩
/-- CAP_CTRL, spec/08_filter_capture.md R260. -/
abbrev A.CAP_CTRL : Nat := 0x50000
abbrev F.CAP_CTRL_ROLE : Fld := ⟨A.CAP_CTRL, 31, 30⟩
abbrev F.CAP_CTRL_FIRE_IN : Fld := ⟨A.CAP_CTRL, 29, 29⟩
abbrev F.CAP_CTRL_FIRE_OUT : Fld := ⟨A.CAP_CTRL, 28, 28⟩
abbrev F.CAP_CTRL_ARMPIN : Fld := ⟨A.CAP_CTRL, 27, 27⟩
abbrev F.CAP_CTRL_MED : Fld := ⟨A.CAP_CTRL, 26, 26⟩
abbrev F.CAP_CTRL_TAP : Fld := ⟨A.CAP_CTRL, 25, 24⟩
abbrev F.CAP_CTRL_FORMAT : Fld := ⟨A.CAP_CTRL, 23, 22⟩
abbrev F.CAP_CTRL_TSRC : Fld := ⟨A.CAP_CTRL, 21, 18⟩
abbrev F.CAP_CTRL_TEDGE : Fld := ⟨A.CAP_CTRL, 17, 16⟩
abbrev F.CAP_CTRL_TCH : Fld := ⟨A.CAP_CTRL, 15, 12⟩
abbrev F.CAP_CTRL_EVSEL : Fld := ⟨A.CAP_CTRL, 11, 4⟩
abbrev F.CAP_CTRL_NCH : Fld := ⟨A.CAP_CTRL, 3, 0⟩
/-- CAP_STAT, spec/08_filter_capture.md R260. -/
abbrev A.CAP_STAT : Nat := 0x50004
abbrev F.CAP_STAT_TRUNC : Fld := ⟨A.CAP_STAT, 6, 6⟩
abbrev F.CAP_STAT_FIREHOLD : Fld := ⟨A.CAP_STAT, 5, 5⟩
abbrev F.CAP_STAT_FIREPIN : Fld := ⟨A.CAP_STAT, 4, 4⟩
abbrev F.CAP_STAT_TCAUSE : Fld := ⟨A.CAP_STAT, 3, 2⟩
abbrev F.CAP_STAT_STATE : Fld := ⟨A.CAP_STAT, 1, 0⟩
/-- CAP_CMD, spec/08_filter_capture.md R260. -/
abbrev A.CAP_CMD : Nat := 0x50008
abbrev F.CAP_CMD_STOP : Fld := ⟨A.CAP_CMD, 2, 2⟩
abbrev F.CAP_CMD_FORCE : Fld := ⟨A.CAP_CMD, 1, 1⟩
abbrev F.CAP_CMD_ARM : Fld := ⟨A.CAP_CMD, 0, 0⟩
/-- FLT_MAVG, spec/08_filter_capture.md R261. -/
abbrev A.FLT_MAVG : Nat := 0x40010
/-- FLT_MT_NS, spec/08_filter_capture.md R261. -/
abbrev A.FLT_MT_NS : Nat := 0x40020
/-- FLT_MT_SL, spec/08_filter_capture.md R261. -/
abbrev A.FLT_MT_SL : Nat := 0x40024
/-- FLT_MT_SH, spec/08_filter_capture.md R261. -/
abbrev A.FLT_MT_SH : Nat := 0x40028
/-- FLT_MTR, spec/08_filter_capture.md R261. -/
abbrev A.FLT_MTR (i : Nat) : Nat := 0x40400 + 0x4 * i
/-- CAP_CHSEL, spec/08_filter_capture.md R261. -/
abbrev A.CAP_CHSEL (i : Nat) : Nat := 0x50010 + 0x4 * i
/-- CAP_LEN, spec/08_filter_capture.md R261. -/
abbrev A.CAP_LEN : Nat := 0x50020
/-- CAP_PRE, spec/08_filter_capture.md R261. -/
abbrev A.CAP_PRE : Nat := 0x50024
/-- CAP_INT, spec/08_filter_capture.md R261. -/
abbrev A.CAP_INT : Nat := 0x50028
/-- CAP_TLEVEL, spec/08_filter_capture.md R261. -/
abbrev A.CAP_TLEVEL : Nat := 0x5002C
/-- CAP_THI, spec/08_filter_capture.md R261. -/
abbrev A.CAP_THI : Nat := 0x50030
/-- CAP_THYST, spec/08_filter_capture.md R261. -/
abbrev A.CAP_THYST : Nat := 0x50034
/-- CAP_TSLN, spec/08_filter_capture.md R261. -/
abbrev A.CAP_TSLN : Nat := 0x50038
/-- CAP_TT_NS, spec/08_filter_capture.md R261. -/
abbrev A.CAP_TT_NS : Nat := 0x5003C
/-- CAP_TT_SL, spec/08_filter_capture.md R261. -/
abbrev A.CAP_TT_SL : Nat := 0x50040
/-- CAP_TT_SH, spec/08_filter_capture.md R261. -/
abbrev A.CAP_TT_SH : Nat := 0x50044
/-- CAP_START, spec/08_filter_capture.md R261. -/
abbrev A.CAP_START : Nat := 0x50050
/-- CAP_TIDX, spec/08_filter_capture.md R261. -/
abbrev A.CAP_TIDX : Nat := 0x50054
/-- CAP_ROWS, spec/08_filter_capture.md R261. -/
abbrev A.CAP_ROWS : Nat := 0x50058
/-- CAP_TRG_FR, spec/08_filter_capture.md R261. -/
abbrev A.CAP_TRG_FR : Nat := 0x5005C
/-- CAP_TRG_NS, spec/08_filter_capture.md R261. -/
abbrev A.CAP_TRG_NS : Nat := 0x50060
/-- CAP_TRG_SL, spec/08_filter_capture.md R261. -/
abbrev A.CAP_TRG_SL : Nat := 0x50064
/-- CAP_TRG_SH, spec/08_filter_capture.md R261. -/
abbrev A.CAP_TRG_SH : Nat := 0x50068
/-- CAP_R0_NS, spec/08_filter_capture.md R261. -/
abbrev A.CAP_R0_NS : Nat := 0x5006C
/-- CAP_R0_SL, spec/08_filter_capture.md R261. -/
abbrev A.CAP_R0_SL : Nat := 0x50070
/-- CAP_R0_SH, spec/08_filter_capture.md R261. -/
abbrev A.CAP_R0_SH : Nat := 0x50074
/-- CAP_PER, spec/08_filter_capture.md R261. -/
abbrev A.CAP_PER : Nat := 0x50078
/-- STS_STAT, spec/09_stairs_sluices.md R288. -/
abbrev A.STS_STAT : Nat := 0xB0000
abbrev F.STS_STAT_HELD : Fld := ⟨A.STS_STAT, 15, 12⟩
abbrev F.STS_STAT_DWELL : Fld := ⟨A.STS_STAT, 11, 8⟩
abbrev F.STS_STAT_STAIR_ACTIVE : Fld := ⟨A.STS_STAT, 3, 0⟩
/-- STS_EVT, spec/09_stairs_sluices.md R288. -/
abbrev A.STS_EVT : Nat := 0xB0004
abbrev F.STS_EVT_CONFLICT : Fld := ⟨A.STS_EVT, 10, 10⟩
abbrev F.STS_EVT_ABORT : Fld := ⟨A.STS_EVT, 9, 9⟩
abbrev F.STS_EVT_COMMIT : Fld := ⟨A.STS_EVT, 8, 8⟩
abbrev F.STS_EVT_REVERSED : Fld := ⟨A.STS_EVT, 7, 4⟩
abbrev F.STS_EVT_LANDED : Fld := ⟨A.STS_EVT, 3, 0⟩
/-- STS_SCFG, spec/09_stairs_sluices.md R288. -/
abbrev A.STS_SCFG (i : Nat) : Nat := 0xB0010 + 0x4 * i
abbrev F.STS_SCFG_LAND_EN (i : Nat) : Fld := ⟨(A.STS_SCFG i), 31, 31⟩
abbrev F.STS_SCFG_LAND_DIR (i : Nat) : Fld := ⟨(A.STS_SCFG i), 30, 29⟩
abbrev F.STS_SCFG_DWELL (i : Nat) : Fld := ⟨(A.STS_SCFG i), 15, 0⟩
/-- STS_SLU, spec/09_stairs_sluices.md R288. -/
abbrev A.STS_SLU (i : Nat) : Nat := 0xB0100 + 0x4 * i
abbrev F.STS_SLU_STATE (i : Nat) : Fld := ⟨(A.STS_SLU i), 31, 28⟩
abbrev F.STS_SLU_OWNER (i : Nat) : Fld := ⟨(A.STS_SLU i), 27, 24⟩
abbrev F.STS_SLU_REASON (i : Nat) : Fld := ⟨(A.STS_SLU i), 23, 20⟩
abbrev F.STS_SLU_TIMED (i : Nat) : Fld := ⟨(A.STS_SLU i), 15, 15⟩
abbrev F.STS_SLU_REQ_GOOD (i : Nat) : Fld := ⟨(A.STS_SLU i), 14, 14⟩
abbrev F.STS_SLU_ENTRIES (i : Nat) : Fld := ⟨(A.STS_SLU i), 13, 7⟩
/-- STS_RUP, spec/09_stairs_sluices.md R289. -/
abbrev A.STS_RUP (i : Nat) : Nat := 0xB0020 + 0x4 * i
/-- STS_RDN, spec/09_stairs_sluices.md R289. -/
abbrev A.STS_RDN (i : Nat) : Nat := 0xB0030 + 0x4 * i
/-- STS_LAND, spec/09_stairs_sluices.md R289. -/
abbrev A.STS_LAND (i : Nat) : Nat := 0xB0040 + 0x4 * i
/-- STS_OUT, spec/09_stairs_sluices.md R289. -/
abbrev A.STS_OUT (i : Nat) : Nat := 0xB0050 + 0x4 * i
/-- STS_DWL, spec/09_stairs_sluices.md R289. -/
abbrev A.STS_DWL (i : Nat) : Nat := 0xB0060 + 0x4 * i
/-- STS_IDLE_TMO, spec/09_stairs_sluices.md R289. -/
abbrev A.STS_IDLE_TMO : Nat := 0xB0070
/-- STS_COMMITS, spec/09_stairs_sluices.md R289. -/
abbrev A.STS_COMMITS : Nat := 0xB0074
/-- STS_ABORTS, spec/09_stairs_sluices.md R289. -/
abbrev A.STS_ABORTS : Nat := 0xB0078
/-- DIK_TRIPSRC, spec/10_dike_gatelink.md R314. -/
abbrev A.DIK_TRIPSRC : Nat := 0xC0000
abbrev F.DIK_TRIPSRC_THERM : Fld := ⟨A.DIK_TRIPSRC, 13, 13⟩
abbrev F.DIK_TRIPSRC_DBG : Fld := ⟨A.DIK_TRIPSRC, 12, 12⟩
abbrev F.DIK_TRIPSRC_DCWIN : Fld := ⟨A.DIK_TRIPSRC, 11, 11⟩
abbrev F.DIK_TRIPSRC_PLAUS : Fld := ⟨A.DIK_TRIPSRC, 10, 10⟩
abbrev F.DIK_TRIPSRC_STARVE : Fld := ⟨A.DIK_TRIPSRC, 9, 9⟩
abbrev F.DIK_TRIPSRC_SW : Fld := ⟨A.DIK_TRIPSRC, 8, 8⟩
abbrev F.DIK_TRIPSRC_SPB : Fld := ⟨A.DIK_TRIPSRC, 7, 7⟩
abbrev F.DIK_TRIPSRC_CLOCK : Fld := ⟨A.DIK_TRIPSRC, 6, 6⟩
abbrev F.DIK_TRIPSRC_LINK : Fld := ⟨A.DIK_TRIPSRC, 5, 5⟩
abbrev F.DIK_TRIPSRC_UV : Fld := ⟨A.DIK_TRIPSRC, 4, 4⟩
abbrev F.DIK_TRIPSRC_L1 : Fld := ⟨A.DIK_TRIPSRC, 3, 3⟩
abbrev F.DIK_TRIPSRC_L2 : Fld := ⟨A.DIK_TRIPSRC, 2, 2⟩
abbrev F.DIK_TRIPSRC_CMP : Fld := ⟨A.DIK_TRIPSRC, 1, 1⟩
abbrev F.DIK_TRIPSRC_TRIPI : Fld := ⟨A.DIK_TRIPSRC, 0, 0⟩
/-- DIK_ACTIVE, spec/10_dike_gatelink.md R314. -/
abbrev A.DIK_ACTIVE : Nat := 0xC0004
abbrev F.DIK_ACTIVE_THERM : Fld := ⟨A.DIK_ACTIVE, 13, 13⟩
abbrev F.DIK_ACTIVE_DBG : Fld := ⟨A.DIK_ACTIVE, 12, 12⟩
abbrev F.DIK_ACTIVE_DCWIN : Fld := ⟨A.DIK_ACTIVE, 11, 11⟩
abbrev F.DIK_ACTIVE_PLAUS : Fld := ⟨A.DIK_ACTIVE, 10, 10⟩
abbrev F.DIK_ACTIVE_STARVE : Fld := ⟨A.DIK_ACTIVE, 9, 9⟩
abbrev F.DIK_ACTIVE_SW : Fld := ⟨A.DIK_ACTIVE, 8, 8⟩
abbrev F.DIK_ACTIVE_SPB : Fld := ⟨A.DIK_ACTIVE, 7, 7⟩
abbrev F.DIK_ACTIVE_CLOCK : Fld := ⟨A.DIK_ACTIVE, 6, 6⟩
abbrev F.DIK_ACTIVE_LINK : Fld := ⟨A.DIK_ACTIVE, 5, 5⟩
abbrev F.DIK_ACTIVE_UV : Fld := ⟨A.DIK_ACTIVE, 4, 4⟩
abbrev F.DIK_ACTIVE_L1 : Fld := ⟨A.DIK_ACTIVE, 3, 3⟩
abbrev F.DIK_ACTIVE_L2 : Fld := ⟨A.DIK_ACTIVE, 2, 2⟩
abbrev F.DIK_ACTIVE_CMP : Fld := ⟨A.DIK_ACTIVE, 1, 1⟩
abbrev F.DIK_ACTIVE_TRIPI : Fld := ⟨A.DIK_ACTIVE, 0, 0⟩
/-- DIK_CFG, spec/10_dike_gatelink.md R314. -/
abbrev A.DIK_CFG : Nat := 0xC0018
abbrev F.DIK_CFG_TRIPI_FILT : Fld := ⟨A.DIK_CFG, 15, 8⟩
abbrev F.DIK_CFG_TRIPO_PASS : Fld := ⟨A.DIK_CFG, 0, 0⟩
/-- DIK_EVT, spec/10_dike_gatelink.md R314. -/
abbrev A.DIK_EVT : Nat := 0xC001C
abbrev F.DIK_EVT_TRIPI : Fld := ⟨A.DIK_EVT, 4, 4⟩
abbrev F.DIK_EVT_L2_LEG : Fld := ⟨A.DIK_EVT, 3, 3⟩
abbrev F.DIK_EVT_STEST_FAIL : Fld := ⟨A.DIK_EVT, 2, 2⟩
abbrev F.DIK_EVT_CLR_REFUSED : Fld := ⟨A.DIK_EVT, 1, 1⟩
abbrev F.DIK_EVT_MULTI_L2 : Fld := ⟨A.DIK_EVT, 0, 0⟩
/-- DIK_FIRST, spec/10_dike_gatelink.md R314. -/
abbrev A.DIK_FIRST : Nat := 0xC0020
abbrev F.DIK_FIRST_LINK : Fld := ⟨A.DIK_FIRST, 31, 28⟩
abbrev F.DIK_FIRST_BITS : Fld := ⟨A.DIK_FIRST, 13, 0⟩
/-- DIK_L1THR, spec/10_dike_gatelink.md R314. -/
abbrev A.DIK_L1THR (i : Nat) : Nat := 0xC0040 + 0x4 * i
abbrev F.DIK_L1THR_S4 (i : Nat) : Fld := ⟨(A.DIK_L1THR i), 31, 24⟩
abbrev F.DIK_L1THR_S3 (i : Nat) : Fld := ⟨(A.DIK_L1THR i), 23, 16⟩
abbrev F.DIK_L1THR_S2 (i : Nat) : Fld := ⟨(A.DIK_L1THR i), 15, 8⟩
abbrev F.DIK_L1THR_S1 (i : Nat) : Fld := ⟨(A.DIK_L1THR i), 7, 0⟩
/-- DIK_L1CFG, spec/10_dike_gatelink.md R314. -/
abbrev A.DIK_L1CFG : Nat := 0xC0050
abbrev F.DIK_L1CFG_BLANK : Fld := ⟨A.DIK_L1CFG, 31, 16⟩
abbrev F.DIK_L1CFG_N : Fld := ⟨A.DIK_L1CFG, 2, 0⟩
/-- DIK_STEST, spec/10_dike_gatelink.md R314. -/
abbrev A.DIK_STEST : Nat := 0xC0070
abbrev F.DIK_STEST_VALID : Fld := ⟨A.DIK_STEST, 31, 31⟩
abbrev F.DIK_STEST_GU_FAIL : Fld := ⟨A.DIK_STEST, 27, 24⟩
abbrev F.DIK_STEST_GU_PASS : Fld := ⟨A.DIK_STEST, 23, 20⟩
abbrev F.DIK_STEST_UNTEST : Fld := ⟨A.DIK_STEST, 19, 14⟩
abbrev F.DIK_STEST_CMP_FAIL : Fld := ⟨A.DIK_STEST, 13, 8⟩
abbrev F.DIK_STEST_CMP_PASS : Fld := ⟨A.DIK_STEST, 5, 0⟩
/-- DIK_RDY, spec/10_dike_gatelink.md R314. -/
abbrev A.DIK_RDY : Nat := 0xC0074
abbrev F.DIK_RDY_READY : Fld := ⟨A.DIK_RDY, 31, 31⟩
abbrev F.DIK_RDY_CLEAN : Fld := ⟨A.DIK_RDY, 7, 4⟩
abbrev F.DIK_RDY_UP : Fld := ⟨A.DIK_RDY, 3, 0⟩
/-- DIK_FT_FR, spec/10_dike_gatelink.md R315. -/
abbrev A.DIK_FT_FR : Nat := 0xC0024
/-- DIK_FT_NS, spec/10_dike_gatelink.md R315. -/
abbrev A.DIK_FT_NS : Nat := 0xC0028
/-- DIK_FT_SL, spec/10_dike_gatelink.md R315. -/
abbrev A.DIK_FT_SL : Nat := 0xC002C
/-- DIK_FT_SH, spec/10_dike_gatelink.md R315. -/
abbrev A.DIK_FT_SH : Nat := 0xC0030
/-- DIK_CLRRES, spec/10_dike_gatelink.md R315. -/
abbrev A.DIK_CLRRES : Nat := 0xC0034
/-- DIK_TRIPCNT, spec/10_dike_gatelink.md R315. -/
abbrev A.DIK_TRIPCNT : Nat := 0xC0038
/-- DIK_SWTRIP, spec/10_dike_gatelink.md R315. -/
abbrev A.DIK_SWTRIP : Nat := 0xC003C
/-- DIK_SETTLE, spec/10_dike_gatelink.md R315. -/
abbrev A.DIK_SETTLE : Nat := 0xC0054
/-- DIK_DCLO, spec/10_dike_gatelink.md R315. -/
abbrev A.DIK_DCLO : Nat := 0xC0058
/-- DIK_DCHI, spec/10_dike_gatelink.md R315. -/
abbrev A.DIK_DCHI : Nat := 0xC005C
/-- DIK_DCN, spec/10_dike_gatelink.md R315. -/
abbrev A.DIK_DCN : Nat := 0xC0060
/-- DIK_TH0LIM, spec/10_dike_gatelink.md R315. -/
abbrev A.DIK_TH0LIM : Nat := 0xC0064
/-- DIK_TH1LIM, spec/10_dike_gatelink.md R315. -/
abbrev A.DIK_TH1LIM : Nat := 0xC0068
/-- DIK_GUTMAX, spec/10_dike_gatelink.md R315. -/
abbrev A.DIK_GUTMAX : Nat := 0xC006C
/-- GLK_CFG, spec/10_dike_gatelink.md R316. -/
abbrev A.GLK_CFG (i : Nat) : Nat := 0xD0000 + 0x100 * i
abbrev F.GLK_CFG_EN (i : Nat) : Fld := ⟨(A.GLK_CFG i), 31, 31⟩
abbrev F.GLK_CFG_VMAX (i : Nat) : Fld := ⟨(A.GLK_CFG i), 29, 28⟩
abbrev F.GLK_CFG_VMIN (i : Nat) : Fld := ⟨(A.GLK_CFG i), 27, 26⟩
abbrev F.GLK_CFG_NSW (i : Nat) : Fld := ⟨(A.GLK_CFG i), 24, 24⟩
abbrev F.GLK_CFG_LOSSN (i : Nat) : Fld := ⟨(A.GLK_CFG i), 20, 16⟩
/-- GLK_STAT, spec/10_dike_gatelink.md R316. -/
abbrev A.GLK_STAT (i : Nat) : Nat := 0xD0010 + 0x100 * i
abbrev F.GLK_STAT_STATE (i : Nat) : Fld := ⟨(A.GLK_STAT i), 31, 28⟩
abbrev F.GLK_STAT_VER (i : Nat) : Fld := ⟨(A.GLK_STAT i), 27, 26⟩
abbrev F.GLK_STAT_GUVER (i : Nat) : Fld := ⟨(A.GLK_STAT i), 25, 24⟩
abbrev F.GLK_STAT_FAILRSN (i : Nat) : Fld := ⟨(A.GLK_STAT i), 23, 20⟩
abbrev F.GLK_STAT_L2 (i : Nat) : Fld := ⟨(A.GLK_STAT i), 19, 16⟩
abbrev F.GLK_STAT_FAULT (i : Nat) : Fld := ⟨(A.GLK_STAT i), 15, 8⟩
/-- GLK_ISFS, spec/10_dike_gatelink.md R317. -/
abbrev A.GLK_ISFS (i : Nat) : Nat := 0xD0004 + 0x100 * i
/-- GLK_ERR, spec/10_dike_gatelink.md R317. -/
abbrev A.GLK_ERR (i : Nat) : Nat := 0xD0014 + 0x100 * i
/-- GLK_MON, spec/10_dike_gatelink.md R317. -/
abbrev A.GLK_MON (i : Nat) : Nat := 0xD0018 + 0x100 * i
/-- GLK_TEMP, spec/10_dike_gatelink.md R317. -/
abbrev A.GLK_TEMP (i : Nat) : Nat := 0xD001C + 0x100 * i
/-- GLK_IS, spec/10_dike_gatelink.md R317. -/
abbrev A.GLK_IS (i : Nat) : Nat := 0xD0020 + 0x100 * i
/-- GLK_ID, spec/10_dike_gatelink.md R317. -/
abbrev A.GLK_ID (i : Nat) : Nat := 0xD0024 + 0x100 * i
/-- FIO_DI, spec/11_field_io.md R337. -/
abbrev A.FIO_DI : Nat := 0xE0000
abbrev F.FIO_DI_RAW : Fld := ⟨A.FIO_DI, 15, 8⟩
abbrev F.FIO_DI_FILT : Fld := ⟨A.FIO_DI, 7, 0⟩
/-- FIO_STAT, spec/11_field_io.md R337. -/
abbrev A.FIO_STAT : Nat := 0xE0004
abbrev F.FIO_STAT_LPOK : Fld := ⟨A.FIO_STAT, 31, 31⟩
abbrev F.FIO_STAT_QCOUNT : Fld := ⟨A.FIO_STAT, 6, 0⟩
/-- FIO_EVT, spec/11_field_io.md R337. -/
abbrev A.FIO_EVT : Nat := 0xE0008
abbrev F.FIO_EVT_LPUP : Fld := ⟨A.FIO_EVT, 3, 3⟩
abbrev F.FIO_EVT_LPLOW : Fld := ⟨A.FIO_EVT, 2, 2⟩
abbrev F.FIO_EVT_ARB : Fld := ⟨A.FIO_EVT, 1, 1⟩
abbrev F.FIO_EVT_QOVF : Fld := ⟨A.FIO_EVT, 0, 0⟩
/-- FIO_DOCMD, spec/11_field_io.md R337. -/
abbrev A.FIO_DOCMD : Nat := 0xE000C
abbrev F.FIO_DOCMD_DO : Fld := ⟨A.FIO_DOCMD, 3, 0⟩
/-- FIO_DOSTAT, spec/11_field_io.md R337. -/
abbrev A.FIO_DOSTAT : Nat := 0xE0010
abbrev F.FIO_DOSTAT_RB : Fld := ⟨A.FIO_DOSTAT, 11, 8⟩
abbrev F.FIO_DOSTAT_DRIVEN : Fld := ⟨A.FIO_DOSTAT, 7, 4⟩
abbrev F.FIO_DOSTAT_TP : Fld := ⟨A.FIO_DOSTAT, 3, 0⟩
/-- FIO_DODIAG, spec/11_field_io.md R337. -/
abbrev A.FIO_DODIAG : Nat := 0xE0014
abbrev F.FIO_DODIAG_DIAG3 : Fld := ⟨A.FIO_DODIAG, 29, 24⟩
abbrev F.FIO_DODIAG_DIAG2 : Fld := ⟨A.FIO_DODIAG, 21, 16⟩
abbrev F.FIO_DODIAG_DIAG1 : Fld := ⟨A.FIO_DODIAG, 13, 8⟩
abbrev F.FIO_DODIAG_DIAG0 : Fld := ⟨A.FIO_DODIAG, 5, 0⟩
/-- FIO_DICFG, spec/11_field_io.md R337. -/
abbrev A.FIO_DICFG (i : Nat) : Nat := 0xE0020 + 0x4 * i
abbrev F.FIO_DICFG_EDGE (i : Nat) : Fld := ⟨(A.FIO_DICFG i), 31, 30⟩
abbrev F.FIO_DICFG_FILT (i : Nat) : Fld := ⟨(A.FIO_DICFG i), 15, 0⟩
/-- FIO_DOCFG, spec/11_field_io.md R337. -/
abbrev A.FIO_DOCFG (i : Nat) : Nat := 0xE0040 + 0x4 * i
abbrev F.FIO_DOCFG_TP_EN (i : Nat) : Fld := ⟨(A.FIO_DOCFG i), 31, 31⟩
abbrev F.FIO_DOCFG_RETRY (i : Nat) : Fld := ⟨(A.FIO_DOCFG i), 30, 30⟩
abbrev F.FIO_DOCFG_TP_W (i : Nat) : Fld := ⟨(A.FIO_DOCFG i), 24, 16⟩
abbrev F.FIO_DOCFG_TP_INT (i : Nat) : Fld := ⟨(A.FIO_DOCFG i), 15, 8⟩
abbrev F.FIO_DOCFG_RB_MASK (i : Nat) : Fld := ⟨(A.FIO_DOCFG i), 7, 0⟩
/-- FIO_DICNT, spec/11_field_io.md R338. -/
abbrev A.FIO_DICNT (i : Nat) : Nat := 0xE0060 + 0x4 * i
/-- FIO_TPPASS, spec/11_field_io.md R338. -/
abbrev A.FIO_TPPASS (i : Nat) : Nat := 0xE0080 + 0x4 * i
/-- FIO_QENT0, spec/11_field_io.md R338. -/
abbrev A.FIO_QENT0 : Nat := 0xE00A0
/-- FIO_QENT1, spec/11_field_io.md R338. -/
abbrev A.FIO_QENT1 : Nat := 0xE00A4
/-- FIO_QENT2, spec/11_field_io.md R338. -/
abbrev A.FIO_QENT2 : Nat := 0xE00A8
/-- FIO_QENT3, spec/11_field_io.md R338. -/
abbrev A.FIO_QENT3 : Nat := 0xE00AC
/-- FIO_QPOP, spec/11_field_io.md R338. -/
abbrev A.FIO_QPOP : Nat := 0xE00B0
/-- SPB_CFG, spec/12_safe_pulse_block.md R364. -/
abbrev A.SPB_CFG : Nat := 0xF0000
abbrev F.SPB_CFG_SP1_EN : Fld := ⟨A.SPB_CFG, 31, 31⟩
abbrev F.SPB_CFG_SP2_EN : Fld := ⟨A.SPB_CFG, 30, 30⟩
abbrev F.SPB_CFG_NET_EN : Fld := ⟨A.SPB_CFG, 29, 29⟩
abbrev F.SPB_CFG_CMPMODE : Fld := ⟨A.SPB_CFG, 28, 28⟩
abbrev F.SPB_CFG_RESTART : Fld := ⟨A.SPB_CFG, 27, 27⟩
abbrev F.SPB_CFG_AGE_EN : Fld := ⟨A.SPB_CFG, 26, 26⟩
abbrev F.SPB_CFG_TX_EN : Fld := ⟨A.SPB_CFG, 25, 25⟩
/-- SPB_STAT, spec/12_safe_pulse_block.md R364. -/
abbrev A.SPB_STAT : Nat := 0xF0004
abbrev F.SPB_STAT_STATE : Fld := ⟨A.SPB_STAT, 31, 30⟩
abbrev F.SPB_STAT_REDUCED : Fld := ⟨A.SPB_STAT, 29, 29⟩
abbrev F.SPB_STAT_TEST_DUE : Fld := ⟨A.SPB_STAT, 28, 28⟩
abbrev F.SPB_STAT_GEN_RB : Fld := ⟨A.SPB_STAT, 27, 26⟩
abbrev F.SPB_STAT_NETUP : Fld := ⟨A.SPB_STAT, 25, 24⟩
abbrev F.SPB_STAT_INP : Fld := ⟨A.SPB_STAT, 15, 12⟩
abbrev F.SPB_STAT_SRC : Fld := ⟨A.SPB_STAT, 8, 0⟩
/-- SPB_FAULT, spec/12_safe_pulse_block.md R364. -/
abbrev A.SPB_FAULT : Nat := 0xF0008
abbrev F.SPB_FAULT_ENTEST : Fld := ⟨A.SPB_FAULT, 5, 5⟩
abbrev F.SPB_FAULT_GENRB : Fld := ⟨A.SPB_FAULT, 4, 4⟩
abbrev F.SPB_FAULT_CFGCRC : Fld := ⟨A.SPB_FAULT, 3, 3⟩
abbrev F.SPB_FAULT_LANE : Fld := ⟨A.SPB_FAULT, 2, 2⟩
abbrev F.SPB_FAULT_HB : Fld := ⟨A.SPB_FAULT, 1, 1⟩
abbrev F.SPB_FAULT_ECC : Fld := ⟨A.SPB_FAULT, 0, 0⟩
/-- SPB_EVT, spec/12_safe_pulse_block.md R364. -/
abbrev A.SPB_EVT : Nat := 0xF000C
abbrev F.SPB_EVT_PWFAIL : Fld := ⟨A.SPB_EVT, 7, 7⟩
abbrev F.SPB_EVT_ACK_REF : Fld := ⟨A.SPB_EVT, 6, 6⟩
abbrev F.SPB_EVT_REDUCED : Fld := ⟨A.SPB_EVT, 5, 5⟩
abbrev F.SPB_EVT_MISMATCH : Fld := ⟨A.SPB_EVT, 4, 4⟩
abbrev F.SPB_EVT_MISSING : Fld := ⟨A.SPB_EVT, 3, 3⟩
abbrev F.SPB_EVT_WDOG : Fld := ⟨A.SPB_EVT, 2, 2⟩
abbrev F.SPB_EVT_DISC2 : Fld := ⟨A.SPB_EVT, 1, 1⟩
abbrev F.SPB_EVT_DISC1 : Fld := ⟨A.SPB_EVT, 0, 0⟩
/-- SPB_CRC, spec/12_safe_pulse_block.md R365. -/
abbrev A.SPB_CRC : Nat := 0xF0010
/-- SPB_CRC_OK, spec/12_safe_pulse_block.md R365. -/
abbrev A.SPB_CRC_OK : Nat := 0xF0014
/-- SPB_FILT, spec/12_safe_pulse_block.md R365. -/
abbrev A.SPB_FILT : Nat := 0xF0020
/-- SPB_DISC, spec/12_safe_pulse_block.md R365. -/
abbrev A.SPB_DISC : Nat := 0xF0024
/-- SPB_WD, spec/12_safe_pulse_block.md R365. -/
abbrev A.SPB_WD : Nat := 0xF0028
/-- SPB_CMPWIN, spec/12_safe_pulse_block.md R365. -/
abbrev A.SPB_CMPWIN : Nat := 0xF002C
/-- SPB_NETDOWN, spec/12_safe_pulse_block.md R365. -/
abbrev A.SPB_NETDOWN : Nat := 0xF0030
/-- SPB_AGE, spec/12_safe_pulse_block.md R365. -/
abbrev A.SPB_AGE : Nat := 0xF0034
/-- SPB_TXPER, spec/12_safe_pulse_block.md R365. -/
abbrev A.SPB_TXPER : Nat := 0xF0038
/-- SPB_CONN, spec/12_safe_pulse_block.md R365. -/
abbrev A.SPB_CONN : Nat := 0xF003C
/-- SPB_PEERIP, spec/12_safe_pulse_block.md R365. -/
abbrev A.SPB_PEERIP : Nat := 0xF0040
/-- SPB_TESTINT, spec/12_safe_pulse_block.md R365. -/
abbrev A.SPB_TESTINT : Nat := 0xF0044
/-- SPB_RXDATA, spec/12_safe_pulse_block.md R365. -/
abbrev A.SPB_RXDATA (i : Nat) : Nat := 0xF0050 + 0x4 * i
/-- SPB_ACCEPTED, spec/12_safe_pulse_block.md R365. -/
abbrev A.SPB_ACCEPTED : Nat := 0xF0060
/-- SPB_DISCARD, spec/12_safe_pulse_block.md R365. -/
abbrev A.SPB_DISCARD : Nat := 0xF0064
/-- SPB_MISS, spec/12_safe_pulse_block.md R365. -/
abbrev A.SPB_MISS : Nat := 0xF0068
/-- SPB_SINGLE, spec/12_safe_pulse_block.md R365. -/
abbrev A.SPB_SINGLE : Nat := 0xF006C
/-- SPB_LASTSEQ, spec/12_safe_pulse_block.md R365. -/
abbrev A.SPB_LASTSEQ : Nat := 0xF0070
/-- SPB_TESTAGE, spec/12_safe_pulse_block.md R365. -/
abbrev A.SPB_TESTAGE : Nat := 0xF0074
/-- SPB_LOGCNT, spec/12_safe_pulse_block.md R365. -/
abbrev A.SPB_LOGCNT : Nat := 0xF0078
/-- CLK_CFG, spec/13_clocks_time.md R391. -/
abbrev A.CLK_CFG : Nat := 0x10000
abbrev F.CLK_CFG_SEARCH : Fld := ⟨A.CLK_CFG, 31, 31⟩
abbrev F.CLK_CFG_NINT : Fld := ⟨A.CLK_CFG, 24, 16⟩
/-- CLK_FRAC, spec/13_clocks_time.md R391. -/
abbrev A.CLK_FRAC : Nat := 0x10004
abbrev F.CLK_FRAC_FRAC : Fld := ⟨A.CLK_FRAC, 23, 0⟩
/-- CLK_STAT, spec/13_clocks_time.md R391. -/
abbrev A.CLK_STAT : Nat := 0x10008
abbrev F.CLK_STAT_LOCK : Fld := ⟨A.CLK_STAT, 31, 31⟩
abbrev F.CLK_STAT_SRC : Fld := ⟨A.CLK_STAT, 30, 30⟩
abbrev F.CLK_STAT_REFOK : Fld := ⟨A.CLK_STAT, 29, 29⟩
abbrev F.CLK_STAT_BANDOK : Fld := ⟨A.CLK_STAT, 28, 28⟩
abbrev F.CLK_STAT_STATE : Fld := ⟨A.CLK_STAT, 27, 24⟩
abbrev F.CLK_STAT_TRIES : Fld := ⟨A.CLK_STAT, 23, 20⟩
abbrev F.CLK_STAT_BAND : Fld := ⟨A.CLK_STAT, 13, 8⟩
/-- CLK_EVT, spec/13_clocks_time.md R391. -/
abbrev A.CLK_EVT : Nat := 0x1000C
abbrev F.CLK_EVT_SEARCHED : Fld := ⟨A.CLK_EVT, 3, 3⟩
abbrev F.CLK_EVT_RELOCK : Fld := ⟨A.CLK_EVT, 2, 2⟩
abbrev F.CLK_EVT_REFLOSS : Fld := ⟨A.CLK_EVT, 1, 1⟩
abbrev F.CLK_EVT_UNLOCK : Fld := ⟨A.CLK_EVT, 0, 0⟩
/-- TIM_CFG, spec/13_clocks_time.md R391. -/
abbrev A.TIM_CFG : Nat := 0x20000
abbrev F.TIM_CFG_STEP_EN : Fld := ⟨A.TIM_CFG, 31, 31⟩
abbrev F.TIM_CFG_REVERT : Fld := ⟨A.TIM_CFG, 30, 30⟩
abbrev F.TIM_CFG_SLEW : Fld := ⟨A.TIM_CFG, 23, 16⟩
/-- TIM_STAT, spec/13_clocks_time.md R391. -/
abbrev A.TIM_STAT : Nat := 0x20004
abbrev F.TIM_STAT_QUAL : Fld := ⟨A.TIM_STAT, 31, 30⟩
abbrev F.TIM_STAT_ACT : Fld := ⟨A.TIM_STAT, 29, 28⟩
abbrev F.TIM_STAT_SLEW : Fld := ⟨A.TIM_STAT, 27, 27⟩
abbrev F.TIM_STAT_HALLOK : Fld := ⟨A.TIM_STAT, 26, 26⟩
abbrev F.TIM_STAT_DOM1 : Fld := ⟨A.TIM_STAT, 25, 23⟩
abbrev F.TIM_STAT_DOM0 : Fld := ⟨A.TIM_STAT, 22, 20⟩
abbrev F.TIM_STAT_PORT1 : Fld := ⟨A.TIM_STAT, 19, 18⟩
abbrev F.TIM_STAT_PORT0 : Fld := ⟨A.TIM_STAT, 17, 16⟩
/-- TIM_EVT, spec/13_clocks_time.md R391. -/
abbrev A.TIM_EVT : Nat := 0x20008
abbrev F.TIM_EVT_PPS_IN : Fld := ⟨A.TIM_EVT, 8, 8⟩
abbrev F.TIM_EVT_HALL_LOST : Fld := ⟨A.TIM_EVT, 7, 7⟩
abbrev F.TIM_EVT_QUAL_DOWN : Fld := ⟨A.TIM_EVT, 6, 6⟩
abbrev F.TIM_EVT_STEP : Fld := ⟨A.TIM_EVT, 5, 5⟩
abbrev F.TIM_EVT_GMCHG1 : Fld := ⟨A.TIM_EVT, 4, 4⟩
abbrev F.TIM_EVT_GMCHG0 : Fld := ⟨A.TIM_EVT, 3, 3⟩
abbrev F.TIM_EVT_DOM1_LOST : Fld := ⟨A.TIM_EVT, 2, 2⟩
abbrev F.TIM_EVT_DOM0_LOST : Fld := ⟨A.TIM_EVT, 1, 1⟩
abbrev F.TIM_EVT_SWITCH : Fld := ⟨A.TIM_EVT, 0, 0⟩
/-- TIM_PPSCFG, spec/13_clocks_time.md R391. -/
abbrev A.TIM_PPSCFG : Nat := 0x2000C
abbrev F.TIM_PPSCFG_DIR : Fld := ⟨A.TIM_PPSCFG, 31, 31⟩
abbrev F.TIM_PPSCFG_QMIN : Fld := ⟨A.TIM_PPSCFG, 29, 28⟩
abbrev F.TIM_PPSCFG_WIDTH : Fld := ⟨A.TIM_PPSCFG, 15, 0⟩
/-- TIM_DOMCFG, spec/13_clocks_time.md R391. -/
abbrev A.TIM_DOMCFG (i : Nat) : Nat := 0x20010 + 0x4 * i
abbrev F.TIM_DOMCFG_EN (i : Nat) : Fld := ⟨(A.TIM_DOMCFG i), 31, 31⟩
abbrev F.TIM_DOMCFG_DOMAIN (i : Nat) : Fld := ⟨(A.TIM_DOMCFG i), 15, 8⟩
abbrev F.TIM_DOMCFG_CLASSMAX (i : Nat) : Fld := ⟨(A.TIM_DOMCFG i), 7, 0⟩
/-- CLK_LOCKUS, spec/13_clocks_time.md R392. -/
abbrev A.CLK_LOCKUS : Nat := 0x10010
/-- CLK_LOSSES, spec/13_clocks_time.md R392. -/
abbrev A.CLK_LOSSES : Nat := 0x10014
/-- CLK_BKFREQ, spec/13_clocks_time.md R392. -/
abbrev A.CLK_BKFREQ : Nat := 0x10018
/-- CLK_FREF, spec/13_clocks_time.md R392. -/
abbrev A.CLK_FREF : Nat := 0x1001C
/-- TIM_NOW_FR, spec/13_clocks_time.md R392. -/
abbrev A.TIM_NOW_FR : Nat := 0x20020
/-- TIM_NOW_NS, spec/13_clocks_time.md R392. -/
abbrev A.TIM_NOW_NS : Nat := 0x20024
/-- TIM_NOW_SL, spec/13_clocks_time.md R392. -/
abbrev A.TIM_NOW_SL : Nat := 0x20028
/-- TIM_NOW_SH, spec/13_clocks_time.md R392. -/
abbrev A.TIM_NOW_SH : Nat := 0x2002C
/-- TIM_GOODTHR, spec/13_clocks_time.md R392. -/
abbrev A.TIM_GOODTHR : Nat := 0x20030
/-- TIM_HOLDTMO, spec/13_clocks_time.md R392. -/
abbrev A.TIM_HOLDTMO : Nat := 0x20034
/-- TIM_REVERTT, spec/13_clocks_time.md R392. -/
abbrev A.TIM_REVERTT : Nat := 0x20038
/-- TIM_SRVBW, spec/13_clocks_time.md R392. -/
abbrev A.TIM_SRVBW : Nat := 0x2003C
/-- TIM_STEPTHR, spec/13_clocks_time.md R392. -/
abbrev A.TIM_STEPTHR : Nat := 0x20040
/-- TIM_OFS, spec/13_clocks_time.md R392. -/
abbrev A.TIM_OFS (i : Nat) : Nat := 0x20050 + 0x4 * i
/-- TIM_RATE, spec/13_clocks_time.md R392. -/
abbrev A.TIM_RATE (i : Nat) : Nat := 0x20058 + 0x4 * i
/-- TIM_CORR, spec/13_clocks_time.md R392. -/
abbrev A.TIM_CORR : Nat := 0x20060
/-- TIM_PDLY, spec/13_clocks_time.md R392. -/
abbrev A.TIM_PDLY (i : Nat) : Nat := 0x20064 + 0x4 * i
/-- TIM_GM0H, spec/13_clocks_time.md R392. -/
abbrev A.TIM_GM0H : Nat := 0x20070
/-- TIM_GM0L, spec/13_clocks_time.md R392. -/
abbrev A.TIM_GM0L : Nat := 0x20074
/-- TIM_GM1H, spec/13_clocks_time.md R392. -/
abbrev A.TIM_GM1H : Nat := 0x20078
/-- TIM_GM1L, spec/13_clocks_time.md R392. -/
abbrev A.TIM_GM1L : Nat := 0x2007C
/-- TIM_SWITCHES, spec/13_clocks_time.md R392. -/
abbrev A.TIM_SWITCHES : Nat := 0x20080
/-- TIM_PPS_FR, spec/13_clocks_time.md R392. -/
abbrev A.TIM_PPS_FR : Nat := 0x20090
/-- TIM_PPS_NS, spec/13_clocks_time.md R392. -/
abbrev A.TIM_PPS_NS : Nat := 0x20094
/-- TIM_PPS_SL, spec/13_clocks_time.md R392. -/
abbrev A.TIM_PPS_SL : Nat := 0x20098
/-- TIM_PPS_SH, spec/13_clocks_time.md R392. -/
abbrev A.TIM_PPS_SH : Nat := 0x2009C
/-- TIM_PPS_ERR, spec/13_clocks_time.md R392. -/
abbrev A.TIM_PPS_ERR : Nat := 0x200A0
/-- HAL_ID, spec/14_hall_protocol.md R417. -/
abbrev A.HAL_ID : Nat := 0x0
abbrev F.HAL_ID_PART : Fld := ⟨A.HAL_ID, 31, 16⟩
abbrev F.HAL_ID_POLDERS : Fld := ⟨A.HAL_ID, 11, 8⟩
abbrev F.HAL_ID_PROTO : Fld := ⟨A.HAL_ID, 7, 0⟩
/-- HAL_CFG, spec/14_hall_protocol.md R417. -/
abbrev A.HAL_CFG : Nat := 0x20
abbrev F.HAL_CFG_LISTEN_EN : Fld := ⟨A.HAL_CFG, 31, 31⟩
abbrev F.HAL_CFG_SPI_ROLE : Fld := ⟨A.HAL_CFG, 30, 29⟩
abbrev F.HAL_CFG_SPI_TOK : Fld := ⟨A.HAL_CFG, 28, 24⟩
abbrev F.HAL_CFG_PCP_PTP : Fld := ⟨A.HAL_CFG, 23, 21⟩
abbrev F.HAL_CFG_PCP_STOMET : Fld := ⟨A.HAL_CFG, 20, 18⟩
abbrev F.HAL_CFG_PCP_SV : Fld := ⟨A.HAL_CFG, 17, 15⟩
abbrev F.HAL_CFG_PCP_CMD : Fld := ⟨A.HAL_CFG, 14, 12⟩
/-- HAL_STAT, spec/14_hall_protocol.md R417. -/
abbrev A.HAL_STAT : Nat := 0x24
abbrev F.HAL_STAT_LINKA : Fld := ⟨A.HAL_STAT, 31, 31⟩
abbrev F.HAL_STAT_LINKB : Fld := ⟨A.HAL_STAT, 30, 30⟩
abbrev F.HAL_STAT_LISTEN : Fld := ⟨A.HAL_STAT, 29, 29⟩
abbrev F.HAL_STAT_STAGED : Fld := ⟨A.HAL_STAT, 28, 28⟩
abbrev F.HAL_STAT_NOKEY : Fld := ⟨A.HAL_STAT, 27, 27⟩
abbrev F.HAL_STAT_SESS : Fld := ⟨A.HAL_STAT, 23, 16⟩
/-- HAL_TOKEN, spec/14_hall_protocol.md R417. -/
abbrev A.HAL_TOKEN : Nat := 0x28
abbrev F.HAL_TOKEN_DEV : Fld := ⟨A.HAL_TOKEN, 19, 16⟩
abbrev F.HAL_TOKEN_D : Fld := ⟨A.HAL_TOKEN, 15, 12⟩
abbrev F.HAL_TOKEN_C : Fld := ⟨A.HAL_TOKEN, 11, 8⟩
abbrev F.HAL_TOKEN_B : Fld := ⟨A.HAL_TOKEN, 7, 4⟩
abbrev F.HAL_TOKEN_A : Fld := ⟨A.HAL_TOKEN, 3, 0⟩
/-- HAL_EVT, spec/14_hall_protocol.md R417. -/
abbrev A.HAL_EVT : Nat := 0x2C
abbrev F.HAL_EVT_SPI_OVF : Fld := ⟨A.HAL_EVT, 8, 8⟩
abbrev F.HAL_EVT_NOTIFY_LOST : Fld := ⟨A.HAL_EVT, 7, 7⟩
abbrev F.HAL_EVT_SVLOST : Fld := ⟨A.HAL_EVT, 6, 6⟩
abbrev F.HAL_EVT_LATE : Fld := ⟨A.HAL_EVT, 5, 5⟩
abbrev F.HAL_EVT_AUTH_FAIL : Fld := ⟨A.HAL_EVT, 4, 4⟩
abbrev F.HAL_EVT_TOKEN_FORCED : Fld := ⟨A.HAL_EVT, 3, 3⟩
abbrev F.HAL_EVT_TOKEN_LAPSE : Fld := ⟨A.HAL_EVT, 2, 2⟩
abbrev F.HAL_EVT_LINKB_DOWN : Fld := ⟨A.HAL_EVT, 1, 1⟩
abbrev F.HAL_EVT_LINKA_DOWN : Fld := ⟨A.HAL_EVT, 0, 0⟩
/-- HAL_APPLY, spec/14_hall_protocol.md R417. -/
abbrev A.HAL_APPLY : Nat := 0x30
abbrev F.HAL_APPLY_CNTCLR : Fld := ⟨A.HAL_APPLY, 2, 2⟩
abbrev F.HAL_APPLY_DISCARD : Fld := ⟨A.HAL_APPLY, 1, 1⟩
abbrev F.HAL_APPLY_GO : Fld := ⟨A.HAL_APPLY, 0, 0⟩
/-- HAL_SVCFG, spec/14_hall_protocol.md R417. -/
abbrev A.HAL_SVCFG (i : Nat) : Nat := 0x60 + 0x4 * i
abbrev F.HAL_SVCFG_APPID (i : Nat) : Fld := ⟨(A.HAL_SVCFG i), 31, 16⟩
abbrev F.HAL_SVCFG_MAC (i : Nat) : Fld := ⟨(A.HAL_SVCFG i), 8, 0⟩
/-- HAL_MACH, spec/14_hall_protocol.md R418. -/
abbrev A.HAL_MACH : Nat := 0x40
/-- HAL_MACL, spec/14_hall_protocol.md R418. -/
abbrev A.HAL_MACL : Nat := 0x44
/-- HAL_IPADDR, spec/14_hall_protocol.md R418. -/
abbrev A.HAL_IPADDR : Nat := 0x48
/-- HAL_NETMASK, spec/14_hall_protocol.md R418. -/
abbrev A.HAL_NETMASK : Nat := 0x4C
/-- HAL_GW, spec/14_hall_protocol.md R418. -/
abbrev A.HAL_GW : Nat := 0x50
/-- HAL_SESSTMO, spec/14_hall_protocol.md R418. -/
abbrev A.HAL_SESSTMO : Nat := 0x54
/-- HAL_CMDS, spec/14_hall_protocol.md R418. -/
abbrev A.HAL_CMDS : Nat := 0x80
/-- HAL_BADLEN, spec/14_hall_protocol.md R418. -/
abbrev A.HAL_BADLEN : Nat := 0x84
/-- HAL_BADCRC, spec/14_hall_protocol.md R418. -/
abbrev A.HAL_BADCRC : Nat := 0x88
/-- HAL_BADAUTH, spec/14_hall_protocol.md R418. -/
abbrev A.HAL_BADAUTH : Nat := 0x8C
/-- HAL_OLDSEQ, spec/14_hall_protocol.md R418. -/
abbrev A.HAL_OLDSEQ : Nat := 0x90
/-- HAL_PRPDUP, spec/14_hall_protocol.md R418. -/
abbrev A.HAL_PRPDUP : Nat := 0x94
/-- HAL_SVLOST, spec/14_hall_protocol.md R418. -/
abbrev A.HAL_SVLOST : Nat := 0x98
/-- HAL_NOTLOST, spec/14_hall_protocol.md R418. -/
abbrev A.HAL_NOTLOST : Nat := 0x9C
/-- HAL_SPIDROP, spec/14_hall_protocol.md R418. -/
abbrev A.HAL_SPIDROP : Nat := 0xA0
/-- HAL_LATE, spec/14_hall_protocol.md R418. -/
abbrev A.HAL_LATE : Nat := 0xA4
/-- PCT_ENG, spec/15_mailboxes_locks.md R438. -/
abbrev A.PCT_ENG : Nat := 0x40
abbrev F.PCT_ENG_CE_STATE : Fld := ⟨A.PCT_ENG, 31, 28⟩
abbrev F.PCT_ENG_SE_STATE : Fld := ⟨A.PCT_ENG, 27, 24⟩
abbrev F.PCT_ENG_CE_EPOCH : Fld := ⟨A.PCT_ENG, 23, 20⟩
abbrev F.PCT_ENG_SE_EPOCH : Fld := ⟨A.PCT_ENG, 19, 16⟩
/-- PCT_ENGEVT, spec/15_mailboxes_locks.md R438. -/
abbrev A.PCT_ENGEVT : Nat := 0x44
abbrev F.PCT_ENGEVT_SE_HALT : Fld := ⟨A.PCT_ENGEVT, 5, 5⟩
abbrev F.PCT_ENGEVT_CE_HALT : Fld := ⟨A.PCT_ENGEVT, 4, 4⟩
abbrev F.PCT_ENGEVT_SE_ECC : Fld := ⟨A.PCT_ENGEVT, 3, 3⟩
abbrev F.PCT_ENGEVT_CE_ECC : Fld := ⟨A.PCT_ENGEVT, 2, 2⟩
abbrev F.PCT_ENGEVT_SE_WDOG : Fld := ⟨A.PCT_ENGEVT, 1, 1⟩
abbrev F.PCT_ENGEVT_CE_WDOG : Fld := ⟨A.PCT_ENGEVT, 0, 0⟩
/-- MBX_DATA, spec/15_mailboxes_locks.md R438. -/
abbrev A.MBX_DATA (i : Nat) : Nat := 0x100000 + 0x20 * i
abbrev F.MBX_DATA_DATA (i : Nat) : Fld := ⟨(A.MBX_DATA i), 31, 0⟩
/-- MBX_TAG, spec/15_mailboxes_locks.md R438. -/
abbrev A.MBX_TAG (i : Nat) : Nat := 0x100004 + 0x20 * i
abbrev F.MBX_TAG_EPOCH (i : Nat) : Fld := ⟨(A.MBX_TAG i), 7, 4⟩
abbrev F.MBX_TAG_SENDER (i : Nat) : Fld := ⟨(A.MBX_TAG i), 3, 0⟩
/-- MBX_STAT, spec/15_mailboxes_locks.md R438. -/
abbrev A.MBX_STAT (i : Nat) : Nat := 0x100008 + 0x20 * i
abbrev F.MBX_STAT_STALE (i : Nat) : Fld := ⟨(A.MBX_STAT i), 31, 31⟩
abbrev F.MBX_STAT_STUCK (i : Nat) : Fld := ⟨(A.MBX_STAT i), 30, 30⟩
abbrev F.MBX_STAT_EMPTY (i : Nat) : Fld := ⟨(A.MBX_STAT i), 29, 29⟩
abbrev F.MBX_STAT_DISC (i : Nat) : Fld := ⟨(A.MBX_STAT i), 28, 28⟩
abbrev F.MBX_STAT_FULLWR (i : Nat) : Fld := ⟨(A.MBX_STAT i), 27, 27⟩
abbrev F.MBX_STAT_DCOUNT (i : Nat) : Fld := ⟨(A.MBX_STAT i), 23, 20⟩
abbrev F.MBX_STAT_COUNT (i : Nat) : Fld := ⟨(A.MBX_STAT i), 3, 0⟩
/-- MBX_LOCK, spec/15_mailboxes_locks.md R438. -/
abbrev A.MBX_LOCK (i : Nat) : Nat := 0x100100 + 0x4 * i
abbrev F.MBX_LOCK_HELD (i : Nat) : Fld := ⟨(A.MBX_LOCK i), 31, 31⟩
abbrev F.MBX_LOCK_OWN (i : Nat) : Fld := ⟨(A.MBX_LOCK i), 30, 30⟩
abbrev F.MBX_LOCK_OWNER (i : Nat) : Fld := ⟨(A.MBX_LOCK i), 3, 0⟩
/-- MBX_EVT, spec/15_mailboxes_locks.md R438. -/
abbrev A.MBX_EVT : Nat := 0x1000C4
abbrev F.MBX_EVT_LOCK_AUTOREL : Fld := ⟨A.MBX_EVT, 1, 1⟩
abbrev F.MBX_EVT_LOCK_BADREL : Fld := ⟨A.MBX_EVT, 0, 0⟩
/-- PCT_CE_RESETS, spec/15_mailboxes_locks.md R439. -/
abbrev A.PCT_CE_RESETS : Nat := 0x48
/-- PCT_SE_RESETS, spec/15_mailboxes_locks.md R439. -/
abbrev A.PCT_SE_RESETS : Nat := 0x4C
/-- PCT_CE_ECC1, spec/15_mailboxes_locks.md R439. -/
abbrev A.PCT_CE_ECC1 : Nat := 0x50
/-- PCT_SE_ECC1, spec/15_mailboxes_locks.md R439. -/
abbrev A.PCT_SE_ECC1 : Nat := 0x54
/-- MBX_EPOCH, spec/15_mailboxes_locks.md R439. -/
abbrev A.MBX_EPOCH : Nat := 0x1000C0
/-- MBX_LOCKOWN0, spec/15_mailboxes_locks.md R439. -/
abbrev A.MBX_LOCKOWN0 : Nat := 0x100140
/-- MBX_LOCKOWN1, spec/15_mailboxes_locks.md R439. -/
abbrev A.MBX_LOCKOWN1 : Nat := 0x100144
/-- MBX_LOCKBAD, spec/15_mailboxes_locks.md R439. -/
abbrev A.MBX_LOCKBAD : Nat := 0x100148
/-- PCT_BOOT, spec/16_startup_persistence.md R470. -/
abbrev A.PCT_BOOT : Nat := 0x60
abbrev F.PCT_BOOT_CAUSE : Fld := ⟨A.PCT_BOOT, 31, 28⟩
abbrev F.PCT_BOOT_SLOT : Fld := ⟨A.PCT_BOOT, 27, 27⟩
abbrev F.PCT_BOOT_TRIAL : Fld := ⟨A.PCT_BOOT, 26, 26⟩
abbrev F.PCT_BOOT_FALLBACK : Fld := ⟨A.PCT_BOOT, 25, 25⟩
abbrev F.PCT_BOOT_RESCUE : Fld := ⟨A.PCT_BOOT, 24, 24⟩
abbrev F.PCT_BOOT_FWSTATE : Fld := ⟨A.PCT_BOOT, 23, 22⟩
abbrev F.PCT_BOOT_REVOKED : Fld := ⟨A.PCT_BOOT, 19, 16⟩
abbrev F.PCT_BOOT_BOOTMS : Fld := ⟨A.PCT_BOOT, 15, 0⟩
/-- PCT_PERF, spec/16_startup_persistence.md R470. -/
abbrev A.PCT_PERF : Nat := 0x64
abbrev F.PCT_PERF_MODE : Fld := ⟨A.PCT_PERF, 1, 0⟩
/-- PCT_DKHREQ, spec/16_startup_persistence.md R470. -/
abbrev A.PCT_DKHREQ : Nat := 0x6C
abbrev F.PCT_DKHREQ_TRIP : Fld := ⟨A.PCT_DKHREQ, 2, 2⟩
abbrev F.PCT_DKHREQ_STOP : Fld := ⟨A.PCT_DKHREQ, 1, 1⟩
abbrev F.PCT_DKHREQ_MODE : Fld := ⟨A.PCT_DKHREQ, 0, 0⟩
/-- NVS_STAT, spec/16_startup_persistence.md R470. -/
abbrev A.NVS_STAT : Nat := 0x110000
abbrev F.NVS_STAT_BANK : Fld := ⟨A.NVS_STAT, 31, 31⟩
abbrev F.NVS_STAT_VALID1 : Fld := ⟨A.NVS_STAT, 30, 30⟩
abbrev F.NVS_STAT_VALID0 : Fld := ⟨A.NVS_STAT, 29, 29⟩
abbrev F.NVS_STAT_BUSY : Fld := ⟨A.NVS_STAT, 28, 28⟩
abbrev F.NVS_STAT_FAIL1 : Fld := ⟨A.NVS_STAT, 27, 27⟩
abbrev F.NVS_STAT_FAIL0 : Fld := ⟨A.NVS_STAT, 26, 26⟩
abbrev F.NVS_STAT_SECT : Fld := ⟨A.NVS_STAT, 15, 0⟩
/-- DKH_NVSTAT, spec/16_startup_persistence.md R470. -/
abbrev A.DKH_NVSTAT : Nat := 0xB0
abbrev F.DKH_NVSTAT_BANK : Fld := ⟨A.DKH_NVSTAT, 31, 31⟩
abbrev F.DKH_NVSTAT_VALID1 : Fld := ⟨A.DKH_NVSTAT, 30, 30⟩
abbrev F.DKH_NVSTAT_VALID0 : Fld := ⟨A.DKH_NVSTAT, 29, 29⟩
abbrev F.DKH_NVSTAT_BUSY : Fld := ⟨A.DKH_NVSTAT, 28, 28⟩
abbrev F.DKH_NVSTAT_FAIL1 : Fld := ⟨A.DKH_NVSTAT, 27, 27⟩
abbrev F.DKH_NVSTAT_FAIL0 : Fld := ⟨A.DKH_NVSTAT, 26, 26⟩
abbrev F.DKH_NVSTAT_SECT : Fld := ⟨A.DKH_NVSTAT, 15, 0⟩
/-- DKH_STAT, spec/16_startup_persistence.md R470. -/
abbrev A.DKH_STAT : Nat := 0x0
abbrev F.DKH_STAT_PATCH : Fld := ⟨A.DKH_STAT, 17, 17⟩
abbrev F.DKH_STAT_WAKEPIN : Fld := ⟨A.DKH_STAT, 16, 16⟩
abbrev F.DKH_STAT_GUARD : Fld := ⟨A.DKH_STAT, 15, 12⟩
abbrev F.DKH_STAT_HBLOST : Fld := ⟨A.DKH_STAT, 11, 8⟩
abbrev F.DKH_STAT_PSTATE : Fld := ⟨A.DKH_STAT, 7, 0⟩
/-- DKH_EVT, spec/16_startup_persistence.md R470. -/
abbrev A.DKH_EVT : Nat := 0x4
abbrev F.DKH_EVT_PATCH_REJ : Fld := ⟨A.DKH_EVT, 6, 6⟩
abbrev F.DKH_EVT_BOOTFAIL : Fld := ⟨A.DKH_EVT, 5, 5⟩
abbrev F.DKH_EVT_REFUSED : Fld := ⟨A.DKH_EVT, 4, 4⟩
abbrev F.DKH_EVT_GIVEUP : Fld := ⟨A.DKH_EVT, 3, 3⟩
abbrev F.DKH_EVT_RESTART : Fld := ⟨A.DKH_EVT, 2, 2⟩
abbrev F.DKH_EVT_HBLOST : Fld := ⟨A.DKH_EVT, 1, 1⟩
abbrev F.DKH_EVT_RULE : Fld := ⟨A.DKH_EVT, 0, 0⟩
/-- DKH_CMD, spec/16_startup_persistence.md R470. -/
abbrev A.DKH_CMD : Nat := 0x8
abbrev F.DKH_CMD_SAVE : Fld := ⟨A.DKH_CMD, 1, 1⟩
abbrev F.DKH_CMD_WAKECLR : Fld := ⟨A.DKH_CMD, 0, 0⟩
/-- DKH_WINCFG, spec/16_startup_persistence.md R470. -/
abbrev A.DKH_WINCFG (i : Nat) : Nat := 0x40 + 0x4 * i
abbrev F.DKH_WINCFG_EN (i : Nat) : Fld := ⟨(A.DKH_WINCFG i), 31, 31⟩
abbrev F.DKH_WINCFG_F (i : Nat) : Fld := ⟨(A.DKH_WINCFG i), 30, 27⟩
abbrev F.DKH_WINCFG_HYS (i : Nat) : Fld := ⟨(A.DKH_WINCFG i), 26, 24⟩
abbrev F.DKH_WINCFG_HI (i : Nat) : Fld := ⟨(A.DKH_WINCFG i), 23, 12⟩
abbrev F.DKH_WINCFG_LO (i : Nat) : Fld := ⟨(A.DKH_WINCFG i), 11, 0⟩
/-- DKH_WIN, spec/16_startup_persistence.md R470. -/
abbrev A.DKH_WIN (i : Nat) : Nat := 0x60 + 0x4 * i
abbrev F.DKH_WIN_STATE (i : Nat) : Fld := ⟨(A.DKH_WIN i), 31, 30⟩
abbrev F.DKH_WIN_RAW (i : Nat) : Fld := ⟨(A.DKH_WIN i), 27, 16⟩
abbrev F.DKH_WIN_FILT (i : Nat) : Fld := ⟨(A.DKH_WIN i), 11, 0⟩
/-- DKH_SUP, spec/16_startup_persistence.md R470. -/
abbrev A.DKH_SUP (i : Nat) : Nat := 0x80 + 0x4 * i
abbrev F.DKH_SUP_HB_EN (i : Nat) : Fld := ⟨(A.DKH_SUP i), 31, 31⟩
abbrev F.DKH_SUP_AUTOON (i : Nat) : Fld := ⟨(A.DKH_SUP i), 30, 30⟩
abbrev F.DKH_SUP_POLICY (i : Nat) : Fld := ⟨(A.DKH_SUP i), 29, 28⟩
abbrev F.DKH_SUP_STOPMODE (i : Nat) : Fld := ⟨(A.DKH_SUP i), 27, 27⟩
abbrev F.DKH_SUP_MAXRST (i : Nat) : Fld := ⟨(A.DKH_SUP i), 19, 16⟩
abbrev F.DKH_SUP_STOPTMO (i : Nat) : Fld := ⟨(A.DKH_SUP i), 15, 0⟩
/-- DKH_RULE_A, spec/16_startup_persistence.md R470. -/
abbrev A.DKH_RULE_A (i : Nat) : Nat := 0x100 + 0x8 * i
abbrev F.DKH_RULE_A_EN (i : Nat) : Fld := ⟨(A.DKH_RULE_A i), 31, 31⟩
abbrev F.DKH_RULE_A_SRC (i : Nat) : Fld := ⟨(A.DKH_RULE_A i), 30, 28⟩
abbrev F.DKH_RULE_A_IDX (i : Nat) : Fld := ⟨(A.DKH_RULE_A i), 27, 24⟩
abbrev F.DKH_RULE_A_MATCH (i : Nat) : Fld := ⟨(A.DKH_RULE_A i), 23, 21⟩
abbrev F.DKH_RULE_A_QUAL (i : Nat) : Fld := ⟨(A.DKH_RULE_A i), 15, 0⟩
/-- DKH_RULE_B, spec/16_startup_persistence.md R470. -/
abbrev A.DKH_RULE_B (i : Nat) : Nat := 0x104 + 0x8 * i
abbrev F.DKH_RULE_B_POLDERS (i : Nat) : Fld := ⟨(A.DKH_RULE_B i), 11, 8⟩
abbrev F.DKH_RULE_B_NOTIFY (i : Nat) : Fld := ⟨(A.DKH_RULE_B i), 5, 5⟩
abbrev F.DKH_RULE_B_WAKEPIN (i : Nat) : Fld := ⟨(A.DKH_RULE_B i), 4, 4⟩
abbrev F.DKH_RULE_B_ACTION (i : Nat) : Fld := ⟨(A.DKH_RULE_B i), 3, 0⟩
/-- PCT_HBEAT, spec/16_startup_persistence.md R471. -/
abbrev A.PCT_HBEAT : Nat := 0x68
/-- PCT_FWTMO, spec/16_startup_persistence.md R471. -/
abbrev A.PCT_FWTMO : Nat := 0x70
/-- PCT_MINRB, spec/16_startup_persistence.md R471. -/
abbrev A.PCT_MINRB : Nat := 0x74
/-- PCT_FWVER, spec/16_startup_persistence.md R471. -/
abbrev A.PCT_FWVER : Nat := 0x78
/-- NVS_SEQ, spec/16_startup_persistence.md R471. -/
abbrev A.NVS_SEQ (i : Nat) : Nat := 0x110004 + 0x4 * i
/-- NVS_WRITES, spec/16_startup_persistence.md R471. -/
abbrev A.NVS_WRITES : Nat := 0x11000C
/-- NVS_FAILS, spec/16_startup_persistence.md R471. -/
abbrev A.NVS_FAILS : Nat := 0x110010
/-- DKH_RSTCNT, spec/16_startup_persistence.md R471. -/
abbrev A.DKH_RSTCNT (i : Nat) : Nat := 0x90 + 0x4 * i
/-- DKH_RTC, spec/16_startup_persistence.md R471. -/
abbrev A.DKH_RTC : Nat := 0xA0
/-- DKH_ALARM, spec/16_startup_persistence.md R471. -/
abbrev A.DKH_ALARM : Nat := 0xA4
/-- DKH_NVSEQ, spec/16_startup_persistence.md R471. -/
abbrev A.DKH_NVSEQ (i : Nat) : Nat := 0xB4 + 0x4 * i
/-- PCT_LOGCFG, spec/17_recovery_monitor.md R487. -/
abbrev A.PCT_LOGCFG : Nat := 0x80
abbrev F.PCT_LOGCFG_BURST : Fld := ⟨A.PCT_LOGCFG, 15, 8⟩
abbrev F.PCT_LOGCFG_NVMIN : Fld := ⟨A.PCT_LOGCFG, 1, 0⟩
/-- PCT_MONCFG, spec/17_recovery_monitor.md R487. -/
abbrev A.PCT_MONCFG : Nat := 0x90
abbrev F.PCT_MONCFG_EN : Fld := ⟨A.PCT_MONCFG, 31, 31⟩
abbrev F.PCT_MONCFG_SLOT : Fld := ⟨A.PCT_MONCFG, 2, 0⟩
/-- PCT_MONSTAT, spec/17_recovery_monitor.md R487. -/
abbrev A.PCT_MONSTAT : Nat := 0x94
abbrev F.PCT_MONSTAT_ACTIVE : Fld := ⟨A.PCT_MONSTAT, 31, 31⟩
abbrev F.PCT_MONSTAT_LEVEL : Fld := ⟨A.PCT_MONSTAT, 29, 28⟩
abbrev F.PCT_MONSTAT_LOCKOUT : Fld := ⟨A.PCT_MONSTAT, 27, 27⟩
abbrev F.PCT_MONSTAT_FAILS : Fld := ⟨A.PCT_MONSTAT, 26, 24⟩
abbrev F.PCT_MONSTAT_BAUD : Fld := ⟨A.PCT_MONSTAT, 21, 0⟩
/-- PCT_LOGNEXT, spec/17_recovery_monitor.md R488. -/
abbrev A.PCT_LOGNEXT : Nat := 0x84
/-- PCT_LOGNVLOST, spec/17_recovery_monitor.md R488. -/
abbrev A.PCT_LOGNVLOST : Nat := 0x88
/-- DKH_LOGNEXT, spec/17_recovery_monitor.md R488. -/
abbrev A.DKH_LOGNEXT : Nat := 0xC0
/-- DIK_TRIPEN, spec/10_dike_gatelink.md R314. -/
abbrev A.DIK_TRIPEN : Nat := 0xC0008
abbrev F.DIK_TRIPEN_B13 : Fld := ⟨A.DIK_TRIPEN, 13, 13⟩
abbrev F.DIK_TRIPEN_B12 : Fld := ⟨A.DIK_TRIPEN, 12, 12⟩
abbrev F.DIK_TRIPEN_B11 : Fld := ⟨A.DIK_TRIPEN, 11, 8⟩
abbrev F.DIK_TRIPEN_B7 : Fld := ⟨A.DIK_TRIPEN, 7, 6⟩
abbrev F.DIK_TRIPEN_B5 : Fld := ⟨A.DIK_TRIPEN, 5, 0⟩
/-- DIK_CLR, spec/10_dike_gatelink.md R314. -/
abbrev A.DIK_CLR : Nat := 0xC000C
abbrev F.DIK_CLR_BITS : Fld := ⟨A.DIK_CLR, 13, 0⟩
/-- DIK_GENMASK, spec/10_dike_gatelink.md R314. -/
abbrev A.DIK_GENMASK : Nat := 0xC0010
abbrev F.DIK_GENMASK_BITS : Fld := ⟨A.DIK_GENMASK, 13, 0⟩
/-- DIK_TRIPOMASK, spec/10_dike_gatelink.md R314. -/
abbrev A.DIK_TRIPOMASK : Nat := 0xC0014
abbrev F.DIK_TRIPOMASK_BITS : Fld := ⟨A.DIK_TRIPOMASK, 13, 0⟩
/-- HAL_ACCERR, spec/01_polders_and_dies.md R42. -/
abbrev A.HAL_ACCERR : Nat := 0x10
abbrev F.HAL_ACCERR_VALID : Fld := ⟨A.HAL_ACCERR, 31, 31⟩
abbrev F.HAL_ACCERR_OVERRUN : Fld := ⟨A.HAL_ACCERR, 30, 30⟩
abbrev F.HAL_ACCERR_KIND : Fld := ⟨A.HAL_ACCERR, 29, 28⟩
abbrev F.HAL_ACCERR_SENDER : Fld := ⟨A.HAL_ACCERR, 27, 24⟩
abbrev F.HAL_ACCERR_OFFSET : Fld := ⟨A.HAL_ACCERR, 23, 2⟩
/-- DKH_ACCERR, spec/01_polders_and_dies.md R42. -/
abbrev A.DKH_ACCERR : Nat := 0x10
abbrev F.DKH_ACCERR_VALID : Fld := ⟨A.DKH_ACCERR, 31, 31⟩
abbrev F.DKH_ACCERR_OVERRUN : Fld := ⟨A.DKH_ACCERR, 30, 30⟩
abbrev F.DKH_ACCERR_KIND : Fld := ⟨A.DKH_ACCERR, 29, 28⟩
abbrev F.DKH_ACCERR_SENDER : Fld := ⟨A.DKH_ACCERR, 27, 24⟩
abbrev F.DKH_ACCERR_OFFSET : Fld := ⟨A.DKH_ACCERR, 23, 2⟩

end Sys2Proof.Machine
end

