-- ==== Sys2Proof/Machine/Bits.lean ====
section
/-!
DEFINITION. Bit fields, byte order, signed codes and exact rounding (R11 to R14): the arithmetic every meaning is written over.
-/
namespace Sys2Proof.Machine
open Sys2Proof

/-- Width of a field. -/
def Fld.width (f : Fld) : Nat := f.hi + 1 - f.lo

/-- A word whose bits `hi` to `lo` are 1. -/
def maskBits (hi lo : Nat) : Word := (BitVec.ofNat 32 (2 ^ (hi + 1 - lo) - 1)) <<< lo

/-- Bits `hi` to `lo` of a word. -/
def bitsOf (w : Word) (hi lo : Nat) : Nat := (w.toNat / 2 ^ lo) % 2 ^ (hi + 1 - lo)

/-- A word with its bits `hi` to `lo` replaced. -/
def withBits (w : Word) (hi lo : Nat) (v : Nat) : Word :=
  (w &&& ~~~ maskBits hi lo) ||| ((BitVec.ofNat 32 v <<< lo) &&& maskBits hi lo)

/-- A word whose bits under the mask are taken from `v`, the others from `w` (R275). -/
def merge (w mask v : Word) : Word := (w &&& ~~~ mask) ||| (v &&& mask)

/-- Bit n of a word. -/
def bitOf (w : Word) (n : Nat) : Bool := w.getLsbD n

/-- Two's complement reading of a code of `n` bits. -/
def signed (n : Nat) (v : Nat) : Int := if v % 2 ^ n < 2 ^ (n - 1) then ((v % 2 ^ n : Nat) : Int) else ((v % 2 ^ n : Nat) : Int) - (2 ^ n : Nat)

/-- Two's complement code of an integer in `n` bits. -/
def codeOf (n : Nat) (x : Int) : Nat := (x % ((2 ^ n : Nat) : Int)).toNat

/-- The word of a signed value. -/
def wordI (x : Int) : Word := BitVec.ofInt 32 x

/-- The word of an unsigned value. -/
def wordN (x : Nat) : Word := BitVec.ofNat 32 x

/-- `if` as a number. -/
def bn (b : Bool) : Nat := if b then 1 else 0

/-- A value confined to `lo` to `hi`. -/
def clampI (lo hi x : Int) : Int := if x < lo then lo else if hi < x then hi else x

/-- Absolute value as an integer. -/
def absI (x : Int) : Int := if x < 0 then -x else x

/-- Nearest integer to n/d, ties away from zero (R13). -/
def roundDiv (n : Int) (d : Nat) : Int :=
  if n < 0 then -(((-n) * 2 + d) / (2 * d : Nat)) else (n * 2 + d) / (2 * d : Nat)

/-- Nearest natural number to n/d, ties up. -/
def roundDivN (n d : Nat) : Nat := (2 * n + d) / (2 * d)

/-- A saturating counter of `n` bits advanced by `k`. -/
def satAdd (n v k : Nat) : Nat := min (v + k) (2 ^ n - 1)

/-- Largest r with r * r ≤ n, by bits from `2^k` down. -/
def isqrtAux (n : Nat) : Nat → Nat → Nat
  | 0, r => r
  | k + 1, r => if (r + 2 ^ k) * (r + 2 ^ k) ≤ n then isqrtAux n k (r + 2 ^ k) else isqrtAux n k r

/-- Whole part of the square root. -/
def isqrt (n : Nat) : Nat := isqrtAux n (Nat.log2 n / 2 + 2) 0

/-- Nearest natural number to √(n/d), ties up: the exact rounding of a value whose square is n/d. -/
def roundSqrt (n d : Nat) : Nat := (isqrt (4 * n / d) + 1) / 2

/-! ### Little-endian payload fields (R83, R400) -/

/-- Byte `i` of a payload, 0 beyond its end. -/
def byteAt (l : List Byte) (i : Nat) : Nat := (l.getD i 0).toNat

def u16At (l : List Byte) (i : Nat) : Nat := byteAt l i + 256 * byteAt l (i + 1)
def u32At (l : List Byte) (i : Nat) : Nat := u16At l i + 65536 * u16At l (i + 2)
def u48At (l : List Byte) (i : Nat) : Nat := u32At l i + 4294967296 * u16At l (i + 4)
def i16At (l : List Byte) (i : Nat) : Int := signed 16 (u16At l i)
def i32At (l : List Byte) (i : Nat) : Int := signed 32 (u32At l i)

/-- `n` bytes of a number, least significant first. -/
def leBytes : Nat → Nat → List Byte
  | 0, _ => []
  | n + 1, v => BitVec.ofNat 8 v :: leBytes n (v / 256)

/-- A field of `n` bytes, unsigned or signed. The spec states no bytes for a value outside the field's range: they are free
(DESIGN CHOICE, notes/assumptions/22.md). -/
def uField (n : Nat) (v : Int) : List Byte := leBytes n (if 0 ≤ v ∧ v < ((256 ^ n : Nat) : Int) then v.toNat else Config.fieldBeyond n v)
def iField (n : Nat) (v : Int) : List Byte :=
  leBytes n (if -((256 ^ n / 2 : Nat) : Int) ≤ v ∧ v < ((256 ^ n / 2 : Nat) : Int) then codeOf (8 * n) v else Config.fieldBeyond n v)

/-- The word of the signed register at offset `off`, free where the value does not fit (DESIGN CHOICE, notes/assumptions/22.md). -/
def wordFit (off : Nat) (x : Int) : Word := if -2147483648 ≤ x ∧ x ≤ 2147483647 then wordI x else Config.wordBeyond off x

/-- The four bytes of a word. -/
def wBytes (w : Word) : List Byte := leBytes 4 w.toNat

/-- `n` bytes of a number, most significant first. -/
def beBytes (n v : Nat) : List Byte := (leBytes n v).reverse

/-- A number from bytes, most significant first. -/
def beNat (l : List Byte) : Nat := l.foldl (fun a b => a * 256 + b.toNat) 0

/-- `n` zero bytes. -/
def zeros (n : Nat) : List Byte := List.replicate n 0

/-! ### Fixed-size tables -/

/-- Entry of a vector, or `d` outside it. -/
def vget {α : Type} {n : Nat} (v : Vector α n) (i : Nat) (d : α) : α := v[i]?.getD d

/-- A vector with one entry replaced. -/
def vset {α : Type} {n : Nat} (v : Vector α n) (i : Nat) (x : α) : Vector α n := v.setIfInBounds i x

/-- A vector with one entry changed. -/
def vmod {α : Type} {n : Nat} (v : Vector α n) (i : Nat) (f : α → α) : Vector α n :=
  match v[i]? with
  | some x => v.setIfInBounds i (f x)
  | none => v

/-! ### Device time -/

/-- Femtoseconds in a nanosecond, a microsecond, a millisecond and a second. -/
abbrev ns : Nat := 1000000
abbrev us : Nat := 1000000000
abbrev ms : Nat := 1000000000000
abbrev sec : Nat := 1000000000000000

/-- One CLK_P cycle, and one 78.125 ps bin (R46). -/
abbrev cyc : Nat := 2500000
abbrev bin : Nat := 78125

end Sys2Proof.Machine
end

