-- ==== Sys2Proof/Machine/RegTable.lean ====
section
/-!
DEFINITION. The register maps of spec/ as data: for each register of the three kinds of window its offset, how often and at
what spacing it repeats, its reset value, and for each field its bits, its access type (R37) and its stated range (R9). Bounds stated
in engineering units are held as the codes they round to (R13; DEDUCED, notes/assumptions/5.md).
-/

namespace Sys2Proof.Machine

/-- The access types of R37. -/
inductive Acc where
  | rw | ro | w1c | wo | rws | roh
  deriving DecidableEq, Repr

/-- The range a field's codes must lie in (R9). -/
inductive Rng where
  /-- every code of the field's width is allowed -/
  | any
  /-- unsigned codes from `lo` to `hi` -/
  | nat (lo hi : Nat)
  /-- two's complement codes of the field's width from `lo` to `hi` -/
  | int (lo hi : Int)
  /-- the listed codes -/
  | codes (l : List Nat)
  /-- unsigned codes from `lo` to `hi` that are multiples of `step` -/
  | mult (lo hi step : Nat)
  /-- codes whose bits all lie in the mask -/
  | mask (m : Nat)
  /-- each nibble below the bound -/
  | halves (n : Nat)
  /-- the two connection IDs of SPB_CONN: neither is 0xFFFF -/
  | conn
  /-- a contiguous IPv4 mask -/
  | ipmask
  deriving DecidableEq, Repr

/-- One field of a register map. -/
structure FieldRow where
  hi : Nat
  lo : Nat
  acc : Acc
  rng : Rng
  deriving DecidableEq, Repr

/-- One row of the register maps: `count` registers from offset `off`, `stride` bytes apart. `resets` gives the reset word of
each index; the last one serves every further index. -/
structure RegRow where
  off : Nat
  stride : Nat
  count : Nat
  resets : List Nat
  fields : List FieldRow
  deriving DecidableEq, Repr

/-- Register map rows of the PCT registers: PCT_ID, PCT_ACCERR, PCT_REGIME, PCT_REGREQ, PCT_REGCFG, PCT_REGEVT, PCT_REGT_NS, PCT_REGT_SL, PCT_REGT_SH, PCT_ENG, PCT_ENGEVT, PCT_CE_RESETS, PCT_SE_RESETS, PCT_CE_ECC1, PCT_SE_ECC1, PCT_BOOT, PCT_PERF, PCT_DKHREQ, PCT_HBEAT, PCT_FWTMO, PCT_MINRB, PCT_FWVER, PCT_LOGCFG, PCT_MONCFG. -/
def rowsPCT0 : List RegRow := [
  ⟨0x0, 0x0, 1, [0x0],
    [⟨31, 16, .ro, .any⟩, ⟨15, 12, .ro, .any⟩, ⟨11, 8, .ro, .any⟩, ⟨7, 4, .ro, .any⟩, ⟨3, 0, .ro, .any⟩]⟩,
  ⟨0x10, 0x0, 1, [0x0],
    [⟨31, 31, .w1c, .any⟩, ⟨30, 30, .w1c, .any⟩, ⟨29, 28, .roh, .any⟩, ⟨27, 24, .roh, .any⟩, ⟨23, 2, .roh, .any⟩]⟩,
  ⟨0x20, 0x0, 1, [0x20000000],
    [⟨31, 28, .roh, .any⟩, ⟨27, 24, .roh, .any⟩, ⟨23, 20, .roh, .any⟩, ⟨19, 19, .roh, .any⟩, ⟨18, 18, .roh, .any⟩, ⟨17, 17, .roh, .any⟩, ⟨16, 16, .roh, .any⟩, ⟨15, 12, .roh, .any⟩]⟩,
  ⟨0x24, 0x0, 1, [0x0],
    [⟨7, 4, .rws, .nat 0 3⟩, ⟨3, 0, .rws, .codes [2, 3, 5, 8]⟩]⟩,
  ⟨0x28, 0x0, 1, [0x2000C8],
    [⟨31, 31, .rws, .any⟩, ⟨30, 29, .rws, .any⟩, ⟨28, 28, .rws, .any⟩, ⟨27, 27, .rws, .any⟩, ⟨26, 25, .rws, .any⟩, ⟨24, 24, .rws, .any⟩, ⟨23, 22, .rws, .any⟩, ⟨21, 21, .rws, .any⟩, ⟨15, 0, .rws, .nat 10 2000⟩]⟩,
  ⟨0x2C, 0x0, 1, [0x0],
    [⟨15, 15, .w1c, .any⟩, ⟨14, 14, .w1c, .any⟩, ⟨13, 13, .w1c, .any⟩, ⟨12, 12, .w1c, .any⟩, ⟨11, 11, .w1c, .any⟩, ⟨10, 10, .w1c, .any⟩, ⟨9, 9, .w1c, .any⟩, ⟨8, 8, .w1c, .any⟩, ⟨7, 7, .w1c, .any⟩, ⟨6, 6, .w1c, .any⟩, ⟨5, 5, .w1c, .any⟩, ⟨4, 4, .w1c, .any⟩, ⟨3, 3, .w1c, .any⟩, ⟨2, 2, .w1c, .any⟩, ⟨1, 1, .w1c, .any⟩, ⟨0, 0, .w1c, .any⟩]⟩,
  ⟨0x30, 0x0, 1, [0x0],
    [⟨31, 0, .roh, .any⟩]⟩,
  ⟨0x34, 0x0, 1, [0x0],
    [⟨31, 0, .roh, .any⟩]⟩,
  ⟨0x38, 0x0, 1, [0x0],
    [⟨31, 0, .roh, .any⟩]⟩,
  ⟨0x40, 0x0, 1, [0x33000000],
    [⟨31, 28, .roh, .any⟩, ⟨27, 24, .roh, .any⟩, ⟨23, 20, .roh, .any⟩, ⟨19, 16, .roh, .any⟩]⟩,
  ⟨0x44, 0x0, 1, [0x0],
    [⟨5, 5, .w1c, .any⟩, ⟨4, 4, .w1c, .any⟩, ⟨3, 3, .w1c, .any⟩, ⟨2, 2, .w1c, .any⟩, ⟨1, 1, .w1c, .any⟩, ⟨0, 0, .w1c, .any⟩]⟩,
  ⟨0x48, 0x0, 1, [0x0],
    [⟨31, 0, .roh, .any⟩]⟩,
  ⟨0x4C, 0x0, 1, [0x0],
    [⟨31, 0, .roh, .any⟩]⟩,
  ⟨0x50, 0x0, 1, [0x0],
    [⟨31, 0, .roh, .any⟩]⟩,
  ⟨0x54, 0x0, 1, [0x0],
    [⟨31, 0, .roh, .any⟩]⟩,
  ⟨0x60, 0x0, 1, [0x0],
    [⟨31, 28, .roh, .any⟩, ⟨27, 27, .roh, .any⟩, ⟨26, 26, .roh, .any⟩, ⟨25, 25, .roh, .any⟩, ⟨24, 24, .roh, .any⟩, ⟨23, 22, .roh, .any⟩, ⟨19, 16, .roh, .any⟩, ⟨15, 0, .roh, .any⟩]⟩,
  ⟨0x64, 0x0, 1, [0x0],
    [⟨1, 0, .rws, .nat 0 2⟩]⟩,
  ⟨0x6C, 0x0, 1, [0x0],
    [⟨2, 2, .wo, .any⟩, ⟨1, 1, .wo, .any⟩, ⟨0, 0, .wo, .any⟩]⟩,
  ⟨0x68, 0x0, 1, [0x0],
    [⟨31, 0, .rw, .any⟩]⟩,
  ⟨0x70, 0x0, 1, [0x0],
    [⟨31, 0, .roh, .any⟩]⟩,
  ⟨0x74, 0x0, 1, [0x0],
    [⟨31, 0, .roh, .any⟩]⟩,
  ⟨0x78, 0x0, 1, [0x0],
    [⟨31, 0, .roh, .any⟩]⟩,
  ⟨0x80, 0x0, 1, [0x4001],
    [⟨15, 8, .rws, .nat 1 255⟩, ⟨1, 0, .rws, .any⟩]⟩,
  ⟨0x90, 0x0, 1, [0x80000000],
    [⟨31, 31, .rws, .any⟩, ⟨2, 0, .rws, .any⟩]⟩]

/-- Register map rows of the PCT registers: PCT_MONSTAT, PCT_LOGNEXT, PCT_LOGNVLOST. -/
def rowsPCT1 : List RegRow := [
  ⟨0x94, 0x0, 1, [0x0],
    [⟨31, 31, .roh, .any⟩, ⟨29, 28, .roh, .any⟩, ⟨27, 27, .roh, .any⟩, ⟨26, 24, .roh, .any⟩, ⟨21, 0, .roh, .any⟩]⟩,
  ⟨0x84, 0x0, 1, [0x0],
    [⟨31, 0, .roh, .any⟩]⟩,
  ⟨0x88, 0x0, 1, [0x0],
    [⟨31, 0, .roh, .any⟩]⟩]

/-- The PCT register map. -/
def rowsPCT : List RegRow := rowsPCT0 ++ rowsPCT1

/-- Register map rows of the SWG registers: SWG_CTRL, SWG_STAT, SWG_EVT, SWG_ANCHOR_CTRL, SWG_SBASE, SWG_VBASE, SWG_SCL_I, SWG_SCL_V, SWG_SCL_DC, SWG_BC, SWG_INERTIA, SWG_DAMP, SWG_FEBW, SWG_TPQ, SWG_MP, SWG_NQ, SWG_TV, SWG_RV, SWG_XV, SWG_GV, SWG_ILIM, SWG_KNEG, SWG_DFMAX, SWG_PREF. -/
def rowsSWG0 : List RegRow := [
  ⟨0x60000, 0x0, 1, [0xC],
    [⟨7, 6, .rws, .nat 0 2⟩, ⟨5, 5, .rws, .any⟩, ⟨4, 4, .rws, .any⟩, ⟨3, 3, .rws, .any⟩, ⟨2, 2, .rws, .any⟩, ⟨1, 1, .rws, .any⟩]⟩,
  ⟨0x60004, 0x0, 1, [0x0],
    [⟨31, 30, .roh, .any⟩, ⟨29, 28, .roh, .any⟩, ⟨6, 6, .roh, .any⟩, ⟨5, 5, .roh, .any⟩, ⟨4, 4, .roh, .any⟩, ⟨3, 3, .roh, .any⟩, ⟨2, 2, .roh, .any⟩, ⟨1, 1, .roh, .any⟩, ⟨0, 0, .roh, .any⟩]⟩,
  ⟨0x60008, 0x0, 1, [0x0],
    [⟨5, 5, .w1c, .any⟩, ⟨4, 4, .w1c, .any⟩, ⟨3, 3, .w1c, .any⟩, ⟨2, 2, .w1c, .any⟩, ⟨1, 1, .w1c, .any⟩, ⟨0, 0, .w1c, .any⟩]⟩,
  ⟨0x6000C, 0x0, 1, [0x3C0064],
    [⟨31, 16, .rws, .nat 1 600⟩, ⟨15, 0, .rws, .nat 10 1000⟩]⟩,
  ⟨0x60010, 0x0, 1, [0x1E8480],
    [⟨31, 0, .rws, .nat 100000 10000000⟩]⟩,
  ⟨0x60014, 0x0, 1, [0xA8750],
    [⟨31, 0, .rws, .nat 100000 7200000⟩]⟩,
  ⟨0x60018, 0x0, 1, [0x10000000],
    [⟨31, 0, .rws, .nat 26843546 2120640102⟩]⟩,
  ⟨0x6001C, 0x0, 1, [0x10000000],
    [⟨31, 0, .rws, .nat 26843546 2120640102⟩]⟩,
  ⟨0x60020, 0x0, 1, [0x10000000],
    [⟨31, 0, .rws, .nat 26843546 2120640102⟩]⟩,
  ⟨0x60024, 0x0, 1, [0x0],
    [⟨31, 0, .rws, .nat 0 80530637⟩]⟩,
  ⟨0x60030, 0x0, 1, [0x4000000],
    [⟨31, 0, .rws, .nat 838861 335544320⟩]⟩,
  ⟨0x60034, 0x0, 1, [0x14000000],
    [⟨31, 0, .rws, .nat 0 3355443200⟩]⟩,
  ⟨0x60038, 0x0, 1, [0x2710],
    [⟨31, 0, .rws, .nat 1000 50000⟩]⟩,
  ⟨0x6003C, 0x0, 1, [0x3E8],
    [⟨31, 0, .rws, .nat 50 50000⟩]⟩,
  ⟨0x60040, 0x0, 1, [0xA3D70A],
    [⟨31, 0, .rws, .nat 1342177 26843546⟩]⟩,
  ⟨0x60044, 0x0, 1, [0xCCCCCD],
    [⟨31, 0, .rws, .nat 1342177 53687091⟩]⟩,
  ⟨0x60048, 0x0, 1, [0x1388],
    [⟨31, 0, .rws, .nat 100 100000⟩]⟩,
  ⟨0x6004C, 0x0, 1, [0x51EB85],
    [⟨31, 0, .rws, .nat 0 268435456⟩]⟩,
  ⟨0x60050, 0x0, 1, [0x199999A],
    [⟨31, 0, .rws, .nat 0 268435456⟩]⟩,
  ⟨0x60054, 0x0, 1, [0x20000000],
    [⟨31, 0, .rws, .nat 0 1073741824⟩]⟩,
  ⟨0x60058, 0x0, 1, [0x1199999A],
    [⟨31, 0, .rws, .nat 268435456 402653184⟩]⟩,
  ⟨0x6005C, 0x0, 1, [0x2000000],
    [⟨31, 0, .rws, .nat 0 100663296⟩]⟩,
  ⟨0x60060, 0x0, 1, [0x199999A],
    [⟨31, 0, .rws, .nat 2684355 80530637⟩]⟩,
  ⟨0x60070, 0x0, 1, [0x0],
    [⟨31, 0, .rws, .int (-402653184) 402653184⟩]⟩]

/-- Register map rows of the SWG registers: SWG_QREF, SWG_VREF, SWG_FREF, SWG_ANCHOR_LIM, SWG_ANCHOR_OFS, SWG_P, SWG_Q, SWG_VMAG, SWG_FREQ, SWG_THETA, SWG_EMF, SWG_IMAG, SWG_V2, SWG_ANCHOR_ERR, SWG_ANCHOR_W, SWG_MTNS, SWG_DC_RDY, SWG_DC_BAL, SWG_PRE_TMO, SWG_DEAD_V, SWG_EN_RATE, SWG_EN_TMO, SWG_BO_BASE, SWG_BO_TRIES. -/
def rowsSWG1 : List RegRow := [
  ⟨0x60074, 0x0, 1, [0x0],
    [⟨31, 0, .rws, .int (-402653184) 402653184⟩]⟩,
  ⟨0x60078, 0x0, 1, [0x10000000],
    [⟨31, 0, .rws, .nat 0 348966093⟩]⟩,
  ⟨0x6007C, 0x0, 1, [0x10000000],
    [⟨31, 0, .rws, .nat 241591910 295279002⟩]⟩,
  ⟨0x60080, 0x0, 1, [0x83127],
    [⟨31, 0, .rws, .nat 26844 2684355⟩]⟩,
  ⟨0x60084, 0x0, 1, [0x0],
    [⟨31, 0, .rws, .any⟩]⟩,
  ⟨0x600A0, 0x0, 1, [0x0],
    [⟨31, 0, .roh, .any⟩]⟩,
  ⟨0x600A4, 0x0, 1, [0x0],
    [⟨31, 0, .roh, .any⟩]⟩,
  ⟨0x600A8, 0x0, 1, [0x0],
    [⟨31, 0, .roh, .any⟩]⟩,
  ⟨0x600AC, 0x0, 1, [0x10000000],
    [⟨31, 0, .roh, .any⟩]⟩,
  ⟨0x600B0, 0x0, 1, [0x0],
    [⟨31, 0, .roh, .any⟩]⟩,
  ⟨0x600B4, 0x0, 1, [0x0],
    [⟨31, 0, .roh, .any⟩]⟩,
  ⟨0x600B8, 0x0, 1, [0x0],
    [⟨31, 0, .roh, .any⟩]⟩,
  ⟨0x600BC, 0x0, 1, [0x0],
    [⟨31, 0, .roh, .any⟩]⟩,
  ⟨0x600C0, 0x0, 1, [0x0],
    [⟨31, 0, .roh, .any⟩]⟩,
  ⟨0x600C4, 0x0, 1, [0x0],
    [⟨31, 0, .roh, .any⟩]⟩,
  ⟨0x600C8, 0x0, 1, [0x0],
    [⟨31, 0, .roh, .any⟩]⟩,
  ⟨0x60100, 0x0, 1, [0x10000000],
    [⟨31, 0, .rws, .nat 134217728 402653184⟩]⟩,
  ⟨0x60104, 0x0, 1, [0xCCCCCD],
    [⟨31, 0, .rws, .nat 2684355 134217728⟩]⟩,
  ⟨0x60108, 0x0, 1, [0x7530],
    [⟨31, 0, .rws, .nat 100 600000⟩]⟩,
  ⟨0x6010C, 0x0, 1, [0x199999A],
    [⟨31, 0, .rws, .nat 5368709 134217728⟩]⟩,
  ⟨0x60110, 0x0, 1, [0x8000000],
    [⟨31, 0, .rws, .nat 5368709 1342177280⟩]⟩,
  ⟨0x60114, 0x0, 1, [0x2710],
    [⟨31, 0, .rws, .nat 1000 600000⟩]⟩,
  ⟨0x60118, 0x0, 1, [0x1F4],
    [⟨31, 0, .rws, .nat 10 10000⟩]⟩,
  ⟨0x6011C, 0x0, 1, [0x4],
    [⟨31, 0, .rws, .nat 1 8⟩]⟩]

/-- Register map rows of the SWG registers: SWG_SYNC_BW, SWG_SYNC_LIM, SWG_SYNC_DV, SWG_SYNC_DF, SWG_SYNC_DA, SWG_SYNC_DWELL, SWG_SYNC_TMO, SWG_BRK_TCLOSE, SWG_SYNC_VLO, SWG_SYNC_VHI, SWG_RIDE_LO, SWG_RIDE_HI, SWG_RIDE_HYS, SWG_RIDE_TDET, SWG_RIDE_TREC, SWG_SLIP_ANG, SWG_PJ_THR, SWG_ROCOF_MAX, SWG_ROCOF_WIN, SWG_DCG_LO, SWG_DCG_HI, SWG_DCG_K, SWG_STOP_RATE, SWG_STOP_TMO. -/
def rowsSWG2 : List RegRow := [
  ⟨0x60120, 0x0, 1, [0x1F4],
    [⟨31, 0, .rws, .nat 50 2000⟩]⟩,
  ⟨0x60124, 0x0, 1, [0x147AE1],
    [⟨31, 0, .rws, .nat 134218 5368709⟩]⟩,
  ⟨0x60128, 0x0, 1, [0x7AE148],
    [⟨31, 0, .rws, .nat 1342177 26843546⟩]⟩,
  ⟨0x6012C, 0x0, 1, [0x32],
    [⟨31, 0, .rws, .nat 10 500⟩]⟩,
  ⟨0x60130, 0x0, 1, [0x38E38E4],
    [⟨31, 0, .rws, .nat 5965232 238609294⟩]⟩,
  ⟨0x60134, 0x0, 1, [0x64],
    [⟨31, 0, .rws, .nat 10 2000⟩]⟩,
  ⟨0x60138, 0x0, 1, [0xEA60],
    [⟨31, 0, .rws, .nat 1000 600000⟩]⟩,
  ⟨0x6013C, 0x0, 1, [0x3C],
    [⟨31, 0, .rws, .nat 0 500⟩]⟩,
  ⟨0x60140, 0x0, 1, [0xD99999A],
    [⟨31, 0, .rws, .nat 134217728 268435456⟩]⟩,
  ⟨0x60144, 0x0, 1, [0x1199999A],
    [⟨31, 0, .rws, .nat 268435456 348966093⟩]⟩,
  ⟨0x60150, 0x0, 1, [0xD99999A],
    [⟨31, 0, .rws, .nat 134217728 255013683⟩]⟩,
  ⟨0x60154, 0x0, 1, [0x12666666],
    [⟨31, 0, .rws, .nat 281857229 375809638⟩]⟩,
  ⟨0x60158, 0x0, 1, [0x51EB85],
    [⟨31, 0, .rws, .nat 0 26843546⟩]⟩,
  ⟨0x6015C, 0x0, 1, [0x64],
    [⟨31, 0, .rws, .mult 10 10000 10⟩]⟩,
  ⟨0x60160, 0x0, 1, [0x14],
    [⟨31, 0, .rws, .nat 1 10000⟩]⟩,
  ⟨0x60168, 0x0, 1, [0x55555555],
    [⟨31, 0, .rws, .nat 715827883 2028179001⟩]⟩,
  ⟨0x6016C, 0x0, 1, [0x71C71C7],
    [⟨31, 0, .rws, .nat 23860929 715827883⟩]⟩,
  ⟨0x60170, 0x0, 1, [0xA3D70A],
    [⟨31, 0, .rws, .nat 268435 53687091⟩]⟩,
  ⟨0x60174, 0x0, 1, [0x64],
    [⟨31, 0, .rws, .nat 20 1000⟩]⟩,
  ⟨0x60178, 0x0, 1, [0x10000000],
    [⟨31, 0, .rws, .nat 134217728 402653184⟩]⟩,
  ⟨0x6017C, 0x0, 1, [0x14000000],
    [⟨31, 0, .rws, .nat 134217728 402653184⟩]⟩,
  ⟨0x60180, 0x0, 1, [0x20000000],
    [⟨31, 0, .rws, .nat 0 2120640102⟩]⟩,
  ⟨0x60184, 0x0, 1, [0x10000000],
    [⟨31, 0, .rws, .nat 2684355 1342177280⟩]⟩,
  ⟨0x60188, 0x0, 1, [0x1388],
    [⟨31, 0, .rws, .nat 100 60000⟩]⟩]

/-- Register map rows of the SWG registers: SWG_VDC, SWG_ROCOF, SWG_PJ_LAST, SWG_RIDE_T, SWG_U1, SWG_RIDE_CFG, SWG_UVENV, SWG_OVENV. -/
def rowsSWG3 : List RegRow := [
  ⟨0x601A0, 0x0, 1, [0x0],
    [⟨31, 0, .roh, .any⟩]⟩,
  ⟨0x601A4, 0x0, 1, [0x0],
    [⟨31, 0, .roh, .any⟩]⟩,
  ⟨0x601A8, 0x0, 1, [0x0],
    [⟨31, 0, .roh, .any⟩]⟩,
  ⟨0x601AC, 0x0, 1, [0x0],
    [⟨31, 0, .roh, .any⟩]⟩,
  ⟨0x601B0, 0x0, 1, [0x0],
    [⟨31, 0, .roh, .any⟩]⟩,
  ⟨0x60164, 0x0, 1, [0x18],
    [⟨7, 7, .rws, .any⟩, ⟨6, 6, .rws, .any⟩, ⟨5, 4, .rws, .any⟩, ⟨3, 3, .rws, .any⟩, ⟨2, 2, .rws, .any⟩, ⟨1, 1, .rws, .any⟩, ⟨0, 0, .rws, .any⟩]⟩,
  ⟨0x60200, 0x4, 16, [0x0, 0x960000, 0x960096, 0x5DC0352],
    [⟨31, 16, .rws, .any⟩, ⟨15, 0, .rws, .nat 0 2000⟩]⟩,
  ⟨0x60240, 0x4, 16, [0x514, 0x640514, 0x6404B0, 0x3E804B0, 0x3E8047E],
    [⟨31, 16, .rws, .any⟩, ⟨15, 0, .rws, .nat 0 2000⟩]⟩]

/-- The SWG register map. -/
def rowsSWG : List RegRow := rowsSWG0 ++ rowsSWG1 ++ rowsSWG2 ++ rowsSWG3

/-- Register map rows of the EMB registers: EMB_CTRL, EMB_STAT, EMB_EVT, EMB_CNTCLR, EMB_FSW, EMB_XL, EMB_HFIX, EMB_HMIN, EMB_HMAX, EMB_TEXT, EMB_HOLD, EMB_SETTLE, EMB_IZC, EMB_OUTER, EMB_SMIN, EMB_SECT_HYS, EMB_NPK, EMB_V0MAX, EMB_TRIMK, EMB_NPTF, EMB_ERR, EMB_SLOPE, EMB_BAND, EMB_TRIM. -/
def rowsEMB0 : List RegRow := [
  ⟨0x70000, 0x0, 1, [0x29E0],
    [⟨15, 14, .rws, .nat 0 2⟩, ⟨13, 12, .rws, .nat 0 2⟩, ⟨11, 10, .rws, .nat 0 2⟩, ⟨9, 8, .rws, .nat 0 2⟩, ⟨7, 7, .rws, .any⟩, ⟨6, 6, .rws, .any⟩, ⟨5, 5, .rws, .any⟩]⟩,
  ⟨0x70004, 0x0, 1, [0x0],
    [⟨11, 10, .roh, .any⟩, ⟨9, 8, .roh, .any⟩, ⟨7, 6, .roh, .any⟩, ⟨5, 5, .roh, .any⟩, ⟨4, 4, .roh, .any⟩, ⟨3, 3, .roh, .any⟩, ⟨2, 2, .roh, .any⟩, ⟨1, 1, .roh, .any⟩, ⟨0, 0, .roh, .any⟩]⟩,
  ⟨0x70008, 0x0, 1, [0x0],
    [⟨5, 5, .w1c, .any⟩, ⟨4, 4, .w1c, .any⟩, ⟨3, 3, .w1c, .any⟩, ⟨2, 2, .w1c, .any⟩, ⟨1, 1, .w1c, .any⟩, ⟨0, 0, .w1c, .any⟩]⟩,
  ⟨0x7000C, 0x0, 1, [0x0],
    [⟨0, 0, .wo, .any⟩]⟩,
  ⟨0x70010, 0x0, 1, [0xFA0],
    [⟨31, 0, .rws, .nat 500 20000⟩]⟩,
  ⟨0x70014, 0x0, 1, [0x2666666],
    [⟨31, 0, .rws, .nat 5368709 134217728⟩]⟩,
  ⟨0x70018, 0x0, 1, [0xCCCCCD],
    [⟨31, 0, .rws, .nat 268435 134217728⟩]⟩,
  ⟨0x7001C, 0x0, 1, [0x28F5C3],
    [⟨31, 0, .rws, .nat 268435 134217728⟩]⟩,
  ⟨0x70020, 0x0, 1, [0x3333333],
    [⟨31, 0, .rws, .nat 268435 134217728⟩]⟩,
  ⟨0x70024, 0x0, 1, [0xE00],
    [⟨31, 0, .rws, .nat 0 65535⟩]⟩,
  ⟨0x70028, 0x0, 1, [0x3E8],
    [⟨31, 0, .rws, .nat 100 20000⟩]⟩,
  ⟨0x7002C, 0x0, 1, [0xC8],
    [⟨31, 0, .rws, .nat 0 2000⟩]⟩,
  ⟨0x70030, 0x0, 1, [0x51EB85],
    [⟨31, 0, .rws, .nat 0 53687091⟩]⟩,
  ⟨0x70034, 0x0, 1, [0x1800000],
    [⟨31, 0, .rws, .nat 18454938 67108864⟩]⟩,
  ⟨0x70038, 0x0, 1, [0x68DC],
    [⟨31, 0, .rws, .nat 0 2684355⟩]⟩,
  ⟨0x7003C, 0x0, 1, [0x51EB85],
    [⟨31, 0, .rws, .nat 0 53687091⟩]⟩,
  ⟨0x70040, 0x0, 1, [0x10000000],
    [⟨31, 0, .rws, .nat 0 2120640102⟩]⟩,
  ⟨0x70044, 0x0, 1, [0x199999A],
    [⟨31, 0, .rws, .nat 0 80530637⟩]⟩,
  ⟨0x70048, 0x0, 1, [0x199999A],
    [⟨31, 0, .rws, .nat 0 134217728⟩]⟩,
  ⟨0x7004C, 0x0, 1, [0x3E8],
    [⟨31, 0, .rws, .nat 100 100000⟩]⟩,
  ⟨0x70080, 0x10, 3, [0x0],
    [⟨31, 0, .roh, .any⟩]⟩,
  ⟨0x70084, 0x10, 3, [0x0],
    [⟨31, 0, .roh, .any⟩]⟩,
  ⟨0x70088, 0x10, 3, [0x0],
    [⟨31, 0, .roh, .any⟩]⟩,
  ⟨0x7008C, 0x10, 3, [0x1000000],
    [⟨31, 0, .roh, .any⟩]⟩]

/-- Register map rows of the EMB registers: EMB_FSWM, EMB_CNT, EMB_V0, EMB_VNP. -/
def rowsEMB1 : List RegRow := [
  ⟨0x700B0, 0x4, 3, [0x0],
    [⟨31, 0, .roh, .any⟩]⟩,
  ⟨0x700C0, 0x4, 3, [0x0],
    [⟨31, 0, .roh, .any⟩]⟩,
  ⟨0x700D0, 0x0, 1, [0x0],
    [⟨31, 0, .roh, .any⟩]⟩,
  ⟨0x700D4, 0x0, 1, [0x0],
    [⟨31, 0, .roh, .any⟩]⟩]

/-- The EMB register map. -/
def rowsEMB : List RegRow := rowsEMB0 ++ rowsEMB1

/-- Register map rows of the MOD registers: MOD_CTRL, MOD_STAT, MOD_EVT, MOD_SW, MOD_SHAPE, MOD_SHAPEH, MOD_CMP, MOD_DT, MOD_TMIN, MOD_SS_GAP, MOD_BS_TMAX, MOD_BS_TRF, MOD_BS_WARN, MOD_SHAPE_ITH, MOD_CHOP_ON, MOD_CHOP_OFF, MOD_PER, MOD_TTMR. -/
def rowsMOD0 : List RegRow := [
  ⟨0x80000, 0x0, 1, [0x30000000],
    [⟨31, 28, .rws, .any⟩, ⟨23, 20, .rws, .any⟩, ⟨17, 16, .rws, .nat 0 2⟩, ⟨15, 15, .rws, .any⟩, ⟨8, 8, .rws, .any⟩, ⟨1, 0, .rws, .any⟩]⟩,
  ⟨0x80004, 0x0, 1, [0x0],
    [⟨8, 8, .w1c, .any⟩, ⟨7, 4, .roh, .any⟩, ⟨2, 2, .roh, .any⟩, ⟨1, 1, .roh, .any⟩, ⟨0, 0, .roh, .any⟩]⟩,
  ⟨0x80008, 0x0, 1, [0x0],
    [⟨6, 6, .w1c, .any⟩, ⟨5, 5, .w1c, .any⟩, ⟨4, 4, .w1c, .any⟩, ⟨3, 3, .w1c, .any⟩, ⟨2, 2, .w1c, .any⟩, ⟨1, 1, .w1c, .any⟩, ⟨0, 0, .w1c, .any⟩]⟩,
  ⟨0x8000C, 0x0, 1, [0x0],
    [⟨15, 12, .roh, .any⟩, ⟨11, 8, .roh, .any⟩, ⟨7, 4, .roh, .any⟩, ⟨3, 0, .roh, .any⟩]⟩,
  ⟨0x80040, 0x4, 4, [0x88888888],
    [⟨31, 28, .rws, .any⟩, ⟨27, 24, .rws, .any⟩, ⟨23, 20, .rws, .any⟩, ⟨19, 16, .rws, .any⟩, ⟨15, 12, .rws, .any⟩, ⟨11, 8, .rws, .any⟩, ⟨7, 4, .rws, .any⟩, ⟨3, 0, .rws, .any⟩]⟩,
  ⟨0x80050, 0x4, 4, [0x88888888],
    [⟨31, 28, .rws, .any⟩, ⟨27, 24, .rws, .any⟩, ⟨23, 20, .rws, .any⟩, ⟨19, 16, .rws, .any⟩, ⟨15, 12, .rws, .any⟩, ⟨11, 8, .rws, .any⟩, ⟨7, 4, .rws, .any⟩, ⟨3, 0, .rws, .any⟩]⟩,
  ⟨0x80064, 0x4, 4, [0x0],
    [⟨31, 31, .rw, .any⟩, ⟨30, 0, .rw, .nat 0 25600000⟩]⟩,
  ⟨0x80010, 0x4, 4, [0x4B00],
    [⟨31, 0, .rws, .nat 2560 128000⟩]⟩,
  ⟨0x80020, 0x0, 1, [0x3200],
    [⟨31, 0, .rws, .nat 1280 256000⟩]⟩,
  ⟨0x80024, 0x0, 1, [0x7D0],
    [⟨31, 0, .rws, .nat 500 20000⟩]⟩,
  ⟨0x80028, 0x0, 1, [0xC8],
    [⟨31, 0, .rws, .nat 10 10000⟩]⟩,
  ⟨0x8002C, 0x0, 1, [0x3E8],
    [⟨31, 0, .rws, .nat 200 10000⟩]⟩,
  ⟨0x80030, 0x0, 1, [0x2EE0],
    [⟨31, 0, .rws, .nat 5000 20000⟩]⟩,
  ⟨0x80034, 0x0, 1, [0x8000000],
    [⟨31, 0, .rws, .nat 0 536870912⟩]⟩,
  ⟨0x80038, 0x0, 1, [0x13333333],
    [⟨31, 0, .rws, .nat 214748365 402653184⟩]⟩,
  ⟨0x8003C, 0x0, 1, [0x12666666],
    [⟨31, 0, .rws, .nat 214748365 402653184⟩]⟩,
  ⟨0x80060, 0x0, 1, [0x30D400],
    [⟨31, 0, .rw, .nat 640000 25600000⟩]⟩,
  ⟨0x80080, 0x4, 3, [0x1F400],
    [⟨31, 0, .rw, .nat 1280 12800000⟩]⟩]

/-- The MOD register map. -/
def rowsMOD : List RegRow := rowsMOD0

/-- Register map rows of the LRN registers: LRN_CTRL, LRN_STAT, LRN_EVT, LRN_CMD, LRN_GAIN, LRN_FORGET, LRN_LEAD, LRN_CLIM, LRN_HMASK0, LRN_HMASK1, LRN_FADE, LRN_DFUPD, LRN_SAVEINT, LRN_CYCLES, LRN_SKIPS, LRN_PEAK, LRN_COEF. -/
def rowsLRN0 : List RegRow := [
  ⟨0x90000, 0x0, 1, [0x4],
    [⟨3, 3, .rws, .any⟩, ⟨2, 2, .rws, .any⟩, ⟨1, 1, .rws, .any⟩, ⟨0, 0, .rws, .any⟩]⟩,
  ⟨0x90004, 0x0, 1, [0x0],
    [⟨5, 5, .roh, .any⟩, ⟨4, 4, .roh, .any⟩, ⟨2, 0, .roh, .any⟩]⟩,
  ⟨0x90008, 0x0, 1, [0x0],
    [⟨5, 5, .w1c, .any⟩, ⟨4, 4, .w1c, .any⟩, ⟨3, 3, .w1c, .any⟩, ⟨2, 2, .w1c, .any⟩, ⟨1, 1, .w1c, .any⟩, ⟨0, 0, .w1c, .any⟩]⟩,
  ⟨0x9000C, 0x0, 1, [0x0],
    [⟨3, 3, .wo, .any⟩, ⟨2, 2, .wo, .any⟩, ⟨1, 1, .wo, .any⟩, ⟨0, 0, .wo, .any⟩]⟩,
  ⟨0x90010, 0x0, 1, [0x199999A],
    [⟨31, 0, .rws, .nat 0 268435456⟩]⟩,
  ⟨0x90014, 0x0, 1, [0xFFBE76D],
    [⟨31, 0, .rws, .nat 241591910 268435456⟩]⟩,
  ⟨0x90018, 0x0, 1, [0x186A0],
    [⟨31, 0, .rws, .nat 0 2000000⟩]⟩,
  ⟨0x9001C, 0x0, 1, [0x199999A],
    [⟨31, 0, .rws, .nat 2684355 134217728⟩]⟩,
  ⟨0x90020, 0x0, 1, [0x28A0],
    [⟨31, 0, .rws, .mask 0xFFFFFFFC⟩]⟩,
  ⟨0x90024, 0x0, 1, [0x0],
    [⟨31, 0, .rws, .any⟩]⟩,
  ⟨0x90028, 0x0, 1, [0xA],
    [⟨31, 0, .rws, .nat 1 255⟩]⟩,
  ⟨0x9002C, 0x0, 1, [0x83127],
    [⟨31, 0, .rws, .nat 26844 13421773⟩]⟩,
  ⟨0x90030, 0x0, 1, [0x3C],
    [⟨31, 0, .rws, .nat 1 1440⟩]⟩,
  ⟨0x90040, 0x0, 1, [0x0],
    [⟨31, 0, .roh, .any⟩]⟩,
  ⟨0x90044, 0x0, 1, [0x0],
    [⟨31, 0, .roh, .any⟩]⟩,
  ⟨0x90048, 0x0, 1, [0x0],
    [⟨31, 0, .roh, .any⟩]⟩,
  ⟨0x90100, 0x4, 384, [0x0],
    [⟨31, 0, .roh, .any⟩]⟩]

/-- The LRN register map. -/
def rowsLRN : List RegRow := rowsLRN0

/-- Register map rows of the GAL registers: GAL_CTRL, GAL_STAT, GAL_CMD, GAL_PROBE, GAL_LEN, GAL_PRE, GAL_DEC, GAL_TLEVEL, GAL_START, GAL_TIDX, GAL_ROWS, GAL_TNS, GAL_TSL, GAL_TSH. -/
def rowsGAL0 : List RegRow := [
  ⟨0xA0000, 0x0, 1, [0x1],
    [⟨31, 24, .rws, .any⟩, ⟨23, 20, .rws, .any⟩, ⟨19, 18, .rws, .nat 0 2⟩, ⟨17, 14, .rws, .nat 0 6⟩, ⟨13, 13, .rws, .any⟩, ⟨4, 0, .rws, .nat 1 16⟩]⟩,
  ⟨0xA0004, 0x0, 1, [0x0],
    [⟨2, 2, .roh, .any⟩, ⟨1, 0, .roh, .any⟩]⟩,
  ⟨0xA000C, 0x0, 1, [0x0],
    [⟨2, 2, .wo, .any⟩, ⟨1, 1, .wo, .any⟩, ⟨0, 0, .wo, .any⟩]⟩,
  ⟨0xA0010, 0x4, 4, [0x0],
    [⟨31, 0, .rws, .any⟩]⟩,
  ⟨0xA0020, 0x0, 1, [0x8000],
    [⟨31, 0, .rws, .nat 1 32768⟩]⟩,
  ⟨0xA0024, 0x0, 1, [0x0],
    [⟨31, 0, .rws, .nat 0 32767⟩]⟩,
  ⟨0xA0028, 0x0, 1, [0x1],
    [⟨31, 0, .rws, .nat 1 65536⟩]⟩,
  ⟨0xA002C, 0x0, 1, [0x0],
    [⟨31, 0, .rws, .any⟩]⟩,
  ⟨0xA0040, 0x0, 1, [0x0],
    [⟨31, 0, .roh, .any⟩]⟩,
  ⟨0xA0044, 0x0, 1, [0x0],
    [⟨31, 0, .roh, .any⟩]⟩,
  ⟨0xA0048, 0x0, 1, [0x0],
    [⟨31, 0, .roh, .any⟩]⟩,
  ⟨0xA004C, 0x0, 1, [0x0],
    [⟨31, 0, .roh, .any⟩]⟩,
  ⟨0xA0050, 0x0, 1, [0x0],
    [⟨31, 0, .roh, .any⟩]⟩,
  ⟨0xA0054, 0x0, 1, [0x0],
    [⟨31, 0, .roh, .any⟩]⟩]

/-- The GAL register map. -/
def rowsGAL : List RegRow := rowsGAL0

/-- Register map rows of the AFE registers: AFE_CTRL, AFE_STAT, AFE_EVT, AFE_OVR, AFE_CMP_THR, AFE_CMP_CFG, AFE_CMP_STAT, AFE_TEST, AFE_DIAG, AFE_RAW, AFE_TDLY, AFE_PLS_TOL, AFE_SHD_TOL, AFE_PLS_N, AFE_PLS_DIFF, AFE_SHD_DIFF, AFE_PLS_CNT, AFE_SHD_CNT. -/
def rowsAFE0 : List RegRow := [
  ⟨0x30000, 0x0, 1, [0xE0],
    [⟨7, 7, .rws, .any⟩, ⟨6, 6, .rws, .any⟩, ⟨5, 5, .rws, .any⟩, ⟨2, 0, .rws, .nat 0 3⟩]⟩,
  ⟨0x30004, 0x0, 1, [0x10],
    [⟨31, 16, .roh, .any⟩, ⟨6, 5, .roh, .any⟩, ⟨4, 4, .roh, .any⟩, ⟨3, 3, .roh, .any⟩, ⟨2, 2, .roh, .any⟩, ⟨1, 1, .roh, .any⟩, ⟨0, 0, .roh, .any⟩]⟩,
  ⟨0x30008, 0x0, 1, [0x0],
    [⟨13, 8, .w1c, .any⟩, ⟨5, 5, .w1c, .any⟩, ⟨4, 4, .w1c, .any⟩, ⟨3, 3, .w1c, .any⟩, ⟨2, 2, .w1c, .any⟩, ⟨1, 1, .w1c, .any⟩, ⟨0, 0, .w1c, .any⟩]⟩,
  ⟨0x3000C, 0x0, 1, [0x0],
    [⟨14, 0, .w1c, .any⟩]⟩,
  ⟨0x30040, 0x4, 6, [0x7F80],
    [⟨15, 8, .rws, .any⟩, ⟨7, 0, .rws, .any⟩]⟩,
  ⟨0x30060, 0x0, 1, [0x140258],
    [⟨31, 31, .rws, .any⟩, ⟨27, 24, .ro, .nat 0 14⟩, ⟨22, 20, .rws, .nat 0 5⟩, ⟨19, 16, .rws, .any⟩, ⟨15, 0, .rws, .nat 0 5000⟩]⟩,
  ⟨0x30064, 0x0, 1, [0x1240258],
    [⟨31, 31, .rws, .any⟩, ⟨27, 24, .ro, .nat 0 14⟩, ⟨22, 20, .rws, .nat 0 5⟩, ⟨19, 16, .rws, .any⟩, ⟨15, 0, .rws, .nat 0 5000⟩]⟩,
  ⟨0x30068, 0x0, 1, [0x2340258],
    [⟨31, 31, .rws, .any⟩, ⟨27, 24, .ro, .nat 0 14⟩, ⟨22, 20, .rws, .nat 0 5⟩, ⟨19, 16, .rws, .any⟩, ⟨15, 0, .rws, .nat 0 5000⟩]⟩,
  ⟨0x3006C, 0x0, 1, [0x9540258],
    [⟨31, 31, .rws, .any⟩, ⟨27, 24, .ro, .nat 0 14⟩, ⟨22, 20, .rws, .nat 0 5⟩, ⟨19, 16, .rws, .any⟩, ⟨15, 0, .rws, .nat 0 5000⟩]⟩,
  ⟨0x30070, 0x0, 1, [0xA540258],
    [⟨31, 31, .rws, .any⟩, ⟨27, 24, .ro, .nat 0 14⟩, ⟨22, 20, .rws, .nat 0 5⟩, ⟨19, 16, .rws, .any⟩, ⟨15, 0, .rws, .nat 0 5000⟩]⟩,
  ⟨0x30074, 0x0, 1, [0x40258],
    [⟨31, 31, .rws, .any⟩, ⟨27, 24, .rws, .nat 0 14⟩, ⟨22, 20, .rws, .nat 0 5⟩, ⟨19, 16, .rws, .any⟩, ⟨15, 0, .rws, .nat 0 5000⟩]⟩,
  ⟨0x30080, 0x0, 1, [0x0],
    [⟨13, 8, .roh, .any⟩, ⟨5, 0, .roh, .any⟩]⟩,
  ⟨0x30090, 0x0, 1, [0x0],
    [⟨31, 31, .rws, .any⟩, ⟨23, 20, .rws, .nat 0 14⟩, ⟨9, 0, .rws, .any⟩]⟩,
  ⟨0x30094, 0x0, 1, [0x0],
    [⟨31, 31, .roh, .any⟩, ⟨30, 16, .roh, .any⟩, ⟨14, 0, .roh, .any⟩]⟩,
  ⟨0x30100, 0x4, 15, [0x0],
    [⟨17, 16, .roh, .any⟩, ⟨15, 0, .roh, .any⟩]⟩,
  ⟨0x30010, 0x0, 1, [0x0],
    [⟨31, 0, .rws, .nat 0 65535⟩]⟩,
  ⟨0x30014, 0x0, 1, [0x100],
    [⟨31, 0, .rws, .nat 1 4095⟩]⟩,
  ⟨0x30018, 0x0, 1, [0x200],
    [⟨31, 0, .rws, .nat 1 8191⟩]⟩,
  ⟨0x3001C, 0x0, 1, [0x4],
    [⟨31, 0, .rws, .nat 1 255⟩]⟩,
  ⟨0x30020, 0x0, 1, [0x0],
    [⟨31, 0, .roh, .any⟩]⟩,
  ⟨0x30024, 0x0, 1, [0x0],
    [⟨31, 0, .roh, .any⟩]⟩,
  ⟨0x30028, 0x0, 1, [0x0],
    [⟨31, 0, .roh, .any⟩]⟩,
  ⟨0x3002C, 0x0, 1, [0x0],
    [⟨31, 0, .roh, .any⟩]⟩]

/-- The AFE register map. -/
def rowsAFE : List RegRow := rowsAFE0

/-- Register map rows of the FLT registers: FLT_CTRL, FLT_STAT, FLT_EVT, FLT_RESP, FLT_MAVG, FLT_MT_NS, FLT_MT_SL, FLT_MT_SH, FLT_MTR. -/
def rowsFLT0 : List RegRow := [
  ⟨0x40000, 0x0, 1, [0x500],
    [⟨15, 8, .rws, .nat 2 50⟩, ⟨0, 0, .rws, .any⟩]⟩,
  ⟨0x40004, 0x0, 1, [0x8],
    [⟨31, 16, .roh, .any⟩, ⟨4, 4, .roh, .any⟩, ⟨3, 2, .roh, .any⟩, ⟨1, 1, .roh, .any⟩]⟩,
  ⟨0x40008, 0x0, 1, [0x0],
    [⟨2, 2, .w1c, .any⟩, ⟨1, 1, .w1c, .any⟩, ⟨0, 0, .w1c, .any⟩]⟩,
  ⟨0x40040, 0x0, 1, [0xB2],
    [⟨7, 4, .rws, .nat 8 15⟩, ⟨3, 0, .rws, .nat 0 7⟩]⟩,
  ⟨0x40044, 0x0, 1, [0xB2],
    [⟨7, 4, .rws, .nat 8 15⟩, ⟨3, 0, .rws, .nat 0 7⟩]⟩,
  ⟨0x40048, 0x0, 1, [0xB2],
    [⟨7, 4, .rws, .nat 8 15⟩, ⟨3, 0, .rws, .nat 0 7⟩]⟩,
  ⟨0x4004C, 0x0, 1, [0xB2],
    [⟨7, 4, .rws, .nat 8 15⟩, ⟨3, 0, .rws, .nat 0 7⟩]⟩,
  ⟨0x40050, 0x0, 1, [0xB2],
    [⟨7, 4, .rws, .nat 8 15⟩, ⟨3, 0, .rws, .nat 0 7⟩]⟩,
  ⟨0x40054, 0x0, 1, [0xB2],
    [⟨7, 4, .rws, .nat 8 15⟩, ⟨3, 0, .rws, .nat 0 7⟩]⟩,
  ⟨0x40058, 0x0, 1, [0xB2],
    [⟨7, 4, .rws, .nat 8 15⟩, ⟨3, 0, .rws, .nat 0 7⟩]⟩,
  ⟨0x4005C, 0x0, 1, [0xB2],
    [⟨7, 4, .rws, .nat 8 15⟩, ⟨3, 0, .rws, .nat 0 7⟩]⟩,
  ⟨0x40060, 0x0, 1, [0xB2],
    [⟨7, 4, .rws, .nat 8 15⟩, ⟨3, 0, .rws, .nat 0 7⟩]⟩,
  ⟨0x40064, 0x0, 1, [0xB2],
    [⟨7, 4, .rws, .nat 8 15⟩, ⟨3, 0, .rws, .nat 0 7⟩]⟩,
  ⟨0x40068, 0x0, 1, [0xB2],
    [⟨7, 4, .rws, .nat 8 15⟩, ⟨3, 0, .rws, .nat 0 7⟩]⟩,
  ⟨0x4006C, 0x0, 1, [0xF4],
    [⟨7, 4, .rws, .nat 8 15⟩, ⟨3, 0, .rws, .codes [0, 3, 4, 5, 6, 7]⟩]⟩,
  ⟨0x40070, 0x0, 1, [0xF4],
    [⟨7, 4, .rws, .nat 8 15⟩, ⟨3, 0, .rws, .codes [0, 3, 4, 5, 6, 7]⟩]⟩,
  ⟨0x40074, 0x0, 1, [0xF4],
    [⟨7, 4, .rws, .nat 8 15⟩, ⟨3, 0, .rws, .codes [0, 3, 4, 5, 6, 7]⟩]⟩,
  ⟨0x40078, 0x0, 1, [0xF4],
    [⟨7, 4, .rws, .nat 8 15⟩, ⟨3, 0, .rws, .codes [0, 3, 4, 5, 6, 7]⟩]⟩,
  ⟨0x40010, 0x0, 1, [0xA],
    [⟨31, 0, .rws, .nat 1 3000⟩]⟩,
  ⟨0x40020, 0x0, 1, [0x0],
    [⟨31, 0, .roh, .any⟩]⟩,
  ⟨0x40024, 0x0, 1, [0x0],
    [⟨31, 0, .roh, .any⟩]⟩,
  ⟨0x40028, 0x0, 1, [0x0],
    [⟨31, 0, .roh, .any⟩]⟩,
  ⟨0x40400, 0x4, 64, [0x0],
    [⟨31, 0, .roh, .any⟩]⟩]

/-- The FLT register map. -/
def rowsFLT : List RegRow := rowsFLT0

/-- Register map rows of the CAP registers: CAP_CTRL, CAP_STAT, CAP_CMD, CAP_CHSEL, CAP_LEN, CAP_PRE, CAP_INT, CAP_TLEVEL, CAP_THI, CAP_THYST, CAP_TSLN, CAP_TT_NS, CAP_TT_SL, CAP_TT_SH, CAP_START, CAP_TIDX, CAP_ROWS, CAP_TRG_FR, CAP_TRG_NS, CAP_TRG_SL, CAP_TRG_SH, CAP_R0_NS, CAP_R0_SL, CAP_R0_SH. -/
def rowsCAP0 : List RegRow := [
  ⟨0x50000, 0x0, 1, [0x5000000],
    [⟨31, 30, .rws, .nat 0 2⟩, ⟨29, 29, .rws, .any⟩, ⟨28, 28, .rws, .any⟩, ⟨27, 27, .rws, .any⟩, ⟨26, 26, .rws, .any⟩, ⟨25, 24, .rws, .nat 0 2⟩, ⟨23, 22, .rws, .any⟩, ⟨21, 18, .rws, .nat 0 7⟩, ⟨17, 16, .rws, .nat 0 2⟩, ⟨15, 12, .rws, .any⟩, ⟨11, 4, .rws, .any⟩, ⟨3, 0, .rws, .any⟩]⟩,
  ⟨0x50004, 0x0, 1, [0x10],
    [⟨6, 6, .roh, .any⟩, ⟨5, 5, .roh, .any⟩, ⟨4, 4, .roh, .any⟩, ⟨3, 2, .roh, .any⟩, ⟨1, 0, .roh, .any⟩]⟩,
  ⟨0x50008, 0x0, 1, [0x0],
    [⟨2, 2, .wo, .any⟩, ⟨1, 1, .wo, .any⟩, ⟨0, 0, .wo, .any⟩]⟩,
  ⟨0x50010, 0x4, 2, [0x76543210, 0xEEDCBA98],
    [⟨31, 0, .rws, .halves 15⟩]⟩,
  ⟨0x50020, 0x0, 1, [0x4000],
    [⟨31, 0, .rws, .nat 1 49152⟩]⟩,
  ⟨0x50024, 0x0, 1, [0x0],
    [⟨31, 0, .rws, .nat 0 49151⟩]⟩,
  ⟨0x50028, 0x0, 1, [0x1],
    [⟨31, 0, .rws, .nat 1 65536⟩]⟩,
  ⟨0x5002C, 0x0, 1, [0x0],
    [⟨31, 0, .rws, .any⟩]⟩,
  ⟨0x50030, 0x0, 1, [0x0],
    [⟨31, 0, .rws, .any⟩]⟩,
  ⟨0x50034, 0x0, 1, [0x0],
    [⟨31, 0, .rws, .any⟩]⟩,
  ⟨0x50038, 0x0, 1, [0x1],
    [⟨31, 0, .rws, .nat 1 1024⟩]⟩,
  ⟨0x5003C, 0x0, 1, [0x0],
    [⟨31, 0, .rws, .any⟩]⟩,
  ⟨0x50040, 0x0, 1, [0x0],
    [⟨31, 0, .rws, .any⟩]⟩,
  ⟨0x50044, 0x0, 1, [0x0],
    [⟨31, 0, .rws, .any⟩]⟩,
  ⟨0x50050, 0x0, 1, [0x0],
    [⟨31, 0, .roh, .any⟩]⟩,
  ⟨0x50054, 0x0, 1, [0x0],
    [⟨31, 0, .roh, .any⟩]⟩,
  ⟨0x50058, 0x0, 1, [0x0],
    [⟨31, 0, .roh, .any⟩]⟩,
  ⟨0x5005C, 0x0, 1, [0x0],
    [⟨31, 0, .roh, .any⟩]⟩,
  ⟨0x50060, 0x0, 1, [0x0],
    [⟨31, 0, .roh, .any⟩]⟩,
  ⟨0x50064, 0x0, 1, [0x0],
    [⟨31, 0, .roh, .any⟩]⟩,
  ⟨0x50068, 0x0, 1, [0x0],
    [⟨31, 0, .roh, .any⟩]⟩,
  ⟨0x5006C, 0x0, 1, [0x0],
    [⟨31, 0, .roh, .any⟩]⟩,
  ⟨0x50070, 0x0, 1, [0x0],
    [⟨31, 0, .roh, .any⟩]⟩,
  ⟨0x50074, 0x0, 1, [0x0],
    [⟨31, 0, .roh, .any⟩]⟩]

/-- Register map rows of the CAP registers: CAP_PER. -/
def rowsCAP1 : List RegRow := [
  ⟨0x50078, 0x0, 1, [0x0],
    [⟨31, 0, .roh, .any⟩]⟩]

/-- The CAP register map. -/
def rowsCAP : List RegRow := rowsCAP0 ++ rowsCAP1

/-- Register map rows of the STS registers: STS_STAT, STS_EVT, STS_SCFG, STS_SLU, STS_RUP, STS_RDN, STS_LAND, STS_OUT, STS_DWL, STS_IDLE_TMO, STS_COMMITS, STS_ABORTS. -/
def rowsSTS0 : List RegRow := [
  ⟨0xB0000, 0x0, 1, [0x0],
    [⟨15, 12, .roh, .any⟩, ⟨11, 8, .roh, .any⟩, ⟨3, 0, .roh, .any⟩]⟩,
  ⟨0xB0004, 0x0, 1, [0x0],
    [⟨10, 10, .w1c, .any⟩, ⟨9, 9, .w1c, .any⟩, ⟨8, 8, .w1c, .any⟩, ⟨7, 4, .w1c, .any⟩, ⟨3, 0, .w1c, .any⟩]⟩,
  ⟨0xB0010, 0x4, 4, [0x0],
    [⟨31, 31, .rws, .any⟩, ⟨30, 29, .rws, .nat 0 2⟩, ⟨15, 0, .rws, .nat 0 60000⟩]⟩,
  ⟨0xB0100, 0x4, 8, [0xF000000],
    [⟨31, 28, .roh, .any⟩, ⟨27, 24, .roh, .any⟩, ⟨23, 20, .roh, .any⟩, ⟨15, 15, .roh, .any⟩, ⟨14, 14, .roh, .any⟩, ⟨13, 7, .roh, .any⟩]⟩,
  ⟨0xB0020, 0x4, 4, [0x3333333, 0x10000000, 0x199999A, 0x83127],
    [⟨31, 0, .rws, .nat 26844 2120640102⟩]⟩,
  ⟨0xB0030, 0x4, 4, [0x3333333, 0x10000000, 0x199999A, 0x83127],
    [⟨31, 0, .rws, .nat 26844 2120640102⟩]⟩,
  ⟨0xB0040, 0x0, 1, [0x0],
    [⟨31, 0, .rws, .int (-402653184) 402653184⟩]⟩,
  ⟨0xB0044, 0x0, 1, [0x0],
    [⟨31, 0, .rws, .int (-402653184) 402653184⟩]⟩,
  ⟨0xB0048, 0x0, 1, [0x10000000],
    [⟨31, 0, .rws, .nat 0 348966093⟩]⟩,
  ⟨0xB004C, 0x0, 1, [0x10000000],
    [⟨31, 0, .rws, .nat 241591910 295279002⟩]⟩,
  ⟨0xB0050, 0x4, 4, [0x0, 0x0, 0x10000000],
    [⟨31, 0, .roh, .any⟩]⟩,
  ⟨0xB0060, 0x4, 4, [0x0],
    [⟨31, 0, .roh, .any⟩]⟩,
  ⟨0xB0070, 0x0, 1, [0x2710],
    [⟨31, 0, .rws, .nat 100 600000⟩]⟩,
  ⟨0xB0074, 0x0, 1, [0x0],
    [⟨31, 0, .roh, .any⟩]⟩,
  ⟨0xB0078, 0x0, 1, [0x0],
    [⟨31, 0, .roh, .any⟩]⟩]

/-- The STS register map. -/
def rowsSTS : List RegRow := rowsSTS0

/-- Register map rows of the DIK registers: DIK_TRIPSRC, DIK_ACTIVE, DIK_CFG, DIK_EVT, DIK_FIRST, DIK_L1THR, DIK_L1CFG, DIK_STEST, DIK_RDY, DIK_FT_FR, DIK_FT_NS, DIK_FT_SL, DIK_FT_SH, DIK_CLRRES, DIK_TRIPCNT, DIK_SWTRIP, DIK_SETTLE, DIK_DCLO, DIK_DCHI, DIK_DCN, DIK_TH0LIM, DIK_TH1LIM, DIK_GUTMAX, DIK_TRIPEN. -/
def rowsDIK0 : List RegRow := [
  ⟨0xC0000, 0x0, 1, [0x0],
    [⟨13, 13, .roh, .any⟩, ⟨12, 12, .roh, .any⟩, ⟨11, 11, .roh, .any⟩, ⟨10, 10, .roh, .any⟩, ⟨9, 9, .roh, .any⟩, ⟨8, 8, .roh, .any⟩, ⟨7, 7, .roh, .any⟩, ⟨6, 6, .roh, .any⟩, ⟨5, 5, .roh, .any⟩, ⟨4, 4, .roh, .any⟩, ⟨3, 3, .roh, .any⟩, ⟨2, 2, .roh, .any⟩, ⟨1, 1, .roh, .any⟩, ⟨0, 0, .roh, .any⟩]⟩,
  ⟨0xC0004, 0x0, 1, [0x0],
    [⟨13, 13, .roh, .any⟩, ⟨12, 12, .roh, .any⟩, ⟨11, 11, .roh, .any⟩, ⟨10, 10, .roh, .any⟩, ⟨9, 9, .roh, .any⟩, ⟨8, 8, .roh, .any⟩, ⟨7, 7, .roh, .any⟩, ⟨6, 6, .roh, .any⟩, ⟨5, 5, .roh, .any⟩, ⟨4, 4, .roh, .any⟩, ⟨3, 3, .roh, .any⟩, ⟨2, 2, .roh, .any⟩, ⟨1, 1, .roh, .any⟩, ⟨0, 0, .roh, .any⟩]⟩,
  ⟨0xC0018, 0x0, 1, [0x800],
    [⟨15, 8, .rws, .any⟩, ⟨0, 0, .rws, .any⟩]⟩,
  ⟨0xC001C, 0x0, 1, [0x0],
    [⟨4, 4, .w1c, .any⟩, ⟨3, 3, .w1c, .any⟩, ⟨2, 2, .w1c, .any⟩, ⟨1, 1, .w1c, .any⟩, ⟨0, 0, .w1c, .any⟩]⟩,
  ⟨0xC0020, 0x0, 1, [0xF0000000],
    [⟨31, 28, .roh, .any⟩, ⟨13, 0, .roh, .any⟩]⟩,
  ⟨0xC0040, 0x4, 4, [0x70707070],
    [⟨31, 24, .rws, .nat 0 127⟩, ⟨23, 16, .rws, .nat 0 127⟩, ⟨15, 8, .rws, .nat 0 127⟩, ⟨7, 0, .rws, .nat 0 127⟩]⟩,
  ⟨0xC0050, 0x0, 1, [0x5DC0002],
    [⟨31, 16, .rws, .nat 0 10000⟩, ⟨2, 0, .rws, .nat 1 4⟩]⟩,
  ⟨0xC0070, 0x0, 1, [0x0],
    [⟨31, 31, .roh, .any⟩, ⟨27, 24, .roh, .any⟩, ⟨23, 20, .roh, .any⟩, ⟨19, 14, .roh, .any⟩, ⟨13, 8, .roh, .any⟩, ⟨5, 0, .roh, .any⟩]⟩,
  ⟨0xC0074, 0x0, 1, [0x0],
    [⟨31, 31, .roh, .any⟩, ⟨7, 4, .roh, .any⟩, ⟨3, 0, .roh, .any⟩]⟩,
  ⟨0xC0024, 0x0, 1, [0x0],
    [⟨31, 0, .roh, .any⟩]⟩,
  ⟨0xC0028, 0x0, 1, [0x0],
    [⟨31, 0, .roh, .any⟩]⟩,
  ⟨0xC002C, 0x0, 1, [0x0],
    [⟨31, 0, .roh, .any⟩]⟩,
  ⟨0xC0030, 0x0, 1, [0x0],
    [⟨31, 0, .roh, .any⟩]⟩,
  ⟨0xC0034, 0x0, 1, [0x0],
    [⟨31, 0, .roh, .any⟩]⟩,
  ⟨0xC0038, 0x0, 1, [0x0],
    [⟨31, 0, .roh, .any⟩]⟩,
  ⟨0xC003C, 0x0, 1, [0x0],
    [⟨31, 0, .wo, .any⟩]⟩,
  ⟨0xC0054, 0x0, 1, [0xA],
    [⟨31, 0, .rws, .nat 1 10000⟩]⟩,
  ⟨0xC0058, 0x0, 1, [0x8000000],
    [⟨31, 0, .rws, .nat 26843546 402653184⟩]⟩,
  ⟨0xC005C, 0x0, 1, [0x1599999A],
    [⟨31, 0, .rws, .nat 134217728 536870912⟩]⟩,
  ⟨0xC0060, 0x0, 1, [0x4],
    [⟨31, 0, .rws, .nat 1 1000⟩]⟩,
  ⟨0xC0064, 0x0, 1, [0x7FFF],
    [⟨31, 0, .rws, .any⟩]⟩,
  ⟨0xC0068, 0x0, 1, [0x7FFF],
    [⟨31, 0, .rws, .any⟩]⟩,
  ⟨0xC006C, 0x0, 1, [0x7D],
    [⟨31, 0, .rws, .nat 0 150⟩]⟩,
  ⟨0xC0008, 0x0, 1, [0x3FFF],
    [⟨13, 13, .rws, .any⟩, ⟨12, 12, .ro, .any⟩, ⟨11, 8, .rws, .any⟩, ⟨7, 6, .ro, .any⟩, ⟨5, 0, .rws, .any⟩]⟩]

/-- Register map rows of the DIK registers: DIK_CLR, DIK_GENMASK, DIK_TRIPOMASK. -/
def rowsDIK1 : List RegRow := [
  ⟨0xC000C, 0x0, 1, [0x0],
    [⟨13, 0, .wo, .any⟩]⟩,
  ⟨0xC0010, 0x0, 1, [0x64],
    [⟨13, 0, .rws, .any⟩]⟩,
  ⟨0xC0014, 0x0, 1, [0x3FFF],
    [⟨13, 0, .rws, .any⟩]⟩]

/-- The DIK register map. -/
def rowsDIK : List RegRow := rowsDIK0 ++ rowsDIK1

/-- Register map rows of the GLK registers: GLK_CFG, GLK_STAT, GLK_ISFS, GLK_ERR, GLK_MON, GLK_TEMP, GLK_IS, GLK_ID. -/
def rowsGLK0 : List RegRow := [
  ⟨0xD0000, 0x0, 1, [0xA4080000],
    [⟨31, 31, .rws, .any⟩, ⟨29, 28, .rws, .nat 1 2⟩, ⟨27, 26, .rws, .nat 1 2⟩, ⟨24, 24, .rws, .any⟩, ⟨20, 16, .rws, .nat 1 16⟩]⟩,
  ⟨0xD0100, 0x0, 1, [0xA4080000],
    [⟨31, 31, .rws, .any⟩, ⟨29, 28, .rws, .nat 1 2⟩, ⟨27, 26, .rws, .nat 1 2⟩, ⟨24, 24, .rws, .any⟩, ⟨20, 16, .rws, .nat 1 16⟩]⟩,
  ⟨0xD0200, 0x0, 1, [0xA4080000],
    [⟨31, 31, .rws, .any⟩, ⟨29, 28, .rws, .nat 1 2⟩, ⟨27, 26, .rws, .nat 1 2⟩, ⟨24, 24, .rws, .any⟩, ⟨20, 16, .rws, .nat 1 16⟩]⟩,
  ⟨0xD0300, 0x0, 1, [0x24080000],
    [⟨31, 31, .rws, .any⟩, ⟨29, 28, .rws, .nat 1 2⟩, ⟨27, 26, .rws, .nat 1 2⟩, ⟨24, 24, .ro, .any⟩, ⟨20, 16, .rws, .nat 1 16⟩]⟩,
  ⟨0xD0010, 0x100, 4, [0x0],
    [⟨31, 28, .roh, .any⟩, ⟨27, 26, .roh, .any⟩, ⟨25, 24, .roh, .any⟩, ⟨23, 20, .roh, .any⟩, ⟨19, 16, .roh, .any⟩, ⟨15, 8, .roh, .any⟩]⟩,
  ⟨0xD0004, 0x100, 4, [0x3D0900],
    [⟨31, 0, .rws, .nat 1000 10000000⟩]⟩,
  ⟨0xD0014, 0x100, 4, [0x0],
    [⟨31, 0, .roh, .any⟩]⟩,
  ⟨0xD0018, 0x100, 4, [0x0],
    [⟨31, 0, .roh, .any⟩]⟩,
  ⟨0xD001C, 0x100, 4, [0x0],
    [⟨31, 0, .roh, .any⟩]⟩,
  ⟨0xD0020, 0x100, 4, [0x0],
    [⟨31, 0, .roh, .any⟩]⟩,
  ⟨0xD0024, 0x100, 4, [0x0],
    [⟨31, 0, .roh, .any⟩]⟩]

/-- The GLK register map. -/
def rowsGLK : List RegRow := rowsGLK0

/-- Register map rows of the FIO registers: FIO_DI, FIO_STAT, FIO_EVT, FIO_DOCMD, FIO_DOSTAT, FIO_DODIAG, FIO_DICFG, FIO_DOCFG, FIO_DICNT, FIO_TPPASS, FIO_QENT0, FIO_QENT1, FIO_QENT2, FIO_QENT3, FIO_QPOP. -/
def rowsFIO0 : List RegRow := [
  ⟨0xE0000, 0x0, 1, [0x0],
    [⟨15, 8, .roh, .any⟩, ⟨7, 0, .roh, .any⟩]⟩,
  ⟨0xE0004, 0x0, 1, [0x0],
    [⟨31, 31, .roh, .any⟩, ⟨6, 0, .roh, .any⟩]⟩,
  ⟨0xE0008, 0x0, 1, [0x0],
    [⟨3, 3, .w1c, .any⟩, ⟨2, 2, .w1c, .any⟩, ⟨1, 1, .w1c, .any⟩, ⟨0, 0, .w1c, .any⟩]⟩,
  ⟨0xE000C, 0x0, 1, [0x0],
    [⟨3, 0, .rw, .any⟩]⟩,
  ⟨0xE0010, 0x0, 1, [0x0],
    [⟨11, 8, .roh, .any⟩, ⟨7, 4, .roh, .any⟩, ⟨3, 0, .roh, .any⟩]⟩,
  ⟨0xE0014, 0x0, 1, [0x0],
    [⟨29, 24, .w1c, .any⟩, ⟨21, 16, .w1c, .any⟩, ⟨13, 8, .w1c, .any⟩, ⟨5, 0, .w1c, .any⟩]⟩,
  ⟨0xE0020, 0x4, 8, [0xC0000BB8],
    [⟨31, 30, .rws, .any⟩, ⟨15, 0, .rws, .any⟩]⟩,
  ⟨0xE0040, 0x4, 4, [0xC80A05],
    [⟨31, 31, .rws, .any⟩, ⟨30, 30, .rws, .any⟩, ⟨24, 16, .rws, .nat 50 300⟩, ⟨15, 8, .rws, .nat 1 255⟩, ⟨7, 0, .rws, .nat 1 50⟩]⟩,
  ⟨0xE0060, 0x4, 8, [0x0],
    [⟨31, 0, .roh, .any⟩]⟩,
  ⟨0xE0080, 0x4, 4, [0x0],
    [⟨31, 0, .roh, .any⟩]⟩,
  ⟨0xE00A0, 0x0, 1, [0xF0000000],
    [⟨31, 0, .roh, .any⟩]⟩,
  ⟨0xE00A4, 0x0, 1, [0x0],
    [⟨31, 0, .roh, .any⟩]⟩,
  ⟨0xE00A8, 0x0, 1, [0x0],
    [⟨31, 0, .roh, .any⟩]⟩,
  ⟨0xE00AC, 0x0, 1, [0x0],
    [⟨31, 0, .roh, .any⟩]⟩,
  ⟨0xE00B0, 0x0, 1, [0x0],
    [⟨31, 0, .wo, .any⟩]⟩]

/-- The FIO register map. -/
def rowsFIO : List RegRow := rowsFIO0

/-- Register map rows of the SPB registers: SPB_CFG, SPB_STAT, SPB_FAULT, SPB_EVT, SPB_CRC, SPB_CRC_OK, SPB_FILT, SPB_DISC, SPB_WD, SPB_CMPWIN, SPB_NETDOWN, SPB_AGE, SPB_TXPER, SPB_CONN, SPB_PEERIP, SPB_TESTINT, SPB_RXDATA, SPB_ACCEPTED, SPB_DISCARD, SPB_MISS, SPB_SINGLE, SPB_LASTSEQ, SPB_TESTAGE, SPB_LOGCNT. -/
def rowsSPB0 : List RegRow := [
  ⟨0xF0000, 0x0, 1, [0x0],
    [⟨31, 31, .rws, .any⟩, ⟨30, 30, .rws, .any⟩, ⟨29, 29, .rws, .any⟩, ⟨28, 28, .rws, .any⟩, ⟨27, 27, .rws, .any⟩, ⟨26, 26, .rws, .any⟩, ⟨25, 25, .rws, .any⟩]⟩,
  ⟨0xF0004, 0x0, 1, [0x8],
    [⟨31, 30, .roh, .any⟩, ⟨29, 29, .roh, .any⟩, ⟨28, 28, .roh, .any⟩, ⟨27, 26, .roh, .any⟩, ⟨25, 24, .roh, .any⟩, ⟨15, 12, .roh, .any⟩, ⟨8, 0, .roh, .any⟩]⟩,
  ⟨0xF0008, 0x0, 1, [0x0],
    [⟨5, 5, .roh, .any⟩, ⟨4, 4, .roh, .any⟩, ⟨3, 3, .roh, .any⟩, ⟨2, 2, .roh, .any⟩, ⟨1, 1, .roh, .any⟩, ⟨0, 0, .roh, .any⟩]⟩,
  ⟨0xF000C, 0x0, 1, [0x0],
    [⟨7, 7, .w1c, .any⟩, ⟨6, 6, .w1c, .any⟩, ⟨5, 5, .w1c, .any⟩, ⟨4, 4, .w1c, .any⟩, ⟨3, 3, .w1c, .any⟩, ⟨2, 2, .w1c, .any⟩, ⟨1, 1, .w1c, .any⟩, ⟨0, 0, .w1c, .any⟩]⟩,
  ⟨0xF0010, 0x0, 1, [0x0],
    [⟨31, 0, .roh, .any⟩]⟩,
  ⟨0xF0014, 0x0, 1, [0x0],
    [⟨31, 0, .roh, .any⟩]⟩,
  ⟨0xF0020, 0x0, 1, [0x3E8],
    [⟨31, 0, .rws, .nat 200 10000⟩]⟩,
  ⟨0xF0024, 0x0, 1, [0x32],
    [⟨31, 0, .rws, .nat 5 500⟩]⟩,
  ⟨0xF0028, 0x0, 1, [0x64],
    [⟨31, 0, .rws, .nat 4 1000⟩]⟩,
  ⟨0xF002C, 0x0, 1, [0x7D0],
    [⟨31, 0, .rws, .nat 100 10000⟩]⟩,
  ⟨0xF0030, 0x0, 1, [0x32],
    [⟨31, 0, .rws, .nat 10 1000⟩]⟩,
  ⟨0xF0034, 0x0, 1, [0x64],
    [⟨31, 0, .rws, .nat 1 10000⟩]⟩,
  ⟨0xF0038, 0x0, 1, [0xA],
    [⟨31, 0, .rws, .nat 1 500⟩]⟩,
  ⟨0xF003C, 0x0, 1, [0x0],
    [⟨31, 0, .rws, .conn⟩]⟩,
  ⟨0xF0040, 0x0, 1, [0x0],
    [⟨31, 0, .rws, .any⟩]⟩,
  ⟨0xF0044, 0x0, 1, [0x2238],
    [⟨31, 0, .rws, .nat 1 8760⟩]⟩,
  ⟨0xF0050, 0x4, 4, [0x0],
    [⟨31, 0, .roh, .any⟩]⟩,
  ⟨0xF0060, 0x0, 1, [0x0],
    [⟨31, 0, .roh, .any⟩]⟩,
  ⟨0xF0064, 0x0, 1, [0x0],
    [⟨31, 0, .roh, .any⟩]⟩,
  ⟨0xF0068, 0x0, 1, [0x0],
    [⟨31, 0, .roh, .any⟩]⟩,
  ⟨0xF006C, 0x0, 1, [0x0],
    [⟨31, 0, .roh, .any⟩]⟩,
  ⟨0xF0070, 0x0, 1, [0x0],
    [⟨31, 0, .roh, .any⟩]⟩,
  ⟨0xF0074, 0x0, 1, [0x0],
    [⟨31, 0, .roh, .any⟩]⟩,
  ⟨0xF0078, 0x0, 1, [0x0],
    [⟨31, 0, .roh, .any⟩]⟩]

/-- The SPB register map. -/
def rowsSPB : List RegRow := rowsSPB0

/-- Register map rows of the CLK registers: CLK_CFG, CLK_FRAC, CLK_STAT, CLK_EVT, CLK_LOCKUS, CLK_LOSSES, CLK_BKFREQ, CLK_FREF. -/
def rowsCLK0 : List RegRow := [
  ⟨0x10000, 0x0, 1, [0x800000],
    [⟨31, 31, .rws, .any⟩, ⟨24, 16, .rws, .nat 64 320⟩]⟩,
  ⟨0x10004, 0x0, 1, [0x0],
    [⟨23, 0, .rws, .any⟩]⟩,
  ⟨0x10008, 0x0, 1, [0x40000000],
    [⟨31, 31, .roh, .any⟩, ⟨30, 30, .roh, .any⟩, ⟨29, 29, .roh, .any⟩, ⟨28, 28, .roh, .any⟩, ⟨27, 24, .roh, .any⟩, ⟨23, 20, .roh, .any⟩, ⟨13, 8, .roh, .any⟩]⟩,
  ⟨0x1000C, 0x0, 1, [0x0],
    [⟨3, 3, .w1c, .any⟩, ⟨2, 2, .w1c, .any⟩, ⟨1, 1, .w1c, .any⟩, ⟨0, 0, .w1c, .any⟩]⟩,
  ⟨0x10010, 0x0, 1, [0x0],
    [⟨31, 0, .roh, .any⟩]⟩,
  ⟨0x10014, 0x0, 1, [0x0],
    [⟨31, 0, .roh, .any⟩]⟩,
  ⟨0x10018, 0x0, 1, [0x0],
    [⟨31, 0, .roh, .any⟩]⟩,
  ⟨0x1001C, 0x0, 1, [0x17D7840],
    [⟨31, 0, .rws, .nat 10000000 50000000⟩]⟩]

/-- The CLK register map. -/
def rowsCLK : List RegRow := rowsCLK0

/-- Register map rows of the TIM registers: TIM_CFG, TIM_STAT, TIM_EVT, TIM_PPSCFG, TIM_DOMCFG, TIM_NOW_FR, TIM_NOW_NS, TIM_NOW_SL, TIM_NOW_SH, TIM_GOODTHR, TIM_HOLDTMO, TIM_REVERTT, TIM_SRVBW, TIM_STEPTHR, TIM_OFS, TIM_RATE, TIM_CORR, TIM_PDLY, TIM_GM0H, TIM_GM0L, TIM_GM1H, TIM_GM1L, TIM_SWITCHES, TIM_PPS_FR. -/
def rowsTIM0 : List RegRow := [
  ⟨0x20000, 0x0, 1, [0xC0640000],
    [⟨31, 31, .rws, .any⟩, ⟨30, 30, .rws, .any⟩, ⟨23, 16, .rws, .nat 1 100⟩]⟩,
  ⟨0x20004, 0x0, 1, [0x20000000],
    [⟨31, 30, .roh, .any⟩, ⟨29, 28, .roh, .any⟩, ⟨27, 27, .roh, .any⟩, ⟨26, 26, .roh, .any⟩, ⟨25, 23, .roh, .any⟩, ⟨22, 20, .roh, .any⟩, ⟨19, 18, .roh, .any⟩, ⟨17, 16, .roh, .any⟩]⟩,
  ⟨0x20008, 0x0, 1, [0x0],
    [⟨8, 8, .w1c, .any⟩, ⟨7, 7, .w1c, .any⟩, ⟨6, 6, .w1c, .any⟩, ⟨5, 5, .w1c, .any⟩, ⟨4, 4, .w1c, .any⟩, ⟨3, 3, .w1c, .any⟩, ⟨2, 2, .w1c, .any⟩, ⟨1, 1, .w1c, .any⟩, ⟨0, 0, .w1c, .any⟩]⟩,
  ⟨0x2000C, 0x0, 1, [0x30000064],
    [⟨31, 31, .rws, .any⟩, ⟨29, 28, .rws, .nat 1 3⟩, ⟨15, 0, .rws, .nat 1 900⟩]⟩,
  ⟨0x20010, 0x4, 2, [0x80000007, 0x107],
    [⟨31, 31, .rws, .any⟩, ⟨15, 8, .rws, .nat 0 127⟩, ⟨7, 0, .rws, .nat 6 255⟩]⟩,
  ⟨0x20020, 0x0, 1, [0x0],
    [⟨31, 0, .roh, .any⟩]⟩,
  ⟨0x20024, 0x0, 1, [0x0],
    [⟨31, 0, .roh, .any⟩]⟩,
  ⟨0x20028, 0x0, 1, [0x0],
    [⟨31, 0, .roh, .any⟩]⟩,
  ⟨0x2002C, 0x0, 1, [0x0],
    [⟨31, 0, .roh, .any⟩]⟩,
  ⟨0x20030, 0x0, 1, [0x32],
    [⟨31, 0, .rws, .nat 10 1000⟩]⟩,
  ⟨0x20034, 0x0, 1, [0x3C],
    [⟨31, 0, .rws, .nat 1 86400⟩]⟩,
  ⟨0x20038, 0x0, 1, [0x3C],
    [⟨31, 0, .rws, .nat 10 3600⟩]⟩,
  ⟨0x2003C, 0x0, 1, [0x64],
    [⟨31, 0, .rws, .nat 10 500⟩]⟩,
  ⟨0x20040, 0x0, 1, [0x186A0],
    [⟨31, 0, .rws, .nat 1000 1000000000⟩]⟩,
  ⟨0x20050, 0x4, 2, [0x0],
    [⟨31, 0, .roh, .any⟩]⟩,
  ⟨0x20058, 0x4, 2, [0x0],
    [⟨31, 0, .roh, .any⟩]⟩,
  ⟨0x20060, 0x0, 1, [0x0],
    [⟨31, 0, .roh, .any⟩]⟩,
  ⟨0x20064, 0x4, 2, [0x0],
    [⟨31, 0, .roh, .any⟩]⟩,
  ⟨0x20070, 0x0, 1, [0x0],
    [⟨31, 0, .roh, .any⟩]⟩,
  ⟨0x20074, 0x0, 1, [0x0],
    [⟨31, 0, .roh, .any⟩]⟩,
  ⟨0x20078, 0x0, 1, [0x0],
    [⟨31, 0, .roh, .any⟩]⟩,
  ⟨0x2007C, 0x0, 1, [0x0],
    [⟨31, 0, .roh, .any⟩]⟩,
  ⟨0x20080, 0x0, 1, [0x0],
    [⟨31, 0, .roh, .any⟩]⟩,
  ⟨0x20090, 0x0, 1, [0x0],
    [⟨31, 0, .roh, .any⟩]⟩]

/-- Register map rows of the TIM registers: TIM_PPS_NS, TIM_PPS_SL, TIM_PPS_SH, TIM_PPS_ERR. -/
def rowsTIM1 : List RegRow := [
  ⟨0x20094, 0x0, 1, [0x0],
    [⟨31, 0, .roh, .any⟩]⟩,
  ⟨0x20098, 0x0, 1, [0x0],
    [⟨31, 0, .roh, .any⟩]⟩,
  ⟨0x2009C, 0x0, 1, [0x0],
    [⟨31, 0, .roh, .any⟩]⟩,
  ⟨0x200A0, 0x0, 1, [0x0],
    [⟨31, 0, .roh, .any⟩]⟩]

/-- The TIM register map. -/
def rowsTIM : List RegRow := rowsTIM0 ++ rowsTIM1

/-- Register map rows of the HAL registers: HAL_ID, HAL_CFG, HAL_STAT, HAL_TOKEN, HAL_EVT, HAL_APPLY, HAL_SVCFG, HAL_MACH, HAL_MACL, HAL_IPADDR, HAL_NETMASK, HAL_GW, HAL_SESSTMO, HAL_CMDS, HAL_BADLEN, HAL_BADCRC, HAL_BADAUTH, HAL_OLDSEQ, HAL_PRPDUP, HAL_SVLOST, HAL_NOTLOST, HAL_SPIDROP, HAL_LATE, HAL_ACCERR. -/
def rowsHAL0 : List RegRow := [
  ⟨0x0, 0x0, 1, [0x7],
    [⟨31, 16, .ro, .any⟩, ⟨11, 8, .ro, .any⟩, ⟨7, 0, .ro, .any⟩]⟩,
  ⟨0x20, 0x0, 1, [0xBFFA2000],
    [⟨31, 31, .rw, .any⟩, ⟨30, 29, .rw, .nat 0 2⟩, ⟨28, 24, .rw, .any⟩, ⟨23, 21, .rw, .any⟩, ⟨20, 18, .rw, .any⟩, ⟨17, 15, .rw, .any⟩, ⟨14, 12, .rw, .any⟩]⟩,
  ⟨0x24, 0x0, 1, [0x8000000],
    [⟨31, 31, .roh, .any⟩, ⟨30, 30, .roh, .any⟩, ⟨29, 29, .roh, .any⟩, ⟨28, 28, .roh, .any⟩, ⟨27, 27, .roh, .any⟩, ⟨23, 16, .roh, .any⟩]⟩,
  ⟨0x28, 0x0, 1, [0xFFFFF],
    [⟨19, 16, .roh, .any⟩, ⟨15, 12, .roh, .any⟩, ⟨11, 8, .roh, .any⟩, ⟨7, 4, .roh, .any⟩, ⟨3, 0, .roh, .any⟩]⟩,
  ⟨0x2C, 0x0, 1, [0x0],
    [⟨8, 8, .w1c, .any⟩, ⟨7, 7, .w1c, .any⟩, ⟨6, 6, .w1c, .any⟩, ⟨5, 5, .w1c, .any⟩, ⟨4, 4, .w1c, .any⟩, ⟨3, 3, .w1c, .any⟩, ⟨2, 2, .w1c, .any⟩, ⟨1, 1, .w1c, .any⟩, ⟨0, 0, .w1c, .any⟩]⟩,
  ⟨0x30, 0x0, 1, [0x0],
    [⟨2, 2, .wo, .any⟩, ⟨1, 1, .wo, .any⟩, ⟨0, 0, .wo, .any⟩]⟩,
  ⟨0x60, 0x4, 4, [0x40010001, 0x40020002, 0x40030003, 0x40040004],
    [⟨31, 16, .rw, .nat 16384 32767⟩, ⟨8, 0, .rw, .any⟩]⟩,
  ⟨0x40, 0x0, 1, [0x0],
    [⟨31, 0, .rw, .any⟩]⟩,
  ⟨0x44, 0x0, 1, [0x0],
    [⟨31, 0, .rw, .any⟩]⟩,
  ⟨0x48, 0x0, 1, [0x0],
    [⟨31, 0, .rw, .any⟩]⟩,
  ⟨0x4C, 0x0, 1, [0x0],
    [⟨31, 0, .rw, .ipmask⟩]⟩,
  ⟨0x50, 0x0, 1, [0x0],
    [⟨31, 0, .rw, .any⟩]⟩,
  ⟨0x54, 0x0, 1, [0xA],
    [⟨31, 0, .rw, .nat 3 600⟩]⟩,
  ⟨0x80, 0x0, 1, [0x0],
    [⟨31, 0, .roh, .any⟩]⟩,
  ⟨0x84, 0x0, 1, [0x0],
    [⟨31, 0, .roh, .any⟩]⟩,
  ⟨0x88, 0x0, 1, [0x0],
    [⟨31, 0, .roh, .any⟩]⟩,
  ⟨0x8C, 0x0, 1, [0x0],
    [⟨31, 0, .roh, .any⟩]⟩,
  ⟨0x90, 0x0, 1, [0x0],
    [⟨31, 0, .roh, .any⟩]⟩,
  ⟨0x94, 0x0, 1, [0x0],
    [⟨31, 0, .roh, .any⟩]⟩,
  ⟨0x98, 0x0, 1, [0x0],
    [⟨31, 0, .roh, .any⟩]⟩,
  ⟨0x9C, 0x0, 1, [0x0],
    [⟨31, 0, .roh, .any⟩]⟩,
  ⟨0xA0, 0x0, 1, [0x0],
    [⟨31, 0, .roh, .any⟩]⟩,
  ⟨0xA4, 0x0, 1, [0x0],
    [⟨31, 0, .roh, .any⟩]⟩,
  ⟨0x10, 0x0, 1, [0x0],
    [⟨31, 31, .w1c, .any⟩, ⟨30, 30, .w1c, .any⟩, ⟨29, 28, .roh, .any⟩, ⟨27, 24, .roh, .any⟩, ⟨23, 2, .roh, .any⟩]⟩]

/-- The HAL register map. -/
def rowsHAL : List RegRow := rowsHAL0

/-- Register map rows of the MBX registers: MBX_DATA, MBX_TAG, MBX_STAT, MBX_LOCK, MBX_EVT, MBX_EPOCH, MBX_LOCKOWN0, MBX_LOCKOWN1, MBX_LOCKBAD. -/
def rowsMBX0 : List RegRow := [
  ⟨0x100000, 0x20, 6, [0x0],
    [⟨31, 0, .rw, .any⟩]⟩,
  ⟨0x100004, 0x20, 6, [0x0],
    [⟨7, 4, .roh, .any⟩, ⟨3, 0, .roh, .any⟩]⟩,
  ⟨0x100008, 0x20, 6, [0x0],
    [⟨31, 31, .roh, .any⟩, ⟨30, 30, .w1c, .any⟩, ⟨29, 29, .w1c, .any⟩, ⟨28, 28, .w1c, .any⟩, ⟨27, 27, .w1c, .any⟩, ⟨23, 20, .roh, .any⟩, ⟨3, 0, .roh, .any⟩]⟩,
  ⟨0x100100, 0x4, 16, [0x0],
    [⟨31, 31, .rw, .any⟩, ⟨30, 30, .rw, .any⟩, ⟨3, 0, .rw, .any⟩]⟩,
  ⟨0x1000C4, 0x0, 1, [0x0],
    [⟨1, 1, .w1c, .any⟩, ⟨0, 0, .w1c, .any⟩]⟩,
  ⟨0x1000C0, 0x0, 1, [0x0],
    [⟨31, 0, .roh, .any⟩]⟩,
  ⟨0x100140, 0x0, 1, [0x0],
    [⟨31, 0, .roh, .any⟩]⟩,
  ⟨0x100144, 0x0, 1, [0x0],
    [⟨31, 0, .roh, .any⟩]⟩,
  ⟨0x100148, 0x0, 1, [0x0],
    [⟨31, 0, .roh, .any⟩]⟩]

/-- The MBX register map. -/
def rowsMBX : List RegRow := rowsMBX0

/-- Register map rows of the NVS registers: NVS_STAT, NVS_SEQ, NVS_WRITES, NVS_FAILS. -/
def rowsNVS0 : List RegRow := [
  ⟨0x110000, 0x0, 1, [0x0],
    [⟨31, 31, .roh, .any⟩, ⟨30, 30, .roh, .any⟩, ⟨29, 29, .roh, .any⟩, ⟨28, 28, .roh, .any⟩, ⟨27, 27, .roh, .any⟩, ⟨26, 26, .roh, .any⟩, ⟨15, 0, .roh, .any⟩]⟩,
  ⟨0x110004, 0x4, 2, [0x0],
    [⟨31, 0, .roh, .any⟩]⟩,
  ⟨0x11000C, 0x0, 1, [0x0],
    [⟨31, 0, .roh, .any⟩]⟩,
  ⟨0x110010, 0x0, 1, [0x0],
    [⟨31, 0, .roh, .any⟩]⟩]

/-- The NVS register map. -/
def rowsNVS : List RegRow := rowsNVS0

/-- Register map rows of the DKH registers: DKH_NVSTAT, DKH_STAT, DKH_EVT, DKH_CMD, DKH_WINCFG, DKH_WIN, DKH_SUP, DKH_RULE_A, DKH_RULE_B, DKH_RSTCNT, DKH_RTC, DKH_ALARM, DKH_NVSEQ, DKH_LOGNEXT, DKH_ACCERR. -/
def rowsDKH0 : List RegRow := [
  ⟨0xB0, 0x0, 1, [0x0],
    [⟨31, 31, .roh, .any⟩, ⟨30, 30, .roh, .any⟩, ⟨29, 29, .roh, .any⟩, ⟨28, 28, .roh, .any⟩, ⟨27, 27, .roh, .any⟩, ⟨26, 26, .roh, .any⟩, ⟨15, 0, .roh, .any⟩]⟩,
  ⟨0x0, 0x0, 1, [0x0],
    [⟨17, 17, .roh, .any⟩, ⟨16, 16, .roh, .any⟩, ⟨15, 12, .roh, .any⟩, ⟨11, 8, .roh, .any⟩, ⟨7, 0, .roh, .any⟩]⟩,
  ⟨0x4, 0x0, 1, [0x0],
    [⟨6, 6, .w1c, .any⟩, ⟨5, 5, .w1c, .any⟩, ⟨4, 4, .w1c, .any⟩, ⟨3, 3, .w1c, .any⟩, ⟨2, 2, .w1c, .any⟩, ⟨1, 1, .w1c, .any⟩, ⟨0, 0, .w1c, .any⟩]⟩,
  ⟨0x8, 0x0, 1, [0x0],
    [⟨1, 1, .wo, .any⟩, ⟨0, 0, .wo, .any⟩]⟩,
  ⟨0x40, 0x4, 8, [0x22FFF000],
    [⟨31, 31, .rw, .any⟩, ⟨30, 27, .rw, .nat 0 10⟩, ⟨26, 24, .rw, .any⟩, ⟨23, 12, .rw, .any⟩, ⟨11, 0, .rw, .any⟩]⟩,
  ⟨0x60, 0x4, 8, [0x40000000],
    [⟨31, 30, .roh, .any⟩, ⟨27, 16, .roh, .any⟩, ⟨11, 0, .roh, .any⟩]⟩,
  ⟨0x80, 0x4, 4, [0xC0032710],
    [⟨31, 31, .rw, .any⟩, ⟨30, 30, .rw, .any⟩, ⟨29, 28, .rw, .nat 0 2⟩, ⟨27, 27, .rw, .any⟩, ⟨19, 16, .rw, .nat 1 15⟩, ⟨15, 0, .rw, .nat 100 60000⟩]⟩,
  ⟨0x100, 0x8, 16, [0x0],
    [⟨31, 31, .rw, .any⟩, ⟨30, 28, .rw, .nat 0 3⟩, ⟨27, 24, .rw, .any⟩, ⟨23, 21, .rw, .any⟩, ⟨15, 0, .rw, .any⟩]⟩,
  ⟨0x104, 0x8, 16, [0x0],
    [⟨11, 8, .rw, .any⟩, ⟨5, 5, .rw, .any⟩, ⟨4, 4, .rw, .any⟩, ⟨3, 0, .rw, .nat 0 5⟩]⟩,
  ⟨0x90, 0x4, 4, [0x0],
    [⟨31, 0, .roh, .any⟩]⟩,
  ⟨0xA0, 0x0, 1, [0x0],
    [⟨31, 0, .rw, .any⟩]⟩,
  ⟨0xA4, 0x0, 1, [0x0],
    [⟨31, 0, .rw, .any⟩]⟩,
  ⟨0xB4, 0x4, 2, [0x0],
    [⟨31, 0, .roh, .any⟩]⟩,
  ⟨0xC0, 0x0, 1, [0x0],
    [⟨31, 0, .roh, .any⟩]⟩,
  ⟨0x10, 0x0, 1, [0x0],
    [⟨31, 31, .w1c, .any⟩, ⟨30, 30, .w1c, .any⟩, ⟨29, 28, .roh, .any⟩, ⟨27, 24, .roh, .any⟩, ⟨23, 2, .roh, .any⟩]⟩]

/-- The DKH register map. -/
def rowsDKH : List RegRow := rowsDKH0

/-- The register map of a polder block by its block number (R33); the empty list where no register block stands. -/
def blockRows (b : Nat) : List RegRow :=
  match b with
  | 0 => rowsPCT
  | 1 => rowsCLK
  | 2 => rowsTIM
  | 3 => rowsAFE
  | 4 => rowsFLT
  | 5 => rowsCAP
  | 6 => rowsSWG
  | 7 => rowsEMB
  | 8 => rowsMOD
  | 9 => rowsLRN
  | 10 => rowsGAL
  | 11 => rowsSTS
  | 12 => rowsDIK
  | 13 => rowsGLK
  | 14 => rowsFIO
  | 15 => rowsSPB
  | 16 => rowsMBX
  | 17 => rowsNVS
  | _ => []

end Sys2Proof.Machine
end

