-- ==== Sys2Proof/Machine/State.lean ====
section
/-!
DEFINITION. The state of the device as plain data: every register, queue, memory and timer that spec/ gives the polders, the Hall
and the Dikehouse, the queue of waiting commands, the reasons a step can stop, and the state after reset.

Instants are device time in femtoseconds (`Nat`), so that the 2.5 ns CLK_P cycle and the 78.125 ps bin of R46 are whole numbers.
Registers, the learner table, the gallery and the capture memory are one sparse list of words per window (`Cells`).
Internal values that the spec keeps with 60 fractional bits are integers scaled by 2^60.
-/
namespace Sys2Proof.Machine

/-- Reasons for which a step stops. -/
inductive Fault where
  /-- An event is offered at polder C or D while the part is an FGC4200, which has neither (R2, R3). Raised by every event row that
  names a polder. Safe: the spec gives the part no such polder on which anything could happen. -/
  | absentPolder (p : PolderId)
  deriving DecidableEq, Repr

/-- Reasons for which a command has no meaning in the model. -/
inductive Refusal where
  /-- A row of the opcode table whose meaning is not written yet; raised by arms of Machine/Dispatch.lean only. Safe. -/
  | notModelled (mnemonic : String)
  deriving DecidableEq, Repr

/-- A window's words, sorted by byte offset, none of them equal to the word the offset resets to (R32 to R35). -/
abbrev Cells := List (Nat × Word)

/-- A reply of a target to a command, waiting to be forwarded by the Hall (R402, R411): the target code, the session index, opcode and
`SEQ` of the command, status and detail (R405), and the reply payload. -/
structure Answer where
  target : Nat
  sess : Nat
  opcode : Nat
  seq : Nat
  status : Nat
  detail : Nat
  payload : List Byte
  deriving DecidableEq, Repr

/-- What a polder or the Dikehouse hands to the Hall within one step (R402, R412). -/
inductive Out where
  /-- a reply to a command -/
  | answer (a : Answer)
  /-- a notification to one session: session index, source target, status word, kind, flag, bytes from byte 4 on -/
  | toSession (sess target status kind flag : Nat) (body : List Byte)
  /-- a notification to the subscribers of a class (0 REGIME, 1 TRIP, 2 SAFETY, 3 TIME): class, source target, kind, body -/
  | toClass (cls target kind : Nat) (body : List Byte)
  /-- a DONE notification that also becomes the reply last sent for its `SEQ` (R288, R411): session, target, opcode, seq,
  status, detail, final payload -/
  | done (sess target opcode seq status detail : Nat) (payload : List Byte)
  /-- a datagram to an address and UDP port (R359) -/
  | datagram (ip port : Nat) (bytes : List Byte)
  deriving DecidableEq, Repr

/-- A command of a session whose outcome is still open in the polder: its session index, opcode and `SEQ`. -/
structure CmdRef where
  sess : Nat
  opcode : Nat
  seq : Nat
  deriving DecidableEq, Repr

/-! ### Stairs and sluices (spec/09) -/

/-- The states of a sluice (R273). -/
inductive SluiceState where
  | free | opened | scheduled | check
  deriving DecidableEq, Repr

/-- One staged entry (R275), with the count of entries staged before it in the polder, which orders conflicts (R283). -/
structure Entry where
  off : Nat
  mask : Word
  val : Word
  stamp : Nat
  deriving DecidableEq, Repr

/-- One sluice (R273 to R287). `commitAt` is the presented time of a timed commit in ns, `lastUse` the instant of the last staging,
`cmd` the command that a timed commit completes. -/
structure Sluice where
  st : SluiceState := .free
  owner : Nat := 0
  reason : Nat := 0
  timed : Bool := false
  reqGood : Bool := false
  entries : List Entry := []
  commitAt : Nat := 0
  lastUse : Nat := 0
  cmd : Option CmdRef := none
  deriving DecidableEq, Repr

/-- One stair (R264 to R272): its output with 60 fractional bits, the direction its present ramp moves in (1, -1, or 0 at its target), and
the instant its dwell ends while it stands on its landing. -/
structure Stair where
  out : Int := 0
  dir : Int := 0
  /-- target in force in the last update (R291) -/
  tgt : Int := 0
  dwellEnd : Option Nat := none
  deriving DecidableEq, Repr

/-- The stair and sluice unit of a polder: eight sluices, four stairs, and the count of entries ever staged. -/
structure StsState where
  sluices : Vector Sluice 8 := Vector.replicate 8 {}
  stairs : Vector Stair 4 := #v[{}, {}, { out := 1152921504606846976, tgt := 1152921504606846976 }, { out := 1152921504606846976, tgt := 1152921504606846976 }]
  stamp : Nat := 0
  /-- what the last update showed: `STS_STAT`, `STS_EVT`, and for each stair output, target in force and dwell remaining (R291) -/
  shown : Vector Word 14 := #v[0, 0, 0, 0, 0, 0, 0, 0, 268435456, 268435456, 0, 268435456, 268435456, 0]
  deriving DecidableEq, Repr

/-! ### Clock generator and time unit (spec/13) -/

/-- What the clock generator is doing beyond `CLK_STAT` (R374 to R376). -/
structure ClkState where
  /-- instant the present lock attempt, or the attempt before the present wait, started -/
  since : Nat := 0
  /-- stored-band attempts made in the present relock -/
  storedTries : Nat := 0
  /-- the PLL has been locked since boot -/
  everLocked : Bool := false
  /-- the stored band of the clock section: band, `NINT` and die temperature in degrees Celsius (R371) -/
  stored : Option (Nat × Nat × Int) := none
  /-- temperature of the analogue die in degrees Celsius as a row last gave it, and when -/
  temp : Int := 25
  tempAt : Option Nat := none
  /-- the PLL has locked and the delay lines are recalibrating -/
  calibrating : Bool := false
  deriving DecidableEq, Repr

/-- The Announce last received on a port for a domain: what its data set gives against that of another grandmaster as one number, lowest best, clockIdentity,
clockClass, its instant, stepsRemoved, and the identity of its sender. -/
structure AnnSeen where
  rank : Nat
  gm : Nat
  cls : Nat
  at' : Nat
  steps : Nat
  sender : Nat
  deriving DecidableEq, Repr

/-- A disciplined time base and its domain (R377 to R382): its value in fs when TBL stood at `atTbl`, the numbers of consecutive Sync offsets
within the good threshold and beyond twice it, the instants of the last valid message and of the last Sync. -/
structure BaseState where
  val : Int := 0
  atTbl : Int := 0
  good : Nat := 0
  bad : Nat := 0
  lastHeard : Nat := 0
  lastSync : Option Nat := none
  /-- grandmaster selected last -/
  gm : Option Nat := none
  /-- what each port last announced -/
  seen : Vector (Option AnnSeen) 2 := Vector.replicate 2 none
  /-- instants at which the domain last became LOCKED, and last left LOCKED -/
  lockedAt : Nat := 0
  leftAt : Option Nat := none
  deriving DecidableEq, Repr

/-- How presented time follows device time (R377, R384): TBL and its rate, the active base with its value where TBL stood at `atTbl` and its rate in 2^-40,
the correction and its slew, and whether CLK_P runs from the PLL. -/
structure TimMap where
  tbl : Int
  tblAt : Nat
  rateNum : Nat
  rateDen : Nat
  val : Int
  atTbl : Int
  rate : Int
  corr : Int
  corrAt : Int
  slew : Int
  pll : Bool
  deriving DecidableEq, Repr

/-- The time unit (R377 to R391). -/
structure TimState where
  /-- TBL in fs at the instant `tblAt` -/
  tbl : Int := 0
  tblAt : Nat := 0
  /-- rate of CLK_P against device time since `tblAt`, as a fraction -/
  rateNum : Nat := 1
  rateDen : Nat := 1
  tb0 : BaseState := {}
  tb1 : BaseState := {}
  /-- the correction C in fs when TBL stood at `corrAt` -/
  corr : Int := 0
  corrAt : Int := 0
  /-- cycle of TBL in which presented time last stepped (R386, R389) -/
  stepCyc : Option Int := none
  /-- a domain has been LOCKED since boot -/
  everLocked : Bool := false
  /-- `SET_TIME` has acted since boot -/
  everSet : Bool := false
  /-- the last 16 strobes of the Hall: Hall time in ns and TBL in fs -/
  strobes : List (Nat × Int) := []
  lastStrobe : Nat := 0
  /-- `HALL_LOST` has set for the strobes that are missing -/
  hallGone : Bool := false
  /-- the PPS output is high since this instant -/
  ppsHigh : Option Nat := none
  /-- how presented time runs, and how it ran before: until which instant, newest first, for the stamps of past instants (R391) -/
  map : Option TimMap := none
  past : List (Nat × TimMap) := []
  deriving DecidableEq, Repr

/-! ### Engines, mailboxes and locks (spec/15) -/

/-- A mailbox word with its tag (R429). -/
structure MbxWord where
  data : Word
  tag : BitVec 8
  deriving DecidableEq, Repr

/-- What one CLK_P cycle has brought a mailbox queue, for the rules about two things in one cycle (R431, R432). -/
structure MbxCycle where
  /-- the cycle, as a count of CLK_P cycles of device time -/
  at' : Nat := 0
  /-- a word that was pushed into the empty queue in it -/
  fresh : Bool := false
  /-- a word that the full queue refused in it, and whether `FULLWR` set with it -/
  refused : Option (MbxWord × Bool) := none
  /-- a pop in it emptied the queue and set `EMPTY` -/
  emptied : Bool := false
  /-- the receiver's reset began in it -/
  reset : Bool := false
  deriving DecidableEq, Repr

/-- Mailboxes, locks and engine state beyond the registers (R422 to R440). -/
structure EngState where
  /-- the six queues, head first (R428) -/
  queues : Vector (List MbxWord) 6 := Vector.replicate 6 []
  /-- instant since which each queue has been full without a pop (R430) -/
  fullSince : Vector (Option Nat) 6 := Vector.replicate 6 none
  /-- what the cycle of the latest access has brought each queue (R431, R432) -/
  traffic : Vector MbxCycle 6 := Vector.replicate 6 {}
  /-- owner of each lock, 0 when free (R434) -/
  locks : Vector Nat 16 := Vector.replicate 16 0
  /-- reads that found a lock held: cycle, lock, master; those of an earlier cycle count no more (R436) -/
  lockLost : List (Nat × Nat × Nat) := []
  /-- epochs of CE, SE, Hall bridge and Dikehouse (R425) -/
  epochCE : Nat := 0
  epochSE : Nat := 0
  epochHall : Nat := 0
  epochDkh : Nat := 0
  /-- locks that have changed hands by a read: cycle and lock; those of an earlier cycle count no more (R435) -/
  lockTook : List (Nat × Nat) := []
  /-- words of stale messages that the firmware has discarded at the head of each queue and not yet logged (R433) -/
  stale : Vector Nat 6 := Vector.replicate 6 0
  /-- code memories of the engines, as loaded; read-only to their engine (R422). What an engine does with its code is out of scope
  (spec/00_scope.md) -/
  ceCode : List Byte := []
  seCode : List Byte := []
  /-- data memories of the engines, 128 KiB each, the bytes that are not 0: cleared at every reset of the engine (R422, R425) -/
  ceData : List Host.Cell := []
  seData : List Host.Cell := []
  /-- cycle in which the error that `PCT_ACCERR` records occurred (R41) -/
  accAt : Nat := 0
  /-- single-bit errors corrected in the learner table, gallery, capture memory, filter memory and lane memory (R44) -/
  ecc1 : Vector Nat 6 := Vector.replicate 6 0
  /-- messages of the Hall that its FIFO to the polder has lost while CLK_P stood in SLEEP (R31); kept for the SE -/
  hallLost : Nat := 0
  /-- commands for which the restarted SE owes a DONE with status INTERNAL (R427) -/
  owed : List CmdRef := []
  deriving DecidableEq, Repr

/-! ### Modulator (spec/05) -/

/-- The level a leg is commanded to (R155); `off` is all switches off. -/
inductive LegLevel where
  | off | neg | zero | pos
  deriving DecidableEq, Repr

/-- Who asked for a level change (R154). -/
inductive MoveSource where
  | embankment | escape | timer | carrier | chopper | start
  deriving DecidableEq, Repr

/-- A level change that waits for its command instant. -/
structure Move where
  level : LegLevel
  at' : Nat
  src : MoveSource
  deriving DecidableEq, Repr

/-- A bootstrap refresh pulse in progress (R172): its start t_r, the next inner step (1 lower switch on, 2 lower switch off,
3 higher switch on again) and the instant of that step. -/
structure Refresh where
  tr : Nat
  step : Nat
  next : Nat
  /-- switches that only the higher, only the lower level has on, at the start of the pulse -/
  high : Nat
  low : Nat
  deriving DecidableEq, Repr

/-- Safe-state sequencing of one leg (R176 to R179): the instant of step 2 while it is outstanding, and the instant of its end. -/
structure LegSeq where
  step2At : Option Nat
  endAt : Nat
  deriving DecidableEq, Repr

/-- The COT or CFT timer of a leg (R163, R167): the command instant that started it, its end, and its midpoint while that reload is still to
come. -/
structure LegTimer where
  start : Nat
  ends : Nat
  mid : Option Nat
  deriving DecidableEq, Repr

/-- One edge that the modulator hands to a link (R160, R182, R293): its instant, the switch states after it (bit 0 S1 to bit 3 S4), the
sink step of switches that turn off and the source step of switches that turn on. -/
structure Edge where
  at' : Nat
  states : Nat
  sink : Nat
  source : Nat
  deriving DecidableEq, Repr

/-- One leg of the modulator. -/
structure Leg where
  level : LegLevel := .off
  /-- command instant of the last level change, or of a refresh pulse's final move (R159, R172) -/
  lastMove : Nat := 0
  moved : Bool := false
  /-- between the two steps of R157: the switches still to turn on, and when -/
  trans : Option (Nat × Nat) := none
  sched : List Move := []
  timer : Option LegTimer := none
  refresh : Option Refresh := none
  /-- instant from which the continuous time at the higher level counts (R172) -/
  highSince : Option Nat := none
  /-- t_r of the last refresh pulse that a bootstrap warning forced, and of the one that waits for its instant (R173) -/
  lastWarn : Option Nat := none
  warnAt : Option Nat := none
  seq : Option LegSeq := none
  /-- taken off alone by R308; stays off until switching starts again -/
  taken : Bool := false
  /-- end of the update period of the last references received (R181) -/
  refsUntil : Nat := 0
  /-- CPWM: the level the leg holds for the whole period when a pulse is dropped (R165) -/
  hold : Option LegLevel := none
  /-- level changes of the cycle in progress, not counting refresh pulses (R137) -/
  changes : Nat := 0
  /-- cycle of the last level change and the switch states before it: a safe-state demand of the same cycle drops the change (R175) -/
  changed : Option (Nat × Nat) := none
  deriving DecidableEq, Repr

/-- One double-buffered register (R167, R168): the value in force, and the writes since the last reload with their instants, oldest first.
The register itself holds the buffer. -/
structure Buffered where
  inForce : Nat := 0
  writes : List (Nat × Nat) := []
  deriving DecidableEq, Repr

/-- The modulator. -/
structure ModState where
  legs : Vector Leg 4 := Vector.replicate 4 {}
  per : Buffered := {}
  cmp : Vector Buffered 4 := Vector.replicate 4 {}
  ttmr : Vector Buffered 3 := Vector.replicate 3 {}
  /-- writes of double-buffered registers that sluices have committed and no update has taken yet: offset, mask, value (R169, R282) -/
  committed : List (Nat × Word × Word) := []
  /-- start of the carrier period in progress, while the carrier runs (R164) -/
  carrier : Option Nat := none
  /-- the centre reload of that period is still to come (R167) -/
  centreDue : Bool := false
  /-- dead times in force since the last swing-engine update, in bins (R158) -/
  dt : Vector Nat 4 := Vector.replicate 4 0
  /-- polder-wide safe-state sequencing is in progress (R175, R179) -/
  sequencing : Bool := false
  deriving DecidableEq, Repr

/-! ### Dike and gate links (spec/10) -/

/-- A message on a link (R297): code, payload bytes, the instant its last byte can have been sent, and the command that waits
for it. `purpose` 0 is a host command, 1 a self-test, 2 training. -/
structure LinkMsg where
  code : Nat
  payload : List Byte
  sentAt : Nat
  purpose : Nat
  cmd : Option CmdRef
  deriving DecidableEq, Repr

/-- One gate link beyond its registers (R292 to R301). -/
structure Link where
  txSeq : Nat := 0
  rxSeq : Option Nat := none
  /-- consecutive missing uplink frames (R301) -/
  missing : Nat := 0
  /-- consecutive compared reports above threshold, per switch (R307) -/
  l1 : Vector Nat 4 := Vector.replicate 4 0
  /-- instants of the edges on the link, newest first, as far back as a blanking reaches (R307, R232) -/
  edgeTimes : List Nat := []
  edges : List Edge := []
  /-- message outstanding, and messages that wait (R297) -/
  out : Option LinkMsg := none
  waiting : List LinkMsg := []
  /-- bytes of the outstanding message not yet sent on the downlink -/
  txBytes : List Byte := []
  txStarted : Bool := false
  /-- last switch states sent -/
  sentStates : Nat := 0
  /-- last downlink word sent, and last uplink word used -/
  lastTx : Word := 0
  /-- end of the window of the last frame sent; the ten-bit groups of that frame, and the disparity after it (R292, R293) -/
  txEnd : Nat := 0
  line : List (BitVec 10) := []
  disparity : Bool := false
  lastRx : Word := 0
  /-- byte of slot 6 kept for slot 7 (R296) -/
  rxByte : Byte := 0
  /-- response being received: code, length if known, bytes so far -/
  rxMsg : List Byte := []
  /-- instants of the present training step, and of the failure that a retry waits on -/
  trainSince : Nat := 0
  failedAt : Option Nat := none
  /-- frames of the present training step; a CRC error has occurred since CHECK -/
  trainFrames : Nat := 0
  /-- frames that announce the agreed version sent in the present NEGOTIATE (R298) -/
  trainSent : Nat := 0
  checkErr : Bool := false
  holdExpired : Bool := false
  /-- arrival of the report with which fault detail bit 6, an enable input low, last changed (R351) -/
  enableAt : Nat := 0
  /-- a RETRAIN command waits for this link -/
  retrain : Option CmdRef := none
  /-- frames that the receive FIFO has lost while CLK_P stood (R31); kept for the SE -/
  rxLost : Nat := 0
  deriving DecidableEq, Repr

/-- A window-comparator self-test in progress (R312): comparator, level number 0 to 3, start of the level, verdicts so far. -/
structure CmpTest where
  cmp : Nat
  level : Nat
  since : Nat
  failed : Bool
  untest : Bool
  pass : Nat
  fail : Nat
  untestable : Nat
  deriving DecidableEq, Repr

/-- The Dike beyond its registers. -/
structure DikeState where
  /-- instant at which each source last became active, and last became inactive -/
  activeAt : Vector Nat 14 := Vector.replicate 14 0
  inactiveAt : Vector Nat 14 := Vector.replicate 14 0
  /-- presented time at which each source last became active, as computed then (R305, R391) -/
  stampAt : Vector Int 14 := Vector.replicate 14 0
  /-- sources enabled when the Dike last settled (R304); CLK_P cycle of the last software trip (R303 bit 8) -/
  enabled : Nat := 0
  swAt : Option Nat := none
  /-- x_TRIPI as sampled at the pin and after its filter; the instant of its last edge -/
  tripiPin : Bool := false
  tripiLow : Bool := false
  tripiEdge : Nat := 0
  /-- x_TRIPO is driven low -/
  tripoLow : Bool := true
  /-- consecutive swing-engine updates with `SWG_VDC` outside the window (R303 bit 11) -/
  dcCount : Nat := 0
  dcOut : Bool := false
  /-- instant since which each thermal input holds at or above its limit; source held for 1 ms (R303 bit 13) -/
  thermSince : Vector (Option Nat) 2 := Vector.replicate 2 none
  therm : Bool := false
  /-- a phase leg is starved of references (R181) -/
  starved : Bool := false
  /-- L2 window: instant it opened and link of the first event (R308) -/
  l2Window : Option (Nat × Nat) := none
  /-- leg sequenced alone, whose end latches bit 2 -/
  l2Leg : Option Nat := none
  cmpTest : Option CmpTest := none
  /-- links whose gate-unit self-test is outstanding, and the command and test kinds of RUN_SELF_TEST -/
  guPending : List Nat := []
  stestCmd : Option CmdRef := none
  /-- comparator self-tests since entry to PRECHARGE have passed; links whose gate-unit self-test has passed since then (R94, R314) -/
  preCmpPass : Bool := false
  preGuPass : Nat := 0
  /-- links whose gate-unit self-test has been started since entry to PRECHARGE (R94) -/
  preGuRun : Nat := 0
  /-- latched bits whose safe-state sequencing has ended, for the GEN lines (R306) -/
  genLow : Nat := 0
  deriving DecidableEq, Repr

/-! ### Swing engine (spec/02) -/

/-- One past update, kept for the phase-jump and RoCoF checks of R108: its instant, arg(U1), ωg, and the phase that ωg has accumulated since
the engine started, in 2^-64 revolutions. -/
structure SwgPast where
  at' : Nat
  u1arg : Nat
  wg : Int
  pred : Nat
  deriving DecidableEq, Repr

/-- The swing engine beyond its registers. Values named in R54 carry 60 fractional bits. -/
structure SwgState where
  /-- the 64-bit phase accumulator (R58) -/
  acc : BitVec 64 := 0
  w : Int := 1152921504606846976
  wg : Int := 1152921504606846976
  e : Int := 0
  pf : Int := 0
  qf : Int := 0
  /-- last current references after the limit, d and q, positive and negative sequence -/
  irefD : Int := 0
  irefQ : Int := 0
  i2refD : Int := 0
  i2refQ : Int := 0
  /-- references of the update before, from which the interpolator ramps (R65) -/
  prevD : Int := 0
  prevQ : Int := 0
  prev2D : Int := 0
  prev2Q : Int := 0
  /-- last ed (R103) -/
  ed : Int := 0
  /-- anchor weight W -/
  anchorW : Int := 0
  /-- instant since which the clamp of R74 limits, and since which |e| stays below 1/256 rev (R77) -/
  clampSince : Option Nat := none
  errSince : Option Nat := none
  /-- the eleven words of the measurement group of the most recent completed update (R82); the registers hold the latched group -/
  meas : Vector Word 11 := #v[0, 0, 0, 0x10000000#32, 0, 0, 0, 0, 0, 0, 0]
  /-- presented time in ns of the sampling instant of the most recent update, and of the latched one -/
  measAt : Nat := 0
  latchAt : Nat := 0
  /-- `SWG_STAT` at the end of the most recent update (R84) -/
  measStat : Word := 0
  /-- the `SWG_` and `STS_` registers as the most recent update found them (R69, R282) -/
  cfg : Cells := []
  /-- line-to-line values of UA to UC of the updates of the last half-cycle, newest first, with their instants (R89) -/
  lines : List (Nat × Int × Int × Int) := []
  past : List SwgPast := []
  predAcc : Nat := 0
  lastAt : Nat := 0
  /-- U1 of the last update: magnitude and phase; ride voltage Vr; es and fs of R101; pg of R110 was non-zero -/
  u1 : Int := 0
  u1arg : Nat := 0
  vr : Int := 0
  es : Int := 0
  fs : Int := 0
  pgOn : Bool := false
  /-- VDP and VDN of the last update, in pu of the DC-link base -/
  vdp : Int := 0
  vdn : Int := 0
  /-- phase increment of the last update in 2^-64 revolutions, which the interpolator divides over the update period (R65) -/
  inc : Int := 0
  /-- ENERGISE or SYNC has been entered and the states are not yet set (R95, R101) -/
  init : Bool := false
  /-- the law ran in the last update -/
  ran : Bool := false
  deriving DecidableEq, Repr

/-! ### Regime machine (spec/03) -/

/-- A regime request waiting for its evaluation (R88): target, mode, the command that made it, and whether it was timed. -/
structure RegReq where
  target : Nat
  mode : Nat
  cmd : Option CmdRef
  timed : Bool
  deriving DecidableEq, Repr

/-- A breaker order that waits for its confirmation (R93): close or open, when given, and the `BREAKER` command that waits. -/
structure BrkOrder where
  close : Bool
  since : Nat
  cmd : Option CmdRef
  deriving DecidableEq, Repr

/-- The regime machine beyond its registers. -/
structure RegState where
  reqs : List RegReq := []
  enteredAt : Nat := 0
  /-- commanded breaker state, and the order that waits for confirmation -/
  brkCmd : Bool := false
  order : Option BrkOrder := none
  /-- the breaker was last closed by the command `BREAKER` in READY (R91) -/
  byCmd : Bool := false
  /-- a close that `BRK` follows after `SWG_BRK_TCLOSE` while `AUX_EN` is 0 (R93) -/
  closeAt : Option Nat := none
  /-- instants since which the grid voltage lies below, at or above `SWG_DEAD_V` (R89) -/
  belowSince : Option Nat := none
  aboveSince : Option Nat := none
  /-- instants since which the voltage is out of, back in the ride band (R104), and start of the ride time (R105) -/
  rideOutSince : Option Nat := none
  rideInSince : Option Nat := none
  rideFrom : Nat := 0
  /-- instants since which the conditions of R97 (ENERGISE settled), of R102 (SYNC) and of R99 (collision) hold -/
  settleSince : Option Nat := none
  syncSince : Option Nat := none
  collSince : Option Nat := none
  /-- the present ENERGISE was entered from a back-off wait; end of the wait -/
  backoff : Bool := false
  waitEnd : Option Nat := none
  /-- mode of the present stop: 0 SHED, 1 DE-ENERGISE; a stop whose ramp has ended, when its OPENING began -/
  stopMode : Nat := 0
  rampEnd : Option Nat := none
  opening : Option Nat := none
  /-- breaker lost (R112), a Dikehouse stop request (R462), waiting for the next evaluation -/
  brkLost : Bool := false
  dkhStop : Option Nat := none
  deriving DecidableEq, Repr

/-! ### Embankment controller (spec/04) -/

/-- A level change of a phase leg whose effective instant has not come (R129, R131): its level, that instant, whether it escapes outwards, whether
the controller committed it, and whether the modulator has begun it. -/
structure Coming where
  level : LegLevel
  eff : Nat
  escape : Bool
  own : Bool
  begun : Bool
  deriving DecidableEq, Repr

/-- One sample at the controller (R121, R122): its instant and decision instant, reference, current, slope of the reference ramp per second, flag,
and whether the fit may use it. -/
structure EmbSample where
  tn : Nat
  td : Nat
  ref : Int
  cur : Int
  rdot : Int
  flag : Nat
  fits : Bool
  deriving DecidableEq, Repr

/-- What the gallery takes of the controller from a decision instant beside the values of R151 (R201, R209): leg voltage, common-mode term, half-links,
neutral-point offset and filtered difference, trim, measured frequency, `EMB_STAT`, and the flags of the capacitor voltages and of the DC link. -/
structure EmbView where
  vleg : Int := 0
  vcm : Int := 0
  vhUp : Int := 0
  vhLo : Int := 0
  v0 : Word := 0
  vnp : Word := 0
  trim : Word := 0
  fswm : Word := 0
  stat : Word := 0
  flagV : Nat := 0
  flagDc : Nat := 0
  deriving DecidableEq, Repr

/-- What one decision instant shows (R151): the instant, error, slope in pu per second, band, reference, current and flag. -/
structure Decided where
  td : Nat
  err : Int
  slope : Option Int
  h : Int
  ref : Int
  cur : Int
  flag : Nat
  view : EmbView := {}
  deriving DecidableEq, Repr

/-- One phase of the embankment controller. Currents, errors and bands carry 60 fractional bits. -/
structure EmbPhase where
  /-- level the controller holds (R120) -/
  level : LegLevel := .off
  upper : Bool := false
  /-- sector that v_sel selects; none within the hysteresis, where the present sector holds (R140) -/
  selUpper : Option Bool := none
  /-- level changes whose effective instants have not come, oldest first -/
  coming : List Coming := []
  /-- effective instant of the leg's last level change, whatever its source (R124), and of its last move (R133) -/
  effAt : Option Nat := none
  moveEff : Option Nat := none
  /-- samples whose decision is still to come, oldest first (R122) -/
  pend : List EmbSample := []
  /-- samples the fit may use, newest first, at most 16: sampling instant and error -/
  fit : List (Nat × Int) := []
  /-- the sample of the last decision: instant, error, current, reference, slope of the reference ramp per second -/
  tn : Nat := 0
  err : Int := 0
  cur : Int := 0
  ref : Int := 0
  rdot : Int := 0
  flag : Nat := 0
  /-- the last two decision instants, newest first (R151) -/
  decided : List Decided := []
  /-- refresh window (R144) -/
  window : Option (Nat × Nat) := none
  /-- band half-width in force, leg-voltage estimate, trim factor (R135 to R138) -/
  h : Int := 0
  vleg : Int := 0
  trim : Int := 2 ^ 60
  /-- the leg has started switching and its first level is not yet set (R146) -/
  starting : Bool := false
  deriving DecidableEq, Repr

/-- The embankment controller. -/
structure EmbState where
  /-- values in force of the `EMB_` registers since the last swing-engine update (R148) -/
  cfg : Cells := []
  ph : Vector EmbPhase 3 := Vector.replicate 3 {}
  /-- half-links of R127, filtered neutral-point difference, σ and v0 of R142 -/
  vhUp : Int := 0
  vhLo : Int := 0
  vnp : Int := 0
  sigma : Int := 0
  /-- common-mode term of R127 -/
  vcm : Int := 0
  v0 : Int := 0
  /-- cycle in which `EMB_CNTCLR` was last written (R151) -/
  cleared : Option Nat := none
  deriving DecidableEq, Repr

/-! ### Analogue front end (spec/07) -/

/-- One window comparator (R230 to R232): acting as a source of trip bit 1, and the end of the mask after a threshold change. -/
structure CmpState where
  acting : Bool := false
  maskEnd : Nat := 0
  deriving DecidableEq, Repr

/-- An input test in progress (R229): inputs still to test with the present one first, level number, start of the level, the sums of 64 samples at
the present input's levels so far, results so far as input, offset in µV, gain error in 10^-6 and a failed flag, tolerances, and the command. -/
structure InputTest where
  inputs : List Nat
  level : Nat
  since : Nat
  sums : List Int
  results : List (Nat × Int × Int × Bool)
  offTol : Nat
  gainTol : Nat
  mask : Nat
  cmd : CmdRef
  failing : Bool := false
  /-- samples of the present level: how many, their sum, how many carried OVR, and how many not clean but for the test's own SUS -/
  count : Nat := 0
  sum : Int := 0
  ovrs : Nat := 0
  deriving DecidableEq, Repr

/-- The analogue front end beyond its registers. -/
structure AfeState where
  /-- start of the frame in progress, next slot, and a pending restart (R215 to R219) -/
  frameAt : Nat := 0
  slot : Nat := 0
  restart : Option Nat := none
  /-- slots of MC0 and MC1 that still carry SUS (R221) -/
  sus0 : Nat := 0
  sus1 : Nat := 0
  /-- consecutive failures and passes of the shared-slot check, and of the shadow check of each fast channel (R225) -/
  plsFail : Nat := 0
  plsPass : Nat := 0
  shdFail : Vector Nat 3 := Vector.replicate 3 0
  shdPass : Vector Nat 3 := Vector.replicate 3 0
  /-- fast channels whose shadow check stands in fault; `AFE_STAT.SHD_FAULT` is 1 while one does -/
  shdFault : Vector Bool 3 := Vector.replicate 3 false
  /-- converters settle until this instant (R232) -/
  settleEnd : Nat := 0
  /-- an input released from test carries SUS for this many further slots or samples (R227) -/
  released : Option (Nat × Nat) := none
  cmps : Vector CmpState 6 := Vector.replicate 6 {}
  test : Option InputTest := none
  /-- the last three fast codes per phase with their flags, newest first (R241) -/
  fast : Vector (List (Int × Nat)) 3 := Vector.replicate 3 []
  /-- sampling instant of the newest fast sample, and of the next one (R214) -/
  fastAt : Nat := 0
  fastNext : Nat := 0
  /-- a shadow sample that waits for the next fast sample: its instant, its input, its code, its flag (R223) -/
  shadow : Option (Nat × Nat × Int × Nat) := none
  deriving DecidableEq, Repr

/-! ### Recorders: gallery and capture (R201 to R208, R253 to R260) -/

/-- Samples of one channel collected for the row in progress: lowest, highest, sum, sum of squares, flag. -/
structure RecAcc where
  lo : Int
  hi : Int
  sum : Int
  sq : Nat
  flag : Nat
  last : Int
  deriving DecidableEq, Repr

/-- A recorder: the configuration in force at arming, the rows written since arming, the samples of the row in progress, the trigger, and
the recent samples of the trigger channel. -/
structure Recorder where
  cfg : Cells := []
  rows : Nat := 0
  count : Nat := 0
  acc : List RecAcc := []
  /-- instants of the rows still in the ring, newest first, in presented fs -/
  times : List Int := []
  /-- trigger time in presented fs, and the row (counted since arming) once it is known -/
  trigAt : Option Int := none
  trigRow : Option Nat := none
  /-- newest first: instant in presented fs and value of the trigger channel -/
  hist : List (Int × Int) := []
  /-- the value has been on the side from which a rising, a falling crossing starts -/
  upReady : Bool := false
  downReady : Bool := false
  /-- row period at arming, fs -/
  period : Nat := 0
  /-- cycle in which an edge of x_FIRE triggered (R260) -/
  fireCyc : Option Nat := none
  deriving DecidableEq, Repr

/-! ### Learner (spec/06) -/

/-- Contents of the learner section (R198): coefficients by word index, mask, bases, topology, cycle count, and the presented time of the save in
seconds, nanoseconds and fraction of a nanosecond (R46). -/
structure LrnSave where
  coef : Cells
  mask0 : Word
  mask1 : Word
  sbase : Word
  vbase : Word
  fnom : Nat
  topo : Nat
  cycles : Nat
  time : Nat
  timeNs : Nat := 0
  timeFr : Nat := 0
  deriving DecidableEq, Repr

/-- The learner beyond its registers. -/
structure LrnState where
  /-- values in force of the `LRN_` registers at offsets 0x000 to 0x030 (R196) -/
  inForce : Cells := []
  /-- W_L with 60 fractional bits (R194) -/
  wl : Int := 0
  /-- cycle in progress: in LEARN throughout, an update with ILIM, lowest and highest ω, sum of ω and number of updates -/
  learnAll : Bool := false
  ilim : Bool := false
  flagged : Bool := false
  wMin : Int := 0
  wMax : Int := 0
  wSum : Int := 0
  wCount : Nat := 0
  /-- lane L (R187, R245): error samples of the cycle in progress, newest first, at most 256, and the errors and flag of the last update of the law -/
  eps : List (Int × Int × Int) := []
  lastEps : Option ((Int × Int × Int) × Nat) := none
  /-- ended cycle whose set is being computed: its parameters in force, mean frequency in 2^-60 Hz, error samples in the order of the cycle -/
  job : Option (Cells × Int × List (Int × Int × Int)) := none
  /-- the later of the two table indices read last (R189) -/
  lastRead : Nat := 4095
  /-- a sweep is in progress since this instant; it was started by an update (counts a cycle) -/
  sweepFrom : Option Nat := none
  /-- index at which the sweep began to write, and the number of indices it has written (R191) -/
  sweepBase : Option Nat := none
  swept : Nat := 0
  sweepCounts : Bool := false
  /-- entry limit of the sweep in progress -/
  clim : Int := 0
  /-- the warm start check has been made since boot -/
  warmDone : Bool := false
  /-- time spent in LEARN since the last automatic save, and the instant it was last advanced -/
  learnTime : Nat := 0
  learnAt : Nat := 0
  /-- the warm-start or command restore whose sweep delays the rise -/
  restoring : Bool := false
  /-- a save waits for the NV write that will carry it; the write in progress carries one (R198) -/
  saving : Bool := false
  storing : Bool := false
  /-- the learner section as stored -/
  stored : Option LrnSave := none
  /-- double-bit errors counted in the learner table (R44); the spec gives the count no register -/
  ecc : Nat := 0
  /-- offsets of the entries that have had one and have not been rewritten since -/
  bad : List Nat := []
  deriving DecidableEq, Repr

/-! ### Metering, sampled values, capture (spec/08) -/

/-- A sample of lane S handed to the Hall and not sent yet (R251, R252): k, smpSynch, the eight values with their Quality, the
instant of the handover. -/
structure SvOut where
  k : Nat
  synch : Nat
  vals : List (Int × Nat)
  at' : Nat
  deriving DecidableEq, Repr

/-- A cycle of lane P whose 256 instants are known (R245 to R247): the reference in use, its first and its last instant, the wrap that ends it, and
whether the reference changes there. -/
structure LaneCycle where
  ref : Nat
  first : Nat
  last : Nat
  wrap : Nat
  changes : Bool
  deriving DecidableEq, Repr

/-- The resampler (R245, R246). -/
structure LaneState where
  /-- reference phase of lane P since its last wrap, in 2^-64 revolutions, and the instant it was last advanced to -/
  phase : Int := 0
  phaseAt : Option Nat := none
  /-- the lane is within a cycle; number of the next instant, 256 the wrap -/
  on : Bool := false
  next : Nat := 256
  /-- first and newest instant of the cycle in progress -/
  first : Nat := 0
  last : Nat := 0
  /-- instants of lane P of the cycles not yet metered, oldest first, and those cycles whose 256 instants are known -/
  times : List Nat := []
  cycles : List LaneCycle := []
  /-- values of streams 0 to 10 at these instants with their flags, as far as their outputs reach -/
  vals : Vector (List (Int × Nat)) 11 := Vector.replicate 11 []
  /-- newest output that each stream gave the lanes: the instant it represents, and its value -/
  newest : Vector (Option (Nat × Int)) 15 := Vector.replicate 15 none
  /-- sums and number of the outputs of streams 11 to 14 since the last metered cycle -/
  slow : Vector Int 4 := Vector.replicate 4 0
  slowN : Nat := 0
  /-- lane S: samples of IA, IB, IC, UA, UB and UC not yet handed over, oldest first: their number since second 0, value and flag -/
  sv : Vector (List (Nat × Int × Nat)) 6 := Vector.replicate 6 []
  deriving DecidableEq, Repr

/-- The filter block beyond its registers. -/
structure FltState where
  /-- the newest complete block, of which the registers hold the latched copy (R250): 64 quantities, then ns, seconds low, high; its cycles,
  and those of the latched copy -/
  block : Vector Word 67 := Vector.replicate 67 0
  blockN : Nat := 0
  latchN : Nat := 0
  /-- block in progress: sums of its quantities with 60 fractional bits, its duration in fs, the flags of its samples, its reference, and its
  last sample's instant -/
  acc : Vector Int 64 := Vector.replicate 64 0
  durSum : Nat := 0
  flags : Nat := 0
  blkRef : Nat := 2
  blkLast : Nat := 0
  /-- largest median current, lowest and highest DC-link value since the last block, in pu -/
  peak : Int := 0
  vdcLo : Option Int := none
  vdcHi : Option Int := none
  /-- energies since boot in 2^-60 VA fs: active exported, imported, reactive exported, imported; cycles metered since boot -/
  energy : Vector Nat 4 := Vector.replicate 4 0
  metered : Nat := 0
  /-- samples handed to the Hall, oldest first -/
  svOut : List SvOut := []
  /-- the lanes -/
  lane : LaneState := {}
  /-- instants until which each stream's outputs of path C and of path M carry OVR, SUS and the invalid flag (R242, R244) -/
  ovrC : Vector Nat 15 := Vector.replicate 15 0
  ovrM : Vector Nat 15 := Vector.replicate 15 0
  susC : Vector Nat 15 := Vector.replicate 15 0
  susM : Vector Nat 15 := Vector.replicate 15 0
  invC : Vector Nat 15 := Vector.replicate 15 0
  invM : Vector Nat 15 := Vector.replicate 15 0
  /-- path C and path M responses in force (R244) -/
  resp : Vector Word 15 := Vector.replicate 15 0
  /-- newest output of path C of each stream in chain format with its flag -/
  lastC : Vector (Int × Nat) 15 := Vector.replicate 15 (0, 0)
  deriving DecidableEq, Repr

/-- The capture pins beyond `CAP_STAT` (R259, R260). -/
structure CapState where
  rec' : Recorder := {}
  /-- the unit pulses x_FIRE low until this instant -/
  pulseEnd : Option Nat := none
  /-- the unit drives x_FIRE low -/
  driving : Bool := false
  deriving DecidableEq, Repr

/-! ### Field inputs and outputs (spec/11) -/

/-- One field input (R320 to R322): raw level at the pin, its instant, counter of the filter in fs, filtered state, and the presented time of the raw transition at
which the counter last left the opposite extreme. -/
structure FieldIn where
  raw : Bool := false
  rawAt : Nat := 0
  count : Nat := 0
  countAt : Nat := 0
  filt : Bool := false
  left : Int := 0
  deriving DecidableEq, Repr

/-- One field output (R325 to R337). -/
structure FieldOut where
  /-- end of the read-back mask -/
  maskEnd : Nat := 0
  /-- no test pulse before: 1 ms after the end of another output's pulse in which this one fell due (R334) -/
  notBefore : Nat := 0
  /-- thermal shutdown in progress since -/
  shut : Option Nat := none
  hot : Bool := false
  /-- start of the time for which the output has been driven on without a break, or end of the last pulse -/
  onSince : Option Nat := none
  /-- test pulse in progress: start, and whether it has been discarded by a turn-off order -/
  pulse : Option Nat := none
  discard : Bool := false
  deriving DecidableEq, Repr

/-- One entry of the event queue (R323, R338). -/
structure FieldEvent where
  src : Nat
  level : Bool
  /-- event time: 2^-16 ns fraction, ns, seconds -/
  frac : Nat
  nanos : Nat
  secs : Nat
  deriving DecidableEq, Repr

/-- The field die and its interface. -/
structure FioState where
  ins : Vector FieldIn 8 := Vector.replicate 8 {}
  outs : Vector FieldOut 4 := Vector.replicate 4 {}
  queue : List FieldEvent := []
  /-- LP_x at or above 18.0 V since this instant, `none` while below -/
  lpSince : Option Nat := none
  deriving DecidableEq, Repr

/-! ### Safe pulse block (spec/12) -/

/-- A comparison window (R356): sequence, first copy, its port, start. -/
structure StometWin where
  seq : Nat
  bytes : List Byte
  port : Nat
  since : Nat
  deriving DecidableEq, Repr

/-- The safe pulse block beyond its registers. -/
structure SpbState where
  /-- lane 1 runs; lane 2 is powered and runs -/
  lane1 : Bool := false
  lane2 : Bool := false
  /-- lane 2: its demand, its four filtered inputs, its parameters are loaded, its copy is intact -/
  demand2 : Bool := true
  inputs2 : Nat := 0
  loaded2 : Bool := false
  /-- instants of the last valid message from each lane, and of the start of a disagreement -/
  heard1 : Nat := 0
  heard2 : Nat := 0
  disagree : Option Nat := none
  /-- the same as lane 2 finds it in what it hears from lane 1 -/
  disagree2 : Option Nat := none
  /-- lane 2's copy of the parameters, and lane 1's, differs from the confirmed set -/
  corrupt : Bool := false
  corrupt1 : Bool := false
  /-- command of each gate-enable line and the instant of its last change; lines whose read-back was last seen to differ (R352) -/
  genCmd : Vector Bool 2 := Vector.replicate 2 false
  genAt : Vector Nat 2 := Vector.replicate 2 0
  rbOff : Nat := 0
  /-- start of the discrepancy of SP1 and SP2; both inputs have been low together since the latch -/
  disc : Vector (Option Nat) 2 := Vector.replicate 2 none
  discLatched : Vector Bool 2 := Vector.replicate 2 false
  discSeen : Vector Bool 2 := Vector.replicate 2 false
  /-- the NET source: a frame that permits has been accepted and not withdrawn -/
  permit : Bool := false
  /-- a frame has been accepted since the latch of source 7 -/
  connClear : Bool := false
  windows : List StometWin := []
  /-- first valid frame after start is accepted with any SEQ until this is true -/
  started : Bool := false
  lastAccepted : Nat := 0
  /-- the watchdog has expired since the last accepted frame -/
  wdogDone : Bool := false
  /-- a lane started at; frames last heard on ETH-A and ETH-B; comparison resumed on each -/
  laneAt : Nat := 0
  heardAt : Vector Nat 2 := Vector.replicate 2 0
  resumed : Vector Bool 2 := Vector.replicate 2 false
  /-- networks up since (ETH-A, ETH-B) -/
  upSince : Vector (Option Nat) 2 := Vector.replicate 2 none
  /-- acknowledged and waiting for the enable-path test -/
  acked : Bool := false
  /-- CLK_P cycle of the last acknowledgement taken (R348) -/
  ackCycle : Option Nat := none
  /-- enable-path test in progress: phase and its start. An even phase 2m has switch m open, the odd one after it has it closed again; postponed -/
  test : Option (Nat × Nat) := none
  testWanted : Bool := false
  /-- commands that wait for the test -/
  waiting : List CmdRef := []
  ageAt : Nat := 0
  txSeq : Nat := 0
  txAt : Nat := 0
  /-- salted hash of the password (R363): salt draw and digest; consecutive wrong passwords; end of the lockout -/
  password : Option (Nat × List Byte) := none
  wrong : Nat := 0
  lockEnd : Option Nat := none
  /-- parameter set confirmed, as stored: the 28 bytes -/
  confirmed : Option (List Byte) := none
  /-- change log, newest first, at most 64 (R364) -/
  log : List (List Byte) := []
  /-- the lane sleeps (R454) -/
  asleep : Bool := false
  deriving DecidableEq, Repr

/-! ### Boot, firmware, persistent storage, logs, monitor (spec/16, spec/17) -/

/-- A log record (R478). Its check is computed when the record is printed. -/
structure LogRec where
  number : Nat
  secs : Nat
  nanos : Nat
  flags : Nat
  source : Nat
  code : Nat
  boot : Nat
  data : List Byte
  deriving DecidableEq, Repr

/-- Firmware states of `PCT_BOOT.FWSTATE` (R450). -/
inductive FwState where
  | confirmed | trialPending | trialRunning | reverted
  deriving DecidableEq, Repr

/-- The boot section (R450). -/
structure BootSec where
  active : Nat
  trial : Nat
  state : FwState
  minRb : Nat
  timeout : Nat
  deriving DecidableEq, Repr

/-- The safety section (R362, R467): the 28 bytes, check value, password hash, enable-path test age. -/
structure SafetySec where
  set' : List Byte
  crc : Word
  password : Option (Nat × List Byte)
  age : Nat
  deriving DecidableEq, Repr

/-- The clock section (R369, R371): `CLK_CFG`, `CLK_FRAC`, `CLK_FREF`, and the stored band with its `NINT` and temperature. -/
structure ClockSec where
  cfg : Word
  frac : Word
  fref : Word
  band : Option (Nat × Nat × Int)
  deriving DecidableEq, Repr

/-- The sections of a polder's NV record (R467). -/
structure NvRecord where
  boot : Option BootSec := none
  clock : Option ClockSec := none
  safety : Option SafetySec := none
  changeLog : Option (Nat × List (List Byte)) := none
  learner : Option LrnSave := none
  events : Option (List LogRec) := none
  deriving DecidableEq, Repr

/-- One bank (R466): magic, layout version, sequence, length of the sections, what the sections hold, CRC. -/
structure NvBank where
  magic : Word := 0
  version : Nat := 0
  seq : Nat := 0
  length : Nat := 0
  data : NvRecord := {}
  crc : Word := 0
  deriving DecidableEq, Repr

/-- The NV store of a polder: two banks, the record that the next write stores, whether it differs from the bank in use and since when, the
write in progress (bank, start, whether it is the retry), the end of the last write, and the answers that wait for the write. -/
structure NvState where
  bank0 : NvBank := {}
  bank1 : NvBank := {}
  image : NvRecord := {}
  dirtySince : Option Nat := none
  /-- section that changed first, for a failure record -/
  dirtySect : Nat := 0
  writing : Option (Nat × Nat × Bool) := none
  /-- the record being written, and the section that changed first in it -/
  writeData : NvRecord := {}
  writeSect : Nat := 0
  lastEnd : Nat := 0
  deriving DecidableEq, Repr

/-- Firmware, boot and power of a polder. -/
structure BootState where
  /-- the flash that the integrator fitted answers command 0x9F (R503); its bytes -/
  flashFitted : Bool := true
  flash : List Host.Cell := []
  /-- erase in progress: slot, start, command -/
  erase : Option (Nat × Nat × Option CmdRef) := none
  /-- keys revoked for this polder (one-time memory, R448) -/
  revoked : Nat := 0
  bootCount : Nat := 0
  /-- reset cause of the boot in progress, and instant of its t0 -/
  cause : Nat := 0
  t0 : Nat := 0
  /-- firmware trial ends at -/
  trialEnd : Option Nat := none
  /-- rails VDD_x and VDDA_x within limits; EXTEST selected -/
  vdd : Bool := false
  vdda : Bool := false
  extest : Bool := false
  deriving DecidableEq, Repr

/-- Polder log (R477 to R480): SRAM store newest first, records of the present second stored in NV. -/
structure LogState where
  sram : List LogRec := []
  nextNo : Nat := 1
  burstAt : Nat := 0
  burst : Nat := 0
  deriving DecidableEq, Repr

/-- The monitor's answer to a command (R483): words printed in order, and the status, 0 for `OK`. -/
structure MonOut where
  words : List Word
  bytes : List Byte
  status : Nat
  deriving DecidableEq, Repr

/-- The Movia monitor beyond `PCT_MONSTAT` (R483 to R487). -/
structure MonState where
  lastInput : Nat := 0
  /-- challenge in force: its 8 bytes and its instant -/
  challenge : Option (List Byte × Nat) := none
  lockEnd : Option Nat := none
  /-- the slot that unlocked holds the role ADMIN -/
  admin : Bool := false
  /-- end of the last answer, newest first -/
  answers : List MonOut := []
  deriving DecidableEq, Repr

/-! ### A polder -/

/-- What the CLK_P cycle in progress has brought so far, for the rules about two things in one cycle (R38, R284). -/
structure CycleState where
  /-- the cycle, as a count of CLK_P cycles of device time -/
  at' : Nat := 0
  /-- event bits that hardware has set in it: register and bits -/
  sets : List (Nat × Word) := []
  /-- event bits that the step in progress has set; empty between steps -/
  fresh : List (Nat × Word) := []
  /-- direct writes of the CE and of the monitor in it, newest first: sender ID, register, bits, value -/
  direct : List (Nat × Nat × Word × Word) := []
  /-- outputs ordered in it: sender ID and mask (R326) -/
  orders : List (Nat × Nat) := []
  /-- registers that a commit has written in it (R487) -/
  commits : List Nat := []
  deriving DecidableEq, Repr

/-- Whether a polder is powered and running (R22, R441): off or held in reset, booting before t5, awake, asleep, or waking. -/
inductive Power where
  | off | booting | awake | asleep | waking
  deriving DecidableEq, Repr

/-- A polder. `regs` holds its whole window: registers, learner table, gallery and capture memory. -/
structure Polder where
  id : PolderId
  power : Power
  regs : Cells
  sts : StsState
  clk : ClkState
  tim : TimState
  eng : EngState
  mdl : ModState
  dike : DikeState
  links : Vector Link 4
  swg : SwgState
  rgm : RegState
  emb : EmbState
  afe : AfeState
  gal : Recorder
  lrn : LrnState
  flt : FltState
  cap : CapState
  fio : FioState
  spb : SpbState
  nv : NvState
  boot : BootState
  log : LogState
  mon : MonState
  cyc : CycleState
  /-- what the polder hands to the Hall in the step in progress; empty between steps -/
  out : List Out
  /-- count of draws of free values (the model's own, not the spec's) -/
  free : Nat
  deriving DecidableEq, Repr

/-! ### The Hall (spec/14) -/

/-- A notification kept for a session (R413): its `SEQ`, source target, status word, kind, flag and body. -/
structure Note where
  seq : Nat
  target : Nat
  status : Nat
  kind : Nat
  flag : Nat
  body : List Byte
  deriving DecidableEq, Repr

/-- A session (R406 to R413). `role` 0 OBSERVER, 1 OPERATOR, 2 ADMIN; `slot` 8 is the unauthenticated SPI session. -/
structure Session where
  idx : Nat
  id : Nat
  ver : Nat
  src : Source
  role : Nat
  mask : Nat
  slot : Nat
  /-- session key of 32 bytes; empty in an unauthenticated session -/
  key : List Byte
  /-- polder bound in version 1.0 -/
  bound : Nat
  lastSeq : Nat
  /-- reply last sent for `lastSeq`: status, detail, payload, opcode, target; `none` while it is not final (R404) -/
  lastReply : Option Answer
  /-- where repetitions of the command `lastSeq` came from, whose reply is not there yet (R404) -/
  repeats : List Source
  lastSeen : Nat
  classes : Nat
  targets : Nat
  noteSeq : Nat
  notes : List Note
  deriving DecidableEq, Repr

/-- A key slot (R408). -/
structure KeySlot where
  key : List Byte
  role : Nat
  mask : Nat
  deriving DecidableEq, Repr

/-- A command in the Hall's queue for a target (R414). -/
structure Queued where
  opcode : Nat
  cmd : Cmd
  src : Source
  tagged : Bool
  /-- instant its packet completed -/
  at' : Nat
  deriving DecidableEq, Repr

/-- A command delivered and not answered finally (R411, R414): `late` once TIMEOUT has been sent, `pending` once
ACCEPTED_PENDING has, `unread` while its words stand in the queue of an SE that does not run (R427). -/
structure InFlight where
  q : Queued
  target : Nat
  late : Bool
  pending : Bool
  unread : Bool
  deriving DecidableEq, Repr

/-- The lease of a token (R410): the holder's session index and the instant it lapses. -/
structure Lease where
  holder : Nat
  until' : Nat
  deriving DecidableEq, Repr

/-- What the Hall has sent. Frames leave on both ports with the sequence number `prp` in their PRP trailers (R394) and the priority
code point `pcp` (R396). -/
inductive Sent where
  /-- a UDP datagram: the MAC address that the cache gives for its next hop (none: the cache gives none), IPv4 address and port (R394, R395, R402) -/
  | udp (prp pcp : Nat) (mac : Option Nat) (ip from' port : Nat) (bytes : List Byte)
  /-- another frame: destination MAC address, EtherType, the bytes after the EtherType -/
  | frame (prp pcp dest etherType : Nat) (bytes : List Byte)
  /-- an ICMP echo reply to an IPv4 address, with its data; `mac` as for a datagram (R395) -/
  | echo (prp pcp : Nat) (mac : Option Nat) (ip : Nat) (data : List Byte)
  /-- bytes driven on H_SPI_MISO (R397) -/
  | spi (bytes : List Byte)
  deriving DecidableEq, Repr

/-- The Hall. `regs` holds the values read; `applied` the configuration in force (R417). -/
structure Hall where
  up : Bool := false
  regs : Cells := []
  applied : Cells := []
  keys : Vector (Option KeySlot) 8 := Vector.replicate 8 none
  sessions : List Session := []
  tokens : Vector (Option Lease) 5 := Vector.replicate 5 none
  /-- queues of the Hall itself (0), the polders (1 to 4) and the Dikehouse (5) -/
  queues : Vector (List Queued) 6 := Vector.replicate 6 []
  inFlight : List InFlight := []
  /-- Hall time in ns as the last strobe carried it, and the instant of the strobe (R378) -/
  timeRef : Option (Nat × Nat) := none
  /-- the Pdelay_Req last sent for each port, and the sequence number of the next (R387) -/
  pdAt : Vector (Option Nat) 2 := Vector.replicate 2 none
  pdSeq : Vector Nat 2 := Vector.replicate 2 0
  /-- the packet that entered the interpreter last: its Hall clock cycle, and the rank of its port in R399 -/
  entered : Nat × Nat := (0, 0)
  /-- W1C bits that hardware has set: cycle of the Hall clock, register, bits (R38) -/
  sets : List (Nat × Nat × Word) := []
  /-- replies and DONE notifications of the targets, oldest first, that wait to be forwarded -/
  replies : List Out := []
  /-- everything sent, oldest first -/
  sent : List Sent := []
  /-- packets waiting for the SPI host: bytes, and whether it is a notification (R398) -/
  spiOut : List (List Byte × Bool) := []
  /-- command packet in the SPI receive buffer (R397, R398) -/
  spiRx : Option (List Byte) := none
  /-- failure replies of steps 2 to 4 sent per interface within the last second (R403): interface 0 SPI, 1 ETH -/
  failTimes : List (Nat × Nat) := []
  icmpTimes : List Nat := []
  /-- duplicate discard: source MAC, sequence number, instant (R394) -/
  prpSeen : List (Nat × Nat × Nat) := []
  prpSeq : Nat := 0
  /-- reply destinations: address, MAC, instant (R395) -/
  arp : List (Nat × Nat × Nat) := []
  /-- sequence number of the next supervision frame (R394) -/
  supSeq : Nat := 0
  /-- last supervision frame (R394) -/
  supAt : Option Nat := none
  /-- svID and confRev of each polder (R416) -/
  svId : Vector (List Byte) 4 := Vector.replicate 4 []
  svRev : Vector Nat 4 := Vector.replicate 4 1
  epoch : Nat := 0
  /-- entries that the FIFO of each polder to the Hall has lost while the Hall's clock stood (R31); kept for the SE -/
  fifoLost : Vector Nat 4 := Vector.replicate 4 0
  /-- single-bit errors of the packet buffers (R43, R44) -/
  ecc1 : Nat := 0
  /-- Hall clock cycle in which the error that `HAL_ACCERR` records occurred (R41, R42) -/
  accAt : Nat := 0
  deriving DecidableEq, Repr

/-! ### The Dikehouse (spec/16) -/

/-- A guarded action pending for a polder (R461): action code, instant of the STOP request, instant of the TRIP written at
its expiry, whether a lost heartbeat asked for it (R464), and the reset cause. -/
structure Guard where
  action : Nat
  since : Nat
  tripped : Option Nat
  sup : Bool
  cause : Nat
  deriving DecidableEq, Repr

/-- Dikehouse data of one polder. -/
structure DkhPolder where
  guard : Option Guard := none
  /-- TRIP_RESTART: the RESTART follows at this instant without a guard (R463) -/
  restartAt : Option Nat := none
  /-- reset held until -/
  resetEnd : Option Nat := none
  /-- value last read from PCT_HBEAT and the instant it last changed -/
  hbValue : Word := 0
  hbAt : Nat := 0
  /-- the loss of the heartbeat has been acted on; cleared when it moves, and at each boot -/
  lost : Bool := false
  /-- policy requested for the next evaluation: 0 RESTART, 1 TRIP_RESTART, 3 OFF under R464 -/
  wanted : Option Nat := none
  /-- instants of the restarts within the last 60 minutes (R464) -/
  restarts : List Nat := []
  /-- power switch closed -/
  closed : Bool := false
  deriving DecidableEq, Repr

/-- Record of the device NV banks (R467): network, sampled values, keys, Dikehouse configuration, patch, device log. -/
structure DevRecord where
  network : Option Cells := none
  sv : Option (Vector (List Byte) 4 × Vector Nat 4) := none
  keys : Option (Vector (Option KeySlot) 8) := none
  dkh : Option Cells := none
  patch : Option (List Byte) := none
  events : Option (List LogRec) := none
  deriving DecidableEq, Repr

/-- One device bank (R466). -/
structure DevBank where
  magic : Word := 0
  version : Nat := 0
  seq : Nat := 0
  length : Nat := 0
  data : DevRecord := {}
  crc : Word := 0
  deriving DecidableEq, Repr

/-- The Dikehouse. -/
structure Dikehouse where
  up : Bool := false
  regs : Cells := []
  pols : Vector DkhPolder 4 := Vector.replicate 4 {}
  /-- filtered watch values y with 20 fractional bits -/
  filt : Vector Nat 8 := Vector.replicate 8 0
  /-- evaluation since which each rule's condition has held, and whether it has fired and waits for its condition to end -/
  held : Vector (Option Nat) 16 := Vector.replicate 16 none
  fired : Vector Bool 16 := Vector.replicate 16 false
  lastEval : Nat := 0
  /-- Dikehouse time: `DKH_RTC` stood at its value at this instant -/
  rtcAt : Nat := 0
  /-- actions requested by `POLDER_POWER` for the next evaluation: polder mask, action, command -/
  requests : List (Nat × Nat × CmdRef) := []
  wakeLow : Bool := false
  /-- device NV banks -/
  bank0 : DevBank := {}
  bank1 : DevBank := {}
  image : DevRecord := {}
  /-- W1C bits that hardware has set: cycle of the Dikehouse clock, register, bits (R38) -/
  sets : List (Nat × Nat × Word) := []
  dirtySince : Option Nat := none
  dirtySect : Nat := 0
  writing : Option (Nat × Nat × Bool) := none
  writeData : DevRecord := {}
  lastEnd : Nat := 0
  /-- replies of setting commands that wait for the device NV write: their answers -/
  waiting : List Answer := []
  /-- how many of them the write in progress covers -/
  covered : Nat := 0
  /-- cycle in which the error that `DKH_ACCERR` records occurred (R41, R42) -/
  accAt : Nat := 0
  bootCount : Nat := 0
  sram : List LogRec := []
  nextNo : Nat := 1
  out : List Out := []
  /-- entries of its FIFO to the Hall lost while the Hall's clock stood (R31), and single-bit errors of its memory (R43, R44) -/
  fifoLost : Nat := 0
  ecc1 : Nat := 0
  deriving DecidableEq, Repr

/-! ### The device -/

/-- Rails of R494 that belong to the device, and the pin `TESTEN` (R493); a polder's own rails stand in its `boot`. -/
structure RailState where
  vaon : Bool
  vddH : Bool
  vddio : Bool
  testen : Bool
  deriving DecidableEq, Repr

/-- The machine: part, device time in fs, rails, the four polders (C and D unused on the FGC4200), the Hall, the Dikehouse, the count of
draws of free values (the model's own, not the spec's), and the queue of waiting commands. -/
structure State where
  part : Part
  now : Nat
  rails : RailState
  polA : Polder
  polB : Polder
  polC : Polder
  polD : Polder
  hall : Hall
  dkh : Dikehouse
  free : Nat
  pending : List Instr
  deriving DecidableEq, Repr

/-! ### Reset values

A structure's defaults above are its reset values: timers not running, queues empty, nothing latched. What differs from them stands here. -/

/-- A buffered register at reset, with its value in force. -/
def resetBuf (v : Nat) : Buffered := { inForce := v }

/-- The modulator at reset: the buffered registers at their reset values (R185). -/
def resetMod : ModState :=
  { per := resetBuf 3200000, cmp := Vector.replicate 4 (resetBuf 0), ttmr := Vector.replicate 3 (resetBuf 128000) }

/-- A polder of a device whose rails are all absent. The NV banks are blank until the first write, and the flash holds no image
(DESIGN CHOICE: the spec gives no content of a new device; notes/assumptions/10.md). -/
def resetPolder (i : PolderId) : Polder where
  id := i
  power := .off
  regs := []
  sts := {}
  clk := {}
  tim := {}
  eng := {}
  mdl := resetMod
  dike := {}
  links := Vector.replicate 4 {}
  swg := {}
  rgm := {}
  emb := {}
  afe := {}
  gal := {}
  lrn := {}
  flt := {}
  cap := {}
  fio := {}
  spb := {}
  nv := {}
  boot := {}
  log := {}
  mon := {}
  cyc := {}
  out := []
  free := 0

/-- The device with every rail absent: the Dikehouse stopped, the Hall and every polder in reset (R444), nothing stored, nothing waiting. -/
def State.reset : State where
  part := .fgc4400
  now := 0
  rails := ⟨false, false, false, false⟩
  polA := resetPolder .A
  polB := resetPolder .B
  polC := resetPolder .C
  polD := resetPolder .D
  hall := {}
  dkh := {}
  free := 0
  pending := []

end Sys2Proof.Machine
end

