-- ==== Sys2Proof/Machine/Ops.lean ====
section
/-!
DEFINITION. The named operations over the machine's memory and registers: words of a window, registers and their fields, the polders of
the device, replies of a target, and the outcome of an event at a polder. Every meaning reads and writes the state through these.
-/
namespace Sys2Proof.Machine
open Sys2Proof

/-! ### Words of a window (R32 to R35) -/

/-- The word at a byte offset: the listed one, or the word that the offset resets to. -/
def cellGet (dflt : Nat → Word) : Cells → Nat → Word
  | [], k => dflt k
  | (a, w) :: l, k => if a = k then w else cellGet dflt l k

/-- The list without a word at `k`. -/
def cellDrop : Cells → Nat → Cells
  | [], _ => []
  | (a, w) :: l, k => if a = k then cellDrop l k else (a, w) :: cellDrop l k

/-- The list with `w` inserted at `k`, which it does not hold, in ascending order. -/
def cellAdd : Cells → Nat → Word → Cells
  | [], k, w => [(k, w)]
  | (a, x) :: l, k, w => if k < a then (k, w) :: (a, x) :: l else (a, x) :: cellAdd l k w

/-- Write of one word: the entry of an offset disappears when the offset takes its reset word, so that equal contents are equal lists. -/
def cellSet (dflt : Nat → Word) (l : Cells) (k : Nat) (w : Word) : Cells :=
  if w = dflt k then cellDrop l k else cellAdd (cellDrop l k) k w

/-- Offsets strictly rising from above `n`, no word equal to its reset word. -/
def cellsFrom (dflt : Nat → Word) : Nat → Cells → Bool
  | _, [] => true
  | n, (a, w) :: l => decide (n ≤ a) && decide (w ≠ dflt a) && cellsFrom dflt (a + 1) l

/-- The canonical form of a window's words. -/
def Cells.wf (dflt : Nat → Word) (l : Cells) : Bool := cellsFrom dflt 0 l

/-! ### Reset words and register maps -/

/-- Index of an offset within a row of a register map, if the row holds it. -/
def RegRow.index (r : RegRow) (off : Nat) : Option Nat :=
  if off < r.off then none
  else if r.stride = 0 then (if off = r.off then some 0 else none)
  else if (off - r.off) % r.stride = 0 && (off - r.off) / r.stride < r.count then some ((off - r.off) / r.stride) else none

/-- The row of a register map that holds an offset, with the register's index in it. -/
def findRow : List RegRow → Nat → Option (RegRow × Nat)
  | [], _ => none
  | r :: l, off => match r.index off with
    | some i => some (r, i)
    | none => findRow l off

/-- Reset word of index `i` of a row. -/
def RegRow.reset (r : RegRow) (i : Nat) : Word := wordN (r.resets.getD i (r.resets.getLastD 0))

/-- Reset word at an offset under a map; 0 where no register stands. -/
def mapReset (m : List RegRow) (off : Nat) : Word := match findRow m off with
  | some (r, i) => r.reset i
  | none => 0

/-- Reset word at an offset of a polder window. Memories start at 0 (DESIGN CHOICE, notes/assumptions/6.md). -/
def polReset (off : Nat) : Word := mapReset (blockRows (off / 65536)) off

def hallReset (off : Nat) : Word := mapReset rowsHAL off
def dkhReset (off : Nat) : Word := mapReset rowsDKH off

/-! ### Registers of a polder -/

/-- The word at an offset of a polder window, without side effects. -/
def rd (p : Polder) (off : Nat) : Word := cellGet polReset p.regs off

/-- The polder with the word at an offset replaced. -/
def wr (p : Polder) (off : Nat) (w : Word) : Polder := { p with regs := cellSet polReset p.regs off w }

/-- A field of a register. -/
def fget (p : Polder) (f : Fld) : Nat := bitsOf (rd p f.off) f.hi f.lo

/-- A field as a two's complement number. -/
def fgetI (p : Polder) (f : Fld) : Int := signed (f.hi + 1 - f.lo) (fget p f)

/-- A one-bit field. -/
def fbit (p : Polder) (f : Fld) : Bool := fget p f == 1

/-- The polder with a field replaced. -/
def fput (p : Polder) (f : Fld) (v : Nat) : Polder := wr p f.off (withBits (rd p f.off) f.hi f.lo v)

/-- The polder with a one-bit field set or cleared. -/
def fputB (p : Polder) (f : Fld) (b : Bool) : Polder := fput p f (bn b)

/-- A register as a signed number. -/
def rdI (p : Polder) (off : Nat) : Int := (rd p off).toInt

/-- A register as an unsigned number. -/
def rdN (p : Polder) (off : Nat) : Nat := (rd p off).toNat

/-- A saturating counter register advanced by `k` (counters "saturating" of the register maps). -/
def addSat (p : Polder) (off k : Nat) : Polder := wr p off (wordN (satAdd 32 (rdN p off) k))

/-- A counter register advanced by `k`, modulo 2^32. -/
def addWrap (p : Polder) (off k : Nat) : Polder := wr p off (rd p off + wordN k)

/-- Registers written in turn. -/
def wrAll (p : Polder) (l : List (Nat × Word)) : Polder := l.foldl (fun q e => wr q e.1 e.2) p

/-! ### Registers of the Hall and the Dikehouse -/

def hrd (h : Hall) (off : Nat) : Word := cellGet hallReset h.regs off
def hwr (h : Hall) (off : Nat) (w : Word) : Hall := { h with regs := cellSet hallReset h.regs off w }
def hget (h : Hall) (f : Fld) : Nat := bitsOf (hrd h f.off) f.hi f.lo
def hput (h : Hall) (f : Fld) (v : Nat) : Hall := hwr h f.off (withBits (hrd h f.off) f.hi f.lo v)
def hbit (h : Hall) (f : Fld) : Bool := hget h f == 1
def hadd (h : Hall) (off : Nat) : Hall := hwr h off (wordN (satAdd 32 (hrd h off).toNat 1))

def krd (d : Dikehouse) (off : Nat) : Word := cellGet dkhReset d.regs off
def kwr (d : Dikehouse) (off : Nat) (w : Word) : Dikehouse := { d with regs := cellSet dkhReset d.regs off w }
def kget (d : Dikehouse) (f : Fld) : Nat := bitsOf (krd d f.off) f.hi f.lo
def kput (d : Dikehouse) (f : Fld) (v : Nat) : Dikehouse := kwr d f.off (withBits (krd d f.off) f.hi f.lo v)
def kbit (d : Dikehouse) (f : Fld) : Bool := kget d f == 1
def kadd (d : Dikehouse) (off : Nat) : Dikehouse := kwr d off (wordN (satAdd 32 (krd d off).toNat 1))

/-! ### The polders of the device -/

def State.pol (s : State) : PolderId → Polder
  | .A => s.polA | .B => s.polB | .C => s.polC | .D => s.polD

def State.setPol (s : State) : PolderId → Polder → State
  | .A, p => { s with polA := p }
  | .B, p => { s with polB := p }
  | .C, p => { s with polC := p }
  | .D, p => { s with polD := p }

/-- The part has this polder (R2). -/
def Part.has : Part → PolderId → Bool
  | .fgc4400, _ => true
  | .fgc4200, .A => true
  | .fgc4200, .B => true
  | .fgc4200, _ => false

/-- Detail byte with which the Hall turns away an access to a polder (R22): `none` while the polder accepts one. -/
def unavail (s : State) (i : PolderId) : Option Nat :=
  if !Part.has s.part i then some 1
  else match (s.pol i).power with
    | .off => some 2
    | .booting => some 3
    | .waking => some 4
    | .asleep => some 4
    | .awake => none

/-- Device time after an event at instant `t`; it never runs back. -/
def State.at' (s : State) (t : Nat) : State := { s with now := max s.now t }

/-! ### Replies (R402, R405) -/

abbrev Status.ok : Nat := 0x00
abbrev Status.pending : Nat := 0x01
abbrev Status.length : Nat := 0x10
abbrev Status.crc : Nat := 0x11
abbrev Status.auth : Nat := 0x12
abbrev Status.opcode : Nat := 0x13
abbrev Status.version : Nat := 0x14
abbrev Status.token : Nat := 0x15
abbrev Status.range : Nat := 0x20
abbrev Status.state : Nat := 0x21
abbrev Status.tripActive : Nat := 0x22
abbrev Status.conflict : Nat := 0x23
abbrev Status.locked : Nat := 0x24
abbrev Status.timeout : Nat := 0x30
abbrev Status.unavailable : Nat := 0x31
abbrev Status.internal : Nat := 0x3F

/-- What a command answers: status, detail, payload. -/
structure Reply where
  status : Nat
  detail : Nat
  payload : List Byte
  deriving DecidableEq, Repr

/-- An OK reply with a payload. -/
def okWith (l : List Byte) : Reply := ⟨Status.ok, 0, l⟩

/-- A reply without payload. -/
def bare (st : Nat) : Reply := ⟨st, 0, []⟩

/-- The polder with something handed to the Hall. -/
def emit (p : Polder) (o : Out) : Polder := { p with out := p.out ++ [o] }

/-- The reply of a polder to a command. -/
def answer (p : Polder) (op : Nat) (c : Cmd) (r : Reply) : Polder :=
  emit p (.answer ⟨p.id.num, c.sess, op, c.seq, r.status, r.detail, r.payload⟩)

/-- The DONE notification that completes a command (R288, R411). -/
def done (p : Polder) (r : CmdRef) (a : Reply) : Polder :=
  emit p (.done r.sess p.id.num r.opcode r.seq a.status a.detail a.payload)

/-- The DONE of a command that may be absent. -/
def doneOpt (p : Polder) (r : Option CmdRef) (a : Reply) : Polder := match r with
  | some x => done p x a
  | none => p

/-- A command as a reference, for its later completion. -/
def refOf (op : Nat) (c : Cmd) : CmdRef := ⟨c.sess, op, c.seq⟩

/-! ### Fresh free values -/

/-- The rounding choices of one draw at a polder, one per site (R54, R66): a function, not a part of the state. -/
def rounding (p : Polder) : Nat → Bool := fun site => Config.roundsUp p.id p.free site

/-- The polder after a draw. -/
def drawn (p : Polder) : Polder := { p with free := p.free + 1 }

/-! ### Regimes (R85) -/

abbrev Rg.sleep : Nat := 1
abbrev Rg.standby : Nat := 2
abbrev Rg.precharge : Nat := 3
abbrev Rg.ready : Nat := 4
abbrev Rg.energise : Nat := 5
abbrev Rg.sync : Nat := 6
abbrev Rg.forming : Nat := 7
abbrev Rg.stopping : Nat := 8
abbrev Rg.tripped : Nat := 9
abbrev Rg.safe : Nat := 10

/-- The awake regimes (R83). -/
abbrev Rg.awake : List Nat := [2, 3, 4, 5, 6, 7, 8, 9, 10]

/-- The awake regimes in which the modulator does not switch (R91). -/
abbrev Rg.quiet : List Nat := [2, 3, 4, 9, 10]

/-- The present regime's code. -/
def regime (p : Polder) : Nat := fget p F.PCT_REGIME_CUR

/-- The modulator switches (R91). -/
def switching (p : Polder) : Bool := [5, 6, 7, 8].contains (regime p)

/-- The law runs (R80): in ENERGISE, SYNC, FORMING and STOPPING. -/
def lawRegime (p : Polder) : Bool := [5, 6, 7, 8].contains (regime p)

/-- The polder is powered and its engines run. -/
def awake (p : Polder) : Bool := p.power == .awake

/-- The polder runs in rescue (R452). -/
def rescue (p : Polder) : Bool := fbit p F.PCT_BOOT_RESCUE

/-- Swing-engine period in fs in the performance mode (R47, R71). -/
def tsFs (p : Polder) : Nat := match fget p F.SWG_STAT_RATE with
  | 0 => us
  | 1 => 2 * us
  | _ => 4 * us

/-! ### Values of `SWG_` and `STS_` registers in force (R69, R282) -/

/-- The word of a `SWG_` or `STS_` register that the most recent swing-engine update found. -/
def took (p : Polder) (off : Nat) : Word := cellGet polReset p.swg.cfg off
def tookN (p : Polder) (off : Nat) : Nat := (took p off).toNat
def tookBit (p : Polder) (f : Fld) : Bool := bitsOf (took p f.off) f.hi f.lo == 1

/-- The `SWG_` and `STS_` registers of the window. -/
def swingCells (l : Cells) : Cells := l.filter fun e => e.1 / 65536 == 6 || e.1 / 65536 == 11

end Sys2Proof.Machine
end

