-- ==== Sys2Proof/Machine/Cards.lean ====
section
/-!
DEFINITION. The command cards: opcode, target, payload length, whether a command writes (R409), needs the role ADMIN, and the regimes in
which it is allowed (R17, R83), with whether rescue accepts it (R452).
-/
namespace Sys2Proof.Machine
open Sys2Proof

/-! ### Opcodes -/

abbrev Op.hello : Nat := 0x0001
abbrev Op.bye : Nat := 0x0002
abbrev Op.tokenTake : Nat := 0x0010
abbrev Op.tokenRelease : Nat := 0x0011
abbrev Op.subscribe : Nat := 0x0020
abbrev Op.getNotifications : Nat := 0x0021
abbrev Op.setNetwork : Nat := 0x0030
abbrev Op.setSv : Nat := 0x0031
abbrev Op.setKey : Nat := 0x0032
abbrev Op.getHall : Nat := 0x0040
abbrev Op.setBases : Nat := 0x0101
abbrev Op.setInertia : Nat := 0x0102
abbrev Op.setDroops : Nat := 0x0103
abbrev Op.setVoltageLaw : Nat := 0x0104
abbrev Op.setLimits : Nat := 0x0105
abbrev Op.setAnchor : Nat := 0x0106
abbrev Op.setPoints : Nat := 0x0107
abbrev Op.getSwing : Nat := 0x0108
abbrev Op.requestRegime : Nat := 0x0110
abbrev Op.breaker : Nat := 0x0111
abbrev Op.setStartSync : Nat := 0x0112
abbrev Op.setRide : Nat := 0x0113
abbrev Op.setEnvelope : Nat := 0x0114
abbrev Op.getRegime : Nat := 0x0115
abbrev Op.setEmbankment : Nat := 0x0201
abbrev Op.setBand : Nat := 0x0202
abbrev Op.setPrediction : Nat := 0x0203
abbrev Op.setNpBalance : Nat := 0x0204
abbrev Op.getEmbankment : Nat := 0x0205
abbrev Op.setModulator : Nat := 0x0210
abbrev Op.setBootstrap : Nat := 0x0211
abbrev Op.setPulseShape : Nat := 0x0212
abbrev Op.setCarrier : Nat := 0x0213
abbrev Op.getModulator : Nat := 0x0214
abbrev Op.setLearner : Nat := 0x0301
abbrev Op.learnerStore : Nat := 0x0302
abbrev Op.getLearner : Nat := 0x0303
abbrev Op.setGallery : Nat := 0x0310
abbrev Op.galleryControl : Nat := 0x0311
abbrev Op.readGallery : Nat := 0x0312
abbrev Op.setAcquisition : Nat := 0x0401
abbrev Op.setComparator : Nat := 0x0402
abbrev Op.runInputTest : Nat := 0x0403
abbrev Op.getAcquisition : Nat := 0x0404
abbrev Op.setFilters : Nat := 0x0410
abbrev Op.getMetering : Nat := 0x0411
abbrev Op.setCapture : Nat := 0x0420
abbrev Op.captureControl : Nat := 0x0421
abbrev Op.readCapture : Nat := 0x0422
abbrev Op.sluiceOpen : Nat := 0x0501
abbrev Op.sluiceStage : Nat := 0x0502
abbrev Op.sluiceCommit : Nat := 0x0503
abbrev Op.sluiceAbort : Nat := 0x0504
abbrev Op.getSluice : Nat := 0x0505
abbrev Op.setStair : Nat := 0x0510
abbrev Op.getStairs : Nat := 0x0511
abbrev Op.setDike : Nat := 0x0601
abbrev Op.setL1 : Nat := 0x0602
abbrev Op.clearTrips : Nat := 0x0603
abbrev Op.trip : Nat := 0x0604
abbrev Op.getDike : Nat := 0x0605
abbrev Op.setGateLink : Nat := 0x0610
abbrev Op.gateLinkControl : Nat := 0x0611
abbrev Op.runSelfTest : Nat := 0x0612
abbrev Op.getGateLinks : Nat := 0x0613
abbrev Op.setFieldInputs : Nat := 0x0701
abbrev Op.setFieldOutputs : Nat := 0x0702
abbrev Op.setOutputs : Nat := 0x0703
abbrev Op.getFieldIo : Nat := 0x0704
abbrev Op.getFieldEvents : Nat := 0x0705
abbrev Op.clearFieldDiag : Nat := 0x0706
abbrev Op.setSafety : Nat := 0x0801
abbrev Op.confirmSafety : Nat := 0x0802
abbrev Op.safetyAck : Nat := 0x0803
abbrev Op.getSafety : Nat := 0x0804
abbrev Op.setSafetyPassword : Nat := 0x0805
abbrev Op.readSafetyLog : Nat := 0x0806
abbrev Op.setClock : Nat := 0x0901
abbrev Op.getClock : Nat := 0x0902
abbrev Op.setTimeSources : Nat := 0x0910
abbrev Op.getTime : Nat := 0x0911
abbrev Op.setPps : Nat := 0x0912
abbrev Op.setTime : Nat := 0x0913
abbrev Op.getNv : Nat := 0x0A01
abbrev Op.fwSlot : Nat := 0x0A10
abbrev Op.fwActivate : Nat := 0x0A11
abbrev Op.fwConfirm : Nat := 0x0A12
abbrev Op.getFirmware : Nat := 0x0A13
abbrev Op.setPerformance : Nat := 0x0A20
abbrev Op.sleep : Nat := 0x0A21
abbrev Op.readLog : Nat := 0x0B01
abbrev Op.setLog : Nat := 0x0B02
abbrev Op.setMonitor : Nat := 0x0B20
abbrev Op.getEngines : Nat := 0x0B30
abbrev Op.polderPower : Nat := 0x0C01
abbrev Op.setWatch : Nat := 0x0C02
abbrev Op.setRule : Nat := 0x0C03
abbrev Op.setSupervision : Nat := 0x0C04
abbrev Op.getDikehouse : Nat := 0x0C05
abbrev Op.readWords : Nat := 0x0E01
abbrev Op.writeWords : Nat := 0x0E02

/-- Targets that a card names: the Hall, polders, the Dikehouse, all, polders and the Dikehouse. -/
inductive CardTarget where
  | hall | polder | dkh | any | log
  deriving DecidableEq, Repr

/-- Payload lengths: fixed; SLUICE_STAGE with n in byte 1; FW_SLOT with n in bytes 2 and 3; WRITE_WORDS with n in bytes 4 and 5. -/
inductive CardLen where
  | fixed (n : Nat) | stage | slot | words
  deriving DecidableEq, Repr

/-- A card. -/
structure Card where
  op : Nat
  tgt : CardTarget
  len : CardLen
  writes : Bool
  admin : Bool
  regimes : List Nat
  rescue : Bool
  deriving DecidableEq, Repr

/-- Regimes of the cards that exclude ENERGISE, SYNC, FORMING and STOPPING. -/
abbrev Rg.idle5 : List Nat := [Rg.standby, Rg.precharge, Rg.ready, Rg.tripped, Rg.safe]
abbrev Rg.idle4 : List Nat := [Rg.standby, Rg.ready, Rg.tripped, Rg.safe]

def cards0 : List Card :=
  [⟨Op.hello, .hall, .fixed 24, false, false, [], false⟩,
   ⟨Op.bye, .hall, .fixed 0, false, false, [], false⟩,
   ⟨Op.tokenTake, .hall, .fixed 4, false, false, [], false⟩,
   ⟨Op.tokenRelease, .hall, .fixed 4, false, false, [], false⟩,
   ⟨Op.subscribe, .hall, .fixed 4, false, false, [], false⟩,
   ⟨Op.getNotifications, .hall, .fixed 4, false, false, [], false⟩,
   ⟨Op.setNetwork, .hall, .fixed 28, true, true, [], false⟩,
   ⟨Op.setSv, .hall, .fixed 48, true, false, [], false⟩,
   ⟨Op.setKey, .hall, .fixed 40, true, true, [], false⟩,
   ⟨Op.getHall, .hall, .fixed 0, false, false, [], false⟩,
   ⟨Op.setBases, .polder, .fixed 24, true, false, Rg.idle5, false⟩,
   ⟨Op.setInertia, .polder, .fixed 16, true, false, Rg.awake, false⟩,
   ⟨Op.setDroops, .polder, .fixed 8, true, false, Rg.awake, false⟩,
   ⟨Op.setVoltageLaw, .polder, .fixed 24, true, false, Rg.awake, false⟩,
   ⟨Op.setLimits, .polder, .fixed 16, true, false, Rg.awake, false⟩,
   ⟨Op.setAnchor, .polder, .fixed 16, true, false, Rg.awake, false⟩,
   ⟨Op.setPoints, .polder, .fixed 20, true, false, Rg.awake, false⟩,
   ⟨Op.getSwing, .polder, .fixed 0, false, false, Rg.awake, false⟩,
   ⟨Op.requestRegime, .polder, .fixed 16, true, false, [Rg.standby, Rg.precharge, Rg.ready, Rg.energise, Rg.sync, Rg.forming], false⟩,
   ⟨Op.breaker, .polder, .fixed 4, true, false, [Rg.standby, Rg.precharge, Rg.ready], false⟩,
   ⟨Op.setStartSync, .polder, .fixed 64, true, false, Rg.idle5, false⟩,
   ⟨Op.setRide, .polder, .fixed 56, true, false, Rg.awake, false⟩,
   ⟨Op.setEnvelope, .polder, .fixed 68, true, false, Rg.idle5, false⟩,
   ⟨Op.getRegime, .polder, .fixed 0, false, false, Rg.awake, false⟩,
   ⟨Op.setEmbankment, .polder, .fixed 8, true, false, Rg.idle5, false⟩,
   ⟨Op.setBand, .polder, .fixed 24, true, false, Rg.awake, false⟩,
   ⟨Op.setPrediction, .polder, .fixed 28, true, false, Rg.awake, false⟩,
   ⟨Op.setNpBalance, .polder, .fixed 20, true, false, Rg.awake, false⟩,
   ⟨Op.getEmbankment, .polder, .fixed 0, false, false, Rg.awake, false⟩,
   ⟨Op.setModulator, .polder, .fixed 28, true, false, Rg.idle5, false⟩,
   ⟨Op.setBootstrap, .polder, .fixed 24, true, false, Rg.awake, false⟩,
   ⟨Op.setPulseShape, .polder, .fixed 12, true, false, Rg.awake, false⟩,
   ⟨Op.setCarrier, .polder, .fixed 36, true, false, Rg.awake, false⟩,
   ⟨Op.getModulator, .polder, .fixed 0, false, false, Rg.awake, false⟩,
   ⟨Op.setLearner, .polder, .fixed 36, true, false, Rg.awake, false⟩,
   ⟨Op.learnerStore, .polder, .fixed 4, true, false, Rg.awake, false⟩,
   ⟨Op.getLearner, .polder, .fixed 4, false, false, Rg.awake, false⟩,
   ⟨Op.setGallery, .polder, .fixed 40, true, false, Rg.awake, false⟩,
   ⟨Op.galleryControl, .polder, .fixed 4, true, false, Rg.awake, false⟩,
   ⟨Op.readGallery, .polder, .fixed 8, false, false, Rg.awake, false⟩]

def cards1 : List Card :=
  [⟨Op.setAcquisition, .polder, .fixed 16, true, false, Rg.awake, false⟩,
   ⟨Op.setComparator, .polder, .fixed 12, true, false, Rg.awake, false⟩,
   ⟨Op.runInputTest, .polder, .fixed 12, true, false, Rg.idle5, false⟩,
   ⟨Op.getAcquisition, .polder, .fixed 0, false, false, Rg.awake, false⟩,
   ⟨Op.setFilters, .polder, .fixed 36, true, false, Rg.awake, false⟩,
   ⟨Op.getMetering, .polder, .fixed 0, false, false, Rg.awake, false⟩,
   ⟨Op.setCapture, .polder, .fixed 68, true, false, Rg.awake, false⟩,
   ⟨Op.captureControl, .polder, .fixed 16, true, false, Rg.awake, false⟩,
   ⟨Op.readCapture, .polder, .fixed 8, false, false, Rg.awake, false⟩,
   ⟨Op.sluiceOpen, .polder, .fixed 0, true, false, Rg.awake, false⟩,
   ⟨Op.sluiceStage, .polder, .stage, true, false, Rg.awake, false⟩,
   ⟨Op.sluiceCommit, .polder, .fixed 12, true, false, Rg.awake, false⟩,
   ⟨Op.sluiceAbort, .polder, .fixed 4, true, false, Rg.awake, false⟩,
   ⟨Op.getSluice, .polder, .fixed 4, false, false, Rg.awake, false⟩,
   ⟨Op.setStair, .polder, .fixed 20, true, false, Rg.awake, false⟩,
   ⟨Op.getStairs, .polder, .fixed 0, false, false, Rg.awake, false⟩,
   ⟨Op.setDike, .polder, .fixed 28, true, false, Rg.awake, false⟩,
   ⟨Op.setL1, .polder, .fixed 20, true, false, Rg.awake, false⟩,
   ⟨Op.clearTrips, .polder, .fixed 4, true, false, Rg.awake, false⟩,
   ⟨Op.trip, .polder, .fixed 4, false, false, Rg.awake, false⟩,
   ⟨Op.getDike, .polder, .fixed 0, false, false, Rg.awake, false⟩,
   ⟨Op.setGateLink, .polder, .fixed 12, true, false, Rg.idle5, false⟩,
   ⟨Op.gateLinkControl, .polder, .fixed 4, true, false, Rg.idle5, false⟩,
   ⟨Op.runSelfTest, .polder, .fixed 4, true, false, Rg.idle5, false⟩,
   ⟨Op.getGateLinks, .polder, .fixed 0, false, false, Rg.awake, false⟩,
   ⟨Op.setFieldInputs, .polder, .fixed 20, true, false, Rg.awake, false⟩,
   ⟨Op.setFieldOutputs, .polder, .fixed 32, true, false, Rg.awake, false⟩,
   ⟨Op.setOutputs, .polder, .fixed 4, true, false, Rg.awake, false⟩,
   ⟨Op.getFieldIo, .polder, .fixed 0, false, false, Rg.awake, false⟩,
   ⟨Op.getFieldEvents, .polder, .fixed 4, false, false, Rg.awake, false⟩,
   ⟨Op.clearFieldDiag, .polder, .fixed 4, true, false, Rg.awake, false⟩,
   ⟨Op.setSafety, .polder, .fixed 28, true, false, Rg.idle5, false⟩,
   ⟨Op.confirmSafety, .polder, .fixed 24, true, false, Rg.idle5, false⟩,
   ⟨Op.safetyAck, .polder, .fixed 0, true, false, Rg.awake, false⟩,
   ⟨Op.getSafety, .polder, .fixed 0, false, false, Rg.awake, false⟩,
   ⟨Op.setSafetyPassword, .polder, .fixed 40, true, false, Rg.idle5, false⟩,
   ⟨Op.readSafetyLog, .polder, .fixed 4, false, false, Rg.awake, false⟩,
   ⟨Op.setClock, .polder, .fixed 12, true, false, Rg.awake, false⟩,
   ⟨Op.getClock, .polder, .fixed 0, false, false, Rg.awake, false⟩,
   ⟨Op.setTimeSources, .polder, .fixed 32, true, false, Rg.awake, false⟩]

def cards2 : List Card :=
  [⟨Op.getTime, .polder, .fixed 0, false, false, Rg.awake, false⟩,
   ⟨Op.setPps, .polder, .fixed 4, true, false, Rg.awake, false⟩,
   ⟨Op.setTime, .polder, .fixed 12, true, false, Rg.awake, false⟩,
   ⟨Op.getNv, .polder, .fixed 0, false, false, Rg.awake, true⟩,
   ⟨Op.fwSlot, .polder, .slot, true, false, Rg.awake, true⟩,
   ⟨Op.fwActivate, .polder, .fixed 8, true, false, Rg.idle4, true⟩,
   ⟨Op.fwConfirm, .polder, .fixed 0, true, false, Rg.awake, false⟩,
   ⟨Op.getFirmware, .polder, .fixed 0, false, false, Rg.awake, true⟩,
   ⟨Op.setPerformance, .polder, .fixed 4, true, false, Rg.awake, false⟩,
   ⟨Op.sleep, .polder, .fixed 0, true, false, Rg.idle4, false⟩,
   ⟨Op.readLog, .log, .fixed 8, false, false, Rg.awake, false⟩,
   ⟨Op.setLog, .polder, .fixed 4, true, false, Rg.awake, false⟩,
   ⟨Op.setMonitor, .polder, .fixed 4, true, false, Rg.awake, false⟩,
   ⟨Op.getEngines, .polder, .fixed 0, false, false, Rg.awake, false⟩,
   ⟨Op.polderPower, .dkh, .fixed 4, true, false, [], false⟩,
   ⟨Op.setWatch, .dkh, .fixed 8, true, false, [], false⟩,
   ⟨Op.setRule, .dkh, .fixed 12, true, false, [], false⟩,
   ⟨Op.setSupervision, .dkh, .fixed 8, true, false, [], false⟩,
   ⟨Op.getDikehouse, .dkh, .fixed 0, false, false, [], false⟩,
   ⟨Op.readWords, .any, .fixed 8, false, false, Rg.awake, false⟩,
   ⟨Op.writeWords, .any, .words, true, false, Rg.awake, false⟩]

/-- All cards. -/
def cards : List Card := cards0 ++ cards1 ++ cards2

/-- The card of an opcode. -/
def cardOf (op : Nat) : Option Card := cards.find? fun c => c.op == op

/-- The payload has the length of the card, or the one that its counts give. -/
def CardLen.ok (x : CardLen) (l : List Byte) : Bool := match x with
  | .fixed n => l.length == n
  | .stage => decide (4 ≤ l.length) && l.length == 4 + 12 * byteAt l 1
  | .slot => decide (12 ≤ l.length) && l.length == 12 + u16At l 2
  | .words => decide (8 ≤ l.length) && l.length == 8 + 4 * u16At l 4

/-- The card names this target. -/
def CardTarget.has (x : CardTarget) (t : Target) : Bool := match x, t with
  | .hall, .hall => true
  | .polder, .polder _ => true
  | .dkh, .dikehouse => true
  | .any, _ => true
  | .log, .polder _ => true
  | .log, .dikehouse => true
  | _, _ => false

end Sys2Proof.Machine
end

