-- ==== Sys2Proof/Machine/Crypto.lean ====
section
/-!
DEFINITION. The check codes the spec names: CRC-32 of IEEE 802.3 (R401), CRC-32C (R355), CRC-16 (R478), SHA-256 and HMAC-SHA-256 (R8, R401),
and the verification of ECDSA signatures over P-256 (R8, R447, R449).
-/
namespace Sys2Proof.Machine
open Sys2Proof

/-! ### Cyclic redundancy checks -/

/-- One bit of a reflected 32-bit CRC. -/
def crcBit (poly c : Word) : Word := if c.getLsbD 0 then (c >>> 1) ^^^ poly else c >>> 1

/-- One byte of a reflected 32-bit CRC. -/
def crcByte (poly c : Word) (b : Byte) : Word :=
  (List.range 8).foldl (fun x _ => crcBit poly x) (c ^^^ BitVec.zeroExtend 32 b)

/-- CRC-32 of IEEE 802.3: polynomial 0x04C11DB7, reflected, initial value and final XOR of ones. -/
def crc32 (l : List Byte) : Word := ~~~ (l.foldl (crcByte 0xEDB88320#32) 0xFFFFFFFF#32)

/-- CRC-32C of R355: polynomial 0x1EDC6F41, reflected, initial value and final XOR of ones. -/
def crc32c (l : List Byte) : Word := ~~~ (l.foldl (crcByte 0x82F63B78#32) 0xFFFFFFFF#32)

/-- One byte of the CRC-16 of R478: polynomial 0x1021, most significant bit first. -/
def crc16Byte (c : BitVec 16) (b : Byte) : BitVec 16 :=
  (List.range 8).foldl (fun x _ => if x.getLsbD 15 then (x <<< 1) ^^^ 0x1021#16 else x <<< 1)
    (c ^^^ (BitVec.zeroExtend 16 b <<< 8))

/-- CRC-16 of R478, initial value 0xFFFF. -/
def crc16 (l : List Byte) : BitVec 16 := l.foldl crc16Byte 0xFFFF#16

/-! ### SHA-256

The constants are computed from their definition: the first 32 bits of the fractional parts of roots of the first primes. The message schedule is a
window of 16 words that moves on by one word with every round. -/

/-- The first primes: a number joins when none before it divides it. -/
def primesTo (n : Nat) : List Nat :=
  (List.range n).foldl (fun l k => if 2 ≤ k ∧ l.all (fun q => k % q != 0) then l ++ [k] else l) []

/-- Largest r below `r + 2^bits` with r^e at most x, one bit a step. -/
def rootFrom (e x : Nat) : Nat → Nat → Nat
  | 0, r => r
  | bits + 1, r => rootFrom e x bits (if (r + 2 ^ bits) ^ e ≤ x then r + 2 ^ bits else r)

/-- First 32 bits of the fractional part of the e-th root of a number below 4096. -/
def rootFraction (e n : Nat) : Word := wordN (rootFrom e (n * 2 ^ (32 * e)) 38 0)

/-- The 64 constants of the rounds, from the cube roots of the primes up to 311. -/
def roundConstants : List Word := (primesTo 312).map (rootFraction 3)

/-- Half of the hash state: four words, through which the words of a round move. -/
structure Lane where
  w0 : Word
  w1 : Word
  w2 : Word
  w3 : Word
  deriving DecidableEq, Repr

def Lane.sum (x y : Lane) : Lane := ⟨x.w0 + y.w0, x.w1 + y.w1, x.w2 + y.w2, x.w3 + y.w3⟩
def Lane.bytes (x : Lane) : List Byte := [x.w0, x.w1, x.w2, x.w3].flatMap fun w => beBytes 4 w.toNat

/-- A lane before the first block, from the square roots of four primes. -/
def startLane (a b c d : Nat) : Lane := ⟨rootFraction 2 a, rootFraction 2 b, rootFraction 2 c, rootFraction 2 d⟩

/-- XOR of a word turned right by three distances. -/
def turned (w : Word) (a b c : Nat) : Word := w.rotateRight a ^^^ w.rotateRight b ^^^ w.rotateRight c

/-- The window after a round: its first word leaves, and the word 16 places on joins. -/
def slide (win : List Word) : List Word :=
  let at' := fun k => win.getD k 0
  let near := (at' 1).rotateRight 7 ^^^ (at' 1).rotateRight 18 ^^^ (at' 1 >>> 3)
  let far := (at' 14).rotateRight 17 ^^^ (at' 14).rotateRight 19 ^^^ (at' 14 >>> 10)
  win.drop 1 ++ [far + at' 9 + near + at' 0]

/-- A lane with a word pushed in at its head. -/
def Lane.push (x : Lane) (w : Word) : Lane := ⟨w, x.w0, x.w1, x.w2⟩

/-- One round on both lanes and the window. -/
def hashRound (x : Lane × Lane × List Word) (k : Word) : Lane × Lane × List Word :=
  let (hi, lo, win) := x
  let chosen := lo.w2 ^^^ (lo.w0 &&& (lo.w1 ^^^ lo.w2))
  let most := (hi.w0 &&& hi.w1) ||| (hi.w2 &&& (hi.w0 ||| hi.w1))
  let t := k + win.headD 0 + lo.w3 + chosen + turned lo.w0 6 11 25
  (hi.push (t + most + turned hi.w0 2 13 22), lo.push (hi.w3 + t), slide win)

/-- One block of 64 bytes. -/
def hashBlock (ks : List Word) (x : Lane × Lane) (block : List Byte) : Lane × Lane :=
  let win := (List.range 16).map fun k => wordN (beNat ((block.drop (4 * k)).take 4))
  let r := ks.foldl hashRound (x.1, x.2, win)
  (x.1.sum r.1, x.2.sum r.2.1)

/-- A message padded to whole blocks: a one bit, zeros, and its length in bits. -/
def padded (l : List Byte) : List Byte := l ++ 0x80#8 :: zeros ((119 - l.length % 64) % 64) ++ beBytes 8 (l.length * 8)

/-- SHA-256. -/
def sha256 (l : List Byte) : List Byte :=
  let m := padded l
  let ks := roundConstants
  let r := (List.range (m.length / 64)).foldl (fun x k => hashBlock ks x ((m.drop (64 * k)).take 64)) (startLane 2 3 5 7, startLane 11 13 17 19)
  r.1.bytes ++ r.2.bytes

/-- HMAC-SHA-256 (RFC 2104) with a key of up to 64 bytes. -/
def hmac (key msg : List Byte) : List Byte :=
  let k := key ++ zeros (64 - key.length)
  sha256 (k.map (· ^^^ 0x5C#8) ++ sha256 (k.map (· ^^^ 0x36#8) ++ msg))

/-! ### ECDSA over P-256 (R8, R447, R449)

The spec names the algorithm and the curve; the curve's numbers are those of its standard (PRESUMED, notes/assumptions/57.md). A point is its two
coordinates, `none` the point at infinity. -/

/-- The field of P-256, the order of its base point, the base point. -/
abbrev fieldP : Nat := 2 ^ 256 - 2 ^ 224 + 2 ^ 192 + 2 ^ 96 - 1
abbrev orderN : Nat := 0xFFFFFFFF00000000FFFFFFFFFFFFFFFFBCE6FAADA7179E84F3B9CAC2FC632551
abbrev baseG : Nat × Nat :=
  (0x6B17D1F2E12C4247F8BCE6E563A440F277037D812DEB33A0F4A13945D898C296,
   0x4FE342E2FE1A7F9B8EE7EB4A7C0F9E162BCE33576B315ECECBB6406837BF51F5)

/-- b^e modulo m, for exponents of so many bits. -/
def powMod (m : Nat) : Nat → Nat → Nat → Nat
  | 0, _, _ => 1 % m
  | bits + 1, b, e =>
    let r := powMod m bits (b * b % m) (e / 2)
    if e % 2 = 1 then b * r % m else r

/-- Inverse modulo a prime of up to 256 bits. -/
def invMod (m x : Nat) : Nat := powMod m 256 (x % m) (m - 2)

/-- Sum of two points of y² = x³ − 3x + b. -/
def pointAdd : Option (Nat × Nat) → Option (Nat × Nat) → Option (Nat × Nat)
  | none, q => q
  | some p, none => some p
  | some p, some q =>
    if p.1 = q.1 ∧ (p.2 + q.2) % fieldP = 0 then none
    else
      let l := (if p.1 = q.1 then (3 * p.1 * p.1 + fieldP - 3) * invMod fieldP (2 * p.2)
        else (q.2 + fieldP - p.2) * invMod fieldP (q.1 + fieldP - p.1)) % fieldP
      let x := (l * l + 2 * fieldP - p.1 - q.1) % fieldP
      some (x, (l * (p.1 + fieldP - x) + fieldP - p.2) % fieldP)

/-- A multiple of a point, for factors of so many bits. -/
def pointMul : Nat → Nat → Option (Nat × Nat) → Option (Nat × Nat)
  | 0, _, _ => none
  | bits + 1, k, p =>
    let r := pointMul bits (k / 2) (pointAdd p p)
    if k % 2 = 1 then pointAdd p r else r

/-- A signature r, s on a hash verifies with a public key. -/
def ecdsaOk (key : Nat × Nat) (hash r s : Nat) : Bool :=
  if r = 0 ∨ orderN ≤ r ∨ s = 0 ∨ orderN ≤ s then false
  else
    let w := invMod orderN s
    match pointAdd (pointMul 256 (hash * w % orderN) (some baseG)) (pointMul 256 (r * w % orderN) (some (key.1 % fieldP, key.2 % fieldP))) with
    | none => false
    | some p => p.1 % orderN == r

/-- The signature check of R449: r, then s, each big-endian, over SHA-256 of the signed bytes, with the indexed public key of the one-time memory. -/
def signedBy (key : Nat) (msg sig : List Byte) : Bool :=
  ecdsaOk (Config.publicKey key) (beNat (sha256 msg)) (beNat (sig.take 32)) (beNat ((sig.drop 32).take 32))

/-- Bytes of a text. -/
def ascii (s : String) : List Byte := s.toList.map (fun c => BitVec.ofNat 8 c.toNat)

end Sys2Proof.Machine
end

