-- ==== Sys2Proof/Machine/Time.lean ====
section
/-!
DEFINITION. The time bases of a polder and presented time (R377, R383 to R385), in femtoseconds, and their split into the seconds,
nanoseconds and fraction of the presented-time format (R46).
-/
namespace Sys2Proof.Machine
open Sys2Proof

/-- Rate of CLK_P from the PLL against 400 MHz: f_ref N / 3.2 GHz with N = NINT + FRAC / 2^24 (R368). -/
def pllRate (p : Polder) : Nat × Nat :=
  (Config.refHz p.id * (fget p F.CLK_CFG_NINT * 16777216 + fget p F.CLK_FRAC_FRAC), 16777216 * 3200000000)

/-- Rate of CLK_P from the backup oscillator against 400 MHz (R374). -/
def backupRate (p : Polder) : Nat × Nat := (365000 + (Config.backupAbove p.id).val, 400000)

/-- Rate of the time unit in SLEEP, one reference period per edge of x_REFCLK (R441). -/
def sleepRate (p : Polder) : Nat × Nat := (Config.refHz p.id, rdN p A.CLK_FREF)

/-- TBL at an instant. -/
def tblAt (t : TimState) (now : Nat) : Int := t.tbl + (((now - t.tblAt) * t.rateNum / t.rateDen : Nat) : Int)

/-- Presented time has stepped in this cycle of TBL. -/
def TimState.stepsIn (t : TimState) (c : Int) : Bool := t.stepCyc == some c

/-- The time unit from an instant on at another rate. -/
def retime (now : Nat) (rate : Nat × Nat) (p : Polder) : Polder :=
  { p with tim := { p.tim with tbl := tblAt p.tim now, tblAt := now, rateNum := rate.1, rateDen := rate.2 } }

/-- A disciplined base when TBL stands at `x`, at its rate of `r` in 2^-40 (R377). -/
def baseAt (b : BaseState) (r x : Int) : Int := b.val + (x - b.atTbl) + (x - b.atTbl) * r / 1099511627776

/-- TB0 and TB1 when TBL stands at `x`. -/
def tb0At (p : Polder) (x : Int) : Int := baseAt p.tim.tb0 (rdI p (A.TIM_RATE 0)) x
def tb1At (p : Polder) (x : Int) : Int := baseAt p.tim.tb1 (rdI p (A.TIM_RATE 1)) x

/-- The active base when TBL stands at `x` (R383, `TIM_STAT.ACT`). -/
def activeAt (p : Polder) (x : Int) : Int := match fget p F.TIM_STAT_ACT with
  | 0 => tb0At p x
  | 1 => tb1At p x
  | _ => x

/-- The correction C when TBL stands at `x`: it moves towards 0 at `TIM_CFG.SLEW` ppm (R384). -/
def corrAt (p : Polder) (x : Int) : Int :=
  let moved := (x - p.tim.corrAt) * (fget p F.TIM_CFG_SLEW : Int) / 1000000
  if p.tim.corr < 0 then min 0 (p.tim.corr + moved) else max 0 (p.tim.corr - moved)

/-- CLK_P runs from the PLL. -/
def onPll (p : Polder) : Bool := fget p F.CLK_STAT_SRC == 0

/-- Presented time in fs (R384). On the backup oscillator it has the resolution of a CLK_P cycle (R375). -/
def presented (p : Polder) (now : Nat) : Int :=
  let x := tblAt p.tim now
  let v := activeAt p x + corrAt p x
  if onPll p then v else v - v % (cyc : Nat)

/-- How presented time runs at present. -/
def timMap (p : Polder) : TimMap :=
  let b : Int × Int × Int := match fget p F.TIM_STAT_ACT with
    | 0 => (p.tim.tb0.val, p.tim.tb0.atTbl, rdI p (A.TIM_RATE 0))
    | 1 => (p.tim.tb1.val, p.tim.tb1.atTbl, rdI p (A.TIM_RATE 1))
    | _ => (0, 0, 0)
  ⟨p.tim.tbl, p.tim.tblAt, p.tim.rateNum, p.tim.rateDen, b.1, b.2.1, b.2.2, p.tim.corr, p.tim.corrAt, (fget p F.TIM_CFG_SLEW : Int), onPll p⟩

/-- Presented time at an instant as such a map gives it. -/
def TimMap.shows (m : TimMap) (t : Nat) : Int :=
  let x := m.tbl + (((t - m.tblAt) * m.rateNum / m.rateDen : Nat) : Int)
  let moved := (x - m.corrAt) * m.slew / 1000000
  let c := if m.corr < 0 then min 0 (m.corr + moved) else max 0 (m.corr - moved)
  let v := m.val + (x - m.atTbl) + (x - m.atTbl) * m.rate / 1099511627776 + c
  if m.pll then v else v - v % (cyc : Nat)

/-- The oldest of some past maps that still held at an instant: the maps stand newest first, each with the instant until which it held. -/
def mapThen (t : Nat) : List (Nat × TimMap) → Option TimMap
  | [] => none
  | (e, m) :: l => if t < e then some ((mapThen t l).getD m) else none

/-- Presented time of an instant that may lie in the past, by the base, rate and correction in force then (R391). -/
def presentedThen (p : Polder) (t : Nat) : Int := match mapThen t p.tim.past with
  | some m => m.shows t
  | none => presented p t

/-- A change of the way presented time runs is kept for the stamps of instants before it: the last 32 changes. -/
def mapKept (now : Nat) (p : Polder) : Polder :=
  let m := timMap p
  match p.tim.map with
  | none => { p with tim := { p.tim with map := some m } }
  | some o => if o = m then p else { p with tim := { p.tim with map := some m, past := ((now, o) :: p.tim.past).take 32 } }

/-- Presented time at the start of the CLK_P cycle of an instant, to which events are resolved that no time-to-digital converter stamps (R46). -/
def cycleStamp (p : Polder) (now : Nat) : Int := presented p (now / cyc * cyc)

/-- A time stamp of the time-to-digital converter: bins of 78.125 ps, or cycles on the backup oscillator (R375, R391). -/
def tdcStamp (p : Polder) (now : Nat) : Int :=
  let x := presented p now
  x - x % (bin : Nat)

/-- Whole seconds of a presented time in fs, modulo 2^48. -/
def secsOf (x : Int) : Nat := (x.toNat / sec) % 281474976710656

/-- Nanoseconds within the second. -/
def nanosOf (x : Int) : Nat := x.toNat % sec / ns

/-- Fraction of the nanosecond in 2^-16 ns. -/
def fracOf (x : Int) : Nat := x.toNat % ns * 65536 / ns

/-- Presented fs of a seconds and a nanoseconds field (R515). -/
def fsOf (s n : Nat) : Int := ((s * sec + n * ns : Nat) : Int)

/-- The 10 bytes in which replies and records carry a presented time: 48-bit seconds, then nanoseconds. -/
def stamp10 (x : Int) : List Byte := leBytes 6 (secsOf x) ++ leBytes 4 (nanosOf x)

/-- A presented time written to a register triple NS, SL, SH. -/
def wrTime (p : Polder) (nsOff slOff shOff : Nat) (x : Int) : Polder :=
  wr (wr (wr p nsOff (wordN (nanosOf x))) slOff (wordN (secsOf x % 4294967296))) shOff (wordN (secsOf x / 4294967296))

/-- State of a PTP domain (`TIM_STAT.DOMn`, R379). -/
def domState (p : Polder) (n : Nat) : Nat := if n = 0 then fget p F.TIM_STAT_DOM0 else fget p F.TIM_STAT_DOM1

/-- The active base is disciplined and its domain is LOCKED. -/
def activeLocked (p : Polder) : Bool := match fget p F.TIM_STAT_ACT with
  | 0 => domState p 0 == 3
  | 1 => domState p 1 == 3
  | _ => false

/-- A disciplined base, 0 primary or 1 secondary. -/
def baseOf (p : Polder) (n : Nat) : BaseState := if n = 0 then p.tim.tb0 else p.tim.tb1
def setBase (n : Nat) (b : BaseState) (p : Polder) : Polder :=
  if n = 0 then { p with tim := { p.tim with tb0 := b } } else { p with tim := { p.tim with tb1 := b } }

/-- Quality of presented time at an instant (R385). -/
def qualityAt (p : Polder) (now : Nat) : Nat :=
  let c := absI (corrAt p (tblAt p.tim now))
  let thr : Int := ((rdN p A.TIM_GOODTHR * ns : Nat) : Int)
  if !p.tim.everLocked && !p.tim.everSet then 0
  else if !onPll p then 1
  else if activeLocked p && decide (c ≤ thr) then 3
  else if activeLocked p then 2
  else match (baseOf p (fget p F.TIM_STAT_ACT)).leftAt with
    | some l => if now - l < rdN p A.TIM_HOLDTMO * sec then 2 else 1
    | none => 1

/-- Quality as `TIM_STAT.QUAL` shows it. -/
def quality (p : Polder) : Nat := fget p F.TIM_STAT_QUAL

end Sys2Proof.Machine
end

