-- ==== Sys2Proof/Machine/Log.lean ====
section
/-!
DEFINITION. Event-log records and the NV image of a polder (R469, R477 to R481), and the notifications that a polder hands to the Hall (R412).
-/
namespace Sys2Proof.Machine
open Sys2Proof

/-! ### The NV image -/

/-- The NV image of a polder changed; the write that stores it is due (R469). `sect` is the section ID. -/
def nvTouch (now sect : Nat) (p : Polder) (r : NvRecord) : Polder :=
  match p.nv.dirtySince with
  | some _ => { p with nv := { p.nv with image := r } }
  | none => { p with nv := { p.nv with image := r, dirtySince := some now, dirtySect := sect } }

/-! ### Log records -/

/-- The first 30 bytes of a record (R478). -/
def LogRec.body (r : LogRec) : List Byte :=
  leBytes 4 r.number ++ leBytes 6 r.secs ++ leBytes 4 r.nanos ++ leBytes 1 r.flags ++ leBytes 1 r.source ++ leBytes 2 r.code ++
    leBytes 2 r.boot ++ (r.data ++ zeros 10).take 10

/-- The 32 bytes of a record. -/
def LogRec.bytes (r : LogRec) : List Byte := r.body ++ leBytes 2 (crc16 r.body).toNat

/-- Severities of R478. -/
abbrev Sev.info : Nat := 0
abbrev Sev.warn : Nat := 1
abbrev Sev.fault : Nat := 2
abbrev Sev.trip : Nat := 3

/-- Records of the present second that were stored in NV. -/
def burstNow (p : Polder) (now : Nat) : Nat := if now - p.log.burstAt < sec then p.log.burst else 0

/-- A record of a polder: into the SRAM store of 192, and into the NV image when its severity and the burst limit allow (R477, R480). -/
def logRec (now source code sev : Nat) (data : List Byte) (p : Polder) : Polder :=
  let x := presented p now
  let r : LogRec := ⟨p.log.nextNo, secsOf x, nanosOf x, quality p * 64 + sev * 16 + regime p, source, code % 65536, p.boot.bootCount, data⟩
  let p1 := wr { p with log := { p.log with sram := (r :: p.log.sram).take 192, nextNo := (p.log.nextNo + 1) % 4294967296 } }
    A.PCT_LOGNEXT (wordN (p.log.nextNo + 1))
  if sev < fget p F.PCT_LOGCFG_NVMIN then p1
  else if burstNow p now < fget p F.PCT_LOGCFG_BURST then
    let p2 := { p1 with log := { p1.log with burstAt := if now - p.log.burstAt < sec then p.log.burstAt else now, burst := burstNow p now + 1 } }
    nvTouch now 6 p2 { p2.nv.image with events := some ((r :: p2.nv.image.events.getD []).take 384) }
  else addSat p1 A.PCT_LOGNVLOST 1

/-! ### Notifications -/

/-- Notification classes of SUBSCRIBE. -/
abbrev Cls.regime : Nat := 0
abbrev Cls.trip : Nat := 1
abbrev Cls.safety : Nat := 2
abbrev Cls.time : Nat := 3

/-- A notification of a class: kind and body. -/
def notifyClass (cls kind : Nat) (body : List Byte) (p : Polder) : Polder := emit p (.toClass cls p.id.num kind body)

/-- REGIME: `PCT_REGIME`, `PCT_REGEVT`, seconds, nanoseconds. -/
def notifyRegime (now : Nat) (p : Polder) : Polder :=
  notifyClass Cls.regime 2 (wBytes (rd p A.PCT_REGIME) ++ wBytes (rd p A.PCT_REGEVT) ++ stamp10 (presented p now)) p

/-- TRIP: `DIK_TRIPSRC`, `DIK_FIRST`, first-latch seconds and nanoseconds. -/
def notifyTrip (p : Polder) : Polder :=
  notifyClass Cls.trip 4 (wBytes (rd p A.DIK_TRIPSRC) ++ wBytes (rd p A.DIK_FIRST) ++
    (wBytes (rd p A.DIK_FT_SL) ++ leBytes 2 (rdN p A.DIK_FT_SH)) ++ wBytes (rd p A.DIK_FT_NS)) p

/-- SAFETY: `SPB_STAT` as it reads, `SPB_EVT`. -/
def notifySafety (stat : Word) (p : Polder) : Polder := notifyClass Cls.safety 6 (wBytes stat ++ wBytes (rd p A.SPB_EVT)) p

/-- TIME: `TIM_STAT`, `TIM_EVT`. -/
def notifyTime (p : Polder) : Polder :=
  notifyClass Cls.time 7 (wBytes (rd p A.TIM_STAT) ++ wBytes (rd p A.TIM_EVT)) p

end Sys2Proof.Machine
end

