-- ==== Sys2Proof/Machine/Recorder.lean ====
section
/-!
DEFINITION. The gallery and the capture engine as recorders (R201 to R208, R253 to R260): arming, triggering, rows, ends of records.
-/
namespace Sys2Proof.Machine
open Sys2Proof

/-- A quotient whose rounding the spec leaves open: the lower or the upper neighbour (R54, R66). -/
def openDiv (r : Nat → Bool) (site : Nat) (n : Int) (d : Nat) : Int :=
  if n % (d : Int) = 0 then n / (d : Int) else if r site then n / (d : Int) + 1 else n / (d : Int)

/-- The words of one register block. -/
def blockCells (p : Polder) (base : Nat) : Cells := p.regs.filter (fun e => base ≤ e.1 && e.1 < base + 4096)

/-- A field of the configuration in force at arming. -/
def cfgGet (r : Recorder) (f : Fld) : Nat := bitsOf (cellGet polReset r.cfg f.off) f.hi f.lo
def cfgN (r : Recorder) (off : Nat) : Nat := (cellGet polReset r.cfg off).toNat
def cfgI (r : Recorder) (off : Nat) : Int := (cellGet polReset r.cfg off).toInt

/-! ### The gallery -/

/-- Gallery states (R205). -/
abbrev Rec.idle : Nat := 0
abbrev Rec.armed : Nat := 1
abbrev Rec.triggered : Nat := 2
abbrev Rec.done : Nat := 3

/-- Number of valid rows of a record: the rows written, at most the ring's. -/
def validRows (r : Recorder) (len : Nat) : Nat := min r.rows len

/-- End of the gallery's record (R206). A record that STOP ends before its trigger row was taken shows the next row as that row, and every row that the ring
still holds counts as valid, more than `GAL_PRE` before the trigger too (DESIGN CHOICE for both, notes/assumptions/14.md). -/
def galFinish (p : Polder) : Polder :=
  let len := cfgN p.gal A.GAL_LEN
  let p1 := fput p F.GAL_STAT_STATE Rec.done
  let p2 := wr p1 A.GAL_START (wordN ((p.gal.rows - validRows p.gal len) % len))
  let p3 := wr p2 A.GAL_TIDX (wordN (p.gal.trigRow.getD p.gal.rows % len))
  wr p3 A.GAL_ROWS (wordN (validRows p.gal len))

/-- ARM (R205): ignored in TRIGGERED. -/
def galArm (p : Polder) : Polder :=
  if fget p F.GAL_STAT_STATE = Rec.triggered then p
  else fput (fput { p with gal := { cfg := blockCells p A.GAL_CTRL } } F.GAL_STAT_STATE Rec.armed) F.GAL_STAT_RATECHG 0

/-- STOP (R205): ARMED to IDLE, TRIGGERED to DONE. -/
def galStop (p : Polder) : Polder := match fget p F.GAL_STAT_STATE with
  | 1 => fput p F.GAL_STAT_STATE Rec.idle
  | 2 => galFinish p
  | _ => p

/-- A trigger, accepted only in ARMED (R206). -/
def galTrigger (p : Polder) : Polder :=
  if fget p F.GAL_STAT_STATE = Rec.armed then fput p F.GAL_STAT_STATE Rec.triggered else p

/-- FORCE: a trigger now. -/
def galForce (p : Polder) : Polder := galTrigger p

/-- A write of `GAL_CMD`: STOP first, then ARM, then FORCE (R210). -/
def galCmd (w : Word) (p : Polder) : Polder :=
  let p1 := if bitOf w 2 then galStop p else p
  let p2 := if bitOf w 0 then galArm p1 else p1
  if bitOf w 1 then galForce p2 else p2

/-- Trigger from a source other than level, if it is the armed one. -/
def galSource (src : Nat) (p : Polder) : Polder :=
  if cfgGet p.gal F.GAL_CTRL_TSRC = src then galTrigger p else p

/-- Status-word nodes, which are always picked, never averaged (R202, R209). -/
def statusNode (id : Nat) : Bool :=
  [0x1F, 0x2F, 0x3E, 0x3F, 0x4F, 0x57, 0x7C, 0x7D, 0x7E, 0x7F, 0x8F, 0x90, 0x91, 0x92, 0x93, 0xFE].contains id

/-- Node selected in a slot. -/
def slotNode (r : Recorder) (k : Nat) : Nat :=
  let w := cellGet polReset r.cfg (A.GAL_PROBE (k / 4))
  bitsOf w (8 * (k % 4) + 7) (8 * (k % 4))

/-- A gallery word: value in bits 31:2, flag code in bits 1:0 (R203). A Q4.28 value gives its bits 31:2. -/
def flagged (v : Int) (flag : Nat) : Word := withBits (wordI v) 1 0 flag

/-- A status word with its low field of n bits moved up by two, so that the flag code replaces no meaningful bit (R209; DESIGN CHOICE for the place:
notes/assumptions/14.md). -/
def lifted (n : Nat) (w : Word) : Word := withBits w (n + 1) 0 (4 * bitsOf w (n - 1) 0)

/-- Values of one update folded into the row in progress. -/
def accAdd (a : Option RecAcc) (v : Int) (flag : Nat) : RecAcc := match a with
  | none => ⟨v, v, v, (v * v).toNat, flag, v⟩
  | some x => ⟨min x.lo v, max x.hi v, x.sum + v, x.sq + (v * v).toNat, max x.flag flag, v⟩

/-- The words of a gallery row from the collected updates. -/
def galWords (p : Polder) (acc : List RecAcc) (d : Nat) : List Word :=
  (List.range acc.length).map fun k =>
    let a := acc.getD k ⟨0, 0, 0, 0, 0, 0⟩
    if cfgGet p.gal F.GAL_CTRL_DECMODE = 1 && !statusNode (slotNode p.gal k)
    then flagged (openDiv (rounding p) (1000 + k) a.sum d) a.flag
    else flagged a.last a.flag

/-- Level test of R207 on two successive words of the trigger slot. -/
def levelCross (edge : Nat) (l x0 x1 : Int) : Bool :=
  (edge != 1 && decide (x0 < l ∧ l ≤ x1)) || (edge != 0 && decide (l < x0 ∧ x1 ≤ l))

/-- Trigger of the row about to be taken: immediate, or level against the row before. A `TSLOT` at or above `NPROBE` has no word, and 0 is compared (DESIGN
CHOICE, notes/assumptions/14.md). -/
def galRowTrigger (p : Polder) (ws : List Word) : Polder :=
  let r := p.gal
  match cfgGet r F.GAL_CTRL_TSRC with
  | 0 => galTrigger p
  | 1 =>
    let x1 := (ws.getD (cfgGet r F.GAL_CTRL_TSLOT) 0).toInt
    match r.hist with
    | (_, x0) :: _ => if levelCross (cfgGet r F.GAL_CTRL_TEDGE) (cfgI r A.GAL_TLEVEL) x0 x1 then galTrigger p else p
    | [] => p
  | _ => p

/-- One row into the ring (R205), with the end of the record when it was the last (R204). -/
def galWrite (at' : Int) (p : Polder) (ws : List Word) : Polder :=
  let r := p.gal
  let len := cfgN r A.GAL_LEN
  let n := cfgGet r F.GAL_CTRL_NPROBE
  let base := 0x300000 + 4 * (r.rows % len * n)
  let p1 := wrAll p ((List.range ws.length).map fun k => (base + 4 * k, ws.getD k 0))
  let p2 := galRowTrigger p1 ws
  let trig := fget p2 F.GAL_STAT_STATE == Rec.triggered
  let first := trig && r.trigRow.isNone
  let row := if first then some r.rows else r.trigRow
  let p3 := { p2 with gal := { r with
    rows := r.rows + 1, count := 0, acc := [], trigRow := row,
    hist := [(at', (ws.getD (cfgGet r F.GAL_CTRL_TSLOT) 0).toInt)] } }
  let p4 := if first then wrTime p3 A.GAL_TNS A.GAL_TSL A.GAL_TSH at' else p3
  match row with
  | some t => if t + (len - cfgN r A.GAL_PRE) ≤ r.rows + 1 then galFinish p4 else p4
  | none => p4

/-- One swing-engine update seen by the gallery: every D-th gives a row (R202). `node` gives each node's value and flag. -/
def galUpdate (at' : Int) (node : Nat → Int × Nat) (p : Polder) : Polder :=
  let st := fget p F.GAL_STAT_STATE
  if st = Rec.armed ∨ st = Rec.triggered then
    let r := p.gal
    let n := cfgGet r F.GAL_CTRL_NPROBE
    let mean := cfgGet r F.GAL_CTRL_DECMODE == 1
    let acc := (List.range n).map fun k => accAdd (if mean then r.acc[k]? else none) (node (slotNode r k)).1 (node (slotNode r k)).2
    if r.count + 1 < cfgN r A.GAL_DEC then { p with gal := { r with count := r.count + 1, acc := acc } }
    else galWrite at' (drawn p) (galWords p acc (r.count + 1))
  else p

/-! ### The capture engine -/

def capState (p : Polder) : Nat := fget p F.CAP_STAT_STATE
def capRec (p : Polder) : Recorder := p.cap.rec'
def setRec (p : Polder) (r : Recorder) : Polder := { p with cap := { p.cap with rec' := r } }

/-- Sample period of a tap in fs (R253): FAST, C, M. -/
def tapPeriod (p : Polder) (tap : Nat) : Nat := match tap with
  | 0 => if fget p F.SWG_STAT_RATE = 2 then 100 * ns else 50 * ns
  | 1 => tsFs p
  | _ => 16 * us

/-- Words per row for n channels (R254). -/
def wordsPerRow (format n : Nat) : Nat := match format with
  | 1 => (n + 1) / 2
  | 3 => 3 * n
  | _ => n

/-- Tap samples per row (R254): K in AVERAGE and REDUCE, otherwise 1. -/
def perRow (r : Recorder) : Nat := if 2 ≤ cfgGet r F.CAP_CTRL_FORMAT then cfgN r A.CAP_INT else 1

/-- The role in force: that of the arming while a record is under way, otherwise the one set (R255, R259). -/
def capRole (p : Polder) : Nat :=
  if capState p = Rec.armed ∨ capState p = Rec.triggered then cfgGet (capRec p) F.CAP_CTRL_ROLE else fget p F.CAP_CTRL_ROLE

/-- x_FIRE driven low by this unit: a MASTER drives it in every state except ARMED (R259). A line that the unit lets go shows its level in `FIREPIN` at
the next edge; one that it pulls low from high is asserted, which is a trigger of the gallery (R207). -/
def capHold (p : Polder) : Polder :=
  let master := capRole p == 1 && capState p != Rec.armed
  let low := master || p.cap.pulseEnd.isSome
  let p1 := fputB { p with cap := { p.cap with driving := low } } F.CAP_STAT_FIREHOLD low
  if low then fput (if !p.cap.driving && fbit p F.CAP_STAT_FIREPIN then galSource 5 p1 else p1) F.CAP_STAT_FIREPIN 0 else p1

/-- End of the record (R206, R256). -/
def capFinish (p : Polder) : Polder :=
  let r := capRec p
  let len := cfgN r A.CAP_LEN
  let valid := validRows r len
  let p1 := fput p F.CAP_STAT_STATE Rec.done
  let p2 := wr p1 A.CAP_START (wordN ((r.rows - valid) % len))
  let p3 := wr p2 A.CAP_TIDX (wordN (r.trigRow.getD r.rows % len))
  let p4 := wr p3 A.CAP_ROWS (wordN valid)
  let p5 := wrTime p4 A.CAP_R0_NS A.CAP_R0_SL A.CAP_R0_SH (r.times.getD (valid - 1) 0)
  capHold (wr p5 A.CAP_PER (wordN (r.period / ns)))

/-- ARM with tap M outside FULL is not taken (R253). -/
def capTapOff (p : Polder) : Bool := fget p F.CAP_CTRL_TAP == 2 && fget p F.SWG_STAT_RATE != 0

/-- ARM of the capture engine (R253, R256): ignored in TRIGGERED, and with tap M outside FULL. -/
def capArm (p : Polder) : Polder :=
  if capState p = Rec.triggered ∨ capTapOff p = true then p
  else
    let r : Recorder := { cfg := blockCells p A.CAP_CTRL }
    let r1 := { r with period := tapPeriod p (cfgGet r F.CAP_CTRL_TAP) * perRow r }
    capHold (fput (fput (setRec p r1) F.CAP_STAT_STATE Rec.armed) F.CAP_STAT_TRUNC 0)

/-- STOP of the capture engine. -/
def capStop (p : Polder) : Polder := match capState p with
  | 1 => capHold (fput p F.CAP_STAT_STATE Rec.idle)
  | 2 => capFinish p
  | _ => p

/-- The engine accepts a trigger: in ARMED, and its own in the cycle in which an edge of x_FIRE has triggered it, where the own trigger counts
(R256, R260). -/
def capOpen (now cause : Nat) (p : Polder) : Bool :=
  capState p == Rec.armed || (cause == 0 && capState p == Rec.triggered && (capRec p).fireCyc == some (now / cyc))

/-- A trigger of the capture engine: its cause and time (R256, R258), and the pulse or hold on x_FIRE (R259). -/
def capTrigger (now cause : Nat) (at' : Int) (p : Polder) : Polder :=
  if capOpen now cause p then
    let r := capRec p
    let p1 := fput (fput (setRec p { r with trigAt := some at', fireCyc := if cause = 1 then some (now / cyc) else none }) F.CAP_STAT_STATE Rec.triggered)
      F.CAP_STAT_TCAUSE cause
    let p2 := wr (wrTime p1 A.CAP_TRG_NS A.CAP_TRG_SL A.CAP_TRG_SH at') A.CAP_TRG_FR (wordN (fracOf at'))
    let pulse := cause = 0 && cfgGet r F.CAP_CTRL_FIRE_OUT = 1 && cfgGet r F.CAP_CTRL_ROLE != 1
    capHold (if pulse then { p2 with cap := { p2.cap with pulseEnd := some (now + us) } } else p2)
  else p

/-- A write of `CAP_CMD`: STOP, ARM, FORCE in this order (R210). -/
def capCmd (now : Nat) (w : Word) (p : Polder) : Polder :=
  let p1 := if bitOf w 2 then capStop p else p
  let p2 := if bitOf w 0 then capArm p1 else p1
  if bitOf w 1 then capTrigger now 2 (cycleStamp p2 now) p2 else p2

/-- Trigger of the capture engine from a source, if it is the armed one. -/
def capSource (now src : Nat) (at' : Int) (p : Polder) : Polder :=
  if cfgGet (capRec p) F.CAP_CTRL_TSRC = src then capTrigger now 0 at' p else p

/-- A flag-coded word of a capture row. -/
def capPack (n : Nat) (vals : List (Int × Nat)) : List Word :=
  (List.range ((n + 1) / 2)).map fun j =>
    let h := fun (x : Int × Nat) => codeOf 16 (x.1 / 65536) / 4 * 4 + x.2
    let lo := h (vals.getD (2 * j) (0, 0))
    let hi := if 2 * j + 1 < n then h (vals.getD (2 * j + 1) (0, 0)) else 0
    wordN (hi * 65536 + lo)

/-- The words of a capture row (R254) from the accumulated channels; `k` tap samples. Values in chain format, codes times 65,536 for
tap FAST. -/
def capWords (p : Polder) (r : Recorder) (acc : List RecAcc) (k : Nat) : List Word :=
  match cfgGet r F.CAP_CTRL_FORMAT with
  | 1 => capPack acc.length (acc.map fun a => (a.last, a.flag))
  | 2 => acc.map fun a => flagged (openDiv (rounding p) 2000 a.sum k) a.flag
  | 3 => acc.flatMap fun a =>
      [wordN (codeOf 16 (a.lo / 65536) * 65536 + codeOf 16 (a.hi / 65536)), flagged (openDiv (rounding p) 2001 a.sum k) a.flag,
       flagged (roundSqrt a.sq k : Int) a.flag]
  | _ => acc.map fun a =>
      if cfgGet r F.CAP_CTRL_TAP = 0 then withBits (wordI (a.last / 65536 * 65536)) 15 0 a.flag else flagged a.last a.flag

/-- Trigger test of one tap sample of the trigger channel (R257, R258): the trigger time, if it triggers. `at'` is the sample's instant. The immediate
trigger waits for the first row, which its last tap sample completes. -/
def capTest (p : Polder) (r : Recorder) (at' x1 : Int) : Option Int :=
  let t : Int := (tapPeriod p (cfgGet r F.CAP_CTRL_TAP) : Nat)
  let l := cfgI r A.CAP_TLEVEL
  let edge := cfgGet r F.CAP_CTRL_TEDGE
  let cross := fun (at0 x0 b : Int) =>
    at0 + roundDiv (t * absI (b - x0)) ((absI (x1 - x0)).toNat * bin) * (bin : Nat)
  match cfgGet r F.CAP_CTRL_TSRC, r.hist with
  | 0, _ => if perRow r ≤ r.count + 1 then some at' else none
  | 1, (at0, x0) :: _ =>
    if edge != 1 && r.upReady && decide (x0 < l ∧ l ≤ x1) then some (cross at0 x0 l)
    else if edge != 0 && r.downReady && decide (l < x0 ∧ x1 ≤ l) then some (cross at0 x0 l)
    else none
  | 2, (at0, x0) :: _ =>
    let h := cfgI r A.CAP_THI
    if r.upReady && decide (x0 ≤ h ∧ h < x1) then some (cross at0 x0 h)
    else if r.upReady && decide (l ≤ x0 ∧ x1 < l) then some (cross at0 x0 l)
    else none
  | 3, hs =>
    match hs[cfgN r A.CAP_TSLN - 1]? with
    | some (_, xn) =>
      if edge != 1 && decide (l ≤ x1 - xn) then some at'
      else if edge != 0 && decide (x1 - xn ≤ -l) then some at'
      else none
    | none => none
  | _, _ => none

/-- Hysteresis condition of R257: the value has been on the side from which a crossing starts. -/
def capReady (r : Recorder) (x : Int) : Bool × Bool :=
  let l := cfgI r A.CAP_TLEVEL
  let y : Int := (cfgN r A.CAP_THYST : Nat)
  if cfgGet r F.CAP_CTRL_TSRC = 2 then
    (r.upReady || decide (l + y ≤ x ∧ x ≤ cfgI r A.CAP_THI - y), r.downReady)
  else (r.upReady || decide (x ≤ l - y), r.downReady || decide (l + y ≤ x))

/-- One row into the ring of the capture memory, with the end of the record when it was the last (R255, R256). -/
def capWrite (at' : Int) (ws : List Word) (p : Polder) : Polder :=
  let r := capRec p
  let len := cfgN r A.CAP_LEN
  let base := 0x380000 + 4 * (r.rows % len * ws.length)
  let p1 := wrAll p ((List.range ws.length).map fun k => (base + 4 * k, ws.getD k 0))
  let row := match r.trigRow, r.trigAt with
    | some x, _ => some x
    | none, some ta => if ta ≤ at' then some r.rows else none
    | none, none => none
  let p2 := setRec p1 { r with rows := r.rows + 1, count := 0, acc := [], trigRow := row, times := (at' :: r.times).take len }
  match row with
  | some x => if x + (len - cfgN r A.CAP_PRE) ≤ r.rows + 1 then capFinish p2 else p2
  | none => p2

/-- Stream of a capture channel. -/
def capStream (r : Recorder) (k : Nat) : Nat :=
  bitsOf (cellGet polReset r.cfg (A.CAP_CHSEL (k / 8))) (4 * (k % 8) + 3) (4 * (k % 8))

/-- One tap sample (R253 to R258): `val` gives a stream's value and flag, `at'` the instant it represents. -/
def capSample (now tap : Nat) (at' : Int) (val : Nat → Int × Nat) (p : Polder) : Polder :=
  let r := capRec p
  if (capState p = Rec.armed ∨ capState p = Rec.triggered) ∧ cfgGet r F.CAP_CTRL_TAP = tap then
    let n := cfgGet r F.CAP_CTRL_NCH + 1
    let x := (val (capStream r (cfgGet r F.CAP_CTRL_TCH))).1
    let p1 := if capOpen now 0 p then
      match capTest p r at' x with
      | some ta => capTrigger now 0 ta p
      | none => p
      else p
    let r1 := capRec p1
    let rdy := capReady r1 x
    let acc := (List.range n).map fun k => accAdd r1.acc[k]? (val (capStream r1 k)).1 (val (capStream r1 k)).2
    let r2 := { r1 with hist := ((at', x) :: r1.hist).take 1024, upReady := rdy.1, downReady := rdy.2, acc := acc, count := r1.count + 1 }
    let p2 := setRec p1 r2
    if r2.count < perRow r2 then p2 else capWrite at' (capWords p2 r2 acc r2.count) (drawn p2)
  else p

/-- A change of performance mode seen by the recorders (R202, R260). -/
def recRate (old new : Nat) (p : Polder) : Polder :=
  let g := fget p F.GAL_STAT_STATE
  let p1 := if g = Rec.armed ∨ g = Rec.triggered then fput p F.GAL_STAT_RATECHG 1 else p
  let r := capRec p1
  let changes := match cfgGet r F.CAP_CTRL_TAP with
    | 0 => decide ((old = 2) ≠ (new = 2))
    | _ => decide (old ≠ new)
  if changes then
    match capState p1 with
    | 1 => setRec p1 { cfg := r.cfg, period := tapPeriod p1 (cfgGet r F.CAP_CTRL_TAP) * perRow r, upReady := r.upReady, downReady := r.downReady }
    | 2 => fput (capFinish p1) F.CAP_STAT_TRUNC 1
    | _ => p1
  else p1

/-- Entry to SLEEP (R208, R260). -/
def recSleep (p : Polder) : Polder :=
  let p1 := galStop p
  match capState p1 with
  | 1 => capHold (fput p1 F.CAP_STAT_STATE Rec.idle)
  | 2 => fput (capFinish p1) F.CAP_STAT_TRUNC 1
  | _ => p1

/-- Bits of `EVSEL` (R207). -/
abbrev Ev.ilim : Nat := 0
abbrev Ev.sat : Nat := 1
abbrev Ev.missed : Nat := 2
abbrev Ev.late : Nat := 3
abbrev Ev.drop : Nat := 4
abbrev Ev.rideIn : Nat := 5
abbrev Ev.phaseJump : Nat := 6
abbrev Ev.lrnClamp : Nat := 7

/-- An event that `EVSEL` can select occurs: triggers of the armed recorders (R207, R257). -/
def recEvent (now ev : Nat) (p : Polder) : Polder :=
  let p1 := if cfgGet p.gal F.GAL_CTRL_TSRC = 3 ∧ cfgGet p.gal F.GAL_CTRL_EVSEL / 2 ^ ev % 2 = 1 then galTrigger p else p
  let r := capRec p1
  if cfgGet r F.CAP_CTRL_TSRC = 5 ∧ cfgGet r F.CAP_CTRL_EVSEL / 2 ^ ev % 2 = 1 then capTrigger now 0 (cycleStamp p1 now) p1 else p1

/-- A Dike trip latch seen by the recorders, at the Dike's timestamp (R207, R257). -/
def recTrip (now : Nat) (at' : Int) (p : Polder) : Polder := capSource now 4 at' (galSource 4 p)

end Sys2Proof.Machine
end

