-- ==== Sys2Proof/Machine/Fixed.lean ====
section
/-!
DEFINITION. Arithmetic of the datapaths: values with 60 fractional bits, their Q4.28 and UQ8.24 codes (R11, R13, R53, R66), sine and cosine of a
phase (R12), and rotations. Where the spec names no rounding, a quotient is either neighbour (notes/assumptions/5.md).
-/
namespace Sys2Proof.Machine
open Sys2Proof

/-- 1 with 60 fractional bits. -/
abbrev one60 : Int := 1152921504606846976

/-- 2π and √3 with 60 fractional bits, 2π with 64. -/
abbrev tau60 : Int := 7244019458077122842
abbrev tau64 : Int := 115904311329233965478
abbrev sqrt3 : Int := 1996918623117814387

/-- The value of a Q4.28 word, of a UQ8.24 word. -/
def ofQ28 (w : Word) : Int := w.toInt * 4294967296
def ofUQ24 (w : Word) : Int := (w.toNat : Int) * 68719476736

/-- The value of a Q4.28 register. -/
def q28 (p : Polder) (off : Nat) : Int := ofQ28 (rd p off)

/-- Limits of Q4.28 (R66). -/
abbrev q28Min : Int := -9223372036854775808
abbrev q28Max : Int := 9223372032559808512

/-- A result held at the limits of its format (R66). -/
def satQ (x : Int) : Int := clampI q28Min q28Max x

/-- The Q4.28 code nearest to a value, saturated (R13, R66). -/
def codeQ28 (x : Int) : Int := clampI (-2147483648) 2147483647 (roundDiv x 4294967296)

/-- The Q4.28 word of a value. -/
def toQ28 (x : Int) : Word := wordI (codeQ28 x)

/-- The UQ8.24 word of a value. -/
def toUQ24 (x : Int) : Word := wordI (clampI 0 4294967295 (roundDiv x 68719476736))

/-- Product of two values; one of its two neighbours where it is not exact. -/
def mul60 (r : Nat → Bool) (site : Nat) (a b : Int) : Int := openDiv r site (a * b) 1152921504606846976

/-- n / d for a divisor of any sign; 0 for a divisor of 0, which no legal setting gives. -/
def divI (r : Nat → Bool) (site : Nat) (n d : Int) : Int :=
  if d = 0 then 0 else if d < 0 then openDiv r site (-n) (-d).toNat else openDiv r site n d.toNat

/-- The resampler at `a` of `d` parts of the way from one source sample to the next (R245): 256 phases per period of the source, and the straight line between
the two phases next to the place. What a phase is, a matter of coefficients that the spec does not give, is free. -/
def resample (r : Nat → Bool) (site : Nat) (v0 v : Int) (a d : Nat) : Int :=
  let j := min 255 (256 * a / max 1 d)
  let x0 := Config.phaseOut v0 v j
  x0 + openDiv r site ((Config.phaseOut v0 v (j + 1) - x0) * (256 * a - j * d : Nat)) (max 1 d)

/-- Magnitude of a pair. -/
def magI (d q : Int) : Int := (isqrt (d * d + q * q).toNat : Nat)

/-! ### Sine and cosine -/

/-- Terms of a Taylor series in x² with 64 fractional bits, from `term`, whose successor divides by k (k + 1). -/
def taylor (x2 : Int) : Nat → Int → Int → Int
  | 0, _, term => term
  | n + 1, k, term => term + taylor x2 n (k + 2) (-(term * x2 / 18446744073709551616) / (k * (k + 1)))

/-- Sine and cosine of an angle in the first quadrant, given in 2^-32 revolutions below 2^30, with 64 fractional bits. -/
def quadSin (v : Nat) : Int :=
  let x : Int := (v : Int) * tau64 / 4294967296
  taylor (x * x / 18446744073709551616) 14 2 x
def quadCos (v : Nat) : Int :=
  let x : Int := (v : Int) * tau64 / 4294967296
  taylor (x * x / 18446744073709551616) 14 1 18446744073709551616

/-- Cosine of a phase with 60 fractional bits. -/
def cosP (ph : Nat) : Int :=
  let v := ph % 1073741824
  (match ph / 1073741824 % 4 with
    | 0 => quadCos v
    | 1 => -quadSin v
    | 2 => -quadCos v
    | _ => quadSin v) / 16

/-- Sine of a phase with 60 fractional bits. -/
def sinP (ph : Nat) : Int := cosP (ph + 3221225472)


/-- A phase as a number of revolutions from -1/2 on, in 2^-32. -/
def signedPhase (x : Int) : Int := signed 32 (codeOf 32 x)

/-- Real part of (d + j q) e^(j ph). -/
def rotRe (r : Nat → Bool) (site : Nat) (d q : Int) (ph : Nat) : Int :=
  openDiv r site (d * cosP ph - q * sinP ph) 1152921504606846976

/-- Imaginary part of (d + j q) e^(j ph). -/
def rotIm (r : Nat → Bool) (site : Nat) (d q : Int) (ph : Nat) : Int :=
  openDiv r site (d * sinP ph + q * cosP ph) 1152921504606846976

/-- Amplitude-invariant Clarke transform of three phase values: components along and across phase a. -/
def clarkeA (r : Nat → Bool) (site : Nat) (a b c : Int) : Int := openDiv r site (2 * a - b - c) 3
def clarkeB (r : Nat → Bool) (site : Nat) (b c : Int) : Int := openDiv r site ((b - c) * sqrt3) 3458764513820540928

/-- Park transform at a phase (R54): the components d and q. -/
def park (r : Nat → Bool) (site : Nat) (a b c : Int) (ph : Nat) : Int × Int :=
  let x := clarkeA r site a b c
  let y := clarkeB r (site + 1) b c
  let m := (4294967296 - ph % 4294967296) % 4294967296
  (rotRe r (site + 2) x y m, rotIm r (site + 3) x y m)

/-- Value of phase k of a positive-sequence pair at phase `ph`: turned back by k thirds. -/
def phaseVal (r : Nat → Bool) (site : Nat) (d q : Int) (ph k : Nat) : Int :=
  rotRe r site d q ((ph + k * 2863311531) % 4294967296)

end Sys2Proof.Machine
end

