-- ==== Sys2Proof/Machine/Flags.lean ====
section
/-!
DEFINITION. Event flags and status flags: setting a W1C event bit (R38), an event that a recorder may select (R207), one bit of a status
register, and the writes of 1 that clear.
-/
namespace Sys2Proof.Machine
open Sys2Proof

/-- Hardware has set these bits of a register in the step in progress: a write of 1 in the same cycle does not clear them (R38). -/
def marked (off : Nat) (bits : Word) (p : Polder) : Polder := { p with cyc := { p.cyc with fresh := (off, bits) :: p.cyc.fresh } }

/-- Hardware sets a W1C event bit. -/
def evt (f : Fld) (p : Polder) : Polder := marked f.off (maskBits f.hi f.lo) (fput p f 1)

/-- Hardware sets bit `k` of a field of W1C event bits. -/
def evtBit (f : Fld) (k : Nat) (p : Polder) : Polder :=
  marked f.off (maskBits (f.lo + k) (f.lo + k)) (wr p f.off (withBits (rd p f.off) (f.lo + k) (f.lo + k) 1))

/-- The event bits set in a step are those of its cycle. -/
def CycleState.stamped (x : CycleState) (c : Nat) : CycleState :=
  if x.fresh.isEmpty then x
  else if x.at' = c then { x with sets := x.fresh ++ x.sets, fresh := [] }
  else { at' := c, sets := x.fresh }

/-- The bits of a register that hardware has set in cycle `c`. -/
def setInCycle (p : Polder) (c off : Nat) : Word :=
  if p.cyc.at' = c then p.cyc.sets.foldl (fun w e => if e.1 = off then w ||| e.2 else w) 0 else 0

/-- A direct write of the CE or of the monitor is remembered for its cycle (R284, R487). -/
def directWrote (c id off : Nat) (bits v : Word) (p : Polder) : Polder :=
  { p with cyc := if p.cyc.at' = c then { p.cyc with direct := (id, off, bits, v) :: p.cyc.direct }
                  else { at' := c, direct := [(id, off, bits, v)], fresh := p.cyc.fresh } }

/-- Direct writes that stand over a commit of cycle `c`, oldest first: those of the CE in the cycle (R284), and all later ones. -/
def CycleState.standing (x : CycleState) (c : Nat) : List (Nat × Nat × Word × Word) :=
  if c ≤ x.at' then x.direct.reverse.filter fun e => e.1 == 1 || decide (c < x.at') else []

/-- Direct writes of the monitor that lose against a commit of cycle `c` (R487). -/
def CycleState.beaten (x : CycleState) (c : Nat) : List (Nat × Nat × Word × Word) :=
  if c = x.at' then x.direct.reverse.filter fun e => e.1 == 5 else []

/-- The CE has written a register directly in cycle `c`. -/
def ceWrote (p : Polder) (c off : Nat) : Bool := p.cyc.at' == c && p.cyc.direct.any fun e => e.1 == 1 && e.2.1 == off

/-- A commit of cycle `c` has written these registers: a write of the monitor in the same cycle loses against it (R487). -/
def committedIn (c : Nat) (offs : List Nat) (p : Polder) : Polder :=
  { p with cyc := if p.cyc.at' = c then { p.cyc with commits := offs ++ p.cyc.commits }
                  else if c < p.cyc.at' then p.cyc
                  else { at' := c, commits := offs, fresh := p.cyc.fresh } }

/-- Outputs ordered in cycle `c`, by sender. -/
def CycleState.ordersIn (x : CycleState) (c : Nat) : List (Nat × Nat) := if c ≤ x.at' then x.orders else []

/-- Outputs that a sender has ordered are remembered for their cycle (R326). -/
def ordered (c id m : Nat) (p : Polder) : Polder :=
  { p with cyc := if p.cyc.at' = c then { p.cyc with orders := (id, m) :: p.cyc.orders }
                  else if c < p.cyc.at' then p.cyc
                  else { at' := c, orders := [(id, m)], fresh := p.cyc.fresh } }

/-- An event bit is set when a condition holds. -/
def evtIf (b : Bool) (f : Fld) (p : Polder) : Polder := if b then evt f p else p

/-- An event bit that `EVSEL` can select: it occurs whether or not it is already set (R207). -/
def evtSel (now ev : Nat) (f : Fld) (p : Polder) : Polder := recEvent now ev (evt f p)

/-- Bit `k` of a field set or cleared. -/
def putBit (p : Polder) (f : Fld) (k : Nat) (b : Bool) : Polder :=
  wr p f.off (withBits (rd p f.off) (f.lo + k) (f.lo + k) (bn b))

/-- Bit `k` of a field. -/
def getBit (p : Polder) (f : Fld) (k : Nat) : Bool := (rd p f.off).getLsbD (f.lo + k)

/-- A write of 1 to W1C bits clears them (R37). -/
def clear1 (old w mask : Word) : Word := old &&& ~~~ (w &&& mask)

/-- A cycle of the Hall clock of 200 MHz, of the Dikehouse clock of 8 MHz (R29). -/
abbrev hallCyc : Nat := 5 * ns
abbrev dkhCyc : Nat := 125 * ns

/-- W1C bits that hardware has set, those of cycle `c` kept: cycle, register, bits. -/
def setsIn (c off : Nat) (bits : Word) (l : List (Nat × Nat × Word)) : List (Nat × Nat × Word) := (c, off, bits) :: l.filter fun e => e.1 == c

/-- The bits of a register among them that were set in cycle `c`. -/
def setBits (l : List (Nat × Nat × Word)) (c off : Nat) : Word := l.foldl (fun w e => if e.1 = c ∧ e.2.1 = off then w ||| e.2.2 else w) 0

/-- W1C bits of the Hall and of the Dikehouse that hardware sets: a write of 1 in the same cycle of their clock does not clear them (R38). -/
def hmark (now off : Nat) (bits : Word) (h : Hall) : Hall := { h with sets := setsIn (now / hallCyc) off bits h.sets }
def kmark (now off : Nat) (bits : Word) (d : Dikehouse) : Dikehouse := { d with sets := setsIn (now / dkhCyc) off bits d.sets }

/-- Event bits of the Hall and of the Dikehouse. -/
def hevt (now : Nat) (f : Fld) (h : Hall) : Hall := hmark now f.off (maskBits f.hi f.lo) (hput h f 1)
def kevt (now : Nat) (f : Fld) (d : Dikehouse) : Dikehouse := kmark now f.off (maskBits f.hi f.lo) (kput d f 1)

end Sys2Proof.Machine
end

