-- ==== Sys2Proof/Machine/Learner.lean ====
section
/-!
DEFINITION. The learner (R187 to R199): the correction, the weight, cycles, coefficient sets, sweeps, the learner section.
-/
namespace Sys2Proof.Machine
open Sys2Proof

/-! ### Values in force since the last wrap (R196) -/

def lrnN (c : Cells) (off : Nat) : Nat := (cellGet polReset c off).toNat
def lrnQ (c : Cells) (off : Nat) : Int := ofQ28 (cellGet polReset c off)
def lrnB (c : Cells) (f : Fld) : Bool := bitsOf (cellGet polReset c f.off) f.hi f.lo == 1

/-- The `LRN_` registers that R196 brings into force. -/
def lrnCells (p : Polder) : Cells := p.regs.filter fun e => A.LRN_CTRL ≤ e.1 && e.1 ≤ A.LRN_SAVEINT && e.1 != A.LRN_STAT && e.1 != A.LRN_EVT

/-- A harmonic is in the mask; 0 and 1 never are. -/
def inMask (c : Cells) (h : Nat) : Bool :=
  2 ≤ h && (if h < 32 then (lrnN c A.LRN_HMASK0).testBit h else (lrnN c A.LRN_HMASK1).testBit (h - 32))

/-! ### The correction (R189) -/

/-- Entry j of the table of a phase. -/
def tableEntry (p : Polder) (ph j : Nat) : Int := q28 p (0x200000 + 0x4000 * ph + 4 * (j % 4096))

/-- Lower index of the two entries read at θ (R189). -/
def tableIx (th : Nat) : Nat := th / 1048576 % 4096

/-- An entry read at θ for a phase had a double-bit error (R44, R203). -/
def badAt (p : Polder) (th ph : Nat) : Bool :=
  p.lrn.bad.any fun o => o == 0x200000 + 0x4000 * ph + 4 * tableIx th || o == 0x200000 + 0x4000 * ph + 4 * ((tableIx th + 1) % 4096)

/-- Interpolated correction of a phase at θ, after the weight. -/
def lrnPhase (p : Polder) (r : Nat → Bool) (th ph : Nat) : Int :=
  let j := tableIx th
  let f : Int := (th / 16 % 65536 : Nat)
  let a := tableEntry p ph j
  mul60 r (51 + ph) p.lrn.wl (a + openDiv r (54 + ph) ((tableEntry p ph (j + 1) - a) * f) 65536)

/-- lrn_dq of R54 at θ. -/
def lrnDq (p : Polder) (r : Nat → Bool) (th : Nat) : Int × Int :=
  park r 57 (lrnPhase p r th 0) (lrnPhase p r th 1) (lrnPhase p r th 2) th

/-! ### Coefficients and sweeps (R188, R190, R191, R193) -/

/-- Index of the real part of C_p,h among the coefficient words. -/
def coefIx (ph h : Nat) : Nat := 128 * ph + 2 * h

/-- Coefficient sets as functions of the word index, values with 60 fractional bits. -/
def coefOf (p : Polder) (i : Nat) : Int := q28 p (A.LRN_COEF i)

/-- Synthesis of one entry before the clamp. -/
def synth (c : Nat → Int) (ph j : Nat) : Int :=
  (List.range 64).foldl (fun a h =>
    let re := c (coefIx ph h)
    let im := c (coefIx ph h + 1)
    if re = 0 ∧ im = 0 then a
    else
      let x := h * j * 1048576 % 4294967296
      a + (re * cosP x - im * sinP x) / one60) 0

/-- Some entry of the synthesis lies beyond the limit. -/
def clamps (c : Nat → Int) (lim : Int) : Bool :=
  (List.range 3).any fun ph => (List.range 4096).any fun j => decide (lim < absI (synth c ph j))

/-- The 384 words of a coefficient set. -/
def coefWords (c : Nat → Int) : List (Nat × Word) := (List.range 384).map fun i => (A.LRN_COEF i, toQ28 (c i))

/-- Entries of the three tables at an index, by the set in `LRN_COEF` (R188). The clamp is the `LRN_CLIM` of the last sweep that was due: R188 clamps to
`LRN_CLIM`, but R197 names no sweep for its change (DESIGN CHOICE, notes/assumptions/16.md). -/
def sweepEntries (p : Polder) (j : Nat) : List (Nat × Word) :=
  (List.range 3).map fun ph => (0x200000 + 0x4000 * ph + 4 * j, toQ28 (clampI (-p.lrn.clim) p.lrn.clim (synth (coefOf p) ph j)))

/-- Largest entry of a sweep of the set in `LRN_COEF`. -/
def sweepPeak (p : Polder) : Int :=
  (List.range 4096).foldl (fun m j => (sweepEntries p j).foldl (fun x e => max x (absI e.2.toInt)) m) 0

/-- A sweep is due: no entry is written yet. -/
def sweepStart (now : Nat) (counts : Bool) (lim : Int) (p : Polder) : Polder :=
  fput { p with lrn := { p.lrn with sweepFrom := some now, sweepBase := none, swept := 0, sweepCounts := counts, clim := lim } } F.LRN_STAT_SWEEP 1

/-- A sweep goes on until it has written `n` indices in all: upwards from the entry after the one read last when it began, modulo 4,096, through all
three tables (R191). An entry that is written has no double-bit error left. -/
def sweepTo (n : Nat) (p : Polder) : Polder :=
  let b := p.lrn.sweepBase.getD ((p.lrn.lastRead + 1) % 4096)
  let ws := (List.range (n - p.lrn.swept)).flatMap fun k => sweepEntries p ((b + p.lrn.swept + k) % 4096)
  let p1 := wrAll p ws
  { p1 with lrn := { p1.lrn with
    sweepBase := some b, swept := max n p.lrn.swept, bad := p.lrn.bad.filter fun o => !ws.any fun e => e.1 == o } }

/-- A sweep at a swing-engine update: how far it has come is free (R191, `Config.sweepPace`). -/
def sweepOn (p : Polder) : Polder := match p.lrn.sweepFrom with
  | some _ =>
    let n := min 4096 (p.lrn.swept + Config.sweepPace p.id p.free)
    if p.lrn.swept < n then sweepTo n (drawn p) else p
  | none => p

/-- SWEEP_END: at most 200 µs after its start the three tables hold the synthesis (R191). -/
def sweepEnd (p : Polder) : Polder := match p.lrn.sweepFrom with
  | some _ =>
    let p1 := wr (fput (sweepTo 4096 p) F.LRN_STAT_SWEEP 0) A.LRN_PEAK (wordI (sweepPeak p))
    let p2 := if p.lrn.sweepCounts then addWrap p1 A.LRN_CYCLES 1 else p1
    { p2 with lrn := { p2.lrn with sweepFrom := none, sweepCounts := false, restoring := false } }
  | none => p

/-- Component of the three phases' errors. -/
def epsOf (e : Int × Int × Int) : Nat → Int
  | 0 => e.1
  | 1 => e.2.1
  | _ => e.2.2

/-- Error sample m of a phase, without its zero sequence (R190). -/
def errSample (r : Nat → Bool) (eps : List (Int × Int × Int)) (ph m : Nat) : Int :=
  let e := eps.getD m (0, 0, 0)
  epsOf e ph - openDiv r 60 (e.1 + e.2.1 + e.2.2) 3

/-- E of R190 for a phase and a harmonic. -/
def harmonic (r : Nat → Bool) (eps : List (Int × Int × Int)) (ph h : Nat) : Int × Int :=
  let x := fun m => h * m * 16777216 % 4294967296
  let s := (List.range 256).foldl (fun a m => (a.1 + errSample r eps ph m * cosP (x m), a.2 - errSample r eps ph m * sinP (x m))) (0, 0)
  (openDiv r 61 s.1 (128 * one60).toNat, openDiv r 62 s.2 (128 * one60).toNat)

/-- The set after a cycle (R190); `gain` false leaves the increment out (R193). -/
def newCoef (p : Polder) (c : Cells) (fk : Int) (eps : List (Int × Int × Int)) (gain : Bool) (i : Nat) : Int :=
  let r := rounding p
  let ph := i / 128
  let h := i % 128 / 2
  if inMask c h then
    let old := mul60 r (63 + i) (lrnQ c A.LRN_FORGET) (coefOf p i)
    if gain then
      let e := harmonic r eps ph h
      let phi := (openDiv r 64 (4294967296 * h * fk * (lrnN c A.LRN_LEAD : Nat)) (one60 * 1000000000).toNat % 4294967296).toNat
      let x := if i % 2 = 0 then rotRe r 65 e.1 e.2 phi else rotIm r 66 e.1 e.2 phi
      old + mul60 r 67 (lrnQ c A.LRN_GAIN) x
    else old
  else 0

/-- COEFFICIENT_SET_COMPLETE (R191, t2): the CE completes the set of the ended cycle, and its sweep is due. -/
def coefficientSet (now : Nat) (p : Polder) : Polder := match p.lrn.job with
  | some (c, fk, eps) =>
    let full := coefWords (newCoef p c fk eps true)
    let val := fun i => ofQ28 ((full.getD i (0, 0)).2)
    let lim := lrnQ c A.LRN_CLIM
    let beyond := clamps val lim
    let ws := if beyond then coefWords (newCoef p c fk eps false) else full
    let p1 := wrAll (drawn { p with lrn := { p.lrn with job := none } }) ws
    sweepStart now true lim (if beyond then evtSel now Ev.lrnClamp F.LRN_EVT_CLAMP p1 else p1)
  | none => p

/-! ### The learner section (R198, R199) -/

/-- The section of the set in `LRN_COEF`, with `LRN_CYCLES` as it stands: a save between t2 and t4 of R191 takes the new set with the count before its sweep
has ended (DESIGN CHOICE, notes/assumptions/16.md). -/
def learnerSection (now : Nat) (p : Polder) : LrnSave :=
  let c := p.lrn.inForce
  ⟨(List.range 384).filterMap (fun i => if inMask c (i % 128 / 2) && rd p (A.LRN_COEF i) != 0 then some (i, rd p (A.LRN_COEF i)) else none),
    cellGet polReset c A.LRN_HMASK0, cellGet polReset c A.LRN_HMASK1, rd p A.SWG_SBASE, rd p A.SWG_VBASE, fget p F.SWG_CTRL_FNOM,
    fget p F.EMB_CTRL_TOPO, rdN p A.LRN_CYCLES, secsOf (presented p now), nanosOf (presented p now), fracOf (presented p now)⟩

/-- A save: the section goes into the NV image; `SAVED` or `SAVE_FAIL` follows when the write has ended. -/
def lrnSave (now : Nat) (p : Polder) : Polder :=
  nvTouch now 5 { p with lrn := { p.lrn with saving := true } } { p.nv.image with learner := some (learnerSection now p) }

/-- ERASE: the section leaves NV. -/
def lrnErase (now : Nat) (p : Polder) : Polder := nvTouch now 5 p { p.nv.image with learner := none }

/-- The section may be restored: its bases, f_nom and topology are those in force. -/
def sectionFits (p : Polder) (s : LrnSave) : Bool :=
  s.sbase == rd p A.SWG_SBASE && s.vbase == rd p A.SWG_VBASE && s.fnom == fget p F.SWG_CTRL_FNOM && s.topo == fget p F.EMB_CTRL_TOPO

/-- A set of zeros, with its sweep (CLEAR). -/
def lrnZero (now : Nat) (p : Polder) : Polder :=
  sweepStart now false (lrnQ p.lrn.inForce A.LRN_CLIM) (wr (wrAll p ((List.range 384).map fun i => (A.LRN_COEF i, 0))) A.LRN_CYCLES 0)

/-- The stored set is loaded and swept. -/
def lrnLoad (now : Nat) (s : LrnSave) (p : Polder) : Polder :=
  let ws := (List.range 384).map fun i => (A.LRN_COEF i, cellGet (fun _ => 0) s.coef i)
  let p1 := wr (wrAll p ws) A.LRN_CYCLES (wordN s.cycles)
  evt F.LRN_EVT_WARM_OK (sweepStart now false (lrnQ p.lrn.inForce A.LRN_CLIM) { p1 with lrn := { p1.lrn with restoring := true } })

/-- The section stored in NV that passes the checks. -/
def goodSection (p : Polder) : Option LrnSave := match p.lrn.stored with
  | some s => if sectionFits p s then some s else none
  | none => none

/-- State OFF (R195). -/
def lrnOff (p : Polder) : Bool := fget p F.LRN_STAT_STATE == 0

/-- RESTORE under the checks of R199; only in OFF. One that fails leaves C and the tables as they are, and where no section is stored sets no `WARM_REJ`
(DESIGN CHOICE, notes/assumptions/16.md). -/
def lrnRestore (now : Nat) (p : Polder) : Polder :=
  if lrnOff p then match goodSection p with
    | some s => lrnLoad now s p
    | none => evtIf p.lrn.stored.isSome F.LRN_EVT_WARM_REJ p
  else p

/-- CLEAR; only in OFF. -/
def lrnClear (now : Nat) (p : Polder) : Polder := if lrnOff p then lrnZero now p else p

/-- A write of `LRN_CMD`: its actions in the order of the bits (DESIGN CHOICE, notes/assumptions/16.md). -/
def lrnCmd (now : Nat) (w : Word) (p : Polder) : Polder :=
  let p1 := if bitOf w 0 then lrnSave now p else p
  let p2 := if bitOf w 1 then lrnRestore now p1 else p1
  let p3 := if bitOf w 2 then lrnClear now p2 else p2
  if bitOf w 3 then lrnErase now p3 else p3

/-- LEARNER_AUTOSAVE (R198). -/
def lrnAutosave (now : Nat) (p : Polder) : Polder :=
  if lrnB p.lrn.inForce F.LRN_CTRL_AUTOSAVE && decide (lrnN p.lrn.inForce A.LRN_SAVEINT * 60 * sec ≤ p.lrn.learnTime) then
    lrnSave now { p with lrn := { p.lrn with learnTime := 0 } }
  else p

/-- Entry to STOPPING from FORMING (R198). -/
def lrnStopSave (now : Nat) (p : Polder) : Polder := if lrnB p.lrn.inForce F.LRN_CTRL_AUTOSAVE then lrnSave now p else p

/-! ### At a swing-engine update (R190, R192, R194 to R196, R199) -/

/-- The warm start when the weight first starts to rise after boot (R199). -/
def warmStart (now : Nat) (p : Polder) : Polder :=
  let p1 := { p with lrn := { p.lrn with warmDone := true } }
  if lrnB p.lrn.inForce F.LRN_CTRL_WARM then match goodSection p with
    | some s => lrnLoad now s p1
    | none => lrnZero now (evtIf p.lrn.stored.isSome F.LRN_EVT_WARM_REJ p1)
  else p1

/-- The weight, and the state code, after an update that advanced the phase by `inc` in 2^-64 revolutions (R194, R195). -/
def weight (p : Polder) (r : Nat → Bool) (inc : Int) : Int × Nat :=
  let c := p.lrn.inForce
  let w := p.lrn.wl
  let d := openDiv r 68 inc (16 * lrnN c A.LRN_FADE)
  let en := lrnB c F.LRN_CTRL_EN
  let up := min one60 (w + d)
  let dn := max 0 (w - d)
  match regime p with
  | 7 =>
    if en then
      if p.lrn.restoring then (w, 0)
      else if up < one60 then (up, 1)
      else if fbit p F.PCT_REGIME_RIDE || lrnB c F.LRN_CTRL_FREEZE then (up, 3) else (up, 2)
    else if dn = 0 then (0, 0) else (dn, 4)
  | 8 => if w = 0 then (0, 0) else (w, 3)
  | _ => (0, 0)

/-- The cycle that a wrap of θ ends: an update of the coefficients is due, or the cycle is skipped (R190, R192). -/
def endCycle (r : Nat → Bool) (p : Polder) : Polder :=
  let l := p.lrn
  if l.learnAll && decide (0 < l.wCount) then
    if l.ilim || l.flagged || decide (lrnQ l.inForce A.LRN_DFUPD < l.wMax - l.wMin) then
      evt F.LRN_EVT_SKIP (addSat p A.LRN_SKIPS 1)
    else { p with lrn := { l with job := some (l.inForce, openDiv r 69 (l.wSum * (if tookBit p F.SWG_CTRL_FNOM then 60 else 50)) l.wCount, l.eps.reverse) } }
  else p

/-- Lane L at an update of the law (R187, R245): when θ has passed m / 256 rev on its way from `acc` by `inc`, in 2^-64 revolutions, sample m of each phase
is formed from the errors of this update and of the one before. The sample, and its flag. -/
def laneL (r : Nat → Bool) (acc inc : Nat) (e : Int × Int × Int) (flag : Nat) (l : LrnState) : Option ((Int × Int × Int) × Nat) :=
  let unit := 72057594037927936
  if inc = 0 ∨ acc / unit = (acc + inc) / unit then none
  else
    let before := l.lastEps.getD (e, flag)
    let at' := (acc + inc) / unit * unit - acc
    let f := fun k => resample r (3210 + k) (epsOf before.1 k) (epsOf e k) at' inc
    some ((f 0, f 1, f 2), max before.2 flag)

/-- What the learner takes from a swing-engine update: the phase before it and its increment in 2^-64 revolutions, ω after it, wrap of θ, ILIM, the errors of
the three phases with their flag, and whether the law ran. -/
structure LrnIn where
  acc : Nat
  inc : Int
  w : Int
  wrap : Bool
  ilim : Bool
  eps : Int × Int × Int
  flag : Nat
  law : Bool

/-- The learner at a swing-engine update. The cycle that ends at a wrap is worked off with the values in force before it, and minutes in LEARN count while
`AUTOSAVE` is 0 too (DESIGN CHOICE for both, notes/assumptions/16.md). -/
def lrnUpdate (now : Nat) (x : LrnIn) (p : Polder) : Polder :=
  let r := rounding p
  let p0 := if x.wrap then
      let q := endCycle r p
      { q with lrn := { q.lrn with inForce := lrnCells p } }
    else p
  let rising := regime p0 == Rg.forming && lrnB p0.lrn.inForce F.LRN_CTRL_EN
  let p1 := if rising && !p0.lrn.warmDone then warmStart now p0 else p0
  let y := weight p1 r x.inc
  let learn := y.2 == 2
  let l := p1.lrn
  let lane := if x.law then laneL r x.acc x.inc.toNat x.eps x.flag l else none
  let bad := lane.any fun s => s.2 != 0
  let one := (lane.map (·.1)).toList
  let l1 := if x.wrap || l.wCount = 0 then
      { l with
        learnAll := learn, ilim := x.ilim, flagged := bad, wMin := x.w, wMax := x.w, wSum := x.w, wCount := 1, eps := one }
    else
      { l with
        learnAll := l.learnAll && learn, ilim := l.ilim || x.ilim, flagged := l.flagged || bad, wMin := min l.wMin x.w,
        wMax := max l.wMax x.w, wSum := l.wSum + x.w, wCount := l.wCount + 1, eps := (one ++ l.eps).take 256 }
  let dt := if learn then min (now - l.learnAt) (4 * us) else 0
  let l2 := { l1 with
    wl := y.1, learnTime := l.learnTime + dt, learnAt := now, lastEps := if x.law then some (x.eps, x.flag) else none,
    lastRead := if x.law then (tableIx ((x.acc + x.inc.toNat) % 18446744073709551616 / 4294967296) + 1) % 4096 else l.lastRead }
  sweepOn (fput { p1 with lrn := l2 } F.LRN_STAT_STATE y.2)

end Sys2Proof.Machine
end

