-- ==== Sys2Proof/Machine/Line.lean ====
section
/-!
DEFINITION. The symbols of the Zentik links (R292, R298): 8b/10b code groups with running disparity. The spec names the code and gives no
table of it: the groups are those of the published 8b/10b code (PRESUMED, notes/assumptions/25.md).
-/
namespace Sys2Proof.Machine
open Sys2Proof

/-- A symbol on the line: the comma K28.5, or a data byte. -/
inductive Symbol where
  | k285
  | data (b : Byte)
  deriving DecidableEq, Repr

/-- Ones among the lowest ten bits. -/
def ones (c : Nat) : Nat := ((List.range 10).filter fun k => c.testBit k).length

/-- The six-bit groups of the low five bits of a byte at negative disparity. -/
def sixes : List Nat := [39, 29, 45, 49, 53, 41, 25, 56, 57, 37, 21, 52, 13, 44, 28, 23, 27, 35, 19, 50, 11, 42, 26, 58, 51, 38, 22, 54, 14, 46, 30, 43]

/-- The four-bit groups of the high three bits at negative disparity. -/
def fours : List Nat := [11, 9, 5, 12, 13, 10, 6, 14]

/-- Group of five bits; `pos` is a positive running disparity, which complements every group that is not neutral. -/
def group6 (pos : Bool) (x : Nat) : Nat :=
  let c := sixes.getD x 0
  if pos && (ones c != 3 || x == 7) then 63 - c else c

/-- Group of three bits after the five bits `x`; `pos` is the disparity after their group. -/
def group4 (pos : Bool) (x y : Nat) : Nat :=
  let alt := y == 7 && (if pos then [11, 13, 14] else [17, 18, 20]).contains x
  let c := if alt then 7 else fours.getD y 0
  if pos && (ones c != 2 || y == 3) then 15 - c else c

/-- Disparity after a code group with `n` of its bits in the balance. -/
def after (pos : Bool) (half c : Nat) : Bool := if ones c = half then pos else decide (half < ones c)

/-- One symbol as a ten-bit group, its first bit on the line highest, and the disparity after it. -/
def encodeSymbol (pos : Bool) : Symbol → BitVec 10 × Bool
  | .k285 => (if pos then 0x305#10 else 0x0FA#10, !pos)
  | .data b =>
    let x := b.toNat % 32
    let six := group6 pos x
    let mid := after pos 3 six
    let four := group4 mid x (b.toNat / 32)
    (BitVec.ofNat 10 (six * 16 + four), after mid 2 four)

/-- Symbols one after another. -/
def encodeSymbols (pos : Bool) : List Symbol → List (BitVec 10) × Bool
  | [] => ([], pos)
  | s :: rest =>
    let r := encodeSymbol pos s
    let q := encodeSymbols r.2 rest
    (r.1 :: q.1, q.2)

/-- The four data symbols of a frame, bits 31:24 first (R292). -/
def frameSymbols (w : Word) : List Symbol := [24, 16, 8, 0].map fun k => .data (BitVec.ofNat 8 (w.toNat / 2 ^ k))

/-- The four symbols of a training frame (R298): K28.5, capabilities, state byte, and the XOR of these two. -/
def trainingSymbols (caps state : Nat) : List Symbol :=
  [.k285, .data (BitVec.ofNat 8 caps), .data (BitVec.ofNat 8 state), .data (BitVec.ofNat 8 (caps ^^^ state))]

end Sys2Proof.Machine
end

