-- ==== Sys2Proof/Machine/Access.lean ====
section
/-!
DEFINITION. Rules of register accesses: field masks by access type (R37, R513), stated ranges (R9), access errors (R36, R40 to R42).
-/
namespace Sys2Proof.Machine
open Sys2Proof

/-- Row of a polder register and its index, `none` where no register stands (memory regions included). -/
def polRow (off : Nat) : Option (RegRow × Nat) := if off % 4 = 0 then findRow (blockRows (off / 65536)) off else none

/-- The bits of a register that belong to fields of the given access types. -/
def accMask (r : RegRow) (l : List Acc) : Word :=
  r.fields.foldl (fun m f => if l.contains f.acc then m ||| maskBits f.hi f.lo else m) 0

/-- The nibbles of a code are all below a bound. -/
def nibblesBelow (b : Nat) : Nat → Nat → Bool
  | 0, _ => true
  | n + 1, v => decide (v % 16 < b) && nibblesBelow b n (v / 16)

/-- A code of a field of `w` bits lies in the field's range (R9). -/
def rngOk (w : Nat) (r : Rng) (v : Nat) : Bool := match r with
  | .any => true
  | .nat lo hi => decide (lo ≤ v ∧ v ≤ hi)
  | .int lo hi => decide (lo ≤ signed w v ∧ signed w v ≤ hi)
  | .codes l => l.contains v
  | .mult lo hi step => decide (lo ≤ v ∧ v ≤ hi) && v % step == 0
  | .mask m => v &&& m == v
  | .halves n => nibblesBelow n (w / 4) v
  | .conn => v % 65536 != 65535 && v / 65536 != 65535
  | .ipmask => (let n := 4294967295 - v % 4294967296; n &&& (n + 1) == 0)

/-- Every field of the given types that the mask touches holds an allowed code in `w`. -/
def fieldsOk (r : RegRow) (l : List Acc) (mask w : Word) : Bool :=
  r.fields.all fun f => !l.contains f.acc || (mask &&& maskBits f.hi f.lo) == 0 || rngOk (f.hi + 1 - f.lo) f.rng (bitsOf w f.hi f.lo)

/-- Node IDs that `GAL_PROBE` refuses (R209). -/
def reservedNode (v : Nat) : Bool := decide (0x58 ≤ v ∧ v ≤ 0x5F) || decide (0x94 ≤ v ∧ v ≤ 0xBF)

/-- Conditions on a register's word that join two of its fields, or its bytes: `CAP_CTRL.TCH` below the channel count, probe IDs (R209). -/
def extraOk (off : Nat) (mask w : Word) : Bool :=
  if off = A.CAP_CTRL then decide (bitsOf w F.CAP_CTRL_TCH.hi F.CAP_CTRL_TCH.lo ≤ bitsOf w F.CAP_CTRL_NCH.hi F.CAP_CTRL_NCH.lo)
  else if A.GAL_PROBE 0 ≤ off ∧ off ≤ A.GAL_PROBE 3 then
    [0, 1, 2, 3].all fun k => bitsOf mask (8 * k + 7) (8 * k) == 0 || !reservedNode (bitsOf w (8 * k + 7) (8 * k))
  else true

/-- The fields of an access error entered into a word of the layout of `PCT_ACCERR`, with `VALID`. -/
def accWord (old : Word) (kind sender off : Nat) : Word :=
  withBits (withBits (withBits (old ||| 0x80000000#32) 29 28 kind) 27 24 sender) 23 2 (off / 4)

/-- Record of an access error (R40, R41): the register's word after it, and the cycle of the error it records. `at'` is the cycle of
the recorded one, `c` the present cycle. -/
def accNext (old : Word) (at' c : Nat) (kind sender off : Nat) : Word × Nat :=
  if !bitOf old 31 then (accWord old kind sender off, c)
  else if at' = c ∧ sender < bitsOf old 27 24 then (accWord (old ||| 0x40000000#32) kind sender off, c)
  else (old ||| 0x40000000#32, at')

/-- Kinds of access error. -/
abbrev Kind.unmapped : Nat := 0
abbrev Kind.noDirect : Nat := 1
abbrev Kind.rws : Nat := 2
abbrev Kind.unaligned : Nat := 3

/-- An access error in a polder window (R40). -/
def accErr (now kind sender off : Nat) (p : Polder) : Polder :=
  let r := accNext (rd p A.PCT_ACCERR) p.eng.accAt (now / cyc) kind sender off
  marked A.PCT_ACCERR (if bitOf (rd p A.PCT_ACCERR) 31 then 0x40000000#32 else 0x80000000#32)
    { wr p A.PCT_ACCERR r.1 with eng := { p.eng with accAt := r.2 } }

/-- An access error in the Hall window, in the Dikehouse window (R42). -/
def accErrH (now kind sender off : Nat) (h : Hall) : Hall :=
  let r := accNext (hrd h A.HAL_ACCERR) h.accAt (now / hallCyc) kind sender off
  hmark now A.HAL_ACCERR (if bitOf (hrd h A.HAL_ACCERR) 31 then 0x40000000#32 else 0x80000000#32) { hwr h A.HAL_ACCERR r.1 with accAt := r.2 }
def accErrK (now kind sender off : Nat) (d : Dikehouse) : Dikehouse :=
  let r := accNext (krd d A.DKH_ACCERR) d.accAt (now / dkhCyc) kind sender off
  kmark now A.DKH_ACCERR (if bitOf (krd d A.DKH_ACCERR) 31 then 0x40000000#32 else 0x80000000#32) { kwr d A.DKH_ACCERR r.1 with accAt := r.2 }

/-- What R513 makes of a direct write to a register: an access error of a kind, a refusal under R9, or the new stored word and the
bits of WO fields that act. Bits 31 and 30 of the access-error registers, as other W1C bits, clear on a 1. -/
inductive WriteOut where
  | error (kind : Nat)
  | range
  | word (w : Word) (acts : Word)
  deriving DecidableEq, Repr

/-- A direct write of `v` to a register holding `old` (R9, R37, R513). A 1 does not clear the bits `kept`, which hardware has set in the same
cycle (R38). -/
def directWord (r : RegRow) (old v : Word) (kept : Word := 0) : WriteOut :=
  if accMask r [.rw, .w1c, .wo] = 0 then .error (if accMask r [.rws] = 0 then Kind.noDirect else Kind.rws)
  else if !fieldsOk r [.rw, .wo] (BitVec.allOnes 32) v then .range
  else
    let w := merge old (accMask r [.rw]) v
    .word (w &&& ~~~ (v &&& accMask r [.w1c] &&& ~~~ kept)) (v &&& accMask r [.wo])

end Sys2Proof.Machine
end

