-- ==== Sys2Proof/Machine/Sluices.lean ====
section
/-!
DEFINITION. The sluices of a polder (spec/09, R273 to R288): opening, staging against the limits table, the checks of a commit, aborts.
The writes of a commit stand in Commit.lean.
-/
namespace Sys2Proof.Machine
open Sys2Proof

def slu (p : Polder) (n : Nat) : Sluice := vget p.sts.sluices n {}
def setSlu (p : Polder) (n : Nat) (x : Sluice) : Polder := { p with sts := { p.sts with sluices := vset p.sts.sluices n x } }

/-- State code of R273. -/
def SluiceState.code : SluiceState → Nat
  | .free => 0 | .opened => 1 | .scheduled => 2 | .check => 3

/-- `STS_SLUn`. -/
def sluWord (x : Sluice) : Word :=
  let owner := if x.st = .free then 15 else x.owner % 16
  wordN (x.st.code * 268435456 + owner * 16777216 + x.reason % 16 * 1048576 + bn x.timed * 32768 + bn x.reqGood * 16384 +
    x.entries.length % 128 * 128)

/-- Close reasons of `STS_SLUn.REASON`. -/
abbrev Rsn.committed : Nat := 0
abbrev Rsn.abort : Nat := 1
abbrev Rsn.conflict : Nat := 2
abbrev Rsn.range : Nat := 3
abbrev Rsn.state : Nat := 4
abbrev Rsn.timeq : Nat := 5
abbrev Rsn.trip : Nat := 6
abbrev Rsn.clock : Nat := 7
abbrev Rsn.token : Nat := 8
abbrev Rsn.idle : Nat := 9
abbrev Rsn.reset : Nat := 10
abbrev Rsn.sleep : Nat := 11

/-- Status of a command whose sluice closed with a reason (R288). -/
def rsnStatus (r : Nat) : Nat := match r with
  | 0 => Status.ok
  | 2 => Status.conflict
  | 3 => Status.range
  | _ => Status.state

/-- Final payload of a timed command once its sluice has closed (R118, R262, R288). -/
def finalPayload (p : Polder) (op n : Nat) : List Byte :=
  if op = Op.sluiceCommit then wBytes (sluWord (slu p n))
  else if op = Op.requestRegime then wBytes (rd p A.PCT_REGIME)
  else if op = Op.captureControl then wBytes (rd p A.CAP_STAT)
  else []

/-- SLUICE notification (R287): number, reason, entries, reserved byte, instant. -/
def notifySluice (owner n reason entries : Nat) (at' : Int) (p : Polder) : Polder :=
  emit p (.toSession owner p.id.num 0 3 0 (leBytes 1 n ++ leBytes 1 reason ++ leBytes 1 entries ++ [0] ++ stamp10 at'))

/-- A sluice closes: FREE with its reason, the notification of R287 when it is due, and the DONE of a timed command with the status `st`, `none` where
the evaluation of a regime request sends it (R118, R288). -/
def sluClose (n reason : Nat) (tell : Bool) (st : Option Nat) (at' : Int) (p : Polder) : Polder :=
  let x := slu p n
  let p1 := setSlu p n { reason := reason }
  let p2 := if tell then notifySluice x.owner n reason x.entries.length at' p1 else p1
  match x.cmd, st with
  | some c, some v => done p2 c ⟨v, reason, finalPayload p2 c.opcode n⟩
  | _, _ => p2

/-- An abort (R285). `asked` says that the owner requested it. -/
def sluAbort (now n reason : Nat) (asked : Bool) (p : Polder) : Polder :=
  let x := slu p n
  if x.st = .free then p
  else
    let p0 := logRec now 7 reason Sev.warn (leBytes 1 n ++ leBytes 1 x.entries.length ++ leBytes 1 x.owner) p
    let p1 := evtIf (reason == Rsn.conflict) F.STS_EVT_CONFLICT (evt F.STS_EVT_ABORT (addSat p0 A.STS_ABORTS 1))
    sluClose n reason (x.timed || !asked) (some (rsnStatus reason)) (presented p1 now) p1

/-- Every sluice that a condition picks aborts. -/
def sluAbortWhere (now reason : Nat) (f : Sluice → Bool) (p : Polder) : Polder :=
  (List.range 8).foldl (fun q n => if f (slu q n) then sluAbort now n reason false q else q) p

/-- All sluices abort: a trip, loss of lock, reset of the SE, entry to SLEEP (R285). -/
def sluAbortAll (now reason : Nat) (p : Polder) : Polder := sluAbortWhere now reason (fun x => x.st != .free) p

/-- The OPEN sluices of a session abort: its lease lapsed or it closed (R285, R286). -/
def sluAbortOwner (now owner : Nat) (p : Polder) : Polder :=
  sluAbortWhere now Rsn.token (fun x => x.st == .opened && x.owner == owner) p

/-- The lowest FREE sluice (DEDUCED: R274 names no order; notes/assumptions/23.md). -/
def sluFree (p : Polder) : Option Nat := (List.range 8).find? fun n => (slu p n).st == .free

/-- A sluice opened for a session (R274). -/
def sluOpen (now n owner : Nat) (p : Polder) : Polder := setSlu p n { st := .opened, owner := owner, lastUse := now, reason := (slu p n).reason }

/-! ### Staging (R275 to R277) -/

/-- The stored bits that an entry writes. -/
def storedMask (r : RegRow) : Word := accMask r [.rw, .rws]

/-- The word of a register with the entries of a list applied to the value in force. -/
def staged (p : Polder) (l : List Entry) (off : Nat) (r : RegRow) : Word :=
  l.foldl (fun w e => if e.off = off then merge w (e.mask &&& storedMask r) e.val else w) (rd p off)

/-- Registers and bits that can be staged only while the modulator does not switch or the law does not run, which are the same regimes
(R72, R148, R162, R219, R227, R244, R316, R361, R370). -/
def restrictedMask (off : Nat) : Word :=
  let fm := fun (f : Fld) => maskBits f.hi f.lo
  let all : Word := BitVec.allOnes 32
  if [A.SWG_SBASE, A.SWG_VBASE, A.SWG_SCL_I, A.SWG_SCL_V, A.SWG_SCL_DC, A.EMB_XL, A.AFE_TEST].contains off then all
  else if off = A.SWG_CTRL then fm F.SWG_CTRL_FNOM
  else if off = A.EMB_CTRL then fm F.EMB_CTRL_TOPO ||| fm F.EMB_CTRL_CM_EST ||| fm F.EMB_CTRL_ZS_REMOVE
  else if off = A.MOD_CTRL then fm F.MOD_CTRL_MODE ||| fm F.MOD_CTRL_AUX_CFG
  else if off = A.AFE_CTRL then fm F.AFE_CTRL_TRIG
  else if A.FLT_RESP 0 ≤ off ∧ off ≤ A.FLT_RESP 14 then fm (F.FLT_RESP_C 0)
  else if off = A.SPB_CFG ∨ (A.SPB_FILT ≤ off ∧ off ≤ A.SPB_TESTINT) then all
  else if off = A.CLK_CFG then fm F.CLK_CFG_NINT ||| fm F.CLK_CFG_SEARCH
  else if A.GLK_CFG 0 ≤ off ∧ off ≤ A.GLK_ISFS 3 ∧ (off % 256 = 0 ∨ off % 256 = 4) then all
  else 0

/-- An entry is barred by the regime (R276). -/
def restricted (p : Polder) (e : Entry) : Bool := switching p && (e.mask &&& restrictedMask e.off) != 0

/-- Outputs assigned to the regime machine (R92), bit k for DOk. -/
def assigned (w : Word) : Nat :=
  (if bitsOf w 31 31 = 1 then 2 ^ bitsOf w 30 29 else 0) ||| (if bitsOf w 24 24 = 1 then 2 ^ bitsOf w 23 22 else 0)

/-- `BRK_DO` and `PRE_DO` name one output with both enabled (R92). -/
def doClash (w : Word) : Bool := bitsOf w 31 31 == 1 && bitsOf w 24 24 == 1 && bitsOf w 30 29 == bitsOf w 23 22

/-- Status with which staging refuses an entry, 0 when it takes it, after the entries already staged (R92, R275, R276, R327). Where several
grounds hold, the range is named first (DESIGN CHOICE, notes/assumptions/23.md). -/
def entryStatus (p : Polder) (before : List Entry) (e : Entry) : Nat := match polRow e.off with
  | none => Status.range
  | some (r, _) =>
    let m := e.mask &&& accMask r [.rws, .rw, .wo]
    let w := merge (staged p before e.off r) m e.val
    if accMask r [.rws, .rw, .wo] = 0 then Status.range
    else if !fieldsOk r [.rws, .rw] e.mask w || !fieldsOk r [.wo] e.mask (e.val &&& e.mask) || !extraOk e.off m w then Status.range
    else if e.off = A.PCT_REGCFG ∧ doClash w then Status.range
    else if e.off = A.FIO_DOCMD ∧ bitsOf e.mask 3 0 &&& assigned (rd p A.PCT_REGCFG) ≠ 0 then Status.locked
    else if restricted p e then Status.state
    else Status.ok

/-- Status of staging entries one after another: the first refusal, or 0. -/
def stageStatus (p : Polder) : List Entry → List Entry → Nat
  | _, [] => Status.ok
  | before, e :: l => match entryStatus p before e with
    | 0 => stageStatus p (before ++ [e]) l
    | st => st

/-- Entries numbered in the order of staging. -/
def stampFrom : Nat → List (Nat × Word × Word) → List Entry
  | _, [] => []
  | k, (o, m, v) :: l => ⟨o, m, v, k⟩ :: stampFrom (k + 1) l

/-- All entries of one staging command, or none (R277): the status, and the polder. -/
def sluStage (now n : Nat) (l : List (Nat × Word × Word)) (p : Polder) : Nat × Polder :=
  let x := slu p n
  let es := stampFrom p.sts.stamp l
  if 64 < x.entries.length + l.length then (Status.range, p)
  else match stageStatus p x.entries es with
    | 0 =>
      let p1 := setSlu p n { x with entries := x.entries ++ es, lastUse := now }
      (Status.ok, { p1 with sts := { p1.sts with stamp := p.sts.stamp + l.length } })
    | st => (st, p)

/-! ### The check of a commit (R280) -/

/-- Stored fields after the entries of a sluice, without the actions of WO fields. -/
def withEntries (p : Polder) (l : List Entry) : Polder :=
  l.foldl (fun q e => match polRow e.off with
    | some (r, _) => wr q e.off (merge (rd q e.off) (e.mask &&& storedMask r) e.val)
    | none => q) p

/-- Envelope times do not decrease (R106). -/
def envelopeOk (q : Polder) (base : Nat → Nat) : Bool :=
  (List.range 15).all fun k => bitsOf (rd q (base k)) 31 16 ≤ bitsOf (rd q (base (k + 1))) 31 16

/-- Upper and lower threshold codes of a comparator. -/
def cmpHi (q : Polder) (k : Nat) : Int := signed 8 (fget q (F.AFE_CMP_THR_HI k))
def cmpLo (q : Polder) (k : Nat) : Int := signed 8 (fget q (F.AFE_CMP_THR_LO k))

/-- A tap allows a stream (R253). -/
def tapAllows (tap stream : Nat) : Bool := tap != 0 || stream ≤ 2

/-- The capture configuration fits (R255, R257). -/
def captureOk (q : Polder) : Bool :=
  let n := fget q F.CAP_CTRL_NCH + 1
  decide (rdN q A.CAP_LEN * 4 * wordsPerRow (fget q F.CAP_CTRL_FORMAT) n ≤ 196608) && decide (rdN q A.CAP_PRE < rdN q A.CAP_LEN) &&
    (List.range n).all (fun k => tapAllows (fget q F.CAP_CTRL_TAP) (bitsOf (rd q (A.CAP_CHSEL (k / 8))) (4 * (k % 8) + 3) (4 * (k % 8)))) &&
    (fget q F.CAP_CTRL_TSRC != 2 || decide (rdI q A.CAP_TLEVEL < rdI q A.CAP_THI))

/-- N of the PLL in 2^-24 (R368). -/
def pllN (q : Polder) : Nat := fget q F.CLK_CFG_NINT * 16777216 + fget q F.CLK_FRAC_FRAC

/-- Nominal VCO frequency within 3.2 GHz ± 500 ppm (R368). -/
def vcoOk (q : Polder) : Bool :=
  let f := rdN q A.CLK_FREF * pllN q
  decide (3198400000 * 16777216 ≤ f ∧ f ≤ 3201600000 * 16777216)

/-- The change of N exceeds 2 ppm (R370). -/
def nJump (p q : Polder) : Bool := decide (pllN p * 2 < (max (pllN p) (pllN q) - min (pllN p) (pllN q)) * 1000000)

/-- Safety parameters of R361. -/
def safetyOk (q : Polder) : Bool :=
  decide (rdN q A.SPB_FILT < rdN q A.SPB_DISC * 1000) && decide (rdN q A.SPB_CMPWIN < rdN q A.SPB_WD * 1000) &&
    !(fbit q F.SPB_CFG_TX_EN && bitsOf (rd q A.SPB_CONN) 15 0 == 0) && !(fbit q F.SPB_CFG_NET_EN && bitsOf (rd q A.SPB_CONN) 31 16 == 0)

/-- The cross-register rules of the limits table, over the values before and after. -/
def crossOk (p q : Polder) : Bool :=
  !doClash (rd q A.PCT_REGCFG) && envelopeOk q A.SWG_UVENV && envelopeOk q A.SWG_OVENV &&
    decide (rdI q A.SWG_DCG_LO ≤ rdI q A.SWG_DCG_HI) && decide (rdI q A.SWG_SYNC_VLO ≤ rdI q A.SWG_SYNC_VHI) &&
    decide (rdI q A.EMB_HMIN ≤ rdI q A.EMB_HMAX) && decide (rdI q A.MOD_CHOP_OFF < rdI q A.MOD_CHOP_ON) &&
    decide (rdN q A.GAL_LEN * fget q F.GAL_CTRL_NPROBE ≤ 32768) && decide (rdN q A.GAL_PRE < rdN q A.GAL_LEN) &&
    (List.range 6).all (fun k => decide (cmpLo q k < cmpHi q k)) && captureOk q && decide (rdI q A.DIK_DCLO < rdI q A.DIK_DCHI) &&
    (List.range 4).all (fun n => decide (fget q (F.GLK_CFG_VMIN n) ≤ fget q (F.GLK_CFG_VMAX n))) &&
    (List.range 3).all (fun n => !fbit q (F.GLK_CFG_EN n) || fget q (F.GLK_CFG_NSW n) == bn (fget q F.EMB_CTRL_TOPO != 0)) &&
    (List.range 4).all (fun k => decide (fget q (F.FIO_DOCFG_RB_MASK k) * 10 + 20 ≤ fget q (F.FIO_DOCFG_TP_W k))) &&
    safetyOk q && vcoOk q && !(switching p && nJump p q) &&
    !(fbit q (F.TIM_DOMCFG_EN 0) && fbit q (F.TIM_DOMCFG_EN 1) && fget q (F.TIM_DOMCFG_DOMAIN 0) == fget q (F.TIM_DOMCFG_DOMAIN 1))

/-- A sluice put before the first of a list whose commit instant comes after its own. -/
def byInstant (x : Sluice) : List Sluice → List Sluice
  | [] => [x]
  | y :: l => if x.commitAt < y.commitAt then x :: y :: l else y :: byInstant x l

/-- Entries of the sluices in CHECK whose commit instant comes before `t`, in the order of their instants (R280). -/
def earlierEntries (p : Polder) (n t : Nat) : List Entry :=
  let l := (List.range 8).filterMap fun k =>
    let x := slu p k
    if k ≠ n ∧ x.st = .check ∧ x.commitAt < t then some x else none
  (l.foldl (fun a x => byInstant x a) []).flatMap fun x => x.entries

/-- The check of R280: `none` when the sluice may commit, otherwise the reason of its abort. -/
def checkReason (p : Polder) (x : Sluice) (before : List Entry) (q3 : Bool) : Option Nat :=
  let base := withEntries p before
  let after := withEntries base x.entries
  let bad := x.entries.any fun e => e.off == A.FIO_DOCMD && bitsOf e.mask 3 0 &&& assigned (rd after A.PCT_REGCFG) != 0
  if !crossOk base after then some Rsn.range
  else if x.entries.any (restricted p) || bad then some Rsn.state
  else if x.reqGood && x.timed && !q3 then some Rsn.timeq
  else none

/-! ### Conflicts (R283) -/

/-- The CLK_P cycle of the commit at presented time `t` ns, counted on TBL: that of a step of presented time which passed the instant (R386). -/
def commitCycle (p : Polder) (now t : Nat) : Int :=
  let d : Int := presented p now - tblAt p.tim now
  max ((((t * ns : Nat) : Int) - d + (cyc : Nat) - 1) / (cyc : Nat)) (p.tim.stepCyc.getD 0)

/-- Highest stamp of an entry of `x` whose register an entry of `y` addresses. -/
def clashStamp (x y : Sluice) : Option Nat :=
  (x.entries.filter fun e => y.entries.any fun g => g.off == e.off).foldl (fun m e => some (max (m.getD 0) e.stamp)) none

/-- Scheduled sluices that conflict with sluice `n` committing in cycle `c`: their numbers, and whether `n` is the later staged. -/
def conflicts (p : Polder) (now n : Nat) (c : Int) : List (Nat × Bool) :=
  (List.range 8).filterMap fun k =>
    let y := slu p k
    if k = n ∨ (y.st ≠ .scheduled ∧ y.st ≠ .check) ∨ commitCycle p now y.commitAt ≠ c then none
    else match clashStamp (slu p n) y, clashStamp y (slu p n) with
      | some a, some b => some (k, decide (b < a))
      | _, _ => none

end Sys2Proof.Machine
end

