-- ==== Sys2Proof/Machine/Modulator.lean ====
section
/-!
DEFINITION. The modulator (spec/05): levels and switch states, level changes with dead time and minimum pulse, timers, carrier, bootstrap
refresh, double-buffered registers and the sequenced safe state. Legs are numbered as their links: 0 a, 1 b, 2 c, 3 auxiliary.
-/
namespace Sys2Proof.Machine
open Sys2Proof

def leg (p : Polder) (i : Nat) : Leg := vget p.mdl.legs i {}
def setLeg (p : Polder) (i : Nat) (l : Leg) : Polder := { p with mdl := { p.mdl with legs := vset p.mdl.legs i l } }
def modLeg (p : Polder) (i : Nat) (f : Leg → Leg) : Polder := setLeg p i (f (leg p i))
def linkOf (p : Polder) (i : Nat) : Link := vget p.links i {}
def setLink (p : Polder) (i : Nat) (l : Link) : Polder := { p with links := vset p.links i l }
def modLink (p : Polder) (i : Nat) (f : Link → Link) : Polder := setLink p i (f (linkOf p i))
def phaseOf (p : Polder) (i : Nat) : EmbPhase := vget p.emb.ph i {}
def setPhase (p : Polder) (i : Nat) (x : EmbPhase) : Polder := { p with emb := { p.emb with ph := vset p.emb.ph i x } }

/-! ### `EMB_` settings in force since the last swing-engine update (R148) -/

def embN (p : Polder) (off : Nat) : Nat := (cellGet polReset p.emb.cfg off).toNat
def embF (p : Polder) (f : Fld) : Nat := bitsOf (cellGet polReset p.emb.cfg f.off) f.hi f.lo
def modPhase (p : Polder) (i : Nat) (f : EmbPhase → EmbPhase) : Polder := setPhase p i (f (phaseOf p i))

/-! ### Legs, levels and switch states (R154 to R156, R161) -/

/-- `MOD_CTRL.MODE` values (R161). -/
abbrev Mode.hb : Nat := 0
abbrev Mode.cot : Nat := 1
abbrev Mode.cft : Nat := 2
abbrev Mode.cpwm : Nat := 3

def modMode (p : Polder) : Nat := fget p F.MOD_CTRL_MODE

/-- The leg is 3-level: phase legs in the topologies NPC and T-type; GL3 is always 2-level (R183). -/
def threeLevel (p : Polder) (i : Nat) : Bool := i != 3 && embF p F.EMB_CTRL_TOPO != 0

/-- Switch states of a level (R155, R183), bit 0 S1 to bit 3 S4. -/
def levelSw (p : Polder) (i : Nat) : LegLevel → Nat
  | .off => 0
  | .pos => if threeLevel p i then 3 else 1
  | .zero => 6
  | .neg => if threeLevel p i then 12 else if i = 3 && fbit p F.MOD_CTRL_AUX_CFG then 0 else 8

/-- Commanded switch states of a leg in `MOD_SW`. -/
def swOf (p : Polder) (i : Nat) : Nat := bitsOf (rd p A.MOD_SW) (4 * i + 3) (4 * i)

/-- The leg works in the upper sector: by `SIDE` in CPWM, otherwise in the sector of the level it is commanded to, at 0 in that of the
controller (R139, R164). -/
def upperSector (p : Polder) (i : Nat) : Bool :=
  if modMode p = Mode.cpwm then (vget p.mdl.cmp i {}).inForce / 2147483648 == 0
  else match (leg p i).level with
    | .pos => true
    | .neg => false
    | _ => (phaseOf p i).upper

/-- The lower and the higher level that a leg moves between (R161). -/
def lowLevel (p : Polder) (i : Nat) : LegLevel := if threeLevel p i && upperSector p i then .zero else .neg
def highLevel (p : Polder) (i : Nat) : LegLevel := if threeLevel p i && !upperSector p i then .zero else .pos

/-- The level order −1 < 0 < +1. -/
def LegLevel.rank : LegLevel → Nat
  | .off => 0 | .neg => 1 | .zero => 2 | .pos => 3

/-- The link of the leg runs version 1 of the Zentik link. -/
def linkV1 (p : Polder) (i : Nat) : Bool := fget p (F.GLK_STAT_VER i) == 1

/-- Dead time of a leg in fs (R157, R158), in whole frames on a version 1 link (R160). -/
def deadFs (p : Polder) (i : Nat) : Nat :=
  let d := vget p.mdl.dt i 0 * bin
  if linkV1 p i then (d + 64 * ns - 1) / (64 * ns) * (64 * ns) else d

/-- Spacing rule of R159: the earliest command instant of the next level change. -/
def earliest (p : Polder) (i : Nat) (tc : Nat) : Nat :=
  let l := leg p i
  if l.moved then max tc (l.lastMove + deadFs p i + rdN p A.MOD_TMIN * bin) else tc

/-- Frame of a link to whose start an edge goes: 64 ns on a version 1 link (R160), 32 ns while the polder runs on the backup oscillator, whose
edges carry no fine time (R180); none otherwise. Frames start at multiples of their length from device time 0 (DESIGN CHOICE,
notes/assumptions/19.md). -/
def gridFs (p : Polder) (i : Nat) : Option Nat := if linkV1 p i then some (64 * ns) else if onPll p then none else some (32 * ns)

/-- An edge instant as the link carries it: the nearest frame start where edges have no fine time. -/
def edgeAt (p : Polder) (i : Nat) (t : Nat) : Nat := match gridFs p i with
  | some g => (t + g / 2) / g * g
  | none => t

/-- Lead of R129 without its dead-time share: T_link and `EMB_TEXT`. -/
def linkLead (p : Polder) (i : Nat) : Nat := (if linkV1 p i then 184 * ns else 120 * ns) + embN p A.EMB_TEXT * bin

/-- Earliest command instant under the hold-off of R133, for a move whose effective instant lies `lead` after it. -/
def holdBound (p : Polder) (i lead : Nat) : Nat := match (phaseOf p i).moveEff with
  | some e =>
    let g := if linkV1 p i then 64 * ns else bin
    (e + embN p A.EMB_HOLD * ns - lead + g - 1) / g * g
  | none => 0

/-! ### Edges -/

/-- Steps of the switches in a mask (R182): source steps of `on`, sink steps of `off`, four bits per switch. -/
def shapeSteps (w : Word) (on off : Nat) : Nat × Nat :=
  let src := (List.range 4).foldl (fun a k => if on / 2 ^ k % 2 = 1 then a + bitsOf w (8 * k + 7) (8 * k + 4) * 16 ^ k else a) 0
  let snk := (List.range 4).foldl (fun a k => if off / 2 ^ k % 2 = 1 then a + bitsOf w (8 * k + 3) (8 * k) * 16 ^ k else a) 0
  (src, snk)

/-- Current of a phase at its last sample (R182). -/
def lastCur (p : Polder) (i : Nat) : Int := ((phaseOf p i).pend.getLast?.map (·.cur)).getD (phaseOf p i).cur

/-- The step word of a leg for an edge (R182): `MOD_SHAPEHp` from the threshold current on, never on GL3 or in a refresh pulse. -/
def shapeWord (p : Polder) (i : Nat) (refresh : Bool) : Word :=
  if i != 3 && !refresh && decide (rdI p A.MOD_SHAPE_ITH * 2 ^ 32 ≤ absI (lastCur p i)) then rd p (A.MOD_SHAPEH i) else rd p (A.MOD_SHAPE i)

/-- An edge among those of its link: no blanking of R232 or R307 lasts longer than 65,535 ns. -/
def edgeSeen (t : Nat) (l : List Nat) : List Nat := t :: l.filter fun e => decide (t ≤ e + 65536 * ns)

/-- An edge of the link blanks at an instant, for a blanking time in ns. -/
def edgeBlank (p : Polder) (n now blank : Nat) : Bool := (linkOf p n).edgeTimes.any fun e => decide (e ≤ now ∧ now < e + blank * ns)

/-- The interlock of a link's datapath (R156): S1 conducts only with S3 off and, in a 3-level leg, S2 on; S4 only with S2 off and S3 on; in a
2-level leg not both. A switch that would break the rule is off (DESIGN CHOICE which: notes/assumptions/19.md). -/
def interlock (three : Bool) (sw : Nat) : Nat :=
  let s := sw % 16
  if three then
    (match s / 2 % 4 with
      | 1 => s % 4
      | 2 => s / 4 * 4
      | 3 => 6
      | _ => 0)
  else if s % 2 = 1 ∧ s / 8 = 1 then 0 else s

/-- The switches of a leg take new states at an instant, behind the interlock: `MOD_SW`, the edge for the link, and the blanking that starts
with it (R232, R307). -/
def putEdge (i t want sink source : Nat) (p : Polder) : Polder :=
  let new := interlock (threeLevel p i) want
  if swOf p i = new then p
  else
    let p1 := wr p A.MOD_SW (withBits (rd p A.MOD_SW) (4 * i + 3) (4 * i) new)
    modLink p1 i fun l => { l with edgeTimes := edgeSeen t l.edgeTimes, edges := l.edges ++ [⟨t, new, sink, source⟩] }

/-- Switch states change with the steps of the leg's shape. -/
def switchTo (i t new : Nat) (refresh : Bool) (p : Polder) : Polder :=
  let old := swOf p i
  let on := (new ^^^ old) &&& new
  let off := (new ^^^ old) &&& old
  let st := shapeSteps (shapeWord p i refresh) on off
  putEdge i t new st.2 st.1 p

/-- The steps of a packed step word that belong to the switches of a mask. -/
def maskSteps (w m : Nat) : Nat := (List.range 4).foldl (fun a k => if m / 2 ^ k % 2 = 1 then a + w / 16 ^ k % 16 * 16 ^ k else a) 0

/-- Safe-state edge at the instant the link carries it: it replaces every edge not yet sent, so that the link goes from the states it sent last to the
new ones (R160). Every turn-off uses `SS_SINK` (R177); a switch whose turn-on the edge takes over keeps the step of the edge replaced (R182). -/
def safeEdge (i at' new : Nat) (p : Polder) : Polder :=
  let t := edgeAt p i at'
  let same := swOf p i == new
  let p1 := wr p A.MOD_SW (withBits (rd p A.MOD_SW) (4 * i + 3) (4 * i) new)
  modLink p1 i fun l => { l with
    edgeTimes := if same && l.sentStates == new then l.edgeTimes else edgeSeen t l.edgeTimes,
    edges := if l.sentStates = new then []
      else [⟨t, new, fget p F.MOD_CTRL_SS_SINK * 4369, maskSteps ((l.edges.getLast?.map (·.source)).getD 0) (new &&& (15 ^^^ l.sentStates))⟩] }

/-! ### Double-buffered registers (R167, R168) -/

/-- Reload in the CLK_P cycle of `now`: the buffer as it stood at the end of the third cycle before; true when a write was deferred. -/
def reloadBuf (now : Nat) (b : Buffered) : Buffered × Bool :=
  let c := now / cyc
  let early := b.writes.filter (fun w => w.1 / cyc + 3 ≤ c)
  let late := b.writes.filter (fun w => ! (w.1 / cyc + 3 ≤ c))
  ({ inForce := (early.getLast?.map (·.2)).getD b.inForce, writes := late }, late.any (fun w => w.1 / cyc < c))

/-- A write into a buffer. -/
def bufWrite (now v : Nat) (b : Buffered) : Buffered := { b with writes := b.writes ++ [(now, v)] }

def lateIf (b : Bool) (p : Polder) : Polder := evtIf b F.MOD_STAT_LATE p

def reloadTtmr (now i : Nat) (p : Polder) : Polder :=
  let r := reloadBuf now (vget p.mdl.ttmr i {})
  lateIf r.2 { p with mdl := { p.mdl with ttmr := vset p.mdl.ttmr i r.1 } }

def reloadPer (now : Nat) (p : Polder) : Polder :=
  let r := reloadBuf now p.mdl.per
  lateIf r.2 { p with mdl := { p.mdl with per := r.1 } }

def reloadCmp (now i : Nat) (p : Polder) : Polder :=
  let r := reloadBuf now (vget p.mdl.cmp i {})
  lateIf r.2 { p with mdl := { p.mdl with cmp := vset p.mdl.cmp i r.1 } }

/-- Reload of TON alone: a new `SIDE` stays in the buffer until the next period boundary (R167). -/
def reloadTon (now i : Nat) (p : Polder) : Polder :=
  let b := vget p.mdl.cmp i {}
  let r := reloadBuf now b
  let side := b.inForce / 2147483648 * 2147483648
  let keep := (b.writes.filter (fun w => w.1 / cyc + 3 ≤ now / cyc)).getLast?.toList
  lateIf r.2 { p with mdl := { p.mdl with
    cmp := vset p.mdl.cmp i { inForce := side + r.1.inForce % 2147483648, writes := keep ++ r.1.writes } } }

/-- Carrier runs. -/
def carrierOn (p : Polder) : Bool := p.mdl.carrier.isSome

def modAfe (f : AfeState → AfeState) (p : Polder) : Polder := { p with afe := f p.afe }

/-- `AFE_STAT.CARRIER`: restarts are armed by a running carrier (R217). -/
def carrierShow (p : Polder) : Polder := fputB p F.AFE_STAT_CARRIER (carrierOn p && fget p F.AFE_CTRL_TRIG != 0)

/-- The carrier stops, and a restart of the slot frame that waits goes with it (R217). -/
def carrierStop (p : Polder) : Polder := carrierShow (modAfe (fun a => { a with restart := none }) { p with mdl := { p.mdl with carrier := none } })

/-- Instant of the frame restart that a carrier event at `e` asks for, in the first CLK_P cycle that begins at or after `AFE_TDLY` from it (R217,
R218; DEDUCED, notes/assumptions/21.md). -/
def restartAt (p : Polder) (e : Nat) : Nat := (e + rdN p A.AFE_TDLY * cyc + cyc - 1) / cyc * cyc

/-- A period boundary or centre that `TRIG` selects arms a restart, in place of one that waits (R217, R219). -/
def armRestart (e : Nat) (centre : Bool) (p : Polder) : Polder :=
  let t := fget p F.AFE_CTRL_TRIG
  carrierShow (if t = 3 ∨ t = (if centre then 2 else 1) then modAfe (fun a => { a with restart := some (restartAt p e) }) p else p)

/-- Range of a buffered register's code, to which a direct write is clamped (R169). -/
def bufClamp (off v : Nat) : Nat :=
  if off = A.MOD_PER then min 25600000 (max 640000 v)
  else if A.MOD_CMP 0 ≤ off ∧ off ≤ A.MOD_CMP 3 then
    v / 2147483648 * 2147483648 + min 25600000 (v % 2147483648)
  else min 12800000 (max 1280 v)

/-- The register is double-buffered (R184). -/
def isBuffered (off : Nat) : Bool :=
  off == A.MOD_PER || (decide (A.MOD_CMP 0 ≤ off ∧ off ≤ A.MOD_CMP 3) && off % 4 == 0) ||
    (decide (A.MOD_TTMR 0 ≤ off ∧ off ≤ A.MOD_TTMR 2) && off % 4 == 0)

/-- A write of a buffered register reaches its buffer in the CLK_P cycle of `at'` (R168, R169). -/
def bufferedWrite (at' off : Nat) (v : Word) (p : Polder) : Polder :=
  let x := bufClamp off v.toNat
  let p1 := evtIf (x != v.toNat) F.MOD_EVT_CLAMP (wr p off (wordN x))
  if off = A.MOD_PER then { p1 with mdl := { p1.mdl with per := bufWrite at' x p1.mdl.per } }
  else if off < A.MOD_TTMR 0 then { p1 with mdl := { p1.mdl with cmp := vmod p1.mdl.cmp ((off - A.MOD_CMP 0) / 4) (bufWrite at' x) } }
  else { p1 with mdl := { p1.mdl with ttmr := vmod p1.mdl.ttmr ((off - A.MOD_TTMR 0) / 4) (bufWrite at' x) } }

/-- The committed writes of buffered registers reach their buffers in the cycle of an update (R169), but where the CE has written in that cycle (R284). -/
def takeCommitted (now : Nat) (p : Polder) : Polder :=
  let q := p.mdl.committed.foldl (fun a e => if ceWrote p (now / cyc) e.1 then a else bufferedWrite now e.1 (merge (rd a e.1) e.2.1 e.2.2) a) p
  { q with mdl := { q.mdl with committed := [] } }

/-- Reloads at a swing-engine update: in HB, and while the modulator does not switch (R167); dead times (R158). -/
def modUpdate (now : Nat) (p' : Polder) : Polder :=
  let p := takeCommitted now p'
  let p0 := { p with mdl := { p.mdl with dt := Vector.ofFn fun (k : Fin 4) => rdN p (A.MOD_DT k.val) } }
  if !switching p then
    [0, 1, 2, 3].foldl (fun q i => reloadCmp now i q) ([0, 1, 2].foldl (fun q i => reloadTtmr now i q) (reloadPer now p0))
  else if modMode p = Mode.hb then
    let p1 := [0, 1, 2].foldl (fun q i => reloadTtmr now i q) p0
    if carrierOn p then [0, 1, 2, 3].foldl (fun q i => reloadTon now i q) p1
    else [0, 1, 2, 3].foldl (fun q i => reloadCmp now i q) (reloadPer now p1)
  else p0

/-! ### Level changes -/

/-- A level change asked for: it waits for its command instant. -/
def askMove (i : Nat) (m : Move) (p : Polder) : Polder :=
  modLeg p i fun l => { l with sched := l.sched ++ [m] }

/-- The controller of a phase leg commits this kind of move (R154): in CPWM the first level of a leg is the carrier's. -/
def ownMove (p : Polder) (i : Nat) (src : MoveSource) : Bool :=
  decide (i < 3) && modMode p != Mode.cpwm && (src == .embankment || src == .escape || src == .start)

/-- Reload of a leg's buffered registers in COT and CFT (R167). -/
def reloadLeg (at' i : Nat) (p : Polder) : Polder :=
  let p1 := reloadTtmr at' i p
  if carrierOn p then reloadTon at' i p1 else reloadCmp at' i (reloadPer at' p1)

/-- The timer of COT or CFT that a controller move starts (R163), reloaded at that instant (R167). A leg that starts at the level which the timer
ends starts its timer too (DEDUCED, notes/assumptions/19.md). -/
def startTimer (i at' : Nat) (m : Move) (p : Polder) : Polder :=
  let starts := (modMode p == Mode.cot && m.level == highLevel p i) || (modMode p == Mode.cft && m.level == lowLevel p i)
  if ownMove p i m.src && starts then
    let p1 := reloadLeg at' i p
    let n := (vget p1.mdl.ttmr i {}).inForce * bin
    modLeg p1 i fun l => { l with timer := some ⟨at', at' + n, some (at' + n / 2)⟩ }
  else p

/-- A committed move that the modulator delays by `d` takes effect that much later (R131, R133, R159). -/
def retimeMove (i d : Nat) (p : Polder) : Polder :=
  modPhase p i fun x => { x with
    coming := x.coming.map fun c => if c.own && !c.begun then { c with eff := c.eff + d } else c, moveEff := x.moveEff.map (· + d) }

/-- A committed move that changes nothing is over. -/
def dropMove (i : Nat) (p : Polder) : Polder := modPhase p i fun x => { x with coming := x.coming.filter fun c => c.begun || !c.own }

/-- The controller hears that the modulator has begun a level change (R124, R129, R131): a committed move keeps its lead from the instant at
which it began, any other takes effect T_link, `EMB_TEXT` and the inserted dead time after its command instant. -/
def heard (i eff dead : Nat) (m : Move) (p : Polder) : Polder :=
  if 3 ≤ i then p
  else if ownMove p i m.src then modPhase (retimeMove i (eff - m.at') p) i fun x => { x with
    coming := x.coming.map fun c => if c.own then { c with begun := true } else c }
  else
    let e := eff + linkLead p i + dead
    modPhase p i fun x => { x with
      coming := x.coming ++ [⟨m.level, e, false, false, true⟩],
      moveEff := if m.src = .timer then some e else x.moveEff }

/-- A level change carried out at its command instant `eff` (R155 to R157, R170): the outgoing switches turn off, the incoming ones wait for
the dead time when any switch went off. -/
def doMove (i eff : Nat) (m : Move) (p : Polder) : Polder :=
  let old := swOf p i
  let new := levelSw p i m.level
  let off := (old ^^^ new) &&& old
  let on := (old ^^^ new) &&& new
  let dt := deadFs p i
  let wait := off != 0 && on != 0
  let p1 := if wait then switchTo i (edgeAt p i eff) (old &&& new) false p else switchTo i (edgeAt p i eff) new false p
  let p2 := modLeg p1 i fun x => { x with
    level := m.level, lastMove := eff, moved := true, trans := if wait then some (on, eff + dt) else none,
    timer := none, refresh := none, highSince := none, warnAt := none, changes := x.changes + 1, changed := some (eff / cyc, old) }
  let p3 := modLeg p2 i fun x => { x with highSince := if m.level = highLevel p2 i then some eff else none }
  startTimer i eff m (heard i eff (if wait then dt else 0) m p3)

/-- The next waiting level change of a leg, when its instant has come: delayed under R159 with `MINP`, of which the controller hears, otherwise carried out. A leg in a
refresh pulse or in safe-state sequencing changes nothing. -/
def levelChange (now i : Nat) (p : Polder) : Polder :=
  let l := leg p i
  match l.sched with
  | m :: rest =>
    if m.at' ≤ now && l.refresh.isNone && l.trans.isNone && l.seq.isNone && fbit p F.MOD_STAT_RUN then
      let e := earliest p i m.at'
      let p1 := evtIf (m.at' < e) F.MOD_EVT_MINP p
      if e ≤ now then
        let p2 := modLeg p1 i fun x => { x with sched := rest }
        if l.level = m.level then (if ownMove p i m.src then dropMove i p2 else p2) else doMove i e m p2
      else
        let p2 := modLeg p1 i fun x => { x with sched := { m with at' := e } :: rest }
        if ownMove p i m.src then retimeMove i (e - m.at') p2 else p2
    else p
  | [] => p

/-- T_dt after the command instant the incoming switches turn on (R157). -/
def deadTimeEnd (now i : Nat) (p : Polder) : Polder := match (leg p i).trans with
  | some (on, at') =>
    if at' ≤ now then modLeg (switchTo i (edgeAt p i at') (swOf p i ||| on) false p) i fun x => { x with trans := none } else p
  | none => p

/-- Level to which the timer of COT or CFT moves a leg. -/
def timerLevel (p : Polder) (i : Nat) : LegLevel := if modMode p = Mode.cot then lowLevel p i else highLevel p i

/-- In COT or CFT the timer ends with the other move (R163), held off by `EMB_HOLD` (R145). It asks for nothing where the leg stands at that level,
or where a committed escape, which starts the timer anew, waits (DESIGN CHOICE, notes/assumptions/19.md). -/
def timerMove (now i : Nat) (p : Polder) : Polder := match (leg p i).timer with
  | some x =>
    if x.ends ≤ now then
      let p1 := modLeg p i fun l => { l with timer := none }
      if (leg p i).level = timerLevel p i ∨ (leg p i).sched ≠ [] then p1
      else levelChange now i (askMove i ⟨timerLevel p i, max x.ends (holdBound p i (linkLead p i + deadFs p i)), .timer⟩ p1)
    else p
  | none => p

/-- With `UPD` at 1 the midpoint of a running timer reloads it: it then ends at its start plus the new time, or at once (R167). -/
def timerMidpoint (now i : Nat) (p : Polder) : Polder := match (leg p i).timer with
  | some ⟨start, ends, some m⟩ =>
    if m ≤ now then
      if fbit p F.MOD_CTRL_UPD then
        let p1 := reloadLeg m i p
        modLeg p1 i fun l => { l with timer := some ⟨start, max m (start + (vget p1.mdl.ttmr i {}).inForce * bin), none⟩ }
      else modLeg p i fun l => { l with timer := some ⟨start, ends, none⟩ }
    else p
  | _ => p

/-! ### The carrier (R164, R165) -/

/-- The carrier drives this leg. -/
def carrierLeg (p : Polder) (i : Nat) : Bool :=
  if i = 3 then fget p F.MOD_CTRL_AUX_MODE == 1 else modMode p == Mode.cpwm

/-- Level changes from `a` to `b`, through 0 when they are not adjacent. -/
def stepsTo (p : Polder) (i : Nat) (a b : LegLevel) (t : Nat) (src : MoveSource) : List Move :=
  if a = b then []
  else if threeLevel p i && ((a == .pos && b == .neg) || (a == .neg && b == .pos)) then [⟨.zero, t, src⟩, ⟨b, t, src⟩]
  else [⟨b, t, src⟩]

/-- One leg at a period boundary at `b`: the dropping decision of R165 and the carrier's edges of R164. -/
def legPeriod (b i : Nat) (p : Polder) : Polder :=
  if carrierLeg p i && !(leg p i).taken then
    let per := p.mdl.per.inForce
    let ton := min ((vget p.mdl.cmp i {}).inForce % 2147483648) per
    let least := deadFs p i + rdN p A.MOD_TMIN * bin
    let dropH := decide (ton * bin < least)
    let dropL := decide ((per - ton) * bin < least)
    let hold : Option LegLevel :=
      if dropH && dropL then some (if per ≤ 2 * ton then highLevel p i else lowLevel p i)
      else if dropH then some (lowLevel p i)
      else if dropL then some (highLevel p i)
      else none
    let p1 := if dropH || dropL then evtSel b Ev.drop F.MOD_EVT_DROP p else p
    let first := hold.getD (lowLevel p i)
    let cur := (leg p i).level
    let startMoves := if cur = .off then [⟨lowLevel p i, b, .start⟩] ++ stepsTo p i (lowLevel p i) first b .carrier
      else stepsTo p i cur first b .carrier
    let up := b + (per - ton) / 2 * bin
    let moves := if hold.isSome then startMoves
      else startMoves ++ [⟨highLevel p i, up, .carrier⟩, ⟨lowLevel p i, up + ton * bin, .carrier⟩]
    modLeg p1 i fun l => { l with sched := moves, hold := hold }
  else p

/-- A leg that stands at level 0 while `SIDE` changes at a period boundary: 0 becomes the other of its two levels, and the continuous time at the higher one
(R172) starts or ends. -/
def sideChange (b i : Nat) (old p : Polder) : Polder :=
  if modMode p = Mode.cpwm ∧ threeLevel p i = true ∧ (leg p i).level = .zero ∧ upperSector p i ≠ upperSector old i ∧ (leg p i).refresh = none then
    modLeg p i fun l => { l with highSince := if highLevel p i = .zero then some b else none, warnAt := none }
  else p

/-- A carrier period starts at `b` (R164, R167). -/
def startPeriod (b : Nat) (p : Polder) : Polder :=
  let p0 := if modMode p = Mode.cpwm then [0, 1, 2].foldl (fun q i => reloadTtmr b i q) p else p
  let p1 := [0, 1, 2].foldl (fun q i => sideChange b i p q) ([0, 1, 2, 3].foldl (fun q i => reloadCmp b i q) (reloadPer b p0))
  [0, 1, 2, 3].foldl (fun q i => legPeriod b i q) (armRestart b false { p1 with mdl := { p1.mdl with carrier := some b, centreDue := true } })

/-- A period boundary: the period in progress has ended. -/
def periodBoundary (now : Nat) (p : Polder) : Polder := match p.mdl.carrier with
  | some b => if b + p.mdl.per.inForce * bin ≤ now then startPeriod (b + p.mdl.per.inForce * bin) p else p
  | none => p

/-- One leg at the centre `c` of the carrier period that began at `b`: TON reloads, in CPWM that of GL3 too whatever drives it, and a leg of the carrier that
has moved up moves down at the new instant (R167). -/
def legCentre (b c i : Nat) (p : Polder) : Polder :=
  if carrierLeg p i || modMode p == Mode.cpwm then
    let p1 := reloadTon c i p
    let per := p1.mdl.per.inForce
    let ton := min ((vget p1.mdl.cmp i {}).inForce % 2147483648) per
    modLeg p1 i fun l => if !carrierLeg p i || l.hold.isSome || l.level != highLevel p1 i then l
      else { l with sched := [⟨lowLevel p1 i, b + (per + ton) * bin / 2, .carrier⟩] }
  else p

/-- With `UPD` at 1 the centre reloads (R167); a period has one centre. -/
def centreReload (now : Nat) (p : Polder) : Polder := match p.mdl.carrier with
  | some b =>
    let c := b + p.mdl.per.inForce * bin / 2
    if c ≤ now && p.mdl.centreDue then
      let p1 := armRestart c true { p with mdl := { p.mdl with centreDue := false } }
      if fbit p F.MOD_CTRL_UPD then
        [0, 1, 2, 3].foldl (fun q i => legCentre b c i q)
          (if modMode p = Mode.cpwm then [0, 1, 2].foldl (fun q i => reloadTtmr c i q) p1 else p1)
      else p1
    else p
  | none => p

/-! ### Bootstrap refresh (R172, R173) -/

/-- Switches that only the higher, only the lower level of a leg has on. -/
def highOnly (p : Polder) (i : Nat) : Nat := (levelSw p i (highLevel p i) ^^^ levelSw p i (lowLevel p i)) &&& levelSw p i (highLevel p i)
def lowOnly (p : Polder) (i : Nat) : Nat := (levelSw p i (highLevel p i) ^^^ levelSw p i (lowLevel p i)) &&& levelSw p i (lowLevel p i)

/-- Start of a refresh pulse at `tr`; the controller's refresh window opens with it (R144). -/
def refreshStart (i tr : Nat) (p : Polder) : Polder :=
  let hi := highOnly p i
  let lo := lowOnly p i
  let p1 := switchTo i (edgeAt p i tr) (swOf p i &&& (15 ^^^ hi)) true p
  let p2 := modLeg p1 i fun l => { l with refresh := some ⟨tr, 1, tr + deadFs p i, hi, lo⟩, highSince := none, warnAt := none }
  let shut := tr + 2 * deadFs p i + rdN p A.MOD_BS_TRF * ns + embN p A.EMB_SETTLE * ns
  evt F.MOD_EVT_RFSH (if i < 3 then modPhase p2 i fun x => { x with window := some (tr, shut) } else p2)

/-- A move to the lower level with a command instant no later than `tr` waits, or the timer that makes it ends by then: it cancels the pulse
(R144). -/
def downBy (p : Polder) (i tr : Nat) : Bool :=
  (leg p i).sched.any (fun m => m.level.rank < (leg p i).level.rank && decide (earliest p i m.at' ≤ tr)) ||
    (modMode p == Mode.cot && (leg p i).timer.any fun x => decide (x.ends ≤ tr))

/-- A refresh pulse starts: the continuous time at the higher level has reached `MOD_BS_TMAX` in a leg of the bootstrap profile (R172), or the
instant of a pulse that a bootstrap warning forces has come (R173). -/
def refreshPulse (now i : Nat) (p : Polder) : Polder :=
  let l := leg p i
  let due := (l.highSince.any fun h => decide (h + rdN p A.MOD_BS_TMAX * us ≤ now) && getBit p F.MOD_CTRL_BS_EN i) ||
    l.warnAt.any fun w => decide (w ≤ now)
  if due && l.highSince.isSome && l.trans.isNone && l.refresh.isNone && l.seq.isNone && !downBy p i now then refreshStart i now p else p

/-- A bootstrap warning forces a refresh pulse at the earliest instant that R159 allows, at most once in 20 µs (R173). A report that finds the pulse
due starts it at once, otherwise REFRESH_PULSE does. -/
def refreshWarn (now i : Nat) (p : Polder) : Polder :=
  let l := leg p i
  if l.highSince.isSome && l.refresh.isNone && l.seq.isNone && l.warnAt.isNone && (match l.lastWarn with
      | some w => decide (w + 20 * us ≤ now) | none => true) then
    let tr := earliest p i now
    refreshPulse now i (evt F.MOD_EVT_BS_WARN (modLeg p i fun x => { x with warnAt := some tr, lastWarn := some tr }))
  else p

/-- The final move of a refresh pulse (R172): the higher level's switch is on again. -/
def refreshEnd (i at' : Nat) (r : Refresh) (p : Polder) : Polder :=
  let p1 := switchTo i (edgeAt p i at') (swOf p i ||| r.high) true p
  let p2 := modLeg p1 i fun l => { l with refresh := none, lastMove := at', highSince := if l.level = highLevel p i then some at' else none }
  if i < 3 then modPhase p2 i fun x => { x with
    coming := x.coming ++ [⟨(leg p i).level, at' + linkLead p i, false, false, true⟩], moveEff := some (at' + linkLead p i) }
  else p2

/-- The next inner step of a refresh pulse (R172): lower switch on, lower switch off, higher switch on again as the final move. -/
def refreshStep (now i : Nat) (p : Polder) : Polder := match (leg p i).refresh with
  | some r =>
    if r.next ≤ now then
      match r.step with
      | 1 => modLeg (switchTo i (edgeAt p i r.next) (swOf p i ||| r.low) true p) i fun l =>
          { l with refresh := some { r with step := 2, next := r.next + rdN p A.MOD_BS_TRF * ns } }
      | 2 => modLeg (switchTo i (edgeAt p i r.next) (swOf p i &&& (15 ^^^ r.low)) true p) i fun l =>
          { l with refresh := some { r with step := 3, next := r.next + deadFs p i } }
      | _ => refreshEnd i r.next r p
    else p
  | none => p

/-! ### Sequenced safe state (R175 to R180) -/

/-- `MOD_SS_GAP` in fs, counted on the clock that runs (R180). -/
def gapFs (p : Polder) : Nat :=
  let g := rdN p A.MOD_SS_GAP * ns
  if onPll p then g else g * (backupRate p).2 / (backupRate p).1

/-- A level change of the demand's own cycle is dropped (R175): the switch states and the count are those before it. -/
def dropChange (now i : Nat) (p : Polder) : Polder := match (leg p i).changed with
  | some (c, sw) =>
    if c = now / cyc then
      modLeg (wr p A.MOD_SW (withBits (rd p A.MOD_SW) (4 * i + 3) (4 * i) sw)) i fun l => { l with
        trans := none, refresh := none, changes := l.changes - 1, changed := none }
    else p
  | none => p

/-- The controller of a phase hears of a safe-state edge (R124, R147): changes that had begun and were not abandoned still reach the leg, as does the
edge where it changes switches; the rest is not recorded as made. -/
def heardSafe (i eff : Nat) (aborted changed : Bool) (p : Polder) : Polder :=
  modPhase p i fun x =>
    let kept := x.coming.filter (·.begun)
    { x with coming := (if aborted then kept.dropLast else kept).map (fun c => { c with level := .off }) ++
        (if changed then [⟨.off, eff, false, false, true⟩] else []) }

/-- First step of the sequence on one leg (R176 to R178). -/
def seqLeg (now i : Nat) (p' : Polder) : Polder :=
  let p := dropChange now i p'
  let l := leg p i
  let aborted := l.trans.isSome || l.refresh.isSome
  let p1 := evtIf aborted F.MOD_EVT_DT_ABORT p
  let g := gapFs p
  let three := threeLevel p i
  let new := if three then swOf p i &&& 6 else 0
  let p2 := safeEdge i now new p1
  let p3 := if i < 3 then heardSafe i (now + linkLead p i) (l.trans.isSome || l.changed.isNone && (leg p' i).changed.isSome) (swOf p i != new) p2 else p2
  modLeg p3 i fun x => { x with
    level := .off, trans := none, sched := [], timer := none, refresh := none, highSince := none, warnAt := none, hold := none, moved := false,
    changed := none, seq := some (if three then ⟨some (now + g), now + 2 * g⟩ else ⟨none, now + g⟩) }

/-- The embankment controller of one phase goes to OFF in the same cycle (R147). -/
def embOff (i : Nat) (p : Polder) : Polder :=
  modPhase p i fun x => { x with level := .off, starting := false, window := none, moveEff := none }

/-- The polder-wide sequenced safe state (R175); a demand during sequencing leaves the sequence as it stands, and a leg that is sequenced
alone merges from its current step (R308). -/
def enterSafe (now : Nat) (p : Polder) : Polder :=
  if p.mdl.sequencing then p
  else
    let p1 := [0, 1, 2, 3].foldl (fun q i => if (leg q i).seq.isSome then q else seqLeg now i q) p
    let p2 := [0, 1, 2].foldl (fun q i => embOff i q) p1
    let p3 := carrierStop { p2 with mdl := { p2.mdl with sequencing := true } }
    let p4 := fput (fput (fput (fput p3 F.MOD_STAT_SEQ 1) F.MOD_STAT_SAFE 0) F.MOD_STAT_RUN 0) F.MOD_STAT_LEGS 0
    evt F.MOD_EVT_SAFE p4

/-- Step 2 of the sequence on one leg at `t2`. -/
def safeLast (i t2 e : Nat) (p : Polder) : Polder :=
  let p1 := if i < 3 then heardSafe i (t2 + linkLead p i) false (swOf p i != 0) p else p
  modLeg (safeEdge i t2 0 p1) i fun l => { l with seq := some ⟨none, e⟩ }

/-- `MOD_SS_GAP` after step 1, S2 and S3 turn off (R177). -/
def safeStep2 (now : Nat) (p : Polder) : Polder :=
  [0, 1, 2, 3].foldl (fun q i => match (leg q i).seq with
    | some ⟨some t2, e⟩ => if t2 ≤ now then safeLast i t2 e q else q
    | _ => q) p

/-- The sequence of a leg has ended. -/
def seqOver (now : Nat) (l : Leg) : Bool := match l.seq with
  | some s => s.step2At.isNone && decide (s.endAt ≤ now)
  | none => true

/-- Sequencing of all legs has ended: `SAFE` sets (R179). -/
def seqEnd (now : Nat) (p : Polder) : Polder :=
  if p.mdl.sequencing && [0, 1, 2, 3].all (fun i => seqOver now (leg p i)) then
    let p1 := [0, 1, 2, 3].foldl (fun q i => modLeg q i fun l => { l with seq := none }) p
    fput (fput { p1 with mdl := { p1.mdl with sequencing := false } } F.MOD_STAT_SEQ 0) F.MOD_STAT_SAFE 1
  else p

/-- Legs that take part in switching: the phase legs, and GL3 unless `AUX_MODE` is OFF (R183). -/
def legsOn (p : Polder) : Nat := if fget p F.MOD_CTRL_AUX_MODE = 0 then 7 else 15

/-- Switching starts (R170): every leg from all switches off. -/
def modStart (now : Nat) (p : Polder) : Polder :=
  let p1 := [0, 1, 2, 3].foldl (fun q i => setLeg q i { refsUntil := now }) p
  let p2 := [0, 1, 2].foldl (fun q i => wr (modPhase q i fun x => { x with
    level := .off, starting := true, fit := [], coming := [], moveEff := none, trim := 2 ^ 60 }) (A.EMB_TRIM i) 0x01000000#32) p1
  fput (fput (fput p2 F.MOD_STAT_RUN 1) F.MOD_STAT_SAFE 0) F.MOD_STAT_LEGS (legsOn p)

/-- A commit of `AUX_MODE` while the modulator switches (R183): the carrier runs on only where a leg still takes it. With OFF GL3 goes to all off, from which
its next level change keeps the spacing of R159; between CPWM and CHOPPER it keeps its level until the new source moves it (DESIGN CHOICE,
notes/assumptions/19.md). `LEGS` shows whether it takes part. -/
def auxCommit (now : Nat) (old p : Polder) : Polder :=
  if fget p F.MOD_CTRL_AUX_MODE = fget old F.MOD_CTRL_AUX_MODE ∨ fbit p F.MOD_STAT_RUN = false then p
  else
    let p1 := if modMode p = Mode.cpwm then p else carrierStop p
    if (leg p 3).taken ∨ (leg p 3).seq.isSome = true then p1
    else if fget p F.MOD_CTRL_AUX_MODE = 0 then
      putBit (setLeg (switchTo 3 (edgeAt p1 3 now) 0 false p1) 3 { changes := (leg p 3).changes, lastMove := now, moved := true }) F.MOD_STAT_LEGS 3 false
    else putBit (modLeg p1 3 fun l => { l with sched := [], hold := none }) F.MOD_STAT_LEGS 3 true

/-- Chopper test at a swing-engine update (R183). -/
def chopperTest (now : Nat) (p : Polder) : Polder :=
  if fget p F.MOD_CTRL_AUX_MODE = 2 && fbit p F.MOD_STAT_RUN && !(leg p 3).taken then
    let v := rdI p A.SWG_VDC
    let cur := (leg p 3).level
    if rdI p A.MOD_CHOP_ON ≤ v then
      if cur = .pos then p else modLeg p 3 fun l => { l with sched := [⟨.pos, now, .chopper⟩] }
    else if v ≤ rdI p A.MOD_CHOP_OFF then
      if cur = .neg then p else modLeg p 3 fun l => { l with sched := [⟨.neg, now, .chopper⟩] }
    else p
  else p

/-- The first carrier period starts at the first swing-engine update after switching begins (R170). -/
def carrierStart (now : Nat) (p : Polder) : Polder :=
  if fbit p F.MOD_STAT_RUN && !carrierOn p && (modMode p == Mode.cpwm || fget p F.MOD_CTRL_AUX_MODE == 1) then startPeriod now p else p

end Sys2Proof.Machine
end

