-- ==== Sys2Proof/Machine/Links.lean ====
section
/-!
DEFINITION. The Zentik gate links (R292 to R301): states, training, downlink frames, CRC-6, and messages to the gate units.
-/
namespace Sys2Proof.Machine
open Sys2Proof

/-- `GLK_STATn.STATE` values. -/
abbrev LinkSt.off : Nat := 0
abbrev LinkSt.down : Nat := 1
abbrev LinkSt.search : Nat := 2
abbrev LinkSt.negotiate : Nat := 3
abbrev LinkSt.align : Nat := 4
abbrev LinkSt.check : Nat := 5
abbrev LinkSt.up : Nat := 6
abbrev LinkSt.lost : Nat := 7

def linkState (p : Polder) (n : Nat) : Nat := fget p (F.GLK_STAT_STATE n)
def linkEn (p : Polder) (n : Nat) : Bool := fbit p (F.GLK_CFG_EN n)
def linkUp (p : Polder) (n : Nat) : Bool := linkState p n == LinkSt.up
def setLinkState (n st : Nat) (p : Polder) : Polder := fput p (F.GLK_STAT_STATE n) st

/-- The fault detail byte and the L2 flags that a link reports. -/
def linkFault (p : Polder) (n : Nat) : Nat := fget p (F.GLK_STAT_FAULT n)
def linkL2 (p : Polder) (n : Nat) : Nat := fget p (F.GLK_STAT_L2 n)

/-- Number of switches by `NSW` (R298); GL3 has two. -/
def linkNsw (p : Polder) (n : Nat) : Nat := if fbit p (F.GLK_CFG_NSW n) then 4 else 2

/-- Mask of the populated switches: S1 and S4, or S1 to S4. -/
def populated (p : Polder) (n : Nat) : Nat := if linkNsw p n = 4 then 15 else 9

/-- `GLK_ERRn` counts: bits 31:16 code and CRC errors, bits 15:0 gaps and message timeouts (R317). -/
def errHi (n k : Nat) (p : Polder) : Polder :=
  let w := rd p (A.GLK_ERR n)
  wr p (A.GLK_ERR n) (withBits w 31 16 (satAdd 16 (bitsOf w 31 16) k))
def errLo (n k : Nat) (p : Polder) : Polder :=
  let w := rd p (A.GLK_ERR n)
  wr p (A.GLK_ERR n) (withBits w 15 0 (satAdd 16 (bitsOf w 15 0) k))

/-! ### CRC-6 and frames (R293, R295) -/

/-- One bit into the CRC-6, polynomial x^6 + x + 1. -/
def crc6Bit (c : Nat) (b : Bool) : Nat :=
  let top := (decide (32 ≤ c) != b)
  let s := c * 2 % 64
  if top then s ^^^ 3 else s

/-- CRC-6 over bits 31:6 of a frame, most significant first, from 0x3F. -/
def crc6 (w : Word) : Nat := (List.range 26).foldl (fun c k => crc6Bit c (bitOf w (31 - k))) 63

/-- A frame word with its CRC. -/
def withCrc (w : Word) : Word := withBits w 5 0 (crc6 w)

/-- Frame period of a link in fs (R292): SEARCH and NEGOTIATE run at the rate of version 1 (R298). -/
def framePeriod (p : Polder) (n : Nat) : Nat := if linkV1 p n || decide (linkState p n < LinkSt.align) then 64 * ns else 32 * ns

/-- Offset in bins, ties up, of an edge in the frame whose window starts at `tf`; none when it travels in a later frame, as one does whose offset
rounds to 410 (R293). An edge left from an earlier window has offset 0. Version 1 frames carry none (R134), nor do frames that the backup
oscillator times (R180). -/
def fineOf (p : Polder) (n tf : Nat) (e : Edge) : Option Nat :=
  if tf + framePeriod p n ≤ e.at' then none
  else if linkV1 p n || !onPll p || decide (e.at' < tf) then some 0
  else
    let f := (2 * (e.at' - tf) + bin) / (2 * bin)
    if f = 410 then none else some f

/-- The step of a packed step word that an edge frame sends for the switches of a mask. A frame holds one source and one sink step: where switches of one edge
have different steps R182 does not say which goes, and that of the lowest-numbered one does (DESIGN CHOICE, notes/assumptions/25.md). -/
def firstStep (steps mask : Nat) : Nat :=
  ((List.range 4).find? fun k => mask / 2 ^ k % 2 == 1).elim 0 fun k => steps / 16 ^ k % 16

/-- An edge frame: states after it, offset, steps (`CTL` 0b11). -/
def edgeFrame (states fine sink source seq : Nat) : Word :=
  withCrc (wordN (states * 268435456 + fine * 524288 + 393216 + sink * 8192 + source * 512 + seq * 64))

/-- A frame without edge: control of the byte channel and its byte. -/
def plainFrame (states ctl byte seq : Nat) : Word :=
  withCrc (wordN (states * 268435456 + ctl * 131072 + byte * 512 + seq * 64))

/-- Switch states a link carries: all off until it is UP or lost after it (R299, R301). -/
def carried (p : Polder) (n : Nat) : Bool := linkUp p n || linkState p n == LinkSt.lost

/-- A frame goes on the line: its four symbols, and the end of its window. -/
def onLine (w : Nat) (x : List Symbol) (l : Link) : Link :=
  let r := encodeSymbols l.disparity x
  { l with line := r.1, disparity := r.2, txEnd := w }

/-- The frame without edge: the next message byte, or an idle channel (R295). -/
def plainTx (carries : Bool) (l : Link) : Link :=
  let l1 := if carries then l else { l with edges := [], sentStates := 0 }
  match l.txBytes with
  | b :: rest =>
    { l1 with txBytes := rest, txStarted := true, lastTx := plainFrame l1.sentStates (if l.txStarted then 2 else 1) b.toNat l.txSeq }
  | [] => { l1 with lastTx := plainFrame l1.sentStates 0 0 l.txSeq }

/-- The frame of an edge (R293): states after it, its offset, and the steps of the switches that turn off and on. -/
def edgeTx (l : Link) (e : Edge) (rest : List Edge) (fine : Nat) : Link :=
  let off := l.sentStates &&& (15 ^^^ e.states)
  let ons := e.states &&& (15 ^^^ l.sentStates)
  { l with edges := rest, sentStates := e.states, lastTx := edgeFrame e.states fine (firstStep e.sink off) (firstStep e.source ons) l.txSeq }

/-- The link as it sends the frame whose window starts at `tf`: the oldest edge of that window, otherwise a frame without edge. -/
def frameTx (n tf : Nat) (p : Polder) : Link :=
  let l := linkOf p n
  let sent := match l.edges with
    | e :: rest => (match carried p n, fineOf p n tf e with
      | true, some f => edgeTx l e rest f
      | c, _ => plainTx c l)
    | [] => plainTx (carried p n) l
  { sent with txSeq := (l.txSeq + 1) % 8 }

/-- The state byte of a training frame (R298): 0x01 in SEARCH, 0x10 plus the agreed version after it. While ALIGN lasts the link goes on with
the frames of NEGOTIATE, at the agreed rate (DESIGN CHOICE, notes/assumptions/25.md). -/
def trainState (p : Polder) (n : Nat) : Nat := if linkState p n = LinkSt.search then 1 else 16 + fget p (F.GLK_STAT_VER n)

/-- The capability byte of the device: highest version, lowest version (R298). -/
def trainCaps (p : Polder) (n : Nat) : Nat := fget p (F.GLK_CFG_VMAX n) * 16 + fget p (F.GLK_CFG_VMIN n)

/-- NEGOTIATE is over when eight frames announcing the agreed version have gone each way: ALIGN (R298). -/
def negotiated (now n : Nat) (p : Polder) : Polder :=
  let l := linkOf p n
  if linkState p n = LinkSt.negotiate ∧ 8 ≤ l.trainFrames ∧ 8 ≤ l.trainSent then
    setLinkState n LinkSt.align (setLink p n { l with trainSince := now, trainFrames := 0 })
  else p

/-- A downlink frame (R293, R295, R298): the frame whose window is complete, once. Frame windows follow one another from device time 0
(DESIGN CHOICE, notes/assumptions/19.md). Until CHECK the link sends training frames; OFF and DOWN send none. -/
def downlinkFrame (now n : Nat) (p : Polder) : Polder :=
  let l := linkOf p n
  let g := framePeriod p n
  let w := now / g * g
  if linkState p n < LinkSt.search ∨ w < l.txEnd + g then p
  else if linkState p n < LinkSt.check then
    negotiated now n (setLink p n (onLine w (trainingSymbols (trainCaps p n) (trainState p n))
      { l with trainSent := if linkState p n = LinkSt.negotiate then l.trainSent + 1 else 0 }))
  else
    let l1 := frameTx n (w - g) p
    setLink p n (onLine w (frameSymbols l1.lastTx) l1)

/-! ### Messages (R297) -/

abbrev Msg.readId : Nat := 1
abbrev Msg.selfTest : Nat := 2
abbrev Msg.clrL2 : Nat := 3
abbrev Msg.clrFault : Nat := 4

/-- A message becomes the outstanding one. -/
def startMsg (now : Nat) (l : Link) (m : LinkMsg) : Link :=
  { l with out := some { m with
    sentAt := now }, txStarted := false, rxMsg := [],
           txBytes := BitVec.ofNat 8 m.code :: BitVec.ofNat 8 m.payload.length :: m.payload }

/-- A message is sent, or waits for the outstanding one. -/
def sendMsg (now n : Nat) (m : LinkMsg) (p : Polder) : Polder :=
  modLink p n fun l => if l.out.isNone then startMsg now l m else { l with waiting := l.waiting ++ [m] }

/-- The outstanding message has ended: the next waiting one starts. -/
def nextMsg (now n : Nat) (p : Polder) : Polder :=
  modLink p n fun l => match l.waiting with
    | m :: rest => startMsg now { l with waiting := rest } m
    | [] => { l with out := none, txBytes := [], rxMsg := [] }

/-- Messages of the training (READ_ID) end with it; the others stand until they are answered or have failed (R297). -/
def dropReadId (now : Nat) (l : Link) : Link :=
  let own := l.out.any fun m => m.purpose == 2
  let l1 := { l with waiting := l.waiting.filter fun m => m.purpose != 2 }
  if !own then l1
  else match l1.waiting with
    | m :: rest => startMsg now { l1 with waiting := rest } m
    | [] => { l1 with out := none, txBytes := [], rxMsg := [] }

/-! ### Training (R298, R299) -/

/-- Training is allowed (R299). -/
def trainAllowed (p : Polder) : Bool := Rg.quiet.contains (regime p) && !p.mdl.sequencing && (List.range 4).all (fun i => (leg p i).seq.isNone)

/-- SEARCH starts: `GLK_ERRn` clears. -/
def startSearch (now n : Nat) (p : Polder) : Polder :=
  setLinkState n LinkSt.search (wr (modLink p n fun l => { dropReadId now l with
    trainSince := now, failedAt := none, trainFrames := 0, checkErr := false, holdExpired := false, missing := 0, rxSeq := none,
    l1 := Vector.replicate 4 0 }) (A.GLK_ERR n) 0)

/-- A link that may train and waits for nothing starts to; one that may not falls back to DOWN, and one not in use to OFF. -/
def linkKick (now n : Nat) (p : Polder) : Polder :=
  let st := linkState p n
  if !linkEn p n then
    let q := if (linkOf p n).failedAt.isSome then modLink p n fun l => { l with failedAt := none } else p
    if st = LinkSt.off then q else setLinkState n LinkSt.off (modLink q n (dropReadId now))
  else if st = LinkSt.up then p
  else if !trainAllowed p then (if LinkSt.search ≤ st ∧ st ≤ LinkSt.check then setLinkState n LinkSt.down p
    else if st = LinkSt.off then setLinkState n LinkSt.down p else p)
  else if st = LinkSt.lost || ((st = LinkSt.off || st = LinkSt.down) && (linkOf p n).failedAt.isNone) then startSearch now n p
  else p

def linkKicks (now : Nat) (p : Polder) : Polder := [0, 1, 2, 3].foldl (fun q n => linkKick now n q) p

/-- Reply layout of `GATE_LINK_CONTROL`: `GLK_STATn` and the response payload, zero-padded. -/
def glcPayload (p : Polder) (n : Nat) (l : List Byte) : List Byte := wBytes (rd p (A.GLK_STAT n)) ++ (l ++ zeros 4).take 4

/-- The reply to a command that a target owes since an earlier step. -/
def replyTo (p : Polder) (r : CmdRef) (a : Reply) : Polder :=
  emit p (.answer ⟨p.id.num, r.sess, r.opcode, r.seq, a.status, a.detail, a.payload⟩)

/-- A RETRAIN command that waits for this link is answered (R318). -/
def endRetrain (n status : Nat) (p : Polder) : Polder := match (linkOf p n).retrain with
  | some r => replyTo (modLink p n fun l => { l with retrain := none }) r ⟨status, 0, glcPayload p n []⟩
  | none => p

/-- A training failure: its reason, DOWN, and the retry 10 ms later; a waiting RETRAIN ends with TIMEOUT. -/
def trainFail (now n rsn : Nat) (p : Polder) : Polder :=
  let p1 := modLink (setLinkState n LinkSt.down (fput p (F.GLK_STAT_FAILRSN n) rsn)) n fun l =>
    { dropReadId now l with failedAt := some now }
  endRetrain n Status.timeout p1

/-- A training frame is valid: K28.5 first, a state byte of SEARCH or NEGOTIATE, check symbol the XOR of the two before it. -/
def trainValid (x : TrainIn) : Bool := x.k28 && x.check == x.caps ^^^ x.state && [1, 17, 18].contains x.state

/-- The highest version in a capability byte as `GUVER` shows it; more than its two bits can say shows as 3 (DESIGN CHOICE,
notes/assumptions/25.md). -/
def capsVer (x : TrainIn) : Nat := min 3 (x.caps / 16)

/-- A received training frame (R298). -/
def trainingFrame (now n : Nat) (x : TrainIn) (p : Polder) : Polder :=
  let l := linkOf p n
  match linkState p n with
  | 2 =>
    if trainValid x then
      let v := min (fget p (F.GLK_CFG_VMAX n)) (x.caps / 16)
      let p1 := fput p (F.GLK_STAT_GUVER n) (capsVer x)
      if v < fget p (F.GLK_CFG_VMIN n) then trainFail now n 2 p1
      else fput (setLinkState n LinkSt.negotiate (setLink p1 n { l with trainSince := now, trainFrames := 0, trainSent := 0 })) (F.GLK_STAT_VER n) v
    else p
  | 3 =>
    if trainValid x && x.state == 16 + fget p (F.GLK_STAT_VER n) then
      negotiated now n (setLink p n { l with trainFrames := l.trainFrames + 1 })
    else p
  | 4 =>
    if 1024 ≤ x.run then
      let p1 := setLinkState n LinkSt.check (setLink p n { l with
        trainSince := now, trainFrames := x.run, checkErr := false, rxSeq := none, missing := 0, edges := [], sentStates := 0 })
      sendMsg now n ⟨Msg.readId, [], now, 2, none⟩ p1
    else setLink p n { l with trainFrames := x.run }
  | _ => p

/-- Bound of the training step in progress in fs, and the failure when it expires (R298). A NEGOTIATE that does not end in its bound has
agreed on no version (DEDUCED: failure 0x2, notes/assumptions/25.md). -/
def trainBound (p : Polder) (n : Nat) : Option (Nat × Nat) := match linkState p n with
  | 2 => some (100 * us, 1)
  | 3 => some (10 * us, 2)
  | 4 => some (100 * us, 3)
  | 5 => some (100 * us, if (linkOf p n).checkErr then 5 else 4)
  | _ => none

/-- A training bound expires. -/
def trainingFailure (now n : Nat) (p : Polder) : Polder := match trainBound p n with
  | some (d, r) => if (linkOf p n).trainSince + d ≤ now then trainFail now n r p else p
  | none => p

/-- 10 ms after a failure the link starts again, when training is allowed. -/
def trainingRetry (now n : Nat) (p : Polder) : Polder := match (linkOf p n).failedAt with
  | some f => if f + 10 * ms ≤ now && linkEn p n && trainAllowed p && linkState p n == LinkSt.down then startSearch now n p else p
  | none => p

/-- The link reaches UP: it carries the switch states from here on. -/
def linkToUp (now n : Nat) (p : Polder) : Polder :=
  endRetrain n Status.ok (setLinkState n LinkSt.up (modLink p n fun l => { l with
    sentStates := 0, edges := if swOf p n = 0 then [] else [⟨now, swOf p n, 0, 0⟩] }))

/-- An UP link is lost: LOSSN missing frames, or hold expired newly reported (R301). It goes on sending. -/
def linkLost (n : Nat) (p : Polder) : Polder :=
  let l := linkOf p n
  if linkUp p n && (decide (fget p (F.GLK_CFG_LOSSN n) ≤ l.missing) || l.holdExpired) then setLinkState n LinkSt.lost p else p

end Sys2Proof.Machine
end

