-- ==== Sys2Proof/Machine/Dike.lean ====
section
/-!
DEFINITION. The Dike (R303 to R314): trip sources, latches and what a latch does, clears, the L1 and L2 checks on uplink frames, the trip
chain, the self-tests, readiness.
-/
namespace Sys2Proof.Machine
open Sys2Proof

/-- Bits of `DIK_TRIPSRC`. -/
abbrev Src.tripi : Nat := 0
abbrev Src.cmp : Nat := 1
abbrev Src.l2 : Nat := 2
abbrev Src.l1 : Nat := 3
abbrev Src.uv : Nat := 4
abbrev Src.link : Nat := 5
abbrev Src.clock : Nat := 6
abbrev Src.spb : Nat := 7
abbrev Src.sw : Nat := 8
abbrev Src.starve : Nat := 9
abbrev Src.plaus : Nat := 10
abbrev Src.dcwin : Nat := 11
abbrev Src.dbg : Nat := 12
abbrev Src.therm : Nat := 13

/-- The safe pulse block demands the safe state: `SPB_STAT.STATE` is not RELEASED. -/
def spbDemands (p : Polder) : Bool := fget p F.SPB_STAT_STATE != 2

/-! ### Sources (R303) -/

/-- Links that meet a condition. -/
def linksWhere (f : Nat → Bool) : List Nat := [0, 1, 2, 3].filter f

/-- An enabled link that is UP. -/
def linkLive (p : Polder) (n : Nat) : Bool := linkEn p n && linkUp p n

/-- Threshold of a switch on a link. -/
def l1Thr (p : Polder) (n s : Nat) : Nat := bitsOf (rd p (A.DIK_L1THR n)) (8 * s + 7) (8 * s)

/-- L1 count of a link reached by one of its switches whose comparison is on (R307). -/
def l1Over (p : Polder) (n : Nat) : Bool :=
  [0, 1, 2, 3].any fun s => l1Thr p n s != 0 && decide (fget p F.DIK_L1CFG_N ≤ vget (linkOf p n).l1 s 0)

/-- A link reports a temperature at or above `DIK_GUTMAX`, or overtemperature. -/
def linkHot (p : Polder) (n : Nat) : Bool :=
  decide ((rdN p A.DIK_GUTMAX : Int) ≤ (bitsOf (rd p (A.GLK_TEMP n)) 7 0 : Int) - 55) || linkFault p n / 16 % 2 == 1

/-- Links that make an uplink source active. -/
def sourceLinks (p : Polder) (k : Nat) : List Nat := match k with
  | 2 => linksWhere fun n => linkEn p n && linkL2 p n != 0
  | 3 => linksWhere fun n => linkEn p n && l1Over p n
  | 4 => linksWhere fun n => linkLive p n && linkFault p n % 16 != 0
  | 5 => if [4, 5, 6, 7, 8].contains (regime p) then linksWhere fun n => linkEn p n && !linkUp p n else []
  | 13 => linksWhere fun n => linkEn p n && linkHot p n
  | _ => []

/-- A source whose condition lasts is active; bit 8 is `swActive`. -/
def sourceActive (p : Polder) (k : Nat) : Bool := match k with
  | 0 => p.dike.tripiLow
  | 1 => (List.range 6).any (fun c => fbit p (F.AFE_CMP_CFG_EN c) && (vget p.afe.cmps c {}).acting) || fget p F.DIK_STEST_CMP_FAIL != 0
  | 2 => !(sourceLinks p 2).isEmpty || fget p F.DIK_STEST_GU_FAIL != 0
  | 6 => !fbit p F.CLK_STAT_LOCK || !fbit p F.CLK_STAT_REFOK
  | 7 => spbDemands p
  | 9 => p.dike.starved && fbit p F.MOD_STAT_RUN
  | 10 => fbit p F.AFE_CTRL_PLS_TRIP && (fbit p F.AFE_STAT_PLS_FAULT || fbit p F.AFE_STAT_SHD_FAULT)
  | 11 => p.dike.dcOut
  | 12 => fget p F.PCT_ENG_CE_STATE == 1
  | 13 => p.dike.therm || !(sourceLinks p 13).isEmpty
  | _ => !(sourceLinks p k).isEmpty

/-- The software source is active: its request came in the present CLK_P cycle. -/
def swActive (now : Nat) (p : Polder) : Bool := p.dike.swAt == some (now / cyc)

/-- The active sources with a lasting condition as a mask. -/
def activeMask (p : Polder) : Nat := (List.range 14).foldl (fun m k => if sourceActive p k then m + 2 ^ k else m) 0

/-- Enabled sources: bits 6, 7 and 12 always. -/
def enabledMask (p : Polder) : Nat := bitsOf (rd p A.DIK_TRIPEN) 13 0 ||| 0x10C0

/-- The latched bits. -/
def latched (p : Polder) : Nat := bitsOf (rd p A.DIK_TRIPSRC) 13 0

/-- Number of bits set among the lowest fourteen. -/
def popCount (m : Nat) : Nat := ((List.range 14).filter fun k => m.testBit k).length

/-! ### Latching (R304, R305) -/

/-- Link shown in `DIK_FIRST` for latched bits: that of the first L2 event (R308), else the first link that shows one of their conditions. -/
def firstLink (p : Polder) (m : Nat) : Nat :=
  let l2 := if m.testBit Src.l2 && !(sourceLinks p Src.l2).isEmpty then p.dike.l2Window.toList.map (·.2) else []
  (l2 ++ ((List.range 14).filter fun k => m.testBit k).flatMap (sourceLinks p)).headD 15

/-- Presented time of a source that becomes active now (R305): x_TRIPI through the time-to-digital converter, the others in the CLK_P cycle that took
them (R46). -/
def sourceStamp (p : Polder) (now k : Nat) : Int := if k = Src.tripi then tdcStamp p now else cycleStamp p now

/-- Presented time of the first source among the bits to become active, as computed at that instant (R305, R391). -/
def latchStamp (p : Polder) (m now : Nat) : Int :=
  (((List.range 14).filter fun k => m.testBit k).foldl (fun (b : Nat × Int) k =>
    let t := vget p.dike.activeAt k now
    if t < b.1 then (t, vget p.dike.stampAt k 0) else b) (now + 1, cycleStamp p now)).2

/-- What a latch does (R305): bits `m`, none of them latched before. -/
def latchBits (now m : Nat) (p : Polder) : Polder :=
  if m = 0 then p
  else
    let first := latched p == 0
    let at' := latchStamp p m now
    let p1 := addSat (wr p A.DIK_TRIPSRC (rd p A.DIK_TRIPSRC ||| wordN m)) A.DIK_TRIPCNT (popCount m)
    let p2 := if first then
        let q := wr p1 A.DIK_FIRST (wordN (firstLink p m * 268435456 + m))
        wr (wrTime q A.DIK_FT_NS A.DIK_FT_SL A.DIK_FT_SH at') A.DIK_FT_FR (wordN (fracOf at'))
      else p1
    let p3 := if first then enterSafe now p2 else p2
    let p4 := if first || m.testBit Src.spb then sluAbortAll now Rsn.trip p3 else p3
    let p5 := recTrip now at' p4
    notifyTrip (logRec now 0x02 m Sev.trip (wBytes (rd p5 A.DIK_FIRST) ++ wBytes (rd p5 A.DIK_FT_FR)) p5)

/-- All the sources that are active in the present cycle. -/
def activeNow (now : Nat) (p : Polder) : Nat := activeMask p + (if swActive now p then 256 else 0)

/-- Instants at which sources change, and `DIK_ACTIVE`. A source that is active when its enable takes effect counts as becoming active then (R304). The
software source becomes inactive at its request (R310). -/
def trackSources (now : Nat) (p : Polder) : Polder :=
  let a := activeNow now p
  let old := bitsOf (rd p A.DIK_ACTIVE) 13 0
  let rose := fun (k : Nat) => a.testBit k && !old.testBit k
  let armed := fun (k : Nat) => a.testBit k && (enabledMask p).testBit k && !p.dike.enabled.testBit k
  let on' := (List.range 14).foldl (fun v k => if rose k || armed k then vset v k now else v) p.dike.activeAt
  let st := (List.range 14).foldl (fun v k =>
    if rose k then vset v k (sourceStamp p now k) else if armed k then vset v k (cycleStamp p now) else v) p.dike.stampAt
  let off' := (List.range 14).foldl (fun v k => if !a.testBit k && old.testBit k && k != Src.sw then vset v k now else v) p.dike.inactiveAt
  wr { p with dike := { p.dike with activeAt := on', inactiveAt := off', stampAt := st, enabled := enabledMask p } } A.DIK_ACTIVE (wordN a)

/-- `DIK_ACTIVE` as it shows in the cycle of `now`: bit 8 stands for one cycle (R303). -/
def activeWord (now : Nat) (p : Polder) : Word := withBits (rd p A.DIK_ACTIVE) F.DIK_ACTIVE_SW.hi F.DIK_ACTIVE_SW.lo (bn (swActive now p))

/-- x_TRIPO is low: a latched bit of its mask, or x_TRIPI passed on (R311). -/
def tripoLow (p : Polder) : Bool :=
  latched p &&& bitsOf (rd p A.DIK_TRIPOMASK) 13 0 != 0 || (p.dike.tripiLow && fbit p F.DIK_CFG_TRIPO_PASS)

/-- Latched bits of `DIK_GENMASK` that have reached the end of their sequencing (R306). -/
def genLow (p : Polder) : Nat :=
  let m := latched p &&& bitsOf (rd p A.DIK_GENMASK) 13 0
  if p.mdl.sequencing || p.dike.l2Leg.isSome then p.dike.genLow &&& m else m

/-- The Dike after any change: active sources latch in the same cycle (R304), bit 7 clears itself, the L2 bit waits for the sequencing of
its leg (R308), and the output lines follow. -/
def settleDike (now : Nat) (p : Polder) : Polder :=
  let p1 := trackSources now p
  let a := activeNow now p1
  let p2 := if a.testBit Src.spb then p1 else wr p1 A.DIK_TRIPSRC (rd p1 A.DIK_TRIPSRC &&& ~~~ 0x80#32)
  let wait := if p2.dike.l2Leg.isSome && fget p2 F.DIK_STEST_GU_FAIL == 0 then 4 else 0
  let new := (a &&& enabledMask p2) &&& (0x3FFF ^^^ (latched p2 ||| wait))
  let p3 := latchBits now new p2
  { p3 with dike := { p3.dike with tripoLow := tripoLow p3, genLow := genLow p3 } }

/-- The Dike of a polder that runs; a polder in reset, booting or off drives x_TRIPO low (R311). -/
def settle (now : Nat) (p : Polder) : Polder :=
  if awake p then settleDike now p else { p with dike := { p.dike with tripoLow := true } }

/-- A software trip: source 8 for one CLK_P cycle (R303, R310). -/
def swTrip (now : Nat) (p : Polder) : Polder :=
  let p1 := { p with dike := { p.dike with
    swAt := some (now / cyc), activeAt := vset p.dike.activeAt Src.sw now, inactiveAt := vset p.dike.inactiveAt Src.sw now, stampAt := vset p.dike.stampAt Src.sw (cycleStamp p now) } }
  if (enabledMask p).testBit Src.sw && !(latched p).testBit Src.sw then latchBits now 256 p1 else p1

/-! ### Clears (R309) -/

/-- Bits of a clear that fail the test. -/
def clearFails (now mask : Nat) (p : Polder) : Nat :=
  let a := activeMask p
  let l := latched p &&& mask
  (List.range 14).foldl (fun m k =>
    if l.testBit k && (a.testBit k || (k != Src.spb && decide (now < vget p.dike.inactiveAt k 0 + rdN p A.DIK_SETTLE * ms))) then m + 2 ^ k else m) 0

/-- A clear: true when it succeeds. -/
def dikClear (now mask : Nat) (p : Polder) : Bool × Polder :=
  let f := clearFails now (mask % 16384) p
  if f = 0 then
    (true, wr (wr p A.DIK_TRIPSRC (rd p A.DIK_TRIPSRC &&& ~~~ (wordN (mask % 16384) &&& ~~~ 0x80#32))) A.DIK_CLRRES 0)
  else (false, evt F.DIK_EVT_CLR_REFUSED (wr p A.DIK_CLRRES (wordN f)))

/-! ### L2 (R308) -/

/-- An L2 event on link n. It counts only while bit 2 is enabled (DESIGN CHOICE, notes/assumptions/25.md). -/
def l2Event (now n : Nat) (p : Polder) : Polder :=
  if !(enabledMask p).testBit Src.l2 then p
  else match p.dike.l2Leg with
  | some i =>
    if i = n then p
    else evt F.DIK_EVT_MULTI_L2 { p with dike := { p.dike with l2Leg := none } }
  | none => match p.dike.l2Window.filter fun w => decide (now < w.1 + 10 * us) with
    | some (_, i) => evtIf (i != n) F.DIK_EVT_MULTI_L2 p
    | none =>
      if latched p ≠ 0 then p
      else
        let p1 := evt F.DIK_EVT_L2_LEG (seqLeg now n p)
        let p2 := modLeg p1 n fun l => { l with taken := true }
        let p3 := if n < 3 then embOff n p2 else p2
        { p3 with dike := { p3.dike with l2Window := some (now, n), l2Leg := some n } }

/-- The 10 µs window closes. -/
def l2WindowEnd (now : Nat) (p : Polder) : Polder := match p.dike.l2Window with
  | some (t0, _) => if t0 + 10 * us ≤ now then { p with dike := { p.dike with l2Window := none } } else p
  | none => p

/-- Sequencing of a leg alone has ended: bit 2 may latch. -/
def l2LegEnd (now : Nat) (p : Polder) : Polder := match p.dike.l2Leg with
  | some i => if seqOver now (leg p i) then
      let p1 := { p with dike := { p.dike with l2Leg := none } }
      if p1.mdl.sequencing then p1 else modLeg p1 i fun l => { l with seq := none }
    else p
  | none => p

/-! ### Uplink frames (R296, R300, R307) -/

/-- The report lies between an edge on the link and the end of the blanking after it. -/
def l1Blank (now : Nat) (p : Polder) (n : Nat) : Bool := edgeBlank p n now (fget p F.DIK_L1CFG_BLANK)

/-- L1 comparison of one report. -/
def l1Check (now n s code : Nat) (p : Polder) : Polder :=
  let thr := l1Thr p n s
  if code = 128 ∨ thr = 0 ∨ l1Blank now p n = true then p
  else modLink p n fun l => { l with l1 := vmod l.l1 s fun c => if (thr : Int) < absI (signed 8 code) then min 255 (c + 1) else 0 }

/-- High-side switches that conduct report a bootstrap voltage below `MOD_BS_WARN` (R173). -/
def bsWarns (p : Polder) (n : Nat) : Bool :=
  let w := rd p (A.GLK_MON n)
  let low := fun (c : Nat) => decide (c * 100 < rdN p A.MOD_BS_WARN)
  (swOf p n % 2 == 1 && low (bitsOf w 15 8)) || (linkNsw p n == 4 && threeLevel p n && swOf p n / 2 % 2 == 1 && low (bitsOf w 7 0))

/-- One status slot (R296). -/
def useSlot (now n k v : Nat) (p : Polder) : Polder := match k with
  | 0 => wr p (A.GLK_MON n) (withBits (rd p (A.GLK_MON n)) 31 24 v)
  | 1 => wr p (A.GLK_MON n) (withBits (rd p (A.GLK_MON n)) 23 16 v)
  | 2 => warn (wr p (A.GLK_MON n) (withBits (rd p (A.GLK_MON n)) 15 8 v))
  | 3 => warn (wr p (A.GLK_MON n) (withBits (rd p (A.GLK_MON n)) 7 0 v))
  | 4 => wr p (A.GLK_TEMP n) (wordN v)
  | 5 =>
    let expired := v / 128 % 2 == 1 && linkFault p n / 128 % 2 == 0
    let q := if v / 64 % 2 != linkFault p n / 64 % 2 then modLink p n fun l => { l with enableAt := now } else p
    fput (if expired && linkUp p n then modLink q n fun l => { l with holdExpired := true } else q) (F.GLK_STAT_FAULT n) v
  | 6 => modLink p n fun l => { l with rxByte := BitVec.ofNat 8 v }
  | _ =>
    let p1 := fput p (F.GLK_STAT_GUVER n) (v / 16 % 4)
    modLink p1 n fun l => match v / 64 with
      | 1 => { l with rxMsg := [l.rxByte] }
      | 2 => { l with rxMsg := l.rxMsg ++ [l.rxByte] }
      | _ => l
where
  warn (q : Polder) : Polder := if bsWarns q n then refreshWarn now n q else q

/-- The fields of a good frame. -/
def useFrame (now n : Nat) (w : Word) (p : Polder) : Polder :=
  let order := if linkNsw p n = 4 then bitsOf w 31 30 else (if bitsOf w 31 30 = 0 then 0 else 3)
  let code := bitsOf w 29 22
  let p1 := wr p (A.GLK_IS n) (withBits (rd p (A.GLK_IS n)) (8 * order + 7) (8 * order) code)
  let p2 := l1Check now n order code p1
  let old := linkL2 p2 n
  let flags := bitsOf w 21 18
  let p3 := fput p2 (F.GLK_STAT_L2 n) (old ||| flags)
  let p4 := useSlot now n (bitsOf w 8 6) (bitsOf w 16 9) p3
  if linkEn p n && flags &&& (15 ^^^ old) ≠ 0 then l2Event now n p4 else p4

/-- An uplink frame: `bad` marks a code or disparity error. Frames are used from CHECK on. A frame that fails its check keeps its place in
the count; a frame after a gap is missing as well as the counts skipped (DEDUCED, notes/assumptions/25.md). -/
def uplinkFrame (now n : Nat) (bad : Bool) (w : Word) (p : Polder) : Polder :=
  let l := linkOf p n
  if linkState p n < LinkSt.check then p
  else if bad || bitsOf w 5 0 != crc6 w then
    modLink (errHi n 1 p) n fun x => { x with
      rxSeq := l.rxSeq.map (fun s => (s + 1) % 8), missing := l.missing + 1, checkErr := l.checkErr || bitsOf w 5 0 != crc6 w, lastRx := w }
  else
    let seq := bitsOf w 8 6
    let gap := match l.rxSeq with
      | some s => (seq + 15 - s) % 8
      | none => 0
    let p1 := modLink p n fun x => { x with rxSeq := some seq, lastRx := w, missing := if gap = 0 then 0 else l.missing + gap + 1 }
    if gap ≠ 0 then errLo n (gap + 1) p1 else useFrame now n w p1

/-- A frame comes while CLK_P stands in SLEEP: the receive FIFO discards it and counts it (R31). -/
def uplinkLost (n : Nat) (p : Polder) : Polder := if p.power = .asleep then modLink p n fun l => { l with rxLost := l.rxLost + 1 } else p

/-! ### Gate-unit self-test (R313) and responses (R297) -/

/-- Result of a gate-unit self-test on a link. Readiness counts passes of the tests of PRECHARGE (R314); a later failure undoes one. -/
def guResult (n : Nat) (ok : Bool) (p : Polder) : Polder :=
  let p1 := putBit (putBit (fput p F.DIK_STEST_VALID 1) F.DIK_STEST_GU_PASS n ok) F.DIK_STEST_GU_FAIL n (!ok)
  let m := p1.dike.preGuPass
  let p2 := { p1 with dike := { p1.dike with preGuPass :=
    if !ok then m &&& (15 ^^^ 2 ^ n) else if regime p = Rg.precharge then m ||| 2 ^ n else m } }
  evtIf (!ok) F.DIK_EVT_STEST_FAIL p2

/-- A RUN_SELF_TEST command is answered when nothing is outstanding (R318). -/
def endSelfTest (p : Polder) : Polder := match p.dike.stestCmd with
  | some c =>
    if p.dike.cmpTest.isNone && p.dike.guPending.isEmpty then
      replyTo { p with dike := { p.dike with stestCmd := none } } c (okWith (wBytes (rd p A.DIK_STEST)))
    else p
  | none => p

/-- The gate-unit self-test of link n has an outcome. -/
def guDone (n : Nat) (ok : Bool) (p : Polder) : Polder :=
  let p1 := guResult n ok p
  endSelfTest { p1 with dike := { p1.dike with guPending := p1.dike.guPending.filter (fun k => k != n) } }

/-- Gate-unit self-tests of the given links start. -/
def guStart (now : Nat) (l : List Nat) (p : Polder) : Polder :=
  l.foldl (fun q n => sendMsg now n ⟨Msg.selfTest, [BitVec.ofNat 8 (populated q n)], now, 1, none⟩ q)
    { p with dike := { p.dike with guPending := p.dike.guPending ++ l } }

/-- In PRECHARGE each enabled link that is UP is tested once (R94). -/
def guPrecharge (now : Nat) (p : Polder) : Polder :=
  let l := linksWhere fun n => linkLive p n && !p.dike.preGuRun.testBit n && !p.dike.guPending.contains n
  if regime p = Rg.precharge then guStart now l { p with dike := { p.dike with preGuRun := l.foldl (fun m n => m ||| 2 ^ n) p.dike.preGuRun } } else p

/-- What a response does, by the message it answers. `ok` is false when the gate unit refused it. -/
def useResponse (now n : Nat) (m : LinkMsg) (ok : Bool) (payload : List Byte) (p : Polder) : Polder :=
  let fails := byteAt payload 0 / 16
  let p1 := if !ok then p
    else match m.code with
      | 1 => wr p (A.GLK_ID n) (wordN (u32At payload 0))
      | 3 => fput p (F.GLK_STAT_L2 n) (byteAt payload 0 % 16)
      | 4 => fput p (F.GLK_STAT_FAULT n) (byteAt payload 0)
      | _ => p
  match m.purpose with
  | 2 =>
    if linkState p1 n = LinkSt.check then
      if (linkOf p1 n).checkErr then trainFail now n 5 p1
      else if ok && byteAt payload 2 == linkNsw p1 n then guPrecharge now (linkToUp now n p1)
      else trainFail now n 4 p1
    else p1
  | 1 => guDone n (ok && fails == 0) p1
  | _ =>
    let p2 := if m.code = Msg.selfTest then guResult n (ok && fails == 0) p1 else p1
    match m.cmd with
    | some c => replyTo p2 c ⟨if ok then Status.ok else Status.state, 0, glcPayload p2 n (if ok then payload else [])⟩
    | none => p2

/-- A response completes the outstanding message: its code with bit 7 set, or 0xFF for a refusal; another code is none of it. -/
def gateUnitResponse (now n code : Nat) (payload : List Byte) (p : Polder) : Polder := match (linkOf p n).out with
  | some m =>
    if code = m.code + 128 ∨ code = 255 then useResponse now n m (code != 255) payload (nextMsg now n p) else p
  | none => p

/-- A message unanswered for 50 µs has failed. -/
def messageTimeout (now n : Nat) (p : Polder) : Polder := match (linkOf p n).out with
  | some m =>
    if m.sentAt + 50 * us ≤ now then
      let p1 := errLo n 1 (nextMsg now n p)
      match m.purpose with
      | 2 => p1
      | 1 => guDone n false p1
      | _ =>
        let p2 := if m.code = Msg.selfTest then guResult n false p1 else p1
        match m.cmd with
        | some c => replyTo p2 c ⟨Status.timeout, 0, glcPayload p2 n []⟩
        | none => p2
    else p
  | none => p

/-! ### Window-comparator self-test (R312) -/

/-- Input of a comparator: fixed for CMP0 to CMP4, `SRC` for CMP5 (R230). -/
def cmpInput (p : Polder) (k : Nat) : Nat := fget p (F.AFE_CMP_CFG_SRC k)

/-- Code of test level 0 to 3 of a comparator, `none` where it lies outside the test DAC or is not tested. -/
def testLevel (p : Polder) (k level : Nat) : Option Int :=
  let s : Int := if cmpInput p k ≤ 2 then 2 else 4
  let hi := cmpHi p k
  let lo := cmpLo p k
  let c := match level with
    | 1 => s * (hi + 2)
    | 3 => s * (lo - 2)
    | _ => s * roundDiv (hi + lo) 2
  if c < -512 ∨ 511 < c then none
  else if level % 2 = 0 ∧ hi - lo < 4 then none
  else some c

/-- The next level of comparator k from `level` on that is tested. -/
def nextLevel (p : Polder) (k level : Nat) : Option Nat := ([0, 1, 2, 3].drop level).find? fun v => (testLevel p k v).isSome

/-- Comparators to test from k on. -/
def nextCmp (p : Polder) (k : Nat) : Option Nat := ((List.range 6).drop k).find? fun c => fbit p (F.AFE_CMP_CFG_EN c)

/-- A side of the comparator is untestable. -/
def untestable (p : Polder) (k : Nat) : Bool := (testLevel p k 1).isNone || (testLevel p k 3).isNone

/-- An input leaves test: two further slots of its converter, or one fast sample, still carry SUS (R227). -/
def inputFreed (k : Nat) (p : Polder) : Polder := modAfe (fun a => { a with released := some (k, if k < 3 then 1 else 2) }) p

/-- The comparator self-test has ended: its results in `DIK_STEST`. A comparator that this test left out keeps its failure: it has not been rerun
with a pass (R310). -/
def cmpTestEnd (c : CmpTest) (p : Polder) : Polder :=
  let stays := fget p F.DIK_STEST_CMP_FAIL &&& (63 ^^^ (c.pass ||| c.fail))
  let p1 := fput (fput (fput (fput p F.DIK_STEST_VALID 1) F.DIK_STEST_CMP_PASS c.pass) F.DIK_STEST_CMP_FAIL (c.fail ||| stays))
    F.DIK_STEST_UNTEST c.untestable
  endSelfTest (evtIf (c.fail != 0) F.DIK_EVT_STEST_FAIL { inputFreed (cmpInput p c.cmp) p1 with dike := { p1.dike with cmpTest := none, preCmpPass :=
    c.fail == 0 && (p.dike.preCmpPass || regime p == Rg.precharge) } })

/-- Go on with the first level still to test, from comparator `c.cmp` and level `c.level`; `fuel` comparators are left. -/
def cmpTestGo (now : Nat) : Nat → CmpTest → Polder → Polder
  | 0, c, p => cmpTestEnd c p
  | fuel + 1, c, p => match nextLevel p c.cmp c.level with
    | some v => { p with dike := { p.dike with cmpTest := some { c with level := v, since := now } } }
    | none =>
      let b := 2 ^ c.cmp
      let c1 := { c with
        pass := if c.failed then c.pass else c.pass ||| b, fail := if c.failed then c.fail ||| b else c.fail,
        untestable := if untestable p c.cmp then c.untestable ||| b else c.untestable, failed := false, level := 0 }
      match nextCmp p (c.cmp + 1) with
      | some k => cmpTestGo now fuel { c1 with cmp := k } (inputFreed (cmpInput p c.cmp) p)
      | none => cmpTestEnd c1 p

/-- A comparator self-test starts. -/
def cmpTestStart (now : Nat) (p : Polder) : Polder :=
  let c0 : CmpTest := ⟨0, 0, now, false, false, 0, 0, 0⟩
  match nextCmp p 0 with
  | some k => cmpTestGo now 6 { c0 with cmp := k } p
  | none => cmpTestEnd c0 p

/-- A level has settled for 10 µs and held for 5 µs: it is judged. Odd levels lie outside. -/
def cmpTestLevel (now : Nat) (outside : Bool) (p : Polder) : Polder := match p.dike.cmpTest with
  | some c =>
    if c.since + 15 * us ≤ now then
      let bad := outside != (c.level % 2 == 1)
      cmpTestGo now 6 { c with failed := c.failed || bad, level := c.level + 1 } p
    else p
  | none => p

/-- The self-tests of an entry to PRECHARGE (R94). -/
def prechargeTests (now : Nat) (p : Polder) : Polder :=
  guPrecharge now (cmpTestStart now (linkKicks now { p with dike := { p.dike with preCmpPass := false, preGuPass := 0, preGuRun := 0 } }))

/-! ### Readiness (R314) -/

/-- `DIK_RDY.UP` and `.CLEAN` of a link. -/
def linkReady (p : Polder) (n : Nat) : Bool := linkUp p n && decide (fget p (F.GLK_CFG_VMIN n) ≤ fget p (F.GLK_STAT_VER n))
def linkClean (p : Polder) (n : Nat) : Bool := linkL2 p n == 0 && linkFault p n &&& 0xBF == 0

/-- The readiness checks pass. -/
def ready (p : Polder) : Bool :=
  [0, 1, 2, 3].all (fun n => !linkEn p n || (linkReady p n && linkClean p n && p.dike.preGuPass.testBit n)) && p.dike.preCmpPass

/-- `DIK_RDY`. -/
def rdyWord (p : Polder) : Word :=
  wordN (bn (ready p) * 2147483648 + [0, 1, 2, 3].foldl (fun m n => m + bn (linkClean p n) * 2 ^ (4 + n) + bn (linkReady p n) * 2 ^ n) 0)

/-- All enabled links are UP (R114). -/
def linksTrained (p : Polder) : Bool := [0, 1, 2, 3].all fun n => !linkEn p n || linkUp p n

/-! ### Conditions that swing-engine updates evaluate -/

/-- The DC-link window (R303, bit 11). -/
def dcWindow (p : Polder) : Polder :=
  let v := rdI p A.SWG_VDC
  let out := decide (rdI p A.DIK_DCHI < v) || (switching p && decide (v < rdI p A.DIK_DCLO))
  let n := if out then p.dike.dcCount + 1 else 0
  { p with dike := { p.dike with dcCount := n, dcOut := decide (rdN p A.DIK_DCN ≤ n) } }

/-- A thermal input has stood at its limit for 1 ms. -/
def thermHeld (now : Nat) (p : Polder) : Bool := p.dike.thermSince.toList.any fun s => match s with
  | some t => decide (t + ms ≤ now)
  | none => false

/-- The thermal limits at a path C output (R303, bit 13). -/
def thermCheck (now : Nat) (th0 th1 : Int) (p : Polder) : Polder :=
  let upd := fun (old : Option Nat) (v lim : Int) => if 65536 * lim ≤ v then some (old.getD now) else none
  let s := vset (vset p.dike.thermSince 0 (upd (vget p.dike.thermSince 0 none) th0 (rdI p A.DIK_TH0LIM))) 1
    (upd (vget p.dike.thermSince 1 none) th1 (rdI p A.DIK_TH1LIM))
  let p1 := { p with dike := { p.dike with thermSince := s } }
  { p1 with dike := { p1.dike with therm := thermHeld now p1 } }

/-- The time of a thermal limit is up between two outputs. -/
def thermalTrip (now : Nat) (p : Polder) : Polder := { p with dike := { p.dike with therm := p.dike.therm || thermHeld now p } }

/-- A phase leg has had no references for 5 µs beyond their update period, in HB, COT or CFT (R181). -/
def starvation (now i : Nat) (p : Polder) : Polder :=
  let l := leg p i
  if i < 3 && modMode p != Mode.cpwm && fbit p F.MOD_STAT_RUN && !l.taken && l.seq.isNone && decide (l.refsUntil + 5 * us ≤ now) then
    { p with dike := { p.dike with starved := true } }
  else p

/-- x_TRIPI changes at a polder whose Dike does not run: the level alone. -/
def tripiLevel (now : Nat) (low : Bool) (p : Polder) : Polder :=
  { p with dike := { p.dike with tripiLow := low, tripiPin := low, tripiEdge := now } }

/-- x_TRIPI has stood at a level for a number of cycles; after its filter it takes that level (R311). -/
def tripiChange (now : Nat) (x : PinHeld) (p : Polder) : Polder :=
  if fget p F.DIK_CFG_TRIPI_FILT ≤ x.cycles then evtIf (x.low && !p.dike.tripiLow) F.DIK_EVT_TRIPI (tripiLevel now x.low p)
  else { p with dike := { p.dike with tripiPin := x.low, tripiEdge := now } }

end Sys2Proof.Machine
end

