-- ==== Sys2Proof/Machine/Embank.lean ====
section
/-!
DEFINITION. The embankment controller (spec/04): references of the interpolator, errors, the fit, the bands, sectors, decisions and moves.
-/
namespace Sys2Proof.Machine
open Sys2Proof

/-- Flag of a stream's path C output at an instant: OVR, SUS, invalid (R203, R242). -/
def flagC (p : Polder) (now k : Nat) : Nat :=
  if now < vget p.flt.invC k 0 then 3 else if now < vget p.flt.ovrC k 0 then 2 else if now < vget p.flt.susC k 0 then 1 else 0

/-- Highest path C flag of some streams. -/
def flagsOf (p : Polder) (now : Nat) (l : List Nat) : Nat := l.foldl (fun m k => max m (flagC p now k)) 0

def embQ (p : Polder) (off : Nat) : Int := ofQ28 (cellGet polReset p.emb.cfg off)

/-- 3-level topology. -/
def embThree (p : Polder) : Bool := embF p F.EMB_CTRL_TOPO != 0

/-- Nominal frequency in Hz (R50). -/
def fnomHz (p : Polder) : Nat := if fbit p F.SWG_CTRL_FNOM then 60 else 50

/-! ### The interpolator (R65) -/

/-- Phase of the interpolator at an instant: it advances over one update period and then holds. -/
def interpPhase (p : Polder) (r : Nat → Bool) (at' : Nat) : Nat :=
  let w := p.swg
  let ts := tsFs p
  (((w.acc.toNat : Int) - w.inc + openDiv r 10 (w.inc * (min (at' - w.lastAt) ts : Nat)) ts) % 18446744073709551616 / 4294967296).toNat

/-- A rotating-frame reference at an instant: it ramps over one update period and then holds. -/
def rampAt (p : Polder) (r : Nat → Bool) (site at' : Nat) (a b : Int) : Int :=
  a + openDiv r site ((b - a) * (min (at' - p.swg.lastAt) (tsFs p) : Nat)) (tsFs p)

/-- Values of the three phases of a positive-sequence and a negative-sequence pair at phase `th`, without their mean under `ZS_REMOVE` (R65, R121). -/
def phases (p : Polder) (r : Nat → Bool) (site th : Nat) (d q d2 q2 : Int) : List Int :=
  let x := [0, 1, 2].map fun k =>
    phaseVal r (site + k) d q th k + phaseVal r (site + 4 + k) d2 q2 ((4294967296 - th) % 4294967296) k
  if embF p F.EMB_CTRL_ZS_REMOVE = 1 then
    let z := openDiv r (site + 8) (x.foldl (· + ·) 0) 3
    x.map (· - z)
  else x

/-- References in pu of the three phases at an instant. -/
def references (p : Polder) (r : Nat → Bool) (at' : Nat) : List Int :=
  let w := p.swg
  phases p r 20 (interpPhase p r at') (rampAt p r 11 at' w.prevD w.irefD) (rampAt p r 12 at' w.prevQ w.irefQ)
    (rampAt p r 13 at' w.prev2D w.i2refD) (rampAt p r 14 at' w.prev2Q w.i2refQ)

/-- Slopes in pu per second of the three references at an instant of the ramp (R125): the ramps of the rotating-frame references, and the turning
of the frame at the increment of the update; 0 once the ramp has ended. -/
def refSlopes (p : Polder) (r : Nat → Bool) (at' : Nat) : List Int :=
  let w := p.swg
  let ts := tsFs p
  if w.lastAt + ts < at' then [0, 0, 0]
  else
    let lin := fun (s : Nat) (a b : Int) => openDiv r s ((b - a) * (sec : Nat)) ts
    let turn := fun (s : Nat) (v : Int) => openDiv r s (v * tau60 * w.inc * (sec : Nat)) (2 ^ 124 * ts)
    phases p r 120 (interpPhase p r at')
      (lin 110 w.prevD w.irefD - turn 111 (rampAt p r 12 at' w.prevQ w.irefQ))
      (lin 112 w.prevQ w.irefQ + turn 113 (rampAt p r 11 at' w.prevD w.irefD))
      (lin 114 w.prev2D w.i2refD + turn 115 (rampAt p r 14 at' w.prev2Q w.i2refQ))
      (lin 116 w.prev2Q w.i2refQ - turn 117 (rampAt p r 13 at' w.prev2D w.i2refD))

/-! ### Samples (R121, R123, R124) -/

/-- Sample period and offset of the decision instant in the performance mode (R122). -/
def smpFs (p : Polder) : Nat := if fget p F.SWG_STAT_RATE = 2 then 100 * ns else 50 * ns
def decideFs (p : Polder) : Nat := if fget p F.SWG_STAT_RATE = 2 then 320 * ns else 270 * ns

/-- The refresh window of a leg is open at an instant (R144). -/
def inWindow (p : Polder) (i t : Nat) : Bool := match (phaseOf p i).window with
  | some (a, b) => decide (a ≤ t ∧ t < b)
  | none => false

/-- One sample of a phase waits for its decision instant (R122); eight bound the list. -/
def embSamplePhase (now i : Nat) (cur ref rdot : Int) (flag : Nat) (p : Polder) : Polder :=
  modPhase p i fun x =>
    let l := x.pend ++ [⟨now, now + decideFs p, ref, cur, rdot, flag, flag != 2⟩]
    { x with pend := l.drop (l.length - 8) }

/-- The three median currents reach the controller (R121): codes with their flags, scaled by `SWG_SCL_I`. -/
def embSample (now : Nat) (med : List (Int × Nat)) (p : Polder) : Polder :=
  let refs := references p (rounding p) now
  let slopes := refSlopes p (rounding p) now
  [0, 1, 2].foldl (fun q i =>
    let c := med.getD i (0, 0)
    embSamplePhase now i (c.1 * (took q A.SWG_SCL_I).toInt * 131072) (refs.getD i 0) (slopes.getD i 0) c.2 q) (drawn p)

/-- The sample whose decision instant has come becomes the one decided on: its error, and its place among the samples of the fit, where it
does not carry OVR and lies in no refresh window (R124). -/
def takeSample (i : Nat) (s : EmbSample) (p : Polder) : Polder :=
  modPhase p i fun x => { x with
    pend := x.pend.drop 1, tn := s.tn, err := s.ref - s.cur, cur := s.cur, ref := s.ref, rdot := s.rdot, flag := s.flag,
    fit := if s.fits && !inWindow p i s.tn then ((s.tn, s.ref - s.cur) :: x.fit).take 16 else x.fit }

/-! ### The slope (R124 to R126) -/

/-- The samples the fit uses: the newest N of those taken `EMB_SETTLE` after the leg's last level change. -/
def fitSamples (p : Polder) (i : Nat) : List (Nat × Int) :=
  let n := match embF p F.EMB_CTRL_FIT_N with
    | 0 => 4 | 1 => 8 | _ => 16
  let ok := fun (e : Nat × Int) => match (phaseOf p i).effAt with
    | some t => decide (t + embN p A.EMB_SETTLE * ns ≤ e.1)
    | none => true
  ((phaseOf p i).fit.filter ok).take n

/-- Least-squares line: slope in pu per second and the value at `tn`; `none` below three samples. -/
def fitLine (r : Nat → Bool) (tn : Nat) (l : List (Nat × Int)) : Option (Int × Int) :=
  let n : Int := l.length
  let t := fun (e : Nat × Int) => (e.1 : Int) - tn
  let st := l.foldl (fun a e => a + t e) 0
  let se := l.foldl (fun a e => a + e.2) 0
  let stt := l.foldl (fun a e => a + t e * t e) 0
  let ste := l.foldl (fun a e => a + t e * e.2) 0
  let d := n * stt - st * st
  if l.length < 3 ∨ d ≤ 0 then none
  else some (openDiv r 30 ((n * ste - st * se) * (sec : Nat)) d.toNat, openDiv r 31 (stt * se - st * ste) d.toNat)

/-- Half-link voltage that a level connects, with the level's sign. A leg that is off is taken at 0 (DESIGN CHOICE: R125 gives the voltage of a
level only, notes/assumptions/19.md). -/
def levelVolt (p : Polder) : LegLevel → Int
  | .pos => p.emb.vhUp
  | .neg => -p.emb.vhLo
  | _ => 0

/-- Model slope of R125 in pu per second. -/
def modelSlope (p : Polder) (r : Nat → Bool) (i : Nat) : Int :=
  let x := phaseOf p i
  x.rdot - divI r 32 ((levelVolt p x.level - x.vleg) * tau60 * (fnomHz p : Nat)) (embQ p A.EMB_XL)

/-- Slope and fitted error in use (R126). -/
def slopeOf (p : Polder) (r : Nat → Bool) (i : Nat) : Option (Int × Int) :=
  let x := phaseOf p i
  let m := modelSlope p r i
  match embF p F.EMB_CTRL_SLOPE_SRC, fitLine r x.tn (fitSamples p i) with
  | 0, f => f
  | 2, some (s, e) => some (openDiv r 33 (s + m) 2, e)
  | _, _ => some (m, x.err)

/-! ### Decisions (R128 to R134, R139 to R141) -/

/-- The controller issues level changes (R119). -/
def embActive (p : Polder) : Bool := fbit p F.MOD_STAT_RUN && modMode p != Mode.cpwm

/-- Modes in which the controller commits moves up, moves down (R145). -/
def mayUp (p : Polder) : Bool := modMode p == Mode.hb || modMode p == Mode.cot
def mayDown (p : Polder) : Bool := modMode p == Mode.hb || modMode p == Mode.cft

/-- The level above and below within the leg's sector. -/
def upLevel (p : Polder) (i : Nat) : Option LegLevel :=
  let x := phaseOf p i
  if !embThree p then (if x.level = .neg then some .pos else none)
  else if x.upper then (if x.level = .zero then some .pos else none)
  else if x.level = .neg then some .zero else none
def downLevel (p : Polder) (i : Nat) : Option LegLevel :=
  let x := phaseOf p i
  if !embThree p then (if x.level = .pos then some .neg else none)
  else if x.upper then (if x.level = .pos then some .zero else none)
  else if x.level = .zero then some .neg else none

/-- Lead of a move (R129). -/
def leadFs (p : Polder) (i : Nat) (up : Bool) : Nat :=
  let c := (phaseOf p i).cur
  let z := embQ p A.EMB_IZC
  let halves := if absI c ≤ z then 1 else if (z < c) = (up = true) then 2 else 0
  linkLead p i + halves * deadFs p i / 2

/-- A command instant on the grid of bins, on a version 1 link of frame starts (R130, R134), which lie at multiples of 64 ns from device time 0
(DESIGN CHOICE, notes/assumptions/19.md). `n / d` is the instant in fs. -/
def roundTc (p : Polder) (i : Nat) (n : Int) (d : Nat) : Int :=
  let g := if linkV1 p i then 64 * ns else bin
  roundDiv n (d * g) * (g : Nat)

/-- A counter of a phase, LATE or MISSED, advances; in the cycle of a clear it stays at 0 (R151). -/
def embCount (now i hi lo : Nat) (p : Polder) : Polder :=
  let w := rd p (A.EMB_CNT i)
  if p.emb.cleared = some (now / cyc) then p else wr p (A.EMB_CNT i) (withBits w hi lo (satAdd 16 (bitsOf w hi lo) 1))

/-- LATE, and MISSED, of a phase: its counter and the event. -/
def countLate (now i : Nat) (p : Polder) : Polder := evtSel now Ev.late F.EMB_EVT_LATE (embCount now i 31 16 p)
def countMissed (now i : Nat) (p : Polder) : Polder := evtSel now Ev.missed F.EMB_EVT_MISSED (embCount now i 15 0 p)

/-- A move is committed: it goes to the modulator and stands until its effective instant (R131). -/
def commitMove (i tc lead : Nat) (level : LegLevel) (src : MoveSource) (p : Polder) : Polder :=
  let p1 := modPhase p i fun x => { x with coming := x.coming ++ [⟨level, tc + lead, src == .escape, true, false⟩], moveEff := some (tc + lead) }
  evtIf (src == .escape) F.EMB_EVT_OUTER (askMove i ⟨level, tc, src⟩ p1)

/-- The test of R130 and R133 on a command instant: `missed` marks a sample beyond the band, whose instant is the decision instant. -/
def tryMove (now i td : Nat) (tc0 : Int) (up missed : Bool) (level : LegLevel) (src : MoveSource) (p : Polder) : Polder :=
  let lead := leadFs p i up
  let b : Int := (holdBound p i lead : Nat)
  let held := decide (tc0 < b)
  let tc := max tc0 b
  if tc < ((td + smpFs p : Nat) : Int) then
    let late := decide (tc < (td : Int))
    let p1 := if late then countLate now i p else p
    let p2 := if missed then countMissed now i p1 else p1
    commitMove i (if late then td else tc.toNat) lead level src (evtIf held F.EMB_EVT_HOLD p2)
  else p

/-- A predicted crossing of `lim`: t_n + (lim - ê) / s less the lead. -/
def crossTc (p : Polder) (i : Nat) (s e lim : Int) (up : Bool) : Int :=
  let x := phaseOf p i
  let num := ((x.tn : Int) - leadFs p i up) * s + (lim - e) * (sec : Nat)
  if s < 0 then roundTc p i (-num) (-s).toNat else roundTc p i num s.toNat

/-- `EMB_SMIN` in pu per second. -/
def sMin (p : Polder) : Int := embQ p A.EMB_SMIN * 1000000

/-- Outward escape of R141: the leg stands at 0 at the edge of its sector. -/
def canEscapeUp (p : Polder) (i : Nat) : Bool :=
  embThree p && mayUp p && (phaseOf p i).level == .zero && !(phaseOf p i).upper
def canEscapeDown (p : Polder) (i : Nat) : Bool :=
  embThree p && mayDown p && (phaseOf p i).level == .zero && (phaseOf p i).upper

/-- The decision of a phase for the sample decided on, with slope and fitted error `sl` (R128 to R141). -/
def decide' (now i td : Nat) (r : Nat → Bool) (sl : Option (Int × Int)) (p : Polder) : Polder :=
  let x := phaseOf p i
  let up := if mayUp p then upLevel p i else none
  let dn := if mayDown p then downLevel p i else none
  let out := mul60 r 34 (ofUQ24 (cellGet polReset p.emb.cfg A.EMB_OUTER)) x.h
  match up with
  | some l => if x.h ≤ x.err then tryMove now i td td true true l .embankment p else predict p up dn out
  | none => predict p up dn out
where
  predict (q : Polder) (up dn : Option LegLevel) (out : Int) : Polder :=
    let x := phaseOf q i
    if dn.isSome && decide (x.err ≤ -x.h) then tryMove now i td td false true (dn.getD .off) .embankment q
    else if canEscapeUp q i && decide (out ≤ x.err) then tryMove now i td td true true .pos .escape q
    else if canEscapeDown q i && decide (x.err ≤ -out) then tryMove now i td td false true .neg .escape q
    else match sl with
      | none => q
      | some (s, e) =>
        if up.isSome && decide (0 < s ∧ sMin q ≤ s ∧ e < x.h) then
          tryMove now i td (crossTc q i s e x.h true) true false (up.getD .off) .embankment q
        else if dn.isSome && decide (s < 0 ∧ s ≤ -sMin q ∧ -x.h < e) then
          tryMove now i td (crossTc q i s e (-x.h) false) false false (dn.getD .off) .embankment q
        else if canEscapeUp q i && decide (0 < s ∧ sMin q ≤ s ∧ e < out) then
          tryMove now i td (crossTc q i s e out true) true false .pos .escape q
        else if canEscapeDown q i && decide (s < 0 ∧ s ≤ -sMin q ∧ -out < e) then
          tryMove now i td (crossTc q i s e (-out) false) false false .neg .escape q
        else q

/-- First level of a leg that starts switching (R146). -/
def firstMove (i td : Nat) (p : Polder) : Polder :=
  let x := phaseOf p i
  let sign : LegLevel := if 0 ≤ x.err then .pos else .neg
  let level : LegLevel := if !embThree p then sign else if absI x.err < x.h then .zero else sign
  let upper := if level = .pos then embThree p else if level = .neg then false else x.selUpper.getD x.upper
  let p1 := setPhase p i { x with
    starting := false, upper := upper, coming := x.coming ++ [⟨level, td + linkLead p i, false, true, false⟩], moveEff := some (td + linkLead p i) }
  askMove i ⟨level, td, .start⟩ p1

/-- The sector of a leg changes at `t` (R140): at level 0 its levels change places, and the continuous time at the higher level (R172) starts
or ends with them (DESIGN CHOICE for the start: notes/assumptions/19.md). -/
def setSector (t i : Nat) (upper : Bool) (p : Polder) : Polder :=
  if (phaseOf p i).upper = upper then p
  else
    let p1 := modPhase p i fun x => { x with upper := upper }
    if (leg p i).level = .zero ∧ (leg p i).refresh = none ∧ modMode p ≠ Mode.cpwm then
      modLeg p1 i fun l => { l with highSince := if highLevel p1 i = .zero then some t else none }
    else p1

/-- One level change has reached its effective instant: the level, and the sector that applies from then on (R139 to R141). At level 0 that is the
selected one, and the present one where none is selected (R140). -/
def changeDone (i : Nat) (c : Coming) (p : Polder) : Polder :=
  let x := phaseOf p i
  let upper := if c.level = .zero then x.selUpper.getD x.upper else if c.level = .pos then true else if c.level = .neg then false else x.upper
  setSector c.eff i (embThree p && upper) (modPhase p i fun x => { x with level := c.level, effAt := some c.eff })

/-- The level changes whose effective instants have come, oldest first. A committed move that the modulator has not begun stands until it does (R131). -/
def movesDone (now i : Nat) (p : Polder) : Polder :=
  let l := (phaseOf p i).coming
  let (gone, rest) := l.partition fun c => decide (c.eff ≤ now) && (c.begun || !c.own)
  gone.foldl (fun q c => changeDone i c q) (modPhase p i fun x => { x with coming := rest })

/-- `EMB_STAT` from the phases. -/
def embStat (now : Nat) (p : Polder) : Polder :=
  let lvl := fun (l : LegLevel) => match l with
    | .off => 0 | .neg => 1 | .zero => 2 | .pos => 3
  let on' := embActive p
  let ph := fun i => phaseOf p i
  let code := fun i => if on' then lvl (ph i).level else 0
  let sect := fun i => bn (embThree p && (ph i).upper)
  let w := code 2 * 1024 + code 1 * 256 + code 0 * 64 + sect 2 * 32 + sect 1 * 16 + sect 0 * 8 + fget p F.EMB_STAT_NPSAT * 4 +
    bn ([0, 1, 2].any fun i => inWindow p i now) * 2 + bn on'
  wr p A.EMB_STAT (wordN w)

/-- What the controller holds of a phase for the gallery (R201, R209). -/
def embView (now i : Nat) (p : Polder) : EmbView where
  vleg := (phaseOf p i).vleg
  vcm := p.emb.vcm
  vhUp := p.emb.vhUp
  vhLo := p.emb.vhLo
  v0 := rd p A.EMB_V0
  vnp := rd p A.EMB_VNP
  trim := rd p (A.EMB_TRIM i)
  fswm := rd p (A.EMB_FSWM i)
  stat := rd p A.EMB_STAT
  flagV := flagsOf p now [3, 4, 5]
  flagDc := flagsOf p now [9, 10]

/-- What a decision instant shows (R151). -/
def showDecision (i td : Nat) (sl : Option (Int × Int)) (p : Polder) : Polder :=
  modPhase p i fun x => { x with
    decided := (⟨td, x.err, sl.map (·.1), x.h, x.ref, x.cur, x.flag, embView td i p⟩ :: x.decided).take 2 }

/-- `EMB_STAT` as the decisions of an instant leave it, for the phases that have decided there. -/
def statShown (td : Nat) (p : Polder) : Polder :=
  [0, 1, 2].foldl (fun q i => modPhase q i fun x => { x with
    decided := x.decided.map fun d => if d.td = td then { d with view := { d.view with stat := rd p A.EMB_STAT } } else d }) p

/-- EMBANKMENT_DECISION for one phase, at the decision instant of its oldest sample (R122, R130). The leg's level changes apply from their effective
instants; until then, in a refresh window and while the leg is not switched by the controller nothing is decided (R131, R144, R147). -/
def embDecision (now i : Nat) (p : Polder) : Polder :=
  match (phaseOf p i).pend with
  | s :: _ =>
    if i < 3 ∧ s.td ≤ now then
      let p1 := takeSample i s (movesDone s.td i p)
      let sl := slopeOf p1 (rounding p) i
      let p2 := showDecision i s.td sl p1
      let y := phaseOf p2 i
      let p3 :=
        if !embActive p || (leg p i).taken || (leg p i).seq.isSome then p2
        else if y.starting then firstMove i s.td p2
        else if y.level = .off ∨ y.coming ≠ [] ∨ inWindow p2 i s.td = true then p2
        else decide' now i s.td (rounding p) sl p2
      statShown s.td (embStat now (drawn p3))
    else p
  | [] => p

/-! ### At a swing-engine update (R127, R135 to R138, R142, R148, R151) -/

/-- Half-link of the leg's sector. -/
def halfLink (p : Polder) (i : Nat) : Int := if embThree p && !(phaseOf p i).upper then p.emb.vhLo else p.emb.vhUp

/-- Shaping function h_s of R136. -/
def shaped (p : Polder) (r : Nat → Bool) (i : Nat) : Int :=
  let v := absI (phaseOf p i).vleg
  let vh := halfLink p i
  let f : Int := (embN p A.EMB_FSW : Nat)
  let xl := embQ p A.EMB_XL
  let num := if embThree p then v * (vh - v) * tau60 * (fnomHz p : Nat) else (vh * vh - v * v) * tau60 * (fnomHz p : Nat)
  let den := if embThree p then 2 * xl * vh * f else 4 * xl * vh * f
  if vh ≤ 0 ∨ num ≤ 0 then 0 else divI r 35 num den

/-- Band half-width of a phase (R135). -/
def bandOf (p : Polder) (r : Nat → Bool) (i : Nat) : Int := match embF p F.EMB_CTRL_BANDMODE with
  | 0 => embQ p A.EMB_HFIX
  | 1 => clampI (embQ p A.EMB_HMIN) (embQ p A.EMB_HMAX) (shaped p r i)
  | _ => clampI (embQ p A.EMB_HMIN) (embQ p A.EMB_HMAX) (mul60 r 36 (phaseOf p i).trim (shaped p r i))

/-- The trim of a phase at a wrap of θ (R137): f_m from the level changes of the cycle, and the trim factor. -/
def trimPhase (r : Nat → Bool) (i : Nat) (p : Polder) : Polder :=
  let x := phaseOf p i
  let ch : Int := ((leg p i).changes : Nat)
  let p0 := modLeg p i fun l => { l with changes := 0 }
  if embF p F.EMB_CTRL_BANDMODE = 2 then
    let f : Int := (embN p A.EMB_FSW : Nat)
    let fm := ch * p.swg.w * (fnomHz p : Nat)
    let g := x.trim + divI r 37 (x.trim * embQ p A.EMB_TRIMK * (fm - 2 * f * one60)) (2 * f * one60 * one60)
    let c := clampI (one60 / 2) (2 * one60) g
    let p1 := setPhase (wr p0 (A.EMB_FSWM i) (wordI (openDiv r 38 fm (2 * one60).toNat))) i { x with trim := c }
    evtIf (c != g) F.EMB_EVT_TRIM_LIM (wr p1 (A.EMB_TRIM i) (toUQ24 c))
  else p0

/-- Neutral-point offset of R142. The filter advances by the forward difference of one update period (DESIGN CHOICE: R142 gives its time constant
alone, notes/assumptions/18.md). -/
def npOffset (r : Nat → Bool) (vdp vdn : Int) (p : Polder) : Polder :=
  let dv := mul60 r 39 sqrt3 (vdp - vdn)
  let vnp := p.emb.vnp + divI r 40 ((dv - p.emb.vnp) * (tsFs p : Nat)) ((embN p A.EMB_NPTF * us : Nat) : Int)
  let pw := p.swg.pf
  let sg := if one60 / 20 ≤ pw then 1 else if pw ≤ -(one60 / 20) then -1 else p.emb.sigma
  let lim := embQ p A.EMB_V0MAX
  let raw := mul60 r 41 (embQ p A.EMB_NPK) vnp * sg
  let v0 := clampI (-lim) lim raw
  let p1 := { p with emb := { p.emb with vnp := vnp, sigma := sg, v0 := v0 } }
  let p2 := wr (wr p1 A.EMB_VNP (toQ28 vnp)) A.EMB_V0 (toQ28 v0)
  evtIf (v0 != raw) F.EMB_EVT_NPSAT (fputB p2 F.EMB_STAT_NPSAT (v0 != raw))

/-- Selected sector of a phase (R140): within the hysteresis the present sector holds. It applies at once while the leg stands at 0. While a level change is under way the sector waits for its
effective instant (DESIGN CHOICE, notes/assumptions/19.md). -/
def sectorOf (now i : Nat) (p : Polder) : Polder :=
  let x := phaseOf p i
  let v := x.vleg + p.emb.v0
  let hy := embQ p A.EMB_SECT_HYS
  let sel := if hy < v then some true else if v < -hy then some false else none
  let p1 := modPhase p i fun x => { x with selUpper := sel }
  if embThree p && x.level == .zero && x.coming.isEmpty then setSector now i (sel.getD x.upper) p1 else p1

/-- The decision instant that an update samples (R151): the last one that all three phases have reached. -/
def decidedAt (p : Polder) : Nat :=
  [1, 2].foldl (fun t k => min t (((phaseOf p k).decided.head?.map (·.td)).getD 0)) (((phaseOf p 0).decided.head?.map (·.td)).getD 0)

/-- What a phase showed at that instant, once it has decided. -/
def sampled (p : Polder) (i : Nat) : Option Decided := (phaseOf p i).decided.find? fun d => decide (d.td ≤ decidedAt p)

/-- `EMB_ERRp`, `EMB_SLOPEp` and `EMB_BANDp` (R151); before the first decision the band is that of the update. -/
def embShow (r : Nat → Bool) (i : Nat) (p : Polder) : Polder := match sampled p i with
  | some d =>
    let s := match d.slope with
      | some v => openDiv r 42 v 1000000
      | none => 0
    wr (wr (wr p (A.EMB_ERR i) (toQ28 d.err)) (A.EMB_SLOPE i) (toQ28 s)) (A.EMB_BAND i) (toQ28 d.h)
  | none => wr p (A.EMB_BAND i) (toQ28 (phaseOf p i).h)

/-- Values of one phase that an update computes. -/
def embPhaseUpdate (now : Nat) (r : Nat → Bool) (i : Nat) (vc : Int) (p : Polder) : Polder :=
  let p1 := sectorOf now i (modPhase (movesDone now i p) i fun x => { x with vleg := vc + p.emb.vcm })
  modPhase p1 i fun x => { x with h := bandOf p1 r i }

/-- The controller at a swing-engine update, with the capacitor voltages and the DC-link halves of that update. -/
def embUpdate (now : Nat) (va vb vc vdp vdn : Int) (wrap : Bool) (p : Polder) : Polder :=
  let r := rounding p
  let p0 := { p with emb := { p.emb with cfg := blockCells p A.EMB_CTRL } }
  let p1 := if wrap then [0, 1, 2].foldl (fun q i => trimPhase r i q) p0 else p0
  let half := mul60 r 43 sqrt3 (vdp + vdn) / 2
  let up := if embThree p1 then mul60 r 44 sqrt3 vdp else half
  let lo := if embThree p1 then mul60 r 45 sqrt3 vdn else half
  let cm := if embF p1 F.EMB_CTRL_CM_EST = 1 then -(max va (max vb vc) + min va (min vb vc)) / 2 else 0
  let p2 := { p1 with emb := { p1.emb with vhUp := up, vhLo := lo, vcm := cm } }
  let p3 := if embThree p2 && embF p2 F.EMB_CTRL_NP_EN = 1 then npOffset r vdp vdn p2
    else fput (wr { p2 with emb := { p2.emb with v0 := 0 } } A.EMB_V0 0) F.EMB_STAT_NPSAT 0
  let p4 := embPhaseUpdate now r 2 vc (embPhaseUpdate now r 1 vb (embPhaseUpdate now r 0 va p3))
  embStat now (embShow r 2 (embShow r 1 (embShow r 0 p4)))

/-- A change of performance mode empties the fit windows (R149); samples taken before it stay out of the fit. -/
def embRate (p : Polder) : Polder := [0, 1, 2].foldl (fun q i => modPhase q i fun x => { x with
  fit := [], pend := x.pend.map fun s => { s with fits := false } }) p

/-- `EMB_CNTCLR.CLR` (R151): the counters are 0 at the end of the cycle. -/
def embClear (now : Nat) (p : Polder) : Polder :=
  wr (wr (wr { p with emb := { p.emb with cleared := some (now / cyc) } } (A.EMB_CNT 0) 0) (A.EMB_CNT 1) 0) (A.EMB_CNT 2) 0

end Sys2Proof.Machine
end

