-- ==== Sys2Proof/Machine/Metering.lean ====
section
/-!
DEFINITION. The flags and delays of the filter paths (R242, R243), the lanes of the resampler (R245, R246) and the meters (R247, R248, R250).
Lane values are codes with 16 fractional bits; metered values carry 60 fractional bits until a block ends.
-/
namespace Sys2Proof.Machine
open Sys2Proof

def modFlt (f : FltState → FltState) (p : Polder) : Polder := { p with flt := f p.flt }
def modLane (f : LaneState → LaneState) (p : Polder) : Polder := modFlt (fun x => { x with lane := f x.lane }) p

/-- Consumers of path M take path C (R237). -/
def mPath (p : Polder) : Bool := fbit p F.FLT_STAT_MPATH

/-! ### Paths (R242, R243) -/

/-- Flag of a stream's path M output at an instant: OVR, SUS, invalid (R203, R242). -/
def flagM (p : Polder) (now k : Nat) : Nat :=
  if now < vget p.flt.invM k 0 then 3 else if now < vget p.flt.ovrM k 0 then 2 else if now < vget p.flt.susM k 0 then 1 else 0

/-- Flag span of a response in fs (R243). -/
def spanFs (id : Nat) : Nat :=
  ([1200, 18800, 18800, 46000, 46000, 122000, 122000, 360000, 63600, 414000, 414000, 766000, 766000, 4580000, 4580000, 6100000].getD id 0) * ns

/-- Group delay of a response in fs (R243). -/
def groupDelay (id : Nat) : Nat :=
  ([600, 9400, 3600, 23000, 8100, 61000, 20600, 60600, 31800, 207000, 90000, 383000, 150000, 2290000, 900000, 3050000].getD id 0) * ns

/-- Group delay of stream k on the path whose field in `FLT_RESPk` begins at bit `lo`: 0 path C, 4 path M. -/
def streamDelay (p : Polder) (lo k : Nat) : Nat := groupDelay (bitsOf (vget p.flt.resp k 0) (lo + 3) lo)

/-- A value of stream k in chain format, in pu (R50, R237): currents, voltages, DC halves; the rest as a fraction of full scale. -/
def puOf (p : Polder) (k : Nat) (v : Int) : Int :=
  if k < 3 then v * (rd p A.SWG_SCL_I).toInt * 2
  else if k < 9 then v * (rd p A.SWG_SCL_V).toInt * 2
  else if k < 11 then v * (rd p A.SWG_SCL_DC).toInt * 2
  else v * 536870912

/-! ### Lane P: the reference phase and its instants (R245, R246) -/

/-- Reference of lane P that the state asks for. -/
def laneRef (p : Polder) : Nat := if fbit p F.SWG_STAT_RUN then 0 else if fbit p F.SWG_STAT_FEHOLD then 2 else 1

/-- θ, or the phase of U1, in 2^-64 revolutions. -/
def refPhase (p : Polder) (ref : Nat) : Int := if ref = 0 then (p.swg.acc.toNat : Int) else ((p.swg.u1arg * 4294967296 : Nat) : Int)

/-- The lane begins a cycle at an instant. -/
def laneBegin (t : Nat) (l : LaneState) : LaneState := { l with on := true, next := 1, first := t, last := t, times := l.times ++ [t] }

/-- Instant at which a phase that runs from `a` at t0 to `b` at t1 reaches `x`. -/
def reachAt (t0 t1 : Nat) (a b x : Int) : Nat := t0 + (((t1 - t0 : Nat) : Int) * (x - a) / max 1 (b - a)).toNat

/-- The instants that a stretch of the reference phase reaches, at most `fuel` of them; the instant of the wrap at which the reference changes, if it
does. -/
def laneGo (p : Polder) (t0 t1 : Nat) : Nat → Int → Int → LaneState → LaneState × Option Nat
  | 0, _, b, l => ({ l with phase := b }, none)
  | fuel + 1, a, b, l =>
    let x : Int := ((l.next * 2 ^ 56 : Nat) : Int)
    if b < x then ({ l with phase := b }, none)
    else
      let t := reachAt t0 t1 a b x
      if l.next < 256 then laneGo p t0 t1 fuel a b { l with next := l.next + 1, last := t, times := l.times ++ [t] }
      else
        let change := laneRef p != fget p F.FLT_STAT_PREF
        let l1 := if l.on then { l with cycles := l.cycles ++ [⟨fget p F.FLT_STAT_PREF, l.first, l.last, t, change⟩] } else l
        if change then ({ l1 with on := false, next := 256 }, some t)
        else laneGo p t0 t1 fuel (a - 2 ^ 64) (b - 2 ^ 64) (laneBegin t l1)

/-- The lane takes a reference at an instant: the nominal phase starts at 0 there, the others stand where they are, and the lane waits for their next wrap
(DESIGN CHOICE for the start, notes/assumptions/47.md). -/
def laneTake (now t ref : Nat) (p : Polder) : Polder :=
  fput (modLane (fun l =>
    if ref = 2 then laneBegin t { l with phase := 0, phaseAt := some t }
    else { l with phase := refPhase p ref, phaseAt := some now, on := false, next := 256 }) p) F.FLT_STAT_PREF ref

/-- The reference phase of lane P goes on to an instant. -/
def laneAdvance (now : Nat) (p : Polder) : Polder :=
  let l := p.flt.lane
  let ref := fget p F.FLT_STAT_PREF
  match l.phaseAt with
  | none => laneTake now now ref p
  | some t0 =>
    let d := if ref = 2 then ((fnomHz p * (now - t0) * 2 ^ 64 / sec : Nat) : Int) else signed 64 (codeOf 64 (refPhase p ref - l.phase))
    match laneGo p t0 now 200 l.phase (l.phase + d) l with
    | (l1, none) => modLane (fun _ => { l1 with phaseAt := some now }) p
    | (l1, some t) => laneTake now t (laneRef p) (modLane (fun _ => l1) p)

/-! ### The samples of the lanes (R245, R251) -/

/-- The value at an instant between the newest output of a stream and its next one, which represents the instant `rep`. -/
def laneValue (r : Nat → Bool) (l : LaneState) (k rep : Nat) (v : Int) (t : Nat) : Int := match vget l.newest k none with
  | some (t0, v0) => resample r (3220 + k) v0 v (t - t0) (rep - t0)
  | none => v

/-- The instants of lane P that an output of stream k reaches. -/
def laneP (r : Nat → Bool) (k rep : Nat) (v : Int) (flag : Nat) (l : LaneState) : LaneState :=
  let x := vget l.vals k []
  let due := (l.times.drop x.length).takeWhile fun t => decide (t ≤ rep)
  { l with vals := vset l.vals k (x ++ due.map fun t => (laneValue r l k rep v t, flag)) }

/-- Place of a stream among the six inputs of lane S. -/
def svPlace (k : Nat) : Option Nat := if k < 3 then some k else if 6 ≤ k ∧ k < 9 then some (k - 3) else none

/-- Number of the lane S instant at or before a presented time, counted from second 0. -/
def svIndex (p : Polder) (t : Int) : Nat := t.toNat * (80 * fnomHz p) / sec

/-- The instant of lane S that an output of stream k has passed (R245, R252). -/
def laneS (p : Polder) (k rep : Nat) (v : Int) (flag : Nat) (l : LaneState) : LaneState := match svPlace k, vget l.newest k none with
  | some j, some (t0, v0) =>
    let a := presentedThen p t0
    let b := presentedThen p rep
    let i := svIndex p b
    if fbit p F.FLT_CTRL_SV_EN && decide (svIndex p a < i) then
      let t : Int := ((i * sec / (80 * fnomHz p) : Nat) : Int)
      { l with sv := vmod l.sv j fun x => x ++ [(i, resample (rounding p) (3240 + k) v0 v (t - a).toNat (b - a).toNat, flag)] }
    else l
  | _, _ => l

/-- One output instant of the path that feeds lanes P and S: `delay` is the group delay of a stream, `val` its value and flag. -/
def laneFeed (now : Nat) (delay : Nat → Nat) (val : Nat → Int × Nat) (p : Polder) : Polder :=
  let one := fun (l : LaneState) (k : Nat) =>
    let rep := now - delay k
    let x := val k
    let l1 := laneS p k rep x.1 x.2 (laneP (rounding p) k rep x.1 x.2 l)
    { l1 with newest := vset l1.newest k (some (rep, x.1)) }
  let slow := fun (l : LaneState) => { l with slow := Vector.ofFn fun (j : Fin 4) => vget l.slow j.val 0 + puOf p (11 + j.val) (val (11 + j.val)).1, slowN := l.slowN + 1 }
  modLane (fun l => slow ((List.range 15).foldl one l)) p

/-! ### The quantities of a cycle (R248)

The CE's arithmetic is taken as exact up to its result's code, and reactive power as that of the fundamental (DESIGN CHOICE, notes/assumptions/47.md). -/

/-- Sum of the products of two sequences. -/
def dotI (a b : List Int) : Int := (List.zipWith (· * ·) a b).foldl (· + ·) 0

/-- RMS of a cycle's samples, its square times n / d. -/
def rmsBy (n d : Nat) (l : List Int) : Int := (isqrt ((dotI l l).toNat * n / (d * 256)) : Nat)

/-- Mean of a cycle's samples. -/
def meanOf (l : List Int) : Int := l.foldl (· + ·) 0 / 256

/-- Phasor of the harmonic of order h: its peak, at the phase it has where the reference is 0. -/
def phasor (h : Nat) (l : List Int) : Int × Int :=
  let s := l.zipIdx.foldl (fun (a : Int × Int) e =>
    let ph := h * e.2 % 256 * 16777216
    (a.1 + e.1 * cosP ph, a.2 - e.1 * sinP ph)) (0, 0)
  (s.1 / (128 * one60), s.2 / (128 * one60))

/-- Magnitude of a phasor. -/
def magOf (x : Int × Int) : Int := magI x.1 x.2

/-- A phasor turned by `a` in 2^-32 revolutions. -/
def turn (a : Nat) (x : Int × Int) : Int × Int :=
  ((x.1 * cosP a - x.2 * sinP a) / one60, (x.1 * sinP a + x.2 * cosP a) / one60)

/-- Sequence component n of three phasors: 0 zero, 1 positive, 2 negative. -/
def sequence' (n : Nat) (a b c : Int × Int) : Int × Int :=
  let y := turn (n * 1431655765) b
  let z := turn (n * 2863311531) c
  ((a.1 + y.1 + z.1) / 3, (a.2 + y.2 + z.2) / 3)

/-- A ratio of metered values; free where the divisor is 0. -/
def meterRatio (id : Nat) (n d : Int) : Int := if d = 0 then Config.noRatio id n else n * one60 / d

/-- Total distortion of orders 2 to 50. -/
def thdOf (id : Nat) (l : List Int) : Int :=
  let sq := (List.range 49).foldl (fun a k => let x := phasor (k + 2) l; a + x.1 * x.1 + x.2 * x.2) (0 : Int)
  meterRatio id (isqrt sq.toNat : Nat) (magOf (phasor 1 l))

/-- Phase of a phasor with a part of at least 0 across, found bit by bit, from bit `b` - 1 down. -/
def argFrom (x : Int × Int) : Nat → Nat → Nat
  | 0, a => a
  | b + 1, a =>
    let c := a + 2 ^ b
    argFrom x b (if 0 ≤ cosP c * x.2 - sinP c * x.1 then c else a)

/-- Phase of a phasor in 2^-32 revolutions; free where it has none. -/
def argOf (id : Nat) (x : Int × Int) : Int :=
  if x = (0, 0) then Config.noRatio id 0
  else if x.2 < 0 then ((argFrom (-x.1, -x.2) 31 0 + 2 ^ 31 : Nat) : Int) else (argFrom x 31 0 : Nat)

/-- The metered quantities of one cycle: `s k` gives the 256 samples of stream k in pu, `slow j` the mean of stream 11 + j, `hsel` the order of R247. -/
def cycleVal (s : Nat → List Int) (slow : Nat → Int) (hsel k : Nat) : Int :=
  let u := fun j => s (6 + j)
  let diff := fun (a b : List Int) => List.zipWith (· - ·) a b
  let plus := fun (a b : List Int) => List.zipWith (· + ·) a b
  let third := fun j => (j + 1) % 3
  let pw := fun j => 2 * dotI (u j) (s j) / (768 * one60)
  let qw := fun j =>
    let a := phasor 1 (u j)
    let b := phasor 1 (s j)
    (a.2 * b.1 - a.1 * b.2) / (3 * one60)
  let pt := pw 0 + pw 1 + pw 2
  let qt := qw 0 + qw 1 + qw 2
  let us := fun n => sequence' n (phasor 1 (u 0)) (phasor 1 (u 1)) (phasor 1 (u 2))
  let is := fun n => sequence' n (phasor 1 (s 0)) (phasor 1 (s 1)) (phasor 1 (s 2))
  let dc := plus (s 9) (s 10)
  if k < 3 then rmsBy 2 1 (u k)
  else if k < 6 then rmsBy 2 3 (diff (u (k - 3)) (u (third (k - 3))))
  else if k < 9 then rmsBy 2 1 (s (k - 6))
  else if k = 9 then rmsBy 2 1 (plus (plus (s 0) (s 1)) (s 2))
  else if k < 13 then pw (k - 10)
  else if k = 13 then pt
  else if k < 17 then qw (k - 14)
  else if k = 17 then qt
  else if k = 18 then magI pt qt
  else if k = 19 then meterRatio 19 pt (magI pt qt)
  else if k = 20 then 0
  else if k < 24 then magOf (us ((k - 20) % 3))
  else if k < 27 then magOf (is ((k - 23) % 3))
  else if k = 27 then meterRatio 27 (magOf (us 2)) (magOf (us 1))
  else if k = 28 then meterRatio 28 (magOf (is 2)) (magOf (is 1))
  else if k < 32 then thdOf k (u (k - 29))
  else if k < 35 then thdOf k (s (k - 32))
  else if k = 35 then signedPhase (argOf 35 (us 1))
  else if k = 36 then signedPhase (argOf 36 (is 1) - argOf 35 (us 1))
  else if k = 37 then meanOf dc
  else if k < 40 then meanOf (s (k - 29))
  else if k = 40 then (isqrt (max 0 ((dotI dc dc) / 256 - meanOf dc * meanOf dc)).toNat : Nat)
  else if k < 45 then slow (k - 41)
  else if k < 48 then rmsBy 2 1 (s (k - 42))
  else if k < 52 then 0
  else if k < 55 then meterRatio k (magOf (phasor hsel (u (k - 52)))) (magOf (phasor 1 (u (k - 52))))
  else if k < 58 then meterRatio k (magOf (phasor hsel (s (k - 55)))) (magOf (phasor 1 (s (k - 55))))
  else 0

/-! ### Blocks (R247 to R250) -/

/-- Harmonics are attenuated: a path M response narrower than 5 kHz on one of streams 0 to 8 (R249). -/
def harmPoor (p : Polder) : Bool := !mPath p && (List.range 9).any fun k => decide (0xD ≤ bitsOf (vget p.flt.resp k 0) 7 4)

/-- Sum of a quantity after the n-th cycle. Angles are summed without the jump of a whole revolution between cycles. -/
def meterAdd (k n : Nat) (old v : Int) : Int :=
  if n ≤ 1 then v
  else if k = 35 ∨ k = 36 then
    let m := old / ((n - 1 : Nat) : Int)
    old + m + signedPhase (v - m)
  else old + v

/-- Energy since boot in units of 0.1 kWh or 0.1 kvarh, modulo 2^32. -/
def energyWord (e : Nat) : Word := wordN (e / (1152921504606846976 * sec * 360000))

/-- The flag word of a block (R248). -/
def meterFlags (p : Polder) (short : Bool) : Nat :=
  4 * p.flt.flags + 32 * p.flt.blkRef + 128 * bn (mPath p) + 256 * bn short + 512 * bn (harmPoor p)

/-- One quantity of a completed block of n cycles. -/
def meterVal (p : Polder) (n : Nat) (short : Bool) (k : Nat) : Word :=
  let f := p.flt
  let fit := fun (x : Int) => wordFit (A.FLT_MTR k) x
  match k with
  | 20 => wordN (roundDivN (n * 1000 * sec) (max 1 f.durSum))
  | 35 | 36 => wordI (openDiv (rounding p) (3100 + k) (vget f.acc k 0) (max 1 n))
  | 48 => energyWord (vget f.energy 0 0)
  | 49 => energyWord (vget f.energy 1 0)
  | 50 => energyWord (vget f.energy 2 0)
  | 51 => energyWord (vget f.energy 3 0)
  | 58 => fit (roundDiv f.peak 4294967296)
  | 59 => fit (roundDiv (f.vdcLo.getD 0) 4294967296)
  | 60 => fit (roundDiv (f.vdcHi.getD 0) 4294967296)
  | 61 => wordN f.metered
  | 62 => wordN (meterFlags p short)
  | 63 => wordI (openDiv (rounding p) 3100 (f.durSum : Nat) (ns * max 1 n))
  | _ => fit (openDiv (rounding p) (3100 + k) (vget f.acc k 0) (4294967296 * max 1 n))

/-- Energy of a cycle of `d` fs, by the signs of its powers. -/
def addEnergy (p : Polder) (pw qw : Int) (d : Nat) : Vector Nat 4 :=
  let s := rdN p A.SWG_SBASE * d
  vmod (vmod p.flt.energy (if pw < 0 then 1 else 0) (· + pw.natAbs * s)) (if qw < 0 then 3 else 2) (· + qw.natAbs * s)

/-- A block ends (R247). -/
def blockEnd (n : Nat) (short : Bool) (p : Polder) : Polder :=
  let at' := presentedThen p p.flt.blkLast
  let b : Vector Word 67 := Vector.ofFn fun (k : Fin 67) =>
    if k.val < 64 then meterVal p n short k.val
    else match k.val with
      | 64 => wordN (nanosOf at')
      | 65 => wordN (secsOf at' % 4294967296)
      | _ => wordN (secsOf at' / 4294967296)
  let p1 := modFlt (fun f => { f with block := b, blockN := n, durSum := 0, flags := 0, peak := 0, vdcLo := none, vdcHi := none }) (drawn p)
  evtIf short F.FLT_EVT_SHORTBLK (evtIf (harmPoor p) F.FLT_EVT_HARM_ACC (fput p1 F.FLT_STAT_BLKCYC 0))

/-- The block in progress ends early, with the cycles it has (R247). Without one there is none to publish. -/
def blockNow (p : Polder) : Polder :=
  if fget p F.FLT_STAT_BLKCYC = 0 then p else blockEnd (fget p F.FLT_STAT_BLKCYC) true p

/-- Flags of the samples of a cycle: bit 0 OVR, 1 SUS, 2 invalid. -/
def cycleFlags (l : LaneState) : Nat :=
  let any := fun (c : Nat) => l.vals.toList.any fun x => (x.take 256).any fun e => e.2 == c
  bn (any 2) + 2 * bn (any 1) + 4 * bn (any 3)

/-- The 256 samples of the oldest cycle are there in every stream of lane P. -/
def cycleReady (l : LaneState) : Bool := !l.cycles.isEmpty && l.vals.toList.all fun x => decide (256 ≤ x.length)

/-- The samples of the oldest cycle leave the lane. -/
def cycleTaken (l : LaneState) : LaneState :=
  { l with
    cycles := l.cycles.drop 1, times := l.times.drop 256, vals := Vector.ofFn (fun (k : Fin 11) => (vget l.vals k.val []).drop 256),
    slow := Vector.replicate 4 0, slowN := 0 }

/-- The oldest cycle joins the block in progress. -/
def cycleFold (c : LaneCycle) (p : Polder) : Polder :=
  let l := p.flt.lane
  let n := fget p F.FLT_STAT_BLKCYC + 1
  let s := fun (k : Nat) => ((vget l.vals k []).take 256).map fun e => puOf p k e.1
  let val := cycleVal s (fun j => vget l.slow j 0 / ((max 1 l.slowN : Nat) : Int)) (fget p F.FLT_CTRL_HSEL)
  let d := c.wrap - c.first
  modFlt (fun f => { f with
    acc := Vector.ofFn (fun (k : Fin 64) => meterAdd k.val n (vget f.acc k.val 0) (val k.val)), durSum := f.durSum + d, flags := f.flags ||| cycleFlags l,
    energy := addEnergy p (val 13) (val 17) d, metered := f.metered + 1, blkRef := c.ref, blkLast := c.last, lane := cycleTaken l })
    (fput p F.FLT_STAT_BLKCYC n)

/-- METERING_CYCLE_COMPLETE: the CE meters the oldest cycle of lane P, and the block ends with its last cycle, or early where the reference changes. -/
def meterCycle (ends : Nat) (p : Polder) : Polder := match p.flt.lane.cycles with
  | [] => p
  | c :: _ =>
    if cycleReady p.flt.lane && c.wrap == ends then
      let q := cycleFold c p
      let n := fget q F.FLT_STAT_BLKCYC
      let full := decide (rdN q A.FLT_MAVG ≤ n)
      if full || c.changes then blockEnd n (!full) q else q
    else p

/-- Lanes and stream stop on entry to SLEEP (R252); the block in progress is dropped (DESIGN CHOICE, notes/assumptions/47.md). -/
def laneStop (p : Polder) : Polder :=
  fput (fput (modFlt (fun f => { f with lane := {}, durSum := 0, flags := 0 }) p) F.FLT_STAT_SVRUN 0) F.FLT_STAT_BLKCYC 0

/-- METER_LATCH: the registers take the newest complete block (R250). -/
def meterLatch (p : Polder) : Polder :=
  let b := p.flt.block
  let p1 := wrAll p ((List.range 64).map fun k => (A.FLT_MTR k, vget b k 0))
  let p2 := wr (wr (wr p1 A.FLT_MT_NS (vget b 64 0)) A.FLT_MT_SL (vget b 65 0)) A.FLT_MT_SH (vget b 66 0)
  modFlt (fun f => { f with latchN := f.blockN }) p2

end Sys2Proof.Machine
end

