-- ==== Sys2Proof/Machine/FieldIo.lean ====
section
/-!
DEFINITION. Field inputs and outputs (spec/11): counter filters, the event queue, output orders, read-back, thermal shutdown, test pulses,
and the field supply.
-/
namespace Sys2Proof.Machine
open Sys2Proof

def din (p : Polder) (k : Nat) : FieldIn := vget p.fio.ins k {}
def setDin (k : Nat) (x : FieldIn) (p : Polder) : Polder := { p with fio := { p.fio with ins := vset p.fio.ins k x } }
def dout (p : Polder) (k : Nat) : FieldOut := vget p.fio.outs k {}
def modDout (k : Nat) (f : FieldOut → FieldOut) (p : Polder) : Polder := { p with fio := { p.fio with outs := vmod p.fio.outs k f } }

def lpOk (p : Polder) : Bool := fbit p F.FIO_STAT_LPOK

/-- The inputs are sampled and filtered before t5 too: CLK_P runs in boot, and LP_x counts as present (R28, R328). -/
def sampling (p : Polder) : Bool := p.power == .booting && lpOk p

/-- Raw state as the logic die sees it: low while LP_x is lost (R328). -/
def rawState (p : Polder) (k : Nat) : Bool := (din p k).raw && lpOk p

/-! ### Inputs (R320 to R323) -/

/-- Filter time N of an input in ticks of 1 µs. -/
def diTicks (p : Polder) (k : Nat) : Nat := fget p (F.FIO_DICFG_FILT k)

/-- The counter of the filter at an instant: ticks of 1 µs up while raw high, down while low, within 0 to N. -/
def diCount (p : Polder) (k now : Nat) : Nat :=
  let x := din p k
  let n := now / us - x.countAt / us
  if rawState p k then min (diTicks p k) (x.count + n) else min (diTicks p k) x.count - n

/-- An entry into the event queue of 64 (R323). -/
def queueEvent (src : Nat) (level : Bool) (at' : Int) (p : Polder) : Polder :=
  if 64 ≤ p.fio.queue.length then evt F.FIO_EVT_QOVF p
  else { p with fio := { p.fio with queue := p.fio.queue ++ [⟨src, level, fracOf at', nanosOf at', secsOf at'⟩] } }

/-- The head entry leaves the queue. -/
def queuePop (p : Polder) : Polder := { p with fio := { p.fio with queue := p.fio.queue.tail } }

/-- `FIO_QENT0` to `FIO_QENT3` of an entry. -/
def eventWords (e : FieldEvent) : List Word :=
  [wordN (e.src * 268435456 + bn e.level * 16777216 + e.frac), wordN e.nanos, wordN (e.secs % 4294967296), wordN (e.secs / 4294967296)]

/-- The words of the head entry; `SRC` 0xF while the queue is empty (R338). -/
def headWords (p : Polder) : List Word := match p.fio.queue with
  | e :: _ => eventWords e
  | [] => [0xF0000000#32, 0, 0, 0]

/-- A pin changes its raw state (R320, R321): the counter so far, and the transition at which it leaves an extreme (R322). -/
def rawChange (now k : Nat) (high : Bool) (p : Polder) : Polder :=
  let x := din p k
  if x.raw = high then p
  else
    let c := diCount p k now
    let leaves := (high && c == 0) || (!high && c == diTicks p k)
    let p1 := setDin k { x with raw := high, rawAt := now, count := c, countAt := now, left := if leaves then cycleStamp p now else x.left } p
    putBit p1 F.FIO_DI_RAW k (rawState p1 k)

/-- The filtered state of an input changes when its counter stands at an extreme (R321, R322); true when it did. -/
def filteredChange (now k : Nat) (p : Polder) : Bool × Polder :=
  let x := din p k
  let c := diCount p k now
  let raw := rawState p k
  let tick := diTicks p k != 0 || decide (x.rawAt / us < now / us)
  if raw != x.filt && tick && ((raw && c == diTicks p k) || (!raw && c == 0)) then
    let p1 := putBit (setDin k { x with filt := raw, count := c, countAt := now } p) F.FIO_DI_FILT k raw
    let p2 := addSat p1 (A.FIO_DICNT k) 1
    let e := fget p (F.FIO_DICFG_EDGE k)
    (true, if (raw && e % 2 == 1) || (!raw && e / 2 == 1) then queueEvent k raw x.left p2 else p2)
  else (false, p)

/-- The clock of the filters stops: their counters stand as they are (R441). -/
def dinFreeze (now : Nat) (p : Polder) : Polder :=
  (List.range 8).foldl (fun q k => setDin k { din q k with count := diCount q k now, countAt := now } q) p

/-- A commit changes the filter of an input: its counter stands where the old filter time has brought it, and goes on from there (R321). -/
def dinRefilter (now k : Nat) (old p : Polder) : Polder := setDin k { din p k with count := diCount old k now, countAt := now } p

/-- The clock of the filters runs again: a pin that has changed meanwhile is sampled as it stands. -/
def dinResume (now : Nat) (p : Polder) : Polder :=
  (List.range 8).foldl (fun q k =>
    let x := din q k
    rawChange now k x.raw (setDin k { x with raw := getBit q F.FIO_DI_RAW k, countAt := now } q)) p

/-- A pin changes while the polder does not sample it: the level alone. -/
def rawLevel (now k : Nat) (high : Bool) (p : Polder) : Polder := setDin k { din p k with raw := high, rawAt := now } p

/-! ### Outputs (R326 to R336) -/

def docmd (p : Polder) : Nat := fget p F.FIO_DOCMD_DO

/-- The driven state of an output: its command after supply, test pulse and shutdown (R329). -/
def drivenNow (p : Polder) (k : Nat) : Bool :=
  (docmd p).testBit k && lpOk p && (dout p k).pulse.isNone && (dout p k).shut.isNone

/-- The mask of an output's read-back starts (R329, R335). -/
def freshMask (now k : Nat) (p : Polder) : Polder :=
  modDout k (fun o => { o with maskEnd := now + fget p (F.FIO_DOCFG_RB_MASK k) * 10 * us }) p

/-- `FIO_DOSTAT.DRIVEN` follows: a change of the driven state starts a mask. The on-time of an output without a break starts at its turn-on. -/
def driveOne (now k : Nat) (p : Polder) : Polder :=
  let d := drivenNow p k
  if d = getBit p F.FIO_DOSTAT_DRIVEN k then p
  else
    modDout k (fun o => { o with onSince := if d then some now else none }) (freshMask now k (putBit p F.FIO_DOSTAT_DRIVEN k d))

def drive (now : Nat) (p : Polder) : Polder := [0, 1, 2, 3].foldl (fun q k => driveOne now k q) p

/-- Outputs ordered: `mask` bits take `val`; a turn-off during a test pulse discards its result (R336). -/
def order (now mask val : Nat) (p : Polder) : Polder :=
  let m := mask % 16
  let cmd := (docmd p &&& (15 ^^^ m)) ||| (val % 16 &&& m)
  let p1 := fput p F.FIO_DOCMD_DO cmd
  let p2 := [0, 1, 2, 3].foldl (fun q k =>
    if !cmd.testBit k && (dout q k).pulse.isSome then modDout k (fun o => { o with discard := true }) q else q) p1
  drive now p2

/-- An order has lost to another of its cycle (R326). -/
def orderLost (now : Nat) (p : Polder) (id : Nat) : Polder :=
  logRec now 0x08 2 Sev.warn (wBytes (rd p A.FIO_DODIAG) ++ leBytes 1 id) (evt F.FIO_EVT_ARB p)

/-- An order of a sender in cycle `c` (R326). Of two orders for one output in a cycle that of the lower sender ID wins; of two of one sender, and
where an order of a later cycle has been carried out already, the later one stands. The Hall bridge and the monitor leave outputs assigned to the regime
machine as they are. -/
def orderOne (now c id mask val : Nat) (p : Polder) : Polder :=
  let m := mask % 16 &&& (if id = 3 ∨ id = 5 then 15 ^^^ assigned (rd p A.PCT_REGCFG) else 15)
  let past := decide (c < p.cyc.at')
  let rivals := (p.cyc.ordersIn c).filter fun e => e.2 &&& m != 0 && e.1 != id
  let above := if past then rivals else rivals.filter fun e => e.1 < id
  let losers := if past then [] else ((rivals.filter fun e => id < e.1).map (·.1)) ++ (if above.isEmpty then [] else [id])
  let win := m &&& (15 ^^^ above.foldl (fun a e => a ||| e.2 % 16) 0)
  losers.foldl (orderLost now) (ordered c id win (order now win val p))

/-- Orders of one CLK_P cycle. -/
def orders (now c : Nat) (l : List (Nat × Nat × Nat)) (p : Polder) : Polder :=
  l.foldl (fun q e => orderOne now c e.1 e.2.1 e.2.2 q) p

/-- Flags of `FIO_DODIAG.DIAGk`. -/
abbrev Diag.extDrive : Nat := 0
abbrev Diag.noDrive : Nat := 1
abbrev Diag.ilim : Nat := 2
abbrev Diag.therm : Nat := 3
abbrev Diag.testFail : Nat := 4
abbrev Diag.xwire : Nat := 5

/-- A flag of an output sets; as any W1C bit it outlasts a write in the same cycle (R38). -/
def diagSet (k flag : Nat) (p : Polder) : Polder :=
  marked A.FIO_DODIAG (wordN (2 ^ (8 * k + flag))) (wr p A.FIO_DODIAG (rd p A.FIO_DODIAG ||| wordN (2 ^ (8 * k + flag))))
def diagGet (p : Polder) (k flag : Nat) : Bool := bitOf (rd p A.FIO_DODIAG) (8 * k + flag)

/-- Outputs crossed with output k (R331). -/
def crossed (p : Polder) (k j : Nat) : Bool :=
  j != k && getBit p F.FIO_DOSTAT_DRIVEN k != getBit p F.FIO_DOSTAT_DRIVEN j && getBit p F.FIO_DOSTAT_RB k == getBit p F.FIO_DOSTAT_RB j &&
    (diagGet p k Diag.extDrive || diagGet p k Diag.noDrive || diagGet p j Diag.extDrive || diagGet p j Diag.noDrive)

/-- The read-back of output k at a tick (R329, R331): `FIO_DOSTAT.RB` shows it. Outside mask and pulse it is compared, and a disagreement of 5 ticks sets
the flag of its direction. -/
def readbackSample (now : Nat) (x : RbSeen) (p : Polder) : Polder :=
  if !lpOk p then p
  else
    let k := x.k
    let d := getBit p F.FIO_DOSTAT_DRIVEN k
    let p1 := putBit p F.FIO_DOSTAT_RB k x.high
    if (dout p k).pulse.isSome || decide (now < (dout p k).maskEnd + 4 * us) then p1
    else
      let p2 := if x.high != d && decide (5 ≤ x.ticks) then diagSet k (if d then Diag.noDrive else Diag.extDrive) p1 else p1
      [0, 1, 2, 3].foldl (fun q j => if crossed q k j then diagSet k Diag.xwire (diagSet j Diag.xwire q) else q) p2

/-- Current can flow in a stage: it is driven on, or its low side is on, which the push-pull stages of the FGC4400 have (R325, R332, R333). -/
def stageOn (part : Part) (p : Polder) (k : Nat) : Bool := drivenNow p k || (part == .fgc4400 && (dout p k).shut.isNone)

/-- 10 µs of current limit (R330). -/
def ilimFlag (part : Part) (k : Nat) (p : Polder) : Polder := if lpOk p && stageOn part p k then diagSet k Diag.ilim p else p

/-- Thermal shutdown of a stage (R333). -/
def thermShut (part : Part) (now k : Nat) (p : Polder) : Polder :=
  if lpOk p && stageOn part p k then drive now (diagSet k Diag.therm (modDout k (fun o => { o with shut := some now, hot := true }) p)) else p

/-- A stage in shutdown has cooled: with `RETRY` it restarts, no earlier than 100 ms after the shutdown; without, it waits for the clear. -/
def thermCool (now k : Nat) (p : Polder) : Polder := match (dout p k).shut with
  | some t =>
    if fbit p (F.FIO_DOCFG_RETRY k) then
      if t + 100 * ms ≤ now then drive now (modDout k (fun o => { o with shut := none, hot := false }) p) else p
    else modDout k (fun o => { o with hot := false }) p
  | none => p

/-- A write of `FIO_DODIAG` (R38, R330, R333): what hardware has set in the same cycle stays; `THERM` of a stage that is still hot stays set, and without
`RETRY` its clear restarts the stage. -/
def diagWrite (now : Nat) (w : Word) (p : Polder) : Polder :=
  let same := setInCycle p (now / cyc) A.FIO_DODIAG
  let keep := [0, 1, 2, 3].foldl (fun (m : Word) k => if (dout p k).shut.isSome && (dout p k).hot then m ||| wordN (2 ^ (8 * k + Diag.therm)) else m) same
  let p1 := wr p A.FIO_DODIAG (clear1 (rd p A.FIO_DODIAG) w (0x3F3F3F3F#32 &&& ~~~ keep))
  drive now ([0, 1, 2, 3].foldl (fun q k =>
    if bitOf (w &&& ~~~ keep) (8 * k + Diag.therm) && (dout q k).shut.isSome && !fbit q (F.FIO_DOCFG_RETRY k)
    then modDout k (fun o => { o with shut := none }) q else q) p1)

/-- Instant at which the next test pulse of an output falls due (R334): after its interval, and 1 ms after the end of another output's pulse in which it
fell due. -/
def pulseDue (p : Polder) (k : Nat) : Option Nat :=
  (dout p k).onSince.map fun t => max (t + fget p (F.FIO_DOCFG_TP_INT k) * sec) (dout p k).notBefore

/-- A test pulse starts (R334, R336): it is due, and no other pulse runs. -/
def pulseStart (now k : Nat) (p : Polder) : Polder := match pulseDue p k with
  | some due =>
    if fbit p (F.FIO_DOCFG_TP_EN k) && drivenNow p k && decide (due ≤ now) && [0, 1, 2, 3].all (fun j => (dout p j).pulse.isNone) then
      let p1 := modDout k (fun o => { o with pulse := some now, discard := false }) p
      drive now (putBit p1 F.FIO_DOSTAT_TP k true)
    else p
  | none => p

/-- The pulses that fell due while the pulse from `t` to `now` ran start 1 ms after it (R334). -/
def pulsesHeld (t now : Nat) (p : Polder) : Polder :=
  [0, 1, 2, 3].foldl (fun q k =>
    if (pulseDue q k).any (fun due => decide (t ≤ due ∧ due < now)) then modDout k (fun o => { o with notBefore := now + ms }) q else q) p

/-- A test pulse ends (R335, R336). `low` says that the read-back was low from the mask on. The checks resume with a fresh mask. -/
def pulseEnd (now k : Nat) (low : Bool) (p : Polder) : Polder := match (dout p k).pulse with
  | some t =>
    if t + fget p (F.FIO_DOCFG_TP_W k) * us ≤ now then
      let p1 := if (dout p k).discard then p else if low then addSat p (A.FIO_TPPASS k) 1 else diagSet k Diag.testFail p
      let p2 := putBit (modDout k (fun o => { o with pulse := none, discard := false }) p1) F.FIO_DOSTAT_TP k false
      drive now (freshMask now k (pulsesHeld t now p2))
    else p
  | none => p

/-! ### The field supply (R328) -/

/-- Every output commanded off. -/
def outputsOff (now : Nat) (p : Polder) : Polder := order now 15 0 p

/-- LP_x is lost: outputs off, inputs low at once and uncounted, one entry in the queue. -/
def lpLost (now : Nat) (p : Polder) : Polder :=
  if lpOk p then
    let p1 := order now 15 0 p
    let p2 := fput p1 F.FIO_STAT_LPOK 0
    let p3 := (List.range 8).foldl (fun q k => setDin k { din q k with count := 0, countAt := now, rawAt := now, filt := false } q) p2
    let p4 := fput (wr p3 A.FIO_DI 0) F.FIO_DOSTAT_RB 0
    let p5 := { p4 with fio := { p4.fio with lpSince := some now } }
    queueEvent 8 false (cycleStamp p5 now) (evt F.FIO_EVT_LPLOW p5)
  else { p with fio := { p.fio with lpSince := some now } }

/-- LP_x has stood for 10 ms: inputs that are high start to rise through their filters. -/
def lpReturned (now : Nat) (p : Polder) : Polder :=
  if !lpOk p && decide (p.fio.lpSince.getD 0 + 10 * ms ≤ now) then
    let p1 := fput p F.FIO_STAT_LPOK 1
    let p2 := (List.range 8).foldl (fun q k =>
      let x := din q k
      putBit (setDin k { x with count := 0, countAt := now, rawAt := now, left := cycleStamp p1 now } q) F.FIO_DI_RAW k x.raw) p1
    queueEvent 9 true (cycleStamp p2 now) (evt F.FIO_EVT_LPUP { p2 with fio := { p2.fio with lpSince := none } })
  else p

end Sys2Proof.Machine
end

