-- ==== Sys2Proof/Machine/Spb.lean ====
section
/-!
DEFINITION. The safe pulse block (spec/12): demand sources and states, safety pairs, acknowledgement, lane faults, enable-path test, Stomet
frames, the safety parameter set and its change log. Both lanes evaluate alike unless a lane message shows otherwise (DESIGN CHOICE, notes/assumptions/28.md).
-/
namespace Sys2Proof.Machine
open Sys2Proof

def modSpb (f : SpbState → SpbState) (p : Polder) : Polder := { p with spb := f p.spb }

/-! ### The parameter set (R360, R362) -/

/-- The safety parameter set in force: the 28-byte payload of `SET_SAFETY`. -/
def safetySet (p : Polder) : List Byte :=
  leBytes 1 (bitsOf (rd p A.SPB_CFG) 31 24) ++ [0] ++ leBytes 2 (rdN p A.SPB_FILT) ++ leBytes 2 (rdN p A.SPB_DISC) ++ leBytes 2 (rdN p A.SPB_WD) ++
    leBytes 2 (rdN p A.SPB_CMPWIN) ++ leBytes 2 (rdN p A.SPB_NETDOWN) ++ leBytes 2 (rdN p A.SPB_AGE) ++ leBytes 2 (rdN p A.SPB_TXPER) ++
    leBytes 2 (bitsOf (rd p A.SPB_CONN) 31 16) ++ leBytes 2 (bitsOf (rd p A.SPB_CONN) 15 0) ++ leBytes 4 (rdN p A.SPB_PEERIP) ++
    leBytes 2 (rdN p A.SPB_TESTINT) ++ [0, 0]

/-- `SPB_CRC`: CRC-32 over the polder's number and the set. -/
def spbCrc (p : Polder) : Word := crc32 (BitVec.ofNat 8 p.id.num :: safetySet p)

/-- Registers of the set from a payload of 28 bytes. -/
def safetyWrites (l : List Byte) : List (Nat × Word × Word) :=
  let a : Word := BitVec.allOnes 32
  [(A.SPB_CFG, 0xFE000000#32, wordN (byteAt l 0 * 16777216)), (A.SPB_FILT, a, wordN (u16At l 2)), (A.SPB_DISC, a, wordN (u16At l 4)),
   (A.SPB_WD, a, wordN (u16At l 6)), (A.SPB_CMPWIN, a, wordN (u16At l 8)), (A.SPB_NETDOWN, a, wordN (u16At l 10)),
   (A.SPB_AGE, a, wordN (u16At l 12)), (A.SPB_TXPER, a, wordN (u16At l 14)), (A.SPB_CONN, a, wordN (u16At l 16 * 65536 + u16At l 18)),
   (A.SPB_PEERIP, a, wordN (u32At l 20)), (A.SPB_TESTINT, a, wordN (u16At l 24))]

/-- A confirmed set from NV into the registers. -/
def loadSafety (l : List Byte) (p : Polder) : Polder :=
  (safetyWrites l).foldl (fun q e => wr q e.1 (merge (rd q e.1) e.2.1 e.2.2)) p

/-- The safety section of the NV image follows the block (R351, R362, R363). -/
def storeSafety (now : Nat) (p : Polder) : Polder :=
  nvTouch now 3 p { p.nv.image with
    safety := some ⟨p.spb.confirmed.getD [], rd p A.SPB_CRC_OK, p.spb.password, rdN p A.SPB_TESTAGE⟩ }

/-- An entry of the change log (R364). -/
def changeLog (now code sess : Nat) (after before : Word) (p : Polder) : Polder :=
  let e := leBytes 6 (secsOf (presented p now)) ++ leBytes 1 code ++ leBytes 1 sess ++ wBytes after ++ wBytes before
  let p1 := addWrap (modSpb (fun s => { s with log := (e :: s.log).take 64 }) p) A.SPB_LOGCNT 1
  nvTouch now 4 p1 { p1.nv.image with changeLog := some (rdN p1 A.SPB_LOGCNT, p1.spb.log) }

/-! ### Sources and states (R343, R344) -/

/-- Filtered safety inputs of a pair (0 SP1, 1 SP2). -/
def pairIn (p : Polder) (j : Nat) : Bool × Bool := (getBit p F.SPB_STAT_INP (2 * j), getBit p F.SPB_STAT_INP (2 * j + 1))

def pairEn (p : Polder) (j : Nat) : Bool := if j = 0 then fbit p F.SPB_CFG_SP1_EN else fbit p F.SPB_CFG_SP2_EN

/-- Pair j demands (R345). -/
def pairDemands (p : Polder) (j : Nat) : Bool := pairEn p j && !((pairIn p j).1 && (pairIn p j).2)

/-- Source 7 is latched. -/
def connLatched (p : Polder) : Bool := fget p F.SPB_STAT_SRC / 128 % 2 == 1

/-- Sources 0 to 5 as a mask. -/
def demandsLow (p : Polder) : Nat :=
  bn (pairDemands p 0) + 2 * bn (pairDemands p 1) + 4 * bn (fbit p F.SPB_CFG_NET_EN && !p.spb.permit) +
    8 * bn (p.spb.confirmed.isNone || spbCrc p != rd p A.SPB_CRC_OK) + 16 * bn (!lpOk p || !p.spb.loaded2) + 32 * bn (rd p A.SPB_FAULT != 0)

/-- Sources 0 to 7. -/
def demands (p : Polder) : Nat :=
  demandsLow p + 64 * bn (p.spb.discLatched.toList.any id) + 128 * bn (connLatched p)

/-- The present state code. -/
def spbState (p : Polder) : Nat := fget p F.SPB_STAT_STATE

/-- The enable-path test has a switch of line j open: switches 0 and 1 are those of x_GEN1, 2 and 3 those of x_GEN2. -/
def testOpens (p : Polder) (j : Nat) : Bool := match p.spb.test with
  | some (k, _) => k % 2 == 0 && k / 4 == j
  | none => false

/-- Gate-enable line j (0 x_GEN1, 1 x_GEN2) is high. -/
def genHigh (p : Polder) (j : Nat) : Bool :=
  awake p && spbState p == 2 && p.spb.lane1 && p.spb.lane2 && !p.spb.demand2 && lpOk p && p.dike.genLow == 0 && !testOpens p j

/-- Command of both lines as a mask: bit 0 x_GEN1, bit 1 x_GEN2. -/
def genMask (p : Polder) : Nat := bn (genHigh p 0) + 2 * bn (genHigh p 1)

/-- `SPB_STAT` as it reads: the read-back of the lines follows their commands but for lines whose read-back was last seen to differ
(DESIGN CHOICE, notes/assumptions/28.md). -/
def spbStatWord (p : Polder) : Word := withBits (rd p A.SPB_STAT) 27 26 (genMask p ^^^ p.spb.rbOff % 4)

/-- Commands are answered with `SPB_STAT`. -/
def answerAll (status : Nat) (l : List CmdRef) (p : Polder) : Polder := l.foldl (fun q c => replyTo q c ⟨status, 0, wBytes (spbStatWord q)⟩) p

/-- Commands that wait for the enable-path test are answered. -/
def answerAcks (status : Nat) (p : Polder) : Polder := answerAll status p.spb.waiting (modSpb (fun s => { s with waiting := [] }) p)

/-- Record and notification of a change of the block. -/
def spbReport (now : Nat) (log : Bool) (p : Polder) : Polder :=
  let p1 := if log then logRec now 0x06 (rdN p A.SPB_EVT) Sev.trip (wBytes (spbStatWord p) ++ wBytes (rd p A.SPB_FAULT)) p else p
  notifySafety (spbStatWord p1) p1

/-- An event bit of the block, with its record and notification. -/
def spbEvt (now : Nat) (f : Fld) (p : Polder) : Polder := spbReport now true (evt f p)

/-- Evaluation of sources and state (R343, R344, R348): a demand ends what waits; with none left the block waits for its acknowledgement,
which automatic restart gives at once, and for the enable-path test. A demand in the CLK_P cycle of an acknowledgement refuses it. -/
def spbSettle (now : Nat) (p : Polder) : Polder :=
  let d := demands p
  let st := spbState p
  if d ≠ 0 then
    let p1 := fput (fput p F.SPB_STAT_SRC d) F.SPB_STAT_STATE 0
    let p2 := evtIf (p.spb.acked && p.spb.ackCycle == some (now / cyc)) F.SPB_EVT_ACK_REF
      (modSpb (fun s => { s with acked := false, test := none, testWanted := false, demand2 := true }) p1)
    let p3 := answerAcks Status.state p2
    if st ≠ 0 then spbReport now true p3 else p3
  else if st = 0 then
    let auto := fbit p F.SPB_CFG_RESTART
    let p1 := modSpb (fun s => { s with acked := s.acked || auto, testWanted := s.acked || auto }) (fput (fput p F.SPB_STAT_SRC 256) F.SPB_STAT_STATE 1)
    spbReport now false p1
  else fput p F.SPB_STAT_SRC (if st = 1 then 256 else 0)

/-- A lane finds the other's demand or inputs different from its own (R342). -/
def lanesDiffer (s : SpbState) : Bool := s.disagree.isSome || s.disagree2.isSome

/-- The block releases (R344). -/
def spbRelease (now : Nat) (p : Polder) : Polder :=
  let p1 := modSpb (fun s => { s with acked := false, demand2 := lanesDiffer s && s.demand2 }) (fput (fput p F.SPB_STAT_SRC 0) F.SPB_STAT_STATE 2)
  spbReport now false p1

/-- An internal fault is latched (source 5). -/
def spbFault (now : Nat) (f : Fld) (p : Polder) : Polder := spbReport now true (fput p f 1)

/-- Source 7 is latched with its event (R356). -/
def connFault (now : Nat) (f : Fld) (p : Polder) : Polder :=
  modSpb (fun s => { s with connClear := false }) (putBit (spbEvt now f p) F.SPB_STAT_SRC 7 true)

/-! ### Read-back of the gate-enable lines (R352) -/

/-- The instants at which the commands of the lines change. -/
def genTrack (now : Nat) (p : Polder) : Polder :=
  [0, 1].foldl (fun q j => if genHigh p j == vget q.spb.genCmd j false then q
    else modSpb (fun s => { s with genCmd := vset s.genCmd j (genHigh p j), genAt := vset s.genAt j now }) q) p

/-- Lines whose read-back `rb` differs from the lanes' command 5 µs and more after its last change. -/
def rbDiffers (now rb : Nat) (p : Polder) : Nat :=
  [0, 1].foldl (fun m j => if rb.testBit j != genHigh p j && decide (vget p.spb.genAt j 0 + 5 * us ≤ now) then m + 2 ^ j else m) 0

/-- The read-back is compared: a line that differs is an internal fault. -/
def lineCheck (now rb : Nat) (p : Polder) : Polder :=
  let d := rbDiffers now rb p
  let p1 := modSpb (fun s => { s with rbOff := d }) p
  if d ≠ 0 && fget p F.SPB_FAULT_GENRB == 0 then spbFault now F.SPB_FAULT_GENRB p1 else p1

/-! ### Safety inputs (R345 to R347) -/

/-- Discrepancy bookkeeping of a pair after its inputs changed. -/
def discTrack (now j : Nat) (p : Polder) : Polder :=
  let x := pairIn p j
  modSpb (fun s => { s with
    disc := vset s.disc j (if x.1 = x.2 then none else some ((vget s.disc j none).getD now)),
    discSeen := if !x.1 && !x.2 && vget s.discLatched j false then vset s.discSeen j true else s.discSeen }) p

/-- Safety input k (0 for DI4 to 3 for DI7) has been at one raw level for T_f, in both lanes. -/
def safetyFiltered (now k : Nat) (p : Polder) : Polder :=
  let raw := rawState p (4 + k)
  let since := max (din p (4 + k)).rawAt p.spb.laneAt
  if k < 4 && p.spb.lane1 && raw != getBit p F.SPB_STAT_INP k && decide (since + rdN p A.SPB_FILT * us ≤ now) then
    let p1 := putBit p F.SPB_STAT_INP k raw
    discTrack now (k / 2) (modSpb (fun s => { s with inputs2 := if !lanesDiffer s then fget p1 F.SPB_STAT_INP else s.inputs2 }) p1)
  else p

/-- A discrepancy has lasted `SPB_DISC`: it latches whether or not the pair demands (R346). -/
def discLatch (now j : Nat) (p : Polder) : Polder := match vget p.spb.disc j none with
  | some t =>
    if j < 2 && decide (t + rdN p A.SPB_DISC * ms ≤ now) && !vget p.spb.discLatched j false then
      spbEvt now (if j = 0 then F.SPB_EVT_DISC1 else F.SPB_EVT_DISC2)
        (modSpb (fun s => { s with discLatched := vset s.discLatched j true, discSeen := vset s.discSeen j false }) p)
    else p
  | none => p

/-- Latches 6 and 7 may be cleared (R347). -/
def ackable (p : Polder) : Bool :=
  [0, 1].all (fun j => !vget p.spb.discLatched j false || vget p.spb.discSeen j false) && (!connLatched p || p.spb.connClear)

/-- An acknowledgement (R348): true when it is taken. The latches clear, then source 8 once the test has passed. -/
def acknowledge (now : Nat) (p : Polder) : Bool × Polder :=
  if demandsLow p ≠ 0 || !ackable p then (false, spbEvt now F.SPB_EVT_ACK_REF p)
  else
    let p1 := putBit (modSpb (fun s => { s with discLatched := Vector.replicate 2 false, acked := true, ackCycle := some (now / cyc), testWanted := s.test.isNone }) p) F.SPB_STAT_SRC 7 false
    (true, p1)

/-! ### Lanes (R342, R352) -/

/-- The lanes start, lane 2 where LP_x supplies it: every filtered safety input low, the last frame forgotten. -/
def lanesStart (now : Nat) (p : Polder) : Polder :=
  modSpb (fun s => { s with
    lane1 := true, lane2 := lpOk p, demand2 := true, inputs2 := 0, loaded2 := false, heard1 := now, heard2 := now, disagree := none, disagree2 := none,
    corrupt := false, corrupt1 := false, rbOff := 0, wdogDone := false,
    disc := Vector.replicate 2 none, permit := false, windows := [], started := false, lastAccepted := now, laneAt := now, asleep := false,
    acked := false, test := none, testWanted := false }) (fput (fput p F.SPB_STAT_INP 0) F.SPB_STAT_STATE 0)

/-- Lane 2 loses its supply, and starts again when LP_x has returned. -/
def lane2Stop (p : Polder) : Polder := modSpb (fun s => { s with lane2 := false, loaded2 := false, demand2 := true, inputs2 := 0 }) p
def lane2Start (now : Nat) (p : Polder) : Polder :=
  modSpb (fun s => { s with lane2 := true, loaded2 := false, inputs2 := 0, heard1 := now, heard2 := now, laneAt := now, started := false, disagree := none, disagree2 := none,
                            disc := Vector.replicate 2 none }) (fput p F.SPB_STAT_INP 0)

/-- A message between the lanes. A good one from lane 2 shows its demand, its inputs, its copy of the parameters and the read-back of the lines; lane 2
counts as loaded once its copy matches. Lane 2 compares what it hears from lane 1 in the same way, and what either lane finds stands until that lane
hears otherwise. -/
def laneMessage (now : Nat) (x : LaneIn) (p : Polder) : Polder :=
  if !x.good || !p.spb.lane1 || !p.spb.lane2 then p
  else if x.toLane1 then
    let same := x.demand == (spbState p != 2) && x.inputs == fget p F.SPB_STAT_INP
    modSpb (fun s => { s with
      heard2 := now, demand2 := x.demand, inputs2 := x.inputs, disagree := if same then none else some (s.disagree.getD now),
      loaded2 := s.loaded2 || x.check == spbCrc p, corrupt := s.loaded2 && x.check != spbCrc p }) (lineCheck now x.rb p)
  else
    let same := x.demand == p.spb.demand2 && x.inputs == p.spb.inputs2
    modSpb (fun s => { s with
      heard1 := now, disagree2 := if same then none else some (s.disagree2.getD now), corrupt1 := s.loaded2 && x.check != spbCrc p }) p

/-- One lane has found the other different for 500 µs. -/
def laneDisagreement (now : Nat) (p : Polder) : Polder :=
  let late := fun (d : Option Nat) => d.any fun t => decide (t + 500 * us ≤ now)
  if (late p.spb.disagree || late p.spb.disagree2) && p.spb.lane1 && p.spb.lane2 then spbFault now F.SPB_FAULT_LANE p else p

/-- No valid message for 1 ms in either direction. -/
def laneStopped (now : Nat) (p : Polder) : Polder :=
  if p.spb.lane1 && p.spb.lane2 && (decide (p.spb.heard1 + ms ≤ now) || decide (p.spb.heard2 + ms ≤ now)) then
    spbFault now F.SPB_FAULT_HB (modSpb (fun s => { s with demand2 := true }) p)
  else p

/-- The 10 ms check of both parameter copies. -/
def parameterCheck (now : Nat) (p : Polder) : Polder :=
  if p.spb.lane1 && (p.spb.corrupt || p.spb.corrupt1) && p.spb.confirmed.isSome then spbFault now F.SPB_FAULT_CFGCRC p else p

/-! ### Enable-path test (R351) -/

def testStart (now : Nat) (p : Polder) : Polder :=
  if p.spb.testWanted && p.spb.test.isNone && p.dike.genLow == 0 && p.spb.lane1 then
    modSpb (fun s => { s with test := some (0, now), testWanted := false }) p
  else p

/-- The test has passed: the age restarts, and a release goes ahead. -/
def testPassed (now : Nat) (p : Polder) : Polder :=
  let p1 := fput (wr (modSpb (fun s => { s with test := none, ageAt := now }) p) A.SPB_TESTAGE 0) F.SPB_STAT_TEST_DUE 0
  let p2 := if spbState p1 = 1 then spbRelease now p1 else p1
  answerAcks Status.ok (storeSafety now p2)

/-- The test has failed: its fault stands, the block demands, and the commands that wait are answered with what then shows (R351, R366). -/
def testFailed (now : Nat) (p : Polder) : Polder :=
  answerAll Status.ok p.spb.waiting
    (spbSettle now (spbFault now F.SPB_FAULT_ENTEST (modSpb (fun s => { s with test := none, waiting := [] }) p)))

/-- What every enabled link that is UP must have reported by 100 µs after the instant `t0` of phase `k`: fault detail bit 6 while a switch is open, and its end
when the line has returned. A line that stays low, as both do before a release, does not return (DEDUCED, notes/assumptions/28.md). -/
def linkFollows (p : Polder) (k t0 n : Nat) : Bool :=
  let low := linkFault p n / 64 % 2 == 1
  let inTime := decide ((linkOf p n).enableAt ≤ t0 + 100 * us)
  if k % 2 = 0 then low && inTime else !genHigh p (k / 4) || (!low && inTime)

/-- ENABLE_PATH_TEST_STEP (R351): 200 µs after a switch opened, and 100 µs after it closed, the read-backs `rb` of both lines and the reports of the links are
judged; then the next phase begins. -/
def testStep (now rb : Nat) (p : Polder) : Polder := match p.spb.test with
  | some (k, t) =>
    if t + (if k % 2 = 0 then 200 * us else 100 * us) ≤ now then
      let p1 := lineCheck now rb p
      if rbDiffers now rb p = 0 && (linksWhere (linkLive p)).all (linkFollows p k t) then
        if k = 7 then testPassed now p1 else modSpb (fun s => { s with test := some (k + 1, now) }) p1
      else testFailed now p1
    else p
  | none => p

/-- The Dike holds the lines low: a test that runs is postponed, and starts again once it allows them (R351). -/
def testHold (p : Polder) : Polder :=
  if p.spb.test.isSome && p.dike.genLow != 0 then modSpb (fun s => { s with test := none, testWanted := true }) p else p

/-- `TEST_DUE` sets when `SPB_TESTAGE` reaches `SPB_TESTINT` (R351). -/
def testDue (p : Polder) : Polder := if rdN p A.SPB_TESTINT ≤ rdN p A.SPB_TESTAGE then fput p F.SPB_STAT_TEST_DUE 1 else p

/-- An hour of power (R351). -/
def testAgeHour (now : Nat) (p : Polder) : Polder :=
  if p.spb.ageAt + 3600 * sec ≤ now then
    let p1 := addWrap (modSpb (fun s => { s with ageAt := s.ageAt + 3600 * sec }) p) A.SPB_TESTAGE 1
    storeSafety now (testDue p1)
  else p

/-! ### Stomet frames (R355 to R359) -/

def frameSeq (l : List Byte) : Nat := u32At l 4

/-- Stomet frames are received: a receive ID of 0 means that the direction is unused (R365). -/
def rxUsed (p : Polder) : Bool := bitsOf (rd p A.SPB_CONN) 31 16 != 0

/-- A copy is valid (R355). -/
def copyValid (now ip : Nat) (l : List Byte) (p : Polder) : Bool :=
  let age := presented p now - fsOf (u48At l 8) (u32At l 14)
  let d := (frameSeq l + 4294967296 - rdN p A.SPB_LASTSEQ) % 4294967296
  rxUsed p && byteAt l 0 == 1 && byteAt l 1 == 1 && crc32c (l.take 36) == wordN (u32At l 36) && u16At l 2 == bitsOf (rd p A.SPB_CONN) 31 16 &&
    ip == rdN p A.SPB_PEERIP && (!p.spb.started || decide (0 < d ∧ d < 2147483648)) &&
    (!(fbit p F.SPB_CFG_AGE_EN && quality p == 3) || decide (age ≤ ((rdN p A.SPB_AGE * ms : Nat) : Int)))

/-- A frame is accepted (R356, R358). -/
def acceptFrame (now : Nat) (l : List Byte) (p : Polder) : Polder :=
  let p1 := addSat (wr p A.SPB_LASTSEQ (wordN (frameSeq l))) A.SPB_ACCEPTED 1
  let p2 := wrAll p1 ([0, 1, 2, 3].map fun k => (A.SPB_RXDATA k, wordN (u32At l (20 + 4 * k))))
  modSpb (fun s => { s with
    started := true, lastAccepted := now, wdogDone := false, connClear := true, permit := byteAt l 20 % 2 == 1 && byteAt l 18 != 0,
    windows := s.windows.filter fun w => w.seq != frameSeq l }) p2

/-- Network j is up and its copies are compared again (R357). -/
def netUsable (p : Polder) (j : Nat) : Bool := getBit p F.SPB_STAT_NETUP j && vget p.spb.resumed j false

/-- A frame of any kind has arrived on a port: the network is up. -/
def netHeard (now j : Nat) (p : Polder) : Polder :=
  let up := getBit p F.SPB_STAT_NETUP j
  modSpb (fun s => { s with heardAt := vset s.heardAt j now, upSince := if up then s.upSince else vset s.upSince j (some now) })
    (putBit p F.SPB_STAT_NETUP j true)

/-- A network goes down. -/
def netDown (j : Nat) (p : Polder) : Polder :=
  modSpb (fun s => { s with upSince := vset s.upSince j none, resumed := vset s.resumed j false }) (putBit p F.SPB_STAT_NETUP j false)

/-- A valid copy (R356, R357). -/
def useCopy (now port : Nat) (l : List Byte) (p : Polder) : Polder :=
  let other := 1 - port
  match p.spb.windows.find? fun w => w.seq == frameSeq l with
  | some w =>
    if w.port = port then p
    else if w.bytes = l then acceptFrame now l p
    else connFault now F.SPB_EVT_MISMATCH (modSpb (fun s => { s with windows := s.windows.filter fun x => x.seq != frameSeq l }) p)
  | none =>
    if fbit p F.SPB_CFG_CMPMODE && !netUsable p other then
      acceptFrame now l (addSat (spbEvt now F.SPB_EVT_REDUCED (fput p F.SPB_STAT_REDUCED 1)) A.SPB_SINGLE 1)
    else modSpb (fun s => { s with windows := s.windows ++ [⟨frameSeq l, l, port, now⟩] }) p

/-- Comparison windows end without a partner. -/
def windowEnd (now : Nat) (p : Polder) : Polder :=
  let ended := p.spb.windows.filter fun w => w.since + rdN p A.SPB_CMPWIN * us ≤ now
  if ended.isEmpty then p
  else
    let p1 := modSpb (fun s => { s with windows := s.windows.filter fun w => now < w.since + rdN p A.SPB_CMPWIN * us }) p
    if !fbit p F.SPB_CFG_CMPMODE then connFault now F.SPB_EVT_MISSING p1
    else if getBit p F.SPB_STAT_NETUP 0 && getBit p F.SPB_STAT_NETUP 1 then addSat p1 A.SPB_MISS ended.length
    else p1

/-- A datagram to port 4403 from `ip` on a port. A window whose time is up has ended before it. -/
def stometFrame (now port ip : Nat) (l : List Byte) (p : Polder) : Polder :=
  if l.length ≠ 40 ∨ 1 < port ∨ p.spb.lane1 = false then p
  else
    let p1 := windowEnd now p
    if copyValid now ip l p1 then useCopy now port l p1 else addSat p1 A.SPB_DISCARD 1

/-- No frame accepted for T_wd (R356), once per run of lost frames. It watches while frames are received at all (DEDUCED, notes/assumptions/28.md). -/
def frameWatchdog (now : Nat) (p : Polder) : Polder :=
  if rxUsed p && p.spb.lane1 && !p.spb.wdogDone && decide (p.spb.lastAccepted + rdN p A.SPB_WD * ms ≤ now) then
    connFault now F.SPB_EVT_WDOG (modSpb (fun s => { s with wdogDone := true }) p)
  else p

/-- A commit brings a receive ID into use: the watchdog runs from here. -/
def connCommit (now : Nat) (p : Polder) : Polder := modSpb (fun s => { s with lastAccepted := now, wdogDone := false }) p

/-- No frame of any kind for `SPB_NETDOWN` (R357). -/
def networkDown (now j : Nat) (p : Polder) : Polder :=
  if getBit p F.SPB_STAT_NETUP j && decide (vget p.spb.heardAt j 0 + rdN p A.SPB_NETDOWN * ms ≤ now) then netDown j p else p

/-- A network has been up for 1 s. -/
def networkResume (now j : Nat) (p : Polder) : Polder := match vget p.spb.upSince j none with
  | some t =>
    if t + sec ≤ now then
      let p1 := modSpb (fun s => { s with resumed := vset s.resumed j true }) p
      if netUsable p1 0 && netUsable p1 1 then fput p1 F.SPB_STAT_REDUCED 0 else p1
    else p
  | none => p

/-- Byte 0 of a status frame (R359). -/
def statusByte (p : Polder) : Nat :=
  bn (spbState p != 2) + 2 * bn (genHigh p 0) + 4 * bn (genHigh p 1) + 8 * bn ((pairIn p 0).1 && (pairIn p 0).2) +
    16 * bn ((pairIn p 1).1 && (pairIn p 1).2) + 32 * bn (rd p A.SPB_FAULT != 0) + 64 * fget p F.SPB_STAT_REDUCED + 128 * fget p F.SPB_STAT_TEST_DUE

/-- The 40 bytes of a status frame. -/
def statusFrame (now seq : Nat) (p : Polder) : List Byte :=
  let x := presented p now
  let b := [1, 1] ++ leBytes 2 (bitsOf (rd p A.SPB_CONN) 15 0) ++ leBytes 4 seq ++ stamp10 x ++ [5, 0] ++ leBytes 1 (statusByte p) ++
    wBytes (rd p A.SPB_CRC_OK) ++ zeros 11
  b ++ wBytes (crc32c b)

/-- Both lanes run and agree. -/
def lanesAgree (p : Polder) : Bool := p.spb.lane2 && !lanesDiffer p.spb

/-- Every `SPB_TXPER` a status frame; one on which the lanes do not agree is not sent (R359). -/
def stometTransmit (now : Nat) (p : Polder) : Polder :=
  if fbit p F.SPB_CFG_TX_EN && p.spb.lane1 && decide (p.spb.txAt + rdN p A.SPB_TXPER * ms ≤ now) then
    if !lanesAgree p then modSpb (fun s => { s with txAt := now }) p
    else
      let n := p.spb.txSeq + 1
      emit (modSpb (fun s => { s with txSeq := n, txAt := now }) p) (.datagram (rdN p A.SPB_PEERIP) 4403 (statusFrame now n p))
  else p

/-- The registers of the safety parameter set (R365). -/
def isSafetyReg (off : Nat) : Bool := off == A.SPB_CFG || decide (A.SPB_FILT ≤ off ∧ off ≤ A.SPB_TESTINT)

/-- A commit that wrote a safety parameter (R360, R364): both lanes take the set; one that is not confirmed is logged. `before` is the check value
before it. -/
def spbCommit (now sess : Nat) (before : Word) (p : Polder) : Polder :=
  let p1 := testDue p
  if spbCrc p = rd p A.SPB_CRC_OK && p.spb.confirmed.isSome then p1 else changeLog now 6 sess (spbCrc p) before p1

/-- The set in force is confirmed (R362). -/
def confirmSet (now code sess : Nat) (p : Polder) : Polder :=
  let p1 := modSpb (fun s => { s with confirmed := some (safetySet p) }) (wr p A.SPB_CRC_OK (spbCrc p))
  storeSafety now (changeLog now code sess (spbCrc p) (spbCrc p) p1)

/-- The salted hash of a password (R363): salt of 16 bytes, then the password. -/
def passHash (salt : Nat) (pw : List Byte) : List Byte := sha256 ((List.range 16).map (Config.saltByte salt) ++ pw)

/-- A password is printable ASCII of 8 to 16 bytes. -/
def passOk (pw : List Byte) : Bool := decide (8 ≤ pw.length ∧ pw.length ≤ 16) && pw.all fun b => decide (0x21 ≤ b.toNat ∧ b.toNat ≤ 0x7E)

/-- A password matches the stored one. -/
def passMatch (p : Polder) (pw : List Byte) : Bool := match p.spb.password with
  | some (s, h) => passHash s pw == h
  | none => false

/-- A password is stored under a new salt. -/
def passStore (pw : List Byte) (p : Polder) : Polder :=
  drawn (modSpb (fun s => { s with password := some (p.free, passHash p.free pw), wrong := 0 }) p)

/-- Password commands are locked out. -/
def passLocked (now : Nat) (p : Polder) : Bool := p.spb.lockEnd.any fun t => decide (now < t)

/-- A wrong password: five in a row lock the password commands for 15 minutes. -/
def passWrong (now sess : Nat) (p : Polder) : Polder :=
  let n := (if p.spb.lockEnd.isSome then 0 else p.spb.wrong) + 1
  let p1 := modSpb (fun s => { s with wrong := n, lockEnd := if 5 ≤ n then some (now + 900 * sec) else none }) p
  changeLog now 5 sess (spbCrc p) (spbCrc p) (spbEvt now F.SPB_EVT_PWFAIL p1)

/-- 15 minutes after the fifth wrong password. -/
def passUnlock (now : Nat) (p : Polder) : Polder := match p.spb.lockEnd with
  | some t => if t ≤ now then modSpb (fun s => { s with lockEnd := none, wrong := 0 }) p else p
  | none => p

/-- The Dike and the safe pulse block after any change of a polder. -/
def settleAll (now : Nat) (p : Polder) : Polder := genTrack now (testHold (settle now (if awake p && p.spb.lane1 then spbSettle now p else p)))

end Sys2Proof.Machine
end

