-- ==== Sys2Proof/Machine/Swing.lean ====
section
/-!
DEFINITION. The swing engine: stairs (R264 to R272), the law (R54 to R66), the time anchor (R73 to R77), the measurement group (R82), the
checks that run at every update (R89, R94, R102, R104, R108, R110), and one whole update.
-/
namespace Sys2Proof.Machine
open Sys2Proof

/-! ### Stairs (R264 to R272) -/

def stair (p : Polder) (k : Nat) : Stair := vget p.sts.stairs k {}
def setStair (p : Polder) (k : Nat) (x : Stair) : Polder := { p with sts := { p.sts with stairs := vset p.sts.stairs k x } }

/-- Target register of stair k. -/
def stairReg : Nat → Nat
  | 0 => A.SWG_PREF | 1 => A.SWG_QREF | 2 => A.SWG_VREF | _ => A.SWG_FREF

/-- A DE-ENERGISE stop is in progress. -/
def deEnergise (p : Polder) : Bool := regime p == Rg.stopping && p.rgm.stopMode == 1

/-- Target in force (R267, R271). -/
def stairTarget (p : Polder) (k : Nat) : Int :=
  if regime p = Rg.stopping ∧ k < 2 then 0
  else if deEnergise p = true ∧ k = 2 then 0
  else q28 p (stairReg k)

/-- Rates up and down in force, in pu per second (R265, R271). -/
def stairRates (p : Polder) (k : Nat) : Int × Int :=
  let own := (q28 p (A.STS_RUP k), q28 p (A.STS_RDN k))
  if regime p = Rg.stopping ∧ k < 2 then (q28 p A.SWG_STOP_RATE, q28 p A.SWG_STOP_RATE)
  else if deEnergise p = true ∧ k = 2 then (q28 p A.SWG_EN_RATE, q28 p A.SWG_EN_RATE)
  else if regime p = Rg.energise ∧ k = 2 then (q28 p A.SWG_EN_RATE, own.2)
  else own

/-- The regime holds the stair where it stands: RIDE with `HOLD_STAIRS` (R271), phase BREAKER of ENERGISE (R96). -/
def rideHold (p : Polder) (k : Nat) : Bool :=
  regime p == Rg.forming && fbit p F.PCT_REGIME_RIDE && fbit p F.SWG_RIDE_CFG_HOLD_STAIRS && k < 2
def stairHold (p : Polder) (k : Nat) : Bool := rideHold p k || (regime p == Rg.energise && k == 2 && fget p F.PCT_REGIME_PHASE == 0)

/-- The stair follows its target at every update (R271). -/
def stairFollows (p : Polder) : Bool := !lawRegime p || regime p == Rg.sync

/-- A step from `out` by at most `d` takes the landing (R268). -/
def takesLanding (p : Polder) (k : Nat) (out tgt next : Int) : Bool :=
  let l := q28 p (A.STS_LAND k)
  let d := fget p (F.STS_SCFG_LAND_DIR k)
  fbit p (F.STS_SCFG_LAND_EN k) && regime p != Rg.stopping &&
    ((d != 1 && decide (out < l ∧ l ≤ next ∧ l < tgt)) || (d != 0 && decide (l < out ∧ next ≤ l ∧ tgt < l)))

/-- Registers of stair k, against the target that the last update found. -/
def stairShow (now k : Nat) (p : Polder) : Polder :=
  let x := stair p k
  let left := match x.dwellEnd with
    | some e => (e - now + ms - 1) / ms
    | none => 0
  let p1 := wr (wr p (A.STS_OUT k) (toQ28 x.out)) (A.STS_DWL k) (wordN left)
  putBit (putBit (putBit p1 F.STS_STAT_STAIR_ACTIVE k (lawRegime p && x.out != x.tgt)) F.STS_STAT_DWELL k x.dwellEnd.isSome)
    F.STS_STAT_HELD k (rideHold p k)

/-- A dwell that has run out, or that a stop ends. -/
def stairDwell (now : Nat) (p : Polder) (x : Stair) : Stair := match x.dwellEnd with
  | some e => if e ≤ now ∨ regime p = Rg.stopping ∨ stairFollows p = true then { x with dwellEnd := none } else x
  | none => x

/-- A ramping stair's step (R265, R266, R268). -/
def stairRamp (now k : Nat) (r : Nat → Bool) (x : Stair) (p : Polder) : Polder :=
  let tgt := stairTarget p k
  if x.out = tgt then setStair p k { x with dir := 0 }
  else
    let up := decide (x.out < tgt)
    let rate := if up then (stairRates p k).1 else (stairRates p k).2
    let d := openDiv r (80 + k) (rate * (tsFs p : Nat)) sec
    let dir : Int := if up then 1 else -1
    let next := if up then min tgt (x.out + d) else max tgt (x.out - d)
    let p1 := if x.dir = -dir then evtBit F.STS_EVT_REVERSED k p else p
    if takesLanding p k x.out tgt next then
      evtBit F.STS_EVT_LANDED k (setStair p1 k { out := q28 p (A.STS_LAND k), dir := dir, dwellEnd := some (now + fget p (F.STS_SCFG_DWELL k) * ms) })
    else setStair p1 k { x with out := next, dir := if next = tgt then 0 else dir }

/-- One step of stair k (R265). -/
def stairStep (now k : Nat) (r : Nat → Bool) (p : Polder) : Polder :=
  let x := stairDwell now p (stair p k)
  let p1 :=
    if stairFollows p then setStair p k { out := stairTarget p k }
    else if stairHold p k || x.dwellEnd.isSome then setStair p k x
    else stairRamp now k r x p
  stairShow now k (setStair p1 k { stair p1 k with tgt := stairTarget p k })

/-- What `GET_STAIRS` reports of an update (R291). -/
def stairsShown (p : Polder) : Polder :=
  let w : Vector Word 14 := Vector.ofFn fun (j : Fin 14) =>
    if j.val = 0 then rd p A.STS_STAT else if j.val = 1 then rd p A.STS_EVT
    else
      let k := (j.val - 2) / 3
      match (j.val - 2) % 3 with
      | 0 => rd p (A.STS_OUT k)
      | 1 => toQ28 (stair p k).tgt
      | _ => rd p (A.STS_DWL k)
  { p with sts := { p.sts with shown := w } }

/-- `STS_SCFGk` or `STS_LANDk` as this update finds it differs from what the update before found: a dwell in progress ends (R270, R282). -/
def dwellCut (k : Nat) (before : Cells) (p : Polder) : Polder :=
  let differs := fun (o : Nat) => cellGet polReset before o != took p o
  if differs (A.STS_SCFG k) || differs (A.STS_LAND k) then setStair p k { stair p k with dwellEnd := none } else p

/-- The stairs step before the update samples their outputs (R265); `before` are the settings that the last update found. -/
def stairsStep (now : Nat) (before : Cells) (r : Nat → Bool) (p : Polder) : Polder :=
  stairsShown ([0, 1, 2, 3].foldl (fun q k => stairStep now k r (dwellCut k before q)) p)

/-- DWELL_END (R269). -/
def dwellEnd' (now k : Nat) (p : Polder) : Polder := stairShow now k (setStair p k (stairDwell now p (stair p k)))

/-! ### Inputs of an update -/

/-- Conditioned input k in pu. -/
def puIn (p : Polder) (x : SwingIn) (k : Nat) : Int := puOf p k (x.vals.getD k 0)

/-- Instant in presented fs that the outputs of a path delivered at an instant represent (R239), taken for the trigger channel's stream where
the channels of a record differ. `lo` is the lowest bit of the path's field in `FLT_RESPk`. -/
def tapInstant (p : Polder) (now lo : Nat) : Int :=
  let r := capRec p
  let k := capStream r (cfgGet r F.CAP_CTRL_TCH)
  presentedThen p (now - streamDelay p lo k)

/-- Committed responses take effect at an update: the filter of that path restarts with SUS for one span, and no sample from before is left in it
(R244). -/
def respUpdate (now k : Nat) (p : Polder) : Polder :=
  let new := rd p (A.FLT_RESP k)
  let old := vget p.flt.resp k 0
  let c := bitsOf new 3 0
  let m := bitsOf new 7 4
  let f := p.flt
  let f1 := if c = bitsOf old 3 0 then f else { f with ovrC := vset f.ovrC k 0, susC := vset f.susC k (now + spanFs c) }
  let f2 := if m = bitsOf old 7 4 then f1 else { f1 with ovrM := vset f1.ovrM k 0, susM := vset f1.susM k (now + spanFs m) }
  { p with flt := { f2 with resp := vset f2.resp k new } }

/-! ### The anchor (R73 to R77) -/

/-- θa at an instant (R73). -/
def anchorPhase (p : Polder) (r : Nat → Bool) (now : Nat) : Nat :=
  let x := presented p now
  let n : Int := (nanosOf x * 65536 + fracOf x : Nat)
  ((openDiv r 90 (n * fnomHz p * 4294967296) 65536000000000 + rdN p A.SWG_ANCHOR_OFS) % 4294967296).toNat

/-- 2π · BW · e in Hz, for a bandwidth in mHz and an error in 2^-32 revolutions. -/
def phaseHz (r : Nat → Bool) (site bw : Nat) (e : Int) : Int := openDiv r site (tau60 * bw * e) 4294967296000

/-- One step of the weight W (R75, R76): W and the state code. While RIDE holds W the code stays what it was before (DESIGN CHOICE: R76 names none
for a held weight; notes/assumptions/11.md). -/
def anchorWeight (p : Polder) (r : Nat → Bool) (good : Bool) : Int × Nat :=
  let w := p.swg.anchorW
  if regime p = Rg.forming ∧ fbit p F.PCT_REGIME_RIDE = true then (w, fget p F.SWG_STAT_ANCHOR)
  else
    let d := openDiv r 91 ((tsFs p : Nat) * one60) (fget p F.SWG_ANCHOR_CTRL_FADE * sec)
    if fbit p F.SWG_CTRL_ANCHOR_EN && regime p == Rg.forming && good && !fbit p F.SWG_STAT_ANCHOR_BLK then
      let v := min one60 (w + d)
      (v, if v = one60 then 2 else 1)
    else
      let v := max 0 (w - d)
      (v, if v = 0 then 0 else 3)

/-- The anchor at an update with error `e`: fa in Hz, and the polder with W, its state and the instants of R77. The clamp counts as limiting only while W
is above 0 and outside RIDE, where there is a correction to limit (DESIGN CHOICE, notes/assumptions/11.md). -/
def anchor (now : Nat) (r : Nat → Bool) (e : Int) (p : Polder) : Int × Polder :=
  let good := qualityAt p now == 3
  let x := anchorWeight p r good
  let ride := regime p == Rg.forming && fbit p F.PCT_REGIME_RIDE
  let raw := phaseHz r 92 (fget p F.SWG_ANCHOR_CTRL_BW) e
  let lim := q28 p A.SWG_ANCHOR_LIM * fnomHz p
  let c := clampI (-lim) lim raw
  let beyond := c != raw && decide (0 < x.1) && !ride
  let was := fget p F.SWG_STAT_ANCHOR
  let lost := !good && !ride && decide (x.1 < p.swg.anchorW) && (was == 1 || was == 2) && fbit p F.SWG_CTRL_ANCHOR_EN && regime p == Rg.forming
  let w := p.swg
  let p1 := { p with swg := { w with
    anchorW := x.1, clampSince := if beyond then some (w.clampSince.getD now) else none,
    errSince := if absI e < 16777216 then some (w.errSince.getD now) else none } }
  (if ride then 0 else mul60 r 93 x.1 c, evtIf lost F.SWG_EVT_ANCHOR_LOST (fput p1 F.SWG_STAT_ANCHOR x.2))

/-- ANCHOR_BLOCK: 10 s of continuous clamping (R77). Neither a block, an unblock nor a commit of `ANCHOR_EN` restarts the two intervals of R77
(DESIGN CHOICE, notes/assumptions/11.md). -/
def anchorBlock (now : Nat) (p : Polder) : Polder := match p.swg.clampSince with
  | some t => if t + 10 * sec ≤ now ∧ fbit p F.SWG_STAT_ANCHOR_BLK = false then evt F.SWG_EVT_ANCHOR_SAT (fput p F.SWG_STAT_ANCHOR_BLK 1) else p
  | none => p

/-- ANCHOR_UNBLOCK: 10 s with |e| below 1/256 rev (R77). -/
def anchorUnblock (now : Nat) (p : Polder) : Polder := match p.swg.errSince with
  | some t => if t + 10 * sec ≤ now then fput p F.SWG_STAT_ANCHOR_BLK 0 else p
  | none => p

/-! ### The law (R54) -/

/-- The values of one update; p, q and voltages in pu, fa and fs in Hz, with 60 fractional bits. `flags` are the saturated results. -/
structure Law where
  p : Int := 0
  q : Int := 0
  pf : Int := 0
  qf : Int := 0
  wg : Int := 0
  w : Int := 0
  /-- ω before the update -/
  w0 : Int := 0
  ed : Int := 0
  e : Int := 0
  vcD : Int := 0
  vcQ : Int := 0
  ioD : Int := 0
  ioQ : Int := 0
  vrD : Int := 0
  vrQ : Int := 0
  lrnD : Int := 0
  lrnQ : Int := 0
  /-- correction of each phase and the flag of the table entries it was read from -/
  lrnPh : List (Int × Nat) := []
  iD : Int := 0
  iQ : Int := 0
  i2D : Int := 0
  i2Q : Int := 0
  pg : Int := 0
  fa : Int := 0
  fs : Int := 0
  es : Int := 0
  inc : Int := 0
  fclamp : Bool := false
  ilim : Bool := false
  sat : Bool := false
  deriving DecidableEq, Repr

/-- The estimator holds after this update (R56). -/
def feHold (p : Polder) (u1 : Int) : Bool :=
  if 5 * u1 < one60 then true else fbit p F.SWG_STAT_FEHOLD && decide (4 * u1 ≤ one60)

/-- A pair held at the limits of the format, and whether either value was beyond them (R66). -/
def satPair (x : Int × Int) : (Int × Int) × Bool := ((satQ x.1, satQ x.2), satQ x.1 != x.1 || satQ x.2 != x.2)

/-- The output current: the measured one without the current of the filter capacitor, on the voltage `vc` (R54). -/
def outputCurrent (p : Polder) (r : Nat → Bool) (site : Nat) (w : Int) (i vc : Int × Int) : Int × Int :=
  let b := if fbit p F.SWG_CTRL_CFF_EN then mul60 r site w (q28 p A.SWG_BC) else 0
  (i.1 + mul60 r (site + 1) b vc.2, i.2 - mul60 r (site + 2) b vc.1)

/-- The estimator's next ωg: it follows the frequency of the positive-sequence component as a first-order lag of the bandwidth `SWG_FEBW`, the lag
that the worked example of spec/02 gives a ramp (R56; DEDUCED, notes/assumptions/18.md). -/
def estimate (p : Polder) (r : Nat → Bool) (f : Int) : Int :=
  p.swg.wg + openDiv r 98 (tau60 * rdN p A.SWG_FEBW * (f - p.swg.wg) * (tsFs p : Nat)) (one60.toNat * 1000 * sec)

/-- Power with its filters, and ωg (first part of R54, R55, R56), at the phase θ before the update. `w` is ω. -/
def lawMeasure (p : Polder) (r : Nat → Bool) (x : SwingIn) (th : Nat) (w : Int) : Law :=
  let vcS := satPair (park r 100 (puIn p x 3) (puIn p x 4) (puIn p x 5) th)
  let vc := vcS.1
  let iS := satPair (park r 104 (puIn p x 0) (puIn p x 1) (puIn p x 2) th)
  let ioS := satPair (outputCurrent p r 108 w iS.1 vc)
  let ioD := ioS.1.1
  let ioQ := ioS.1.2
  let pw := mul60 r 111 vc.1 ioD + mul60 r 112 vc.2 ioQ
  let qw := mul60 r 113 vc.2 ioD - mul60 r 114 vc.1 ioQ
  let t := rdN p A.SWG_TPQ * us
  let flt := fun (s : Nat) (y v : Int) => y + openDiv r s ((v - y) * (tsFs p : Nat)) t
  let pf := flt 115 p.swg.pf (satQ pw)
  let qf := flt 116 p.swg.qf (satQ qw)
  let hold := feHold p x.u1
  let leave := fbit p F.SWG_STAT_FEHOLD && !hold
  let est := estimate p r x.wg
  { p := satQ pw, q := satQ qw, pf := satQ pf, qf := satQ qf, wg := if hold || leave then w else satQ est, w := w, w0 := w,
    vcD := vc.1, vcQ := vc.2, ioD := ioD, ioQ := ioQ,
    sat := vcS.2 || iS.2 || ioS.2 || satQ pw != pw || satQ qw != qw || satQ pf != pf || satQ qf != qf || (!(hold || leave) && satQ est != est) ||
      [x.v1, x.u1, x.u2, puIn p x 9 + puIn p x 10].any fun v => satQ v != v }

/-- DC-link guard (R110). -/
def guardPower (p : Polder) (r : Nat → Bool) (vdc : Int) : Int :=
  if fbit p F.SWG_RIDE_CFG_DCG_EN then
    mul60 r 117 (q28 p A.SWG_DCG_K) (min 0 (vdc - q28 p A.SWG_DCG_LO) + max 0 (vdc - q28 p A.SWG_DCG_HI))
  else 0

/-- Bounds of ω (R57). -/
def wLow (p : Polder) : Int := max (one60 - q28 p A.SWG_DFMAX) (45 * one60 / fnomHz p)
def wHigh (p : Polder) : Int := min (one60 + q28 p A.SWG_DFMAX) (65 * one60 / fnomHz p)

/-- The output that stair k presents to the law: Q4.28, rounded to the nearest code (R265). -/
def stairOut (p : Polder) (k : Nat) : Int := codeQ28 (stair p k).out * 4294967296

/-- The swing equation (R54), or ω := ωg in SYNC (R101), clamped in both (R57), with the phase increment in 2^-64 revolutions: in SYNC that of ωg itself,
which R101 does not clamp. -/
def lawSwing (p : Polder) (r : Nat → Bool) (x : SwingIn) (th : Nat) (fa vdc : Int) (l : Law) : Law :=
  let ts : Int := (tsFs p : Nat)
  let pgx := guardPower p r vdc
  let pg := satQ pgx
  let incOf := fun (w f : Int) => roundDiv ((w * fnomHz p + f) * ts * 16) (sec : Nat)
  if regime p = Rg.sync then
    let es := signedPhase ((x.u1arg : Int) - th)
    let lim := q28 p A.SWG_SYNC_LIM * fnomHz p
    let fs := clampI (-lim) lim (phaseHz r 118 (rdN p A.SWG_SYNC_BW) es)
    let w := clampI (wLow p) (wHigh p) l.wg
    { l with pg := pg, w := w, fclamp := w != l.wg, es := es, fs := fs, ed := satQ x.u1, inc := incOf l.wg fs, sat := l.sat || pg != pgx }
  else
    let out := stairOut p
    let pd := out 0 + divI r 119 ((out 3 - l.w) * 268435456) (rd p A.SWG_MP).toInt + pg
    let pds := satQ pd
    let dmp := openDiv r 120 ((rdN p A.SWG_DAMP : Int) * (l.w - l.wg)) 16777216
    let acc := pds - l.pf - satQ dmp
    let w1 := l.w + openDiv r 121 (satQ acc * ts * 16777216) (2 * rdN p A.SWG_INERTIA * sec)
    let w2 := clampI (wLow p) (wHigh p) w1
    let ed := out 2 - mul60 r 122 (q28 p A.SWG_NQ) (l.qf - out 1)
    { l with
      pg := pg, w := w2, fclamp := w2 != w1, fa := fa, ed := satQ ed, inc := incOf w2 fa,
      sat := l.sat || pg != pgx || pds != pd || satQ dmp != dmp || satQ acc != acc || satQ ed != ed }

/-- Negative-sequence injection is active (R63, R107). -/
def nseqOn (p : Polder) : Bool :=
  fbit p F.SWG_CTRL_NSEQ_EN && rdN p A.SWG_KNEG != 0 &&
    (!fbit p F.SWG_RIDE_CFG_NSEQ_RIDE || (regime p == Rg.forming && fbit p F.PCT_REGIME_RIDE))

/-- Mode of the current limit (R62, R107). -/
def ilimMode (p : Polder) : Nat :=
  let m := fget p F.SWG_RIDE_CFG_RIDE_ILIM
  if regime p = Rg.forming ∧ fbit p F.PCT_REGIME_RIDE = true ∧ m ≠ 3 then m else fget p F.SWG_CTRL_ILIM_MODE

/-- A pair scaled by n / d. -/
def scale2 (r : Nat → Bool) (site : Nat) (n d x y : Int) : Int × Int := (divI r site (x * n) d, divI r (site + 1) (y * n) d)

/-- The current limit (R62): positive and negative references, and whether one was reduced. -/
def currentLimit (r : Nat → Bool) (mode : Nat) (lim d q d2 q2 : Int) : (Int × Int) × (Int × Int) × Bool :=
  let a := magI d q
  let b := magI d2 q2
  if a + b ≤ lim then ((d, q), (d2, q2), false)
  else match mode with
    | 0 => (scale2 r 130 lim (a + b) d q, scale2 r 132 lim (a + b) d2 q2, true)
    | 1 =>
      let q' := clampI (-lim) lim q
      let room := lim - b
      if absI q' ≤ room then
        let m : Int := (isqrt (room * room - q' * q').toNat : Nat)
        let d' := if d < 0 then -(min (-d) m) else min d m
        ((d', q'), (d2, q2), true)
      else ((0, q'), scale2 r 134 (lim - absI q') b d2 q2, true)
    | _ =>
      if a ≤ lim then ((d, q), scale2 r 136 (lim - a) b d2 q2, true)
      else (scale2 r 138 lim a d q, (0, 0), true)

/-- EMF, voltage reference and current references (last part of R54, R59 to R63). `th` is the phase the measurements were rotated by, `th1` the phase
of this update, which indexes the learner (R58). While the negative sequence is injected the whole voltage loop, its feedforward and the virtual drop
take the positive sequence only. -/
def lawVoltage (p : Polder) (r : Nat → Bool) (x : SwingIn) (th th1 : Nat) (e0 : Int) (l : Law) : Law :=
  let e1 := e0 + openDiv r 140 ((l.ed - e0) * (tsFs p : Nat)) (rdN p A.SWG_TV * us)
  let e := satQ e1
  let vimp := fbit p F.SWG_CTRL_VIMP_EN
  let rv := if vimp then q28 p A.SWG_RV else 0
  let xv := if vimp then mul60 r 141 l.w (q28 p A.SWG_XV) else 0
  let cS := satPair (lrnDq p r th1)
  let c := cS.1
  let neg := nseqOn p
  let turned := fun (site : Nat) (m : Int) (a : Nat) =>
    let rel := (((a : Int) - th) % 4294967296).toNat
    (rotRe r site m 0 rel, rotIm r (site + 1) m 0 rel)
  let fbS := if neg then satPair (turned 146 x.v1 x.v1arg) else ((l.vcD, l.vcQ), false)
  let fbD := fbS.1.1
  let fbQ := fbS.1.2
  let ioS := if neg then satPair (outputCurrent p r 158 l.w0 (turned 156 x.i1 x.i1arg) (fbD, fbQ)) else ((l.ioD, l.ioQ), false)
  let ioD := ioS.1.1
  let ioQ := ioS.1.2
  let vrD := e - mul60 r 142 rv ioD + mul60 r 143 xv ioQ + c.1
  let vrQ := -mul60 r 144 rv ioQ - mul60 r 145 xv ioD + c.2
  let vD := satQ vrD
  let vQ := satQ vrQ
  let g := q28 p A.SWG_GV
  let b := if fbit p F.SWG_CTRL_CFF_EN then mul60 r 148 l.w (q28 p A.SWG_BC) else 0
  let iD := ioD + mul60 r 149 g (vD - fbD) - mul60 r 150 b vQ
  let iQ := ioQ + mul60 r 151 g (vQ - fbQ) + mul60 r 152 b vD
  let k := ofUQ24 (rd p A.SWG_KNEG)
  let n := if neg then mul60 r 153 k x.u2 else 0
  let i2D := rotIm r 154 n 0 x.u2arg
  let i2Q := -rotRe r 155 n 0 x.u2arg
  let lim := currentLimit r (ilimMode p) (q28 p A.SWG_ILIM) (satQ iD) (satQ iQ) (satQ i2D) (satQ i2Q)
  let blocked := regime p == Rg.stopping && fget p F.PCT_REGIME_PHASE == 2
  let z := fun (v : Int) => if blocked then 0 else v
  { l with
    e := e, vrD := vD, vrQ := vQ, lrnD := c.1, lrnQ := c.2,
    lrnPh := [0, 1, 2].map fun k => (lrnPhase p r th1 k, 3 * bn (badAt p th1 k)), iD := z lim.1.1, iQ := z lim.1.2, i2D := z lim.2.1.1, i2Q := z lim.2.1.2,
    ilim := lim.2.2,
    sat := l.sat || cS.2 || fbS.2 || ioS.2 || e != e1 || vD != vrD || vQ != vrQ || satQ iD != iD || satQ iQ != iQ || satQ i2D != i2D || satQ i2Q != i2Q }

/-- The states that entry to ENERGISE or SYNC sets before the first update (R95, R101). -/
def lawInit (now : Nat) (r : Nat → Bool) (x : SwingIn) (p : Polder) : Polder :=
  if p.swg.init && lawRegime p then
    let w := p.swg
    if regime p = Rg.sync then
      { p with swg := { w with init := false, acc := BitVec.ofNat 64 (x.u1arg % 4294967296 * 4294967296), e := 0 } }
    else
      let f := stairOut p 3
      let acc := if qualityAt p now = 3 then BitVec.ofNat 64 (anchorPhase p r now * 4294967296) else w.acc
      { p with swg := { w with init := false, w := f, wg := f, acc := acc, e := 0, pf := 0, qf := 0 } }
  else p

/-! ### Checks of an update -/

/-- Instant since which a condition has held. -/
def since (now : Nat) (b : Bool) (old : Option Nat) : Option Nat := if b then some (old.getD now) else none

/-- The line-to-line values of an update join those of the last half-cycle of ω (R89). -/
def linesUpdate (now : Nat) (x : SwingIn) (w : Int) (p : Polder) : Polder :=
  let u := fun k => puIn p x (6 + k)
  let half := (max 0 w * fnomHz p * 2).toNat
  let l := (now, u 0 - u 1, u 1 - u 2, u 2 - u 0) :: p.swg.lines
  { p with swg := { p.swg with lines := l.filter fun e => decide ((now - e.1) * half < sec * one60.toNat) } }

/-- RMS over some samples of a line-to-line voltage given on the phase-peak base, in pu of V_base: √(2/3) of the RMS of the samples. -/
def rmsOf (l : List Int) : Int := (isqrt ((l.foldl (fun a v => a + v * v) 0).toNat * 2 / (3 * max 1 l.length)) : Nat)

/-- The lowest of the three line-to-line RMS values (R89). -/
def lowestLine (p : Polder) : Int :=
  let l := p.swg.lines
  min (rmsOf (l.map (·.2.1))) (min (rmsOf (l.map (·.2.2.1))) (rmsOf (l.map (·.2.2.2))))

/-- Ride voltage (R89). -/
def rideVoltage (p : Polder) (x : SwingIn) : Int := if fbit p F.SWG_RIDE_CFG_VMEAS then lowestLine p else x.u1

/-- Angle and frequency conditions of R102. -/
def matched (p : Polder) (x : SwingIn) (l : Law) : Bool :=
  let es := l.es * 268435456
  let da : Int := (rdN p A.SWG_SYNC_DA : Int) * 268435456
  decide (q28 p A.SWG_SYNC_VLO ≤ x.u1 ∧ x.u1 ≤ q28 p A.SWG_SYNC_VHI ∧ wLow p ≤ l.wg ∧ l.wg ≤ wHigh p ∧
    absI (x.v1 - x.u1) ≤ q28 p A.SWG_SYNC_DV ∧ absI l.fs * 1000 ≤ (rdN p A.SWG_SYNC_DF : Int) * one60 ∧ absI es ≤ da ∧
    absI (es * 1000 - l.fs * (rdN p A.SWG_BRK_TCLOSE : Int)) ≤ da * 1000)

/-- Instants since which the conditions of the regime machine hold (R89, R97, R99, R102, R104). -/
def trackRegime (now : Nat) (x : SwingIn) (l : Law) (p : Polder) : Polder :=
  let g := p.rgm
  let vr := rideVoltage p x
  let dead := decide (x.u1 < q28 p A.SWG_DEAD_V)
  let lo := q28 p A.SWG_RIDE_LO
  let hi := q28 p A.SWG_RIDE_HI
  let hy := q28 p A.SWG_RIDE_HYS
  let form := regime p == Rg.forming
  let v := stairOut p 2
  let en := regime p == Rg.energise
  let settled := en && fget p F.PCT_REGIME_PHASE == 2 && v == stairTarget p 2 && decide (absI (x.v1 - v) * 20 ≤ one60)
  let coll := en && g.backoff && decide (one60 ≤ 2 * (magI l.iD l.iQ + magI l.i2D l.i2Q) ∧ v * 10 < 3 * one60)
  let mat := regime p == Rg.sync && fget p F.PCT_REGIME_PHASE == 0 && matched p x l
  { p with rgm := { g with
    belowSince := since now dead g.belowSince, aboveSince := since now (!dead) g.aboveSince,
    rideOutSince := since now (form && decide (vr < lo ∨ hi < vr)) g.rideOutSince,
    rideInSince := since now (form && decide (lo + hy ≤ vr ∧ vr ≤ hi - hy)) g.rideInSince,
    settleSince := since now settled g.settleSince, collSince := since now coll g.collSince, syncSince := since now mat g.syncSince } }

/-- The newest past update at or before an instant. -/
def pastAt : List SwgPast → Nat → Option SwgPast
  | [], _ => none
  | x :: l, t => if x.at' ≤ t then some x else pastAt l t

/-- A RoCoF beyond the format saturates as every other result of the update does (R66). -/
def rocofSat (now : Nat) (beyond : Bool) (p : Polder) : Polder :=
  if beyond then
    let q := evtSel now Ev.sat F.SWG_EVT_SAT (fput p F.SWG_STAT_SAT 1)
    { q with swg := { q.swg with measStat := rd q A.SWG_STAT } }
  else p

/-- Phase jump and RoCoF (R108), for an update in FORMING with |U1| at or above 0.2 pu. The predicted change is that of ωg over the same
interval. -/
def jumpCheck (now : Nat) (r : Nat → Bool) (x : SwingIn) (l : Law) (p : Polder) : Polder :=
  let w := p.swg
  let win := rdN p A.SWG_ROCOF_WIN * ms
  let pred := ((w.predAcc : Int) + roundDiv (l.wg * fnomHz p * (tsFs p : Nat) * 16) (sec : Nat)) % 18446744073709551616
  let me : SwgPast := ⟨now, x.u1arg % 4294967296, l.wg, pred.toNat⟩
  let p1 := { p with swg := { w with
    predAcc := pred.toNat, past := (me :: w.past).takeWhile fun e => decide (now ≤ e.at' + max win (30 * ms)) } }
  if regime p = Rg.forming ∧ one60 ≤ 5 * x.u1 then
    let cycle := if 0 < l.w then (openDiv r 160 ((sec : Nat) * one60) (l.w * fnomHz p).toNat).toNat else 0
    let p2 := match pastAt w.past (now - cycle) with
      | some o =>
        let d := signedPhase (((me.u1arg : Int) - o.u1arg) - ((me.pred / 4294967296 : Nat) : Int) + ((o.pred / 4294967296 : Nat) : Int))
        if (rdN p A.SWG_PJ_THR : Int) < absI d then evtSel now Ev.phaseJump F.PCT_REGEVT_PHASEJUMP (wr p1 A.SWG_PJ_LAST (wordI d)) else p1
      | none => p1
    match pastAt w.past (now - win) with
    | some o =>
      let s := openDiv r 161 ((l.wg - o.wg) * (sec : Nat)) (max 1 (now - o.at'))
      rocofSat now (satQ s != s) (evtIf (decide (q28 p A.SWG_ROCOF_MAX < absI s)) F.PCT_REGEVT_ROCOF (wr p2 A.SWG_ROCOF (toQ28 s)))
    | none => p2
  else p1

/-- `SWG_RIDE_T` and DC-link values that the registers show. -/
def showRegime (now : Nat) (x : SwingIn) (vdp vdn : Int) (p : Polder) : Polder :=
  let vdc := vdp + vdn
  let ok := decide (q28 p A.SWG_DC_RDY ≤ vdc ∧ absI (vdp - vdn) ≤ q28 p A.SWG_DC_BAL)
  let p1 := fputB (wr (wr p A.SWG_VDC (toQ28 vdc)) A.SWG_U1 (toQ28 x.u1)) F.PCT_REGIME_DCOK ok
  if fbit p F.PCT_REGIME_RIDE then wr p1 A.SWG_RIDE_T (wordN ((now - p.rgm.rideFrom) / ms)) else p1

/-! ### Gallery nodes (R209) -/

/-- A sense-cell current of a link in pu of the instantaneous current base (R296): √(3/2) · I · V_base / S_base. -/
def sensePu (p : Polder) (r : Nat → Bool) (n s : Nat) : Int :=
  let c := signed 8 (bitsOf (rd p (A.GLK_IS n)) (8 * s + 7) (8 * s))
  if c = -128 then 0
  else divI r 170 (c * rdN p (A.GLK_ISFS n) * rdN p A.SWG_VBASE * 1412034699884310141) (127 * 1000000 * rdN p A.SWG_SBASE : Nat)

/-- Lower bootstrap voltage of a link in mV. -/
def bootMv (p : Polder) (n : Nat) : Nat :=
  let w := rd p (A.GLK_MON n)
  (if fbit p (F.GLK_CFG_NSW n) then min (bitsOf w 15 8) (bitsOf w 7 0) else bitsOf w 15 8) * 100

/-- The learner's error of a phase at an update (R187). -/
def epsAt (p : Polder) (r : Nat → Bool) (x : SwingIn) (l : Law) (th k : Nat) : Int :=
  phaseVal r 171 (l.vrD - l.lrnD) (l.vrQ - l.lrnQ) th k - puIn p x (3 + k)

/-- A status word that the log places: R209 says only that a word keeps its meaningful bits at 2 and above; one that has no such register stands in bits
31:16 (DESIGN CHOICE, notes/assumptions/14.md). -/
def highHalf (n : Nat) : Int := (wordN (n * 65536)).toInt

/-- An integer node: its value stands in bits 31:2 of the word (R203; DEDUCED, notes/assumptions/14.md). -/
def intNode (v : Int) : Int := 4 * v

/-- What the gallery takes of a phase of the controller: that of the decision instant sampled under R151 (R201); before the first decision, that of the
update. -/
def decidedView (p : Polder) (now k : Nat) : Decided :=
  (sampled p k).getD { td := 0, err := 0, slope := none, h := (phaseOf p k).h, ref := 0, cur := 0, flag := 0, view := embView now k p }

/-- Metered quantities whose value is an integer (R248): frequency, energies, cycles metered, mean cycle duration. -/
def meterInt (id : Nat) : Bool := [20, 48, 49, 50, 51, 61, 63].contains id

/-- Value and flag of a gallery node at an update. Flags are those of the inputs that a node is derived from (R203): the current references take those of
all inputs of the law. -/
def galNode (now : Nat) (r : Nat → Bool) (x : SwingIn) (l : Law) (p : Polder) (id : Nat) : Int × Nat :=
  let q := fun (v : Int) => codeQ28 v
  let fin := flagsOf p now [0, 1, 2, 3, 4, 5]
  let fu := flagsOf p now [6, 7, 8]
  let fdc := flagsOf p now [9, 10]
  let fv := flagsOf p now [3, 4, 5]
  let reg := fun (o : Nat) => (rd p o).toInt
  let dec := fun (k : Nat) => decidedView p now k
  let v := fun (k : Nat) => (dec k).view
  let cor := fun (k : Nat) => l.lrnPh.getD k (0, 0)
  let bad := max (cor 0).2 (max (cor 1).2 (cor 2).2)
  let fref := max (max fin fu) bad
  let word := fun (n : Nat) (w : Word) => (lifted n w).toInt
  let fm := fun (w : Word) => if bitOf w 4 then 3 else if bitOf w 2 then 2 else if bitOf w 3 then 1 else 0
  let slope := fun (k : Nat) => match (dec k).slope with
    | some s => openDiv r 42 s 1000000
    | none => 0
  if id < 0x10 then
    ([(q l.pf, fin), (q l.qf, fin), (q l.p, fin), (q l.q, fin), (q p.swg.w, 0), (q l.wg, fu), (((p.swg.acc.toNat / 4294967296 : Nat) : Int), 0),
      (q p.swg.e, 0), (q l.ed, fin), (q l.vcD, fv), (q l.vcQ, fv), (q l.ioD, fin), (q l.ioQ, fin), (q l.iD, fref), (q l.iQ, fref),
      (q (magI l.iD l.iQ + magI l.i2D l.i2Q), fref)]).getD id (0, 0)
  else if id < 0x20 then
    ([(q l.i2D, fref), (q l.i2Q, fref), (q l.vrD, max fin bad), (q l.vrQ, max fin bad), (q l.lrnD, bad), (q l.lrnQ, bad), (q (l.fa / fnomHz p), 0),
      (q p.swg.anchorW, 0), ((vget p.swg.meas 8 0).toInt, 0), (q p.swg.vr, fu), (q x.u1, fu), (q x.u2, fu), (q (p.swg.vdp + p.swg.vdn), fdc),
      (q l.pg, fdc), (reg A.SWG_ROCOF, fu), (word 7 (rd p A.SWG_STAT), 0)]).getD (id - 0x10) (0, 0)
  else if id < 0x23 then (q (dec (id - 0x20)).ref, fref)
  else if id < 0x26 then (q (dec (id - 0x23)).cur, (dec (id - 0x23)).flag)
  else if id < 0x29 then (q (dec (id - 0x26)).err, max fref (dec (id - 0x26)).flag)
  else if id < 0x2C then (q (v (id - 0x29)).vleg, (v (id - 0x29)).flagV)
  else if id < 0x30 then
    ([(q (v 0).vcm, (v 0).flagV), (q (v 0).vhUp, (v 0).flagDc), (q (v 0).vhLo, (v 0).flagDc), (word 12 (v 0).stat, 0)]).getD (id - 0x2C) (0, 0)
  else if id < 0x33 then (q (dec (id - 0x30)).h, max (v (id - 0x30)).flagV (v (id - 0x30)).flagDc)
  else if id < 0x36 then (q (slope (id - 0x33)), max fref (dec (id - 0x33)).flag)
  else if id < 0x39 then ((v (id - 0x36)).trim.toInt, 0)
  else if id < 0x3C then (intNode (v (id - 0x39)).fswm.toInt, 0)
  else if id < 0x40 then
    ([((v 0).v0.toInt, (v 0).flagDc), ((v 0).vnp.toInt, (v 0).flagDc), (word 16 (rd p A.MOD_SW), 0), (word 9 (rd p A.MOD_STAT), 0)]).getD (id - 0x3C) (0, 0)
  else if id < 0x4F then (q (puIn p x (id - 0x40)), flagC p now (id - 0x40))
  else if id = 0x4F then (reg A.PCT_REGIME, 0)
  else if id < 0x53 then (q (epsAt p r x l (p.swg.acc.toNat / 4294967296) (id - 0x50)), max fin bad)
  else if id < 0x56 then (q (cor (id - 0x53)).1, (cor (id - 0x53)).2)
  else if id = 0x56 then (q p.lrn.wl, 0)
  else if id = 0x57 then (word 6 (rd p A.LRN_STAT), 0)
  else if id < 0x60 then (0, 0)
  else if id < 0x70 then (q (sensePu p r ((id - 0x60) / 4) (id % 4)), 0)
  else if id < 0x7C then
    let n := (id - 0x70) / 3
    (match (id - 0x70) % 3 with
      | 0 => intNode ((bitsOf (rd p (A.GLK_MON n)) 31 24 * 100 : Nat) : Int)
      | 1 => intNode (bootMv p n : Nat)
      | _ => intNode (((bitsOf (rd p (A.GLK_TEMP n)) 7 0 : Nat) - 55) * 10), 0)
  else if id < 0x80 then (highHalf (fget p (F.GLK_STAT_FAULT (id - 0x7C))), 0)
  else if id < 0x8F then
    let k := id - 0x80
    (signed 16 (fget p (F.AFE_RAW_CODE k)) * 65536, fget p (F.AFE_RAW_FLAG k))
  else if id = 0x8F then (highHalf (fget p F.AFE_CMP_STAT_OUT), 0)
  else if id = 0x90 then (word 14 (rd p A.DIK_TRIPSRC), 0)
  else if id = 0x91 then (highHalf (rdN p A.FIO_DI), 0)
  else if id = 0x92 then (highHalf (rdN p A.FIO_DOSTAT), 0)
  else if id = 0x93 then (word 9 (spbStatWord p), 0)
  else if id < 0xC0 then (0, 0)
  else
    let k := id - 0xC0
    let w := (vget p.flt.block k 0).toInt
    (if meterInt k then intNode w else w, fm (vget p.flt.block 62 0))

/-! ### Performance mode (R71, R149, R237, R260) -/

/-- A committed performance mode takes effect at the update boundary. -/
def rateUpdate (p : Polder) : Polder :=
  let new := fget p F.PCT_PERF_MODE
  let old := fget p F.SWG_STAT_RATE
  if new = old then p
  else
    let p1 := recRate old new (embRate (fput p F.SWG_STAT_RATE new))
    let mp := bn (new != 0)
    if fget p1 F.FLT_STAT_MPATH = mp then p1 else fput (blockNow p1) F.FLT_STAT_MPATH mp

/-! ### One update -/

/-- The states and registers after the law of an update (R66, R79, R82). -/
def lawStore (now : Nat) (x : SwingIn) (l : Law) (ea : Int) (law : Bool) (vdp vdn : Int) (p : Polder) : Polder :=
  let w := p.swg
  let acc := if law then w.acc + BitVec.ofInt 64 l.inc else w.acc
  let th := acc.toNat / 4294967296
  let e := if law then l.e else w.e
  let om := if law then l.w else w.w
  let im := magI l.iD l.iQ + magI l.i2D l.i2Q
  let pr := presented p now
  let meas : Vector Word 11 := #v[toQ28 l.pf, toQ28 l.qf, toQ28 x.v1, toQ28 om, wordN th, toQ28 e, toQ28 im, toQ28 x.u2, wordI ea,
    toQ28 w.anchorW, wordN (nanosOf pr)]
  let s := { w with
    acc := acc, w := om, wg := l.wg, e := e, pf := l.pf, qf := l.qf, ed := if law then l.ed else w.ed,
    prevD := w.irefD, prevQ := w.irefQ, prev2D := w.i2refD, prev2Q := w.i2refQ,
    irefD := l.iD, irefQ := l.iQ, i2refD := l.i2D, i2refQ := l.i2Q, inc := if law then l.inc else 0, lastAt := now, meas := meas,
    measAt := pr.toNat / ns, u1 := x.u1, u1arg := x.u1arg % 4294967296, vr := rideVoltage p x, es := l.es, fs := l.fs,
    pgOn := law && l.pg != 0, vdp := vdp, vdn := vdn, ran := law }
  let p1 := fputB (fputB (fputB (fputB (fputB (fputB { p with swg := s } F.SWG_STAT_RUN law) F.SWG_STAT_ILIM (law && l.ilim))
    F.SWG_STAT_FCLAMP (law && l.fclamp)) F.SWG_STAT_SAT l.sat) F.SWG_STAT_NSEQ (l.i2D != 0 || l.i2Q != 0)) F.SWG_STAT_FEHOLD (feHold p x.u1)
  let p2 := if law && l.ilim then evtSel now Ev.ilim F.SWG_EVT_ILIM p1 else p1
  let p3 := evtIf (law && l.fclamp) F.SWG_EVT_FCLAMP p2
  let p4 := if l.sat then evtSel now Ev.sat F.SWG_EVT_SAT p3 else p3
  let p5 := evtIf (law && l.pg != 0 && !w.pgOn) F.PCT_REGEVT_DCGUARD p4
  { p5 with swg := { p5.swg with measStat := rd p5 A.SWG_STAT } }

/-- New references arrive at the legs: the starvation time of R181 starts at the end of their update period. -/
def refsArrive (now : Nat) (p : Polder) : Polder :=
  let p1 := [0, 1, 2].foldl (fun q i => modLeg q i fun l => { l with refsUntil := now + tsFs q }) p
  { p1 with dike := { p1.dike with starved := false } }

/-- The resampler and the meters at an update: the reference phase goes on, path C feeds the lanes where it stands in for path M, and the DC link's extremes
are kept (R237, R246, R248). -/
def lanesUpdate (now : Nat) (vdc : Int) (p : Polder) : Polder :=
  let p1 := laneAdvance now p
  let p2 := if mPath p1 then laneFeed now (streamDelay p1 0) (fun k => vget p1.flt.lastC k (0, 0)) p1 else p1
  modFlt (fun f => { f with vdcLo := some (min vdc (f.vdcLo.getD vdc)), vdcHi := some (max vdc (f.vdcHi.getD vdc)) }) p2

/-- SWING_UPDATE (R54, R68): one update, whose sampling instant and start are its own instant. -/
def swingUpdate (now : Nat) (x : SwingIn) (p0 : Polder) : Polder :=
  let r := rounding p0
  let pc := { drawn p0 with swg := { (drawn p0).swg with cfg := swingCells p0.regs } }
  let p1 := linesUpdate now x p0.swg.w (modUpdate now ((List.range 15).foldl (fun q k => respUpdate now k q) (rateUpdate pc)))
  let p2 := { p1 with flt := { p1.flt with lastC := Vector.ofFn fun (k : Fin 15) => (x.vals.getD k.val 0, flagC p1 now k.val) } }
  let p3 := lawInit now r x (stairsStep now p0.swg.cfg r p2)
  let law := lawRegime p3
  let th := p3.swg.acc.toNat / 4294967296
  let vdp := puIn p3 x 9
  let vdn := puIn p3 x 10
  let ea := signedPhase ((anchorPhase p3 r now : Int) - th)
  let a := anchor now r ea p3
  let m := lawMeasure a.2 r x th a.2.swg.w
  let sw := lawSwing a.2 r x th a.1 (vdp + vdn) m
  let th1 := (a.2.swg.acc + BitVec.ofInt 64 sw.inc).toNat / 4294967296
  let l := if law then lawVoltage a.2 r x th th1 a.2.swg.e sw else m
  let wrap := law && decide (18446744073709551616 ≤ (a.2.swg.acc.toNat : Int) + l.inc)
  let p4 := refsArrive now (lawStore now x l ea law vdp vdn a.2)
  let p5 := embUpdate now (puIn p4 x 3) (puIn p4 x 4) (puIn p4 x 5) vdp vdn wrap p4
  let eps := epsAt p5 r x l (p5.swg.acc.toNat / 4294967296)
  let p6 := lrnUpdate now ⟨a.2.swg.acc.toNat, if law then l.inc else 0, p5.swg.w, wrap, law && l.ilim, (eps 0, eps 1, eps 2),
    flagsOf p5 now [0, 1, 2, 3, 4, 5], law⟩ p5
  let p7 := jumpCheck now r x l (trackRegime now x l (showRegime now x vdp vdn p6))
  let p8 := thermCheck now (x.vals.getD 11 0) (x.vals.getD 12 0) (dcWindow p7)
  let p9 := lanesUpdate now (vdp + vdn) (carrierStart now (chopperTest now p8))
  let p10 := if wrap then galSource 2 p9 else p9
  let at' := presented p10 now
  let p11 := galUpdate at' (galNode now r x l p10) p10
  capSample now 1 (tapInstant p11 now 0) (fun k => vget p11.flt.lastC k (0, 0)) p11

/-- The latch of the measurement group (R82): the eleven registers take the most recent update. -/
def latchGroup (p : Polder) : Polder :=
  let p1 := wrAll p ((List.range 11).map fun k => (A.SWG_P + 4 * k, vget p.swg.meas k 0))
  { p1 with swg := { p1.swg with latchAt := p1.swg.measAt } }

end Sys2Proof.Machine
end

