-- ==== Sys2Proof/Machine/Analogue.lean ====
section
/-!
DEFINITION. The analogue front end (spec/07): fast samples and the median filter, the slot frame of the multiplexed converters with its
restarts, flags, plausibility checks, the test DAC and the window comparators.
-/
namespace Sys2Proof.Machine
open Sys2Proof

/-! ### The test DAC (R226, R227) -/

/-- Test DAC code and input of a comparator self-test in progress (R312), otherwise of `AFE_TEST`: the input under test and its code. -/
def testRoute (p : Polder) : Option (Nat × Int) := match p.dike.cmpTest with
  | some c => some (cmpInput p c.cmp, (testLevel p c.cmp c.level).getD 0)
  | none =>
    if fbit p F.AFE_TEST_EN then some (fget p F.AFE_TEST_INPUT, signed 10 (fget p F.AFE_TEST_CODE)) else none

/-- Code c of the test DAC on an input, `none` while the input is connected to its pins. -/
def testCode (p : Polder) (k : Nat) : Option Int := match testRoute p with
  | some (i, c) => if i = k then some c else none
  | none => none

/-- The converters settle (R232). -/
def settling (p : Polder) : Bool := fbit p F.AFE_STAT_SETTLING

/-- An input released from test still carries SUS. -/
def releasing (p : Polder) (k : Nat) : Bool := match p.afe.released with
  | some (i, n) => i == k && n != 0
  | none => false

/-- SUS for reasons of the input's own: under test, just released, or settling. -/
def inputSus (p : Polder) (k : Nat) : Bool := (testCode p k).isSome || releasing p k || settling p

/-- `AFE_STAT.TEST` and `.CARRIER`. -/
def afeShow (p : Polder) : Polder := carrierShow (fputB p F.AFE_STAT_TEST ((testRoute p).isSome || p.afe.released.isSome))

/-- An input leaves test. -/
def testRelease (k : Nat) (p : Polder) : Polder := afeShow (inputFreed k p)

/-- The input of a comparator is back at its pins for good: an output still outside shows in `OUT` from here on (R227). -/
def cmpBack (k : Nat) (p : Polder) : Polder :=
  [0, 1, 2, 3, 4, 5].foldl (fun q j =>
    if cmpInput q j = k && getBit q F.AFE_CMP_STAT_TEST_OUT j then putBit (putBit q F.AFE_CMP_STAT_OUT j true) F.AFE_CMP_STAT_TEST_OUT j false
    else q) p

/-- One slot, or one fast sample, of the released input's converter has passed. -/
def releaseStep (fast mc0 : Bool) (p : Polder) : Polder := match p.afe.released with
  | some (k, n) =>
    let mine := if k < 3 then fast else !fast && (([6, 7, 8, 10].contains k) != mc0)
    if !mine then p
    else if n ≤ 1 then cmpBack k (modAfe (fun a => { a with released := none }) p)
    else modAfe (fun a => { a with released := some (k, n - 1) }) p
  | none => p

/-- Entry to a regime that switches releases the routing and ends RUN_INPUT_TEST; a comparator self-test in progress ends without a result (R228;
DESIGN CHOICE for the self-test: notes/assumptions/21.md). -/
def testAbort (p : Polder) : Polder :=
  let p1 := match testRoute p with
    | some (k, _) => evt F.AFE_EVT_TEST_ABORT (testRelease k (fput { p with dike := { p.dike with cmpTest := none } } F.AFE_TEST_EN 0))
    | none => p
  let p2 := if p.dike.cmpTest.isSome then endSelfTest p1 else p1
  match p2.afe.test with
  | some x => replyTo (modAfe (fun a => { a with test := none }) p2) x.cmd (bare Status.state)
  | none => p2

/-! ### Samples and flags (R220 to R222) -/

/-- Code and over-range of a sample: `ovr` says that the input lies beyond full scale; `gain` is the converter's code per test DAC step. -/
def convert (p : Polder) (k : Nat) (gain raw : Int) (ovr : Bool) : Int × Bool := match testCode p k with
  | some c => (clampI (-32768) 32767 (gain * c), decide (gain = 128 ∧ (256 < c ∨ c < -256)))
  | none => (if ovr then (if raw < 0 then -32768 else 32767) else clampI (-32768) 32767 raw, ovr)

/-- The flag spans of stream k in both paths from a flagged input sample on (R242). -/
def markStream (now k flag : Nat) (p : Polder) : Polder :=
  let w := vget p.flt.resp k 0
  let c := now + spanFs (bitsOf w 3 0)
  let m := now + spanFs (bitsOf w 7 4)
  let f := p.flt
  match flag with
  | 2 => { p with flt := { f with ovrC := vset f.ovrC k c, ovrM := vset f.ovrM k m } }
  | 1 => { p with flt := { f with susC := vset f.susC k c, susM := vset f.susM k m } }
  | _ => p

/-- A delivered sample of the input under test, once its level has waited 10 µs, is one of the 64 that are averaged (R229). -/
def testSample (now k : Nat) (code : Int) (flag : Nat) (p : Polder) : Polder := match p.afe.test with
  | some x =>
    if x.inputs.head? = some k ∧ x.since + 10 * us ≤ now ∧ x.count < 64 then
      modAfe (fun a => { a with test := some { x with count := x.count + 1, sum := x.sum + code, ovrs := x.ovrs + bn (flag == 2) } }) p
    else p
  | none => p

/-- A sample of an input with its flag in `AFE_RAWk`, and over-range in `AFE_OVR` (R220). -/
def showSample (now k : Nat) (code : Int) (flag : Nat) (p' : Polder) : Polder :=
  let p := testSample now k code flag p'
  let p1 := fput (fput p (F.AFE_RAW_CODE k) (codeOf 16 code)) (F.AFE_RAW_FLAG k) flag
  if flag = 2 then evt F.AFE_EVT_OVR (evtBit F.AFE_OVR_AIN k p1) else p1

/-! ### Plausibility checks (R223 to R225) -/

/-- Consecutive failures and passes after a result. -/
def runs (bad : Bool) (f s : Nat) : Nat × Nat := if bad then (f + 1, 0) else (0, s + 1)

/-- The fault of a check after `n` results in a row (R225). -/
def faultAfter (n : Nat) (r : Nat × Nat) (old : Bool) : Bool := if n ≤ r.1 then true else if n ≤ r.2 then false else old

/-- The shared-slot check on the two samples of VDP (R223 to R225). -/
def sharedCheck (c0 c1 : Int × Nat) (p : Polder) : Polder :=
  if fbit p F.AFE_CTRL_PLS_EN && c0.2 == 0 && c1.2 == 0 then
    let d := c0.1 - c1.1
    let bad := decide ((rdN p A.AFE_PLS_TOL : Int) < absI d)
    let r := runs bad p.afe.plsFail p.afe.plsPass
    let p1 := wr (modAfe (fun a => { a with plsFail := r.1, plsPass := r.2 }) p) A.AFE_PLS_DIFF (wordI d)
    let p2 := if bad then evt F.AFE_EVT_PLS_FAIL (addSat p1 A.AFE_PLS_CNT 1) else p1
    fputB p2 F.AFE_STAT_PLS_FAULT (faultAfter (rdN p A.AFE_PLS_N) r (fbit p F.AFE_STAT_PLS_FAULT))
  else p

/-- The shadow check of fast channel k, on its code and the code of MC1. -/
def shadowCheck (k : Nat) (fc mc : Int) (flag : Nat) (p : Polder) : Polder :=
  if fbit p F.AFE_CTRL_SHD_EN && flag == 0 then
    let d := fc - 2 * mc
    let bad := decide ((rdN p A.AFE_SHD_TOL : Int) < absI d)
    let r := runs bad (vget p.afe.shdFail k 0) (vget p.afe.shdPass k 0)
    let fault := vset p.afe.shdFault k (faultAfter (rdN p A.AFE_PLS_N) r (vget p.afe.shdFault k false))
    let p1 := wr (modAfe (fun a => { a with shdFail := vset a.shdFail k r.1, shdPass := vset a.shdPass k r.2, shdFault := fault }) p)
      A.AFE_SHD_DIFF (wordI d)
    let p2 := if bad then evt F.AFE_EVT_SHD_FAIL (addSat p1 A.AFE_SHD_CNT 1) else p1
    fputB p2 F.AFE_STAT_SHD_FAULT (fault.toList.any id)
  else p

/-! ### Fast samples (R214, R222, R241) -/

/-- Median of three codes, with the flag of the sample that gave it; the newest among equals. Before three samples exist, the newest. -/
def median3 (l : List (Int × Nat)) : Int × Nat := match l with
  | a :: b :: c :: _ =>
    if (b.1 ≤ a.1 ∧ a.1 ≤ c.1) ∨ (c.1 ≤ a.1 ∧ a.1 ≤ b.1) then a
    else if (a.1 ≤ b.1 ∧ b.1 ≤ c.1) ∨ (c.1 ≤ b.1 ∧ b.1 ≤ a.1) then b else c
  | a :: _ => a
  | [] => (0, 0)

/-- One fast converter's sample. -/
def fastOne (now k : Nat) (raw : Int) (ovr : Bool) (p : Polder) : Polder :=
  let c := convert p k 128 raw ovr
  let flag := if c.2 then 2 else bn (inputSus p k)
  modAfe (fun a => { a with fast := vset a.fast k (((c.1, flag) :: vget a.fast k []).take 3) }) (showSample now k c.1 flag p)

/-- A shadow sample taken between two fast samples is checked against the line through them (R223). -/
def shadowLate (now : Nat) (p : Polder) : Polder := match p.afe.shadow with
  | some (at', k, mc, flag) =>
    let l := vget p.afe.fast k []
    let new := l.headD (0, 0)
    let old := l.getD 1 new
    let t0 := p.afe.fastAt
    let fc := if now = at' then new.1
      else old.1 + openDiv (rounding p) 3000 ((new.1 - old.1) * ((at' - t0 : Nat) : Int)) (max 1 (now - t0))
    let clean := flag + new.2 + (if now = at' then 0 else old.2)
    shadowCheck k fc mc clean (drawn (modAfe (fun a => { a with shadow := none }) p))
  | none => p

/-- The three fast converters sample at `at'`; the medians go to the controller and, with the flags of the samples that gave them, to path C (R241). -/
def fastConvert (at' : Nat) (x : FastIn) (p : Polder) : Polder :=
  let p1 := fastOne at' 2 x.codes.2.2 (x.ovr.testBit 2) (fastOne at' 1 x.codes.2.1 (x.ovr.testBit 1) (fastOne at' 0 x.codes.1 (x.ovr.testBit 0) p))
  let p2 := modAfe (fun a => { a with fastAt := at', fastNext := at' + smpFs p }) (afeShow (releaseStep true false (shadowLate at' p1)))
  let med := fun k => median3 (vget p2.afe.fast k [])
  let peak := [0, 1, 2].foldl (fun a k => max a (absI (puOf p2 k ((med k).1 * 65536)))) p2.flt.peak
  embSample at' [med 0, med 1, med 2] (modFlt (fun f => { f with peak := peak }) ([0, 1, 2].foldl (fun q k => markStream at' k (med k).2 q) p2))

/-- FAST_SAMPLE (R214): the next sample on the grid of 50 or 100 ns, when its instant has come, and the tap FAST of the capture engine. -/
def fastSample (now : Nat) (x : FastIn) (p : Polder) : Polder :=
  if now < p.afe.fastNext then p
  else
  let tn := p.afe.fastNext
  let p3 := fastConvert tn x p
  let med := [0, 1, 2].map fun k => median3 (vget p3.afe.fast k [])
  let useMed := cfgGet (capRec p3) F.CAP_CTRL_MED == 1
  let at' := presented p3 tn - (if useMed then ((smpFs p3 : Nat) : Int) else 0)
  capSample now 0 at' (fun k =>
    let v := if useMed then med.getD k (0, 0) else (vget p3.afe.fast k []).headD (0, 0)
    (v.1 * 65536, v.2)) p3

/-! ### The slot frame (R215 to R219) -/

/-- Input that MC0 converts in a slot. -/
def slotMc0 (odd : Bool) (slot : Nat) : Nat := match slot % 4, slot with
  | 1, _ => 3 | 2, _ => 4 | 3, _ => 5
  | _, 4 => if odd then 13 else 11
  | _, 12 => if odd then 14 else 12
  | _, _ => 9

/-- Input that MC1 converts in a slot: VDP in slot 0, the shadow input in slot 8. -/
def slotMc1 (turn slot : Nat) : Nat := match slot % 4, slot with
  | 1, _ => 6 | 2, _ => 7 | 3, _ => 8
  | _, 0 => 9
  | _, 8 => turn
  | _, _ => 10

/-- Instants after `s` at which the carrier next gives an event that `TRIG` selects. -/
def frameEvents (p : Polder) (s : Nat) : List Nat := match p.mdl.carrier with
  | some b =>
    let per := p.mdl.per.inForce * bin
    let t := fget p F.AFE_CTRL_TRIG
    (if t = 2 ∨ t = 3 then [b + per / 2] else []).filter (fun e => s < e) ++ (if t = 1 ∨ t = 3 then [b + per] else []).filter (fun e => s < e)
  | none => []

/-- A restart that no later carrier event replaces lies less than 100 ns after the sampling instant `s`, where no frame begins in any case, so that the
slot is abandoned (R218, R219). -/
def abandoned (p : Polder) (s : Nat) : Bool :=
  let ev := frameEvents p s
  let stands := fun (t : Nat) (later : List Nat) => decide (s < t ∧ t < s + 100 * ns) && !later.any (fun e => decide (e ≤ t)) &&
    t != p.afe.frameAt + 1600 * ns
  p.afe.restart.any (fun t => stands t ev) || ev.head?.any fun e => stands (restartAt p e) (ev.drop 1)

/-- A selected event of the carrier at or before an instant is still to come: it replaces a restart that is pending there (R219). -/
def eventDue (p : Polder) (t : Nat) : Bool := match p.mdl.carrier with
  | some b =>
    let per := p.mdl.per.inForce * bin
    let trig := fget p F.AFE_CTRL_TRIG
    ((trig == 2 || trig == 3) && p.mdl.centreDue && decide (b + per / 2 ≤ t)) || ((trig == 1 || trig == 3) && decide (b + per ≤ t))
  | none => false

/-- FRAME_RESTART (R218): slot 0 of a new frame samples at the restart instant, unless a frame begins there in any case. A restart that an event of its own
instant replaces does not take place (R219). -/
def frameRestart (now : Nat) (p : Polder) : Polder := match p.afe.restart with
  | some t =>
    if t ≤ now ∧ eventDue p t = false then
      let q := modAfe (fun a => { a with restart := none }) p
      if !carrierOn p || p.afe.frameAt == t || p.afe.frameAt + 1600 * ns == t then q
      else modAfe (fun a => { a with frameAt := t, slot := 0 }) q
    else p
  | none => p

/-- One sample of a multiplexed converter: code and flag, with the SUS window of its converter (R221). -/
def mcSample (p : Polder) (k sus : Nat) (raw : Int) (ovr : Bool) : (Int × Nat) × Nat :=
  let c := convert p k 64 raw ovr
  let flag := if c.2 then 2 else bn (decide (sus ≠ 0) || inputSus p k)
  ((c.1, flag), if c.2 then 2 else sus - 1)

/-- A delivered sample of a multiplexed converter. -/
def deliver (now k : Nat) (c : Int × Nat) (p : Polder) : Polder := markStream now k c.2 (showSample now k c.1 c.2 p)

/-- Slot 0 advances the frame and turn counters (R215). -/
def frameCount (p : Polder) : Polder :=
  let t := fget p F.AFE_STAT_SHDTURN
  fput (fput p F.AFE_STAT_FRAME (fget p F.AFE_STAT_FRAME + 1)) F.AFE_STAT_SHDTURN (if t = 2 then 0 else t + 1)

/-- The samples of one slot (R215, R220 to R224). -/
def slotConvert (now : Nat) (x : SlotIn) (p0 : Polder) : Polder :=
  let s := p0.afe.slot
  let p := if s = 0 then frameCount p0 else p0
  let i0 := slotMc0 (fget p F.AFE_STAT_FRAME % 2 == 1) s
  let i1 := slotMc1 (fget p F.AFE_STAT_SHDTURN) s
  let a := mcSample p i0 p.afe.sus0 x.mc0 (x.ovr.testBit 0)
  let b := mcSample p i1 p.afe.sus1 x.mc1 (x.ovr.testBit 1)
  let sus := (p.afe.sus0 != 0 && a.1.2 == 1) || (p.afe.sus1 != 0 && b.1.2 == 1)
  let p1 := evtIf sus F.AFE_EVT_SUS (modAfe (fun f => { f with sus0 := a.2, sus1 := b.2 }) p)
  let p2 := deliver now i0 a.1 p1
  let p3 := if s = 0 ∨ s = 8 then
      (if b.1.2 = 2 then evt F.AFE_EVT_OVR (evtBit F.AFE_OVR_AIN i1 p2) else p2)
    else deliver now i1 b.1 p2
  let p4 := if s = 0 then sharedCheck a.1 b.1 p3
    else if s = 8 then
      let q := modAfe (fun f => { f with shadow := some (now, i1, b.1.1, b.1.2) }) p3
      if q.afe.fastAt = now then shadowLate now q else q
    else p3
  releaseStep false false (releaseStep false true p4)

/-- SLOT_SAMPLE: the next slot of the frame, when its instant has come. A restart at or before that instant comes first (R218). A slot that a restart abandons
delivers nothing, and counts neither for the SUS window of R221 nor for the release of R227: both count slots that convert (DESIGN CHOICE,
notes/assumptions/21.md). -/
def slotSample (now : Nat) (x : SlotIn) (p' : Polder) : Polder :=
  let p := frameRestart (min now (p'.afe.frameAt + p'.afe.slot * 100 * ns)) p'
  let s := p.afe.slot
  let at' := p.afe.frameAt + s * 100 * ns
  if at' ≤ now then
    let p1 := if abandoned p at' then evt F.AFE_EVT_ABORT (if s = 0 then frameCount p else p) else slotConvert at' x p
    afeShow (modAfe (fun a => if s = 15 then { a with frameAt := a.frameAt + 1600 * ns, slot := 0 } else { a with slot := s + 1 }) p1)
  else p

/-! ### Window comparators (R230 to R232) -/

/-- An edge on a link that `BREF` selects blanks the comparator still. -/
def edgeBlanks (now k : Nat) (p : Polder) : Bool :=
  let b := fget p (F.AFE_CMP_CFG_BREF k)
  [0, 1, 2, 3].any fun n => (b == 5 || b == n + 1) && edgeBlank p n now (fget p (F.AFE_CMP_CFG_BLANK k))

/-- The output of a comparator is blanked. -/
def cmpBlanked (now k : Nat) (p : Polder) : Bool :=
  edgeBlanks now k p || decide (now < (vget p.afe.cmps k {}).maskEnd) || settling p

/-- The comparator is masked from the Dike: its input is under test or has just left it (R227). -/
def cmpMasked (k : Nat) (p : Polder) : Bool := (testCode p (cmpInput p k)).isSome || releasing p (cmpInput p k)

/-- A comparator acts: enabled, outside after its filter, neither blanked nor masked (R231); `AFE_EVT.CMPk` sets when it starts to. -/
def cmpFollow (now k : Nat) (p : Polder) : Polder :=
  let c := vget p.afe.cmps k {}
  let on' := fbit p (F.AFE_CMP_CFG_EN k) && getBit p F.AFE_CMP_STAT_OUT k && !cmpBlanked now k p && !cmpMasked k p
  let p1 := modAfe (fun a => { a with cmps := vset a.cmps k { c with acting := on' } }) p
  if on' && !c.acting then evtBit F.AFE_EVT_OVR (8 + k) p1 else p1

/-- Every comparator after any change. -/
def cmpSettle (now : Nat) (p : Polder) : Polder := [0, 1, 2, 3, 4, 5].foldl (fun q k => cmpFollow now k q) p

/-- One threshold step of a comparator's input in 1/16 µV (R230). -/
def cmpStep (p : Polder) (k : Nat) : Int := if cmpInput p k ≤ 2 then 156250 else 312500

/-- The voltage that a comparator watches in 1/16 µV: that of the test DAC on an input under test (R226), otherwise that at the pins, in µV. -/
def cmpVolt (p : Polder) (k : Nat) (uv : Int) : Int := match testCode p (cmpInput p k) with
  | some c => 78125 * c
  | none => 16 * uv

/-- COMPARATOR_ACTED: the input lies above `HI` or below `LO` and has done so for `FILT` cycles of the `cycles` it has lasted (R230, R231). An input under
test drives `TEST_OUT` alone (R227). -/
def cmpOutside (now k : Nat) (uv : Int) (cycles : Nat) (p : Polder) : Polder :=
  let v := cmpVolt p k uv
  if fget p (F.AFE_CMP_CFG_FILT k) ≤ cycles ∧ (cmpHi p k * cmpStep p k < v ∨ v < cmpLo p k * cmpStep p k) then
    if cmpMasked k p then putBit p F.AFE_CMP_STAT_TEST_OUT k true else cmpFollow now k (putBit p F.AFE_CMP_STAT_OUT k true)
  else p

/-- COMPARATOR_INSIDE: the input has returned inside its window by the hysteresis of one step (R230), here from both thresholds at once, whichever it had
crossed; with `HI` one step above `LO` the output never returns (DESIGN CHOICE, notes/assumptions/21.md). -/
def cmpInside (now k : Nat) (uv : Int) (p : Polder) : Polder :=
  let v := cmpVolt p k uv
  if v ≤ (cmpHi p k - 1) * cmpStep p k ∧ (cmpLo p k + 1) * cmpStep p k ≤ v then
    cmpFollow now k (putBit (putBit p F.AFE_CMP_STAT_OUT k false) F.AFE_CMP_STAT_TEST_OUT k false)
  else p

/-- A committed change of a comparator's thresholds masks it for 1 µs. -/
def cmpMask (now k : Nat) (p : Polder) : Polder :=
  modAfe (fun a => { a with cmps := vmod a.cmps k fun c => { c with maskEnd := now + us } }) p

/-- The converters settle for 50 µs from `since` on (R232). The frames and the fast samples run from the first CLK_P cycle of `now` on (DESIGN CHOICE where
settling began before: notes/assumptions/21.md). -/
def settleStart (now since : Nat) (p : Polder) : Polder :=
  let g := (now + cyc - 1) / cyc * cyc
  fputB (modAfe (fun a => { a with
    settleEnd := since + 50 * us, frameAt := g, slot := 0, restart := none, shadow := none, fastAt := g, fastNext := g }) p)
    F.AFE_STAT_SETTLING (decide (now < since + 50 * us))

/-- SETTLING_END. -/
def settlingEnd (now : Nat) (p : Polder) : Polder :=
  if settling p && decide (p.afe.settleEnd ≤ now) then cmpSettle now (fput p F.AFE_STAT_SETTLING 0) else p

end Sys2Proof.Machine
end

