-- ==== Sys2Proof/Machine/Filter.lean ====
section
/-!
DEFINITION. What follows the filter chain (spec/08): path M outputs, metering blocks, the latch of the metered set, sampled values handed to
the Hall, and the capture pins.
-/
namespace Sys2Proof.Machine
open Sys2Proof

/-- PATH_M_OUTPUT: the lanes of the resampler and the tap M of the capture engine take the outputs (R237, R253). Path M runs in FULL only. -/
def pathM (now : Nat) (x : PathIn) (p : Polder) : Polder :=
  let val := fun (k : Nat) => (x.vals.getD k 0, flagM p now k)
  if mPath p then p else capSample now 2 (tapInstant p now 4) val (laneFeed now (streamDelay p 4) val p)

/-! ### Sampled values (R251, R252) -/

/-- √(2/3) with 60 fractional bits. -/
abbrev root23 : Int := 941356466589540094

/-- A lane S value in 1 mA or 10 mV (R50, R251). -/
def svValue (p : Polder) (stream : Nat) (v : Int) : Int :=
  let d : Int := 1152921504606846976
  if stream < 3 then
    roundDiv (v * (rd p A.SWG_SCL_I).toInt * 2 * root23 * (rdN p A.SWG_SBASE : Int) * 1000000) ((d * d).toNat * rdN p A.SWG_VBASE)
  else roundDiv (v * (rd p A.SWG_SCL_V).toInt * 2 * root23 * (rdN p A.SWG_VBASE : Int)) ((d * d).toNat * 10)

/-- Quality of a flag (R252), in the bit places of the 9-2LE profile: validity in bits 1:0, overflow 2, failure 6, inaccurate 9, test 11, derived 13
(PRESUMED, notes/assumptions/30.md). -/
def svQuality (flag : Nat) (test derived : Bool) : Nat :=
  (match flag with
    | 1 => 0x203 | 2 => 0x005 | 3 => 0x041 | _ => 0) + 0x800 * bn test + 0x2000 * bn derived

/-- The heads of the six inputs of lane S from the latest of their numbers on: samples without their five companions are passed over. -/
def svAligned (l : LaneState) : Vector (List (Nat × Int × Nat)) 6 :=
  let i := l.sv.toList.foldl (fun a x => max a ((x.head?.map (·.1)).getD 0)) 0
  l.sv.map fun x => x.dropWhile fun e => decide (e.1 < i)

/-- The number k of the instant of the oldest complete sample: the count of instants, from 0 at each second of presented time (R251, R252). -/
def svNumber (p : Polder) (l : Vector (List (Nat × Int × Nat)) 6) : Nat := ((vget l 0 []).headD (0, 0, 0)).1 % (80 * fnomHz p)

/-- SAMPLED_VALUE_INSTANT: the oldest sample of lane S that is complete is handed to the Hall (R251, R252). -/
def svInstant (now k : Nat) (p : Polder) : Polder :=
  let l := svAligned p.flt.lane
  if fbit p F.FLT_CTRL_SV_EN && l.toList.all (fun x => !x.isEmpty) && svNumber p l == k then
    let h := fun (j : Nat) => (vget l j []).headD (0, 0, 0)
    let s := [0, 1, 2, 6, 7, 8]
    let v := fun (j : Nat) => svValue p (s.getD j 0) (h j).2.1
    let fl := fun (j : Nat) => (h j).2.2
    let te := fun (j : Nat) => (testCode p (s.getD j 0)).isSome
    let one := fun (j : Nat) => (v j, svQuality (fl j) (te j) false)
    let sum := fun (a b c : Nat) => (v a + v b + v c, svQuality (max (fl a) (max (fl b) (fl c))) (te a || te b || te c) true)
    let o : SvOut := ⟨k, if quality p = 3 then 2 else 0, [one 0, one 1, one 2, sum 0 1 2, one 3, one 4, one 5, sum 3 4 5], now⟩
    modFlt (fun f => { f with svOut := f.svOut ++ [o], lane := { f.lane with sv := l.map fun x => x.drop 1 } }) (fput p F.FLT_STAT_SVRUN 1)
  else p

/-! ### Capture pins (R257, R259) -/

/-- CAPTURE_TIME_TRIGGER: presented time has reached `CAP_TT_*`. -/
def capTime (now : Nat) (p : Polder) : Polder :=
  let r := capRec p
  let t := fsOf (cfgN r A.CAP_TT_SL + 4294967296 * (cfgN r A.CAP_TT_SH % 65536)) (cfgN r A.CAP_TT_NS)
  if t ≤ presented p now then capSource now 6 t p else p

/-- x_FIRE changes at a polder that does not run: the level alone. -/
def fireLevel (falling : Bool) (p : Polder) : Polder := if p.cap.driving then p else fputB p F.CAP_STAT_FIREPIN (!falling)

/-- FIRE_EDGE: a qualified edge at the pin (R258 to R260). It shows in `FIREPIN`, and a unit that drives the line does nothing else with it. -/
def fireEdge (now : Nat) (falling : Bool) (p : Polder) : Polder :=
  if p.cap.driving then p
  else
    let p1 := fireLevel falling p
    let role := fget p F.CAP_CTRL_ROLE
    if falling then
      let r := capRec p
      let p2 := galSource 5 p1
      if cfgGet r F.CAP_CTRL_FIRE_IN = 1 ∨ cfgGet r F.CAP_CTRL_ROLE = 2 then capTrigger now 1 (tdcStamp p2 now) p2 else p2
    else if role = 2 ∧ (capState p = Rec.idle ∨ capState p = Rec.done) then capArm p1
    else p1

/-- FIRE_PULSE_END: the unit's own pulse is over. The line rises when no unit holds it, which an edge at the pin shows (R259). -/
def firePulseEnd (now : Nat) (p : Polder) : Polder := match p.cap.pulseEnd with
  | some t => if t ≤ now then capHold { p with cap := { p.cap with pulseEnd := none } } else p
  | none => p

/-- ARM_EDGE: a rising edge of x_ARM arms with `ARMPIN` at 1. -/
def armEdge (p : Polder) : Polder := if fbit p F.CAP_CTRL_ARMPIN then capArm p else p

end Sys2Proof.Machine
end

