-- ==== Sys2Proof/Machine/Regime.lean ====
section
/-!
DEFINITION. The regime machine (spec/03): transitions, breaker and pre-charge orders, starts, the back-off wait, ride-through, stopping, entry
to TRIPPED and SAFE, and its evaluation once in a CE cycle.
-/
namespace Sys2Proof.Machine
open Sys2Proof

def modRgm (f : RegState → RegState) (p : Polder) : Polder := { p with rgm := f p.rgm }

/-- Present phase within the regime (`PCT_REGIME.PHASE`). -/
def rgPhase (p : Polder) : Nat := fget p F.PCT_REGIME_PHASE

/-- `PCT_REGIME` as the payload of a reply. -/
def regPayload (p : Polder) : List Byte := wBytes (rd p A.PCT_REGIME)

/-- The machine runs: the polder is awake and its CE runs its main loop. -/
def ceRuns (p : Polder) : Bool := awake p && fget p F.PCT_ENG_CE_STATE == 0

/-! ### Breaker and pre-charge outputs (R92, R93) -/

def brkEn (p : Polder) : Bool := fbit p F.PCT_REGCFG_BRK_EN
def auxEn (p : Polder) : Bool := fbit p F.PCT_REGCFG_AUX_EN

/-- The breaker output, the pre-charge output driven as ordered, where it is enabled. -/
def driveBrk (now : Nat) (high : Bool) (p : Polder) : Polder :=
  let m := 2 ^ fget p F.PCT_REGCFG_BRK_DO
  if brkEn p then order now m (if high then m else 0) p else p
def drivePre (now : Nat) (high : Bool) (p : Polder) : Polder :=
  let m := 2 ^ fget p F.PCT_REGCFG_PRE_DO
  if fbit p F.PCT_REGCFG_PRE_EN then order now m (if high then m else 0) p else p

/-- The command that waits for a breaker order, if any, is answered. -/
def brkReply (o : BrkOrder) (status : Nat) (p : Polder) : Polder := match o.cmd with
  | some c => replyTo p c ⟨status, 0, regPayload p⟩
  | none => p

/-- An order whose position `BRK` shows is confirmed. -/
def brkConfirm (p : Polder) : Polder := match p.rgm.order with
  | some o => if fbit p F.PCT_REGIME_BRK = o.close then brkReply o Status.ok (modRgm (fun g => { g with order := none }) p) else p
  | none => p

/-- An order for the breaker (R93). It replaces an order that waits, whose command ends with STATE (R118). Without an auxiliary input `BRK`
follows an open at once. -/
def brkDo (now : Nat) (close : Bool) (cmd : Option CmdRef) (p : Polder) : Polder :=
  let p1 := match p.rgm.order with
    | some o => brkReply o Status.state p
    | none => p
  let shut := close && !auxEn p && !fbit p F.PCT_REGIME_BRK
  let p2 := driveBrk now close (modRgm (fun g => { g with
    brkCmd := close, byCmd := close && cmd.isSome, order := some ⟨close, now, cmd⟩,
    closeAt := if shut then some (now + tookN p A.SWG_BRK_TCLOSE * ms) else none }) p1)
  brkConfirm (if auxEn p || close then p2 else fput p2 F.PCT_REGIME_BRK 0)

/-- The breaker is released where it was commanded or seen closed. -/
def brkRelease (now : Nat) (p : Polder) : Polder :=
  if p.rgm.brkCmd || fbit p F.PCT_REGIME_BRK then brkDo now false none p else driveBrk now false p

/-- BREAKER_CLOSE_DELAY: `BRK` follows a close after `SWG_BRK_TCLOSE`. -/
def brkFollow (now : Nat) (p : Polder) : Polder := match p.rgm.closeAt with
  | some t => if t ≤ now then brkConfirm (fput (modRgm (fun g => { g with closeAt := none }) p) F.PCT_REGIME_BRK 1) else p
  | none => p

/-- An open command stands. -/
def openOrdered (p : Polder) : Bool := match p.rgm.order with
  | some o => !o.close
  | none => false

/-- `BRK` from the auxiliary input after its filter (R93), with the loss of R112. -/
def brkSee (p : Polder) : Polder :=
  if auxEn p then
    let v := getBit p F.FIO_DI_FILT (fget p F.PCT_REGCFG_AUX_DI) != fbit p F.PCT_REGCFG_AUX_POL
    let lost := regime p == Rg.forming && fbit p F.PCT_REGIME_BRK && !v && !openOrdered p
    let p1 := fputB p F.PCT_REGIME_BRK v
    brkConfirm (if lost then evt F.PCT_REGEVT_BRK_LOST (modRgm (fun g => { g with brkLost := true }) p1) else p1)
  else p

/-- A commit of `PCT_REGCFG` (R92, R93): an output that is assigned no more, or to another role, turns off; the one that is assigned now takes the
commanded state. Without an auxiliary input `BRK` shows the commanded state again, a close that has not been confirmed after its delay. -/
def regcfgCommit (now : Nat) (old p : Polder) : Polder :=
  let moved := fun (en dO : Fld) => fbit p en != fbit old en || fget p dO != fget old dO
  let brk := moved F.PCT_REGCFG_BRK_EN F.PCT_REGCFG_BRK_DO
  let pre := moved F.PCT_REGCFG_PRE_EN F.PCT_REGCFG_PRE_DO
  let off := fun (b : Bool) (en dO : Fld) (q : Polder) => if b && fbit old en then order now (2 ^ fget old dO) 0 q else q
  let p1 := off pre F.PCT_REGCFG_PRE_EN F.PCT_REGCFG_PRE_DO (off brk F.PCT_REGCFG_BRK_EN F.PCT_REGCFG_BRK_DO p)
  let p2 := if brk then driveBrk now p1.rgm.brkCmd p1 else p1
  let p3 := if pre then drivePre now (regime p2 == Rg.precharge) p2 else p2
  if auxEn p then brkSee (modRgm (fun g => { g with closeAt := none }) p3)
  else if !auxEn old then p3
  else match p3.rgm.order with
    | some o =>
      if o.close then modRgm (fun g => { g with closeAt := some (o.since + tookN p A.SWG_BRK_TCLOSE * ms) }) (fput p3 F.PCT_REGIME_BRK 0)
      else brkConfirm (fput p3 F.PCT_REGIME_BRK 0)
    | none => fputB p3 F.PCT_REGIME_BRK p3.rgm.brkCmd

/-! ### Transitions (R86) -/

/-- A transition: codes, its presented time, RIDE ended, log record and notification. The pre-charge output turns off on leaving PRECHARGE. `old` is
the regime left, OFF at the end of a boot (R85). -/
def setRegimeFrom (now old new phase : Nat) (p : Polder) : Polder :=
  let p1 := if old = Rg.precharge then drivePre now false p else p
  let p2 := evtIf (fbit p1 F.PCT_REGIME_RIDE) F.PCT_REGEVT_RIDE_OUT p1
  let p3 := fput (fput (fput (fput p2 F.PCT_REGIME_CUR new) F.PCT_REGIME_PREV old) F.PCT_REGIME_PHASE phase) F.PCT_REGIME_RIDE 0
  let p4 := wrTime p3 A.PCT_REGT_NS A.PCT_REGT_SL A.PCT_REGT_SH (presented p3 now)
  let p5 := modRgm (fun g => { g with
    enteredAt := now, rideOutSince := none, rideInSince := none, settleSince := none, syncSince := none, collSince := none,
    backoff := false, waitEnd := none, rampEnd := none, opening := none, brkLost := false }) p4
  notifyRegime now (logRec now 0x01 (new * 16 + old) Sev.info (wBytes (rd p5 A.PCT_REGEVT) ++ wBytes (rd p5 A.PCT_REGIME)) p5)

def setRegime (now new phase : Nat) (p : Polder) : Polder := setRegimeFrom now (regime p) new phase p

/-- The regime to which the machine falls back: READY with the DC link ready and the links trained, otherwise STANDBY (R111, R114). -/
def restRegime (p : Polder) : Nat := if fbit p F.PCT_REGIME_DCOK && linksTrained p then Rg.ready else Rg.standby

/-- Switching stops with the sequenced safe state (R171). -/
def stopSwitching (now : Nat) (p : Polder) : Polder := if fbit p F.MOD_STAT_RUN then enterSafe now p else p

/-- Entry to STANDBY (R88): outputs released. -/
def toStandby (now : Nat) (p : Polder) : Polder := brkRelease now (setRegime now Rg.standby 0 p)

/-- An entry to PRECHARGE while the safe pulse block is RELEASED asks for the enable-path test (R351). -/
def enableTest (p : Polder) : Polder :=
  if fget p F.SPB_STAT_STATE = 2 then { p with spb := { p.spb with testWanted := p.spb.test.isNone } } else p

/-- Entry to PRECHARGE (R94). -/
def toPrecharge (now : Nat) (p : Polder) : Polder := enableTest (prechargeTests now (drivePre now true (setRegime now Rg.precharge 0 p)))

/-- The states of the law are set before its next update (R95, R101); switching starts (R170). -/
def lawStart (now : Nat) (p : Polder) : Polder :=
  let p1 := testAbort p
  modStart now { p1 with swg := { p1.swg with init := true } }

/-- Entry to ENERGISE (R95, R96): the breaker output is on from here, whoever closed the breaker (R91); a breaker found closed confirms at once. -/
def toEnergise (now : Nat) (back : Bool) (p : Polder) : Polder :=
  let brk := brkEn p && !fbit p F.PCT_REGIME_BRK
  let p1 := lawStart now (setRegime now Rg.energise (if brk then 0 else 1) p)
  let p2 := stairShow now 2 (setStair (modRgm (fun g => { g with backoff := back }) p1) 2 { tgt := (stair p 2).tgt })
  if brkEn p then brkDo now true none p2 else p2

/-- Entry to SYNC (R101). The breaker output is off until the close command (R91), a close that waits unconfirmed with it. -/
def toSync (now : Nat) (p : Polder) : Polder := lawStart now (setRegime now Rg.sync 0 (brkRelease now p))

/-- SYNC ends in FORMING with the presets of the stairs (R103). -/
def syncDone (now : Nat) (p : Polder) : Polder :=
  let p1 := setRegime now Rg.forming 0 p
  let w := p.swg
  let set := fun (k : Nat) (v : Int) (q : Polder) => stairShow now k (setStair q k { out := v, tgt := (stair q k).tgt })
  set 2 w.ed (set 1 w.qf (set 0 w.pf (set 3 w.w p1)))

/-- A stop (R111): `mode` 0 SHED, 1 DE-ENERGISE. A stop from ENERGISE de-energises; a stop from SYNC before the close command starts blocked. -/
def toStopping (now mode : Nat) (p : Polder) : Polder :=
  let old := regime p
  let blocked := old == Rg.sync && rgPhase p == 0
  let p1 := setRegime now Rg.stopping (if blocked then 2 else 0) (if old = Rg.forming then lrnStopSave now p else p)
  let p2 := modRgm (fun g => { g with stopMode := if old = Rg.energise then 1 else mode }) p1
  if blocked then stopSwitching now p2 else p2

/-- A regime request leaves the list with its outcome: REQ_REFUSED for a refusal, and the answer of REQUEST_REGIME (R118). -/
def endReq (q : RegReq) (ok : Bool) (p : Polder) : Polder :=
  let p1 := evtIf (!ok) F.PCT_REGEVT_REQ_REFUSED p
  match q.cmd with
  | some c =>
    let a : Reply := ⟨if ok then Status.ok else Status.state, 0, regPayload p1⟩
    if q.timed then done p1 c a else replyTo p1 c a
  | none => p1

/-- Every request that waits is discarded (R87, R113). -/
def refuseAll (p : Polder) : Polder :=
  p.rgm.reqs.foldl (fun q r => endReq r false q) (modRgm (fun g => { g with reqs := [] }) p)

/-- Entry to TRIPPED or SAFE (R79, R113). -/
def toStopped (now new : Nat) (p : Polder) : Polder :=
  let p1 := evtIf (fbit p F.SWG_STAT_RUN) F.SWG_EVT_TRIPSTOP p
  let p2 := stopSwitching now (setRegime now new 0 p1)
  refuseAll (if fbit p F.PCT_REGCFG_TRIP_BRK then brkRelease now p2 else p2)

/-! ### Back-off (R98 to R100) -/

/-- Window W of attempt n, in ms. -/
def boWindow (p : Polder) (n : Nat) : Nat := min (tookN p A.SWG_BO_BASE * 2 ^ (n - 1)) (8 * tookN p A.SWG_BO_BASE)

/-- Attempt n: the wait starts. -/
def startWait (now n : Nat) (p : Polder) : Polder :=
  let w := Config.backoffDraw p.id p.free % max 1 (boWindow p n)
  fput (fput (modRgm (fun g => { g with waitEnd := some (now + w * ms) }) (drawn p)) F.PCT_REGIME_PHASE 1) F.PCT_REGIME_TRY n

/-- A back-off wait is in progress. -/
def inWait (p : Polder) : Bool := regime p == Rg.ready && rgPhase p == 1

/-- The wait ends without a start. -/
def endWait (p : Polder) : Polder := fput (modRgm (fun g => { g with waitEnd := none }) p) F.PCT_REGIME_PHASE 0

/-! ### Requests (R88) -/

/-- A STOP request in the regime in force: `none` where R88 refuses it. -/
def stopRequest (now mode : Nat) (p : Polder) : Option Polder :=
  if [Rg.energise, Rg.sync, Rg.forming].contains (regime p) then some (toStopping now mode p)
  else if inWait p then some (endWait p)
  else none

/-- A START request in READY. Outside a back-off wait `PCT_REGIME.TRY` is 0 from the START of another mode on, and otherwise keeps its last attempt
(DESIGN CHOICE, notes/assumptions/12.md). -/
def startRequest (now mode : Nat) (p : Polder) : Option Polder :=
  let dead := fbit p F.PCT_REGIME_DEAD
  let brk := fbit p F.PCT_REGIME_BRK
  let q := fput p F.PCT_REGIME_TRY 0
  if regime p ≠ Rg.ready then none
  else match mode with
    | 0 => if dead then some (toEnergise now false q) else none
    | 1 => if !dead && !brk then some (toSync now q) else none
    | 2 => if dead then some (toEnergise now false q) else if !brk then some (toSync now q) else none
    | _ => if brk then none else some (startWait now 1 p)

/-- A request against the table of R88. -/
def request (now target mode : Nat) (p : Polder) : Option Polder := match target, mode with
  | 2, 0 => if regime p = Rg.precharge ∨ regime p = Rg.ready then some (toStandby now p) else none
  | 3, 0 => if regime p = Rg.standby then some (toPrecharge now p) else none
  | 5, m => startRequest now m p
  | 8, m => if m ≤ 1 then stopRequest now m p else none
  | _, _ => none

/-- The oldest request that waits. -/
def requestStep (now : Nat) (p : Polder) : Polder := match p.rgm.reqs with
  | r :: l =>
    let p1 := modRgm (fun g => { g with reqs := l }) p
    match request now r.target r.mode p1 with
    | some q => endReq r true q
    | none => endReq r false p1
  | [] => p

/-! ### Riding through (R104 to R109) -/

/-- Value of an envelope at a ride time in fs, in 0.001 pu as a fraction; before the first point its voltage holds. -/
def envelopeAt (t : Nat) : Nat → Nat → List (Nat × Nat) → Int × Nat
  | _, v0, [] => (v0, 1)
  | t0, v0, (t1, v1) :: l =>
    if t < t1 * ms then
      let d := t1 * ms - t0 * ms
      ((v0 : Int) * d + ((v1 : Int) - v0) * ((t - t0 * ms : Nat) : Int), d)
    else envelopeAt t t1 v1 l

/-- The points of an envelope table. -/
def envelopePoints (p : Polder) (base : Nat → Nat) : List (Nat × Nat) :=
  (List.range 16).map fun k => (bitsOf (took p (base k)) 31 16, bitsOf (took p (base k)) 15 0)

def envelopeNow (p : Polder) (base : Nat → Nat) (now : Nat) : Int × Nat :=
  let l := envelopePoints p base
  envelopeAt (now - p.rgm.rideFrom) 0 ((l.headD (0, 0)).2) l

/-- The ride voltage lies outside an envelope (R106). -/
def envelopeExit (now : Nat) (p : Polder) : Bool :=
  let uv := envelopeNow p A.SWG_UVENV now
  let ov := envelopeNow p A.SWG_OVENV now
  let v := p.swg.vr * 1000
  fbit p F.PCT_REGIME_RIDE && (decide (v * (uv.2 : Nat) < uv.1 * one60) || decide (ov.1 * one60 < v * (ov.2 : Nat)))

/-- The power angle is beyond its limit (R109). -/
def slipExit (p : Polder) : Bool :=
  let w := p.swg
  let th : Int := ((w.acc - BitVec.ofInt 64 w.inc).toNat / 4294967296 : Nat)
  decide (one60 ≤ 5 * w.u1 ∧ (tookN p A.SWG_SLIP_ANG : Int) < absI (signedPhase ((w.u1arg : Int) - th)))

/-- Leaving FORMING by an envelope or a slip: through trip bit 8, or STOPPING in mode SHED. -/
def formingExit (now act : Nat) (p : Polder) : Polder :=
  if act = 1 then toStopping now 0 p
  else
    let p1 := swTrip now p
    if latched p1 ≠ 0 then toStopped now Rg.tripped p1 else p1

/-! ### Conditions of the machine itself -/

/-- Stopping makes progress (R111). -/
def stopStep (now : Nat) (p : Polder) : Bool × Polder := match rgPhase p with
  | 0 => match p.rgm.rampEnd with
    | none =>
      let small := fun (x : Int) => decide (absI x * 50 ≤ one60)
      let calm := small p.swg.pf && small p.swg.qf &&
        (p.rgm.stopMode == 0 || ((stair p 2).out == 0 && fbit p F.PCT_REGIME_DEAD))
      (false, if calm then modRgm (fun g => { g with rampEnd := some now }) p else p)
    | some t =>
      if t + 10 * us ≤ now then
        let p1 := brkDo now false none (fput p F.PCT_REGIME_PHASE 1)
        (false, modRgm (fun g => { g with opening := some now, order := if brkEn p then g.order else none }) p1)
      else (false, p)
  | 1 =>
    let isOpen := if brkEn p then p.rgm.order.isNone else match p.rgm.opening with
      | some t => decide (t + 10 * us ≤ now)
      | none => true
    (false, if isOpen then stopSwitching now (fput p F.PCT_REGIME_PHASE 2) else p)
  | _ => if p.mdl.sequencing then (false, p) else (true, setRegime now (restRegime p) 0 p)

/-- The back-off wait ends on a live bus (R98). -/
def waitSync (now : Nat) (p : Polder) : Bool × Polder :=
  if inWait p && !fbit p F.PCT_REGIME_DEAD then (true, toSync now p) else (false, p)

/-- Conditions that an evaluation finds in the regime in force (rank 4 of R87), and whether one of them made a transition. In FORMING the loss of the
breaker comes before the envelope and the envelope before the slip, and only the first sets its event (DESIGN CHOICE, notes/assumptions/12.md). -/
def ownStep (now : Nat) (p : Polder) : Bool × Polder :=
  let g := regime p
  if g = Rg.precharge then
    if fbit p F.PCT_REGIME_DCOK && ready p then (true, setRegime now Rg.ready 0 p) else (false, p)
  else if g = Rg.ready then waitSync now p
  else if g = Rg.energise then
    let at' := (stair p 2).out == (stair p 2).tgt
    match rgPhase p with
    | 0 => (false, if p.rgm.order.isNone && fbit p F.PCT_REGIME_BRK then fput p F.PCT_REGIME_PHASE 1 else p)
    | 1 => (false, if at' then fput p F.PCT_REGIME_PHASE 2 else p)
    | _ => (false, if at' then p else fput p F.PCT_REGIME_PHASE 1)
  else if g = Rg.sync then
    if rgPhase p = 1 ∧ p.rgm.order.isNone = true ∧ fbit p F.PCT_REGIME_BRK = true then (true, syncDone now p) else (false, p)
  else if g = Rg.forming then
    if p.rgm.brkLost then (true, brkDo now false none (toStopping now 0 p))
    else if envelopeExit now p then (true, formingExit now (bn (tookBit p F.SWG_RIDE_CFG_ENV_ACT)) (evt F.PCT_REGEVT_ENVELOPE p))
    else if slipExit p then (true, formingExit now (bn (tookBit p F.SWG_RIDE_CFG_SLIP_ACT)) (evt F.PCT_REGEVT_SLIP p))
    else (false, p)
  else if g = Rg.stopping then stopStep now p
  else (false, p)

/-- No cause of rank 1 to 3 stands: a condition of the machine itself may act. -/
def ownFree (p : Polder) : Bool := ceRuns p && !spbDemands p && latched p == 0 && p.rgm.dkhStop.isNone

/-- An instant since which a condition holds lies at least `d` back. -/
def heldFor (now d : Nat) (s : Option Nat) : Bool := match s with
  | some t => decide (t + d ≤ now)
  | none => false

/-! ### Events of the machine with steps of their own -/

/-- PRECHARGE_TIMEOUT (R90). -/
def prechargeTimeout (now : Nat) (p : Polder) : Polder :=
  if ownFree p && regime p == Rg.precharge && decide (p.rgm.enteredAt + tookN p A.SWG_PRE_TMO * ms ≤ now) then
    refuseAll (toStandby now (evt F.PCT_REGEVT_PRE_TMO p))
  else p

/-- ENERGISE_TIMEOUT (R97). -/
def energiseTimeout (now : Nat) (p : Polder) : Polder :=
  if ownFree p && regime p == Rg.energise && decide (p.rgm.enteredAt + tookN p A.SWG_EN_TMO * ms ≤ now) then
    refuseAll (toStopping now 1 (evt F.PCT_REGEVT_EN_FAIL p))
  else p

/-- ENERGISE_COMPLETE (R97). -/
def energiseComplete (now : Nat) (p : Polder) : Polder :=
  if ownFree p && regime p == Rg.energise && heldFor now (20 * ms) p.rgm.settleSince then refuseAll (setRegime now Rg.forming 0 p) else p

/-- SYNC_TIMEOUT (R90). -/
def syncTimeout (now : Nat) (p : Polder) : Polder :=
  if ownFree p && regime p == Rg.sync && rgPhase p == 0 && decide (p.rgm.enteredAt + tookN p A.SWG_SYNC_TMO * ms ≤ now) then
    refuseAll (stopSwitching now (setRegime now Rg.ready 0 (evt F.PCT_REGEVT_SYNC_TMO p)))
  else p

/-- CLOSE_COMMAND (R102). -/
def closeCommand (now : Nat) (p : Polder) : Polder :=
  if ownFree p && regime p == Rg.sync && rgPhase p == 0 && heldFor now (tookN p A.SWG_SYNC_DWELL * ms) p.rgm.syncSince then
    brkDo now true none (fput p F.PCT_REGIME_PHASE 1)
  else p

/-- BRK_TIMEOUT (R93): a failed close turns the output off and returns the polder to READY, unless a cause of a higher rank decides (R87); a failed open
leaves the sequence running. -/
def brkTimeout (now : Nat) (p : Polder) : Polder := match p.rgm.order with
  | some o =>
    if ceRuns p && decide (o.since + fget p F.PCT_REGCFG_BRK_TMO * ms ≤ now) then
      let p1 := evt F.PCT_REGEVT_BRK_FAIL (modRgm (fun g => { g with order := none }) p)
      let p2 := match o.cmd with
        | some c => replyTo p1 c (bare Status.timeout)
        | none => p1
      if o.close then
        let p3 := driveBrk now false (modRgm (fun g => { g with brkCmd := false, closeAt := none }) p2)
        if (regime p = Rg.energise ∨ regime p = Rg.sync) ∧ ownFree p = true then refuseAll (stopSwitching now (setRegime now Rg.ready 0 p3)) else p3
      else p2
    else p
  | none => p

/-- BACKOFF_WAIT_END (R98). -/
def waitOver (now : Nat) (p : Polder) : Polder :=
  if ownFree p && inWait p && heldFor now 0 p.rgm.waitEnd then
    if fbit p F.PCT_REGIME_DEAD then refuseAll (toEnergise now true p) else refuseAll (toSync now p)
  else p

/-- COLLISION (R99). -/
def collision (now : Nat) (p : Polder) : Polder :=
  if ownFree p && regime p == Rg.energise && heldFor now ms p.rgm.collSince then
    let n := fget p F.PCT_REGIME_TRY
    let p1 := evt F.PCT_REGEVT_COLLISION p
    let p2 := { p1 with swg := { p1.swg with irefD := 0, irefQ := 0, i2refD := 0, i2refQ := 0 } }
    let p3 := setRegime now Rg.ready 0 (brkDo now false none (stopSwitching now p2))
    refuseAll (if n < tookN p A.SWG_BO_TRIES then startWait now (n + 1) p3 else evt F.PCT_REGEVT_BACKOFF_FAIL p3)
  else p

/-! ### One evaluation (R86, R87) -/

/-- TRIPPED or SAFE is left (R114): in READY and STANDBY the breaker output is off, unless `BREAKER` closed it and READY follows (R91). -/
def leaveStopped (now : Nat) (p : Polder) : Polder :=
  let p1 := setRegime now (restRegime p) 0 p
  if regime p1 = Rg.ready ∧ p.rgm.byCmd = true then p1 else brkRelease now p1

/-- What falls due at an instant without a condition that an evaluation finds: the time limits, the completion of ENERGISE, the failed close, the end of the
back-off wait and the collision (rank 4 of R87). The first in this order that leaves the regime decides (DESIGN CHOICE, notes/assumptions/12.md). -/
def dueStep (now : Nat) (p : Polder) : Bool × Polder :=
  [prechargeTimeout, energiseTimeout, energiseComplete, syncTimeout, brkTimeout, waitOver, collision].foldl
    (fun x f => if x.1 then x else (regime (f now x.2) != regime x.2, f now x.2)) (false, p)

/-- Rank 4 of R87: what has fallen due, then the conditions that the evaluation finds. -/
def ownRank (now : Nat) (p : Polder) : Bool × Polder :=
  let x := dueStep now p
  if x.1 then x else ownStep now x.2

/-- The causes of rank 1 to 4 in their order (R87, R113, R114, R462), and whether one of them made a transition. -/
def causeStep (now : Nat) (p : Polder) : Bool × Polder :=
  let g := regime p
  if spbDemands p then if g = Rg.safe then (false, p) else (true, toStopped now Rg.safe p)
  else if latched p ≠ 0 then if g = Rg.tripped then (false, p) else (true, toStopped now Rg.tripped p)
  else if g = Rg.tripped ∨ g = Rg.safe then (true, leaveStopped now p)
  else
    let p1 := modRgm (fun r => { r with dkhStop := none }) p
    match p.rgm.dkhStop with
    | some m => match stopRequest now m p1 with
      | some q => (true, q)
      | none => ownRank now p1
    | none => ownRank now p1

/-- REGIME_EVALUATION (R86, R87). -/
def regimeEval (now : Nat) (p : Polder) : Polder :=
  if ceRuns p then
    let x := causeStep now (brkConfirm p)
    linkKicks now (if x.1 then refuseAll x.2 else requestStep now x.2)
  else p

/-! ### Events of the bus and of the ride -/

/-- DEAD_BUS_CHANGE (R89, R98). -/
def deadChange (now : Nat) (p : Polder) : Polder :=
  if ceRuns p then
    let p1 := if heldFor now (2 * ms) p.rgm.belowSince then fput p F.PCT_REGIME_DEAD 1
      else if heldFor now (2 * ms) p.rgm.aboveSince then fput p F.PCT_REGIME_DEAD 0 else p
    if ownFree p1 then
      let x := waitSync now p1
      if x.1 then refuseAll x.2 else x.2
    else p1
  else p

/-- RIDE_IN (R104, R105). -/
def rideIn (now : Nat) (p : Polder) : Polder :=
  if ownFree p && regime p == Rg.forming && !fbit p F.PCT_REGIME_RIDE && heldFor now (tookN p A.SWG_RIDE_TDET * us) p.rgm.rideOutSince then
    let from' := p.rgm.rideOutSince.getD now
    let p1 := modRgm (fun g => { g with rideFrom := from' }) (fput p F.PCT_REGIME_RIDE 1)
    evtSel now Ev.rideIn F.PCT_REGEVT_RIDE_IN (wr p1 A.SWG_RIDE_T (wordN ((now - from') / ms)))
  else p

/-- RIDE_OUT (R104). -/
def rideOut (now : Nat) (p : Polder) : Polder :=
  if ownFree p && fbit p F.PCT_REGIME_RIDE && heldFor now (tookN p A.SWG_RIDE_TREC * ms) p.rgm.rideInSince then
    evt F.PCT_REGEVT_RIDE_OUT (fput p F.PCT_REGIME_RIDE 0)
  else p

/-- STOP_TMO (R111). -/
def stopTimeout (now : Nat) (p : Polder) : Polder :=
  if ownFree p && regime p == Rg.stopping && rgPhase p == 0 && p.rgm.rampEnd.isNone &&
      decide (p.rgm.enteredAt + tookN p A.SWG_STOP_TMO * ms ≤ now) then
    evt F.PCT_REGEVT_STOP_TMO (modRgm (fun g => { g with rampEnd := some now }) p)
  else p

/-! ### The command BREAKER (R118) -/

/-- BREAKER: the status of a refusal, or the order given. -/
def breakerCmd (now byte : Nat) (c : CmdRef) (p : Polder) : Nat × Polder :=
  if 1 < byte then (Status.range, p)
  else if !brkEn p then (Status.state, p)
  else if byte = 1 ∧ ¬ (regime p = Rg.ready ∧ fbit p F.PCT_REGIME_DEAD = true ∧ inWait p = false) then (Status.state, p)
  else (Status.ok, brkDo now (byte == 1) (some c) p)

end Sys2Proof.Machine
end

