-- ==== Sys2Proof/Machine/Engines.lean ====
section
/-!
DEFINITION. Engines, mailbox queues and lock registers (spec/15): pushes and pops with tags, discards at resets, locks, watchdogs, halts.
-/
namespace Sys2Proof.Machine
open Sys2Proof

def modEng (f : EngState → EngState) (p : Polder) : Polder := { p with eng := f p.eng }

/-! ### Mailbox queues (R428 to R433) -/

/-- Sender ID and receiver ID of a queue. -/
def mbxSender (q : Nat) : Nat := [3, 2, 2, 1, 4, 2].getD q 0
def mbxReceiver (q : Nat) : Nat := [2, 3, 1, 2, 2, 4].getD q 0

def mbxQueue (p : Polder) (q : Nat) : List MbxWord := vget p.eng.queues q []

/-- Epoch of a sender ID; words written on behalf of the Movia monitor carry the SE's. -/
def epochOf (p : Polder) (id : Nat) : Nat := match id with
  | 1 => p.eng.epochCE
  | 3 => p.eng.epochHall
  | 4 => p.eng.epochDkh
  | _ => p.eng.epochSE

/-- `MBX_EPOCH`. -/
def epochWord (p : Polder) : Word :=
  wordN (p.eng.epochDkh % 16 * 4096 + p.eng.epochHall % 16 * 256 + p.eng.epochSE % 16 * 16 + p.eng.epochCE % 16)

/-- Head word's tag as `MBX_TAGq` shows it. -/
def tagWord (p : Polder) (q : Nat) : Word := match mbxQueue p q with
  | w :: _ => wordN w.tag.toNat
  | [] => 0

/-- The head word's epoch differs from its sender's. -/
def mbxStale (p : Polder) (q : Nat) : Bool := match mbxQueue p q with
  | w :: _ => w.tag.toNat / 16 != epochOf p (mbxSender q) % 16
  | [] => false

/-- `MBX_STATq`. -/
def mbxStat (p : Polder) (q : Nat) : Word :=
  withBits (withBits (rd p (A.MBX_STAT q)) 31 31 (bn (mbxStale p q))) 3 0 (mbxQueue p q).length

/-- What the present cycle has brought a queue so far. -/
def mbxCycle (now q : Nat) (p : Polder) : MbxCycle :=
  let x := vget p.eng.traffic q {}
  if x.at' = now / cyc then x else { at' := now / cyc }

/-- A queue's cycle record. -/
def mbxNote (q : Nat) (x : MbxCycle) (p : Polder) : Polder := modEng (fun e => { e with traffic := vset e.traffic q x }) p

/-- A push with the sender ID `id` in its tag (R429, R430). In one cycle a pop acts before a push: `EMPTY` does not set then (R431). A word pushed in the
cycle in which the receiver's reset begins is discarded with the others (R432). -/
def mbxPush (now q id : Nat) (w : Word) (p : Polder) : Polder :=
  let l := mbxQueue p q
  let x := mbxCycle now q p
  let m : MbxWord := ⟨w, BitVec.ofNat 8 (epochOf p id % 16 * 16 + id % 16)⟩
  if x.reset then evt (F.MBX_STAT_DISC q) (fput p (F.MBX_STAT_DCOUNT q) (min 8 (fget p (F.MBX_STAT_DCOUNT q) + 1)))
  else if 8 ≤ l.length then
    evt (F.MBX_STAT_FULLWR q) (mbxNote q { x with refused := some (m, x.refused.isNone && !fbit p (F.MBX_STAT_FULLWR q)) } p)
  else
    let p1 := if x.emptied then fput p (F.MBX_STAT_EMPTY q) 0 else p
    mbxNote q { x with fresh := x.fresh || l.isEmpty && !x.emptied, emptied := false } (modEng (fun e => { e with
      queues := vset e.queues q (l ++ [m]), fullSince := if l.length = 7 then vset e.fullSince q (some now) else e.fullSince }) p1)

/-- Words of stale messages that the Grennal firmware discards in queues 2 and 3 are counted as they are popped. -/
def staleCount (q : Nat) (p : Polder) : Polder :=
  if (q = 2 ∨ q = 3) ∧ mbxStale p q = true then modEng (fun e => { e with stale := vmod e.stale q (· + 1) }) p else p

/-- The firmware logs the count once no stale word stands at the head any more (R433). The record is one of source Engine, which R481 gives the counts of
discarded words, with no bit of `PCT_ENGEVT` (DESIGN CHOICE, notes/assumptions/37.md). -/
def staleLog (now q : Nat) (p : Polder) : Polder :=
  let n := vget p.eng.stale q 0
  if n = 0 ∨ mbxStale p q = true then p
  else logRec now 0x03 0 Sev.fault (leBytes 1 0 ++ leBytes 2 n) (modEng (fun e => { e with stale := vset e.stale q 0 }) p)

/-- A pop by the receiver: the word, 0 when the queue is empty. In one cycle it acts before a push: it does not see a word pushed into the empty queue in its
own cycle, and it makes room for the word that the full queue has refused in it (R431). -/
def mbxPop (now q : Nat) (p : Polder) : Word × Polder :=
  let x := mbxCycle now q p
  match mbxQueue p q with
  | [] => (0, p)
  | w :: l =>
    if x.fresh && l.isEmpty then (0, p)
    else
      let late := (x.refused.map (·.1)).toList
      let p1 := modEng (fun e => { e with
        queues := vset e.queues q (l ++ late), fullSince := vset e.fullSince q (if late.isEmpty then none else some now) }) (staleCount q p)
      let p2 := if x.refused.any (·.2) then fput p1 (F.MBX_STAT_FULLWR q) 0 else p1
      let empty := l.isEmpty && late.isEmpty
      (w.data, evtIf empty (F.MBX_STAT_EMPTY q)
        (mbxNote q { x with refused := none, emptied := empty && !fbit p (F.MBX_STAT_EMPTY q), fresh := false } (staleLog now q p2)))

/-- MAILBOX_STUCK: full for 1 ms without a pop (R430); true when it is. -/
def mbxStuck (now q : Nat) (p : Polder) : Bool × Polder := match vget p.eng.fullSince q none with
  | some t => if t + ms ≤ now then (true, evt (F.MBX_STAT_STUCK q) p) else (false, p)
  | none => (false, p)

/-- A receiver resets: every word queued for it is discarded (R432). `DCOUNT` is the count of the last such reset, 0 where none waited. -/
def mbxDiscard (now id : Nat) (p : Polder) : Polder :=
  ((List.range 6).filter fun q => mbxReceiver q == id).foldl (fun x q =>
    let n := (mbxQueue x q).length
    let y := fput (modEng (fun e => { e with queues := vset e.queues q [], fullSince := vset e.fullSince q none }) x) (F.MBX_STAT_DCOUNT q) n
    evtIf (n != 0) (F.MBX_STAT_DISC q) (mbxNote q { at' := now / cyc, reset := true } y)) p

/-! ### Locks (R434 to R437) -/

def lockOwner (p : Polder) (k : Nat) : Nat := vget p.eng.locks k 0

/-- `MBX_LOCKOWN0` and `MBX_LOCKOWN1`. -/
def lockOwnWord (p : Polder) (j : Nat) : Word :=
  wordN ((List.range 8).foldl (fun a k => a + lockOwner p (8 * j + k) % 16 * 16 ^ k) 0)

/-- Rank of a master at a lock: CE, SE, Dikehouse, Hall bridge, Movia monitor (R435). -/
def lockRank (m : Nat) : Nat := [9, 0, 1, 3, 2, 4].getD m 9

/-- The lock passes to a reader in the cycle of `now`. -/
def lockTake (now m k : Nat) (p : Polder) : Polder :=
  modEng (fun e => { e with locks := vset e.locks k m, lockTook := (now / cyc, k) :: e.lockTook.filter fun x => x.1 == now / cyc }) p

/-- A read that finds the lock held is remembered for its cycle. -/
def lockLose (now m k : Nat) (p : Polder) : Polder :=
  modEng (fun e => { e with lockLost := (now / cyc, k, m) :: e.lockLost.filter fun x => x.1 == now / cyc }) p

/-- A read of a lock: the word, and the acquisition of a free one. A lock that a master of lower rank has acquired in the same cycle, by a row that came
before this one, passes to the master of higher rank (R435); the word that the earlier row has returned stands (notes/assumptions/54.md). -/
def lockRead (now m k : Nat) (p : Polder) : Word × Polder := match lockOwner p k with
  | 0 => (0, lockTake now m k p)
  | o =>
    if o = m then (wordN (0xC0000000 + o % 16), p)
    else if lockRank m < lockRank o ∧ p.eng.lockTook.contains (now / cyc, k) = true then (0, lockLose now o k (lockTake now m k p))
    else (wordN (0x80000000 + o % 16), lockLose now m k p)

/-- The master of highest rank, 0 of none. -/
def lockFirst (l : List Nat) : Nat := l.foldl (fun b m => if lockRank m < lockRank b then m else b) 0

/-- Reads of one lock in one cycle: the one of highest rank acts first, and the others find the lock held. -/
def lockReads (now : Nat) (l : List Nat) (k : Nat) (p : Polder) : Polder :=
  let first := lockFirst l
  if first = 0 then p else (l.filter (· != first)).foldl (fun q m => (lockRead now m k q).2) (lockRead now first k p).2

/-- A write of a lock. The release acts before a read of the same cycle, whichever row comes first (R436). -/
def lockWrite (now m k : Nat) (p : Polder) : Polder :=
  if lockOwner p k = m then
    let next := lockFirst ((p.eng.lockLost.filter fun x => x.1 == now / cyc && x.2.1 == k).map (·.2.2))
    modEng (fun e => { e with lockLost := e.lockLost.filter fun x => x.2.1 != k }) (lockTake now next k p)
  else evt F.MBX_EVT_LOCK_BADREL (wr p A.MBX_LOCKBAD (wordN (m % 16 * 16 + k % 16)))

/-- Locks of a master release by themselves (R437). -/
def lockAuto (m : Nat) (p : Polder) : Polder :=
  if p.eng.locks.toList.contains m then
    evt F.MBX_EVT_LOCK_AUTOREL (modEng (fun e => { e with locks := e.locks.map fun o => if o = m then 0 else o }) p)
  else p

/-! ### The monitor session (R484) -/

def modMon (f : MonState → MonState) (p : Polder) : Polder := { p with mon := f p.mon }

/-- A session is open; its level: 0 LOCKED, 1 VIEW, 2 SERVICE. -/
def monActive (p : Polder) : Bool := fbit p F.PCT_MONSTAT_ACTIVE
def monLevel (p : Polder) : Nat := fget p F.PCT_MONSTAT_LEVEL

/-- The level returns to LOCKED; leaving an unlocked level is recorded (R481, R484). -/
def monLock (now : Nat) (p : Polder) : Polder :=
  let p1 := modMon (fun m => { m with challenge := none, admin := false }) (fput p F.PCT_MONSTAT_LEVEL 0)
  if monLevel p = 0 then p1 else logRec now 0x0B 2 Sev.warn (leBytes 1 0) p1

/-- A session ends: its locks are released (R437). -/
def monEnd (now : Nat) (p : Polder) : Polder :=
  if monActive p then lockAuto 5 (fput (monLock now p) F.PCT_MONSTAT_ACTIVE 0) else p

/-! ### Engine resets and halts (R423 to R427) -/

abbrev Eng.run : Nat := 0
abbrev Eng.halt : Nat := 1
abbrev Eng.reset : Nat := 2
abbrev Eng.loading : Nat := 3

def ceState (p : Polder) : Nat := fget p F.PCT_ENG_CE_STATE
def seState (p : Polder) : Nat := fget p F.PCT_ENG_SE_STATE

/-- Words that an engine's reset discards. -/
def queuedFor (id : Nat) (p : Polder) : Nat :=
  ((List.range 6).filter fun q => mbxReceiver q == id).foldl (fun n q => n + (mbxQueue p q).length) 0

/-- Event bit and record of an engine event: `bit` of `PCT_ENGEVT`, region of an ECC error, words discarded. -/
def engEvent (now bit region words : Nat) (p : Polder) : Polder :=
  logRec now 0x03 (2 ^ bit) Sev.fault (leBytes 1 region ++ leBytes 2 words)
    (marked A.PCT_ENGEVT (wordN (2 ^ bit)) (wr p A.PCT_ENGEVT (rd p A.PCT_ENGEVT ||| wordN (2 ^ bit))))

/-- The CE resets: its data memory is cleared (R425), `reload` with its code (R424). A code memory that is being loaded stays so. Trip bit 8 latches (R476). -/
def ceReset (now bit region : Nat) (reload : Bool) (p : Polder) : Polder :=
  let p1 := engEvent now bit region (queuedFor 1 p) (addSat p A.PCT_CE_RESETS 1)
  let p2 := lockAuto 1 (mbxDiscard now 1 p1)
  let ep := (p.eng.epochCE + 1) % 16
  let p3 := modEng (fun e => { e with epochCE := ep, ceData := [], ceCode := if reload then [] else e.ceCode }) p2
  let st := if reload || ceState p == Eng.loading then Eng.loading else Eng.reset
  swTrip now (fput (fput p3 F.PCT_ENG_CE_STATE st) F.PCT_ENG_CE_EPOCH ep)

/-- Commands that the SE has read and of which it has sent no reply (R427). -/
def openRefs (p : Polder) : List CmdRef :=
  (p.rgm.order.bind (·.cmd)).toList ++ (p.rgm.reqs.filterMap fun r => if r.timed then none else r.cmd) ++
    p.dike.stestCmd.toList ++ p.links.toList.filterMap (·.retrain) ++
    p.links.toList.flatMap (fun l => (l.out.bind (·.cmd)).toList ++ l.waiting.filterMap (·.cmd)) ++
    (p.afe.test.map (·.cmd)).toList ++ p.spb.waiting

/-- The SE forgets them; what the hardware has been asked to do goes on. -/
def dropRefs (p : Polder) : Polder :=
  let p1 := modRgm (fun g => { g with
    order := g.order.map (fun o => { o with cmd := none }), reqs := g.reqs.map (fun r => if r.timed then r else { r with cmd := none }) }) p
  let links := p1.links.map fun l => { l with
    retrain := none, out := l.out.map (fun m => { m with cmd := none }), waiting := l.waiting.map fun m => { m with cmd := none } }
  { p1 with
    links := links, dike := { p1.dike with stestCmd := none }, afe := { p1.afe with test := none }, spb := { p1.spb with waiting := [] },
    boot := { p1.boot with erase := p1.boot.erase.map fun e => (e.1, e.2.1, none) } }

/-- A command that has been answered ACCEPTED_PENDING and whose DONE the SE still owes. -/
def pendingRefs (p : Polder) : List CmdRef := (p.boot.erase.bind (·.2.2)).toList

/-- The SE resets (R424, R425, R427): its data memory is cleared, sluices abort, the commands it has not answered are answered INTERNAL, detail 1, and for
each of them and of those answered ACCEPTED_PENDING it owes a DONE. -/
def seReset (now bit region : Nat) (p : Polder) : Polder :=
  let p1 := engEvent now bit region (queuedFor 2 p) (addSat p A.PCT_SE_RESETS 1)
  let p2 := sluAbortAll now Rsn.reset (lockAuto 2 (mbxDiscard now 2 (monEnd now p1)))
  let refs := openRefs p2
  let p3 := refs.foldl (fun q r => replyTo q r ⟨Status.internal, 1, []⟩) (dropRefs p2)
  let ep := (p.eng.epochSE + 1) % 16
  let p4 := modEng (fun e => { e with epochSE := ep, seData := [], owed := e.owed ++ (refs ++ pendingRefs p2).filter fun r => !e.owed.contains r }) p3
  fput (fput p4 F.PCT_ENG_SE_STATE Eng.reset) F.PCT_ENG_SE_EPOCH ep

/-- The CE has restarted and runs its main loop: within 1 ms from its retained code, within 20 ms after a reload, which the SE carries out from the active
flash slot (R424). `code` is what the slot gives where it is valid: without an SE that runs, or without a valid slot, the CE stays in LOADING. -/
def ceRestarted (code : Option (List Byte)) (p : Polder) : Polder :=
  if ceState p = Eng.reset then fput p F.PCT_ENG_CE_STATE Eng.run
  else if ceState p = Eng.loading ∧ seState p = Eng.run then
    match code with
    | some l => fput (modEng (fun e => { e with ceCode := l }) p) F.PCT_ENG_CE_STATE Eng.run
    | none => p
  else p

/-- The SE has restarted and runs its main loop within 5 ms of its reset (R424). It then sends the DONE notifications it owes (R427). -/
def seRestarted (p : Polder) : Polder :=
  if seState p = Eng.reset then
    p.eng.owed.foldl (fun q r => done q r ⟨Status.internal, 1, []⟩)
      (modEng (fun e => { e with owed := [] }) (fput p F.PCT_ENG_SE_STATE Eng.run))
  else p

/-- The debug port halts an engine that runs (R426); a CE halt makes trip source 12 active. -/
def engHalt (now : Nat) (ce : Bool) (p : Polder) : Polder :=
  if ce then if ceState p = Eng.run then fput (engEvent now 4 0 0 p) F.PCT_ENG_CE_STATE Eng.halt else p
  else if seState p = Eng.run then fput (engEvent now 5 0 0 p) F.PCT_ENG_SE_STATE Eng.halt
  else p

/-- The debug port releases a halted engine, which continues. -/
def engRelease (ce : Bool) (p : Polder) : Polder :=
  if ce then if ceState p = Eng.halt then fput p F.PCT_ENG_CE_STATE Eng.run else p
  else if seState p = Eng.halt then fput p F.PCT_ENG_SE_STATE Eng.run
  else p

/-- Watchdogs run while their engine runs. -/
def ceWatchdog (now : Nat) (p : Polder) : Polder := if ceState p = Eng.run then ceReset now 0 0 false p else p
def seWatchdog (now : Nat) (p : Polder) : Polder := if seState p = Eng.run then seReset now 1 0 p else p

end Sys2Proof.Machine
end

