-- ==== Sys2Proof/Machine/Clock.lean ====
section
/-!
DEFINITION. The clock generator and the time unit (spec/13): loss of lock and relocking, the Hall time bridge, the domains and their servos,
presented time with its steps and slews, its quality, and the PPS pin.
-/
namespace Sys2Proof.Machine
open Sys2Proof

def modClk (f : ClkState → ClkState) (p : Polder) : Polder := { p with clk := f p.clk }
def modTim (f : TimState → TimState) (p : Polder) : Polder := { p with tim := f p.tim }

/-! ### Quality and steps of presented time (R384 to R386) -/

/-- An event of `TIM_EVT`: its record, which carries `TIM_STAT` and a step in ns (R481), and its notification. PPS input edges
are not recorded (DESIGN CHOICE, notes/assumptions/31.md). -/
def timNote (now : Nat) (f : Fld) (step : Int) (p : Polder) : Polder :=
  let p1 := evt f p
  let p2 := if f = F.TIM_EVT_PPS_IN then p1
    else logRec now 5 (2 ^ f.lo) Sev.warn (wBytes (rd p1 A.TIM_STAT) ++ iField 6 step) p1
  notifyTime p2

/-- C in fs at an instant. -/
def corrNow (now : Nat) (p : Polder) : Int := corrAt p (tblAt p.tim now)

/-- C set to a value at an instant. -/
def setCorr (now : Nat) (c : Int) (p : Polder) : Polder := modTim (fun t => { t with corr := c, corrAt := tblAt t now }) p

/-- Presented time steps by setting C to 0 (R386). -/
def stepCorr (now : Nat) (p : Polder) : Polder :=
  let c := corrNow now p
  timNote now F.TIM_EVT_STEP (-c / (ns : Nat)) (setCorr now 0 (modTim (fun t => { t with stepCyc := some (tblAt t now / (cyc : Nat)) }) p))

/-- A step is due at quality `q` (R386). -/
def stepDue (now q : Nat) (p : Polder) : Bool :=
  decide (q ≤ 1) && fbit p F.TIM_CFG_STEP_EN && decide (((rdN p A.TIM_STEPTHR * ns : Nat) : Int) < absI (corrNow now p))

/-- Steps, quality and `TIM_STAT` after a change; `before` is the quality in the cycle before, where C has just been moved by a change or a step
of the active base. -/
def timeUpdate (now : Nat) (before : Option Nat) (p : Polder) : Polder :=
  let p1 := if stepDue now (before.getD (qualityAt p now)) p then stepCorr now p else p
  let q := qualityAt p1 now
  let p2 := fputB (fput p1 F.TIM_STAT_QUAL q) F.TIM_STAT_SLEW (corrNow now p1 != 0)
  if quality p = 3 ∧ q ≠ 3 then timNote now F.TIM_EVT_QUAL_DOWN 0 p2 else p2

/-! ### Active base (R383) -/

/-- The base that R383 makes active; `none` while the present one stays. -/
def newActive (now : Nat) (p : Polder) : Option Nat :=
  let act := fget p F.TIM_STAT_ACT
  let l0 := domState p 0 == 3
  let l1 := domState p 1 == 3
  let back := fbit p F.TIM_CFG_REVERT && decide (rdN p A.TIM_REVERTT * sec ≤ now - p.tim.tb0.lockedAt)
  let want := if act = 1 ∧ l1 then (if l0 && back then 0 else 1) else if l0 then 0 else if l1 then 1 else act
  if want = act then none else some want

/-- The active base changes: C takes the difference, so that presented time stays continuous (R383, R384). -/
def baseSwitch (now n : Nat) (p : Polder) : Polder :=
  let x := tblAt p.tim now
  let was := activeAt p x + corrAt p x
  let p1 := addSat (fput p F.TIM_STAT_ACT n) A.TIM_SWITCHES 1
  timNote now F.TIM_EVT_SWITCH 0 (setCorr now (was - activeAt p1 x) p1)

/-- Choice of the active base, then steps and quality. `moved` says that C has already been moved by a step of the active base in this
cycle, and `q` is the quality before it. -/
def timeSelect (now q : Nat) (moved : Bool) (p : Polder) : Polder := match newActive now p with
  | some n => timeUpdate now (some q) (baseSwitch now n p)
  | none => timeUpdate now (if moved then some q else none) p

/-! ### Domains (R379 to R381) -/

def setDom (n st : Nat) (p : Polder) : Polder := if n = 0 then fput p F.TIM_STAT_DOM0 st else fput p F.TIM_STAT_DOM1 st
def setPort (n v : Nat) (p : Polder) : Polder := if n = 0 then fput p F.TIM_STAT_PORT0 v else fput p F.TIM_STAT_PORT1 v
def domPort (p : Polder) (n : Nat) : Nat := if n = 0 then fget p F.TIM_STAT_PORT0 else fget p F.TIM_STAT_PORT1

/-- A domain takes a state; leaving LOCKED is timed for the holdover. -/
def domTo (now n st : Nat) (p : Polder) : Polder :=
  let b := baseOf p n
  let p1 := if domState p n = 3 ∧ st ≠ 3 then setBase n { b with leftAt := some now } p else p
  setDom n st p1

/-- The domain an enabled domain number belongs to. -/
def domOf (p : Polder) (num : Nat) : Option Nat :=
  [0, 1].find? fun n => domState p n != 0 && fget p (F.TIM_DOMCFG_DOMAIN n) == num

/-- A domain goes LOST (R379). -/
def domLose (now n : Nat) (p : Polder) : Polder :=
  timNote now (if n = 0 then F.TIM_EVT_DOM0_LOST else F.TIM_EVT_DOM1_LOST) 0 (setPort n 0 (domTo now n 4 p))

/-- A domain has heard no valid Sync or Announce from its grandmaster for 3 s. -/
def domSilent (now n : Nat) (p : Polder) : Bool := [2, 3].contains (domState p n) && decide (3 * sec ≤ now - (baseOf p n).lastHeard)

/-- DOMAIN_LOST: no valid Sync or Announce from the selected grandmaster for 3 s (R379). Where the other domain's 3 s end in the same CLK_P cycle both become
LOST in it, and the active base runs on in holdover (R383). -/
def domainLost (now n : Nat) (p : Polder) : Polder :=
  if domSilent now n p then
    let both := domSilent (now / cyc * cyc + (cyc - 1)) (1 - n) p
    timeSelect now (qualityAt p now) false (if both then domLose now (1 - n) (domLose now n p) else domLose now n p)
  else p

/-- What a data set gives for the comparison of two grandmasters, as one number (R380, IEEE 1588-2019): the lowest is best. -/
def annRank (x : AnnounceIn) : Nat :=
  (((((x.prio1.toNat * 256 + x.cls.toNat) * 256 + x.accuracy.toNat) * 65536 + x.variance.toNat) * 256 + x.prio2.toNat) * 2 ^ 64) + x.gm.toNat

/-- The data set `a` is better than `b`. Of one grandmaster, the fewer steps decide and then the identity of the sender, in the order of IEEE 1588-2019, which
R380 names (PRESUMED, notes/assumptions/30.md). -/
def annBetter (a b : AnnSeen) : Bool :=
  if a.gm = b.gm then decide (a.steps < b.steps ∨ (a.steps = b.steps ∧ a.sender < b.sender)) else decide (a.rank < b.rank)

/-- An Announce of a port is current and its clockClass is accepted. -/
def annValid (now cmax : Nat) (a : AnnSeen) : Bool := decide (now - a.at' < 3 * sec ∧ a.cls ≤ cmax)

/-- The port whose Announce carries the better data set, ETH-A on a tie, and its Announce (R380). -/
def bestPort (now cmax : Nat) (b : BaseState) : Option (Nat × AnnSeen) :=
  let f := fun i => match vget b.seen i none with
    | some a => if annValid now cmax a then some (i, a) else none
    | none => none
  match f 0, f 1 with
  | some x, some y => if annBetter y.2 x.2 then some y else some x
  | some x, none => some x
  | none, y => y

/-- The grandmaster of a Announce is selected on a port (R379 to R381). -/
def domSelect (now n port : Nat) (a : AnnSeen) (p : Polder) : Polder :=
  let b := baseOf p n
  let same := b.gm == some a.gm
  let p1 := setPort n (port + 1) p
  if same && [2, 3].contains (domState p n) then p1
  else
    let p2 := domTo now n 2 p1
    let p3 := setBase n { baseOf p2 n with gm := some a.gm, good := 0, bad := 0, lastSync := none } p2
    let p4 := wr (wr p3 (if n = 0 then A.TIM_GM0H else A.TIM_GM1H) (wordN (a.gm / 4294967296)))
      (if n = 0 then A.TIM_GM0L else A.TIM_GM1L) (wordN (a.gm % 4294967296))
    if b.gm.isSome && !same then timNote now (if n = 0 then F.TIM_EVT_GMCHG0 else F.TIM_EVT_GMCHG1) 0 p4 else p4

/-- ANNOUNCE_MESSAGE (R379 to R381). R387 supports logAnnounceInterval 0 alone: one of another interval is discarded (DEDUCED, notes/assumptions/30.md). -/
def announce (now : Nat) (x : AnnounceIn) (p : Polder) : Polder := match domOf p x.domain with
  | none => p
  | some n =>
    if x.interval ≠ 0 then p else
    let q := qualityAt p now
    let b := baseOf p n
    let a : AnnSeen := ⟨annRank x, x.gm.toNat, x.cls.toNat, now, x.steps.toNat, x.sender.toNat⟩
    let p1 := setBase n { b with seen := vset b.seen x.port (some a) } p
    let p2 := if domState p1 n = 4 then setDom n 1 p1 else p1
    match bestPort now (fget p (F.TIM_DOMCFG_CLASSMAX n)) (baseOf p2 n) with
    | some (port, best) =>
      let p3 := domSelect now n port best p2
      let p4 := if x.gm.toNat = best.gm then setBase n { baseOf p3 n with lastHeard := now } p3 else p3
      timeSelect now q false p4
    | none => timeSelect now q false p2

/-! ### The Hall time bridge (R378) -/

/-- TBL as the time-to-digital converter stamps it: bins of 78.125 ps, or cycles on the backup oscillator (R375, R378). -/
def tblStamp (p : Polder) (now : Nat) : Int :=
  let x := tblAt p.tim now
  x - x % ((if onPll p then bin else cyc : Nat) : Int)

/-- HALL_TIME_STROBE. -/
def strobe (now hallNs : Nat) (p : Polder) : Polder :=
  fput (modTim (fun t => { t with strobes := ((hallNs, tblStamp p now) :: t.strobes).take 16, lastStrobe := now, hallGone := false }) p) F.TIM_STAT_HALLOK 1

/-- TBL in fs at a Hall time in ns, on the straight line that fits the strobes best (R378). One strobe gives a line of nominal rate. -/
def hallToTbl (l : List (Nat × Int)) (r : Nat) : Option Int := match l with
  | [] => none
  | (h0, y0) :: _ =>
    let n : Int := (l.length : Nat)
    let pts := l.map fun e => ((e.1 : Int) - h0, e.2 - y0)
    let sx := pts.foldl (fun a e => a + e.1) 0
    let sy := pts.foldl (fun a e => a + e.2) 0
    let sxx := pts.foldl (fun a e => a + e.1 * e.1) 0
    let sxy := pts.foldl (fun a e => a + e.1 * e.2) 0
    let d := n * sxx - sx * sx
    let x : Int := (r : Int) - h0
    if d = 0 then some (y0 + x * (ns : Nat))
    else some (y0 + (sy * d + (n * x - sx) * (n * sxy - sx * sy)) / (n * d))

/-- The instant since which strobes have been missing: that of the last one, and before the first the polder's boot. -/
def strobeSince (p : Polder) : Nat := max p.tim.lastStrobe p.boot.t0

/-- HALL_LOST: strobes missing for 3 s take both domains to LOST, one that is enabled or hears an Announce later too (R378). The event sets once. -/
def hallLost (now : Nat) (p : Polder) : Polder :=
  if 3 * sec ≤ now - strobeSince p then
    let q := qualityAt p now
    let p1 := fput (modTim (fun t => { t with hallGone := true }) p) F.TIM_STAT_HALLOK 0
    let p2 := if p.tim.hallGone then p1 else timNote now F.TIM_EVT_HALL_LOST 0 p1
    timeSelect now q false ([0, 1].foldl (fun a n => if [1, 2, 3].contains (domState a n) then domLose now n a else a) p2)
  else p

/-! ### The servo (R382) -/

/-- A base corrected by `d` fs at an instant, with its rate from then on. -/
def baseMove (now n : Nat) (d : Int) (rate : Int) (p : Polder) : Polder :=
  let x := tblAt p.tim now
  let v := baseAt (baseOf p n) (rdI p (A.TIM_RATE n)) x
  wr (setBase n { baseOf p n with val := v + d, atTbl := x } p) (A.TIM_RATE n) (wordI rate)

/-- States of a domain after a Sync with an offset of `o` ns (R379). -/
def syncLock (now n : Nat) (o : Int) (p : Polder) : Polder :=
  let b := baseOf p n
  let thr : Int := (rdN p A.TIM_GOODTHR : Nat)
  if domState p n = 2 then
    let g := if absI o ≤ thr then b.good + 1 else 0
    if 16 ≤ g then
      modTim (fun t => { t with everLocked := true }) (setDom n 3 (setBase n { b with good := 0, bad := 0, lockedAt := now, leftAt := none } p))
    else setBase n { b with good := g } p
  else
    let k := if 2 * thr < absI o then b.bad + 1 else 0
    if 4 ≤ k then domTo now n 2 (setBase n { b with good := 0, bad := 0 } p) else setBase n { b with bad := k } p

/-- Limit of a rate: 1,000 ppm in 2^-40 (R377). -/
abbrev rateMax : Int := 1099511627

/-- SYNC_MESSAGE (R382): offset, phase and rate of the domain's base. Every correction of the active base counts as a step of it, which C takes
up (R384). -/
def syncMessage (now : Nat) (x : SyncIn) (p : Polder) : Polder := match domOf p x.domain with
  | none => p
  | some n =>
    let b := baseOf p n
    if !([2, 3].contains (domState p n)) || b.gm != some x.gm || domPort p n != x.port + 1 || decide (x.interval < -3 ∨ 0 < x.interval) then p
    else match hallToTbl p.tim.strobes x.rx with
      | none => p
      | some tl =>
        let q := qualityAt p now
        let delay : Int := ((rdN p (A.TIM_PDLY x.port) * ns : Nat) : Int)
        let rate := rdI p (A.TIM_RATE n)
        let ofs := baseAt b rate tl - (x.origin + delay)
        let w := wordFit (A.TIM_OFS n) (roundDiv ofs ns)
        let dt := match b.lastSync with
          | some l => now - l
          | none => 0
        let bw := rdN p A.TIM_SRVBW
        let big := ((rdN p A.TIM_STEPTHR * ns : Nat) : Int) < absI ofs
        let d := if big then -ofs else Config.servoPhase bw ofs rate dt
        let r := if big then rate else clampI (-rateMax) rateMax (Config.servoRate bw ofs rate dt)
        let act := fget p F.TIM_STAT_ACT == n
        let c := corrNow now p
        let p1 := wr (baseMove now n d r p) (A.TIM_OFS n) w
        let p2 := setBase n { baseOf p1 n with lastHeard := now, lastSync := some now } p1
        let p3 := if act then setCorr now (c - d) p2 else p2
        timeSelect now q act (syncLock now n w.toInt p3)

/-- REVERT, HOLDOVER_EXPIRY, CORRECTION_SLEW: what time alone changes (R383 to R385). -/
def timeTick (now : Nat) (p : Polder) : Polder := timeSelect now (qualityAt p now) false p

/-- A commit of `TIM_DOMCFGn`: a domain is enabled, disabled, or given another number (R379). -/
def domCommit (now n : Nat) (old : Polder) (p : Polder) : Polder :=
  let en := fbit p (F.TIM_DOMCFG_EN n)
  if en = fbit old (F.TIM_DOMCFG_EN n) ∧ (!en ∨ fget p (F.TIM_DOMCFG_DOMAIN n) = fget old (F.TIM_DOMCFG_DOMAIN n)) then p
  else
    let q := qualityAt p now
    let p1 := setPort n 0 (domTo now n (bn en) p)
    let p2 := setBase n { baseOf p1 n with gm := none, seen := Vector.replicate 2 none, good := 0, bad := 0, lastSync := none } p1
    timeSelect now q false p2

/-- A commit of `TIM_CFG.SLEW`: C goes on at the new rate. -/
def slewCommit (now : Nat) (old : Polder) (p : Polder) : Polder := setCorr now (corrNow now old) p

/-- PEER_DELAY_MEASUREMENT (R387): port and delay in ns. -/
def peerDelay (port delay : Nat) (p : Polder) : Polder := wr p (A.TIM_PDLY port) (wordN delay)

/-- SET_TIME steps TBL and presented time, which is `x` from then on (R386, R393): of the disciplined bases only one that is active steps, as presented time runs
on it (DEDUCED, notes/assumptions/30.md); another keeps its value. -/
def setTime (now : Nat) (x : Int) (p : Polder) : Polder :=
  let old := presented p now
  let l := tblAt p.tim now
  let d := x - activeAt p l
  let carry := fun (n : Nat) (b : BaseState) =>
    { b with val := baseAt b (rdI p (A.TIM_RATE n)) l + (if fget p F.TIM_STAT_ACT = n then d else 0), atTbl := l + d }
  let p1 := modTim (fun t =>
    { t with
      tbl := l + d
      tblAt := now
      tb0 := carry 0 t.tb0
      tb1 := carry 1 t.tb1
      corr := 0
      corrAt := l + d
      everSet := true
      stepCyc := some ((l + d) / (cyc : Nat))
      strobes := t.strobes.map (fun e => (e.1, e.2 + d)) }) p
  timeUpdate now none (timNote now F.TIM_EVT_STEP ((x - old) / (ns : Nat)) p1)

/-! ### PPS (R389, R390) -/

/-- PPS_OUTPUT at a whole second of presented time: the pin rises at quality of at least `QMIN`, on the PLL. A rise that is due in the cycle of a step is
omitted. -/
def ppsOutput (now : Nat) (p : Polder) : Polder :=
  if fbit p F.TIM_PPSCFG_DIR && onPll p && decide (fget p F.TIM_PPSCFG_QMIN ≤ qualityAt p now) &&
      decide (presented p now % (sec : Nat) ≤ (ns : Nat)) && p.tim.ppsHigh.isNone && !p.tim.stepsIn (tblAt p.tim now / (cyc : Nat)) then
    modTim (fun t => { t with ppsHigh := some now }) p
  else p

/-- PPS_PULSE_END, `WIDTH` ms after the rise. -/
def ppsPulseEnd (now : Nat) (p : Polder) : Polder := match p.tim.ppsHigh with
  | some l => if fget p F.TIM_PPSCFG_WIDTH * ms ≤ now - l then modTim (fun t => { t with ppsHigh := none }) p else p
  | none => p

/-- The level of x_PPS as an output. -/
def ppsLevel (p : Polder) : Bool := p.tim.ppsHigh.isSome

/-- PPS_IN: a rising edge on the input is time-stamped (R390). -/
def ppsIn (now : Nat) (p : Polder) : Polder :=
  if fbit p F.TIM_PPSCFG_DIR then p
  else
    let x := tdcStamp p now
    let r := x % (sec : Nat)
    let e := (if ((sec / 2 : Nat) : Int) < r then r - (sec : Nat) else r) / 1000
    let p1 := wrTime (wr p A.TIM_PPS_FR (wordN (fracOf x))) A.TIM_PPS_NS A.TIM_PPS_SL A.TIM_PPS_SH x
    let fits := decide (-2147483648 ≤ e ∧ e ≤ 2147483647)
    let p2 := if fits then wr p1 A.TIM_PPS_ERR (wordI e) else wr (drawn p1) A.TIM_PPS_ERR (Config.ppsErr p.id p.free)
    timNote now F.TIM_EVT_PPS_IN 0 p2

/-! ### Loss of lock and relocking (R370 to R376) -/

/-- Temperature of the analogue die: as a row of this instant has given it, otherwise a free value (notes/assumptions/30.md). -/
def dieTemp (now : Nat) (p : Polder) : Int := if p.clk.tempAt = some now then p.clk.temp else Config.dieTemp p.id now

/-- A row gives the temperature. -/
def tempSeen (now : Nat) (t : Int) (p : Polder) : Polder := modClk (fun c => { c with temp := t, tempAt := some now }) p

/-- The stored band serves: it was found with the `NINT` in force, and the temperature then and now differ by at most 30 degrees (R371). -/
def bandValid (now : Nat) (p : Polder) : Bool := match p.clk.stored with
  | some (_, nint, t) => nint == fget p F.CLK_CFG_NINT && decide (absI (dieTemp now p - t) ≤ 30)
  | none => false

/-- Events of the clock generator are recorded with `CLK_STAT` (R481). -/
def clkNote (now : Nat) (f : Fld) (p : Polder) : Polder :=
  let p1 := evt f p
  logRec now 4 (2 ^ f.lo) Sev.fault (wBytes (rd p1 A.CLK_STAT)) p1

/-- A lock attempt starts: with the stored band up to three times, then by search (R371, R376). -/
def lockAttempt (now : Nat) (p : Polder) : Polder :=
  let p0 := fputB p F.CLK_STAT_BANDOK (bandValid now p)
  let useStored := !fbit p F.CLK_CFG_SEARCH && bandValid now p && decide (p.clk.storedTries < 3)
  let p1 := modClk (fun c => { c with since := now, storedTries := c.storedTries + bn useStored }) p0
  fput (fput p1 F.CLK_STAT_STATE (if useStored then 1 else 2)) F.CLK_STAT_TRIES (satAdd 4 (fget p F.CLK_STAT_TRIES) 1)

/-- CLK_P switches to the backup oscillator (R374, R375): `keep` keeps `REFOK`. -/
def clockLoss (now : Nat) (keep : Bool) (p : Polder) : Polder :=
  let wasLocked := fbit p F.CLK_STAT_LOCK
  let p1 := fput (fput (fput p F.CLK_STAT_LOCK 0) F.CLK_STAT_SRC 1) F.CLK_STAT_STATE 4
  let p2 := fputB p1 F.CLK_STAT_REFOK (keep && fbit p F.CLK_STAT_REFOK)
  let p3 := if wasLocked then fput p2 F.CLK_STAT_TRIES 0 else p2
  let p4 := modClk (fun c => { c with since := now, calibrating := false, storedTries := 0 }) (addSat p3 A.CLK_LOSSES 1)
  let p5 := modTim (fun t => { t with ppsHigh := none }) (retime now (backupRate p) p4)
  timeUpdate now none (sluAbortAll now Rsn.clock p5)

/-- REFCLK_MISSING: x_REFCLK, which had edges, has none for 150 ns (R374). It is a fault whether or not `REFOK` has set, and during a relock attempt too. -/
def refclkMissing (now : Nat) (p : Polder) : Polder := clkNote now F.CLK_EVT_REFLOSS (clockLoss now false p)

/-- UNLOCK_PLL: the PLL from which CLK_P runs has lost lock (R374). -/
def unlockPll (now : Nat) (p : Polder) : Polder :=
  if onPll p then clkNote now F.CLK_EVT_UNLOCK (clockLoss now false p) else p

/-- A planned relock (R370): as a loss of lock, with `REFOK` kept, and the first attempt at once. -/
def plannedRelock (now : Nat) (p : Polder) : Polder :=
  let p1 := clkNote now F.CLK_EVT_UNLOCK (clockLoss now true p)
  if fbit p1 F.CLK_STAT_REFOK then lockAttempt now p1 else p1

/-- REFOK: 16 good edges (R376). `temp` is the temperature of the analogue die. -/
def refok (now : Nat) (temp : Int) (p : Polder) : Polder :=
  if fbit p F.CLK_STAT_REFOK || onPll p then p
  else lockAttempt now (tempSeen now temp (fput p F.CLK_STAT_REFOK 1))

/-- The clock section of the NV image. -/
def clkSave (now : Nat) (p : Polder) : Polder :=
  nvTouch now 2 p { p.nv.image with clock := some ⟨rd p A.CLK_CFG, rd p A.CLK_FRAC, rd p A.CLK_FREF, p.clk.stored⟩ }

/-- The PLL has locked: CLK_P returns to it (R376), and a band found by search is stored (R371). -/
def pllLocked (now band : Nat) (p : Polder) : Polder :=
  let bySearch := fget p F.CLK_STAT_STATE == 2
  let used := if bySearch then band else match p.clk.stored with
    | some (b, _, _) => b
    | none => band
  let p1 := fput (fput (fput p F.CLK_STAT_SRC 0) F.CLK_STAT_STATE 3) F.CLK_STAT_BAND used
  let p2 := wr (wr p1 A.CLK_LOCKUS (wordN ((now - p.clk.since) / us))) A.CLK_BKFREQ (wordN (365000 + (Config.backupAbove p.id).val))
  let p3 := retime now (pllRate p2) (modClk (fun c => { c with calibrating := true, storedTries := 0 }) p2)
  let p4 := if bySearch then clkNote now F.CLK_EVT_SEARCHED p3 else p3
  let p5 := if bySearch && !fbit p F.CLK_CFG_SEARCH then
      clkSave now (modClk (fun c => { c with stored := some (band % 64, fget p F.CLK_CFG_NINT, c.temp) }) p4)
    else p4
  timeUpdate now none (fputB p5 F.CLK_STAT_BANDOK (bandValid now p5))

/-- PLL_LOCK: the outcome of an attempt, the band it found and the temperature (R371, R376). -/
def pllLock (now : Nat) (ok : Bool) (band : Nat) (temp : Int) (p : Polder) : Polder :=
  if !([1, 2].contains (fget p F.CLK_STAT_STATE)) then p
  else
    let p1 := tempSeen now temp p
    if ok then pllLocked now band p1
    else if fget p F.CLK_STAT_STATE = 1 then lockAttempt now p1
    else fput p1 F.CLK_STAT_STATE 4

/-- BAND_SEARCH_RETRY: every 10 ms while `REFOK` is 1 (R376). -/
def bandSearchRetry (now : Nat) (p : Polder) : Polder :=
  if fget p F.CLK_STAT_STATE = 4 ∧ fbit p F.CLK_STAT_REFOK ∧ 10 * ms ≤ now - p.clk.since then
    lockAttempt now (modClk (fun c => { c with storedTries := 3 }) p)
  else p

/-- CALIBRATION_COMPLETE: the delay lines are calibrated and `LOCK` sets (R376). A first lock since boot sets no `RELOCK` (R369). -/
def calibrationComplete (now : Nat) (p : Polder) : Polder :=
  if p.clk.calibrating then
    let p1 := fput p F.CLK_STAT_LOCK 1
    let p2 := modClk (fun c => { c with calibrating := false, everLocked := true }) p1
    let p3 := if p.clk.everLocked then clkNote now F.CLK_EVT_RELOCK p2 else p2
    timeUpdate now none p3
  else p

/-- A commit of the clock registers (R368, R370): saved, followed, or a planned relock. -/
def clkCommit (now : Nat) (old : Polder) (p : Polder) : Polder :=
  let changed := fget p F.CLK_CFG_NINT != fget old F.CLK_CFG_NINT || fget p F.CLK_CFG_SEARCH != fget old F.CLK_CFG_SEARCH
  let p1 := clkSave now (fputB p F.CLK_STAT_BANDOK (bandValid now p))
  if changed || nJump old p then plannedRelock now p1
  else if onPll p1 && pllN old != pllN p then retime now (pllRate p1) p1
  else p1

end Sys2Proof.Machine
end

