-- ==== Sys2Proof/Machine/Commit.lean ====
section
/-!
DEFINITION. What a write does: the actions of WO registers and of the RW registers that order something, the effects of a commit (R279, R280,
R282, R288), and the direct writes and reads of the masters in a polder window (R25, R35 to R42, R513).
-/
namespace Sys2Proof.Machine
open Sys2Proof

/-! ### Actions -/

/-- `PCT_DKHREQ` acts only on writes by the Dikehouse (R462). -/
def dkhRequest (now : Nat) (v : Word) (p : Polder) : Polder :=
  let p1 := if bitOf v 1 then modRgm (fun r => { r with dkhStop := some (bn (bitOf v 0)) }) p else p
  if bitOf v 2 then swTrip now p1 else p1

/-- The action of a write of bits `v`, under the mask `m`, to a register, by a sender, in CLK_P cycle `c`. Registers that only hold a
value have none. -/
def writeAction (now c id off : Nat) (m v : Word) (p : Polder) : Polder :=
  let w := v &&& m
  if off = A.EMB_CNTCLR then (if bitOf w F.EMB_CNTCLR_CLR.lo then embClear now p else p)
  else if off = A.LRN_CMD then lrnCmd now w p
  else if off = A.GAL_CMD then galCmd w p
  else if off = A.CAP_CMD then capCmd now w p
  else if off = A.DIK_SWTRIP then (if bitOf w 0 then swTrip now p else p)
  else if off = A.DIK_CLR then (dikClear now (bitsOf w 13 0) p).2
  else if off = A.FIO_QPOP then (if bitOf w 0 then queuePop p else p)
  else if off = A.PCT_DKHREQ then (if id = 4 then dkhRequest now w p else p)
  else if off = A.FIO_DOCMD then orders now c [(id, bitsOf m 3 0, bitsOf v 3 0)] p
  else p

/-- Queue of a mailbox data register, lock of a lock register. -/
def dataQueue (off : Nat) : Option Nat := [0, 1, 2, 3, 4, 5].find? fun q => A.MBX_DATA q == off
def lockIndex (off : Nat) : Option Nat := (List.range 16).find? fun k => A.MBX_LOCK k == off

/-- The word of the register holds what is written to it, rather than ordering something. -/
def plainReg (off : Nat) : Bool :=
  !isBuffered off && off != A.FIO_DOCMD && (dataQueue off).isNone && (lockIndex off).isNone

/-! ### A commit (R279 to R282) -/

/-- Stored fields that a commit writes at its instant. Only the SE writes `PCT_HBEAT` (R471). -/
def storeEntries (l : List Entry) (p : Polder) : Polder :=
  l.foldl (fun q e => match polRow e.off with
    | some (r, _) => if plainReg e.off && e.off != A.PCT_HBEAT then wr q e.off (merge (rd q e.off) (e.mask &&& storedMask r) e.val) else q
    | none => q) p

/-- What an entry orders at the commit in cycle `c`: an action, a buffer for the next update unless the CE has written it in the cycle (R284), a mailbox or
lock access of the Hall bridge. -/
def entryAction (now c : Nat) (p : Polder) (e : Entry) : Polder :=
  if isBuffered e.off then (if ceWrote p c e.off then p else { p with mdl := { p.mdl with committed := p.mdl.committed ++ [(e.off, e.mask, e.val)] } })
  else if (dataQueue e.off).isSome then accErr now Kind.unmapped 3 e.off p
  else match lockIndex e.off with
    | some k => lockWrite now 3 k p
    | none => writeAction now c 3 e.off e.mask e.val p

/-- The effect when one of some registers has changed. -/
def onChange (old : Polder) (offs : List Nat) (f : Polder → Polder) (p : Polder) : Polder :=
  if offs.any (fun o => rd p o != rd old o) then f p else p

/-- The input under test changes with `AFE_TEST` (R226, R227). -/
def testCommit (old : Polder) (p : Polder) : Polder := match testRoute old with
  | some (k, _) => if (testCode p k).isNone then testRelease k p else afeShow p
  | none => afeShow p

/-- What a commit changes at once in the blocks that do not wait for an update (R282): `old` is the polder before it. -/
def commitFx (now : Nat) (old : Polder) (p : Polder) : Polder :=
  let p1 := onChange old [A.AFE_TEST] (testCommit old) (onChange old [A.AFE_CTRL] afeShow p)
  let p2 := (List.range 6).foldl (fun q k => onChange old [A.AFE_CMP_THR k] (cmpMask now k) q) p1
  let p4 := [0, 1, 2, 3].foldl (fun q n => onChange old [A.GLK_CFG n] (linkKick now n) q) p2
  let p5 := onChange old [A.PCT_REGCFG] (regcfgCommit now old) p4
  let p6 := if fget p5 F.FLT_CTRL_HSEL != fget old F.FLT_CTRL_HSEL || rd p5 A.FLT_MAVG != rd old A.FLT_MAVG then blockNow p5 else p5
  let p7 := if fbit p6 F.FLT_CTRL_SV_EN then p6 else fput (modLane (fun l => { l with sv := Vector.replicate 6 [] }) p6) F.FLT_STAT_SVRUN 0
  let p8 := if fbit p7 F.SWG_CTRL_ANCHOR_EN && !fbit old F.SWG_CTRL_ANCHOR_EN then fput p7 F.SWG_STAT_ANCHOR_BLK 0 else p7
  let p9 := onChange old [A.CAP_CTRL] capHold p8
  let p11 := onChange old [A.TIM_CFG] (slewCommit now old) p9
  let p12 := [0, 1].foldl (fun q n => onChange old [A.TIM_DOMCFG n] (domCommit now n old) q) p11
  let p13 := onChange old [A.TIM_CFG, A.TIM_GOODTHR, A.TIM_HOLDTMO, A.TIM_REVERTT, A.TIM_STEPTHR] (timeTick now) p12
  let p14 := if fbit p13 F.TIM_PPSCFG_DIR then p13 else modTim (fun t => { t with ppsHigh := none }) p13
  let p15 := if fbit p14 F.PCT_MONCFG_EN then p14 else monEnd now p14
  let p16 := onChange old [A.CLK_CFG, A.CLK_FRAC, A.CLK_FREF] (clkCommit now old) p15
  let p17 := onChange old [A.SPB_CONN] (connCommit now) ((List.range 8).foldl (fun q k => onChange old [A.FIO_DICFG k] (dinRefilter now k old) q) p16)
  onChange old [A.MOD_CTRL] (auxCommit now old) p17

/-- What the CE has written directly in the commit's cycle to registers of the entries stands over them (R284). -/
def ceStands (c : Nat) (l : List Entry) (old p : Polder) : Polder :=
  (old.cyc.standing c).foldl (fun q w => if l.any (fun e => e.off == w.2.1) then wr q w.2.1 (merge (rd q w.2.1) w.2.2.1 w.2.2.2) else q) p

/-- A write of the monitor has lost against a commit: a record says so (R487). -/
def monLost (now off : Nat) (v : Word) (p : Polder) : Polder :=
  logRec now 0x0B 5 Sev.warn (leBytes 4 (0x40000000 + (p.id.num - 1) * 16777216 + off) ++ wBytes v) p

/-- The writes of the monitor to registers of the entries in the commit's cycle have lost. -/
def monBeaten (now c : Nat) (l : List Entry) (old p : Polder) : Polder :=
  (old.cyc.beaten c).foldl (fun q w => if l.any (fun e => e.off == w.2.1) then monLost now w.2.1 w.2.2.2 q else q) p

/-- An ARM that a timed CAPTURE_CONTROL has staged is ignored at its commit (R205, R253, R262). -/
def armIgnored (c : CmdRef) (p : Polder) : Bool := c.opcode == Op.captureControl && (capState p == Rec.triggered || capTapOff p)

/-- Every entry of sluice `n` is written and the sluice closes (R280, R287, R288). A write of `PCT_REGREQ` is a regime request for the next
evaluation, made by the command `req`; the evaluation completes a timed REQUEST_REGIME (R118). What the commit brings about (a planned relock of R370 aborts sluices) meets
the other sluices, not the one that commits. `at'` is the commit instant in presented time. -/
def sluCommit (now n : Nat) (at' : Int) (req : Option CmdRef) (p : Polder) : Polder :=
  let x := slu p n
  let ago := (tblAt p.tim now / (cyc : Nat) - (at' - (presented p now - tblAt p.tim now)) / (cyc : Nat)).toNat
  let c := now / cyc - ago
  let p0 := commitFx now p (ceStands c x.entries p (storeEntries x.entries (setSlu p n { x with st := .free })))
  let p1 := monBeaten now c x.entries p (setSlu p0 n x)
  let p1 := if x.entries.any (fun e => isSafetyReg e.off) then spbCommit now x.owner (spbCrc p) p1 else p1
  let p2 := x.entries.foldl (entryAction now c) p1
  let asks := x.entries.any fun e => e.off == A.PCT_REGREQ
  let waits := asks && x.cmd.any fun c => c.opcode == Op.requestRegime
  let from' := if x.timed then (if waits then x.cmd else none) else req
  let p3 := if asks then
      modRgm (fun r => { r with reqs := r.reqs ++ [⟨fget p2 F.PCT_REGREQ_TARGET, fget p2 F.PCT_REGREQ_MODE, from', x.timed⟩] }) p2
    else p2
  let st := if waits then none else if x.cmd.any (armIgnored · p1) then some Status.state else some Status.ok
  sluClose n Rsn.committed x.timed st at' (committedIn c (x.entries.map (·.off)) (evt F.STS_EVT_COMMIT (addSat p3 A.STS_COMMITS 1)))

/-- The conflicts of a commit of sluice `n` in cycle `c` (R283): `none` when it is itself the later staged, otherwise the polder with the
others aborted. -/
def sluResolve (now n : Nat) (c : Int) (p : Polder) : Option Polder :=
  let l := conflicts p now n c
  if l.any (·.2) then none else some (l.foldl (fun q e => sluAbort now e.1 Rsn.conflict false q) p)

/-- An immediate commit of an OPEN sluice: how it closes, and the polder. -/
def sluImmediate (now n : Nat) (req : Option CmdRef) (p : Polder) : Nat × Polder :=
  match sluResolve now n (tblAt p.tim now / (cyc : Nat)) p with
  | none => (Rsn.conflict, sluAbort now n Rsn.conflict false p)
  | some q => match checkReason q (slu q n) [] (quality q == 3) with
    | some r => (r, sluAbort now n r false q)
    | none => (Rsn.committed, sluCommit now n (presented q now) req q)

/-- A timed commit of an OPEN sluice at presented time `t` ns (R279, R281, R283): the reply, and the polder. A request refused under R281 counts against
the idle timeout all the same (R278). -/
def sluSchedule (now n t : Nat) (good : Bool) (cmd : CmdRef) (p : Polder) : Reply × Polder :=
  let x0 := presented p now
  let at' : Int := ((t * ns : Nat) : Int)
  let used := setSlu p n { slu p n with lastUse := now }
  if !onPll p then (bare Status.state, used)
  else if at' < x0 + (20 * us : Nat) ∨ x0 + (86400 * sec : Nat) < at' then (bare Status.range, used)
  else match sluResolve now n (commitCycle p now t) p with
    | none => (⟨Status.conflict, Rsn.conflict, []⟩, sluAbort now n Rsn.conflict false p)
    | some q => (bare Status.pending, setSlu q n { slu q n with st := .scheduled, timed := true, reqGood := good, commitAt := t, cmd := some cmd })

/-- SLUICE_CHECK: 2 µs before its instant a SCHEDULED sluice enters CHECK and is checked (R279, R280). -/
def sluCheck (now n : Nat) (p : Polder) : Polder :=
  let x := slu p n
  if x.st = .scheduled ∧ ((x.commitAt * ns : Nat) : Int) ≤ presented p now + (2 * us : Nat) then
    let p1 := setSlu p n { x with st := .check }
    match checkReason p1 x (earlierEntries p1 n x.commitAt) (quality p1 == 3) with
    | some r => sluAbort now n r false p1
    | none => p1
  else p

/-- SLUICE_TIMED_COMMIT: the commit instant is the first cycle in which presented time has reached the time asked for (R279). The commit is carried out once
that cycle is over, so that a trip, a demand or a direct write of the CE in it has its precedence (R284, R285). A sluice whose time a step has passed is
checked first (R386), and conflicts with others that commit in the same cycle for it (R283). -/
def sluTimed (now n : Nat) (p : Polder) : Polder :=
  let p1 := sluCheck now n p
  let x := slu p1 n
  let c := commitCycle p1 now x.commitAt
  if x.st = .check ∧ c < tblAt p1.tim now / (cyc : Nat) then
    match sluResolve now n c p1 with
    | none => sluAbort now n Rsn.conflict false p1
    | some q => sluCommit now n (c * (cyc : Nat) + (presented q now - tblAt q.tim now)) none q
  else p1

/-- SLUICE_IDLE_TIMEOUT (R278). -/
def sluIdle (now n : Nat) (p : Polder) : Polder :=
  let x := slu p n
  if x.st = .opened ∧ tookN p A.STS_IDLE_TMO * ms ≤ now - x.lastUse then sluAbort now n Rsn.idle false p else p

/-- A basic command's own sluice (R83, R288), opened for session `owner`: status, reason code, sluice, and the polder. A refusal
at staging changes nothing (R405). -/
def sluBasic (now owner : Nat) (l : List (Nat × Word × Word)) (req : Option CmdRef) (p : Polder) : Reply × Polder :=
  match sluFree p with
  | none => (bare Status.conflict, p)
  | some n => match sluStage now n l (sluOpen now n owner p) with
    | (0, q) =>
      let r := sluImmediate now n req q
      (⟨rsnStatus r.1, r.1, []⟩, r.2)
    | (st, _) => (bare st, p)

/-- The same with a timed commit (R118, R262): a refusal leaves nothing behind. -/
def sluBasicAt (now owner t : Nat) (good : Bool) (l : List (Nat × Word × Word)) (cmd : CmdRef) (p : Polder) : Reply × Polder :=
  match sluFree p with
  | none => (bare Status.conflict, p)
  | some n => match sluStage now n l (sluOpen now n owner p) with
    | (0, q) =>
      let r := sluSchedule now n t good cmd q
      if r.1.status = Status.pending ∨ r.1.status = Status.conflict then r else (r.1, p)
    | (st, _) => (bare st, p)

/-! ### Direct accesses (R25, R35 to R42, R513) -/

/-- The master reaches this offset of polder `i`'s window (R25). -/
def reaches (m : Master) (i : PolderId) (off : Nat) : Bool := match m with
  | .ce j => i == j
  | .se j => i == j
  | .mon j => i == j
  | .hall => true
  | .dkh => off / 65536 == 0 || off / 65536 == 0x10

/-- The learner table, the gallery and the capture memory (R33). -/
def inTable (off : Nat) : Bool := decide (0x200000 ≤ off ∧ off < 0x20C000)
def inMemory (off : Nat) : Bool :=
  inTable off || decide (0x300000 ≤ off ∧ off < 0x320000) || decide (0x380000 ≤ off ∧ off < 0x3B0000)

/-- How a direct write ended: written, an access error, or a code refused under R9. -/
inductive Written where
  | ok | error | range
  deriving DecidableEq, Repr

/-- W1C bits of a mailbox status count only from the queue's sender. -/
def statQueue (off : Nat) : Option Nat := [0, 1, 2, 3, 4, 5].find? fun q => A.MBX_STAT q == off

/-- A direct write of the CE or of the monitor counts for the rules about two writes in one cycle (R284, R487). -/
def noted (now id off : Nat) (bits v : Word) (p : Polder) : Polder := if id = 1 ∨ id = 5 then directWrote (now / cyc) id off bits v p else p

/-- A direct write to a register of the map. One of the monitor to a register that a commit has written in the cycle loses (R487). -/
def writeReg (now id off : Nat) (v : Word) (r : RegRow) (p : Polder) : Written × Polder :=
  if id = 5 ∧ p.cyc.at' = now / cyc ∧ p.cyc.commits.contains off = true ∧ accMask r [.rw] ≠ 0 then (.ok, monLost now off v p)
  else if isBuffered off then (.ok, bufferedWrite now off v (noted now id off (BitVec.allOnes 32) v p))
  else if off = A.FIO_DODIAG then (.ok, diagWrite now v p)
  else match directWord r (rd p off) v (setInCycle p (now / cyc) off) with
    | .error k => (.error, accErr now k id off p)
    | .range => (.range, p)
    | .word w acts =>
      let p := noted now id off (accMask r [.rw]) v p
      let q := match statQueue off with
        | some k => if mbxSender k = id then wr p off w else p
        | none => if plainReg off && (off != A.PCT_HBEAT || id == 2) then wr p off w else p
      (.ok, writeAction now (now / cyc) id off (if off = A.FIO_DOCMD then 15 else acts) v q)

/-- An access that `m` makes outside its reach: it is recorded in the window, but not where an engine of one polder addresses another polder,
since no data passes between polders (R20, R21; DEDUCED, notes/assumptions/41.md). -/
def outOfReach (now : Nat) (m : Master) (off : Nat) (p : Polder) : Polder := match m with
  | .ce _ => p
  | .se _ => p
  | .mon _ => p
  | .hall => accErr now Kind.unmapped m.id off p
  | .dkh => accErr now Kind.unmapped m.id off p

/-- A direct write of a master in polder `i`'s window (R25, R36, R197, R428, R436, R513). A write to the gallery or the capture memory takes effect (DESIGN
CHOICE: the spec gives writes for the learner table alone; notes/assumptions/41.md). -/
def busWrite (now : Nat) (m : Master) (i : PolderId) (off : Nat) (v : Word) (p : Polder) : Written × Polder :=
  let id := m.id
  if !reaches m i off then (.error, outOfReach now m off p)
  else if off % 4 ≠ 0 then (.error, accErr now Kind.unaligned id off p)
  else if inTable off then
    (if lrnOff p then (.ok, { wr p off v with lrn := { p.lrn with bad := p.lrn.bad.filter (· != off) } }) else (.error, accErr now Kind.noDirect id off p))
  else if inMemory off then (.ok, wr p off v)
  else match dataQueue off with
    | some q => if mbxSender q = id then (.ok, mbxPush now q id v p) else (.error, accErr now Kind.unmapped id off p)
    | none => match lockIndex off with
      | some k => (.ok, lockWrite now id k p)
      | none => match polRow off with
        | none => (.error, accErr now Kind.unmapped id off p)
        | some (r, _) => writeReg now id off v r p

/-- `PCT_ID` (R37). -/
def idWord (part : Part) (i : PolderId) : Word :=
  wordN ((match part with
    | .fgc4400 => 0x4400
    | .fgc4200 => 0x4200) * 65536 + i.num * 4096 + (Config.adieRev i).toNat * 256 + (Config.fdieRev i).toNat * 16 + Config.ldieRev.toNat)

/-- Seconds left of a firmware trial (`PCT_FWTMO`). -/
def trialLeft (now : Nat) (p : Polder) : Nat := match p.boot.trialEnd with
  | some e => (e - now + sec - 1) / sec
  | none => 0

/-- The word that a read of a register returns: registers that show other state are formed on the read. -/
def viewWord (part : Part) (now : Nat) (p : Polder) (off : Nat) : Word :=
  if off = A.PCT_ID then idWord part p.id
  else if off = A.SPB_STAT then spbStatWord p
  else if off = A.SPB_CRC then spbCrc p
  else if off = A.DIK_RDY then rdyWord p
  else if off = A.DIK_ACTIVE then activeWord now p
  else if off = A.FIO_STAT then withBits (rd p off) F.FIO_STAT_QCOUNT.hi F.FIO_STAT_QCOUNT.lo p.fio.queue.length
  else if off = A.CLK_STAT then withBits (rd p off) F.CLK_STAT_BANDOK.hi F.CLK_STAT_BANDOK.lo (bn (bandValid now p))
  else if off = A.TIM_CORR then wordFit off (corrNow now p / (ns : Nat))
  else if off = A.PCT_FWTMO then wordN (trialLeft now p)
  else if off = A.MBX_EPOCH then epochWord p
  else if off = A.MBX_LOCKOWN0 then lockOwnWord p 0
  else if off = A.MBX_LOCKOWN1 then lockOwnWord p 1
  else match [A.FIO_QENT0, A.FIO_QENT1, A.FIO_QENT2, A.FIO_QENT3].findIdx? (· == off), (List.range 8).find? (fun n => A.STS_SLU n == off) with
    | some k, _ => (headWords p).getD k 0
    | none, some n => sluWord (slu p n)
    | none, none => match statQueue off, [0, 1, 2, 3, 4, 5].find? (fun q => A.MBX_TAG q == off) with
      | some q, _ => mbxStat p q
      | none, some q => tagWord p q
      | none, none => rd p off

/-- WO fields read as 0 (R37). -/
def readMask (r : RegRow) : Word := ~~~ accMask r [.wo]

/-- A read of `TIM_NOW_FR` latches presented time (R392). -/
def timLatch (now : Nat) (p : Polder) : Polder :=
  let x := presented p now
  wrTime (wr p A.TIM_NOW_FR (wordN (fracOf x))) A.TIM_NOW_NS A.TIM_NOW_SL A.TIM_NOW_SH x

/-- A read of a master in polder `i`'s window: the word, whether it is an access error, and the polder (R25, R36, R82, R250, R392, R428, R434). -/
def busRead (part : Part) (now : Nat) (m : Master) (i : PolderId) (off : Nat) (p : Polder) : (Word × Bool) × Polder :=
  let id := m.id
  if !reaches m i off then ((0, true), outOfReach now m off p)
  else if off % 4 ≠ 0 then ((0, true), accErr now Kind.unaligned id off p)
  else if inMemory off then ((rd p off, false), p)
  else match dataQueue off with
    | some q => if mbxReceiver q = id then (let r := mbxPop now q p; ((r.1, false), r.2)) else ((0, true), accErr now Kind.unmapped id off p)
    | none => match lockIndex off with
      | some k => (let r := lockRead now id k p; ((r.1, false), r.2))
      | none => match polRow off with
        | none => ((0, true), accErr now Kind.unmapped id off p)
        | some (r, _) =>
          let q := if off = A.SWG_P then latchGroup p else if off = A.FLT_MTR 0 then meterLatch p else if off = A.TIM_NOW_FR then timLatch now p else p
          ((viewWord part now q off &&& readMask r, false), q)

end Sys2Proof.Machine
end

