-- ==== Sys2Proof/Machine/InputTest.lean ====
section
/-!
DEFINITION. `RUN_INPUT_TEST` (R228, R229): the test of the selected inputs through the test DAC, one level after another.
-/
namespace Sys2Proof.Machine
open Sys2Proof

/-- Levels of the test DAC in order: fast converters AIN0 to AIN2, multiplexed converters. -/
def testLevels (k : Nat) : List Int := if k < 3 then [-192, 0, 192, 300, 0] else [-384, 0, 384]

/-- Full scale of an input in µV. -/
def fullScaleUv (k : Nat) : Int := if k < 3 then 1250000 else 2500000

/-- Word of `AFE_TEST` that routes the test DAC at code `c` to input `k`. -/
def testWord (k : Nat) (c : Int) : Word := wordN (2147483648 + k % 16 * 1048576 + codeOf 10 c)

/-- Offset in µV from the sum of 64 samples, and gain error in 10^-6 from the difference of the two end levels' sums. -/
def offsetUv (k : Nat) (sum : Int) : Int := roundDiv (sum * fullScaleUv k) (64 * 32768)
def gainPpm (d : Int) : Int := roundDiv ((d - 64 * 49152) * 1000000) (64 * 49152)

/-- Verdict on an input from the sums and over-range counts of its levels. -/
def judgeInput (k : Nat) (sums : List Int) (bad : Bool) (offTol gainTol : Nat) : Int × Int × Bool :=
  let o := offsetUv k (sums.getD 1 0)
  let g := gainPpm (sums.getD 2 0 - sums.getD 0 0)
  let back := k < 3 && decide ((offTol : Int) < absI (offsetUv k (sums.getD 4 0)))
  (o, g, bad || back || decide ((offTol : Int) < absI o) || decide ((gainTol : Int) < absI g))

/-- A level breaks the over-range checks of a fast input: at +300 every sample carries OVR and reads 0x7FFF, the final 0 is clean. -/
def levelBad (k level : Nat) (sum : Int) (ovrs : Nat) : Bool :=
  k < 3 && ((level == 3 && (ovrs != 64 || sum != 64 * 32767)) || (level == 4 && ovrs != 0))

/-- The level in `x` is applied through a sluice of its own. -/
def applyLevel (now : Nat) (x : InputTest) (p : Polder) : Reply × Polder := match x.inputs with
  | [] => (okWith [], p)
  | k :: _ => sluBasic now x.cmd.sess [(A.AFE_TEST, BitVec.allOnes 32, testWord k ((testLevels k).getD x.level 0))] none p

/-- Reply of a completed test. -/
def testReply (tested failed : Nat) (l : List (Nat × Int × Int × Bool)) : List Byte :=
  leBytes 2 tested ++ leBytes 2 failed ++ (List.range 15).flatMap fun k => match l.find? (fun e => e.1 == k) with
    | some (_, o, g, _) => wBytes (wordI o) ++ wBytes (wordI g)
    | none => zeros 8

/-- The routing is released, and the test ends with a status and payload. -/
def inputTestEnd (now : Nat) (x : InputTest) (a : Reply) (p : Polder) : Polder :=
  let p1 := modAfe (fun f => { f with test := none }) p
  let p2 := (sluBasic now x.cmd.sess [(A.AFE_TEST, 0x80000000#32, 0)] none p1).2
  replyTo p2 x.cmd a

/-- The test goes on with the level in `x`, or ends when the level cannot be applied. -/
def inputTestGo (now : Nat) (x : InputTest) (p : Polder) : Polder :=
  let r := applyLevel now x p
  if r.1.status = Status.ok then modAfe (fun f => { f with test := some { x with since := now, count := 0, sum := 0, ovrs := 0 } }) r.2 else inputTestEnd now x r.1 r.2

/-- RUN_INPUT_TEST starts: inputs in ascending order. -/
def inputTestStart (now mask offTol gainTol : Nat) (cmd : CmdRef) (p : Polder) : Polder :=
  let l := (List.range 15).filter fun k => mask.testBit k
  match l with
  | [] => replyTo p cmd (okWith (testReply 0 0 []))
  | _ =>
    let x : InputTest := ⟨l, 0, now, [], [], offTol, gainTol, mask, cmd, false, 0, 0, 0⟩
    let r := applyLevel now x p
    if r.1.status = Status.ok then modAfe (fun f => { f with test := some x }) r.2 else replyTo r.2 cmd r.1

/-- The last input is judged: `AFE_DIAG` and the reply. -/
def inputTestDone (now : Nat) (x : InputTest) (p : Polder) : Polder :=
  let failed := x.results.foldl (fun m e => if e.2.2.2 then m + 2 ^ e.1 else m) 0
  let p1 := wr p A.AFE_DIAG (wordN (2147483648 + x.mask % 32768 * 65536 + failed))
  inputTestEnd now x (okWith (testReply x.mask failed x.results)) p1

/-- INPUT_TEST_LEVEL: the level that the row names has waited 10 µs and 64 samples of its input have followed. -/
def inputTestLevel (now input level : Nat) (p : Polder) : Polder := match p.afe.test with
  | none => p
  | some x => match x.inputs with
    | [] => p
    | k :: rest =>
      if x.count < 64 ∨ k ≠ input ∨ x.level ≠ level then p
      else
        let bad := x.failing || levelBad k x.level x.sum x.ovrs
        let sums := x.sums ++ [x.sum]
        if x.level + 1 < (testLevels k).length then inputTestGo now { x with level := x.level + 1, sums := sums, failing := bad } p
        else
          let y := { x with inputs := rest, level := 0, sums := [], failing := false,
                            results := x.results ++ [(k, judgeInput k sums bad x.offTol x.gainTol)] }
          if rest.isEmpty then inputTestDone now y p else inputTestGo now y p

end Sys2Proof.Machine
end

