-- ==== Sys2Proof/Machine/Record.lean ====
section
/-!
DEFINITION. The records of the NV banks as bytes (R466, R467): header, sections, CRC, and when a bank is valid. The spec gives every section its ID, contents
and largest size, and the layout of the records of the logs alone; the order of the other contents within their section is the model's (DESIGN CHOICE,
notes/assumptions/34.md).
-/
namespace Sys2Proof.Machine
open Sys2Proof

def FwState.code : FwState → Nat
  | .confirmed => 0 | .trialPending => 1 | .trialRunning => 2 | .reverted => 3

/-! ### Sections of a polder's record -/

def BootSec.bytes (b : BootSec) : List Byte :=
  leBytes 1 b.active ++ leBytes 1 b.trial ++ leBytes 1 b.state.code ++ zeros 1 ++ leBytes 4 b.minRb ++ leBytes 4 b.timeout

def ClockSec.bytes (c : ClockSec) : List Byte := wBytes c.cfg ++ wBytes c.frac ++ wBytes c.fref ++ (match c.band with
  | some (band, nint, temp) => leBytes 2 (nint + 32768) ++ leBytes 1 band ++ leBytes 1 (codeOf 8 temp)
  | none => zeros 4)

/-- The set, the confirmed check value, the age, the salt and the hash: 84 bytes. -/
def SafetySec.bytes (s : SafetySec) : List Byte := s.set' ++ wBytes s.crc ++ leBytes 4 s.age ++ (match s.password with
  | some (salt, hash) => (List.range 16).map (Config.saltByte salt) ++ hash
  | none => zeros 48)

/-- The coefficients of the masked harmonics in the order of their words. -/
def LrnSave.bytes (l : LrnSave) : List Byte :=
  let masked := fun i => let h := i % 128 / 2; if h < 32 then l.mask0.getLsbD h else l.mask1.getLsbD (h - 32)
  wBytes l.mask0 ++ wBytes l.mask1 ++ wBytes l.sbase ++ wBytes l.vbase ++ leBytes 1 l.fnom ++ leBytes 1 l.topo ++ zeros 2 ++ leBytes 4 l.cycles ++
    leBytes 6 l.time ++ leBytes 4 l.timeNs ++ leBytes 2 l.timeFr ++
    ((List.range 384).filter masked).flatMap fun i => wBytes (cellGet (fun _ => 0) l.coef i)

/-- A section of a record: ID, contents. -/
abbrev Section := Option (Nat × List Byte)

def NvRecord.sections (r : NvRecord) : List Section :=
  [r.boot.map fun b => (1, b.bytes), r.clock.map fun c => (2, c.bytes), r.safety.map fun s => (3, s.bytes),
   r.changeLog.map fun l => (4, leBytes 4 l.1 ++ l.2.flatten), r.learner.map fun l => (5, l.bytes), r.events.map fun l => (6, l.flatMap LogRec.bytes)]

/-! ### Sections of the device record -/

/-- The registers of R417, whose written values are held until they are applied. -/
def heldOffs : List Nat :=
  [A.HAL_CFG, A.HAL_MACH, A.HAL_MACL, A.HAL_IPADDR, A.HAL_NETMASK, A.HAL_GW, A.HAL_SESSTMO] ++ [0, 1, 2, 3].map A.HAL_SVCFG

/-- Registers stored as the Dikehouse configuration. -/
def dkhConfigOffs : List Nat :=
  (List.range 8).map A.DKH_WINCFG ++ (List.range 4).map A.DKH_SUP ++ (List.range 16).flatMap (fun r => [A.DKH_RULE_A r, A.DKH_RULE_B r]) ++ [A.DKH_ALARM]

/-- A key slot: 40 bytes, zeros where it holds no key. -/
def slotSection : Option KeySlot → List Byte
  | some k => (k.key ++ zeros 32).take 32 ++ leBytes 1 k.role ++ leBytes 1 k.mask ++ leBytes 1 1 ++ zeros 5
  | none => zeros 40

/-- svID with its length, and confRev, of a polder: 48 bytes. -/
def svSection (v : Vector (List Byte) 4 × Vector Nat 4) (k : Nat) : List Byte :=
  let id := vget v.1 k []
  leBytes 1 id.length ++ (id ++ zeros 43).take 43 ++ leBytes 4 (vget v.2 k 1)

def DevRecord.sections (r : DevRecord) : List Section :=
  [r.network.map fun c => (0x101, heldOffs.flatMap fun o => wBytes (cellGet hallReset c o)), r.sv.map fun v => (0x102, [0, 1, 2, 3].flatMap (svSection v)),
   r.keys.map fun v => (0x103, v.toList.flatMap slotSection), r.dkh.map fun c => (0x104, dkhConfigOffs.flatMap fun o => wBytes (cellGet dkhReset c o)),
   r.patch.map fun b => (0x105, b), r.events.map fun l => (0x106, l.flatMap LogRec.bytes)]

/-! ### Records and banks (R466) -/

/-- The sections as they stand in a record: ID, length, contents, zeros up to a multiple of 4. -/
def sectionBytes (l : List Section) : List Byte :=
  l.flatMap fun x => match x with
    | some (id, b) => leBytes 2 id ++ leBytes 2 b.length ++ b ++ zeros ((4 - b.length % 4) % 4)
    | none => []

/-- What `SECT` shows of a record: bit n - 1 for the section of ID low byte n (R470). -/
def sectBits (l : List Section) : Nat := (l.filterMap id).foldl (fun w x => w ||| 2 ^ (x.1 % 256 - 1)) 0

/-- Magic of the polder banks and of the device banks. -/
abbrev polMagic : Word := 0x4E565031#32
abbrev devMagic : Word := 0x4E564431#32

/-- Bytes 0 to 15 + L of a record. -/
def recordBytes (magic : Word) (version seq length : Nat) (sections : List Byte) : List Byte :=
  wBytes magic ++ leBytes 2 version ++ zeros 2 ++ leBytes 4 seq ++ leBytes 4 length ++ sections

/-- A record is valid when its magic, layout version and CRC are correct and L is at most 16,360. -/
def recordOk (want magic : Word) (version seq length : Nat) (crc : Word) (l : List Section) : Bool :=
  magic == want && version == 1 && decide (length ≤ 16360) && crc == crc32 (recordBytes magic version seq length (sectionBytes l))

def NvBank.valid (b : NvBank) : Bool := recordOk polMagic b.magic b.version b.seq b.length b.crc b.data.sections
def DevBank.valid (b : DevBank) : Bool := recordOk devMagic b.magic b.version b.seq b.length b.crc b.data.sections

/-- L and the CRC of a record of version 1. -/
def recordLength (l : List Section) : Nat := (sectionBytes l).length
def recordCrc (magic : Word) (seq : Nat) (l : List Section) : Word := crc32 (recordBytes magic 1 seq (recordLength l) (sectionBytes l))

/-- A bank in which a record has been written. -/
def NvBank.written (seq : Nat) (r : NvRecord) : NvBank :=
  { magic := polMagic, version := 1, seq := seq, length := recordLength r.sections, data := r, crc := recordCrc polMagic seq r.sections }
def DevBank.written (seq : Nat) (r : DevRecord) : DevBank :=
  { magic := devMagic, version := 1, seq := seq, length := recordLength r.sections, data := r, crc := recordCrc devMagic seq r.sections }

/-- A bank whose write has begun, or was cut off: it is not valid (R470), its CRC does not stand. -/
def NvBank.torn (b : NvBank) : NvBank := { b with crc := ~~~ (crc32 (recordBytes b.magic b.version b.seq b.length (sectionBytes b.data.sections))) }
def DevBank.torn (b : DevBank) : DevBank := { b with crc := ~~~ (crc32 (recordBytes b.magic b.version b.seq b.length (sectionBytes b.data.sections))) }

end Sys2Proof.Machine
end

