-- ==== Sys2Proof/Machine/Boot.lean ====
section
/-!
DEFINITION. Start-up, firmware slots, persistent storage, sleep and wake of a polder (spec/16, R441 to R455, R466 to R470).
-/
namespace Sys2Proof.Machine
open Sys2Proof

def modBoot (f : BootState → BootState) (p : Polder) : Polder := { p with boot := f p.boot }
def modNv (f : NvState → NvState) (p : Polder) : Polder := { p with nv := f p.nv }

/-! ### The NV banks of a polder (R466 to R470) -/

/-- A sequence is newer than another by serial arithmetic (R468). -/
def newerSeq (a b : Nat) : Bool :=
  let d := (a + 4294967296 - b % 4294967296) % 4294967296
  decide (0 < d ∧ d < 2147483648)

/-- The bank that start-up uses: `none` when neither is valid (R468). -/
def chooseBank (v0 v1 : Bool) (s0 s1 : Nat) : Option Nat :=
  if v0 && v1 then (if newerSeq s1 s0 then some 1 else some 0) else if v0 then some 0 else if v1 then some 1 else none

/-- The bank in use, while there is one. -/
def bankInUse (p : Polder) : Option Nat :=
  if p.nv.bank0.valid || p.nv.bank1.valid then some (fget p F.NVS_STAT_BANK) else none

/-- The bank that the next write goes to, and its sequence (R468, R469). -/
def nextBank (p : Polder) : Nat × Nat := match bankInUse p with
  | some 0 => (1, (p.nv.bank0.seq + 1) % 4294967296)
  | some _ => (0, (p.nv.bank1.seq + 1) % 4294967296)
  | none => (0, 1)

/-- `NVS_STAT` and the sequences follow the banks. -/
def nvShow (p : Polder) : Polder :=
  let p1 := fputB (fputB p F.NVS_STAT_VALID0 p.nv.bank0.valid) F.NVS_STAT_VALID1 p.nv.bank1.valid
  let cur := if fget p F.NVS_STAT_BANK = 0 then p.nv.bank0 else p.nv.bank1
  let p2 := fput p1 F.NVS_STAT_SECT (if cur.valid then sectBits cur.data.sections else 0)
  wr (wr (fputB p2 F.NVS_STAT_BUSY p.nv.writing.isSome) (A.NVS_SEQ 0) (wordN p.nv.bank0.seq)) (A.NVS_SEQ 1) (wordN p.nv.bank1.seq)

/-- A bank is replaced. -/
def setBank (k : Nat) (b : NvBank) (p : Polder) : Polder :=
  if k = 0 then modNv (fun v => { v with bank0 := b }) p else modNv (fun v => { v with bank1 := b }) p

/-- A write takes the sections as they stand, a learner save that waits among them (R198). -/
def nvTake (p : Polder) : Polder :=
  { p with nv := { p.nv with writeData := p.nv.image, writeSect := p.nv.dirtySect, dirtySince := none }, lrn := { p.lrn with saving := false, storing := p.lrn.storing || p.lrn.saving } }

/-- A write begins. The bank being written is not valid meanwhile. -/
def nvBegin (now : Nat) (p : Polder) : Polder :=
  let n := nextBank p
  nvShow (setBank n.1 (NvBank.written n.2 p.nv.image).torn (modNv (fun v => { v with writing := some (n.1, now, false) }) (nvTake p)))

/-- NV_WRITE: a change waits, and 100 ms have passed since the last write (R469). -/
def nvWrite (now : Nat) (p : Polder) : Polder :=
  if p.nv.writing.isNone && p.nv.dirtySince.isSome && (p.nv.lastEnd == 0 || decide (p.nv.lastEnd + 100 * ms ≤ now)) then nvBegin now p else p

/-- What the owners of sections do when a write has ended: `SAVED` or `SAVE_FAIL` of the learner (R198). -/
def nvOwners (ok : Bool) (p : Polder) : Polder :=
  let l := (if fget p F.NVS_STAT_BANK = 0 then p.nv.bank0 else p.nv.bank1).data.learner
  let p1 := if ok then fputB { p with lrn := { p.lrn with stored := l } } F.LRN_STAT_NVVALID l.isSome else p
  if p.lrn.storing then evt (if ok then F.LRN_EVT_SAVED else F.LRN_EVT_SAVE_FAIL) { p1 with lrn := { p1.lrn with storing := false } } else p1

/-- The bank in which a write has been read back comes into use. -/
def nvGood (now k : Nat) (p : Polder) : Polder :=
  let seq := (if k = 0 then p.nv.bank0 else p.nv.bank1).seq
  let p1 := setBank k (NvBank.written seq p.nv.writeData) p
  let p2 := modNv (fun v => { v with writing := none, lastEnd := now }) (fput (addSat p1 A.NVS_WRITES 1) F.NVS_STAT_BANK k)
  nvShow (nvOwners true p2)

/-- NV_WRITE_COMPLETE: the read-back is good, or the write is made once more into the same bank, or it has failed (R469). -/
def nvComplete (now : Nat) (good : Bool) (p : Polder) : Polder := match p.nv.writing with
  | none => p
  | some (k, _, again) =>
    if good then nvGood now k p
    else
      let p1 := addSat p A.NVS_FAILS 1
      if !again then modNv (fun v => { v with writing := some (k, now, true) }) p1
      else
        let p2 := fput p1 (if k = 0 then F.NVS_STAT_FAIL0 else F.NVS_STAT_FAIL1) 1
        let p3 := nvShow (nvOwners false (modNv (fun v => { v with writing := none, lastEnd := now }) p2))
        logRec now 0x0A (2 ^ (if k = 0 then 10 else 11)) Sev.fault (leBytes 2 p.nv.writeSect) p3

/-- A write in progress ends, by a read-back whose outcome no row gives: it is free (notes/assumptions/34.md). -/
def nvSettle (now : Nat) (p : Polder) : Polder :=
  let p1 := nvComplete now (Config.nvGood p.id p.free) (drawn p)
  if p.nv.writing.isNone then p
  else if p1.nv.writing.isSome then nvComplete now (Config.nvGood p1.id p1.free) (drawn p1) else p1

/-- A change is written at once: where the spec has the state in NV before the next thing happens (R448, R450, R454, R477). The bounds that it gives there
(R453: two writes within 12.5 ms; R454: 5 ms) leave no room for the 100 ms between combined writes (DEDUCED, notes/assumptions/34.md). -/
def nvFlush (now : Nat) (p : Polder) : Polder :=
  let p1 := nvSettle now p
  if p1.nv.dirtySince.isSome then nvSettle now (nvBegin now p1) else p1

/-! ### Flash and firmware slots (R446 to R449, R453, R503) -/

/-- Byte of the flash; erased bytes are 0xFF. -/
def flashAt : List Host.Cell → Nat → Byte
  | [], _ => 0xFF
  | (a, b) :: l, k => if a = k then b else flashAt l k

def flashDrop : List Host.Cell → Nat → List Host.Cell
  | [], _ => []
  | (a, b) :: l, k => if a = k then l else (a, b) :: flashDrop l k

def flashAdd : List Host.Cell → Nat → Byte → List Host.Cell
  | [], k, v => [(k, v)]
  | (a, b) :: l, k, v => if k < a then (k, v) :: (a, b) :: l else (a, b) :: flashAdd l k v

/-- A byte of the flash set, in canonical form: addresses rising, no entry 0xFF. -/
def flashSet (l : List Host.Cell) (k : Nat) (v : Byte) : List Host.Cell := if v = 0xFF then flashDrop l k else flashAdd (flashDrop l k) k v

/-- The canonical form of the flash. -/
def flashFrom : Nat → List Host.Cell → Bool
  | _, [] => true
  | n, (a, b) :: l => decide (n ≤ a) && decide (b ≠ 0xFF) && flashFrom (a + 1) l

abbrev slotSize : Nat := 1048576

/-- Bytes of a slot; a flash that does not answer reads erased (R503). -/
def slotBytes (p : Polder) (slot off n : Nat) : List Byte :=
  (List.range n).map fun i => if p.boot.flashFitted then flashAt p.boot.flash (slot * slotSize + off + i) else 0xFF

/-- Result codes of R449. -/
abbrev Slot.erased : Nat := 1
abbrev Slot.header : Nat := 2
abbrev Slot.part : Nat := 3
abbrev Slot.revoked : Nat := 4
abbrev Slot.signature : Nat := 5
abbrev Slot.rollback : Nat := 6

/-- Header fields of R447. -/
def hdrKey (h : List Byte) : Nat := u16At h 6
def hdrRollback (h : List Byte) : Nat := u32At h 16
def hdrRevoke (h : List Byte) : Nat := byteAt h 32

/-- The check HEADER: magic, format, key index, lengths, revoke byte, reserved bytes. -/
def headerOk (h : List Byte) : Bool :=
  h.take 4 == [0x46, 0x4A, 0x52, 0x4E] && u16At h 4 == 1 && decide (hdrKey h ≤ 3) &&
    decide (1 ≤ u32At h 8 ∧ u32At h 8 ≤ 262144) && decide (1 ≤ u32At h 12 ∧ u32At h 12 ≤ 262144) &&
    decide (hdrRevoke h < 16) && !(hdrRevoke h).testBit (hdrKey h) && ((h.drop 33).take 31).all (· == 0)

/-- Lowest bootable rollback index of the boot section. -/
def minRb (p : Polder) : Nat := rdN p A.PCT_MINRB

/-- The result of a slot: the first check of R449 that fails, 0 when the slot is valid. -/
def slotResult (part : Part) (p : Polder) (slot : Nat) : Nat :=
  let h := slotBytes p slot 0 128
  if h.take 4 == [0xFF, 0xFF, 0xFF, 0xFF] then Slot.erased
  else if !headerOk h then Slot.header
  else if !(u16At h 30).testBit (if part = .fgc4400 then 0 else 1) then Slot.part
  else if p.boot.revoked.testBit (hdrKey h) then Slot.revoked
  else if !signedBy (hdrKey h) (h.take 64 ++ slotBytes p slot 128 (u32At h 8 + u32At h 12)) (h.drop 64) then Slot.signature
  else if hdrRollback h < minRb p then Slot.rollback
  else 0

/-- The code of a slot: that of the CE, which follows the header, and that of the SE (R446, R447). -/
def slotCode (p : Polder) (slot : Nat) : List Byte × List Byte :=
  let h := slotBytes p slot 0 128
  (slotBytes p slot 128 (u32At h 8), slotBytes p slot (128 + u32At h 8) (u32At h 12))

/-- The boot section; without one, slot A is active and nothing is on trial (DESIGN CHOICE, notes/assumptions/35.md). -/
def bootSec (p : Polder) : BootSec := p.nv.image.boot.getD ⟨0, 1, .confirmed, 0, 600⟩

/-- The boot section changes. -/
def setBootSec (now : Nat) (b : BootSec) (p : Polder) : Polder :=
  let p1 := nvTouch now 1 p { p.nv.image with boot := some b }
  wr (fput p1 F.PCT_BOOT_FWSTATE b.state.code) A.PCT_MINRB (wordN b.minRb)

/-- The boot section changes, and is stored at once (R450). -/
def putBootSec (now : Nat) (b : BootSec) (p : Polder) : Polder := nvFlush now (setBootSec now b p)

/-- Slots that FW_SLOT may not write (R453). -/
def slotHeld (p : Polder) (slot : Nat) : Bool :=
  let b := bootSec p
  slot == b.active || ((b.state == .trialPending || b.state == .trialRunning) && slot == b.trial)

/-- A byte programmed: only erased bytes take it (R453). -/
def program (l : List Host.Cell) (k : Nat) (v : Byte) : List Host.Cell := if flashAt l k = 0xFF then flashSet l k v else l

/-- Bytes programmed from an address on. -/
def programAll : List Host.Cell → Nat → List Byte → List Host.Cell
  | l, _, [] => l
  | l, k, v :: vs => programAll (program l k v) (k + 1) vs

/-- FW_SLOT WRITE: whether every byte reads back, and the polder. -/
def slotWrite (slot off : Nat) (data : List Byte) (p : Polder) : Bool × Polder :=
  let p1 := if p.boot.flashFitted then modBoot (fun b => { b with flash := programAll b.flash (slot * slotSize + off) data }) p else p
  (slotBytes p1 slot off data.length == data, p1)

/-- FLASH_ERASE_COMPLETE: the slot reads erased and the DONE follows (R453). -/
def eraseComplete (p : Polder) : Polder := match p.boot.erase with
  | some (slot, _, cmd) =>
    let keep := fun (c : Host.Cell) => decide (c.1 < slot * slotSize ∨ slot * slotSize + slotSize ≤ c.1)
    doneOpt (modBoot (fun b => { b with flash := b.flash.filter keep, erase := none }) p) cmd (okWith [])
  | none => p

/-! ### Reset (R21, R425, R444, R477) -/

/-- Causes of `PCT_BOOT.CAUSE`. -/
abbrev Cause.powerOn : Nat := 0
abbrev Cause.brownOut : Nat := 1
abbrev Cause.restart : Nat := 2
abbrev Cause.wake : Nat := 3
abbrev Cause.activate : Nat := 4
abbrev Cause.revert : Nat := 5
abbrev Cause.seCode : Nat := 6
abbrev Cause.monitor : Nat := 7

/-- A bank whose write a reset cut off is not valid (R470). -/
def cutWrite (v : NvState) : NvState := match v.writing with
  | some (0, _, _) => { v with writing := none, bank0 := v.bank0.torn }
  | some _ => { v with writing := none, bank1 := v.bank1.torn }
  | none => v

/-- The polder enters reset: its registers and contents are lost but for NV, flash, one-time memory and, while VDD_x is held (`sram`), the
log. The levels at its pins stay. -/
def enterReset (cause : Nat) (sram : Bool) (p : Polder) : Polder :=
  let f := fput (resetPolder p.id) F.CAP_STAT_FIREPIN (if p.cap.driving then 1 else fget p F.CAP_STAT_FIREPIN)
  let v := cutWrite p.nv
  { f with
    free := p.free
    out := p.out
    nv := { bank0 := v.bank0, bank1 := v.bank1 }
    boot := { p.boot with cause := cause, erase := none, trialEnd := none }
    log := if sram then { p.log with burst := 0 } else {}
    dike := { f.dike with tripiPin := p.dike.tripiPin, tripiLow := p.dike.tripiLow, tripiEdge := p.dike.tripiEdge }
    spb := { f.spb with wrong := p.spb.wrong, lockEnd := p.spb.lockEnd }
    fio := { f.fio with ins := p.fio.ins.map (fun x => { raw := x.raw, rawAt := x.rawAt }), lpSince := p.fio.lpSince }
    eng := { f.eng with epochHall := p.eng.epochHall, epochDkh := p.eng.epochDkh } }

/-! ### Boot (R369, R445, R450, R467, R468, R479) -/

/-- The slot that the boot ROM chooses (R450): slot, trial, fallback, and the boot section written; `none` leads to rescue. -/
def bootChoice (part : Part) (p : Polder) : Option (Nat × Bool × Bool) × BootSec :=
  let b := bootSec p
  let ok := fun s => slotResult part p s == 0
  let other := 1 - b.active
  let plain : Option (Nat × Bool × Bool) :=
    if ok b.active then some (b.active, false, false) else if ok other then some (other, false, true) else none
  match b.state with
  | .confirmed => (plain, b)
  | .reverted => (plain, b)
  | .trialPending => if ok b.trial then (some (b.trial, true, false), { b with state := .trialRunning }) else (plain, { b with state := .reverted })
  | .trialRunning => (plain, { b with state := .reverted })

/-- A record joins a store, newest number first. -/
def logInsert (r : LogRec) : List LogRec → List LogRec
  | [] => [r]
  | e :: l => if e.number < r.number then r :: e :: l else e :: logInsert r l

/-- Log records of the SRAM store that NV does not hold are stored, and the numbers run on (R477, R479). -/
def restoreLog (now : Nat) (p : Polder) : Polder :=
  let stored := p.nv.image.events.getD []
  let fresh := p.log.sram.filter fun r => !stored.any (fun e => e.number == r.number)
  let top := (p.log.sram ++ stored).foldl (fun m r => max m r.number) 0
  let p1 := wr { p with log := { p.log with nextNo := top + 1 } } A.PCT_LOGNEXT (wordN (top + 1))
  if fresh.isEmpty then p1 else nvTouch now 6 p1 { p1.nv.image with events := some ((fresh.foldr logInsert stored).take 384) }

/-- The sections of the record in use reach their owners (R198, R362, R363, R364, R369). -/
def loadSections (r : NvRecord) (p : Polder) : Polder :=
  let p1 := match r.clock with
    | some c => modClk (fun k => { k with stored := c.band }) (wr (wr (wr p A.CLK_CFG c.cfg) A.CLK_FRAC c.frac) A.CLK_FREF c.fref)
    | none => p
  let p2 := match r.safety with
    | some s =>
      let q := wr (modSpb (fun b => { b with password := s.password, confirmed := if s.set'.length = 28 then some s.set' else none }) p1)
        A.SPB_TESTAGE (wordN s.age)
      testDue (if s.set'.length = 28 then wr (loadSafety s.set' q) A.SPB_CRC_OK s.crc else q)
    | none => p1
  let p3 := match r.changeLog with
    | some (n, l) => modSpb (fun b => { b with log := l }) (wr p2 A.SPB_LOGCNT (wordN n))
    | none => p2
  fputB { p3 with lrn := { p3.lrn with stored := r.learner } } F.LRN_STAT_NVVALID r.learner.isSome

/-- Code memory is loaded from the slot booted (R422, R445). -/
def loadCode (slot : Nat) (p : Polder) : Polder := modEng (fun e => { e with ceCode := (slotCode p slot).1, seCode := (slotCode p slot).2 }) p

/-- What the SE's reload of the CE reads from the active slot: its CE code where the slot is valid (R424). -/
def reloadCode (part : Part) (p : Polder) : Option (List Byte) :=
  let slot := (bootSec p).active
  if slotResult part p slot = 0 then some (slotCode p slot).1 else none

/-- t0 to t4 of R445: the reset is released and the boot ROM runs. `hallEp` and `dkhEp` are the epochs of the Hall bridge and the Dikehouse. -/
def bootStart (part : Part) (now hallEp dkhEp : Nat) (p0 : Polder) : Polder :=
  let pick := chooseBank p0.nv.bank0.valid p0.nv.bank1.valid p0.nv.bank0.seq p0.nv.bank1.seq
  let r : NvRecord := match pick with
    | some 0 => p0.nv.bank0.data
    | some _ => p0.nv.bank1.data
    | none => {}
  let p1 := modNv (fun v => { v with image := r }) (fput { p0 with power := .booting } F.NVS_STAT_BANK (pick.getD 0))
  let p2 := nvShow (loadSections r p1)
  let p3 := modTim (fun t => { t with tbl := 0, tblAt := now }) (retime now (backupRate p2) p2)
  let p4 := modEng (fun e => { e with epochHall := hallEp, epochDkh := dkhEp }) (setDom 1 (bn (fbit p3 (F.TIM_DOMCFG_EN 1))) (setDom 0 (bn (fbit p3 (F.TIM_DOMCFG_EN 0))) p3))
  let p5 := modBoot (fun b => { b with bootCount := (b.bootCount + 1) % 65536, t0 := now }) { p4 with spb := { p4.spb with ageAt := now }, fio := { p4.fio with lpSince := some now } }
  let p6 := { p5 with flt := { p5.flt with resp := Vector.ofFn fun (k : Fin 15) => rd p5 (A.FLT_RESP k.val) } }
  let p7 := wr p6 A.PCT_MINRB (wordN (bootSec p6).minRb)
  let c := bootChoice part p7
  let p8 := match c.1 with
    | some (slot, trial, fall) =>
      wr (loadCode slot (fputB (fputB (fput p7 F.PCT_BOOT_SLOT slot) F.PCT_BOOT_TRIAL trial) F.PCT_BOOT_FALLBACK fall)) A.PCT_FWVER
        (wordN (u32At (slotBytes p7 slot 0 24) 20))
    | none => fput p7 F.PCT_BOOT_RESCUE 1
  let p9 := fput (fput (fput p8 F.PCT_BOOT_CAUSE p8.boot.cause) F.PCT_BOOT_FWSTATE c.2.state.code) F.PCT_BOOT_REVOKED p8.boot.revoked
  let p10 := if c.2 = bootSec p9 then p9 else setBootSec now c.2 p9
  fput (fput (nvFlush now (restoreLog now p10)) F.PCT_ENG_CE_STATE Eng.loading) F.PCT_ENG_SE_STATE Eng.loading

/-- t4 of R445, from which the converters settle: it lies at a free instant between t0 and t5. -/
def settleAt (now : Nat) (p : Polder) : Nat := max p.boot.t0 (now - Config.settledFor p.id p.free)

/-- t5 of R445: STANDBY with both engines running, or rescue, which the SE boot ROM serves (R452). -/
def bootDone (now : Nat) (p : Polder) : Polder :=
  let p1 := fput p F.PCT_BOOT_BOOTMS (min 65535 ((now - p.boot.t0) / ms))
  let p2 := fput { p1 with power := .awake } F.PCT_ENG_SE_STATE Eng.run
  if rescue p2 then fput (fput p2 F.PCT_ENG_CE_STATE Eng.reset) F.PCT_REGIME_CUR Rg.standby
  else
    let p3 := lanesStart now (settleStart now (settleAt now p2) (fput p2 F.PCT_ENG_CE_STATE Eng.run))
    let p4 := setRegimeFrom now 0 Rg.standby 0 p3
    let p5 := if (bootSec p4).state = .trialRunning then modBoot (fun b => { b with trialEnd := some (now + (bootSec p4).timeout * sec) }) p4 else p4
    linkKicks now (logRec now 9 p5.boot.cause Sev.info (wBytes (rd p5 A.PCT_BOOT) ++ wBytes (rd p5 A.PCT_FWVER)) p5)

/-- BOOT_COMPLETE. -/
def bootComplete (now : Nat) (p : Polder) : Polder := if p.power = .booting then bootDone now p else p

/-- FW_CONFIRM in TRIAL_RUNNING (R448, R451). -/
def fwConfirm (now : Nat) (p : Polder) : Polder :=
  let b := bootSec p
  let h := slotBytes p b.trial 0 128
  let p1 := modBoot (fun x => { x with revoked := x.revoked ||| hdrRevoke h % 16, trialEnd := none }) p
  let p2 := fput p1 F.PCT_BOOT_REVOKED p1.boot.revoked
  let p3 := if hdrRevoke h % 16 = 0 then p2 else logRec now 9 p2.boot.cause Sev.info (wBytes (rd p2 A.PCT_BOOT) ++ wBytes (rd p2 A.PCT_FWVER)) p2
  putBootSec now { b with active := b.trial, state := .confirmed, minRb := max b.minRb (hdrRollback h) } p3

/-! ### Sleep and wake (R454, R455) -/

/-- Regimes from which SLEEP is taken. -/
def maySleep (p : Polder) : Bool := [Rg.standby, Rg.ready, Rg.tripped, Rg.safe].contains (regime p)

/-- SLEEP turns the breaker output off: the commanded state is open, `BRK` follows it without an auxiliary input (R93), and a command that waits for its order
ends with STATE (R118). -/
def brkRest (p : Polder) : Polder :=
  let p0 := match p.rgm.order with
    | some o => brkReply o Status.state p
    | none => p
  let p1 := modRgm (fun g => { g with brkCmd := false, byCmd := false, order := none, closeAt := none }) p0
  if auxEn p then p1 else fput p1 F.PCT_REGIME_BRK 0

/-- Steps 1 to 4 of R454. -/
def goSleep (now : Nat) (p : Polder) : Polder :=
  let p1 := sluAbortAll now Rsn.sleep (refuseAll (dinFreeze now p))
  let p2 := fput (laneStop (brkRest (recSleep (order now 15 0 p1)))) F.SWG_STAT_RUN 0
  let p3 := modSpb (fun s => { s with asleep := true, lane1 := false, test := none, testWanted := false }) (answerAcks Status.state (fput p2 F.SPB_STAT_STATE 0))
  let p4 := [0, 1, 2, 3].foldl (fun q n => if linkState q n = LinkSt.off then q else setLinkState n LinkSt.down (endRetrain n Status.state q)) p3
  let p5 := setRegime now Rg.sleep 0 (nvFlush now p4)
  let p6 := retime now (sleepRate p5) (fput (fput (fput p5 F.CLK_STAT_LOCK 0) F.CLK_STAT_SRC 1) F.CLK_STAT_STATE 4)
  timeUpdate now none (modClk (fun c => { c with calibrating := false }) { p6 with power := .asleep })

/-- WAKE from SLEEP, t0 of R455: core clocks on the backup oscillator, on which x_PPS is low (R389), and the first lock attempt. The FIFO of the
sampled values is flushed as CLK_P returns (R31). -/
def startWake (now : Nat) (p : Polder) : Polder :=
  let p1 := modTim (fun t => { t with ppsHigh := none }) (modClk (fun c => { c with storedTries := 0, everLocked := false }) { p with power := .waking, flt := { p.flt with svOut := [] } })
  let p2 := settleStart now now (fput (retime now (backupRate p1) p1) F.CLK_STAT_TRIES 0)
  if fbit p2 F.CLK_STAT_REFOK then lockAttempt now p2 else p2

/-- WAKE_COMPLETE, t4 of R455. -/
def wakeComplete (now : Nat) (p : Polder) : Polder :=
  if p.power = .waking then
    linkKicks now (setRegime now Rg.standby 0 (lanesStart now (settlingEnd now (dinResume now { p with power := .awake }))))
  else p

end Sys2Proof.Machine
end

