-- ==== Sys2Proof/Machine/Device.lean ====
section
/-!
DEFINITION. What the Hall and the Dikehouse share: Dikehouse time, the device NV image and the device log (R459, R467, R477 to R481), the
words that reads of their registers return, and the events of both.
-/
namespace Sys2Proof.Machine
open Sys2Proof

def modHall (f : Hall → Hall) (s : State) : State := { s with hall := f s.hall }
def modDkh (f : Dikehouse → Dikehouse) (s : State) : State := { s with dkh := f s.dkh }
def State.modPol (s : State) (i : PolderId) (f : Polder → Polder) : State := s.setPol i (f (s.pol i))

/-- What follows at once from a change: comparators, trip sources and the safe pulse block, then the links, which train only where no sequencing has
begun (R299, R301). In rescue, asleep or in reset none of them runs. -/
def follow (now : Nat) (p : Polder) : Polder :=
  if awake p && !rescue p then linkKicks now (settleAll now (cmpSettle now p)) else p

/-- A polder after any change: what follows has settled, the event bits set count as set in the present cycle (R38), and the way presented time ran until
now is kept (R391). -/
def polish (now : Nat) (p : Polder) : Polder :=
  let q := mapKept now (follow now p)
  { q with cyc := q.cyc.stamped (now / cyc) }

/-- The polders that the part has. -/
def presentPolders (s : State) : List PolderId := [PolderId.A, .B, .C, .D].filter fun i => Part.has s.part i

/-- The polder with a number, 1 to 4. -/
def polderNo : Nat → Option PolderId
  | 1 => some .A
  | 2 => some .B
  | 3 => some .C
  | 4 => some .D
  | _ => none

/-! ### Dikehouse time (R459, R471) -/

/-- `DKH_RTC` at an instant. -/
def rtcNow (d : Dikehouse) (now : Nat) : Nat := ((krd d A.DKH_RTC).toNat + (now - d.rtcAt) / sec) % 4294967296

/-- The part of the second that the 32.768 kHz clock has counted, in whole ns. -/
def rtcNanos (d : Dikehouse) (now : Nat) : Nat := (now - d.rtcAt) % sec * 32768 / sec * 1000000000 / 32768

/-! ### Device NV and device log -/

/-- The device record changed; the write that stores it is due (R469). -/
def devTouch (now sect : Nat) (f : DevRecord → DevRecord) (d : Dikehouse) : Dikehouse := match d.dirtySince with
  | some _ => { d with image := f d.image }
  | none => { d with image := f d.image, dirtySince := some now, dirtySect := sect }

/-- A record of the device log, which goes to both stores (R477, R478, R480). -/
def devLog (now source code sev : Nat) (data : List Byte) (d : Dikehouse) : Dikehouse :=
  let r : LogRec := ⟨d.nextNo, rtcNow d now, rtcNanos d now, sev * 16, source, code % 65536, d.bootCount, data⟩
  devTouch now 6 (fun m => { m with events := some ((r :: m.events.getD []).take 128) })
    (kwr { d with sram := (r :: d.sram).take 64, nextNo := (d.nextNo + 1) % 4294967296 } A.DKH_LOGNEXT (wordN (d.nextNo + 1)))

/-! ### Words of the Dikehouse window -/

/-- Power state as `DKH_STAT.PSTATE` codes it. A waking polder still shows SLEEP (R22). -/
def powerCode : Power → Nat
  | .off => 0
  | .booting => 1
  | .asleep => 2
  | .waking => 2
  | .awake => 3

/-- `DKH_STAT`. -/
def dkhStat (s : State) : Word :=
  let g := [PolderId.A, .B, .C, .D].foldl (fun w i =>
    let n := i.num - 1
    let w1 := withBits w (2 * n + 1) (2 * n) (if Part.has s.part i then powerCode (s.pol i).power else 0)
    withBits w1 (12 + n) (12 + n) (bn (vget s.dkh.pols n {}).guard.isSome)) (krd s.dkh A.DKH_STAT)
  withBits g 16 16 (bn s.dkh.wakeLow)

/-- The word that a read of the Dikehouse window returns. -/
def dkhWord (s : State) (off : Nat) : Word :=
  if off = A.DKH_STAT then dkhStat s
  else if off = A.DKH_RTC then wordN (rtcNow s.dkh s.now)
  else krd s.dkh off

/-- An event of the Dikehouse: its bit, and the record with rule and polder (R481). -/
def dkhNote (now : Nat) (f : Fld) (rule pol : Nat) (s : State) : State :=
  let s1 := modDkh (kevt now f) s
  modDkh (devLog now 0x20 (2 ^ f.lo) Sev.fault (wBytes (dkhStat s1) ++ leBytes 1 rule ++ leBytes 1 pol)) s1

/-! ### Words of the Hall window -/

/-- The value in force of a register of R417, and of a field of it. -/
def hap (h : Hall) (off : Nat) : Word := cellGet hallReset h.applied off
def hapF (h : Hall) (f : Fld) : Nat := bitsOf (hap h f.off) f.hi f.lo

/-- Held values differ from those in force. -/
def hallStaged (h : Hall) : Bool := heldOffs.any fun o => hrd h o != hap h o

/-- No key slot holds a key. -/
def noKeys (h : Hall) : Bool := h.keys.toList.all fun k => k.isNone

/-- Listen mode (R415). -/
def listening (s : State) : Bool :=
  s.hall.up && hapF s.hall F.HAL_CFG_LISTEN_EN == 1 && (presentPolders s).all fun i => !awake (s.pol i)

/-- `HAL_STAT`: the link bits are stored, the others follow from the state. -/
def hallStat (s : State) : Word :=
  let w := withBits (hrd s.hall A.HAL_STAT) 29 29 (bn (listening s))
  let w1 := withBits (withBits w 28 28 (bn (hallStaged s.hall))) 27 27 (bn (noKeys s.hall))
  s.hall.sessions.foldl (fun x e => withBits x (16 + e.idx) (16 + e.idx) 1) (withBits w1 23 16 0)

/-- Holder of a token, as `HAL_TOKEN` shows it: 0xF when free. -/
def holderCode (h : Hall) (k : Nat) : Nat := match vget h.tokens k none with
  | some l => l.holder
  | none => 15

/-- `HAL_TOKEN`. -/
def tokenWord (h : Hall) : Word :=
  wordN (holderCode h 0 * 65536 + holderCode h 4 * 4096 + holderCode h 3 * 256 + holderCode h 2 * 16 + holderCode h 1)

/-- `HAL_ID`: part, polders present, protocol versions. -/
def hallId (part : Part) : Word := match part with
  | .fgc4400 => 0x44000F07#32
  | .fgc4200 => 0x42000307#32

/-- The word that a read of the Hall window returns. -/
def hallWord (s : State) (off : Nat) : Word :=
  if off = A.HAL_ID then hallId s.part
  else if off = A.HAL_STAT then hallStat s
  else if off = A.HAL_TOKEN then tokenWord s.hall
  else hrd s.hall off

/-- An event of the Hall: its bit, and the record with `HAL_STAT` and the session index, when there is one (R481). -/
def hallNote (now : Nat) (f : Fld) (sess : Option Nat) (s : State) : State :=
  let s1 := modHall (hevt now f) s
  modDkh (devLog now 0x21 (2 ^ f.lo) Sev.warn (wBytes (hallStat s1) ++ (sess.map (leBytes 1)).getD [])) s1

/-- A Hall counter of R418 advances. -/
def hallCount (off : Nat) (s : State) : State := modHall (fun h => hadd h off) s

end Sys2Proof.Machine
end

