-- ==== Sys2Proof/Machine/HallOut.lean ====
section
/-!
DEFINITION. What the Hall sends: packets with their check and tag (R400 to R402), the SPI output queue (R398), replies (R404, R411),
notifications (R412, R413), and what polders and the Dikehouse hand to it.
-/
namespace Sys2Proof.Machine
open Sys2Proof

/-- One frame on both ports; the number in the PRP trailers advances (R394). -/
def hallTx (f : Nat → Sent) (h : Hall) : Hall := { h with sent := h.sent ++ [f h.prpSeq], prpSeq := (h.prpSeq + 1) % 65536 }

/-- The station that a packet for an IPv4 address goes to: the address itself in the Hall's own subnet or without a gateway, the gateway
otherwise (R418). -/
def nextHop (h : Hall) (ip : Nat) : Nat :=
  let mask := (hap h A.HAL_NETMASK).toNat
  let gw := (hap h A.HAL_GW).toNat
  if gw = 0 ∨ ip &&& mask = (hap h A.HAL_IPADDR).toNat &&& mask then ip else gw

/-- What the cache of 16 entries with a lifetime of 60 s gives for an IPv4 address (R395). -/
def resolved (now : Nat) (h : Hall) (ip : Nat) : Option Nat :=
  (h.arp.find? fun e => e.1 == nextHop h ip && decide (now < e.2.2 + 60 * sec)).map fun e => e.2.1

/-! ### Packets -/

/-- Header of R400; `word` holds status and detail. -/
def header (ver tgt op seq len id word : Nat) : List Byte :=
  leBytes 1 ver ++ leBytes 1 tgt ++ leBytes 2 op ++ leBytes 2 seq ++ leBytes 2 len ++ leBytes 4 id ++ leBytes 2 word ++ leBytes 2 0

/-- Tag of R401; without a key to compute it with, 16 zero bytes (R403). -/
def tagOf (key body : List Byte) : List Byte := if key.isEmpty then zeros 16 else (hmac key body).take 16

/-- A packet with its CRC, and with a tag when `tagged`. -/
def packetBytes (ver tgt op seq id word : Nat) (payload : List Byte) (tagged : Bool) (key : List Byte) : List Byte :=
  let m := header ver tgt op seq payload.length id word ++ payload
  let body := m ++ wBytes (crc32 m)
  if tagged then body ++ tagOf key body else body

/-! ### The SPI output queue (R398) -/

/-- The queue without its oldest notification, if it holds one. -/
def dropNote : List (List Byte × Bool) → Option (List (List Byte × Bool))
  | [] => none
  | x :: l => if x.2 then some l else (dropNote l).map (x :: ·)

/-- A packet for the SPI host. A full queue gives up its oldest notification, or the new packet when none waits. -/
def spiPush (now : Nat) (note : Bool) (b : List Byte) (s : State) : State :=
  if s.hall.spiOut.length < 16 then modHall (fun h => { h with spiOut := h.spiOut ++ [(b, note)] }) s
  else
    let lost := fun x => hallNote now F.HAL_EVT_SPI_OVF none (hallCount A.HAL_SPIDROP x)
    match dropNote s.hall.spiOut with
    | some l => lost (modHall (fun h => { h with spiOut := l ++ [(b, note)] }) s)
    | none => if note then hallNote now F.HAL_EVT_NOTIFY_LOST none (hallCount A.HAL_NOTLOST (lost s)) else lost s

/-- A packet to where a command came from, from port 4401, or for a notification to port 4402 of that address (R402, R412). The spec names no port that
notifications come from: it is a free value (notes/assumptions/38.md). -/
def sendTo (now : Nat) (src : Source) (note : Bool) (b : List Byte) (s : State) : State := match src with
  | .spi => spiPush now note b s
  | .eth _ ip udp => modHall (fun h => hallTx (fun n => .udp n (hapF h F.HAL_CFG_PCP_CMD) (resolved now h ip) ip
      (if note then Config.notifyPort.val else 4401) (if note then 4402 else udp) b) h) s

/-! ### Sessions by index -/

def sessOf (h : Hall) (i : Nat) : Option Session := h.sessions.find? fun x => x.idx == i
def sessById (h : Hall) (id : Nat) : Option Session := h.sessions.find? fun x => x.id == id

/-- A session changed. -/
def modSess (i : Nat) (f : Session → Session) (s : State) : State :=
  modHall (fun h => { h with sessions := h.sessions.map fun x => if x.idx = i then f x else x }) s

/-- A target as the session sees it: in version 1.0, 0x01 is the bound polder, and there is no other (R407). -/
def seenTarget (x : Session) (t : Nat) : Option Nat :=
  if x.ver = 0x10 ∧ 1 ≤ t ∧ t ≤ 4 then (if t = x.bound then some 1 else none) else some t

/-! ### Replies (R402, R404, R411) -/

def isEth : Source → Bool
  | .spi => false
  | .eth _ _ _ => true

/-- A reply packet of a session. -/
def replyPacket (x : Session) (src : Source) (a : Answer) : List Byte :=
  packetBytes x.ver ((seenTarget x a.target).getD a.target) a.opcode a.seq x.id (a.status + 256 * a.detail) a.payload
    (isEth src || !x.key.isEmpty) x.key

/-- A reply leaves to `src`, and to where repetitions of the command came from; it becomes the reply last sent (R404). -/
def sendReply (now : Nat) (src : Source) (a : Answer) (s : State) : State := match sessOf s.hall a.sess with
  | none => s
  | some x =>
    let s1 := sendTo now src false (replyPacket x src a) s
    if a.seq = x.lastSeq then
      x.repeats.foldl (fun y r => sendTo now r false (replyPacket x r a) y)
        (modSess x.idx (fun e => { e with lastReply := some a, repeats := [] }) s1)
    else s1

/-! ### Notifications (R412, R413) -/

/-- A notification to one session: kept, and sent unless the session's version is 1.0. -/
def notify (now idx target status kind flag : Nat) (body : List Byte) (s : State) : State := match sessOf s.hall idx with
  | none => s
  | some x => match seenTarget x target with
    | none => s
    | some t =>
      let n : Note := ⟨x.noteSeq, t, status, kind, flag, body⟩
      let s1 := modSess idx (fun e => { e with noteSeq := (e.noteSeq + 1) % 65536, notes := (e.notes ++ [n]).drop (e.notes.length - 7) }) s
      if x.ver = 0x10 then s1
      else sendTo now x.src true
        (packetBytes x.ver t 0x00F0 x.noteSeq x.id status ([BitVec.ofNat 8 kind, BitVec.ofNat 8 flag, 0#8, 0#8] ++ body)
          (isEth x.src || !x.key.isEmpty) x.key) s1

/-- A notification to every session that has subscribed to its class for its target. -/
def notifySubs (now cls target kind : Nat) (body : List Byte) (s : State) : State :=
  let bit := if target = 0 ∨ target = 15 then 0 else target
  s.hall.sessions.foldl (fun y x => if x.classes.testBit cls && x.targets.testBit bit then notify now x.idx target 0 kind 0 body y else y) s

/-- DONE with a final reply, which becomes the reply last sent for its `SEQ` (R411, R412). -/
def notifyDone (now : Nat) (a : Answer) (s : State) : State :=
  let ref := leBytes 2 a.opcode ++ leBytes 2 a.seq
  let s1 := if a.payload.length ≤ 1012 then notify now a.sess a.target (a.status + 256 * a.detail) 1 0 (ref ++ a.payload) s
    else notify now a.sess a.target (a.status + 256 * a.detail) 1 1 ref s
  modSess a.sess (fun x => if x.lastSeq = a.seq then { x with lastReply := some a, repeats := [] } else x) s1

/-! ### What the targets hand over -/

/-- One item: replies and DONE notifications wait for TARGET_REPLY, others leave at once. While the Hall is in reset, all are lost. -/
def takeOut (now : Nat) (o : Out) (s : State) : State :=
  if !s.hall.up then s
  else match o with
    | .answer _ => modHall (fun h => { h with replies := h.replies ++ [o] }) s
    | .done _ _ _ _ _ _ _ => modHall (fun h => { h with replies := h.replies ++ [o] }) s
    | .toSession i t st k f b => notify now i t st k f b s
    | .toClass c t k b => notifySubs now c t k b s
    | .datagram ip port b => modHall (fun h => hallTx (fun n => .udp n (hapF h F.HAL_CFG_PCP_STOMET) (resolved now h ip) ip 4403 port b) h) s

/-- Writes into a polder's FIFO to the Hall while the Hall's clock stands are discarded and counted (R31). -/
def fifoCount (i : PolderId) (s : State) (n : Nat) : State :=
  if s.hall.up then s else modHall (fun h => { h with fifoLost := vmod h.fifoLost (i.num - 1) (· + n) }) s

/-- The items of one polder, of the Dikehouse. -/
def takePolder (now : Nat) (s : State) (i : PolderId) : State :=
  (s.pol i).out.foldl (fun y o => takeOut now o y) (fifoCount i (s.modPol i fun p => { p with out := [] }) (s.pol i).out.length)
def takeDkh (now : Nat) (s : State) : State :=
  let n := if s.hall.up then 0 else s.dkh.out.length
  s.dkh.out.foldl (fun y o => takeOut now o y) (modDkh (fun d => { d with out := [], fifoLost := d.fifoLost + n }) s)

/-- Everything that a step has handed over leaves the outboxes. -/
def collect (now : Nat) (s : State) : State := [PolderId.A, .B, .C, .D].foldl (takePolder now) (takeDkh now s)

/-- Target and answer of an item that waits: its reply is on the way. -/
def Out.asAnswer : Out → Option Answer
  | .answer a => some a
  | .done i t op seq st dt b => some ⟨t, i, op, seq, st, dt, b⟩
  | _ => none

/-- A reply to this command waits to be forwarded. -/
def hasReply (h : Hall) (t sess seq : Nat) : Bool :=
  h.replies.any fun o => match o.asAnswer with
    | some a => a.target == t && a.sess == sess && a.seq == seq
    | none => false

/-- Index of a target's queue. -/
def queueNo (t : Nat) : Nat := if t = 15 then 5 else t

/-- A delivered command whose outcome the target will not give: answered, or its DONE sent where TIMEOUT or ACCEPTED_PENDING has gone out. -/
def endFlight (now status detail : Nat) (s : State) (f : InFlight) : State :=
  let a : Answer := ⟨f.target, f.q.cmd.sess, f.q.opcode, f.q.cmd.seq, status, detail, []⟩
  let s1 := if f.late || f.pending then notifyDone now a s else sendReply now f.q.src a s
  modHall (fun h => { h with inFlight := h.inFlight.filter (· != f) }) s1

/-- A polder becomes unavailable (R22, R23, R414): waiting commands and delivered ones without a final reply are answered. -/
def hallDrop (now : Nat) (i : PolderId) (detail : Nat) (s : State) : State :=
  let q := vget s.hall.queues i.num []
  let s1 := q.foldl (fun y x => sendReply now x.src ⟨i.num, x.cmd.sess, x.opcode, x.cmd.seq, Status.unavailable, detail, []⟩ y)
    (modHall (fun h => { h with queues := vset h.queues i.num [] }) s)
  (s1.hall.inFlight.filter fun f => f.target == i.num && !hasReply s1.hall i.num f.q.cmd.sess f.q.cmd.seq).foldl
    (endFlight now Status.unavailable detail) s1

end Sys2Proof.Machine
end

