-- ==== Sys2Proof/Machine/HallSession.lean ====
section
/-!
DEFINITION. Keys, sessions and control tokens of the Hall (R406 to R410), and the commands that it carries out itself (R419), with the
configuration that is applied as a whole (R417).
-/
namespace Sys2Proof.Machine
open Sys2Proof

/-! ### Tokens (R409, R410) -/

/-- The session holds a token. -/
def holds (h : Hall) (k i : Nat) : Bool := match vget h.tokens k none with
  | some l => l.holder == i
  | none => false

/-- A token taken or renewed: the lease runs for 2 s. -/
def leaseTo (now k i : Nat) (s : State) : State := modHall (fun h => { h with tokens := vset h.tokens k (some ⟨i, now + 2 * sec⟩) }) s

/-- A token becomes free, and its holder's OPEN sluices in that polder abort. -/
def freeToken (now k : Nat) (s : State) : State := match vget s.hall.tokens k none with
  | none => s
  | some l =>
    let s1 := modHall (fun h => { h with tokens := vset h.tokens k none }) s
    match polderNo k with
    | some i => if awake (s1.pol i) then s1.modPol i (sluAbortOwner now l.holder) else s1
    | none => s1

/-- A token is lost by a lapse or by FORCE: it becomes free, and the polder's log records the session (R481). -/
def loseToken (now k i : Nat) (s : State) : State :=
  let s1 := freeToken now k s
  match polderNo k with
  | some p => if awake (s1.pol p) then s1.modPol p (logRec now 0x0C 2 Sev.warn (leBytes 1 i)) else s1
  | none => s1

/-- TOKEN_LAPSE: 2 s after the last renewal. It acts once the Hall clock cycle of the lapse is over, as a command of that cycle renews the lease (R476). -/
def tokenLapse (now k : Nat) (s : State) : State := match vget s.hall.tokens k none with
  | none => s
  | some l =>
    if l.until' / hallCyc < now / hallCyc then
      notify now l.holder 0 0 5 0 (leBytes 1 (2 ^ k) ++ zeros 3) (hallNote now F.HAL_EVT_TOKEN_LAPSE (some l.holder) (loseToken now k l.holder s))
    else s

/-- Tokens of a mask. -/
def tokensOf (m : Nat) : List Nat := [0, 1, 2, 3, 4].filter fun k => m.testBit k

/-- Mask of the tokens that satisfy a condition. -/
def tokenMask (f : Nat → Bool) : Nat := [0, 1, 2, 3, 4].foldl (fun m k => m + (if f k then 2 ^ k else 0)) 0

/-- Held by this session, by others. -/
def ownTokens (h : Hall) (i : Nat) : Nat := tokenMask fun k => holds h k i
def otherTokens (h : Hall) (i : Nat) : Nat := tokenMask fun k => (vget h.tokens k none).isSome && !holds h k i

/-! ### Sessions (R406, R408) -/

/-- A session closes: its tokens are released with the effects of R410 (freed, `TOKEN_LAPSE`, its OPEN sluices aborted, the TOKEN notification), and a closing
that the host did not request is notified. -/
def closeSession (now i : Nat) (cause : Option Nat) (s : State) : State := match sessOf s.hall i with
  | none => s
  | some _ =>
    let m := ownTokens s.hall i
    let s1 := (tokensOf m).foldl (fun y k => loseToken now k i y) s
    let s2 := if m = 0 then s1 else notify now i 0 0 5 0 (leBytes 1 m ++ zeros 3) (hallNote now F.HAL_EVT_TOKEN_LAPSE (some i) s1)
    let s3 := collect now ((presentPolders s2).foldl (fun y p => if awake (y.pol p) then y.modPol p (sluAbortOwner now i) else y) s2)
    let s4 := match cause with
      | some c => notify now i 0 0 8 0 (leBytes 1 c ++ zeros 3) s3
      | none => s3
    modHall (fun h => { h with sessions := h.sessions.filter fun x => x.idx != i }) s4

/-- SESSION_TIMEOUT: `HAL_SESSTMO` without a packet that passes step 4 of R403. -/
def sessionTimeout (now i : Nat) (s : State) : State := match sessOf s.hall i with
  | none => s
  | some x => if x.lastSeen + (hap s.hall A.HAL_SESSTMO).toNat * sec ≤ now then closeSession now i (some 0) s else s

/-- A session ID that no session has: the first fresh draw, else the lowest unused number. -/
def freshId (h : Hall) (n : Nat) : Nat :=
  let used := fun k => h.sessions.any fun x => x.id == k
  match ((List.range 8).map fun k => (Config.sessionId (n + k)).val + 1).find? fun k => !used k with
  | some k => k
  | none => (((List.range 9).map (· + 1)).find? fun k => !used k).getD 1

/-- The highest protocol version that both sides support. -/
def chooseVersion (host : Nat) : Option Nat :=
  if host.testBit 2 then some 0x21 else if host.testBit 1 then some 0x20 else if host.testBit 0 then some 0x10 else none

/-- A polder number that version 1.0 may bind to. -/
def boundOk (part : Part) (n : Nat) : Bool := match polderNo n with
  | some i => Part.has part i
  | none => false

/-- Role, token mask and key that a HELLO's slot gives: 0xFF is the unauthenticated SPI session (R408). -/
def slotRights (h : Hall) (slot : Nat) : Nat × Nat × List Byte :=
  if slot = 255 then
    (if noKeys h then (2, 31, []) else (hapF h F.HAL_CFG_SPI_ROLE, hapF h F.HAL_CFG_SPI_TOK, []))
  else match vget h.keys slot none with
    | some k => (k.role, k.mask, k.key)
    | none => (0, 0, [])

/-- Role and token mask of a session: those of its slot, and those that hold at present for an unauthenticated SPI session (R408). -/
def roleOf (h : Hall) (x : Session) : Nat := if x.slot = 8 then (slotRights h 255).1 else x.role
def maskOf (h : Hall) (x : Session) : Nat := if x.slot = 8 then (slotRights h 255).2.1 else x.mask

/-- What HELLO answers, and the session it opens: version, slot and bound polder are judged before the room for a session. -/
def helloOpen (now : Nat) (a : HelloArgs) (s : State) : Reply × Nat × State :=
  let slot := byteAt a.payload 2
  let bound := byteAt a.payload 3
  match chooseVersion (u16At a.payload 0) with
  | none => (bare Status.version, a.ver, s)
  | some v =>
    if (slot = 255 ∧ isEth a.src = true) ∨ (7 < slot ∧ slot ≠ 255) then (bare Status.range, v, s)
    else if v = 0x10 ∧ boundOk s.part bound = false then (bare Status.range, v, s)
    else match (List.range 8).find? fun i => (sessOf s.hall i).isNone with
      | none => (bare Status.conflict, v, s)
      | some i =>
        let r := slotRights s.hall slot
        let id := freshId s.hall s.free
        let nd := (List.range 16).map (Config.nonceByte s.free)
        let key := if r.2.2.isEmpty then [] else hmac r.2.2 ((a.payload.drop 4).take 16 ++ nd ++ leBytes 4 id)
        let body := leBytes 1 v ++ leBytes 1 r.1 ++ leBytes 2 (hap s.hall A.HAL_SESSTMO).toNat ++ leBytes 4 id ++ nd ++ leBytes 1 i ++
          leBytes 1 r.2.1 ++ leBytes 2 ((hallId s.part).toNat % 65536)
        let x : Session :=
          { idx := i, id := id, ver := v, src := a.src, role := r.1, mask := r.2.1, slot := if slot = 255 then 8 else slot, key := key,
            bound := bound, lastSeq := a.seq, lastReply := some ⟨0, i, Op.hello, a.seq, 0, 0, body⟩, repeats := [], lastSeen := now,
            classes := 0, targets := 0, noteSeq := 1, notes := [] }
        (okWith body, v, { modHall (fun h => { h with sessions := h.sessions ++ [x] }) s with free := s.free + 8 })

/-- HELLO: the session, and the reply with the chosen version and the tag of the slot's key (R401, R406, R419). -/
def hello (now : Nat) (a : HelloArgs) (s : State) : State :=
  let slot := byteAt a.payload 2
  let key := (slotRights s.hall slot).2.2
  let r := helloOpen now a s
  sendTo now a.src false
    (packetBytes r.2.1 0 Op.hello a.seq 0 (r.1.status + 256 * r.1.detail) r.1.payload (isEth a.src || !key.isEmpty) key) r.2.2

/-! ### Commands of the Hall (R419)

Each gives its reply, the state, and what follows the reply. -/

abbrev HallOutcome := Reply × State × (State → State)

def hallOk (l : List Byte) (s : State) : HallOutcome := (okWith l, s, id)
def hallBad (r : Reply) (s : State) : HallOutcome := (r, s, id)

/-- The Hall's reply to a command, then what follows it. -/
def hallAnswer (now : Nat) (src : Source) (tgt op : Nat) (c : Cmd) (o : HallOutcome) : State :=
  o.2.2 (sendReply now src ⟨tgt, c.sess, op, c.seq, o.1.status, o.1.detail, o.1.payload⟩ o.2.1)

def hBye (now : Nat) (c : Cmd) (s : State) : HallOutcome := (okWith [], s, closeSession now c.sess none)

/-- TOKEN_TAKE: all the named tokens or none. An absent polder is judged first, then the session's rights, then the holders. -/
def hTake (now : Nat) (x : Session) (c : Cmd) (s : State) : HallOutcome :=
  let m := byteAt c.payload 0 % 32
  let force := (byteAt c.payload 1).testBit 0
  let l := tokensOf m
  if l.any fun k => match polderNo k with
    | some i => !Part.has s.part i
    | none => false then hallBad ⟨Status.unavailable, 1, []⟩ s
  else if roleOf s.hall x = 0 ∨ l.any (fun k => !(maskOf s.hall x).testBit k) = true ∨ (force = true ∧ roleOf s.hall x ≠ 2) then hallBad (bare Status.locked) s
  else
    let held := l.filter fun k => (vget s.hall.tokens k none).isSome && !holds s.hall k x.idx
    if held ≠ [] ∧ !force then hallBad (bare Status.conflict) s
    else
      let owners := (List.range 8).filter fun i => held.any fun k => holds s.hall k i
      let s1 := held.foldl (fun y k => loseToken now k (holderCode s.hall k) y) s
      let s2 := if held.isEmpty then s1 else hallNote now F.HAL_EVT_TOKEN_FORCED (some x.idx) s1
      let s3 := owners.foldl (fun y i =>
        notify now i 0 0 5 0 (leBytes 1 (tokenMask fun k => held.contains k && holds s.hall k i) ++ leBytes 1 1 ++ zeros 2) y) s2
      let s4 := l.foldl (fun y k => leaseTo now k x.idx y) s3
      hallOk (leBytes 1 (ownTokens s4.hall x.idx) ++ leBytes 1 (otherTokens s4.hall x.idx) ++ leBytes 2 2000) s4

/-- TOKEN_RELEASE: tokens not held are ignored. -/
def hRelease (now : Nat) (x : Session) (c : Cmd) (s : State) : HallOutcome :=
  let s1 := ((tokensOf (byteAt c.payload 0)).filter fun k => holds s.hall k x.idx).foldl (fun y k => freeToken now k y) s
  hallOk (leBytes 1 (ownTokens s1.hall x.idx) ++ zeros 3) s1

def hSubscribe (x : Session) (c : Cmd) (s : State) : HallOutcome :=
  let cl := byteAt c.payload 0 % 16
  let tg := byteAt c.payload 1 % 32
  hallOk (leBytes 1 cl ++ leBytes 1 tg ++ zeros 2) (modSess x.idx (fun e => { e with classes := cl, targets := tg }) s)

/-- GET_NOTIFICATIONS. With nothing kept, the two numbers of the RANGE reply are free values. -/
def hNotes (x : Session) (c : Cmd) (s : State) : HallOutcome :=
  match x.notes.find? (fun n => n.seq == u16At c.payload 0), x.notes with
  | some n, _ =>
    hallOk (leBytes 2 n.seq ++ leBytes 1 n.target ++ leBytes 1 n.status ++
      [BitVec.ofNat 8 n.kind, BitVec.ofNat 8 n.flag, 0#8, 0#8] ++ n.body) s
  | none, n :: l => hallBad ⟨Status.range, 0, leBytes 2 n.seq ++ leBytes 2 ((n :: l).getLastD n).seq⟩ s
  | none, [] =>
    hallBad ⟨Status.range, 0, leBytes 2 (Config.noSeq s.free false).toNat ++ leBytes 2 (Config.noSeq s.free true).toNat⟩ { s with free := s.free + 1 }

/-! ### The configuration applied as a whole (R417) -/

/-- GO: held values come into force and are stored in the device NV. -/
def applyHeld (now : Nat) (s : State) : State :=
  let a := heldOffs.foldl (fun l o => cellSet hallReset l o (hrd s.hall o)) s.hall.applied
  modDkh (devTouch now 1 fun m => { m with network := some a }) (modHall (fun h => { h with applied := a }) s)

/-- DISCARD: held values return to those in force. -/
def discardHeld (s : State) : State := modHall (fun h => heldOffs.foldl (fun y o => hwr y o (hap h o)) h) s

/-- CNTCLR: the counters at 0x080 to 0x0A4. -/
def clearCounters (s : State) : State := modHall (fun h => (List.range 10).foldl (fun y k => hwr y (A.HAL_CMDS + 4 * k) 0) h) s

/-- A write of `HAL_APPLY`: with both bits DISCARD acts. -/
def applyWrite (now : Nat) (w : Word) (s : State) : State :=
  let s1 := if bitOf w 2 then clearCounters s else s
  if bitOf w 1 then discardHeld s1 else if bitOf w 0 then applyHeld now s1 else s1

/-- The six bytes of a MAC address as the words `HAL_MACH`, `HAL_MACL`; its first byte is the highest. -/
def macWords (n : Nat) : Word × Word := (wordN (n / 4294967296), wordN (n % 4294967296))

/-- SET_NETWORK: the registers of R417 but for `HAL_SVCFGp`, applied after the reply. -/
def hNetwork (now : Nat) (c : Cmd) (s : State) : HallOutcome :=
  let b := c.payload
  let mac := beNat (b.take 6)
  let w := macWords (if mac = 0 then Config.factoryMac.toNat else mac)
  let mask := u32At b 10
  let tmo := u16At b 18
  if (byteAt b 0).testBit 0 || !rngOk 32 .ipmask mask || decide (tmo < 3) || decide (600 < tmo) || decide (7 < byteAt b 21) ||
      decide (7 < byteAt b 22) || decide (7 < byteAt b 23) || decide (7 < byteAt b 24) || decide (2 < byteAt b 25) ||
      decide (31 < byteAt b 26) then hallBad (bare Status.range) s
  else
    let cfg := wordN (byteAt b 20 % 2 * 2 ^ 31 + byteAt b 25 * 2 ^ 29 + byteAt b 26 * 2 ^ 24 + byteAt b 23 * 2 ^ 21 + byteAt b 24 * 2 ^ 18 +
      byteAt b 22 * 2 ^ 15 + byteAt b 21 * 2 ^ 12)
    let l := [(A.HAL_CFG, cfg), (A.HAL_MACH, w.1), (A.HAL_MACL, w.2), (A.HAL_IPADDR, wordN (u32At b 6)), (A.HAL_NETMASK, wordN mask),
      (A.HAL_GW, wordN (u32At b 14)), (A.HAL_SESSTMO, wordN tmo)]
    (okWith [], modHall (fun h => l.foldl (fun y e => hwr y e.1 e.2) h) s, applyHeld now)

/-- A byte of printable ASCII. -/
def printable (b : Byte) : Bool := decide (32 ≤ b.toNat ∧ b.toNat ≤ 126)

/-- SET_SV: sampled-value addressing of a polder, with svID and confRev. -/
def hSv (now : Nat) (c : Cmd) (s : State) : HallOutcome :=
  let b := c.payload
  let k := byteAt b 0
  let n := byteAt b 1
  let appid := u16At b 2
  match polderNo k with
  | none => hallBad (bare Status.range) s
  | some i =>
    if !Part.has s.part i then hallBad ⟨Status.unavailable, 1, []⟩ s
    else if n = 0 ∨ 34 < n ∨ appid < 0x4000 ∨ 0x7FFF < appid ∨ 511 < u16At b 4 ∨ ((b.drop 12).take n).all printable = false then
      hallBad (bare Status.range) s
    else
      let s1 := modHall (fun h =>
        let y := hwr h (A.HAL_SVCFG (k - 1)) (wordN (appid * 65536 + u16At b 4))
        { y with svId := vset y.svId (k - 1) ((b.drop 12).take n), svRev := vset y.svRev (k - 1) (u32At b 8) }) s
      let s2 := modDkh (devTouch now 2 fun m => { m with sv := some (s1.hall.svId, s1.hall.svRev) }) s1
      (okWith [], s2, applyHeld now)

/-- The pad of SET_KEY: HMAC-SHA-256 of the session key over "KEY" and the slot. -/
def keyPad (key : List Byte) (slot : Nat) : List Byte := hmac key (ascii "KEY" ++ leBytes 1 slot)

/-- SET_KEY: the sessions on the slot close after the reply. -/
def hKey (now : Nat) (x : Session) (c : Cmd) (s : State) : HallOutcome :=
  let slot := byteAt c.payload 0
  let role := byteAt c.payload 1
  let field := (c.payload.drop 4).take 32
  if 7 < slot ∨ (2 < role ∧ role ≠ 255) then hallBad (bare Status.range) s
  else
    let key := if x.key.isEmpty then field else List.zipWith (· ^^^ ·) field (keyPad x.key slot)
    let keys := vset s.hall.keys slot (if role = 255 then none else some ⟨key, role, byteAt c.payload 2 % 32⟩)
    if keys.toList.any (fun k => k.isSome) ∧ !keys.toList.any (fun k => (k.map (·.role)) == some 2) then hallBad (bare Status.state) s
    else
      let s1 := modDkh (devTouch now 3 fun m => { m with keys := some keys }) (modHall (fun h => { h with keys := keys }) s)
      (okWith [], s1, fun y => (y.hall.sessions.filter fun e => e.slot == slot).foldl (fun z e => closeSession now e.idx (some 1) z) y)

/-- GET_HALL. -/
def hGetHall (s : State) : HallOutcome :=
  hallOk (wBytes (hallStat s) ++ wBytes (tokenWord s.hall) ++ wBytes (hrd s.hall A.HAL_EVT) ++ wBytes (hrd s.hall A.HAL_IPADDR) ++
    (List.range 10).flatMap (fun k => wBytes (hrd s.hall (A.HAL_CMDS + 4 * k))) ++ zeros 4) s

/-- A command that the Hall carries out itself, by opcode; READ_WORDS and WRITE_WORDS stand in HallBridge.lean. -/
def hallCommand (now op : Nat) (x : Session) (c : Cmd) (s : State) : HallOutcome :=
  if op = Op.bye then hBye now c s
  else if op = Op.tokenTake then hTake now x c s
  else if op = Op.tokenRelease then hRelease now x c s
  else if op = Op.subscribe then hSubscribe x c s
  else if op = Op.getNotifications then hNotes x c s
  else if op = Op.setNetwork then hNetwork now c s
  else if op = Op.setSv then hSv now c s
  else if op = Op.setKey then hKey now x c s
  else hGetHall s

end Sys2Proof.Machine
end

