-- ==== Sys2Proof/Machine/Dikehouse.lean ====
section
/-!
DEFINITION. The Dikehouse (spec/16, R456 to R473) and what it does to the polders: power switches, guard, supervision, rules, watch inputs, the
device NV banks; with them the resets of polders, Hall and Dikehouse (R444, R496).
-/
namespace Sys2Proof.Machine
open Sys2Proof

/-- Dikehouse data of a polder. -/
def dpol (s : State) (i : PolderId) : DkhPolder := vget s.dkh.pols (i.num - 1) {}
def modDpol (i : PolderId) (f : DkhPolder → DkhPolder) (s : State) : State :=
  modDkh (fun d => { d with pols := vmod d.pols (i.num - 1) f }) s

/-- Bit of `DKH_STAT.HBLOST` of a polder. -/
def hbLostBit (s : State) (i : PolderId) : Bool := (krd s.dkh A.DKH_STAT).getLsbD (8 + (i.num - 1))
def setHbLost (i : PolderId) (b : Bool) (s : State) : State :=
  modDkh (fun d => kwr d A.DKH_STAT (withBits (krd d A.DKH_STAT) (8 + (i.num - 1)) (8 + (i.num - 1)) (bn b))) s

/-- Supervision settings of a polder. -/
def supF (s : State) (i : PolderId) (f : Nat → Fld) : Nat := kget s.dkh (f (i.num - 1))

/-! ### Resets of a polder -/

/-- A polder enters reset; the Hall turns its commands away (R22, R414, R444). -/
def resetPol (now : Nat) (i : PolderId) (cause : Nat) (sram : Bool) (s : State) : State :=
  hallDrop now i 2 (s.modPol i (enterReset cause sram))

/-- A polder enters reset and boots again when its reset is released (R450, R476): FW_ACTIVATE, the monitor, an SE code error. -/
def restartPol (now : Nat) (i : PolderId) (cause : Nat) (s : State) : State := resetPol now i cause true s

/-- OFF: the power switch opens; the polder is no longer supervised. -/
def powerOff (now : Nat) (i : PolderId) (s : State) : State :=
  setHbLost i false (modDpol i (fun d => { d with closed := false, guard := none, restartAt := none, resetEnd := none })
    (resetPol now i (s.pol i).boot.cause false s))

/-- RESTART: reset for 1 ms; restarts that supervision asked for are counted (R460, R464). A power switch that stands open stays open: only WAKE closes
it (R444, R464). -/
def powerRestart (now : Nat) (i : PolderId) (sup : Bool) (cause : Nat) (s : State) : State :=
  if !(dpol s i).closed then modDpol i (fun d => { d with guard := none, restartAt := none }) s else
  let s1 := resetPol now i cause true s
  let s2 := modDpol i (fun d => { d with
    guard := none, restartAt := none, resetEnd := some (now + ms),
    restarts := if sup then now :: d.restarts.filter (fun t => now < t + 3600 * sec) else d.restarts }) s1
  let s3 := if sup then modDkh (fun d => kadd d (A.DKH_RSTCNT (i.num - 1))) s2 else s2
  dkhNote now F.DKH_EVT_RESTART 0 i.num s3

/-- An action proceeds: the guard is satisfied or has expired. -/
def proceed (now : Nat) (i : PolderId) (action : Nat) (sup : Bool) (cause : Nat) (s : State) : State :=
  if action = 3 then powerOff now i s else powerRestart now i sup cause s

/-- The polder is in one of the four regimes for which the guard waits (R461). -/
def guarded (s : State) (i : PolderId) : Bool := awake (s.pol i) && lawRegime (s.pol i)

/-- An action with the guard: at once, or after a STOP request. -/
def withGuard (now : Nat) (i : PolderId) (action : Nat) (sup : Bool) (cause : Nat) (s : State) : State :=
  if guarded s i then
    let w := wordN (2 + supF s i F.DKH_SUP_STOPMODE)
    modDpol i (fun d => { d with guard := some ⟨action, now, none, sup, cause⟩ }) (s.modPol i fun p => polish now (dkhRequest now w p))
  else proceed now i action sup cause s

/-- The guard of a polder proceeds once the regime has left those four. -/
def guardCheck (now : Nat) (s : State) (i : PolderId) : State := match (dpol s i).guard with
  | some g => if guarded s i || g.tripped.isSome then s else proceed now i g.action g.sup g.cause s
  | none => s

/-- GUARD_TIMEOUT: `STOPTMO` has run; TRIP is written, and the action proceeds 1 ms later. -/
def guardTimeout (now : Nat) (i : PolderId) (s : State) : State := match (dpol s i).guard with
  | some g =>
    if g.tripped.isNone && guarded s i && decide (g.since + supF s i F.DKH_SUP_STOPTMO * ms ≤ now) then
      modDpol i (fun d => { d with guard := some { g with tripped := some now } }) (s.modPol i fun p => polish now (dkhRequest now 4#32 p))
    else s
  | none => s

/-- ACTION_DELAY_END: 1 ms after the TRIP of a guard, after the TRIP of TRIP_RESTART, or after the start of a reset pulse. -/
def delayEnd (now : Nat) (i : PolderId) (s : State) : State :=
  let d := dpol s i
  let due := fun (x : Option Nat) => match x with
    | some t => decide (t ≤ now)
    | none => false
  match d.guard, due d.restartAt, due d.resetEnd with
  | some g, r, _ =>
    if r && g.action == 3 then modDpol i (fun x => { x with restartAt := none }) s
    else if r then powerRestart now i true Cause.restart s
    else if due (g.tripped.map (· + ms)) then proceed now i g.action g.sup g.cause s
    else s
  | none, true, _ => powerRestart now i true Cause.restart s
  | none, false, true => modDpol i (fun x => { x with resetEnd := none }) s
  | none, false, false => s

/-! ### Actions (R460) -/

/-- SLEEP is taken. A polder in rescue has no regime machine that could take it. -/
def sleepable (s : State) (i : PolderId) : Bool := awake (s.pol i) && !rescue (s.pol i) && maySleep (s.pol i)

/-- The polder goes to SLEEP (R454). -/
def toSleep (now : Nat) (i : PolderId) (s : State) : State := setHbLost i false (hallDrop now i 4 (collect now (s.modPol i (goSleep now))))

/-- WAKE: from SLEEP, or the power switch closes. -/
def wakeUp (now : Nat) (i : PolderId) (s : State) : State := match (s.pol i).power with
  | .asleep => s.modPol i (startWake now)
  | .off =>
    if (dpol s i).closed then s
    else modDpol i (fun d => { d with closed := true }) (s.modPol i (modBoot fun b => { b with cause := Cause.wake }))
  | _ => s

/-- Strength of an action: OFF, RESTART, SLEEP, WAKE. -/
def actRank : Nat → Nat
  | 3 => 4 | 4 => 3 | 2 => 2 | 1 => 1 | _ => 0

def stronger (a b : Nat) : Nat := if actRank a < actRank b then b else a

/-- The strongest action requested for a polder meets what is pending. `policy` is the request of supervision. -/
def carryOut (now : Nat) (i : PolderId) (a : Nat) (policy : Option Nat) (s : State) : State :=
  let free := policy == some 1 && a == 4
  let sup := policy.isSome && a == 4
  match (dpol s i).guard with
  | some g =>
    if free then (if g.action = 3 then s else modDpol i (fun d => { d with guard := none, restartAt := some (now + ms) }) s)
    else if actRank g.action < actRank a then modDpol i (fun d => { d with guard := some { g with action := a, sup := sup } }) s
    else if g.action = a then modDpol i (fun d => { d with guard := some { g with sup := g.sup || sup } }) s
    else s
  | none =>
    if free then modDpol i (fun d => { d with restartAt := some (now + ms) }) s
    else if a = 1 then wakeUp now i s
    else if a = 2 then (if sleepable s i then toSleep now i s else dkhNote now F.DKH_EVT_REFUSED 0 i.num s)
    else if a = 0 then s
    else withGuard now i a sup Cause.restart s

/-- What one evaluation requests for a polder: TRIP at once, then the strongest of the others. `reqs` are masks (bit p - 1) and actions. -/
def actOn (now : Nat) (reqs : List (Nat × Nat)) (s : State) (i : PolderId) : State :=
  let mine := (reqs.filter fun e => e.1.testBit (i.num - 1)).map (·.2)
  let policy := (dpol s i).wanted
  let s1 := modDpol i (fun d => { d with wanted := none }) s
  let s2 := if (mine.contains 5 || policy == some 1) && awake (s1.pol i) then s1.modPol i (fun p => polish now (dkhRequest now 4#32 p)) else s1
  let own := match policy with
    | some 3 => 3
    | some _ => 4
    | none => 0
  carryOut now i ((mine.filter (· != 5)).foldl stronger own) policy s2

/-! ### Rules (R458, R459) -/

/-- A polder's supervisor holds it in reset. -/
def brownedOut (s : State) (i : PolderId) : Bool := !((s.pol i).boot.vdd && (s.pol i).boot.vdda && s.rails.vddio)

/-- The condition of rule `r`. -/
def ruleHolds (s : State) (r : Nat) : Bool :=
  let idx := kget s.dkh (F.DKH_RULE_A_IDX r)
  kbit s.dkh (F.DKH_RULE_A_EN r) && match kget s.dkh (F.DKH_RULE_A_SRC r), polderNo idx with
    | 0, _ => decide (idx < 8) && (kget s.dkh (F.DKH_RULE_A_MATCH r)).testBit (kget s.dkh (F.DKH_WIN_STATE idx))
    | 1, some i => hbLostBit s i
    | 2, some i => Part.has s.part i && brownedOut s i
    | 3, _ => krd s.dkh A.DKH_ALARM != 0 && decide ((krd s.dkh A.DKH_ALARM).toNat ≤ rtcNow s.dkh s.now)
    | _, _ => false

/-- The notification of a rule or of the policy NOTIFY. -/
def dkhNotify (now : Nat) (s : State) : State :=
  modDkh (fun d => { d with out := d.out ++ [.toClass Cls.regime 15 2
    (wBytes (dkhStat s) ++ wBytes (krd d A.DKH_EVT) ++ leBytes 6 (rtcNow d now) ++ leBytes 4 (rtcNanos d now))] }) s

/-- One rule at an evaluation: the requests so far and the state. -/
def ruleStep (now : Nat) (x : List (Nat × Nat) × State) (r : Nat) : List (Nat × Nat) × State :=
  let s := x.2
  if !ruleHolds s r then (x.1, modDkh (fun d => { d with held := vset d.held r none, fired := vset d.fired r false }) s)
  else
    let since := (vget s.dkh.held r none).getD now
    let s1 := modDkh (fun d => { d with held := vset d.held r (some since) }) s
    if vget s.dkh.fired r false || decide (now < since + kget s.dkh (F.DKH_RULE_A_QUAL r) * ms) then (x.1, s1)
    else
      let pols := kget s.dkh (F.DKH_RULE_B_POLDERS r)
      let s2 := dkhNote now F.DKH_EVT_RULE r pols (modDkh (fun d => { d with
        fired := vset d.fired r true, wakeLow := d.wakeLow || kbit d (F.DKH_RULE_B_WAKEPIN r) }) s1)
      (x.1 ++ [(pols, kget s.dkh (F.DKH_RULE_B_ACTION r))], if kbit s.dkh (F.DKH_RULE_B_NOTIFY r) then dkhNotify now s2 else s2)

/-- The Dikehouse's reply to a command. -/
def dkhReply (op sess seq : Nat) (r : Reply) (s : State) : State :=
  modDkh (fun d => { d with out := d.out ++ [.answer ⟨15, sess, op, seq, r.status, r.detail, r.payload⟩] }) s

/-- A POLDER_POWER at its evaluation is refused for a named polder. -/
def powerRefused (s : State) (mask action : Nat) : Bool :=
  action == 2 && (presentPolders s).any fun i => mask.testBit (i.num - 1) && !sleepable s i

/-- RULE_EVALUATION: every 1 ms. -/
def ruleEvaluation (now : Nat) (s : State) : State :=
  if !s.dkh.up || decide (now < s.dkh.lastEval + ms) then s
  else
    let s0 := (presentPolders s).foldl (guardCheck now) (modDkh (fun d => { d with lastEval := now }) s)
    let r := (List.range 16).foldl (ruleStep now) ([], s0)
    let cmds := r.2.dkh.requests
    let bad := cmds.filter fun e => powerRefused r.2 e.1 e.2.1
    let good := cmds.filter fun e => !powerRefused r.2 e.1 e.2.1
    let s1 := modDkh (fun d => { d with requests := [] }) r.2
    let s2 := (presentPolders s1).foldl (actOn now (r.1 ++ good.map fun e => (e.1, e.2.1))) s1
    let s3 := bad.foldl (fun y e => dkhReply e.2.2.opcode e.2.2.sess e.2.2.seq (bare Status.state) y) s2
    good.foldl (fun y e => dkhReply e.2.2.opcode e.2.2.sess e.2.2.seq (okWith (wBytes (dkhStat s3))) y) s3

/-! ### Supervision (R463, R464) -/

/-- The heartbeat of this polder is watched: awake, not in rescue, neither engine halted. -/
def watched (s : State) (i : PolderId) : Bool :=
  s.dkh.up && awake (s.pol i) && !rescue (s.pol i) && ceState (s.pol i) != Eng.halt && seState (s.pol i) != Eng.halt

/-- HEARTBEAT_READ: a value that has moved ends a loss. -/
def heartbeatRead (i : PolderId) (now : Nat) (s : State) : State :=
  if !watched s i then s
  else
    let v := rd (s.pol i) A.PCT_HBEAT
    if v = (dpol s i).hbValue then s
    else setHbLost i false (modDpol i (fun d => { d with hbValue := v, hbAt := now, lost := false }) s)

/-- A heartbeat is lost: event, record, and the policy of the polder; `bootfail` where a boot has failed. -/
def heartbeatLost (now : Nat) (i : PolderId) (bootfail : Bool) (s : State) : State :=
  let s1 := setHbLost i true (modDpol i (fun d => { d with lost := true }) s)
  let s2 := dkhNote now F.DKH_EVT_HBLOST 0 i.num (if bootfail then modDkh (kevt now F.DKH_EVT_BOOTFAIL) s1 else s1)
  let pol := supF s2 i F.DKH_SUP_POLICY
  let n := ((dpol s2 i).restarts.filter fun t => now < t + 3600 * sec).length
  if pol = 2 then dkhNotify now s2
  else if supF s2 i F.DKH_SUP_MAXRST ≤ n then
    dkhNote now F.DKH_EVT_GIVEUP 0 i.num (modDpol i (fun d => { d with wanted := some 3 }) s2)
  else modDpol i (fun d => { d with wanted := some pol }) s2

/-- HBLOST: unchanged for 100 ms. -/
def hblost (now : Nat) (i : PolderId) (s : State) : State :=
  if watched s i && supF s i F.DKH_SUP_HB_EN == 1 && !(dpol s i).lost && decide ((dpol s i).hbAt + 100 * ms ≤ now) then
    heartbeatLost now i false s
  else s

/-- BOOTFAIL: a boot that has not reached t5 within 600 ms counts as a lost heartbeat. -/
def bootfail (now : Nat) (i : PolderId) (s : State) : State :=
  if s.dkh.up && (s.pol i).power == .booting && !(dpol s i).lost && decide ((s.pol i).boot.t0 + 600 * ms ≤ now) then
    (if supF s i F.DKH_SUP_HB_EN = 1 then heartbeatLost now i true s
     else dkhNote now F.DKH_EVT_BOOTFAIL 0 i.num (modDpol i (fun d => { d with lost := true }) s))
  else s

/-- Supervision starts or resumes at t5, at a wake, and when the debug port releases an engine. A restart of an engine does not begin it anew (R475). -/
def superviseFrom (now : Nat) (i : PolderId) (s : State) : State :=
  modDpol i (fun d => { d with hbValue := rd (s.pol i) A.PCT_HBEAT, hbAt := now, lost := false }) s

/-! ### Watch inputs (R456, R457) -/

/-- State of an input: 0 LOW, 1 MID, 2 HIGH; `y` has 20 fractional bits. -/
def watchState (old y hi lo hys : Nat) : Nat :=
  let h := 8 * hys * 1048576
  if hi * 1048576 ≤ y then 2
  else if y ≤ lo * 1048576 then 0
  else if old = 2 ∧ hi * 1048576 ≤ y + h then 2
  else if old = 0 ∧ y ≤ lo * 1048576 + h then 0
  else 1

/-- WATCH_SAMPLE: the latest code of input `k`, its filtered value and its state. -/
def watchSample (k code : Nat) (s : State) : State :=
  if !s.dkh.up || decide (7 < k) then s
  else
    let d := s.dkh
    let x := min code 4095
    let y0 := vget d.filt k 0
    let f := kget d (F.DKH_WINCFG_F k)
    let y := ((y0 : Int) + ((x * 1048576 : Nat) - (y0 : Int)) / (2 ^ f : Nat)).toNat
    let old := kget d (F.DKH_WIN_STATE k)
    let d1 := kput d (F.DKH_WIN_RAW k) x
    if !kbit d (F.DKH_WINCFG_EN k) then modDkh (fun _ => kput d1 (F.DKH_WIN_STATE k) 1) s
    else
      let st := watchState old y (kget d (F.DKH_WINCFG_HI k)) (kget d (F.DKH_WINCFG_LO k)) (kget d (F.DKH_WINCFG_HYS k))
      modDkh (fun _ => { kput (kput d1 (F.DKH_WIN_FILT k) (y / 1048576)) (F.DKH_WIN_STATE k) st with filt := vset d.filt k y }) s

/-! ### Device NV banks (R466 to R470) -/

/-- The configuration as it stands. -/
def dkhConfig (d : Dikehouse) : Cells := dkhConfigOffs.foldl (fun l o => cellSet dkhReset l o (krd d o)) []

/-- The configuration is stored: `DKH_CMD.SAVE` and the setting commands. -/
def dkhSave (now : Nat) (d : Dikehouse) : Dikehouse := devTouch now 4 (fun m => { m with dkh := some (dkhConfig d) }) d

/-- `DKH_NVSTAT` and the sequences follow the banks. -/
def devShow (d : Dikehouse) : Dikehouse :=
  let d1 := kput (kput d F.DKH_NVSTAT_VALID0 (bn d.bank0.valid)) F.DKH_NVSTAT_VALID1 (bn d.bank1.valid)
  let cur := if kget d F.DKH_NVSTAT_BANK = 0 then d.bank0 else d.bank1
  let d2 := kput (kput d1 F.DKH_NVSTAT_SECT (if cur.valid then sectBits cur.data.sections else 0)) F.DKH_NVSTAT_BUSY (bn d.writing.isSome)
  kwr (kwr d2 (A.DKH_NVSEQ 0) (wordN d.bank0.seq)) (A.DKH_NVSEQ 1) (wordN d.bank1.seq)

def setDevBank (k : Nat) (b : DevBank) (d : Dikehouse) : Dikehouse := if k = 0 then { d with bank0 := b } else { d with bank1 := b }

/-- The bank that the next write goes to, and its sequence. -/
def devNext (d : Dikehouse) : Nat × Nat :=
  if !d.bank0.valid && !d.bank1.valid then (0, 1)
  else if kget d F.DKH_NVSTAT_BANK = 0 then (1, (d.bank0.seq + 1) % 4294967296)
  else (0, (d.bank1.seq + 1) % 4294967296)

/-- NV_WRITE of the device banks. -/
def devWrite (now : Nat) (d : Dikehouse) : Dikehouse :=
  if d.up && d.writing.isNone && d.dirtySince.isSome && (d.lastEnd == 0 || decide (d.lastEnd + 100 * ms ≤ now)) then
    let n := devNext d
    devShow (setDevBank n.1 (DevBank.written n.2 d.image).torn { d with
      writing := some (n.1, now, false), writeData := d.image, dirtySince := none, covered := d.waiting.length })
  else d

/-- The commands that the write covers are answered; where it has failed INTERNAL, and DONE reports that the setting has been made (R405). -/
def releaseWaiting (ok : Bool) (d : Dikehouse) : Dikehouse :=
  let l := (d.waiting.take d.covered).flatMap fun a =>
    if ok then [Out.answer a]
    else [.answer { a with status := Status.internal, payload := [] }, .done a.sess a.target a.opcode a.seq a.status a.detail a.payload]
  { d with waiting := d.waiting.drop d.covered, covered := 0, out := d.out ++ l }

/-- NV_WRITE_COMPLETE of the device banks. -/
def devComplete (now : Nat) (good : Bool) (d : Dikehouse) : Dikehouse := match d.writing with
  | none => d
  | some (k, _, again) =>
    if good then
      let seq := (if k = 0 then d.bank0 else d.bank1).seq
      releaseWaiting true (devShow (kput { setDevBank k (DevBank.written seq d.writeData) d with writing := none, lastEnd := now }
        F.DKH_NVSTAT_BANK k))
    else if !again then { d with writing := some (k, now, true) }
    else releaseWaiting false (devShow (kput { d with writing := none, lastEnd := now }
      (if k = 0 then F.DKH_NVSTAT_FAIL0 else F.DKH_NVSTAT_FAIL1) 1))

/-! ### Start and loss of the Hall and of the Dikehouse (R425, R432, R437, R444, R496) -/

/-- What a reset of the Hall bridge means for a polder that holds state: its locks, the words queued for it, its epoch. -/
def bridgeReset (now epoch : Nat) (p : Polder) : Polder :=
  if p.power = .off then p else modEng (fun e => { e with epochHall := epoch }) (lockAuto 3 (mbxDiscard now 3 p))

/-- The sampled values of a polder that wait for the Hall leave its FIFO; those written while the Hall's clock stood have been discarded and count as
lost (R31). -/
def svFlush (count : Bool) (s : State) (i : PolderId) : State :=
  let n := if count then (s.pol i).flt.svOut.length else 0
  modHall (fun h => { h with fifoLost := vmod h.fifoLost (i.num - 1) (· + n) }) (s.modPol i fun p => { p with flt := { p.flt with svOut := [] } })

/-- The sessions of the Hall close as it enters reset: their OPEN sluices abort with reason TOKEN (R285, R408). -/
def sessionsEnd (now : Nat) (s : State) : State :=
  (presentPolders s).foldl (fun y p =>
    if awake (y.pol p) then y.modPol p fun q => polish now (y.hall.sessions.foldl (fun r x => sluAbortOwner now x.idx r) q) else y) s

/-- The Hall enters reset: sessions and tokens are gone, its queues are lost. -/
def hallDown (now : Nat) (s0 : State) : State :=
  let s := sessionsEnd now s0
  let ep := (s.hall.epoch + 1) % 16
  let s1 := modHall (fun h => { sent := h.sent, prpSeq := h.prpSeq, epoch := ep, fifoLost := h.fifoLost }) s
  [PolderId.A, .B, .C, .D].foldl (fun y i => svFlush false (y.modPol i (bridgeReset now ep)) i) s1

/-- The device record in use: nothing of it where neither bank is valid. -/
def storedRecord (d : Dikehouse) : DevRecord :=
  if d.bank0.valid || d.bank1.valid then (if kget d F.DKH_NVSTAT_BANK = 0 then d.bank0 else d.bank1).data else {}

/-- HALL_RESET_RELEASE: stored values come into force (R417, R444, R467). The factory MAC address stands where none is stored. -/
def hallStart (s : State) : State :=
  if !s.rails.vaon || s.rails.testen || !s.dkh.up || s.hall.up then s
  else
    let r := storedRecord s.dkh
    let w := macWords Config.factoryMac.toNat
    let cfg := r.network.getD (cellSet hallReset (cellSet hallReset [] A.HAL_MACH w.1) A.HAL_MACL w.2)
    let h := { s.hall with up := true, applied := cfg, keys := r.keys.getD (Vector.replicate 8 none) }
    let h1 := match r.sv with
      | some v => { h with svId := v.1, svRev := v.2 }
      | none => h
    [PolderId.A, .B, .C, .D].foldl (svFlush true) { modHall (fun _ => heldOffs.foldl (fun y o => hwr y o (cellGet hallReset cfg o)) h1) s with
      rails := { s.rails with vddH := true, vddio := true } }

/-- A signed patch (R465): format 2, no revocation, the reserved bytes 0, a key that no polder has revoked. -/
def patchOk (s : State) (b : List Byte) : Bool :=
  b.take 4 == [0x46, 0x4A, 0x52, 0x4E] && u16At b 4 == 2 && decide (hdrKey b ≤ 3) && decide (hdrRevoke b = 0) &&
    ((b.drop 33).take 31).all (· == 0) && (u16At b 30).testBit (if s.part = .fgc4400 then 0 else 1) &&
    (presentPolders s).all (fun i => !(s.pol i).boot.revoked.testBit (hdrKey b)) &&
    signedBy (hdrKey b) (b.take 64 ++ b.drop 128) ((b.drop 64).take 64)

/-- The patch section at a reset of the Dikehouse. -/
def loadPatch (now : Nat) (s : State) : State := match s.dkh.image.patch with
  | none => s
  | some b => if patchOk s b then modDkh (fun d => kput d F.DKH_STAT_PATCH 1) s else dkhNote now F.DKH_EVT_PATCH_REJ 0 0 s

/-- VAON_RISE: the Dikehouse starts, loads its configuration, and closes the power switches with `AUTOON` (R444). -/
def dkhStart (now : Nat) (s : State) : State :=
  if s.dkh.up then s
  else
    let d := s.dkh
    let pick := chooseBank d.bank0.valid d.bank1.valid d.bank0.seq d.bank1.seq
    let r : DevRecord := match pick with
      | some 0 => d.bank0.data
      | some _ => d.bank1.data
      | none => {}
    let n := (r.events.getD []).foldl (fun m e => max m e.number) 0 + 1
    let d1 : Dikehouse :=
      { up := true, lastEval := now, rtcAt := now, bank0 := d.bank0, bank1 := d.bank1, image := r,
        bootCount := (d.bootCount + 1) % 65536, nextNo := n, regs := r.dkh.getD [] }
    let d2 := devShow (kput (kwr d1 A.DKH_LOGNEXT (wordN n)) F.DKH_NVSTAT_BANK (pick.getD 0))
    let s1 := { modDkh (fun _ => d2) s with rails := { s.rails with vaon := true } }
    let s2 := (presentPolders s1).foldl (fun y i =>
      if supF y i F.DKH_SUP_AUTOON = 1 then
        modDpol i (fun x => { x with closed := true }) (y.modPol i (modBoot fun b => { b with cause := Cause.powerOn }))
      else y) s1
    loadPatch now s2

/-- VAON is lost: the Dikehouse stops; the Hall and every polder are held in reset. -/
def vaonLost (now : Nat) (s : State) : State :=
  let d := s.dkh
  let cut := fun (k : Nat) (b : DevBank) => match d.writing with
    | some (j, _, _) => if j = k then b.torn else b
    | none => b
  let s1 := hallDown now { s with rails := { s.rails with vaon := false } }
  let s2 := [PolderId.A, .B, .C, .D].foldl (fun y i => y.modPol i (enterReset Cause.powerOn true)) s1
  modDkh (fun _ => { bank0 := cut 0 d.bank0, bank1 := cut 1 d.bank1, bootCount := d.bootCount }) s2

/-- A polder browns out: its supervisor holds it in reset, and its heartbeat is supervised no longer (R444, R463). `vdd` when the core rail itself is out of
limits: the SRAM store of its log is lost with it, in a polder that is off too (R477). -/
def brownOut (now : Nat) (i : PolderId) (vdd : Bool) (s : State) : State :=
  let s1 := setHbLost i false (s.modPol i (modBoot fun b => if vdd then { b with vdd := false } else { b with vdda := false }))
  if (s1.pol i).power = .off then (if vdd then s1.modPol i (fun p => { p with log := {} }) else s1) else resetPol now i Cause.brownOut (!vdd) s1

/-- LP_x is lost: outputs off, and lane 2, which it supplies, stops (R328, R342). Before t5, in SLEEP and while waking the lanes do not run, and the loss
shows in the field I/O alone (DEDUCED, notes/assumptions/27.md). -/
def lpGone (now : Nat) (p : Polder) : Polder := match p.power with
  | .off => p
  | .awake => polish now (lane2Stop (brkSee (lpLost now p)))
  | .booting => lpLost now p
  | .asleep => lpLost now p
  | .waking => lpLost now p

/-- LP_x has returned: lane 2 starts again where lanes run. -/
def lpBack (now : Nat) (p : Polder) : Polder :=
  let p1 := lpReturned now p
  match p.power with
  | .off => p
  | .awake => polish now (if lpOk p1 && !lpOk p then lane2Start now p1 else p1)
  | .booting => p1
  | .asleep => p1
  | .waking => p1

/-- RAIL_LOSS (R496). -/
def railLoss (now : Nat) (r : Rail) (s : State) : State := match r with
  | .vaon => vaonLost now s
  | .vddH => hallDown now { s with rails := { s.rails with vddH := false } }
  | .vddio =>
    let s1 := (presentPolders s).foldl (fun y i => if (y.pol i).power = .off then y else setHbLost i false (resetPol now i Cause.brownOut true y)) s
    hallDown now { s1 with rails := { s1.rails with vddio := false } }
  | .vdd i => if Part.has s.part i then brownOut now i true s else s
  | .vdda i => if Part.has s.part i then brownOut now i false s else s
  | .lp i => if Part.has s.part i then s.modPol i (lpGone now) else s

/-- POLDER_RESET_RELEASE: the rails lie within their limits, the power switch is closed, and the Dikehouse does not hold the polder (R444). -/
def resetRelease (now : Nat) (i : PolderId) (s : State) : State :=
  let d := dpol s i
  if s.rails.vaon && !s.rails.testen && s.dkh.up && d.closed && d.resetEnd.isNone && (s.pol i).power == .off then
    let s1 := { s with rails := { s.rails with vddio := true } }
    let s2 := s1.modPol i (modBoot fun b => { b with vdd := true, vdda := true, extest := false })
    modDpol i (fun x => { x with lost := false }) (s2.modPol i (bootStart s.part now s.hall.epoch ((s.dkh.bootCount + 15) % 16)))
  else s

/-- BOOT_COMPLETE, WAKE_COMPLETE: supervision of the heartbeat starts. -/
def bootDoneAt (now : Nat) (i : PolderId) (s : State) : State :=
  if (s.pol i).power = .booting then superviseFrom now i (s.modPol i (bootComplete now)) else s
def wakeDoneAt (now : Nat) (i : PolderId) (s : State) : State :=
  if (s.pol i).power = .waking then superviseFrom now i (s.modPol i (wakeComplete now)) else s

/-- The cause of a pending RESTART. -/
def guardCause (i : PolderId) (cause : Nat) (s : State) : State :=
  modDpol i (fun d => { d with guard := d.guard.map fun g => if g.action = 4 then { g with cause := cause } else g }) s

/-- FW_TRIAL_TIMEOUT: REVERTED is written, and the polder restarts with the guard; a RESTART that waits already takes the cause REVERT (R451). -/
def trialTimeout (now : Nat) (i : PolderId) (s : State) : State := match (s.pol i).boot.trialEnd with
  | some e =>
    if awake (s.pol i) && seState (s.pol i) == Eng.run && decide (e ≤ now) then
      let s1 := s.modPol i fun p => putBootSec now { bootSec p with state := .reverted } (modBoot (fun b => { b with trialEnd := none }) p)
      match (dpol s1 i).guard with
      | some _ => guardCause i Cause.revert (carryOut now i 4 none s1)
      | none => withGuard now i 4 false Cause.revert s1
    else s
  | none => s

/-- EXTEST holds the polder in reset (R504). -/
def extestHeld (now : Nat) (i : PolderId) (s : State) : State :=
  let s1 := s.modPol i (modBoot fun b => { b with extest := true })
  if (s1.pol i).power = .off then s1 else resetPol now i (Config.extestCause i).toNat true s1

/-! ### Accesses of the Dikehouse window (R36, R42, R471, R513) -/

/-- Conditions that join two fields of a register: `LO` below `HI`, an index that the source of a rule allows (R457, R458). -/
def dkhWordOk (off : Nat) (w : Word) : Bool :=
  if (List.range 8).any (fun k => A.DKH_WINCFG k == off) then decide (bitsOf w 11 0 < bitsOf w 23 12)
  else if (List.range 16).any (fun r => A.DKH_RULE_A r == off) then
    (match bitsOf w 30 28 with
     | 0 => decide (bitsOf w 27 24 < 8)
     | 3 => true
     | _ => decide (1 ≤ bitsOf w 27 24 ∧ bitsOf w 27 24 ≤ 4))
  else true

/-- `DKH_CMD`. -/
def dkhAct (now : Nat) (acts : Word) (d : Dikehouse) : Dikehouse :=
  let d1 := if bitOf acts 1 then dkhSave now d else d
  if bitOf acts 0 then { d1 with wakeLow := false } else d1

/-- A direct write to the Dikehouse window. -/
def dkhWrite (now id off : Nat) (v : Word) (s : State) : Written × State :=
  if off % 4 ≠ 0 then (.error, modDkh (accErrK now Kind.unaligned id off) s)
  else match findRow rowsDKH off with
    | none => (.error, modDkh (accErrK now Kind.unmapped id off) s)
    | some (r, _) => match directWord r (krd s.dkh off) v (setBits s.dkh.sets (now / dkhCyc) off) with
      | .error k => (.error, modDkh (accErrK now k id off) s)
      | .range => (.range, s)
      | .word w acts =>
        if !dkhWordOk off w then (.range, s)
        else if off = A.DKH_CMD then (.ok, modDkh (dkhAct now acts) s)
        else
          let s1 := modDkh (fun d => kwr d off w) s
          (.ok, if off = A.DKH_RTC then modDkh (fun d => { d with rtcAt := now }) s1
            else match (List.range 8).find? fun k => A.DKH_WINCFG k == off with
              | some k => if bitOf w 31 then s1 else modDkh (fun d => kput d (F.DKH_WIN_STATE k) 1) s1
              | none => s1)

/-- A read of the Dikehouse window: the word, and whether it is an access error. -/
def dkhRead (now id off : Nat) (s : State) : (Word × Bool) × State :=
  if off % 4 ≠ 0 then ((0, true), modDkh (accErrK now Kind.unaligned id off) s)
  else match findRow rowsDKH off with
    | none => ((0, true), modDkh (accErrK now Kind.unmapped id off) s)
    | some (r, _) => ((dkhWord s off &&& readMask r, false), s)

/-! ### Commands of the Dikehouse (R472) -/

/-- A setting command: the registers written, the configuration stored, and the reply after the device NV write. -/
def dkhSetting (now op : Nat) (c : Cmd) (off : Nat) (w : Word) (payload : List Byte) (s : State) : State :=
  let r := dkhWrite now 4 off w s
  match r.1 with
  | .ok => modDkh (fun d => { dkhSave now d with waiting := d.waiting ++ [⟨15, c.sess, op, c.seq, 0, 0, payload⟩] }) r.2
  | _ => dkhReply op c.sess c.seq (bare Status.range) s

/-- POLDER_POWER. -/
def polderPower (c : Cmd) (s : State) : State :=
  let m := byteAt c.payload 0 % 16
  let a := byteAt c.payload 1
  let no := fun r => dkhReply Op.polderPower c.sess c.seq r s
  if a = 0 ∨ 5 < a then no (bare Status.range)
  else if [PolderId.A, .B, .C, .D].any fun i => m.testBit (i.num - 1) && !Part.has s.part i then no ⟨Status.unavailable, 1, []⟩
  else if powerRefused s m a then no (bare Status.state)
  else modDkh (fun d => { d with requests := d.requests ++ [(m, a, refOf Op.polderPower c)] }) s

/-- Code of a threshold in mV at 0.732421875 mV per code; 4,096 is written as 4,095. -/
def watchCode (mv : Nat) : Nat := min 4095 (roundDivN (mv * 4096) 3000)

/-- SET_WATCH. -/
def setWatch (now : Nat) (c : Cmd) (s : State) : State :=
  let b := c.payload
  let k := byteAt b 0
  let lo := u16At b 4
  let hi := u16At b 6
  if 7 < k ∨ 10 < byteAt b 2 ∨ 7 < byteAt b 3 ∨ 3000 < lo ∨ 3000 < hi then dkhReply Op.setWatch c.sess c.seq (bare Status.range) s
  else
    let w := wordN (byteAt b 1 % 2 * 2 ^ 31 + byteAt b 2 * 2 ^ 27 + byteAt b 3 * 2 ^ 24 + watchCode hi * 2 ^ 12 + watchCode lo)
    dkhSetting now Op.setWatch c (A.DKH_WINCFG k) w (wBytes w) s

/-- SET_RULE: both words, or neither. -/
def setRule (now : Nat) (c : Cmd) (s : State) : State :=
  let r := byteAt c.payload 0
  let wa := wordN (u32At c.payload 4)
  if 15 < r then dkhReply Op.setRule c.sess c.seq (bare Status.range) s
  else match dkhWrite now 4 (A.DKH_RULE_A r) wa s with
    | (.ok, s1) => (match dkhWrite now 4 (A.DKH_RULE_B r) (wordN (u32At c.payload 8)) s1 with
      | (.ok, s2) => modDkh (fun d => { dkhSave now d with waiting := d.waiting ++ [⟨15, c.sess, Op.setRule, c.seq, 0, 0, []⟩] }) s2
      | _ => dkhReply Op.setRule c.sess c.seq (bare Status.range) s)
    | _ => dkhReply Op.setRule c.sess c.seq (bare Status.range) s

/-- SET_SUPERVISION. -/
def setSupervision (now : Nat) (c : Cmd) (s : State) : State :=
  let k := byteAt c.payload 0
  match polderNo k with
  | none => dkhReply Op.setSupervision c.sess c.seq (bare Status.range) s
  | some i =>
    if !Part.has s.part i then dkhReply Op.setSupervision c.sess c.seq ⟨Status.unavailable, 1, []⟩ s
    else dkhSetting now Op.setSupervision c (A.DKH_SUP (k - 1)) (wordN (u32At c.payload 4)) [] s

/-- GET_DIKEHOUSE. -/
def getDikehouse (c : Cmd) (s : State) : State :=
  let w := fun o => wBytes (dkhWord s o)
  dkhReply Op.getDikehouse c.sess c.seq (okWith (w A.DKH_STAT ++ w A.DKH_EVT ++ w A.DKH_RTC ++ w A.DKH_ALARM ++
    (List.range 8).flatMap (fun k => w (A.DKH_WIN k)) ++ (List.range 4).flatMap (fun k => w (A.DKH_RSTCNT k)) ++
    w A.DKH_NVSTAT ++ w (A.DKH_NVSEQ 0) ++ w (A.DKH_NVSEQ 1))) s

end Sys2Proof.Machine
end

