-- ==== Sys2Proof/Machine/HallBridge.lean ====
section
/-!
DEFINITION. The Hall's bridge to the targets: expert register access (R420, R421), and the delivery of commands, their replies and their
timeouts (R411, R414, R427, R430).
-/
namespace Sys2Proof.Machine
open Sys2Proof

/-! ### Accesses of the Hall window (R36, R42, R417, R513) -/

/-- A direct write to the Hall window by the Hall bridge. -/
def hallWrite (now off : Nat) (v : Word) (s : State) : Written × State :=
  if off % 4 ≠ 0 then (.error, modHall (accErrH now Kind.unaligned 3 off) s)
  else match findRow rowsHAL off with
    | none => (.error, modHall (accErrH now Kind.unmapped 3 off) s)
    | some (r, _) => match directWord r (hrd s.hall off) v (setBits s.hall.sets (now / hallCyc) off) with
      | .error k => (.error, modHall (accErrH now k 3 off) s)
      | .range => (.range, s)
      | .word w acts => (.ok, if off = A.HAL_APPLY then applyWrite now acts s else modHall (fun h => hwr h off w) s)

/-- A read of the Hall window. -/
def hallRead (now off : Nat) (s : State) : (Word × Bool) × State :=
  if off % 4 ≠ 0 then ((0, true), modHall (accErrH now Kind.unaligned 3 off) s)
  else match findRow rowsHAL off with
    | none => ((0, true), modHall (accErrH now Kind.unmapped 3 off) s)
    | some (r, _) => ((hallWord s off &&& readMask r, false), s)

/-! ### Expert register access (R420, R421) -/

/-- Bits 31:24 of the addresses of a target's window (R32). -/
def windowOf : Target → Nat
  | .hall => 0x50
  | .polder i => 0x40 + (i.num - 1)
  | .dikehouse => 0x58

/-- The window that an address lies in: a polder, the Hall, the Dikehouse (R32). -/
def windowAt (addr : Nat) : Option Target := match addr / 16777216 with
  | 0x40 => some (.polder .A)
  | 0x41 => some (.polder .B)
  | 0x42 => some (.polder .C)
  | 0x43 => some (.polder .D)
  | 0x50 => some .hall
  | 0x58 => some .dikehouse
  | _ => none

/-- An address of the words `a`, `a + 4` and so on, `n` of them, lies in the window of a polder that the part lacks (R4). -/
def absentWindow (part : Part) (a n : Nat) : Bool := (List.range n).any fun k => match windowAt ((a + 4 * k) % 4294967296) with
  | some (.polder i) => !Part.has part i
  | _ => false

/-- An access outside the target's window is recorded in that window (DEDUCED from R36 and R420, notes/assumptions/41.md). -/
def outside (now addr : Nat) (tgt : Target) (s : State) : State :=
  let off := addr % 16777216
  match tgt with
  | .hall => modHall (accErrH now Kind.unmapped 3 off) s
  | .polder i => s.modPol i (accErr now Kind.unmapped 3 off)
  | .dikehouse => modDkh (accErrK now Kind.unmapped 3 off) s

/-- One expert write. `MBX_DATAq` lies outside its reach: only the bridge's own traffic, the rows MAILBOX_PUSH and MAILBOX_POP, meets it (R428). -/
def bridgeWrite (now : Nat) (tgt : Target) (addr : Nat) (v : Word) (s : State) : Written × State :=
  if addr / 16777216 ≠ windowOf tgt then (.error, outside now addr tgt s)
  else
    let off := addr % 16777216
    match tgt with
    | .hall => hallWrite now off v s
    | .polder i =>
      if (dataQueue off).isSome then (.error, s.modPol i fun p => polish now (accErr now Kind.unmapped 3 off p))
      else (let r := busWrite now .hall i off v (s.pol i); (r.1, s.setPol i (polish now r.2)))
    | .dikehouse => dkhWrite now 3 off v s

/-- One expert read. -/
def bridgeRead (now : Nat) (tgt : Target) (addr : Nat) (s : State) : (Word × Bool) × State :=
  if addr / 16777216 ≠ windowOf tgt then ((0, true), outside now addr tgt s)
  else
    let off := addr % 16777216
    match tgt with
    | .hall => hallRead now off s
    | .polder i =>
      if (dataQueue off).isSome then ((0, true), s.modPol i fun p => polish now (accErr now Kind.unmapped 3 off p))
      else (let r := busRead s.part now .hall i off (s.pol i); (r.1, s.setPol i (polish now r.2)))
    | .dikehouse => dkhRead now 3 off s

/-- Words per command (R407). -/
def wordLimit (ver : Nat) : Nat := if ver = 0x21 then 254 else 64

/-- Words read in ascending order, whether one was an access error, and the state. -/
def readRun (now : Nat) (tgt : Target) : Nat → Nat → State → (List Word × Bool) × State
  | 0, _, s => (([], false), s)
  | n + 1, a, s =>
    let r := bridgeRead now tgt (a % 4294967296) s
    let q := readRun now tgt n (a + 4) r.2
    ((r.1.1 :: q.1.1, r.1.2 || q.1.2), q.2)

/-- READ_WORDS. -/
def hReadWords (now : Nat) (tgt : Target) (c : Cmd) (s : State) : HallOutcome :=
  let n := u16At c.payload 4
  if n = 0 ∨ wordLimit c.ver < n then hallBad (bare Status.range) s
  else if absentWindow s.part (u32At c.payload 0) n then hallBad ⟨Status.unavailable, 1, []⟩ s
  else
    let r := readRun now tgt n (u32At c.payload 0) s
    if r.1.2 then hallBad (bare Status.range) r.2 else hallOk (c.payload.take 4 ++ r.1.1.flatMap wBytes) r.2

/-- Words written in order until one cannot be: how many were, and whether all. -/
def writeRun (now : Nat) (tgt : Target) : List Word → Nat → Nat → State → (Nat × Bool) × State
  | [], _, n, s => ((n, true), s)
  | w :: l, a, n, s => match bridgeWrite now tgt (a % 4294967296) w s with
    | (.ok, s1) => writeRun now tgt l (a + 4) (n + 1) s1
    | (_, s1) => ((n, false), s1)

/-- The words of a payload. -/
def wordsAt (l : List Byte) (off n : Nat) : List Word := (List.range n).map fun k => wordN (u32At l (off + 4 * k))

/-- WRITE_WORDS. A configuration that it applies takes effect after the reply (R417). -/
def hWriteWords (now : Nat) (tgt : Target) (c : Cmd) (s : State) : HallOutcome :=
  let n := u16At c.payload 4
  if n = 0 ∨ wordLimit c.ver < n then hallBad ⟨Status.range, 0, zeros 4⟩ s
  else if absentWindow s.part (u32At c.payload 0) n then hallBad ⟨Status.unavailable, 1, []⟩ s
  else
    let r := writeRun now tgt (wordsAt c.payload 8 n) (u32At c.payload 0) 0 s
    let held := modHall (fun h => { h with applied := s.hall.applied }) r.2
    (⟨if r.1.2 then Status.ok else Status.range, 0, leBytes 2 r.1.1 ++ zeros 2⟩, held,
      modHall fun h => { h with applied := r.2.hall.applied })

/-- READ_WORDS or WRITE_WORDS at its target: an unavailable polder turns it away (R22), a polder in rescue too (R452). -/
def expert (now op : Nat) (tgt : Target) (c : Cmd) (s : State) : HallOutcome :=
  let go := fun (_ : Unit) => if op = Op.readWords then hReadWords now tgt c s else hWriteWords now tgt c s
  match tgt with
  | .polder i => match unavail s i with
    | some d => hallBad ⟨Status.unavailable, d, []⟩ s
    | none => if rescue (s.pol i) then hallBad (bare Status.state) s else go ()
  | _ => go ()

/-! ### Delivery (R411, R414, R430) -/

/-- READ_WORDS and WRITE_WORDS are carried out by the Hall itself (R419, R420), in the order of acceptance for their target (R414). -/
def isExpert (op : Nat) : Bool := op == Op.readWords || op == Op.writeWords

/-- The target is still busy with a command: neither answered nor ACCEPTED_PENDING. -/
def busy (h : Hall) (t : Nat) : Bool := h.inFlight.any fun f => f.target == t && !f.pending

/-- Words of a command in the Hall-to-SE queue. -/
def messageWords (q : Queued) (n : Nat) : List Word :=
  (List.range (Config.frameWords q.opcode q.cmd.payload + 1)).map fun k => Config.frameWord n k

/-- Words pushed into the Hall-to-SE queue. -/
def pushWords (now : Nat) (l : List Word) (p : Polder) : Polder := l.foldl (fun q w => mbxPush now 0 3 w q) p

/-- COMMAND_DELIVERY: the head of a target's queue is pushed, once the previous command is answered. A running SE takes the words as
they come; another leaves them in its queue, which must hold them all for the command to be delivered. Expert access the Hall carries out at its turn. -/
def commandDeliver (now : Nat) (tgt : Target) (s : State) : State :=
  let t := tgt.code
  match vget s.hall.queues (queueNo t) [] with
  | [] => s
  | q :: l =>
    if !s.hall.up || busy s.hall t then s
    else if isExpert q.opcode then
      hallAnswer now q.src t q.opcode q.cmd
        (expert now q.opcode tgt q.cmd (modHall (fun h => { h with queues := vset h.queues (queueNo t) l }) s))
    else
      let sent := fun (unread : Bool) (x : State) => modHall (fun h => { h with
        queues := vset h.queues (queueNo t) l, inFlight := h.inFlight ++ [⟨q, t, false, false, unread⟩] }) x
      match tgt with
      | .polder i =>
        if !awake (s.pol i) then s
        else if seState (s.pol i) = Eng.run then sent false (s.modPol i (evt (F.MBX_STAT_EMPTY 0)))
        else
          let w := messageWords q s.free
          let fits := decide ((mbxQueue (s.pol i) 0).length + w.length ≤ 8)
          let s1 := { s.modPol i (pushWords now (w.take (8 - (mbxQueue (s.pol i) 0).length))) with free := s.free + 1 }
          if fits then sent true s1 else s1
      | _ => sent false s

/-- A command that was not delivered is answered TIMEOUT, detail 0, and leaves the queue. -/
def withdraw (now t : Nat) (q : Queued) (s : State) : State :=
  sendReply now q.src ⟨t, q.cmd.sess, q.opcode, q.cmd.seq, Status.timeout, 0, []⟩
    (modHall (fun h => { h with queues := vset h.queues (queueNo t) ((vget h.queues (queueNo t) []).erase q) }) s)

/-- DELIVERY_TIMEOUT: 50 ms after its packet completed. -/
def deliveryTimeout (now : Nat) (tgt : Target) (s : State) : State :=
  ((vget s.hall.queues (queueNo tgt.code) []).filter fun q => decide (q.at' + 50 * ms ≤ now)).foldl (fun y q => withdraw now tgt.code q y) s

/-- MAILBOX_STUCK at the Hall-to-SE queue: the command whose words cannot be pushed is withdrawn (R24, R430). -/
def stuckAt (now : Nat) (i : PolderId) (s : State) : State := match vget s.hall.queues i.num [] with
  | q :: _ => if busy s.hall i.num then s else withdraw now i.num q s
  | [] => s

/-- REPLY_TIMEOUT: a delivered command unanswered at 50 ms is answered TIMEOUT, detail 1. -/
def replyTimeout (now : Nat) (tgt : Target) (s : State) : State :=
  (s.hall.inFlight.filter fun f => f.target == tgt.code && !f.late && !f.pending && decide (f.q.at' + 50 * ms ≤ now) &&
      !hasReply s.hall f.target f.q.cmd.sess f.q.cmd.seq).foldl (fun y f =>
    sendReply now f.q.src ⟨f.target, f.q.cmd.sess, f.q.opcode, f.q.cmd.seq, Status.timeout, 1, []⟩
      (modHall (fun h => { h with inFlight := h.inFlight.map fun g => if g = f then { g with late := true } else g }) y)) s

/-- The command in flight that an answer belongs to. -/
def flightOf (h : Hall) (a : Answer) : Option InFlight :=
  h.inFlight.find? fun f => f.target == a.target && f.q.cmd.sess == a.sess && f.q.cmd.seq == a.seq

def endOf (f : InFlight) (s : State) : State := modHall (fun h => { h with inFlight := h.inFlight.filter (· != f) }) s

/-- A target's answer: forwarded; or sent as DONE when TIMEOUT or ACCEPTED_PENDING has gone out, late answers being counted (R411). -/
def forward (now : Nat) (a : Answer) (s : State) : State :=
  let home := match sessOf s.hall a.sess with
    | some x => x.src
    | none => .spi
  match flightOf s.hall a with
  | none => sendReply now home a s
  | some f =>
    if f.late then
      (if a.status = Status.pending then s
       else endOf f (notifyDone now a (hallNote now F.HAL_EVT_LATE (some a.sess) (hallCount A.HAL_LATE s))))
    else if f.pending then (if a.status = Status.pending then s else endOf f (notifyDone now a s))
    else endOf f (sendReply now f.q.src a s)

/-- DONE of the target. Where TIMEOUT has gone out it is the late answer. -/
def forwardDone (now : Nat) (a : Answer) (s : State) : State := match flightOf s.hall a with
  | some f => endOf f (notifyDone now a (if f.late then hallNote now F.HAL_EVT_LATE (some a.sess) (hallCount A.HAL_LATE s) else s))
  | none => notifyDone now a s

/-- At 40 ms a target that runs answers ACCEPTED_PENDING for the command it cannot end yet (R411, R426). -/
def pendingReply (now : Nat) (tgt : Target) (s : State) : State :=
  let runs := match tgt with
    | .polder i => awake (s.pol i) && seState (s.pol i) == Eng.run
    | _ => true
  match s.hall.inFlight.find? fun f => f.target == tgt.code && !f.late && !f.pending && decide (f.q.at' + 40 * ms ≤ now) with
  | some f =>
    if runs then
      sendReply now f.q.src ⟨f.target, f.q.cmd.sess, f.q.opcode, f.q.cmd.seq, Status.pending, 0, []⟩
        (modHall (fun h => { h with inFlight := h.inFlight.map fun g => if g = f then { g with pending := true } else g }) s)
    else s
  | none => s

/-- TARGET_REPLY: the oldest answer of the target that waits; without one, the ACCEPTED_PENDING of R411 when it is due. -/
def targetReply (now : Nat) (tgt : Target) (s : State) : State :=
  match s.hall.replies.find? fun o => (o.asAnswer.map (·.target)) == some tgt.code with
  | some o =>
    let s1 := modHall (fun h => { h with replies := h.replies.erase o }) s
    match o, o.asAnswer with
    | .answer a, _ => forward now a s1
    | _, some a => forwardDone now a s1
    | _, none => s1
  | none => pendingReply now tgt s

/-- The DONE that the restarted SE owes a command (R427). -/
def owes (i : PolderId) (r : CmdRef) (s : State) : State :=
  s.modPol i fun p => if p.eng.owed.contains r then p else modEng (fun e => { e with owed := e.owed ++ [r] }) p

/-- The SE resets while the Hall waits for its answer to a command (R427). One whose words were discarded unread is answered TIMEOUT, detail 0; one that had
been read and not answered INTERNAL, detail 1, and its DONE is owed; of one whose TIMEOUT or ACCEPTED_PENDING has gone out the DONE is all that follows. -/
def seLostOne (now : Nat) (i : PolderId) (s : State) (f : InFlight) : State :=
  let ref : CmdRef := ⟨f.q.cmd.sess, f.q.opcode, f.q.cmd.seq⟩
  let lost : Out := .answer ⟨i.num, ref.sess, ref.opcode, ref.seq, Status.internal, 1, []⟩
  if f.unread then endFlight now Status.timeout 0 s f
  else if f.late || f.pending then
    (let s1 := modHall (fun h => { h with replies := h.replies.erase lost }) s
     if hasReply s1.hall i.num ref.sess ref.seq then s1 else owes i ref s1)
  else if hasReply s.hall i.num ref.sess ref.seq then s
  else owes i ref (endFlight now Status.internal 1 s f)

def seLost (now : Nat) (i : PolderId) (s : State) : State :=
  (s.hall.inFlight.filter fun f => f.target == i.num).foldl (seLostOne now i) s

/-- The words of the commands that wait for the SE of a polder have been read. -/
def flightsRead (i : PolderId) (s : State) : State :=
  modHall (fun h => { h with inFlight := h.inFlight.map fun f => if f.target = i.num then { f with unread := false } else f }) s

end Sys2Proof.Machine
end

