-- ==== Sys2Proof/Machine/HallPort.lean ====
section
/-!
DEFINITION. What arrives at the Hall's ports (R394 to R400, R403, R404): command packets and their checks, the SPI transactions, ARP, ICMP, PRP and
Pdelay frames, links; and the sampled-value frames that leave (R416).
-/
namespace Sys2Proof.Machine
open Sys2Proof

/-! ### Frames other than command packets (R394 to R396) -/

/-- The Hall's MAC address in force. -/
def ownMac (h : Hall) : Nat := (hap h A.HAL_MACH).toNat % 65536 * 4294967296 + (hap h A.HAL_MACL).toNat

/-- The Hall's IPv4 address in force. -/
def ownIp (h : Hall) : Nat := (hap h A.HAL_IPADDR).toNat

/-- A frame of any kind has arrived on a port: every polder's networks count it (R357). -/
def portHeard (now port : Nat) (s : State) : State :=
  (presentPolders s).foldl (fun y i => if awake (y.pol i) then y.modPol i (netHeard now port) else y) s

/-- A frame with a PRP trailer that has been received within the last 400 ms is a duplicate (R394). -/
def isDuplicate (now : Nat) (h : Hall) (prp : Option (Nat × Nat)) : Bool := match prp with
  | some x => h.prpSeen.any fun e => e.1 == x.1 && e.2.1 == x.2 && decide (now < e.2.2 + 400 * ms)
  | none => false

/-- The trailer is remembered for 400 ms. -/
def remember (now : Nat) (prp : Option (Nat × Nat)) (h : Hall) : Hall := match prp with
  | some x => { h with prpSeen := (x.1, x.2, now) :: h.prpSeen.filter fun e => now < e.2.2 + 400 * ms }
  | none => h

/-- A received frame passes the duplicate discard, or is counted and dropped: `f` is what a frame that passes does. -/
def received (now port : Nat) (prp : Option (Nat × Nat)) (f : State → State) (s : State) : State :=
  if !s.hall.up then s
  else
    let s1 := portHeard now port s
    if isDuplicate now s.hall prp then hallCount A.HAL_PRPDUP s1 else f (modHall (remember now prp) s1)

/-- Content of an ARP packet after the EtherType: operation, sender MAC and IP, target MAC and IP. -/
def arpBytes (op sha spa tha tpa : Nat) : List Byte :=
  beBytes 2 1 ++ beBytes 2 0x0800 ++ [6#8, 4#8] ++ beBytes 2 op ++ beBytes 6 sha ++ beBytes 4 spa ++ beBytes 6 tha ++ beBytes 4 tpa

abbrev broadcastMac : Nat := 0xFFFFFFFFFFFF

/-- The cache of 16 entries with a lifetime of 60 s takes the sender of a request. -/
def arpLearn (now ip mac : Nat) (h : Hall) : Hall :=
  { h with arp := ((ip, mac, now) :: h.arp.filter fun e => e.1 != ip && decide (now < e.2.2 + 60 * sec)).take 16 }

/-- ARP_REQUEST: one for the Hall's address is answered. -/
def arpRequest (now port : Nat) (prp : Option (Nat × Nat)) (target ip mac : Nat) (s : State) : State :=
  received now port prp (fun y =>
    if ownIp y.hall = 0 ∨ target ≠ ownIp y.hall then y
    else modHall (fun h => hallTx (fun n => .frame n Config.otherPcp.val mac 0x0806 (arpBytes 2 (ownMac h) (ownIp h) mac ip)) (arpLearn now ip mac h)) y) s

/-- ICMP_ECHO: up to 1,472 bytes of data, at most 100 in any second. -/
def icmpEcho (now port : Nat) (prp : Option (Nat × Nat)) (ip : Nat) (data : List Byte) (s : State) : State :=
  received now port prp (fun y =>
    let l := y.hall.icmpTimes.filter fun t => now < t + sec
    if ownIp y.hall = 0 ∨ 1472 < data.length ∨ 100 ≤ l.length then y
    else modHall (fun h => hallTx (fun n => .echo n Config.otherPcp.val (resolved now h ip) ip data) { h with icmpTimes := now :: l }) y) s

/-- ETH_LINK_CHANGE: the status bit, the event of a loss, the gratuitous ARP of a link that comes up, and the networks of R357. -/
def linkChange (now port : Nat) (up : Bool) (s : State) : State :=
  if !s.hall.up || decide (1 < port) then s
  else
    let bit := if port = 0 then F.HAL_STAT_LINKA else F.HAL_STAT_LINKB
    let s1 := modHall (fun h => hput h bit (bn up)) s
    if up then
      (if ownIp s1.hall = 0 || hbit s.hall bit then s1
       else modHall (fun h => hallTx (fun n =>
         .frame n Config.otherPcp.val broadcastMac 0x0806 (arpBytes 1 (ownMac h) (ownIp h) 0 (ownIp h))) h) s1)
    else
      let s2 := if hbit s.hall bit then hallNote now (if port = 0 then F.HAL_EVT_LINKA_DOWN else F.HAL_EVT_LINKB_DOWN) none s1 else s1
      (presentPolders s2).foldl (fun y i => if awake (y.pol i) then y.modPol i (fun p => polish now (netDown port p)) else y) s2

/-- A PRP supervision frame after its EtherType: version, its own sequence number, the node in duplicate-discard mode with its MAC address, the end mark,
padding. The layout is that of IEC 62439-3, which R394 names (PRESUMED, notes/assumptions/56.md). -/
def supervisionBytes (h : Hall) : List Byte :=
  beBytes 2 1 ++ beBytes 2 h.supSeq ++ [20#8, 6#8] ++ beBytes 6 (ownMac h) ++ zeros 34

/-- SUPERVISION_FRAME: every 2 s to 01-15-4E-00-01-00. -/
def supervisionFrame (now : Nat) (s : State) : State :=
  let due := match s.hall.supAt with
    | some t => decide (t + 2 * sec ≤ now)
    | none => true
  if s.hall.up && due then
    modHall (fun h => hallTx (fun n => .frame n Config.otherPcp.val 0x01154E000100 0x88FB (supervisionBytes h))
      { h with supAt := some now, supSeq := (h.supSeq + 1) % 65536 }) s
  else s

/-- The clock identity of the node: its MAC address with FF FE in the middle. -/
def clockId (h : Hall) : List Byte :=
  let m := beBytes 6 (ownMac h)
  m.take 3 ++ [0xFF#8, 0xFE#8] ++ m.drop 3

/-- Hall time in ns at an instant: it runs on from what the last strobe carried; before the first strobe its start is free (R378). -/
def hallTime (now : Nat) (h : Hall) : Nat := match h.timeRef with
  | some (n, t) => n + (now - t) / ns
  | none => Config.hallEpoch + now / ns

/-- A timestamp of a PTP message: seconds and nanoseconds. -/
def ptpStamp (n : Nat) : List Byte := beBytes 6 (n / 1000000000) ++ beBytes 4 (n % 1000000000)

/-- Header of a Pdelay message of the Hall: type, flags, correction, the port's identity, sequence number, the octets of control and interval. -/
def pdelayHead (type flags port : Nat) (dom : Byte) (corr seq : List Byte) (h : Hall) : List Byte :=
  [BitVec.ofNat 8 type, 2#8, 0#8, 54#8, dom, 0#8, BitVec.ofNat 8 flags, 0#8] ++ corr ++ zeros 4 ++ clockId h ++ beBytes 2 (port + 1) ++ seq ++ [5#8, 0x7F#8]

/-- A Pdelay_Resp, or its follow-up, after the EtherType: header, timestamp, and the port that asked. The layout is that of IEEE 1588, which R8's profile
rests on (PRESUMED, notes/assumptions/56.md). The timestamps are Hall time (R378); how long after the request the response leaves is a free value. -/
def pdelayBytes (follow : Bool) (now port : Nat) (req : List Byte) (h : Hall) : List Byte :=
  let bytes := fun (a n : Nat) => (List.range n).flatMap fun k => leBytes 1 (byteAt req (a + k))
  pdelayHead (if follow then 0x0A else 3) (if follow then 0 else 2) port (BitVec.ofNat 8 (byteAt req 4)) (if follow then bytes 8 8 else zeros 8) (bytes 30 2) h ++
    ptpStamp (hallTime now h + (if follow then Config.pdelayTurn now else 0)) ++ bytes 20 10

/-- A Pdelay_Req of the Hall's own. -/
def pdelayAsk (now port : Nat) (h : Hall) : List Byte :=
  pdelayHead 2 0 port 0#8 (zeros 8) (beBytes 2 (vget h.pdSeq port 0)) h ++ ptpStamp (hallTime now h) ++ zeros 10

/-- The Hall measures the peer delay of a port once per second: it sends a Pdelay_Req (R387). -/
def pdelaySend (now port : Nat) (s : State) : State :=
  if (match vget s.hall.pdAt port none with
      | some t => decide (t + sec ≤ now)
      | none => true) then
    modHall (fun h => hallTx (fun n => .frame n (hapF h F.HAL_CFG_PCP_PTP) 0x0180C200000E 0x88F7 (pdelayAsk now port h))
      { h with pdAt := vset h.pdAt port (some now), pdSeq := vmod h.pdSeq port fun k => (k + 1) % 65536 }) s
  else s

/-- PDELAY_REQ: answered in hardware as a two-step responder, but not in listen mode (R387, R415). -/
def pdelayReq (now port : Nat) (bytes : List Byte) (s : State) : State :=
  if !s.hall.up then s
  else
    let s1 := portHeard now port s
    if listening s1 then s1
    else
      let tx := fun (follow : Bool) (h : Hall) =>
        hallTx (fun n => .frame n (hapF h F.HAL_CFG_PCP_PTP) 0x0180C200000E 0x88F7 (pdelayBytes follow now port bytes h)) h
      modHall (fun h => tx true (tx false h)) s1

/-! ### Command packets (R400 to R404) -/

/-- Header fields of a packet. -/
structure Head where
  ver : Nat
  tgt : Nat
  op : Nat
  seq : Nat
  len : Nat
  id : Nat
  auth : Bool
  deriving DecidableEq, Repr

def headOf (b : List Byte) : Head :=
  ⟨byteAt b 0, byteAt b 1, u16At b 2, u16At b 4, u16At b 6, u32At b 8, (byteAt b 12).testBit 0⟩

/-- A reply built from a command's own header (R402). -/
def rawReply (h : Head) (src : Source) (status detail : Nat) (payload : List Byte) (key : List Byte) : List Byte :=
  packetBytes h.ver h.tgt h.op h.seq h.id (status + 256 * detail) payload (isEth src || h.auth) key

/-- Interface of R403's limit on failure replies. -/
def ifaceOf : Source → Nat
  | .spi => 0
  | .eth _ _ _ => 1

/-- The reply to a failure at steps 2 to 4: at most 10 within any second per interface. -/
def failReply (now : Nat) (h : Head) (src : Source) (status : Nat) (s : State) : State :=
  let l := s.hall.failTimes.filter fun e => decide (now < e.2 + sec)
  if 10 ≤ (l.filter fun e => e.1 == ifaceOf src).length then s
  else
    let key := match sessById s.hall h.id with
      | some x => x.key
      | none => []
    sendTo now src false (rawReply h src status 0 [] key) (modHall (fun y => { y with failTimes := (ifaceOf src, now) :: l }) s)

/-- The target that a session's code names (R400, R407). -/
def targetOf (x : Option Session) (code : Nat) : Option Target :=
  let plain := if code = 0 then some Target.hall else if code = 15 then some .dikehouse else (polderNo code).map .polder
  match x with
  | some e => if e.ver = 0x10 then (if code = 0 then some .hall else if code = 1 then (polderNo e.bound).map .polder else none) else plain
  | none => plain

/-- Token of a target (R409): the device token for the Hall and the Dikehouse. -/
def tokenOf : Target → Nat
  | .polder i => i.num
  | _ => 0

/-- Why a target turns a packet away at step 8 (R4, R22). -/
def targetAway (s : State) : Target → Option Nat
  | .polder i => unavail s i
  | _ => none

/-- The opcode exists for the target and the version (step 9, R407). -/
def cardFor (ver op : Nat) (tgt : Target) : Option Card := match cardOf op with
  | some c => if c.tgt.has tgt && !(ver == 0x10 && decide (0x0501 ≤ op ∧ op ≤ 0x0505)) then some c else none
  | none => none

/-- Step 11 (R409): the token, and the role ADMIN where it is needed. -/
def allowed (h : Hall) (x : Session) (c : Card) (tgt : Target) : Bool :=
  (!c.writes || holds h (tokenOf tgt) x.idx) && (!(c.admin || (c.op == Op.writeWords && tgt == .hall)) || roleOf h x == 2)

/-- Step 4 of R403 for a HELLO: the key of its slot. A slot outside 0 to 7 has no key, and HELLO's card judges it. -/
def helloTagOk (h : Hall) (src : Source) (d : Head) (payload body tag : List Byte) : Bool :=
  let slot := if payload.length < 3 then 255 else byteAt payload 2
  if 7 < slot then !isEth src || d.auth
  else match vget h.keys slot none with
    | some k => d.auth && tag == tagOf k.key body
    | none => false

/-- Step 4 for the other commands: a session with a key needs its tag, an unauthenticated one takes none. -/
def tagOk (src : Source) (d : Head) (x : Session) (body tag : List Byte) : Bool :=
  if x.key.isEmpty then !isEth src && !d.auth else d.auth && tag == tagOf x.key body

/-- Steps 6 to 12 of R403 and what follows, for a session whose command is new. The first failure decides. -/
def interpret (now : Nat) (src : Source) (d : Head) (x : Session) (payload : List Byte) (s : State) : State :=
  let refuse := fun (st dt : Nat) (y : State) =>
    modSess x.idx (fun e => { e with lastReply := some ⟨d.tgt, x.idx, d.op, d.seq, st, dt, []⟩ })
      (sendTo now src false (rawReply d src st dt [] x.key) y)
  if d.ver ≠ x.ver then refuse Status.version 0 s
  else match targetOf (some x) d.tgt with
    | none => refuse Status.range 0 s
    | some tgt => match targetAway s tgt, cardFor x.ver d.op tgt with
      | some dt, _ => refuse Status.unavailable dt s
      | none, none => refuse Status.opcode 0 s
      | none, some card =>
        if !card.len.ok payload then refuse Status.length 0 s
        else if !allowed s.hall x card tgt then refuse Status.token 0 s
        else
          let s1 := if holds s.hall (tokenOf tgt) x.idx then leaseTo now (tokenOf tgt) x.idx s else s
          let c : Cmd := ⟨x.idx, d.seq, x.ver, payload⟩
          if tgt = .hall then
            hallAnswer now src 0 d.op c (if isExpert d.op then expert now d.op .hall c (hallCount A.HAL_CMDS s1) else hallCommand now d.op x c (hallCount A.HAL_CMDS s1))
          else if 16 ≤ (vget s1.hall.queues (queueNo tgt.code) []).length then refuse Status.timeout 0 s1
          else modHall (fun h => { h with
            queues := vset h.queues (queueNo tgt.code)
              (vget h.queues (queueNo tgt.code) [] ++ [⟨d.op, c, src, isEth src || d.auth, now⟩]) }) (hallCount A.HAL_CMDS s1)

/-- Step 5 (R404): a new command, a repetition of the last one, or an old one. -/
def sequenced (now : Nat) (src : Source) (d : Head) (x : Session) (payload : List Byte) (s : State) : State :=
  let diff := (d.seq + 65536 - x.lastSeq) % 65536
  if diff = 0 then
    (match x.lastReply with
     | some a => sendTo now src false (rawReply d src a.status a.detail a.payload x.key) s
     | none => modSess x.idx (fun e => { e with repeats := e.repeats ++ [src] }) s)
  else if 32768 ≤ diff then hallCount A.HAL_OLDSEQ s
  else
    let fresh := fun (e : Session) => { e with lastSeq := d.seq, lastReply := none, repeats := [] }
    interpret now src d (fresh x) payload (modSess x.idx fresh s)

/-- Steps 7 to 12 of R403 for a HELLO, and its execution. -/
def helloChecked (now : Nat) (src : Source) (d : Head) (payload : List Byte) (s : State) : State :=
  let key := (slotRights s.hall (byteAt payload 2)).2.2
  let refuse := fun (st : Nat) => sendTo now src false (rawReply d src st 0 [] key) s
  match targetOf none d.tgt with
  | none => refuse Status.range
  | some (.polder i) => (match unavail s i with
    | some dt => sendTo now src false (rawReply d src Status.unavailable dt [] key) s
    | none => refuse Status.opcode)
  | some .dikehouse => refuse Status.opcode
  | some .hall =>
    if payload.length ≠ 24 then refuse Status.length
    else hello now ⟨src, d.ver, d.seq, payload⟩ (hallCount A.HAL_CMDS s)

/-- The checks of R403 on the bytes of one packet. On Ethernet a packet always has room for a tag; one without `AUTH` fails step 4,
whether or not the 16 bytes follow (DEDUCED from R401, notes/assumptions/38.md). -/
def checkPacket (now : Nat) (src : Source) (b : List Byte) (s : State) : State :=
  let d := headOf b
  let tagged := isEth src || d.auth
  let body := b.take (20 + d.len)
  let tag := b.drop (20 + d.len)
  let payload := (b.drop 16).take d.len
  if b.length < 20 + (if tagged then 16 else 0) ∨ 1060 < b.length then hallCount A.HAL_BADLEN s
  else if 1024 < d.len ∨ !(b.length == 20 + d.len + (if tagged then 16 else 0) || (isEth src && !d.auth && b.length == 20 + d.len)) then
    failReply now d src Status.length (hallCount A.HAL_BADLEN s)
  else if u32At b (16 + d.len) ≠ (crc32 (b.take (16 + d.len))).toNat then failReply now d src Status.crc (hallCount A.HAL_BADCRC s)
  else
    let bad := failReply now d src Status.auth (hallNote now F.HAL_EVT_AUTH_FAIL ((sessById s.hall d.id).map (·.idx)) (hallCount A.HAL_BADAUTH s))
    if d.op = Op.hello then (if helloTagOk s.hall src d payload body tag then helloChecked now src d payload s else bad)
    else match sessById s.hall d.id with
      | none => bad
      | some x =>
        if tagOk src d x body tag then
          (let seen := fun (e : Session) => { e with lastSeen := now }
           sequenced now src d (seen x) payload (modSess x.idx seen s))
        else bad

/-- Rank of a port among packets that complete in one cycle of the Hall clock: SPI-H, ETH-A, ETH-B (R399). -/
def portRank : Source → Nat
  | .spi => 0
  | .eth port _ _ => port + 1

/-- The instant at which a packet enters the interpreter. One offered in the cycle of another whose port ranks behind its own cannot precede it any more: it
counts as one that has completed in the next cycle, where R399 has it follow (DESIGN CHOICE, notes/assumptions/38.md). -/
def entryAt (now : Nat) (src : Source) (h : Hall) : Nat :=
  if now / hallCyc = h.entered.1 ∧ portRank src < h.entered.2 then (h.entered.1 + 1) * hallCyc
  else if now / hallCyc < h.entered.1 then h.entered.1 * hallCyc
  else now

/-- A packet enters the interpreter and passes the checks wholly before the next (R399). -/
def enter (now : Nat) (src : Source) (b : List Byte) (s : State) : State :=
  let t := entryAt now src s.hall
  checkPacket t src b (modHall (fun h => { h with entered := (t / hallCyc, portRank src) }) s)

/-- COMMAND_PACKET: from SPI-H the packet in the receive buffer; from Ethernet a datagram, which an address of 0.0.0.0 shuts out (R395). -/
def commandPacket (now : Nat) (src : Source) (prp : Option (Nat × Nat)) (b : List Byte) (s : State) : State := match src with
  | .spi => if s.hall.up && s.hall.spiRx == some b then enter now src b (modHall (fun h => { h with spiRx := none }) s) else s
  | .eth port _ _ => received now port prp (fun y => if ownIp y.hall = 0 then y else enter now src b y) s

/-! ### The SPI target (R397, R398) -/

def spiOut (l : List Byte) (s : State) : State := modHall (fun h => { h with sent := h.sent ++ [.spi l] }) s

/-- The pin H_SPI_IRQ_N: low while a packet waits for the SPI host. -/
def spiIrqN (h : Hall) : Bool := h.spiOut.isEmpty

/-- SPI_STATUS. MISO drives 0xFF during the transaction byte and the turnaround byte. -/
def spiStatus (s : State) : State :=
  if !s.hall.up then s
  else
    let n := match s.hall.spiOut with
      | x :: _ => x.1.length
      | [] => 0
    spiOut ([0xFF#8, 0xFF#8] ++ leBytes 2 n ++ leBytes 1 s.hall.spiOut.length ++ leBytes 1 (bn s.hall.spiRx.isNone)) s

/-- SPI_WRITE: one packet into the receive buffer; a short transaction, or a full buffer, loses it. -/
def spiWrite (len : Nat) (b : List Byte) (s : State) : State :=
  if !s.hall.up then s
  else if b.length < len ∨ s.hall.spiRx.isSome = true then hallCount A.HAL_SPIDROP s
  else modHall (fun h => { h with spiRx := some (b.take len) }) s

/-- SPI_READ: the oldest packet leaves the queue only when all its bytes have been clocked. -/
def spiRead (clocked : Nat) (s : State) : State :=
  if !s.hall.up then s
  else match s.hall.spiOut with
    | [] => spiOut ([0xFF#8, 0xFF#8] ++ leBytes 2 0 ++ List.replicate clocked 0xFF#8) s
    | x :: l =>
      let s1 := spiOut ([0xFF#8, 0xFF#8] ++ leBytes 2 x.1.length ++ x.1.take clocked ++ List.replicate (clocked - x.1.length) 0xFF#8) s
      if x.1.length ≤ clocked then modHall (fun h => { h with spiOut := l }) s1 else s1

/-! ### Sampled values (R252, R416) -/

/-- A TLV of the basic encoding rules, with a length below 128. -/
def tlv (tag : Nat) (l : List Byte) : List Byte := leBytes 1 tag ++ leBytes 1 l.length ++ l

/-- The eight pairs of a value and its Quality. -/
def seqData (v : SvOut) : List Byte := v.vals.flatMap fun e => beBytes 4 (codeOf 32 e.1) ++ beBytes 4 e.2

/-- The frame content after the EtherType: APPID, length, two reserved words, one ASDU. -/
def svFrame (h : Hall) (k : Nat) (v : SvOut) : List Byte :=
  let asdu := tlv 0x80 (vget h.svId k []) ++ tlv 0x82 (beBytes 2 v.k) ++ tlv 0x83 (beBytes 4 (vget h.svRev k 1)) ++ tlv 0x85 (leBytes 1 v.synch) ++
    tlv 0x87 (seqData v)
  let apdu := tlv 0x60 (tlv 0x80 [1#8] ++ tlv 0xA2 (tlv 0x30 asdu))
  beBytes 2 (hapF h (F.HAL_SVCFG_APPID k)) ++ beBytes 2 (8 + apdu.length) ++ zeros 4 ++ apdu

/-- SV_FRAME_SEND: the oldest sample of the polder, within 250 µs of its handover. -/
def svSend (now : Nat) (i : PolderId) (s : State) : State := match (s.pol i).flt.svOut with
  | [] => s
  | v :: l =>
    if s.hall.up && !listening s && decide (now ≤ v.at' + 250 * us) then
      let k := i.num - 1
      modHall (fun h => hallTx (fun n =>
        .frame n (hapF h F.HAL_CFG_PCP_SV) (0x010CCD040000 + hapF h (F.HAL_SVCFG_MAC k)) 0x88BA (svFrame h k v)) h)
        (s.modPol i fun p => { p with flt := { p.flt with svOut := l } })
    else s

/-- SVLOST: a sample not sent within 250 µs is dropped and counted. -/
def svLost (now : Nat) (i : PolderId) (s : State) : State := match (s.pol i).flt.svOut with
  | [] => s
  | v :: l =>
    if s.hall.up && decide (v.at' + 250 * us < now) then
      hallNote now F.HAL_EVT_SVLOST none (hallCount A.HAL_SVLOST (s.modPol i fun p => { p with flt := { p.flt with svOut := l } }))
    else s

end Sys2Proof.Machine
end

