-- ==== Sys2Proof/Machine/Operands.lean ====
section
/-!
DEFINITION. The operand forms of the commands: fields of a payload as register codes (R13, R15, R83), the bases of R50, and the frames
in which commands and events run: a polder that must be there, an awake polder, a command at its target.
-/
namespace Sys2Proof.Machine
open Sys2Proof

/-! ### Fields that a command writes -/

/-- A value for some bits of a register; `sgn` when its code is two's complement. -/
structure Item where
  off : Nat
  hi : Nat
  lo : Nat
  code : Int
  sgn : Bool
  deriving DecidableEq, Repr

/-- A whole register, unsigned or signed, and a field. -/
def whole (off : Nat) (v : Nat) : Item := ⟨off, 31, 0, v, false⟩
def wholeI (off : Nat) (v : Int) : Item := ⟨off, 31, 0, v, true⟩
def part (f : Fld) (v : Nat) : Item := ⟨f.off, f.hi, f.lo, v, false⟩
def partI (f : Fld) (v : Int) : Item := ⟨f.off, f.hi, f.lo, v, true⟩

/-- The code has room in its bits. -/
def Item.fits (x : Item) : Bool :=
  let n := x.hi + 1 - x.lo
  if x.sgn then decide (-((2 ^ (n - 1) : Nat) : Int) ≤ x.code ∧ x.code < ((2 ^ (n - 1) : Nat) : Int))
  else decide (0 ≤ x.code ∧ x.code < ((2 ^ n : Nat) : Int))

/-- The next field joined to the entries so far, newest first: neighbours of one register share an entry. -/
def joinItem (l : List (Nat × Word × Word)) (x : Item) : List (Nat × Word × Word) :=
  let m := maskBits x.hi x.lo
  let v := withBits 0 x.hi x.lo (codeOf (x.hi + 1 - x.lo) x.code)
  match l with
  | (o, m0, v0) :: t => if o = x.off then (o, m0 ||| m, v0 ||| v) :: t else (x.off, m, v) :: l
  | [] => [(x.off, m, v)]

/-- The entries that fields make. -/
def entriesOf (l : List Item) : List (Nat × Word × Word) := (l.foldl joinItem []).reverse

/-- Values lie between their bounds: (lowest, value, highest). -/
def within (l : List (Nat × Nat × Nat)) : Bool := l.all fun e => decide (e.1 ≤ e.2.1 ∧ e.2.1 ≤ e.2.2)

/-- A basic command that writes registers through its own sluice (R83): refused whole when a field lies outside its range. -/
def setCmd (now op : Nat) (c : Cmd) (ok : Bool) (l : List Item) (p : Polder) : Polder :=
  if !ok || !l.all Item.fits then answer p op c (bare Status.range)
  else
    let r := sluBasic now c.sess (entriesOf l) none p
    answer r.2 op c r.1

/-! ### Engineering values (R13, R50) -/

/-- S_base in VA, V_base in mV, f_nom in Hz. -/
def sBase (p : Polder) : Nat := rdN p A.SWG_SBASE
def vBase (p : Polder) : Nat := rdN p A.SWG_VBASE
def fNom (p : Polder) : Nat := if fbit p F.SWG_CTRL_FNOM then 60 else 50

/-- n / d as a Q4.28 code, as a UQ8.24 code, in 0.01° as a phase. -/
def q28of (n d : Nat) : Nat := roundDivN (n * 268435456) d
def uq24of (n d : Nat) : Nat := roundDivN (n * 16777216) d
def phase001 (a : Nat) : Nat := roundDivN (a * 4294967296) 36000

/-- A line-to-line RMS voltage in mV; a phase-peak voltage in mV; a DC voltage in mV: Q4.28 codes on their bases. -/
def vLine (vb mv : Nat) : Nat := q28of mv vb
def vPeak (vb mv : Nat) : Nat := roundSqrt (mv * mv * 2 ^ 56 * 3) (2 * vb * vb)
def vDc (vb mv : Nat) : Nat := roundSqrt (mv * mv * 2 ^ 56) (2 * vb * vb)

/-- A phase-peak current in mA on the instantaneous current base √2 S / (√3 V). -/
def iPeak (sb vb ma : Nat) : Nat := roundSqrt (ma * ma * 2 ^ 56 * 3 * vb * vb) (2 * 10 ^ 12 * sb * sb)

/-- Bins of 78.125 ps. -/
def binsOfPs (ps : Nat) : Nat := roundDivN (ps * 1000) 78125
def binsOfNs (n : Nat) : Nat := roundDivN (n * 1000000) 78125

/-! Back from codes: v × base, rounded to the nearest unit (R13). `x` is a Q4.28 code. -/

def mvLine (p : Polder) (x : Int) : Int := roundDiv (x * vBase p) 268435456

/-- x times the square root of n / d, over 2^28, rounded. -/
def timesRoot (x : Int) (n d : Nat) : Int :=
  let r := roundSqrt (x.natAbs * x.natAbs * n) (d * 2 ^ 56)
  if x < 0 then -(r : Int) else r

def mvPeak (p : Polder) (x : Int) : Int := timesRoot x (2 * vBase p * vBase p) 3
def mvDc (p : Polder) (x : Int) : Int := timesRoot x (2 * vBase p * vBase p) 1
def maPeak (p : Polder) (x : Int) : Int := timesRoot x (2 * 10 ^ 12 * sBase p * sBase p) (3 * vBase p * vBase p)
def maRms (p : Polder) (x : Int) : Int := timesRoot x (10 ^ 12 * sBase p * sBase p) (3 * vBase p * vBase p)
def vaOf (p : Polder) (x : Int) : Int := roundDiv (x * sBase p) 268435456
def mHzOf (p : Polder) (x : Int) : Int := roundDiv (x * (fNom p * 1000 : Nat)) 268435456
def deg001 (x : Int) : Int := roundDiv (x * 36000) 4294967296

/-- Registers of a polder as reply bytes, as a read of the SE returns them. -/
def regBytes (s : Part) (now : Nat) (p : Polder) (l : List Nat) : List Byte := l.flatMap fun o => wBytes (viewWord s now p o)

/-- The time 0 that version 1.0 asks for (R407). -/
def timeOk (c : Cmd) (sec ns : Nat) : Bool := c.ver != 0x10 || (sec == 0 && ns == 0)

/-! ### Frames -/

abbrev Result := Host.Outcome State Fault Refusal

/-- An event at instant `t`: its effect, then what the targets have handed over is taken. -/
def onDevice (t : Nat) (s : State) (f : Nat → State → State) : Result :=
  let now := max s.now t
  .next (collect now (f now (s.at' t)))

/-- An event at a polder that the part must have. -/
def onPart (t : Nat) (i : PolderId) (s : State) (f : Nat → State → State) : Result :=
  if Part.has s.part i then onDevice t s f else .fault (.absentPolder i)

/-- An event at a polder that is awake; at another one it does not occur. -/
def onAwake (t : Nat) (i : PolderId) (s : State) (f : Nat → Polder → Polder) : Result :=
  onPart t i s fun now y => if awake (y.pol i) then y.modPol i (fun p => polish now (f now p)) else y

/-- An event of a function that rescue does not run (R452). -/
def onRunning (t : Nat) (i : PolderId) (s : State) (f : Nat → Polder → Polder) : Result :=
  onPart t i s fun now y => if awake (y.pol i) && !rescue (y.pol i) then y.modPol i (fun p => polish now (f now p)) else y

/-- A message of the Hall reaches a polder whose CLK_P stands in SLEEP: its FIFO discards and counts it (R31). -/
def clockStood (p : Polder) : Polder :=
  if p.power = .asleep then { p with eng := { p.eng with hallLost := p.eng.hallLost + 1 } } else p

/-- A frame on a port that carries something for one polder: every polder's networks count it (R357), and it acts on the polder where that runs it. The Hall
must be up. -/
def onHeard (runs : Polder → Bool) (t port : Nat) (i : PolderId) (s : State) (f : Nat → Polder → Polder) : Result :=
  if s.hall.up && decide (port < 2) then
    onPart t i s fun now y =>
      let y1 := portHeard now port y
      if runs (y1.pol i) then y1.modPol i (fun p => polish now (f now p)) else y1.modPol i clockStood
  else onDevice t s fun _ y => y

/-- The Hall's own reply to a command of session `c.sess`. -/
def hallSays (now tgt op : Nat) (c : Cmd) (r : Reply) (s : State) : State := match sessOf s.hall c.sess with
  | some x => hallAnswer now x.src tgt op c (hallBad r s)
  | none => s

/-- A command as the SE takes it: length, rescue, regime, then its own rules (R17, R452). -/
def carried' (op : Nat) (c : Cmd) (p : Polder) (f : Polder → Polder) : Polder := match cardOf op with
  | none => p
  | some k =>
    if !k.len.ok c.payload then answer p op c (bare Status.length)
    else if rescue p && !k.rescue then answer p op c (bare Status.state)
    else if !k.regimes.contains (regime p) then answer p op c (bare Status.state)
    else f p

/-- A command whose effect goes beyond its polder. -/
def atPolder (t : Nat) (i : PolderId) (c : Cmd) (op : Nat) (s : State) (f : Nat → State → State) : Result :=
  onDevice t s fun now y => match unavail y i with
    | some d => hallSays now i.num op c ⟨Status.unavailable, d, []⟩ y
    | none => if seState (y.pol i) = Eng.run then f now y else y

/-- A command at a polder (R17, R22). An SE that does not run takes none. -/
def onCommand (t : Nat) (i : PolderId) (c : Cmd) (op : Nat) (s : State) (f : Nat → Polder → Polder) : Result :=
  atPolder t i c op s fun now y => y.modPol i fun p => polish now (carried' op c p (f now))

/-- A command of the Hall: it needs its session and the length of its card. -/
def onHall (t : Nat) (c : Cmd) (op : Nat) (s : State) (f : Nat → Session → State → HallOutcome) : Result :=
  onDevice t s fun now y => match sessOf y.hall c.sess, cardOf op with
    | some x, some k =>
      if !y.hall.up then y
      else hallAnswer now x.src 0 op c (if k.len.ok c.payload then f now x y else hallBad (bare Status.length) y)
    | _, _ => y

/-- A command of the Dikehouse: the length of its card, then its own rules. -/
def onDkh (t : Nat) (c : Cmd) (op : Nat) (s : State) (f : Nat → State → State) : Result :=
  onDevice t s fun now y => match cardOf op with
    | some k =>
      if !y.dkh.up then y
      else if k.len.ok c.payload then f now y else dkhReply op c.sess c.seq (bare Status.length) y
    | none => y

end Sys2Proof.Machine
end

