-- ==== Sys2Proof/Machine/CmdSwing.lean ====
section
/-!
DEFINITION. Commands of the swing engine and of the regimes (spec/02 R83, R84; spec/03 R93, R118).
-/
namespace Sys2Proof.Machine
open Sys2Proof

/-! ### Swing engine (R83) -/

def cSetBases (now : Nat) (c : Cmd) (p : Polder) : Polder :=
  let b := c.payload
  let sb := u32At b 0
  let vb := u32At b 4
  let f := byteAt b 8
  setCmd now Op.setBases c (f == 50 || f == 60)
    [whole A.SWG_SBASE sb, whole A.SWG_VBASE vb, part F.SWG_CTRL_FNOM (bn (f == 60)), whole A.SWG_SCL_I (iPeak sb vb (u32At b 12)),
      whole A.SWG_SCL_V (vPeak vb (u32At b 16)), whole A.SWG_SCL_DC (vDc vb (u32At b 20))] p

def cSetInertia (now : Nat) (c : Cmd) (p : Polder) : Polder :=
  let b := c.payload
  setCmd now Op.setInertia c
    (within [(50, u32At b 0, 20000), (0, u32At b 4, 20000), (1000, u32At b 8, 50000), (50, u32At b 12, 50000)])
    [whole A.SWG_INERTIA (uq24of (u32At b 0) 1000), whole A.SWG_DAMP (uq24of (u32At b 4) 100), whole A.SWG_FEBW (u32At b 8),
      whole A.SWG_TPQ (u32At b 12)] p

def cSetDroops (now : Nat) (c : Cmd) (p : Polder) : Polder :=
  let b := c.payload
  setCmd now Op.setDroops c (within [(500, u32At b 0, 10000), (500, u32At b 4, 20000)])
    [whole A.SWG_MP (q28of (u32At b 0) 100000), whole A.SWG_NQ (q28of (u32At b 4) 100000)] p

def cSetVoltageLaw (now : Nat) (c : Cmd) (p : Polder) : Polder :=
  let b := c.payload
  setCmd now Op.setVoltageLaw c
    (within [(100, u32At b 0, 100000), (0, u32At b 4, 10000), (0, u32At b 8, 10000), (0, u32At b 12, 4000), (0, u32At b 16, 3000)])
    [whole A.SWG_TV (u32At b 0), whole A.SWG_RV (q28of (u32At b 4) 10000), whole A.SWG_XV (q28of (u32At b 8) 10000),
      whole A.SWG_GV (q28of (u32At b 12) 1000), whole A.SWG_BC (q28of (u32At b 16) 10000),
      part F.SWG_CTRL_VIMP_EN (byteAt b 20 % 2), part F.SWG_CTRL_CFF_EN (byteAt b 20 / 2 % 2)] p

def cSetLimits (now : Nat) (c : Cmd) (p : Polder) : Polder :=
  let b := c.payload
  setCmd now Op.setLimits c
    (within [(10000, u32At b 0, 15000), (0, u32At b 4, 6000), (100, u32At b 8, 3000), (0, byteAt b 12, 2), (0, byteAt b 13, 1)])
    [whole A.SWG_ILIM (q28of (u32At b 0) 10000), whole A.SWG_KNEG (uq24of (u32At b 4) 1000), whole A.SWG_DFMAX (q28of (u32At b 8) 10000),
      part F.SWG_CTRL_ILIM_MODE (byteAt b 12), part F.SWG_CTRL_NSEQ_EN (byteAt b 13)] p

def cSetAnchor (now : Nat) (c : Cmd) (p : Polder) : Polder :=
  let b := c.payload
  setCmd now Op.setAnchor c
    (within [(0, byteAt b 0, 1), (10, u16At b 2, 1000), (1, u16At b 4, 600), (100, u32At b 8, 10000)])
    [part F.SWG_CTRL_ANCHOR_EN (byteAt b 0), part F.SWG_ANCHOR_CTRL_FADE (u16At b 4), part F.SWG_ANCHOR_CTRL_BW (u16At b 2),
      whole A.SWG_ANCHOR_LIM (q28of (u32At b 8) 1000000), whole A.SWG_ANCHOR_OFS (u32At b 12)] p

/-- SET_POINTS: the quantities that the mask selects; with none, nothing is staged. -/
def cSetPoints (now : Nat) (c : Cmd) (p : Polder) : Polder :=
  let b := c.payload
  let m := byteAt b 0
  let pick := fun (k : Nat) (x : Item) => if m.testBit k then [x] else []
  if m % 16 = 0 then answer p Op.setPoints c (okWith [])
  else
    setCmd now Op.setPoints c true
      (pick 0 (wholeI A.SWG_PREF (roundDiv (i32At b 4 * 268435456) (sBase p))) ++
        pick 1 (wholeI A.SWG_QREF (roundDiv (i32At b 8 * 268435456) (sBase p))) ++
        pick 2 (whole A.SWG_VREF (vLine (vBase p) (u32At b 12))) ++
        pick 3 (whole A.SWG_FREF (q28of (u32At b 16) (fNom p * 1000)))) p

/-- GET_SWING latches the measurement group (R84). -/
def cGetSwing (c : Cmd) (p : Polder) : Polder :=
  let q := latchGroup p
  answer q Op.getSwing c (okWith (iField 4 (vaOf q (rdI q A.SWG_P)) ++ iField 4 (vaOf q (rdI q A.SWG_Q)) ++
    uField 4 (mvLine q (rdI q A.SWG_VMAG)) ++ uField 4 (mHzOf q (rdI q A.SWG_FREQ)) ++ wBytes (rd q A.SWG_THETA) ++
    uField 4 (mvLine q (rdI q A.SWG_EMF)) ++ uField 4 (maRms q (rdI q A.SWG_IMAG)) ++ wBytes q.swg.measStat ++
    leBytes 6 (q.swg.latchAt / 1000000000) ++ wBytes (rd q A.SWG_MTNS) ++ zeros 2))

def execSetBases (t : Nat) (p : PolderId) (c : Cmd) (s : State) : Result := onCommand t p c Op.setBases s fun now => cSetBases now c
def execSetInertia (t : Nat) (p : PolderId) (c : Cmd) (s : State) : Result := onCommand t p c Op.setInertia s fun now => cSetInertia now c
def execSetDroops (t : Nat) (p : PolderId) (c : Cmd) (s : State) : Result := onCommand t p c Op.setDroops s fun now => cSetDroops now c
def execSetVoltageLaw (t : Nat) (p : PolderId) (c : Cmd) (s : State) : Result :=
  onCommand t p c Op.setVoltageLaw s fun now => cSetVoltageLaw now c
def execSetLimits (t : Nat) (p : PolderId) (c : Cmd) (s : State) : Result := onCommand t p c Op.setLimits s fun now => cSetLimits now c
def execSetAnchor (t : Nat) (p : PolderId) (c : Cmd) (s : State) : Result := onCommand t p c Op.setAnchor s fun now => cSetAnchor now c
def execSetPoints (t : Nat) (p : PolderId) (c : Cmd) (s : State) : Result := onCommand t p c Op.setPoints s fun now => cSetPoints now c
def execGetSwing (t : Nat) (p : PolderId) (c : Cmd) (s : State) : Result := onCommand t p c Op.getSwing s fun _ => cGetSwing c

/-! ### Regimes (R118) -/

/-- The entry of a regime request. -/
def requestItem (target mode : Nat) : List Item := [part F.PCT_REGREQ_MODE mode, part F.PCT_REGREQ_TARGET target]

/-- REQUEST_REGIME: at time 0 the commit makes the request, whose evaluation answers; otherwise the commit is timed. -/
def cRequestRegime (now : Nat) (c : Cmd) (p : Polder) : Polder :=
  let b := c.payload
  let op := Op.requestRegime
  let l := requestItem (byteAt b 0) (byteAt b 1)
  let secs := u48At b 4
  let nan := u32At b 10
  if !l.all Item.fits || !timeOk c secs nan || decide (999999999 < nan) then answer p op c (bare Status.range)
  else if secs = 0 ∧ nan = 0 then
    let r := sluBasic now c.sess (entriesOf l) (some (refOf op c)) p
    if r.1.status = Status.ok then r.2 else answer r.2 op c r.1
  else
    let r := sluBasicAt now c.sess (secs * 1000000000 + nan) false (entriesOf l) (refOf op c) p
    answer r.2 op c r.1

/-- BREAKER: an order taken answers after its confirmation (R93). -/
def cBreaker (now : Nat) (c : Cmd) (p : Polder) : Polder :=
  let b := byteAt c.payload 0
  if 1 < b then answer p Op.breaker c (bare Status.range)
  else
    let r := breakerCmd now b (refOf Op.breaker c) p
    if r.1 = Status.ok then r.2 else answer r.2 Op.breaker c (bare r.1)

/-- SET_START_SYNC, through the bases in force. -/
def cSetStartSync (now : Nat) (c : Cmd) (p : Polder) : Polder :=
  let b := c.payload
  let vb := vBase p
  let cfg := u16At b 62
  let bit := fun (f : Fld) => part f (cfg / 2 ^ (f.lo - 16) % 2 ^ (f.hi + 1 - f.lo))
  setCmd now Op.setStartSync c true
    [bit F.PCT_REGCFG_BRK_EN, bit F.PCT_REGCFG_BRK_DO, bit F.PCT_REGCFG_AUX_EN, bit F.PCT_REGCFG_AUX_POL, bit F.PCT_REGCFG_AUX_DI,
      bit F.PCT_REGCFG_PRE_EN, bit F.PCT_REGCFG_PRE_DO, bit F.PCT_REGCFG_TRIP_BRK, part F.PCT_REGCFG_BRK_TMO (u16At b 60),
      whole A.SWG_DC_RDY (vDc vb (u32At b 0)), whole A.SWG_DC_BAL (vDc vb (u32At b 4)), whole A.SWG_PRE_TMO (u32At b 8),
      whole A.SWG_DEAD_V (vLine vb (u32At b 12)), whole A.SWG_EN_RATE (q28of (u32At b 16) 1000), whole A.SWG_EN_TMO (u32At b 20),
      whole A.SWG_BO_BASE (u16At b 24), whole A.SWG_BO_TRIES (byteAt b 26), whole A.SWG_SYNC_BW (u16At b 28),
      whole A.SWG_SYNC_LIM (q28of (u32At b 32) 1000000), whole A.SWG_SYNC_DV (vLine vb (u32At b 36)), whole A.SWG_SYNC_DF (u16At b 30),
      whole A.SWG_SYNC_DA (phase001 (u16At b 40)), whole A.SWG_SYNC_DWELL (u16At b 42), whole A.SWG_SYNC_TMO (u32At b 44),
      whole A.SWG_BRK_TCLOSE (u16At b 48), whole A.SWG_SYNC_VLO (vLine vb (u32At b 52)), whole A.SWG_SYNC_VHI (vLine vb (u32At b 56))] p

/-- SET_RIDE. -/
def cSetRide (now : Nat) (c : Cmd) (p : Polder) : Polder :=
  let b := c.payload
  let vb := vBase p
  setCmd now Op.setRide c true
    [whole A.SWG_RIDE_LO (vLine vb (u32At b 0)), whole A.SWG_RIDE_HI (vLine vb (u32At b 4)), whole A.SWG_RIDE_HYS (vLine vb (u32At b 8)),
      whole A.SWG_RIDE_TDET (u32At b 12), whole A.SWG_RIDE_TREC (u32At b 16), ⟨A.SWG_RIDE_CFG, 7, 0, byteAt b 20, false⟩,
      whole A.SWG_SLIP_ANG (phase001 (u16At b 24)), whole A.SWG_PJ_THR (phase001 (u16At b 26)),
      whole A.SWG_ROCOF_MAX (q28of (u32At b 28) (fNom p * 1000)), whole A.SWG_ROCOF_WIN (u16At b 32),
      whole A.SWG_DCG_LO (vDc vb (u32At b 36)), whole A.SWG_DCG_HI (vDc vb (u32At b 40)), whole A.SWG_DCG_K (q28of (u32At b 44) 1000),
      whole A.SWG_STOP_RATE (q28of (u32At b 48) 1000), whole A.SWG_STOP_TMO (u32At b 52)] p

/-- SET_ENVELOPE: the sixteen points of one envelope (R106). -/
def cSetEnvelope (now : Nat) (c : Cmd) (p : Polder) : Polder :=
  let b := c.payload
  let base := fun (k : Nat) => if byteAt b 0 = 0 then A.SWG_UVENV k else A.SWG_OVENV k
  setCmd now Op.setEnvelope c (decide (byteAt b 0 ≤ 1))
    ((List.range 16).map fun k => whole (base k) (u16At b (4 + 4 * k) * 65536 + u16At b (6 + 4 * k))) p

/-- GET_REGIME. -/
def cGetRegime (c : Cmd) (p : Polder) : Polder :=
  answer p Op.getRegime c (okWith (wBytes (rd p A.PCT_REGIME) ++ wBytes (rd p A.PCT_REGEVT) ++ uField 4 (mvDc p (rdI p A.SWG_VDC)) ++
    uField 4 (mvLine p (rdI p A.SWG_U1)) ++ iField 4 (mHzOf p (rdI p A.SWG_ROCOF)) ++ wBytes (rd p A.SWG_RIDE_T) ++
    iField 4 (deg001 (rdI p A.SWG_PJ_LAST)) ++ leBytes 6 (rdN p A.PCT_REGT_SL + 4294967296 * (rdN p A.PCT_REGT_SH % 65536)) ++
    wBytes (rd p A.PCT_REGT_NS) ++ zeros 2))

def execRequestRegime (t : Nat) (p : PolderId) (c : Cmd) (s : State) : Result :=
  onCommand t p c Op.requestRegime s fun now => cRequestRegime now c
def execBreaker (t : Nat) (p : PolderId) (c : Cmd) (s : State) : Result := onCommand t p c Op.breaker s fun now => cBreaker now c
def execSetStartSync (t : Nat) (p : PolderId) (c : Cmd) (s : State) : Result := onCommand t p c Op.setStartSync s fun now => cSetStartSync now c
def execSetRide (t : Nat) (p : PolderId) (c : Cmd) (s : State) : Result := onCommand t p c Op.setRide s fun now => cSetRide now c
def execSetEnvelope (t : Nat) (p : PolderId) (c : Cmd) (s : State) : Result := onCommand t p c Op.setEnvelope s fun now => cSetEnvelope now c
def execGetRegime (t : Nat) (p : PolderId) (c : Cmd) (s : State) : Result := onCommand t p c Op.getRegime s fun _ => cGetRegime c

end Sys2Proof.Machine
end

