-- ==== Sys2Proof/Machine/CmdModulator.lean ====
section
/-!
DEFINITION. Commands of the embankment controller, the modulator, the learner and the gallery (spec/04 R152, R153; spec/05 R185, R186; spec/06
R211).
-/
namespace Sys2Proof.Machine
open Sys2Proof

/-! ### Embankment controller (R152) -/

/-- Reactance code of an inductance in nH: xL = 2π f_nom L / Z_base. -/
def reactance (p : Polder) (l : Nat) : Nat :=
  roundDivN (tau60.toNat * fNom p * l * sBase p * 268435456) (1152921504606846976 * 1000 * vBase p * vBase p)

def cSetEmbankment (now : Nat) (c : Cmd) (p : Polder) : Polder :=
  let b := c.payload
  setCmd now Op.setEmbankment c (decide (byteAt b 0 ≤ 2))
    [part F.EMB_CTRL_TOPO (byteAt b 0), part F.EMB_CTRL_ZS_REMOVE (byteAt b 1 % 2), part F.EMB_CTRL_CM_EST (byteAt b 1 / 2 % 2),
      whole A.EMB_XL (reactance p (u32At b 4))] p

/-- A phase-peak current in mA on the bases in force. -/
def iCode (p : Polder) (ma : Nat) : Nat := iPeak (sBase p) (vBase p) ma

def cSetBand (now : Nat) (c : Cmd) (p : Polder) : Polder :=
  let b := c.payload
  setCmd now Op.setBand c (within [(0, byteAt b 0, 2), (500, u32At b 4, 20000), (0, u32At b 20, 500)])
    [part F.EMB_CTRL_BANDMODE (byteAt b 0), whole A.EMB_FSW (u32At b 4), whole A.EMB_HFIX (iCode p (u32At b 8)),
      whole A.EMB_HMIN (iCode p (u32At b 12)), whole A.EMB_HMAX (iCode p (u32At b 16)), whole A.EMB_TRIMK (q28of (u32At b 20) 1000)] p

def cSetPrediction (now : Nat) (c : Cmd) (p : Polder) : Polder :=
  let b := c.payload
  let n := byteAt b 1
  setCmd now Op.setPrediction c
    ((n == 4 || n == 8 || n == 16) && within [(0, byteAt b 0, 2), (0, u32At b 4, 5119921), (1100, u32At b 20, 4000)])
    [part F.EMB_CTRL_SLOPE_SRC (byteAt b 0), part F.EMB_CTRL_FIT_N (if n = 4 then 0 else if n = 8 then 1 else 2),
      whole A.EMB_TEXT (binsOfPs (u32At b 4)), whole A.EMB_HOLD (u32At b 8), whole A.EMB_SETTLE (u32At b 12),
      whole A.EMB_IZC (iCode p (u32At b 16)), whole A.EMB_OUTER (uq24of (u32At b 20) 1000), whole A.EMB_SMIN (iCode p (u32At b 24))] p

def cSetNpBalance (now : Nat) (c : Cmd) (p : Polder) : Polder :=
  let b := c.payload
  let vb := vBase p
  setCmd now Op.setNpBalance c (within [(0, byteAt b 0, 1), (0, u32At b 4, 7900), (100, u32At b 16, 100000)])
    [part F.EMB_CTRL_NP_EN (byteAt b 0), whole A.EMB_NPK (q28of (u32At b 4) 1000), whole A.EMB_V0MAX (vPeak vb (u32At b 8)),
      whole A.EMB_SECT_HYS (vPeak vb (u32At b 12)), whole A.EMB_NPTF (u32At b 16)] p

def cGetEmbankment (c : Cmd) (p : Polder) : Polder :=
  answer p Op.getEmbankment c (okWith ([0, 1, 2].flatMap (fun k =>
      wBytes (rd p (A.EMB_FSWM k)) ++ uField 4 (maPeak p (rdI p (A.EMB_BAND k))) ++ uField 4 (roundDivN (rdN p (A.EMB_TRIM k) * 1000) 16777216) ++
        leBytes 2 (rdN p (A.EMB_CNT k) / 65536) ++ leBytes 2 (rdN p (A.EMB_CNT k) % 65536)) ++
    wBytes (rd p A.EMB_STAT) ++ wBytes (rd p A.EMB_EVT) ++ iField 4 (mvPeak p (rdI p A.EMB_V0))))

def execSetEmbankment (t : Nat) (p : PolderId) (c : Cmd) (s : State) : Result :=
  onCommand t p c Op.setEmbankment s fun now => cSetEmbankment now c
def execSetBand (t : Nat) (p : PolderId) (c : Cmd) (s : State) : Result := onCommand t p c Op.setBand s fun now => cSetBand now c
def execSetPrediction (t : Nat) (p : PolderId) (c : Cmd) (s : State) : Result :=
  onCommand t p c Op.setPrediction s fun now => cSetPrediction now c
def execSetNpBalance (t : Nat) (p : PolderId) (c : Cmd) (s : State) : Result := onCommand t p c Op.setNpBalance s fun now => cSetNpBalance now c
def execGetEmbankment (t : Nat) (p : PolderId) (c : Cmd) (s : State) : Result := onCommand t p c Op.getEmbankment s fun _ => cGetEmbankment c

/-! ### Modulator (R185) -/

def cSetModulator (now : Nat) (c : Cmd) (p : Polder) : Polder :=
  let b := c.payload
  let dts := [0, 1, 2, 3].map fun k => u32At b (4 + 4 * k)
  setCmd now Op.setModulator c
    (within ([(0, byteAt b 0, 3), (0, byteAt b 1, 1), (0, byteAt b 2, 2), (0, byteAt b 3, 1), (100000, u32At b 20, 20000000),
      (0, byteAt b 26, 15)] ++ dts.map fun d => (200000, d, 10000000)))
    ([part F.MOD_CTRL_SS_SINK (byteAt b 26), part F.MOD_CTRL_AUX_MODE (byteAt b 2), part F.MOD_CTRL_AUX_CFG (byteAt b 3),
      part F.MOD_CTRL_UPD (byteAt b 1), part F.MOD_CTRL_MODE (byteAt b 0)] ++
      [0, 1, 2, 3].map (fun k => whole (A.MOD_DT k) (binsOfPs (dts.getD k 0))) ++
      [whole A.MOD_TMIN (binsOfPs (u32At b 20)), whole A.MOD_SS_GAP (u16At b 24)]) p

def cSetBootstrap (now : Nat) (c : Cmd) (p : Polder) : Polder :=
  let b := c.payload
  setCmd now Op.setBootstrap c true
    [part F.MOD_CTRL_BS_EN (byteAt b 0 % 16), whole A.MOD_BS_TMAX (u32At b 4), whole A.MOD_BS_TRF (u32At b 8), whole A.MOD_BS_WARN (u32At b 12),
      whole A.MOD_CHOP_ON (vDc (vBase p) (u32At b 16)), whole A.MOD_CHOP_OFF (vDc (vBase p) (u32At b 20))] p

def cSetPulseShape (now : Nat) (c : Cmd) (p : Polder) : Polder :=
  let b := c.payload
  let k := byteAt b 0
  setCmd now Op.setPulseShape c (within [(0, k, 3), (0, byteAt b 1, 1)])
    [whole (if byteAt b 1 = 0 then A.MOD_SHAPE k else A.MOD_SHAPEH k) (u32At b 4), whole A.MOD_SHAPE_ITH (iCode p (u32At b 8))] p

/-- The buffer of `MOD_PER`, committed writes that no update has taken yet included. -/
def perBuffer (p : Polder) : Nat :=
  (p.mdl.committed.foldl (fun w e => if e.1 = A.MOD_PER then merge w e.2.1 e.2.2 else w) (rd p A.MOD_PER)).toNat

/-- A duty in 10^-6 as `SIDE` and `TON` under a period (R164); a 2-level leg and GL3 take none below 0. -/
def dutyItems (p : Polder) (i per : Nat) (m : Int) : Option (List Item) :=
  if m < -1000000 ∨ 1000000 < m then none
  else if m < 0 then
    (if threeLevel p i then some [part (F.MOD_CMP_SIDE i) 1, part (F.MOD_CMP_TON i) (roundDivN ((1000000 + m).toNat * per) 1000000)] else none)
  else some [part (F.MOD_CMP_SIDE i) 0, part (F.MOD_CMP_TON i) (roundDivN (m.toNat * per) 1000000)]

/-- SET_CARRIER: the selected quantities, into the buffers (R169). A mask of 0 selects none. -/
def cSetCarrier (now : Nat) (c : Cmd) (p : Polder) : Polder :=
  let b := c.payload
  let m := byteAt b 0
  let per := if m.testBit 0 then binsOfNs (u32At b 4) else perBuffer p
  let duties := ([0, 1, 2, 3].filter fun k => m.testBit (1 + k)).map fun k => dutyItems p k per (i32At b (8 + 4 * k))
  let items := (if m.testBit 0 then [whole A.MOD_PER per] else []) ++ duties.flatMap (fun d => d.getD []) ++
    ([0, 1, 2].filter fun k => m.testBit (5 + k)).map fun k => whole (A.MOD_TTMR k) (binsOfNs (u32At b (24 + 4 * k)))
  if m = 0 then answer p Op.setCarrier c (okWith []) else setCmd now Op.setCarrier c (duties.all fun d => d.isSome) items p

/-- GET_MODULATOR: the values in force, not the buffers. -/
def cGetModulator (c : Cmd) (p : Polder) : Polder :=
  answer p Op.getModulator c (okWith (wBytes (rd p A.MOD_STAT) ++ wBytes (rd p A.MOD_EVT) ++ wBytes (rd p A.MOD_SW) ++
    leBytes 4 p.mdl.per.inForce ++ p.mdl.cmp.toList.flatMap (fun x => leBytes 4 x.inForce) ++ p.mdl.ttmr.toList.flatMap fun x => leBytes 4 x.inForce))

def execSetModulator (t : Nat) (p : PolderId) (c : Cmd) (s : State) : Result := onCommand t p c Op.setModulator s fun now => cSetModulator now c
def execSetBootstrap (t : Nat) (p : PolderId) (c : Cmd) (s : State) : Result := onCommand t p c Op.setBootstrap s fun now => cSetBootstrap now c
def execSetPulseShape (t : Nat) (p : PolderId) (c : Cmd) (s : State) : Result :=
  onCommand t p c Op.setPulseShape s fun now => cSetPulseShape now c
def execSetCarrier (t : Nat) (p : PolderId) (c : Cmd) (s : State) : Result := onCommand t p c Op.setCarrier s fun now => cSetCarrier now c
def execGetModulator (t : Nat) (p : PolderId) (c : Cmd) (s : State) : Result := onCommand t p c Op.getModulator s fun _ => cGetModulator c

/-! ### Learner (R211) -/

def cSetLearner (now : Nat) (c : Cmd) (p : Polder) : Polder :=
  let b := c.payload
  let f := byteAt b 0
  setCmd now Op.setLearner c
    (within [(0, u32At b 4, 1000), (900000, u32At b 8, 1000000), (100, u32At b 16, 5000), (100, u32At b 32, 50000)])
    [part F.LRN_CTRL_AUTOSAVE (f / 8 % 2), part F.LRN_CTRL_WARM (f / 4 % 2), part F.LRN_CTRL_FREEZE (f / 2 % 2), part F.LRN_CTRL_EN (f % 2),
      whole A.LRN_GAIN (q28of (u32At b 4) 1000), whole A.LRN_FORGET (q28of (u32At b 8) 1000000), whole A.LRN_LEAD (u32At b 12),
      whole A.LRN_CLIM (q28of (u32At b 16) 10000), whole A.LRN_HMASK0 (u32At b 20), whole A.LRN_HMASK1 (u32At b 24),
      whole A.LRN_FADE (u16At b 28), whole A.LRN_DFUPD (q28of (u32At b 32) 1000000), whole A.LRN_SAVEINT (u16At b 30)] p

/-- LEARNER_STORE: an action that the register would ignore is answered STATE; a section that fails the checks of R199 sets `WARM_REJ` too. -/
def cLearnerStore (now : Nat) (c : Cmd) (p : Polder) : Polder :=
  let k := byteAt c.payload 0
  let op := Op.learnerStore
  let good := fun (q : Polder) => answer q op c (okWith (wBytes (rd q A.LRN_STAT) ++ wBytes (rd q A.LRN_EVT)))
  if 3 < k then answer p op c (bare Status.range)
  else if (k = 1 ∨ k = 2) ∧ !lrnOff p then answer p op c (bare Status.state)
  else if k = 1 ∧ (goodSection p).isNone then answer (lrnRestore now p) op c (bare Status.state)
  else good (lrnCmd now (wordN (2 ^ k)) p)

def cGetLearner (c : Cmd) (p : Polder) : Polder :=
  let ph := byteAt c.payload 0
  let op := Op.getLearner
  if 2 < ph then answer p op c (bare Status.range)
  else
    answer p op c (okWith (wBytes (rd p A.LRN_STAT) ++ wBytes (rd p A.LRN_EVT) ++ wBytes (rd p A.LRN_CYCLES) ++ wBytes (rd p A.LRN_SKIPS) ++
      wBytes (rd p A.LRN_PEAK) ++ uField 4 (roundDiv (p.lrn.wl * 1000000) 1152921504606846976) ++
      (List.range 128).flatMap fun k => wBytes (rd p (A.LRN_COEF (128 * ph + k)))))

def execSetLearner (t : Nat) (p : PolderId) (c : Cmd) (s : State) : Result := onCommand t p c Op.setLearner s fun now => cSetLearner now c
def execLearnerStore (t : Nat) (p : PolderId) (c : Cmd) (s : State) : Result := onCommand t p c Op.learnerStore s fun now => cLearnerStore now c
def execGetLearner (t : Nat) (p : PolderId) (c : Cmd) (s : State) : Result := onCommand t p c Op.getLearner s fun _ => cGetLearner c

/-! ### Gallery (R204, R211) -/

def cSetGallery (now : Nat) (c : Cmd) (p : Polder) : Polder :=
  let b := c.payload
  setCmd now Op.setGallery c true
    ([part F.GAL_CTRL_EVSEL (byteAt b 37), part F.GAL_CTRL_TSLOT (byteAt b 3), part F.GAL_CTRL_TEDGE (byteAt b 2), part F.GAL_CTRL_TSRC (byteAt b 1),
      part F.GAL_CTRL_DECMODE (byteAt b 36), part F.GAL_CTRL_NPROBE (byteAt b 0)] ++
      [0, 1, 2, 3].map (fun k => whole (A.GAL_PROBE k) (u32At b (4 + 4 * k))) ++
      [whole A.GAL_LEN (u32At b 20), whole A.GAL_PRE (u32At b 24), whole A.GAL_DEC (u32At b 28), wholeI A.GAL_TLEVEL (i32At b 32)]) p

/-- An action of a recorder in its state: 0 ARM, 1 FORCE, 2 STOP; false where the register would ignore it. -/
def recActs (action state : Nat) : Bool := match action with
  | 0 => state != Rec.triggered
  | 1 => state == Rec.armed
  | _ => state == Rec.armed || state == Rec.triggered

def cGalleryControl (c : Cmd) (p : Polder) : Polder :=
  let k := byteAt c.payload 0
  let op := Op.galleryControl
  if 2 < k then answer p op c (bare Status.range)
  else if !recActs k (fget p F.GAL_STAT_STATE) then answer p op c (bare Status.state)
  else
    let q := galCmd (wordN (2 ^ k)) p
    answer q op c (okWith (wBytes (rd q A.GAL_STAT)))

/-- Words of row `k` of the gallery, counted from the oldest. -/
def galRow (p : Polder) (k : Nat) : List Word :=
  let n := cfgGet p.gal F.GAL_CTRL_NPROBE
  let r := (rdN p A.GAL_START + k) % cfgN p.gal A.GAL_LEN
  (List.range n).map fun j => rd p (0x300000 + 4 * (r * n + j))

/-- Trigger row counted from the oldest. -/
def galTrigRow (p : Polder) : Nat :=
  let len := cfgN p.gal A.GAL_LEN
  (rdN p A.GAL_TIDX + len - rdN p A.GAL_START) % len

/-- READ_GALLERY: rows of a record in DONE, of the probes it was armed with. -/
def cReadGallery (c : Cmd) (p : Polder) : Polder :=
  let op := Op.readGallery
  let first := u32At c.payload 0
  let rows := u16At c.payload 4
  let n := cfgGet p.gal F.GAL_CTRL_NPROBE
  if fget p F.GAL_STAT_STATE ≠ Rec.done then answer p op c (bare Status.state)
  else if 1000 < 4 * rows * n ∨ rdN p A.GAL_ROWS < first + rows then answer p op c (bare Status.range)
  else
    answer p op c (okWith (wBytes (rd p A.GAL_STAT) ++ wBytes (rd p A.GAL_ROWS) ++ leBytes 4 (galTrigRow p) ++
      leBytes 6 (rdN p A.GAL_TSL + 4294967296 * (rdN p A.GAL_TSH % 65536)) ++ wBytes (rd p A.GAL_TNS) ++ leBytes 2 n ++
      (List.range rows).flatMap fun k => (galRow p (first + k)).flatMap wBytes))

def execSetGallery (t : Nat) (p : PolderId) (c : Cmd) (s : State) : Result := onCommand t p c Op.setGallery s fun now => cSetGallery now c
def execGalleryControl (t : Nat) (p : PolderId) (c : Cmd) (s : State) : Result :=
  onCommand t p c Op.galleryControl s fun _ => cGalleryControl c
def execReadGallery (t : Nat) (p : PolderId) (c : Cmd) (s : State) : Result := onCommand t p c Op.readGallery s fun _ => cReadGallery c

end Sys2Proof.Machine
end

