-- ==== Sys2Proof/Machine/CmdAcquire.lean ====
section
/-!
DEFINITION. Commands of the analogue front end, the filters, the capture, the stairs and the sluices (spec/07 R229, R235, R236; spec/08 R262, R263;
spec/09 R290, R291).
-/
namespace Sys2Proof.Machine
open Sys2Proof

/-! ### Analogue front end (R235) -/

/-- SET_ACQUISITION: `TRIG` is staged only when it differs from the value in force (R219). -/
def cSetAcquisition (now : Nat) (c : Cmd) (p : Polder) : Polder :=
  let b := c.payload
  let f := byteAt b 1
  let trig := if byteAt b 0 = fget p F.AFE_CTRL_TRIG then [] else [part F.AFE_CTRL_TRIG (byteAt b 0)]
  setCmd now Op.setAcquisition c (within [(0, byteAt b 0, 3), (1, byteAt b 2, 255), (0, u32At b 4, 163837)])
    ([part F.AFE_CTRL_PLS_TRIP (f / 4 % 2), part F.AFE_CTRL_SHD_EN (f / 2 % 2), part F.AFE_CTRL_PLS_EN (f % 2)] ++ trig ++
      [whole A.AFE_TDLY (roundDivN (u32At b 4 * 2) 5), whole A.AFE_PLS_TOL (roundDivN (u32At b 8 * 32768) 2500000),
        whole A.AFE_SHD_TOL (roundDivN (u32At b 12 * 32768) 1250000), whole A.AFE_PLS_N (byteAt b 2)]) p

/-- A threshold in mV as a code of the input's step: full scale / 128 (R230). -/
def thrCode (input : Nat) (mv : Int) : Int := roundDiv (mv * 128000) (fullScaleUv input).toNat

/-- SET_COMPARATOR: CMP5 takes its input from the command. -/
def cSetComparator (now : Nat) (c : Cmd) (p : Polder) : Polder :=
  let b := c.payload
  let k := byteAt b 0
  let src := if k = 5 then byteAt b 2 else fget p (F.AFE_CMP_CFG_SRC k)
  let own := if k = 5 then [part (F.AFE_CMP_CFG_SRC k) src] else []
  setCmd now Op.setComparator c
    (within [(0, k, 5), (0, if k = 5 then byteAt b 2 else 0, 14), (0, byteAt b 3, 5), (0, u16At b 8, 5000), (0, byteAt b 10, 15)])
    ([partI (F.AFE_CMP_THR_HI k) (thrCode src (i16At b 4)), partI (F.AFE_CMP_THR_LO k) (thrCode src (i16At b 6)),
      part (F.AFE_CMP_CFG_EN k) (byteAt b 1 % 2)] ++ own ++
      [part (F.AFE_CMP_CFG_BREF k) (byteAt b 3), part (F.AFE_CMP_CFG_FILT k) (byteAt b 10), part (F.AFE_CMP_CFG_BLANK k) (u16At b 8)]) p

/-- RUN_INPUT_TEST. -/
def cRunInputTest (now : Nat) (c : Cmd) (p : Polder) : Polder :=
  let b := c.payload
  if u32At b 8 < 1 ∨ 100000 < u32At b 8 then answer p Op.runInputTest c (bare Status.range)
  else inputTestStart now (u16At b 0 % 32768) (u32At b 4) (u32At b 8) (refOf Op.runInputTest c) p

def cGetAcquisition (c : Cmd) (p : Polder) : Polder :=
  answer p Op.getAcquisition c (okWith (((List.range 15).map A.AFE_RAW ++
    [A.AFE_OVR, A.AFE_STAT, A.AFE_EVT, A.AFE_CMP_STAT, A.AFE_PLS_CNT, A.AFE_SHD_CNT, A.AFE_PLS_DIFF, A.AFE_SHD_DIFF]).flatMap fun o => wBytes (rd p o)))

def execSetAcquisition (t : Nat) (p : PolderId) (c : Cmd) (s : State) : Result :=
  onCommand t p c Op.setAcquisition s fun now => cSetAcquisition now c
def execSetComparator (t : Nat) (p : PolderId) (c : Cmd) (s : State) : Result :=
  onCommand t p c Op.setComparator s fun now => cSetComparator now c
def execRunInputTest (t : Nat) (p : PolderId) (c : Cmd) (s : State) : Result := onCommand t p c Op.runInputTest s fun now => cRunInputTest now c
def execGetAcquisition (t : Nat) (p : PolderId) (c : Cmd) (s : State) : Result := onCommand t p c Op.getAcquisition s fun _ => cGetAcquisition c

/-! ### Filters and metering (R262, R263) -/

/-- SET_FILTERS: a path C response is staged only when it differs from the one in force (R244). -/
def cSetFilters (now : Nat) (c : Cmd) (p : Polder) : Polder :=
  let b := c.payload
  let resp := (List.range 15).flatMap fun k =>
    part (F.FLT_RESP_M k) (byteAt b (16 + k)) ::
      (if byteAt b k = fget p (F.FLT_RESP_C k) then [] else [part (F.FLT_RESP_C k) (byteAt b k)])
  setCmd now Op.setFilters c (within [(1, u16At b 32, 3000)])
    (resp ++ [whole A.FLT_MAVG (u16At b 32), part F.FLT_CTRL_HSEL (byteAt b 34), part F.FLT_CTRL_SV_EN (byteAt b 35 % 2)]) p

/-- GET_METERING latches the metered set (R263). -/
def cGetMetering (c : Cmd) (p : Polder) : Polder :=
  let q := meterLatch p
  answer q Op.getMetering c (okWith (leBytes 6 (rdN q A.FLT_MT_SL + 4294967296 * (rdN q A.FLT_MT_SH % 65536)) ++ wBytes (rd q A.FLT_MT_NS) ++
    leBytes 2 q.flt.latchN ++ wBytes (rd q A.FLT_STAT) ++ (List.range 64).flatMap fun k => wBytes (rd q (A.FLT_MTR k))))

def execSetFilters (t : Nat) (p : PolderId) (c : Cmd) (s : State) : Result := onCommand t p c Op.setFilters s fun now => cSetFilters now c
def execGetMetering (t : Nat) (p : PolderId) (c : Cmd) (s : State) : Result := onCommand t p c Op.getMetering s fun _ => cGetMetering c

/-! ### Capture (R262) -/

def cSetCapture (now : Nat) (c : Cmd) (p : Polder) : Polder :=
  let b := c.payload
  let f := byteAt b 7
  let chan := fun (k : Nat) => (⟨A.CAP_CHSEL (k / 8), 4 * (k % 8) + 3, 4 * (k % 8), byteAt b (8 + k), false⟩ : Item)
  setCmd now Op.setCapture c (within [(1, byteAt b 0, 16), (0, u32At b 58, 999999999)] && timeOk c (u48At b 52) (u32At b 58))
    ([part F.CAP_CTRL_ROLE (byteAt b 6), part F.CAP_CTRL_FIRE_IN (f % 2), part F.CAP_CTRL_FIRE_OUT (f / 2 % 2),
      part F.CAP_CTRL_ARMPIN (f / 4 % 2), part F.CAP_CTRL_MED (f / 8 % 2), part F.CAP_CTRL_TAP (byteAt b 1), part F.CAP_CTRL_FORMAT (byteAt b 2),
      part F.CAP_CTRL_TSRC (byteAt b 3), part F.CAP_CTRL_TEDGE (byteAt b 4), part F.CAP_CTRL_TCH (byteAt b 5), part F.CAP_CTRL_EVSEL (byteAt b 62),
      part F.CAP_CTRL_NCH (byteAt b 0 - 1)] ++ (List.range 16).map chan ++
      [whole A.CAP_LEN (u32At b 24), whole A.CAP_PRE (u32At b 28), whole A.CAP_INT (u32At b 32), wholeI A.CAP_TLEVEL (i32At b 36),
        wholeI A.CAP_THI (i32At b 40), whole A.CAP_THYST (u32At b 44), whole A.CAP_TSLN (u16At b 48), whole A.CAP_TT_NS (u32At b 58),
        whole A.CAP_TT_SL (u32At b 52), whole A.CAP_TT_SH (u16At b 56)]) p

def cCaptureControl (now : Nat) (c : Cmd) (p : Polder) : Polder :=
  let b := c.payload
  let k := byteAt b 0
  let op := Op.captureControl
  let secs := u48At b 4
  let nan := u32At b 10
  let timed := secs != 0 || nan != 0
  if 2 < k ∨ (timed = true ∧ k ≠ 0) ∨ 999999999 < nan ∨ timeOk c secs nan = false then answer p op c (bare Status.range)
  else if timed then
    let r := sluBasicAt now c.sess (secs * 1000000000 + nan) false (entriesOf [part F.CAP_CMD_ARM 1]) (refOf op c) p
    answer r.2 op c r.1
  else if !recActs k (capState p) || (k == 0 && capTapOff p) then answer p op c (bare Status.state)
  else
    let q := capCmd now (wordN (2 ^ k)) p
    answer q op c (okWith (wBytes (rd q A.CAP_STAT)))

/-- Words per row of the record. -/
def capRowWords (p : Polder) : Nat := wordsPerRow (cfgGet (capRec p) F.CAP_CTRL_FORMAT) (cfgGet (capRec p) F.CAP_CTRL_NCH + 1)

/-- Word `k` of the record, counted from the first word of the oldest row. -/
def capWord (p : Polder) (k : Nat) : Word :=
  let w := capRowWords p
  rd p (0x380000 + 4 * ((rdN p A.CAP_START + k / w) % cfgN (capRec p) A.CAP_LEN * w + k % w))

def capTrigRow (p : Polder) : Nat :=
  let len := cfgN (capRec p) A.CAP_LEN
  (rdN p A.CAP_TIDX + len - rdN p A.CAP_START) % len

def cReadCapture (c : Cmd) (p : Polder) : Polder :=
  let op := Op.readCapture
  let first := u32At c.payload 0
  let n := u16At c.payload 4
  if capState p ≠ Rec.done then answer p op c (bare Status.state)
  else if n = 0 ∨ 248 < n ∨ rdN p A.CAP_ROWS * capRowWords p < first + n then answer p op c (bare Status.range)
  else
    answer p op c (okWith (wBytes (rd p A.CAP_STAT) ++ wBytes (rd p A.CAP_ROWS) ++ leBytes 4 (capTrigRow p) ++
      leBytes 6 (rdN p A.CAP_TRG_SL + 4294967296 * (rdN p A.CAP_TRG_SH % 65536)) ++ wBytes (rd p A.CAP_TRG_NS) ++
      leBytes 2 (rdN p A.CAP_TRG_FR) ++ wBytes (rd p A.CAP_PER) ++ leBytes 2 (capRowWords p) ++ zeros 2 ++
      (List.range n).flatMap fun k => wBytes (capWord p (first + k))))

def execSetCapture (t : Nat) (p : PolderId) (c : Cmd) (s : State) : Result := onCommand t p c Op.setCapture s fun now => cSetCapture now c
def execCaptureControl (t : Nat) (p : PolderId) (c : Cmd) (s : State) : Result :=
  onCommand t p c Op.captureControl s fun now => cCaptureControl now c
def execReadCapture (t : Nat) (p : PolderId) (c : Cmd) (s : State) : Result := onCommand t p c Op.readCapture s fun _ => cReadCapture c

/-! ### Sluices (R290) -/

/-- SLUICE_OPEN: the lowest free sluice, for the session. -/
def cSluiceOpen (now : Nat) (c : Cmd) (p : Polder) : Polder := match sluFree p with
  | some n => answer (sluOpen now n c.sess p) Op.sluiceOpen c (okWith (leBytes 1 n ++ zeros 3))
  | none => answer p Op.sluiceOpen c (bare Status.conflict)

/-- The entries of a SLUICE_STAGE. -/
def stagedEntries (b : List Byte) : List (Nat × Word × Word) :=
  (List.range (byteAt b 1)).map fun k => (u32At b (4 + 12 * k), wordN (u32At b (8 + 12 * k)), wordN (u32At b (12 + 12 * k)))

/-- The sluice is OPEN and belongs to the session. -/
def ownOpen (p : Polder) (n sess : Nat) : Bool := (slu p n).st == .opened && (slu p n).owner == sess

def cSluiceStage (now : Nat) (c : Cmd) (p : Polder) : Polder :=
  let op := Op.sluiceStage
  let n := byteAt c.payload 0
  let k := byteAt c.payload 1
  if 7 < n ∨ k = 0 ∨ 64 < k then answer p op c (bare Status.range)
  else if !ownOpen p n c.sess then answer p op c (bare Status.state)
  else match sluStage now n (stagedEntries c.payload) p with
    | (0, q) => answer q op c (okWith (leBytes 1 (slu q n).entries.length ++ zeros 3))
    | (st, _) => answer p op c (bare st)

def cSluiceCommit (now : Nat) (c : Cmd) (p : Polder) : Polder :=
  let op := Op.sluiceCommit
  let b := c.payload
  let n := byteAt b 0
  let good := (byteAt b 1).testBit 0
  let secs := u48At b 2
  let nan := u32At b 8
  if 7 < n ∨ 999999999 < nan then answer p op c (bare Status.range)
  else if !ownOpen p n c.sess then answer p op c (bare Status.state)
  else if secs = 0 ∧ nan = 0 then
    let r := sluImmediate now n none p
    answer r.2 op c ⟨rsnStatus r.1, r.1, wBytes (sluWord (slu r.2 n))⟩
  else
    let r := sluSchedule now n (secs * 1000000000 + nan) good (refOf op c) p
    answer r.2 op c r.1

/-- SLUICE_ABORT: the owner's sluice, or a SCHEDULED one of another session (R274, R286). -/
def cSluiceAbort (now : Nat) (c : Cmd) (p : Polder) : Polder :=
  let op := Op.sluiceAbort
  let n := byteAt c.payload 0
  let x := slu p n
  if 7 < n ∨ x.st = .free then answer p op c (bare Status.state)
  else if x.owner = c.sess then answer (sluAbort now n Rsn.abort true p) op c (okWith [])
  else if x.st = .scheduled then answer (sluAbort now n Rsn.abort false p) op c (okWith [])
  else answer p op c (bare Status.state)

def cGetSluice (c : Cmd) (p : Polder) : Polder :=
  let op := Op.getSluice
  let n := byteAt c.payload 0
  let x := slu p n
  let t := if x.timed ∧ x.st ≠ .free then x.commitAt else 0
  if 7 < n then answer p op c (bare Status.range)
  else
    answer p op c (okWith (wBytes (sluWord x) ++ leBytes 6 (t / 1000000000) ++ leBytes 4 (t % 1000000000) ++ zeros 2 ++
      x.entries.flatMap fun e => leBytes 4 e.off ++ wBytes e.mask ++ wBytes e.val))

def execSluiceOpen (t : Nat) (p : PolderId) (c : Cmd) (s : State) : Result := onCommand t p c Op.sluiceOpen s fun now => cSluiceOpen now c
def execSluiceStage (t : Nat) (p : PolderId) (c : Cmd) (s : State) : Result := onCommand t p c Op.sluiceStage s fun now => cSluiceStage now c
def execSluiceCommit (t : Nat) (p : PolderId) (c : Cmd) (s : State) : Result := onCommand t p c Op.sluiceCommit s fun now => cSluiceCommit now c
def execSluiceAbort (t : Nat) (p : PolderId) (c : Cmd) (s : State) : Result := onCommand t p c Op.sluiceAbort s fun now => cSluiceAbort now c
def execGetSluice (t : Nat) (p : PolderId) (c : Cmd) (s : State) : Result := onCommand t p c Op.getSluice s fun _ => cGetSluice c

/-! ### Stairs (R290, R291) -/

def cSetStair (now : Nat) (c : Cmd) (p : Polder) : Polder :=
  let b := c.payload
  let k := byteAt b 0
  let land := match k with
    | 0 => wholeI (A.STS_LAND k) (roundDiv (i32At b 12 * 268435456) (sBase p))
    | 1 => wholeI (A.STS_LAND k) (roundDiv (i32At b 12 * 268435456) (sBase p))
    | 2 => whole (A.STS_LAND k) (vLine (vBase p) (u32At b 12))
    | _ => whole (A.STS_LAND k) (q28of (u32At b 12) (fNom p * 1000))
  setCmd now Op.setStair c
    (within [(0, k, 3), (0, u16At b 2, 60000), (100, u32At b 4, 7900000), (100, u32At b 8, 7900000)])
    [part (F.STS_SCFG_LAND_EN k) (byteAt b 1 % 2), part (F.STS_SCFG_LAND_DIR k) (byteAt b 1 / 2 % 4), part (F.STS_SCFG_DWELL k) (u16At b 2),
      whole (A.STS_RUP k) (q28of (u32At b 4) 1000000), whole (A.STS_RDN k) (q28of (u32At b 8) 1000000), land] p

/-- A stair's value in the unit of SET_POINTS, from its Q4.28 code. -/
def stairUnit (p : Polder) (k : Nat) (x : Int) : List Byte := match k with
  | 0 => iField 4 (vaOf p x)
  | 1 => iField 4 (vaOf p x)
  | 2 => uField 4 (mvLine p x)
  | _ => uField 4 (mHzOf p x)

def cGetStairs (c : Cmd) (p : Polder) : Polder :=
  let w := fun (j : Nat) => vget p.sts.shown j 0
  answer p Op.getStairs c (okWith (wBytes (w 0) ++ wBytes (w 1) ++ [0, 1, 2, 3].flatMap fun k =>
    stairUnit p k (w (2 + 3 * k)).toInt ++ stairUnit p k (w (3 + 3 * k)).toInt ++ wBytes (w (4 + 3 * k))))

def execSetStair (t : Nat) (p : PolderId) (c : Cmd) (s : State) : Result := onCommand t p c Op.setStair s fun now => cSetStair now c
def execGetStairs (t : Nat) (p : PolderId) (c : Cmd) (s : State) : Result := onCommand t p c Op.getStairs s fun _ => cGetStairs c

end Sys2Proof.Machine
end

