-- ==== Sys2Proof/Machine/CmdDike.lean ====
section
/-!
DEFINITION. Commands of the Dike and the gate links (spec/10 R318, R319) and of the field inputs and outputs (spec/11 R339).
-/
namespace Sys2Proof.Machine
open Sys2Proof

/-! ### Dike -/

/-- SET_DIKE: bits 6, 7 and 12 of the enables are ignored, and so are reserved bits of the masks (R15). -/
def cSetDike (now : Nat) (c : Cmd) (p : Polder) : Polder :=
  let b := c.payload
  let en := u16At b 0
  setCmd now Op.setDike c true
    [part F.DIK_TRIPEN_B13 (en / 8192 % 2), part F.DIK_TRIPEN_B11 (en / 256 % 16), part F.DIK_TRIPEN_B5 (en % 64),
      part F.DIK_GENMASK_BITS (u16At b 2 % 16384), part F.DIK_TRIPOMASK_BITS (u16At b 4 % 16384), part F.DIK_CFG_TRIPI_FILT (byteAt b 7),
      part F.DIK_CFG_TRIPO_PASS (byteAt b 6 % 2), whole A.DIK_SETTLE (u32At b 8), whole A.DIK_DCLO (vDc (vBase p) (u32At b 12)),
      whole A.DIK_DCHI (vDc (vBase p) (u32At b 16)), whole A.DIK_DCN (u16At b 20), wholeI A.DIK_TH0LIM (i16At b 24),
      wholeI A.DIK_TH1LIM (i16At b 26), whole A.DIK_GUTMAX (u16At b 22)] p

/-- A threshold in mA as a code of the sense cells of link `n`. -/
def l1Code (p : Polder) (n ma : Nat) : Nat := roundDivN (ma * 127) (rdN p (A.GLK_ISFS n))

/-- A current that is 0, or whose code lies in 1 to 127 (R318). -/
def l1Fits (p : Polder) (n ma : Nat) : Bool := ma == 0 || decide (1 ≤ l1Code p n ma ∧ l1Code p n ma ≤ 127)

def cSetL1 (now : Nat) (c : Cmd) (p : Polder) : Polder :=
  let b := c.payload
  let n := byteAt b 0
  setCmd now Op.setL1 c
    (within [(0, n, 3), (1, byteAt b 1, 4), (0, u16At b 2, 10000)] && [0, 1, 2, 3].all fun s => l1Fits p n (u32At b (4 + 4 * s)))
    [part (F.DIK_L1THR_S4 n) (l1Code p n (u32At b 16)), part (F.DIK_L1THR_S3 n) (l1Code p n (u32At b 12)),
      part (F.DIK_L1THR_S2 n) (l1Code p n (u32At b 8)), part (F.DIK_L1THR_S1 n) (l1Code p n (u32At b 4)),
      part F.DIK_L1CFG_BLANK (u16At b 2), part F.DIK_L1CFG_N (byteAt b 1)] p

/-- Reply of CLEAR_TRIPS, with every status. -/
def tripsReply (st : Nat) (p : Polder) : Reply := ⟨st, 0, wBytes (rd p A.DIK_TRIPSRC) ++ wBytes (rd p A.DIK_CLRRES)⟩

/-- CLEAR_TRIPS writes `DIK_CLR` through a sluice (R309). Bits 15:14 of the mask are ignored (R15). -/
def cClearTrips (now : Nat) (c : Cmd) (p : Polder) : Polder :=
  let op := Op.clearTrips
  let r := sluBasic now c.sess (entriesOf [part F.DIK_CLR_BITS (u16At c.payload 0 % 16384)]) none p
  let st := if r.1.status = Status.ok ∧ rdN r.2 A.DIK_CLRRES ≠ 0 then Status.tripActive else r.1.status
  answer r.2 op c { tripsReply st r.2 with detail := r.1.detail }

/-- TRIP, from any session; the reason goes to the event log. -/
def cTrip (now : Nat) (c : Cmd) (p : Polder) : Polder :=
  let q := logRec now 0x0C 1 Sev.warn (leBytes 1 (byteAt c.payload 0)) (swTrip now p)
  answer q Op.trip c (okWith (wBytes (rd q A.DIK_TRIPSRC)))

/-- GET_DIKE, all in one cycle (R319). -/
def cGetDike (t : Part) (now : Nat) (c : Cmd) (p : Polder) : Polder :=
  answer p Op.getDike c (okWith (regBytes t now p [A.DIK_TRIPSRC, A.DIK_ACTIVE, A.DIK_FIRST] ++
    (leBytes 6 (rdN p A.DIK_FT_SL + 4294967296 * (rdN p A.DIK_FT_SH % 65536)) ++ wBytes (rd p A.DIK_FT_NS) ++ leBytes 2 (rdN p A.DIK_FT_FR)) ++
    regBytes t now p [A.DIK_EVT, A.DIK_CLRRES, A.DIK_TRIPCNT, A.DIK_STEST, A.DIK_RDY]))

def execSetDike (t : Nat) (p : PolderId) (c : Cmd) (s : State) : Result := onCommand t p c Op.setDike s fun now => cSetDike now c
def execSetL1 (t : Nat) (p : PolderId) (c : Cmd) (s : State) : Result := onCommand t p c Op.setL1 s fun now => cSetL1 now c
def execClearTrips (t : Nat) (p : PolderId) (c : Cmd) (s : State) : Result := onCommand t p c Op.clearTrips s fun now => cClearTrips now c
def execTrip (t : Nat) (p : PolderId) (c : Cmd) (s : State) : Result := onCommand t p c Op.trip s fun now => cTrip now c
def execGetDike (t : Nat) (p : PolderId) (c : Cmd) (s : State) : Result := onCommand t p c Op.getDike s fun now => cGetDike s.part now c

/-! ### Gate links -/

def cSetGateLink (now : Nat) (c : Cmd) (p : Polder) : Polder :=
  let b := c.payload
  let n := byteAt b 0
  let sw := if n = 3 then [] else [part (F.GLK_CFG_NSW n) (byteAt b 1 / 2 % 2)]
  setCmd now Op.setGateLink c (within [(0, n, 3)])
    ([part (F.GLK_CFG_EN n) (byteAt b 1 % 2), part (F.GLK_CFG_VMAX n) (byteAt b 2), part (F.GLK_CFG_VMIN n) (byteAt b 3)] ++ sw ++
      [part (F.GLK_CFG_LOSSN n) (byteAt b 4), whole (A.GLK_ISFS n) (u32At b 8)]) p

/-- RETRAIN: the link leaves its state and starts to train; the command waits for UP or one failure. A link not in use, or one that may not
train now (R299), does not. -/
def retrain (now n : Nat) (c : Cmd) (p : Polder) : Polder :=
  if !linkEn p n || !trainAllowed p then answer p Op.gateLinkControl c ⟨Status.state, 0, glcPayload p n []⟩
  else
    let p1 := endRetrain n Status.timeout p
    modLink (startSearch now n p1) n fun l => { l with retrain := some (refOf Op.gateLinkControl c) }

/-- GATE_LINK_CONTROL: a message is sent, or waits for the one outstanding (R297). -/
def cGateLinkControl (now : Nat) (c : Cmd) (p : Polder) : Polder :=
  let op := Op.gateLinkControl
  let b := c.payload
  let n := byteAt b 0
  let a := byteAt b 1
  let withMask := a = Msg.selfTest ∨ a = Msg.clrL2
  if 3 < n ∨ 4 < a then answer p op c ⟨Status.range, 0, []⟩
  else if a = 0 then retrain now n c p
  else if !linkUp p n then answer p op c ⟨Status.state, 0, glcPayload p n []⟩
  else sendMsg now n ⟨a, if withMask then [BitVec.ofNat 8 (byteAt b 2 % 16)] else [], now, 0, some (refOf op c)⟩ p

/-- RUN_SELF_TEST (R312, R313). While the test DAC is in use, or a self-test runs, it is refused. -/
def cRunSelfTest (now : Nat) (c : Cmd) (p : Polder) : Polder :=
  let op := Op.runSelfTest
  let a := byteAt c.payload 0
  let cmp := a.testBit 0
  if p.dike.stestCmd.isSome || p.dike.cmpTest.isSome || !p.dike.guPending.isEmpty || (cmp && (p.afe.test.isSome || fbit p F.AFE_TEST_EN)) then
    answer p op c (bare Status.state)
  else
    let p1 := if cmp then cmpTestStart now p else p
    let p2 := if a.testBit 1 then guStart now (linksWhere (linkLive p1)) p1 else p1
    endSelfTest { p2 with dike := { p2.dike with stestCmd := some (refOf op c) } }

/-- GET_GATE_LINKS, all in one cycle (R319). -/
def cGetGateLinks (c : Cmd) (p : Polder) : Polder :=
  answer p Op.getGateLinks c (okWith ([0, 1, 2, 3].flatMap fun n =>
    [A.GLK_CFG n, A.GLK_STAT n, A.GLK_ERR n, A.GLK_MON n, A.GLK_TEMP n, A.GLK_IS n].flatMap fun o => wBytes (rd p o)))

def execSetGateLink (t : Nat) (p : PolderId) (c : Cmd) (s : State) : Result := onCommand t p c Op.setGateLink s fun now => cSetGateLink now c
def execGateLinkControl (t : Nat) (p : PolderId) (c : Cmd) (s : State) : Result :=
  onCommand t p c Op.gateLinkControl s fun now => cGateLinkControl now c
def execRunSelfTest (t : Nat) (p : PolderId) (c : Cmd) (s : State) : Result := onCommand t p c Op.runSelfTest s fun now => cRunSelfTest now c
def execGetGateLinks (t : Nat) (p : PolderId) (c : Cmd) (s : State) : Result := onCommand t p c Op.getGateLinks s fun _ => cGetGateLinks c

/-! ### Field inputs and outputs -/

def cSetFieldInputs (now : Nat) (c : Cmd) (p : Polder) : Polder :=
  let b := c.payload
  setCmd now Op.setFieldInputs c true ((List.range 8).flatMap fun k =>
    [part (F.FIO_DICFG_EDGE k) (u16At b 16 / 4 ^ k % 4), part (F.FIO_DICFG_FILT k) (u16At b (2 * k))]) p

def cSetFieldOutputs (now : Nat) (c : Cmd) (p : Polder) : Polder :=
  let b := c.payload
  setCmd now Op.setFieldOutputs c (within ([0, 1, 2, 3].map fun k => (10, u16At b (8 * k + 4), 500))) ([0, 1, 2, 3].flatMap fun k =>
    [part (F.FIO_DOCFG_TP_EN k) (byteAt b (8 * k) % 2), part (F.FIO_DOCFG_RETRY k) (byteAt b (8 * k) / 2 % 2),
      part (F.FIO_DOCFG_TP_W k) (u16At b (8 * k + 2)), part (F.FIO_DOCFG_TP_INT k) (byteAt b (8 * k + 1)),
      part (F.FIO_DOCFG_RB_MASK k) (roundDivN (u16At b (8 * k + 4)) 10)]) p

/-- SET_OUTPUTS writes `FIO_DOCMD` through a sluice, under the mask. -/
def cSetOutputs (now : Nat) (c : Cmd) (p : Polder) : Polder :=
  let op := Op.setOutputs
  let m := byteAt c.payload 0 % 16
  if m = 0 then answer p op c (okWith (wBytes (rd p A.FIO_DOSTAT)))
  else
    let r := sluBasic now c.sess [(A.FIO_DOCMD, wordN m, wordN (byteAt c.payload 1 % 16))] none p
    answer r.2 op c (if r.1.status = Status.ok then okWith (wBytes (rd r.2 A.FIO_DOSTAT)) else r.1)

def cGetFieldIo (t : Part) (now : Nat) (c : Cmd) (p : Polder) : Polder :=
  answer p Op.getFieldIo c (okWith (regBytes t now p ([A.FIO_DI, A.FIO_STAT, A.FIO_EVT, A.FIO_DOCMD, A.FIO_DOSTAT, A.FIO_DODIAG] ++
    (List.range 8).map A.FIO_DICNT ++ (List.range 4).map A.FIO_TPPASS)))

/-- GET_FIELD_EVENTS: the entries returned leave the queue. -/
def cGetFieldEvents (c : Cmd) (p : Polder) : Polder :=
  let op := Op.getFieldEvents
  let n := byteAt c.payload 0
  if n = 0 ∨ 63 < n then answer p op c (bare Status.range)
  else
    let l := p.fio.queue.take n
    let rest := p.fio.queue.drop n
    answer { p with fio := { p.fio with queue := rest } } op c
      (okWith (leBytes 1 l.length ++ leBytes 1 rest.length ++ zeros 2 ++ l.flatMap fun e => (eventWords e).flatMap wBytes))

def cClearFieldDiag (now : Nat) (c : Cmd) (p : Polder) : Polder :=
  let q := diagWrite now (wordN (u32At c.payload 0)) p
  answer q Op.clearFieldDiag c (okWith (wBytes (rd q A.FIO_DODIAG)))

def execSetFieldInputs (t : Nat) (p : PolderId) (c : Cmd) (s : State) : Result := onCommand t p c Op.setFieldInputs s fun now => cSetFieldInputs now c
def execSetFieldOutputs (t : Nat) (p : PolderId) (c : Cmd) (s : State) : Result :=
  onCommand t p c Op.setFieldOutputs s fun now => cSetFieldOutputs now c
def execSetOutputs (t : Nat) (p : PolderId) (c : Cmd) (s : State) : Result := onCommand t p c Op.setOutputs s fun now => cSetOutputs now c
def execGetFieldIo (t : Nat) (p : PolderId) (c : Cmd) (s : State) : Result := onCommand t p c Op.getFieldIo s fun now => cGetFieldIo s.part now c
def execGetFieldEvents (t : Nat) (p : PolderId) (c : Cmd) (s : State) : Result := onCommand t p c Op.getFieldEvents s fun _ => cGetFieldEvents c
def execClearFieldDiag (t : Nat) (p : PolderId) (c : Cmd) (s : State) : Result := onCommand t p c Op.clearFieldDiag s fun now => cClearFieldDiag now c

end Sys2Proof.Machine
end

