-- ==== Sys2Proof/Machine/CmdSafety.lean ====
section
/-!
DEFINITION. Commands of the safe pulse block (spec/12 R362, R363, R364, R366, R367).
-/
namespace Sys2Proof.Machine
open Sys2Proof

/-- SET_SAFETY writes the parameter set through a sluice; the reply carries `SPB_CRC` after the commit. -/
def cSetSafety (now : Nat) (c : Cmd) (p : Polder) : Polder :=
  let op := Op.setSafety
  let r := sluBasic now c.sess (safetyWrites c.payload) none p
  answer r.2 op c (if r.1.status = Status.ok then okWith (wBytes (spbCrc r.2)) else r.1)

/-- Reply of CONFIRM_SAFETY. -/
def confirmReply (p : Polder) : Reply := okWith (wBytes (rd p A.SPB_CRC_OK) ++ wBytes (spbStatWord p))

/-- The block has been confirmed: sources and state follow before the reply. -/
def confirmed (now : Nat) (c : Cmd) (p : Polder) : Polder :=
  let q := spbSettle now p
  answer q Op.confirmSafety c (confirmReply q)

/-- A password that matched ends the run of wrong ones. -/
def passRight (p : Polder) : Polder := modSpb (fun s => { s with wrong := 0 }) p

/-- A password command that ends without its password having been tried: its entry has code 5 too, as every password command writes one (R366; the code is the
model's choice, notes/assumptions/28.md). -/
def passUntried (now op : Nat) (c : Cmd) (status : Nat) (p : Polder) : Polder :=
  answer (changeLog now 5 c.sess (spbCrc p) (spbCrc p) p) op c (bare status)

/-- CONFIRM_SAFETY by password: in the lockout nothing of it is checked (R363). -/
def confirmByPassword (now : Nat) (c : Cmd) (pw : List Byte) (p : Polder) : Polder :=
  let op := Op.confirmSafety
  let k := u32At c.payload 4
  if passLocked now p then passUntried now op c Status.locked p
  else if passOk pw = false then passUntried now op c Status.range p
  else if p.spb.password.isNone && p.spb.confirmed.isSome then passUntried now op c Status.state p
  else if k ≠ 0 ∧ wordN k ≠ spbCrc p then passUntried now op c Status.conflict p
  else if p.spb.password.isNone then
    let p1 := passStore pw (confirmSet now 2 c.sess p)
    confirmed now c (storeSafety now (changeLog now 3 c.sess (spbCrc p1) (spbCrc p1) p1))
  else if passMatch p pw then confirmed now c (confirmSet now 2 c.sess (passRight p))
  else answer (passWrong now c.sess p) op c (bare Status.locked)

def cConfirmSafety (now : Nat) (c : Cmd) (p : Polder) : Polder :=
  let op := Op.confirmSafety
  let b := c.payload
  let n := byteAt b 1
  let pw := (b.drop 8).take n
  match byteAt b 0 with
  | 0 =>
    if n ≠ 0 then answer p op c (bare Status.range)
    else if wordN (u32At b 4) ≠ spbCrc p then answer p op c (bare Status.conflict)
    else confirmed now c (confirmSet now 1 c.sess p)
  | 1 => confirmByPassword now c (if n < 8 ∨ 16 < n then [] else pw) p
  | _ => answer p op c (bare Status.range)

/-- SAFETY_ACK: in RELEASED it has no effect; otherwise an acknowledgement (R348), answered after the test when one runs. A test that the Dike
postpones (R351) does not hold the reply. -/
def cSafetyAck (now : Nat) (c : Cmd) (p : Polder) : Polder :=
  let op := Op.safetyAck
  if spbState p = 2 then answer p op c (okWith (wBytes (spbStatWord p)))
  else
    let r := acknowledge now p
    let q := spbSettle now r.2
    if !r.1 then answer q op c (bare Status.state)
    else if q.dike.genLow ≠ 0 then answer q op c (okWith (wBytes (spbStatWord q)))
    else modSpb (fun s => { s with waiting := s.waiting ++ [refOf op c] }) q

/-- GET_SAFETY, all in one cycle from lane 1 (R367). -/
def cGetSafety (t : Part) (now : Nat) (c : Cmd) (p : Polder) : Polder :=
  answer p Op.getSafety c (okWith (regBytes t now p [A.SPB_STAT, A.SPB_FAULT, A.SPB_EVT, A.SPB_CRC, A.SPB_CRC_OK] ++ safetySet p ++
    regBytes t now p [A.SPB_ACCEPTED, A.SPB_DISCARD, A.SPB_MISS, A.SPB_SINGLE, A.SPB_LASTSEQ, A.SPB_TESTAGE, A.SPB_LOGCNT]))

/-- The old password of a change is the stored one, or none is stored and none is given. -/
def oldMatches (p : Polder) (n : Nat) (pw : List Byte) : Bool := if p.spb.password.isNone then n == 0 else passMatch p pw

/-- SET_SAFETY_PASSWORD (R363). -/
def cSetSafetyPassword (now : Nat) (c : Cmd) (p : Polder) : Polder :=
  let op := Op.setSafetyPassword
  let b := c.payload
  let n := byteAt b 4
  let k := byteAt b 5
  let new := (b.drop 24).take k
  let code := if p.spb.password.isNone then 3 else 4
  if passLocked now p then passUntried now op c Status.locked p
  else if (n ≠ 0 ∧ (n < 8 ∨ 16 < n)) ∨ (p.spb.password.isNone = true ∧ n ≠ 0) ∨ k < 8 ∨ 16 < k ∨ passOk new = false then passUntried now op c Status.range p
  else if (demandsLow p).testBit 3 then passUntried now op c Status.state p
  else if wordN (u32At b 0) ≠ rd p A.SPB_CRC_OK then passUntried now op c Status.conflict p
  else if oldMatches p n ((b.drop 8).take n) then
    let q := storeSafety now (changeLog now code c.sess (spbCrc p) (spbCrc p) (passStore new p))
    answer q op c (okWith [])
  else answer (passWrong now c.sess p) op c (bare Status.locked)

/-- READ_SAFETY_LOG, oldest first (R364). -/
def cReadSafetyLog (c : Cmd) (p : Polder) : Polder :=
  let op := Op.readSafetyLog
  let k := byteAt c.payload 0
  let n := byteAt c.payload 1
  if 63 < k ∨ n = 0 ∨ 32 < n then answer p op c (bare Status.range)
  else
    let l := (p.spb.log.reverse.drop k).take n
    answer p op c (okWith (wBytes (rd p A.SPB_LOGCNT) ++ leBytes 1 p.spb.log.length ++ leBytes 1 l.length ++ zeros 2 ++ l.flatten))

def execSetSafety (t : Nat) (p : PolderId) (c : Cmd) (s : State) : Result := onCommand t p c Op.setSafety s fun now => cSetSafety now c
def execConfirmSafety (t : Nat) (p : PolderId) (c : Cmd) (s : State) : Result := onCommand t p c Op.confirmSafety s fun now => cConfirmSafety now c
def execSafetyAck (t : Nat) (p : PolderId) (c : Cmd) (s : State) : Result := onCommand t p c Op.safetyAck s fun now => cSafetyAck now c
def execGetSafety (t : Nat) (p : PolderId) (c : Cmd) (s : State) : Result := onCommand t p c Op.getSafety s fun now => cGetSafety s.part now c
def execSetSafetyPassword (t : Nat) (p : PolderId) (c : Cmd) (s : State) : Result :=
  onCommand t p c Op.setSafetyPassword s fun now => cSetSafetyPassword now c
def execReadSafetyLog (t : Nat) (p : PolderId) (c : Cmd) (s : State) : Result := onCommand t p c Op.readSafetyLog s fun _ => cReadSafetyLog c

end Sys2Proof.Machine
end

