-- ==== Sys2Proof/Machine/CmdTime.lean ====
section
/-!
DEFINITION. Commands of the clock and of time (spec/13 R393).
-/
namespace Sys2Proof.Machine
open Sys2Proof

/-! ### Clock -/

/-- N = 3,200,000,000 (1 + trim 10⁻⁹) / f_ref, as numerator and denominator. -/
def clkRatio (fref : Nat) (trim : Int) : Nat × Nat := (3200000000 * (1000000000 + trim).toNat, fref * 1000000000)

/-- `NINT` and `FRAC`: N rounded in integer mode, otherwise its whole part and the rest in 2⁻²⁴. -/
def clkCodes (fref : Nat) (trim : Int) (integer : Bool) : Nat × Nat :=
  let (n, d) := clkRatio fref trim
  if integer then (roundDivN n d, 0)
  else
    let f := roundDivN (n % d * 16777216) d
    if f = 16777216 then (n / d + 1, 0) else (n / d, f)

/-- SET_CLOCK stages only the registers whose values differ from those in force. -/
def cSetClock (now : Nat) (c : Cmd) (p : Polder) : Polder :=
  let op := Op.setClock
  let b := c.payload
  let fref := u32At b 0
  let trim := i32At b 4
  let k := clkCodes fref trim ((byteAt b 8).testBit 1)
  let search := byteAt b 8 % 2
  let cfg := if k.1 = fget p F.CLK_CFG_NINT ∧ search = fget p F.CLK_CFG_SEARCH then [] else [part F.CLK_CFG_SEARCH search, part F.CLK_CFG_NINT k.1]
  let frac := if k.2 = fget p F.CLK_FRAC_FRAC then [] else [part F.CLK_FRAC_FRAC k.2]
  let ref := if fref = rdN p A.CLK_FREF then [] else [whole A.CLK_FREF fref]
  let l := cfg ++ frac ++ ref
  if fref < 10000000 ∨ 50000000 < fref ∨ trim < -500000 ∨ 500000 < trim ∨ l.all Item.fits = false then answer p op c (bare Status.range)
  else
    let r := sluBasic now c.sess (entriesOf l) none p
    answer r.2 op c (if r.1.status = Status.ok then okWith (wBytes (rd r.2 A.CLK_CFG) ++ wBytes (rd r.2 A.CLK_FRAC)) else r.1)

def cGetClock (t : Part) (now : Nat) (c : Cmd) (p : Polder) : Polder :=
  answer p Op.getClock c (okWith (regBytes t now p [A.CLK_CFG, A.CLK_FRAC, A.CLK_STAT, A.CLK_EVT, A.CLK_LOCKUS, A.CLK_LOSSES, A.CLK_BKFREQ]))

def execSetClock (t : Nat) (p : PolderId) (c : Cmd) (s : State) : Result := onCommand t p c Op.setClock s fun now => cSetClock now c
def execGetClock (t : Nat) (p : PolderId) (c : Cmd) (s : State) : Result := onCommand t p c Op.getClock s fun now => cGetClock s.part now c

/-! ### Time -/

def cSetTimeSources (now : Nat) (c : Cmd) (p : Polder) : Polder :=
  let b := c.payload
  setCmd now Op.setTimeSources c true
    [whole (A.TIM_DOMCFG 0) (u32At b 0), whole (A.TIM_DOMCFG 1) (u32At b 4), part F.TIM_CFG_STEP_EN (byteAt b 8 % 2),
      part F.TIM_CFG_REVERT (byteAt b 8 / 2 % 2), part F.TIM_CFG_SLEW (byteAt b 9), whole A.TIM_GOODTHR (u32At b 12),
      whole A.TIM_HOLDTMO (u32At b 16), whole A.TIM_REVERTT (u32At b 20), whole A.TIM_SRVBW (u32At b 24), whole A.TIM_STEPTHR (u32At b 28)] p

/-- The eight bytes of a clockIdentity in order, from its two registers. -/
def gmBytes (p : Polder) (h l : Nat) : List Byte := (wBytes (rd p h)).reverse ++ (wBytes (rd p l)).reverse

/-- GET_TIME, all in one cycle; the presented time is that of the cycle. -/
def cGetTime (t : Part) (now : Nat) (c : Cmd) (p : Polder) : Polder :=
  let x := presented p now
  answer p Op.getTime c (okWith (leBytes 6 (secsOf x) ++ leBytes 4 (nanosOf x) ++ leBytes 2 (fracOf x) ++
    regBytes t now p [A.TIM_STAT, A.TIM_EVT, A.TIM_OFS 0, A.TIM_OFS 1, A.TIM_CORR, A.TIM_PDLY 0, A.TIM_PDLY 1] ++
    gmBytes p A.TIM_GM0H A.TIM_GM0L ++ gmBytes p A.TIM_GM1H A.TIM_GM1L ++ regBytes t now p [A.TIM_PPS_ERR]))

def cSetPps (now : Nat) (c : Cmd) (p : Polder) : Polder :=
  let b := c.payload
  setCmd now Op.setPps c (within [(1, byteAt b 1, 3), (1, u16At b 2, 900)])
    [part F.TIM_PPSCFG_DIR (byteAt b 0 % 2), part F.TIM_PPSCFG_QMIN (byteAt b 1), part F.TIM_PPSCFG_WIDTH (u16At b 2)] p

/-- SET_TIME acts directly, at quality NONE or FREE (R386, R393). -/
def cSetTime (now : Nat) (c : Cmd) (p : Polder) : Polder :=
  let op := Op.setTime
  let secs := u48At c.payload 0
  let nan := u32At c.payload 6
  if 999999999 < nan ∨ timeOk c secs nan = false then answer p op c (bare Status.range)
  else if 1 < qualityAt p now then answer p op c (bare Status.state)
  else
    let q := setTime now (fsOf secs nan) p
    answer q op c (okWith (wBytes (rd q A.TIM_STAT)))

def execSetTimeSources (t : Nat) (p : PolderId) (c : Cmd) (s : State) : Result := onCommand t p c Op.setTimeSources s fun now => cSetTimeSources now c
def execGetTime (t : Nat) (p : PolderId) (c : Cmd) (s : State) : Result := onCommand t p c Op.getTime s fun now => cGetTime s.part now c
def execSetPps (t : Nat) (p : PolderId) (c : Cmd) (s : State) : Result := onCommand t p c Op.setPps s fun now => cSetPps now c
def execSetTime (t : Nat) (p : PolderId) (c : Cmd) (s : State) : Result := onCommand t p c Op.setTime s fun now => cSetTime now c

end Sys2Proof.Machine
end

