-- ==== Sys2Proof/Machine/CmdSystem.lean ====
section
/-!
DEFINITION. Commands of persistent storage, firmware, performance and sleep (spec/16 R449 to R454, R472), of the engines (spec/15 R440) and of the
event logs (spec/17 R482).
-/
namespace Sys2Proof.Machine
open Sys2Proof

/-- The checks of a card pass (R17, R452): length, rescue, regime. -/
def cardTakes (op : Nat) (c : Cmd) (p : Polder) : Bool := match cardOf op with
  | none => false
  | some k => k.len.ok c.payload && (!rescue p || k.rescue) && k.regimes.contains (regime p)

/-! ### Persistent storage and engines -/

def cGetNv (t : Part) (now : Nat) (c : Cmd) (p : Polder) : Polder :=
  answer p Op.getNv c (okWith (regBytes t now p [A.NVS_STAT, A.NVS_SEQ 0, A.NVS_SEQ 1, A.NVS_WRITES, A.NVS_FAILS]))

def cGetEngines (t : Part) (now : Nat) (c : Cmd) (p : Polder) : Polder :=
  answer p Op.getEngines c (okWith (regBytes t now p ([A.PCT_ENG, A.PCT_ENGEVT, A.PCT_CE_RESETS, A.PCT_SE_RESETS, A.PCT_CE_ECC1, A.PCT_SE_ECC1] ++
    (List.range 6).map A.MBX_STAT ++ [A.MBX_EPOCH, A.MBX_LOCKOWN0, A.MBX_LOCKOWN1])))

def execGetNv (t : Nat) (p : PolderId) (c : Cmd) (s : State) : Result := onCommand t p c Op.getNv s fun now => cGetNv s.part now c
def execGetEngines (t : Nat) (p : PolderId) (c : Cmd) (s : State) : Result := onCommand t p c Op.getEngines s fun now => cGetEngines s.part now c

/-! ### Firmware (R449 to R453) -/

/-- FW_SLOT. While an erase runs the flash takes no other action. -/
def cFwSlot (part : Part) (now : Nat) (c : Cmd) (p : Polder) : Polder :=
  let op := Op.fwSlot
  let b := c.payload
  let a := byteAt b 0
  let slot := byteAt b 1
  let n := u16At b 2
  let off := u32At b 4
  if b.length ≠ 12 + n then answer p op c (bare Status.length)
  else if 2 < a ∨ 1 < slot ∨ slotSize < off + n ∨ (a = 1 ∧ n = 0) ∨ (a ≠ 1 ∧ n ≠ 0) then answer p op c (bare Status.range)
  else if p.boot.erase.isSome || (a != 2 && slotHeld p slot) then answer p op c (bare Status.state)
  else match a with
    | 0 => answer (modBoot (fun x => { x with erase := some (slot, now, some (refOf op c)) }) p) op c (bare Status.pending)
    | 1 =>
      let r := slotWrite slot off (b.drop 12) p
      answer r.2 op c (if r.1 then okWith [] else bare Status.state)
    | _ => answer p op c (okWith (leBytes 1 (slotResult part p slot) ++ zeros 3 ++ slotBytes p slot 0 64))

/-- Status of FW_ACTIVATE, and the slot's result. -/
def activateStatus (part : Part) (c : Cmd) (p : Polder) : Nat × Nat :=
  let slot := byteAt c.payload 0
  let tmo := u32At c.payload 4
  let r := slotResult part p slot
  if 1 < slot ∨ (tmo ≠ 0 ∧ (tmo < 10 ∨ 86400 < tmo)) then (Status.range, 0)
  else if p.boot.erase.isSome || r != 0 || slot == (bootSec p).active then (Status.state, r)
  else (Status.ok, r)

/-- The boot section of an activation: a trial, or at once the active slot in rescue (R452). -/
def activated (c : Cmd) (p : Polder) : BootSec :=
  let b := bootSec p
  let slot := byteAt c.payload 0
  let tmo := if u32At c.payload 4 = 0 then 600 else u32At c.payload 4
  if rescue p then { b with
    active := slot, state := .confirmed, timeout := tmo }
  else { b with
    trial := slot, state := .trialPending, timeout := tmo }

def cFwActivate (part : Part) (now : Nat) (c : Cmd) (p : Polder) : Polder :=
  let op := Op.fwActivate
  let r := activateStatus part c p
  let body := leBytes 1 r.2 ++ zeros 3
  if r.1 = Status.range then answer p op c (bare Status.range)
  else if r.1 = Status.state then answer p op c ⟨Status.state, 0, body⟩
  else answer (putBootSec now (activated c p) p) op c (okWith body)

def cFwConfirm (now : Nat) (c : Cmd) (p : Polder) : Polder :=
  let op := Op.fwConfirm
  if (bootSec p).state ≠ .trialRunning ∨ p.boot.trialEnd.any (· ≤ now) = true then answer p op c (bare Status.state)
  else
    let q := fwConfirm now p
    answer q op c (okWith (wBytes (rd q A.PCT_BOOT) ++ wBytes (rd q A.PCT_MINRB)))

def cGetFirmware (part : Part) (now : Nat) (c : Cmd) (p : Polder) : Polder :=
  answer p Op.getFirmware c (okWith (regBytes part now p [A.PCT_BOOT, A.PCT_FWVER, A.PCT_MINRB, A.PCT_FWTMO] ++ slotBytes p 0 0 64 ++ slotBytes p 1 0 64 ++
    leBytes 1 (slotResult part p 0) ++ leBytes 1 (slotResult part p 1) ++ zeros 2))

def execFwSlot (t : Nat) (p : PolderId) (c : Cmd) (s : State) : Result := onCommand t p c Op.fwSlot s fun now => cFwSlot s.part now c

/-- FW_ACTIVATE restarts the polder after its reply. -/
def execFwActivate (t : Nat) (p : PolderId) (c : Cmd) (s : State) : Result :=
  atPolder t p c Op.fwActivate s fun now y =>
    let z := collect now (y.modPol p fun q => polish now (carried' Op.fwActivate c q (cFwActivate s.part now c)))
    if cardTakes Op.fwActivate c (y.pol p) && (activateStatus s.part c (y.pol p)).1 == Status.ok then restartPol now p Cause.activate z else z

def execFwConfirm (t : Nat) (p : PolderId) (c : Cmd) (s : State) : Result := onCommand t p c Op.fwConfirm s fun now => cFwConfirm now c
def execGetFirmware (t : Nat) (p : PolderId) (c : Cmd) (s : State) : Result := onCommand t p c Op.getFirmware s fun now => cGetFirmware s.part now c

/-! ### Performance and sleep -/

def cSetPerformance (now : Nat) (c : Cmd) (p : Polder) : Polder :=
  setCmd now Op.setPerformance c (within [(0, byteAt c.payload 0, 2)]) [part F.PCT_PERF_MODE (byteAt c.payload 0)] p

def execSetPerformance (t : Nat) (p : PolderId) (c : Cmd) (s : State) : Result :=
  onCommand t p c Op.setPerformance s fun now => cSetPerformance now c

/-- SLEEP: the reply, then R454. -/
def execSleep (t : Nat) (p : PolderId) (c : Cmd) (s : State) : Result :=
  atPolder t p c Op.sleep s fun now y =>
    let z := collect now (y.modPol p fun q => polish now (carried' Op.sleep c q fun a => answer a Op.sleep c (okWith [])))
    if cardTakes Op.sleep c (y.pol p) && sleepable y p then toSleep now p z else z

/-! ### Event logs (R482) -/

/-- READ_LOG on a store, newest record first: `next` is the next number, `lost` the count of records not stored. -/
def logReply (c : Cmd) (l : List LogRec) (next lost : Nat) : Reply :=
  let first := u32At c.payload 0
  let n := byteAt c.payload 4
  if next < first ∨ n = 0 ∨ 31 < n ∨ 1 < byteAt c.payload 5 then bare Status.range
  else
    let old := l.reverse
    let out := (old.dropWhile fun r => decide (r.number < first)).take n
    okWith (leBytes 4 ((old.head?.map (·.number)).getD next) ++ leBytes 4 next ++ leBytes 4 lost ++ leBytes 1 out.length ++ zeros 3 ++
      out.flatMap LogRec.bytes)

/-- The store that READ_LOG names: SRAM or NV. -/
def polLog (p : Polder) (store : Nat) : List LogRec := if store = 0 then p.log.sram else p.nv.image.events.getD []
def devLogStore (d : Dikehouse) (store : Nat) : List LogRec := if store = 0 then d.sram else d.image.events.getD []

def cReadLog (c : Cmd) (p : Polder) : Polder :=
  answer p Op.readLog c (logReply c (polLog p (byteAt c.payload 5)) p.log.nextNo (rdN p A.PCT_LOGNVLOST))

/-- READ_LOG of a polder or, at the Dikehouse, of the device log. -/
def execReadLog (t : Nat) (tgt : Target) (c : Cmd) (s : State) : Result := match tgt with
  | .polder p => onCommand t p c Op.readLog s fun _ => cReadLog c
  | .dikehouse => onDkh t c Op.readLog s fun _ y =>
    dkhReply Op.readLog c.sess c.seq (logReply c (devLogStore y.dkh (byteAt c.payload 5)) y.dkh.nextNo 0) y
  | .hall => onHall t c Op.readLog s fun _ _ y => hallBad (bare Status.opcode) y

def cSetLog (now : Nat) (c : Cmd) (p : Polder) : Polder :=
  setCmd now Op.setLog c (within [(0, byteAt c.payload 0, 3), (1, byteAt c.payload 1, 255)])
    [part F.PCT_LOGCFG_BURST (byteAt c.payload 1), part F.PCT_LOGCFG_NVMIN (byteAt c.payload 0)] p

def execSetLog (t : Nat) (p : PolderId) (c : Cmd) (s : State) : Result := onCommand t p c Op.setLog s fun now => cSetLog now c

end Sys2Proof.Machine
end

