-- ==== Sys2Proof/Machine/CmdHall.lean ====
section
/-!
DEFINITION. Commands that the Hall carries out itself (spec/14 R419, R420, R421) and commands of the Dikehouse (spec/16 R472, R473).
-/
namespace Sys2Proof.Machine
open Sys2Proof

/-! ### The Hall -/

/-- HELLO, once its packet has passed R403. -/
def execHello (t : Nat) (h : HelloArgs) (s : State) : Result :=
  onDevice t s fun now y => match cardOf Op.hello with
    | some k => if y.hall.up && k.len.ok h.payload then hello now h y else y
    | none => y

def execBye (t : Nat) (c : Cmd) (s : State) : Result := onHall t c Op.bye s fun now _ => hBye now c
def execTokenTake (t : Nat) (c : Cmd) (s : State) : Result := onHall t c Op.tokenTake s fun now x => hTake now x c
def execTokenRelease (t : Nat) (c : Cmd) (s : State) : Result := onHall t c Op.tokenRelease s fun now x => hRelease now x c
def execSubscribe (t : Nat) (c : Cmd) (s : State) : Result := onHall t c Op.subscribe s fun _ x => hSubscribe x c
def execGetNotifications (t : Nat) (c : Cmd) (s : State) : Result := onHall t c Op.getNotifications s fun _ x => hNotes x c
def execSetNetwork (t : Nat) (c : Cmd) (s : State) : Result := onHall t c Op.setNetwork s fun now _ => hNetwork now c
def execSetSv (t : Nat) (c : Cmd) (s : State) : Result := onHall t c Op.setSv s fun now _ => hSv now c
def execSetKey (t : Nat) (c : Cmd) (s : State) : Result := onHall t c Op.setKey s fun now x => hKey now x c
def execGetHall (t : Nat) (c : Cmd) (s : State) : Result := onHall t c Op.getHall s fun _ _ => hGetHall

/-- An expert command: the Hall bridge makes the accesses in the target's window and answers (R420). -/
def onExpert (t op : Nat) (tgt : Target) (c : Cmd) (s : State) : Result :=
  onDevice t s fun now y => match sessOf y.hall c.sess, cardOf op with
    | some x, some k =>
      if !y.hall.up then y
      else hallAnswer now x.src tgt.code op c (if k.len.ok c.payload then expert now op tgt c y else hallBad (bare Status.length) y)
    | _, _ => y

def execReadWords (t : Nat) (tgt : Target) (c : Cmd) (s : State) : Result := onExpert t Op.readWords tgt c s
def execWriteWords (t : Nat) (tgt : Target) (c : Cmd) (s : State) : Result := onExpert t Op.writeWords tgt c s

/-! ### The Dikehouse -/

def execPolderPower (t : Nat) (c : Cmd) (s : State) : Result := onDkh t c Op.polderPower s fun _ => polderPower c
def execSetWatch (t : Nat) (c : Cmd) (s : State) : Result := onDkh t c Op.setWatch s fun now => setWatch now c
def execSetRule (t : Nat) (c : Cmd) (s : State) : Result := onDkh t c Op.setRule s fun now => setRule now c
def execSetSupervision (t : Nat) (c : Cmd) (s : State) : Result := onDkh t c Op.setSupervision s fun now => setSupervision now c
def execGetDikehouse (t : Nat) (c : Cmd) (s : State) : Result := onDkh t c Op.getDikehouse s fun _ => getDikehouse c

end Sys2Proof.Machine
end

