-- ==== Sys2Proof/Machine/Monitor.lean ====
section
/-!
DEFINITION. The Movia monitor of a polder (spec/17 R483 to R487, R489): its session, its commands, and what each of them answers. An answer is its
words, its bytes and its status; the layout of the printed lines is not modelled.
-/
namespace Sys2Proof.Machine
open Sys2Proof

/-- The monitor is served: the SE of an awake polder runs, `EN` is 1 (R483, R484). -/
def monServed (p : Polder) : Bool := awake p && !rescue p && seState p == Eng.run && fbit p F.PCT_MONCFG_EN

/-- An answer; the last sixteen are kept. -/
def monSay (o : MonOut) (p : Polder) : Polder := modMon (fun m => { m with answers := (o :: m.answers).take 16 }) p

/-- Lines that end in `OK`, or in `ERR` and a status. -/
def monOk (l : List Word) (p : Polder) : Polder := monSay ⟨l, [], Status.ok⟩ p
def monErr (status : Nat) (p : Polder) : Polder := monSay ⟨[], [], status⟩ p

/-- A command line of an open session: input at `now`, and the level that the command needs (R486). -/
def monLine (now need : Nat) (f : Polder → Polder) (p : Polder) : Polder :=
  if monServed p && monActive p then
    let q := modMon (fun m => { m with lastInput := now }) p
    if monLevel q < need then monErr Status.locked q else f q
  else p

/-- A record of the monitor about a write: address and value (R481). -/
def monRecord (now code addr : Nat) (v : Word) (p : Polder) : Polder := logRec now 0x0B code Sev.warn (leBytes 4 addr ++ wBytes v) p

/-- Address of an offset of the polder's window (R32). -/
def busAddr (p : Polder) (off : Nat) : Nat := 0x40000000 + (p.id.num - 1) * 16777216 + off

/-! ### Session (R483, R484) -/

/-- A CR at a rate: 115,200 to 3,000,000 Bd within 2 % are accepted. -/
def monRate (now baud : Nat) (p : Polder) : Polder :=
  if monServed p && decide (112896 ≤ baud ∧ baud ≤ 3060000) then
    let p1 := modMon (fun m => { m with lastInput := now }) (fput p F.PCT_MONSTAT_BAUD baud)
    if monActive p1 then p1 else fput (fput p1 F.PCT_MONSTAT_LEVEL 0) F.PCT_MONSTAT_ACTIVE 1
  else p

def monTimeout (now : Nat) (p : Polder) : Polder := if monActive p && decide (p.mon.lastInput + 600 * sec ≤ now) then monEnd now p else p

/-- 15 minutes after the fifth wrong response. -/
def monLockoutEnd (now : Nat) (p : Polder) : Polder := match p.mon.lockEnd with
  | some e => if e ≤ now then fput (fput (modMon (fun m => { m with lockEnd := none }) p) F.PCT_MONSTAT_LOCKOUT 0) F.PCT_MONSTAT_FAILS 0 else p
  | none => p

/-! ### Unlocking (R485) -/

/-- The slot of `PCT_MONCFG`, with its key, while the Hall can check a response. -/
def monSlot (s : State) (p : Polder) : Option KeySlot := if s.hall.up then vget s.hall.keys (fget p F.PCT_MONCFG_SLOT) none else none

/-- UNLOCK prints a challenge. -/
def monUnlock (now : Nat) (k : Option KeySlot) (p : Polder) : Polder :=
  if p.mon.lockEnd.isSome || k.isNone then monErr Status.locked p
  else
    let ch := (List.range 8).map (Config.challengeByte p.free)
    monSay ⟨[], ch, Status.ok⟩ (drawn (modMon (fun m => { m with challenge := some (ch, now) }) p))

/-- The response to a challenge. -/
def monResponse (key : List Byte) (p : Polder) (ch : List Byte) : List Byte :=
  (hmac key (ascii "MOVIA" ++ leBytes 1 p.id.num ++ ch)).take 8

/-- A correct response: the level of the slot's role. -/
def monRight (now : Nat) (k : KeySlot) (p : Polder) : Polder :=
  let lv := if k.role = 0 then 1 else 2
  let p1 := fput (fput (modMon (fun m => { m with challenge := none, admin := k.role == 2 }) p) F.PCT_MONSTAT_LEVEL lv) F.PCT_MONSTAT_FAILS 0
  monOk [] (logRec now 0x0B 1 Sev.warn (leBytes 1 lv) p1)

/-- A wrong response: the fifth in a row locks UNLOCK out. -/
def monWrong (now : Nat) (p : Polder) : Polder :=
  let n := min 5 (fget p F.PCT_MONSTAT_FAILS + 1)
  let p1 := fput (modMon (fun m => { m with challenge := none }) p) F.PCT_MONSTAT_FAILS n
  let p2 := if n = 5 then fput (modMon (fun m => { m with lockEnd := some (now + 900 * sec) }) p1) F.PCT_MONSTAT_LOCKOUT 1 else p1
  monErr Status.auth (logRec now 0x0B 3 Sev.warn (leBytes 1 (monLevel p2)) p2)

/-- A response line. Without a challenge it is no command; a challenge holds for one response and 5 minutes. -/
def monRespond (now : Nat) (k : Option KeySlot) (resp : List Byte) (p : Polder) : Polder := match p.mon.challenge, k with
  | none, _ => monErr Status.opcode p
  | some (ch, t), some x => if now ≤ t + 300 * sec ∧ resp = monResponse x.key p ch then monRight now x p else monWrong now p
  | some _, none => monWrong now p

/-! ### Reading commands -/

/-- The commands that HELP lists. -/
def monHelp : List Byte :=
  ascii "HELP ID STAT UNLOCK LOCK QUIT RD LOG DUMP GAL DUMP CAP ENG WR TRIP CLEAR DO RESTART"

/-- Words read one after another as sender 5; an access error prints 0. An address outside the polder's window is unmapped. -/
def monRead (t : Part) (now : Nat) : Nat → Nat → Polder → List Word × Polder
  | 0, _, p => ([], p)
  | n + 1, a, p =>
    let r := if a / 16777216 = 0x40 + (p.id.num - 1) then busRead t now (.mon p.id) p.id (a % 16777216) p
      else ((0, true), accErr now Kind.unmapped 5 (a % 16777216) p)
    let q := monRead t now n (a + 4) r.2
    ((if r.1.2 then 0 else r.1.1) :: q.1, q.2)

def monRd (t : Part) (now addr n : Nat) (p : Polder) : Polder :=
  if n = 0 ∨ 64 < n then monErr Status.range p
  else
    let r := monRead t now n addr p
    monOk r.1 r.2

/-- LOG: records of the SRAM store, as READ_LOG returns them. -/
def monLog (first n : Nat) (p : Polder) : Polder :=
  if p.log.nextNo < first ∨ n = 0 ∨ 31 < n then monErr Status.range p
  else monSay ⟨[], ((p.log.sram.reverse.dropWhile fun r => decide (r.number < first)).take n).flatMap LogRec.bytes, Status.ok⟩ p

/-- Words of a record in DONE, counted from the first word of the oldest row. -/
def monDump (ready : Bool) (words first n : Nat) (f : Nat → Word) (p : Polder) : Polder :=
  if !ready then monErr Status.state p
  else if words < first + n then monErr Status.range p
  else monOk ((List.range n).map fun k => f (first + k)) p

def galCount (p : Polder) : Nat := rdN p A.GAL_ROWS * cfgGet p.gal F.GAL_CTRL_NPROBE
def galWord (p : Polder) (k : Nat) : Word :=
  let n := cfgGet p.gal F.GAL_CTRL_NPROBE
  (galRow p (k / n)).getD (k % n) 0

def monEng (t : Part) (now : Nat) (p : Polder) : Polder :=
  monOk (([A.PCT_ENG, A.PCT_ENGEVT, A.PCT_CE_RESETS, A.PCT_SE_RESETS, A.PCT_CE_ECC1, A.PCT_SE_ECC1] ++
    (List.range 6).map A.MBX_STAT ++ [A.MBX_EPOCH, A.MBX_LOCKOWN0, A.MBX_LOCKOWN1]).map (viewWord t now p)) p

/-! ### Writing commands (R487) -/

/-- The monitor may write this register at all. -/
def monMay (p : Polder) (off : Nat) : Bool :=
  if inMemory off || [0x0F, 0x10, 0x11].contains (off / 65536) || [A.PCT_HBEAT, A.PCT_DKHREQ, A.PCT_MONCFG].contains off then false
  else match polRow off with
    | none => false
    | some (r, _) => accMask r [.rw, .w1c, .wo] != 0 &&
      (!switching p || accMask r [.w1c] != 0 || off == A.FIO_DOCMD || off == A.DIK_SWTRIP)

/-- A write refused with `ERR 24`, and its record. -/
def monRefuse (now addr : Nat) (v : Word) (p : Polder) : Polder := monErr Status.locked (monRecord now 5 addr v p)

/-- The kind of access error of a write of the monitor to an address, if it is one (R25, R36): outside the polder's window, unaligned, unmapped. -/
def monStray (addr : Nat) (p : Polder) : Option Nat :=
  let off := addr % 16777216
  if addr / 16777216 ≠ 0x40 + (p.id.num - 1) then some Kind.unmapped
  else if off % 4 ≠ 0 then some Kind.unaligned
  else if inMemory off || off / 65536 == 0x10 || (polRow off).isSome then none
  else some Kind.unmapped

/-- WR: one direct write as sender 5. An access error is recorded and refused as R487 refuses what lies outside the monitor's registers. -/
def monWr (now addr : Nat) (v : Word) (p : Polder) : Polder :=
  let off := addr % 16777216
  match monStray addr p with
  | some k => monRefuse now addr v (accErr now k 5 off p)
  | none =>
  if monMay p off = false ∨ (off = A.FIO_DOCMD ∧ assigned (rd p A.PCT_REGCFG) ≠ 0) then monRefuse now addr v p
  else match busWrite now (.mon p.id) p.id off v p with
    | (.range, _) => monErr Status.range p
    | (.error, q) => monRefuse now addr v q
    | (.ok, q) => monOk [] (monRecord now 4 addr v q)

/-- TRIP with a code: the record carries it after the address and the value of the write. -/
def monTrip (now code : Nat) (p : Polder) : Polder :=
  monOk [] (logRec now 0x0B 4 Sev.warn (leBytes 4 (busAddr p A.DIK_SWTRIP) ++ leBytes 4 1 ++ leBytes 1 code) (swTrip now p))

/-- CLEAR prints `DIK_CLRRES`; a refused clear ends in `ERR 22`. -/
def monClear (now mask : Nat) (p : Polder) : Polder :=
  let addr := busAddr p A.DIK_CLR
  if !monMay p A.DIK_CLR then monRefuse now addr (wordN mask) p
  else
    let r := dikClear now mask p
    let q := monRecord now 4 addr (wordN mask) r.2
    monSay ⟨[rd q A.DIK_CLRRES], [], if r.1 then Status.ok else Status.tripActive⟩ q

/-- DO: an order as sender 5; an assigned output is refused (R487). -/
def monDo (now mask v : Nat) (p : Polder) : Polder :=
  let addr := busAddr p A.FIO_DOCMD
  if mask % 16 &&& assigned (rd p A.PCT_REGCFG) ≠ 0 then monRefuse now addr (wordN v) p
  else monOk [] (monRecord now 4 addr (wordN v) (orders now (now / cyc) [(5, mask, v)] p))

/-- RESTART may go ahead: level SERVICE through a slot of role ADMIN, the law does not run. -/
def monMayRestart (p : Polder) : Bool := p.mon.admin && !lawRegime p

def monRestart (p : Polder) : Polder :=
  if !p.mon.admin then monErr Status.locked p else if lawRegime p then monErr Status.state p else monOk [] p

/-! ### The monitor's rows -/

/-- A monitor command at its polder. -/
def onMonitor (t : Nat) (p : PolderId) (need : Nat) (s : State) (f : Nat → State → Polder → Polder) : Result :=
  onAwake t p s fun now q => monLine now need (f now s) q

def execMonitorHelp (t : Nat) (p : PolderId) (s : State) : Result := onMonitor t p 0 s fun _ _ => monSay ⟨[], monHelp, Status.ok⟩
def execMonitorId (t : Nat) (p : PolderId) (s : State) : Result := onMonitor t p 0 s fun now _ q =>
  monOk ([A.PCT_ID, A.PCT_FWVER, A.PCT_BOOT].map (viewWord s.part now q)) q
def execMonitorStat (t : Nat) (p : PolderId) (s : State) : Result := onMonitor t p 0 s fun _ _ q =>
  monOk [wordN (regime q), rd q A.DIK_TRIPSRC, wordN (fget q F.SPB_STAT_STATE), rd q A.CLK_STAT, wordN (fget q F.TIM_STAT_QUAL)] q
def execUnlock (t : Nat) (p : PolderId) (s : State) : Result := onMonitor t p 0 s fun now y q => monUnlock now (monSlot y q) q
def execUnlockResponse (t : Nat) (p : PolderId) (resp : List Byte) (s : State) : Result :=
  onMonitor t p 0 s fun now y q => monRespond now (monSlot y q) resp q
def execLock (t : Nat) (p : PolderId) (s : State) : Result := onMonitor t p 0 s fun now _ q => monOk [] (monLock now q)
def execQuit (t : Nat) (p : PolderId) (s : State) : Result := onMonitor t p 0 s fun now _ q => monEnd now (monOk [] q)
def execRd (t : Nat) (p : PolderId) (addr n : Nat) (s : State) : Result := onMonitor t p 1 s fun now _ => monRd s.part now addr n
def execMonitorLog (t : Nat) (p : PolderId) (first n : Nat) (s : State) : Result := onMonitor t p 1 s fun _ _ => monLog first n
def execDumpGal (t : Nat) (p : PolderId) (first n : Nat) (s : State) : Result := onMonitor t p 1 s fun _ _ q =>
  monDump (fget q F.GAL_STAT_STATE == Rec.done) (galCount q) first n (galWord q) q
def execDumpCap (t : Nat) (p : PolderId) (first n : Nat) (s : State) : Result := onMonitor t p 1 s fun _ _ q =>
  monDump (capState q == Rec.done) (rdN q A.CAP_ROWS * capRowWords q) first n (capWord q) q
def execEng (t : Nat) (p : PolderId) (s : State) : Result := onMonitor t p 1 s fun now _ => monEng s.part now
def execWr (t : Nat) (p : PolderId) (addr : Nat) (v : Word) (s : State) : Result := onMonitor t p 2 s fun now _ => monWr now addr v
def execMonitorTrip (t : Nat) (p : PolderId) (code : Nat) (s : State) : Result := onMonitor t p 2 s fun now _ => monTrip now code
def execMonitorClear (t : Nat) (p : PolderId) (mask : Nat) (s : State) : Result := onMonitor t p 2 s fun now _ => monClear now mask
def execMonitorDo (t : Nat) (p : PolderId) (mask v : Nat) (s : State) : Result := onMonitor t p 2 s fun now _ => monDo now mask v

/-- RESTART answers, then the polder is reset. -/
def execMonitorRestart (t : Nat) (p : PolderId) (s : State) : Result :=
  onPart t p s fun now y =>
    if awake (y.pol p) then
      let q := y.pol p
      let z := collect now (y.modPol p fun a => polish now (monLine now 2 monRestart a))
      if monServed q && monActive q && decide (2 ≤ monLevel q) && monMayRestart q then restartPol now p Cause.monitor z else z
    else y

def execMonitorRateSet (t : Nat) (p : PolderId) (baud : Nat) (s : State) : Result := onAwake t p s fun now => monRate now baud
def execMonitorSessionTimeout (t : Nat) (p : PolderId) (s : State) : Result := onAwake t p s fun now => monTimeout now
def execMonitorLockoutEnd (t : Nat) (p : PolderId) (s : State) : Result := onAwake t p s fun now => monLockoutEnd now

/-! ### SET_MONITOR (R489) -/

/-- SET_MONITOR writes `PCT_MONCFG` through a sluice, and ends the session where it is asked to; the reply is taken after both. -/
def cSetMonitor (now : Nat) (c : Cmd) (p : Polder) : Polder :=
  let op := Op.setMonitor
  let b := c.payload
  if 7 < byteAt b 1 then answer p op c (bare Status.range)
  else
    let r := sluBasic now c.sess (entriesOf [part F.PCT_MONCFG_EN (byteAt b 0 % 2), part F.PCT_MONCFG_SLOT (byteAt b 1)]) none p
    if r.1.status ≠ Status.ok then answer r.2 op c r.1
    else
      let q := if (byteAt b 0).testBit 1 then monEnd now r.2 else r.2
      answer q op c (okWith (wBytes (rd q A.PCT_MONSTAT)))

def execSetMonitor (t : Nat) (p : PolderId) (c : Cmd) (s : State) : Result := onCommand t p c Op.setMonitor s fun now => cSetMonitor now c

end Sys2Proof.Machine
end

