-- ==== Sys2Proof/Machine/Direct.lean ====
section
/-!
DEFINITION. The rows that are direct accesses of a master (R25, R35 to R42, R513): reads that latch, mailboxes, locks, and the writes with a row of
their own. The monitor's accesses are those of RD and WR.
-/
namespace Sys2Proof.Machine
open Sys2Proof

/-- The master can make an access: an engine or die that runs. -/
def live (s : State) : Master → Bool
  | .ce j => awake (s.pol j) && ceState (s.pol j) == Eng.run
  | .se j => awake (s.pol j) && seState (s.pol j) == Eng.run
  | .mon j => monServed (s.pol j) && monActive (s.pol j)
  | .hall => s.hall.up
  | .dkh => s.dkh.up

/-- A write of a master in a polder's window; a polder that is not awake takes none. -/
def onWrite (t : Nat) (p : PolderId) (m : Master) (off : Nat) (v : Word) (s : State) : Result := match m with
  | .mon j => onMonitor t j 2 s fun now _ => monWr now (busAddr (s.pol p) off) v
  | _ => onPart t p s fun now y =>
    if live y m && awake (y.pol p) then y.modPol p (fun q => polish now (busWrite now m p off v q).2) else y

/-- A read of a master in a polder's window. -/
def onRead (t : Nat) (p : PolderId) (m : Master) (off : Nat) (s : State) : Result := match m with
  | .mon j => onMonitor t j 1 s fun now _ => monRd s.part now (busAddr (s.pol p) off) 1
  | _ => onPart t p s fun now y =>
    if live y m && awake (y.pol p) then y.modPol p (fun q => polish now (busRead s.part now m p off q).2) else y

/-- Only time passes: what the row describes does not exist at its operands. -/
def idle (t : Nat) (s : State) : Result := onDevice t s fun _ y => y

/-! ### Latching reads, mailboxes, locks -/

def execMeasurementGroupLatch (t : Nat) (p : PolderId) (m : Master) (s : State) : Result := onRead t p m A.SWG_P s
def execMeterLatch (t : Nat) (p : PolderId) (m : Master) (s : State) : Result := onRead t p m (A.FLT_MTR 0) s
def execTimeLatch (t : Nat) (p : PolderId) (m : Master) (s : State) : Result := onRead t p m A.TIM_NOW_FR s

/-- MAILBOX_PUSH; the SE tags words of the monitor in queues 2 and 5 with its sender ID (R428). -/
def execMailboxPush (t : Nat) (p : PolderId) (m : Master) (onBehalf : Bool) (q : Nat) (w : Word) (s : State) : Result :=
  if 5 < q then idle t s
  else if onBehalf && m == .se p && (q == 2 || q == 5) then onPart t p s fun now y => if live y m then y.modPol p (mbxPush now q 5 w) else y
  else onWrite t p m (A.MBX_DATA q) w s

def execMailboxPop (t : Nat) (p : PolderId) (m : Master) (q : Nat) (s : State) : Result := if 5 < q then idle t s else onRead t p m (A.MBX_DATA q) s

/-- LOCK_ACQUIRE: the masters that read lock k in one cycle (R434, R435). -/
def execLockAcquire (t : Nat) (p : PolderId) (ms : List Master) (k : Nat) (s : State) : Result :=
  onPart t p s fun now y =>
    if awake (y.pol p) && decide (k < 16) then y.modPol p (lockReads now ((ms.filter fun m => reads y m).map Master.id) k) else y
where
  reads (y : State) (m : Master) : Bool := live y m && reaches m p (A.MBX_LOCK k) && (match m with
    | .mon j => decide (1 ≤ monLevel (y.pol j))
    | _ => true)

def execLockRelease (t : Nat) (p : PolderId) (m : Master) (k : Nat) (s : State) : Result := if 15 < k then idle t s else onWrite t p m (A.MBX_LOCK k) 0 s

/-! ### Writes -/

def execQpop (t : Nat) (p : PolderId) (m : Master) (v : Word) (s : State) : Result := onWrite t p m A.FIO_QPOP v s
def execGalleryArm (t : Nat) (p : PolderId) (m : Master) (s : State) : Result := onWrite t p m A.GAL_CMD (wordN (2 ^ F.GAL_CMD_ARM.lo)) s
def execGalleryForce (t : Nat) (p : PolderId) (m : Master) (s : State) : Result := onWrite t p m A.GAL_CMD (wordN (2 ^ F.GAL_CMD_FORCE.lo)) s
def execGalleryStop (t : Nat) (p : PolderId) (m : Master) (s : State) : Result := onWrite t p m A.GAL_CMD (wordN (2 ^ F.GAL_CMD_STOP.lo)) s
def execCaptureArm (t : Nat) (p : PolderId) (m : Master) (s : State) : Result := onWrite t p m A.CAP_CMD (wordN (2 ^ F.CAP_CMD_ARM.lo)) s
def execCaptureForce (t : Nat) (p : PolderId) (m : Master) (s : State) : Result := onWrite t p m A.CAP_CMD (wordN (2 ^ F.CAP_CMD_FORCE.lo)) s
def execCaptureStop (t : Nat) (p : PolderId) (m : Master) (s : State) : Result := onWrite t p m A.CAP_CMD (wordN (2 ^ F.CAP_CMD_STOP.lo)) s
def execLearnerSave (t : Nat) (p : PolderId) (m : Master) (s : State) : Result := onWrite t p m A.LRN_CMD (wordN (2 ^ F.LRN_CMD_SAVE.lo)) s
def execLearnerRestore (t : Nat) (p : PolderId) (m : Master) (s : State) : Result := onWrite t p m A.LRN_CMD (wordN (2 ^ F.LRN_CMD_RESTORE.lo)) s
def execLearnerClear (t : Nat) (p : PolderId) (m : Master) (s : State) : Result := onWrite t p m A.LRN_CMD (wordN (2 ^ F.LRN_CMD_CLEAR.lo)) s
def execLearnerErase (t : Nat) (p : PolderId) (m : Master) (s : State) : Result := onWrite t p m A.LRN_CMD (wordN (2 ^ F.LRN_CMD_ERASE.lo)) s

/-- LEARNER_TABLE_WRITE: `off` is an offset of the window in the learner table (R197). -/
def execLearnerTableWrite (t : Nat) (p : PolderId) (m : Master) (off : Nat) (v : Word) (s : State) : Result :=
  if inTable off then onWrite t p m off v s else idle t s

def execCntclrEmb (t : Nat) (p : PolderId) (m : Master) (s : State) : Result := onWrite t p m A.EMB_CNTCLR (wordN (2 ^ F.EMB_CNTCLR_CLR.lo)) s
def execSwtrip (t : Nat) (p : PolderId) (m : Master) (s : State) : Result := onWrite t p m A.DIK_SWTRIP 1 s
def execDikClr (t : Nat) (p : PolderId) (m : Master) (mask : Nat) (s : State) : Result := onWrite t p m A.DIK_CLR (wordN (mask % 16384)) s

/-- BUFFERED_WRITE of a double-buffered register of the modulator (R168). -/
def execBufferedWrite (t : Nat) (p : PolderId) (m : Master) (off : Nat) (v : Word) (s : State) : Result :=
  if isBuffered off then onWrite t p m off v s else idle t s

/-- OUTPUT_ORDER: the orders of one cycle, by rising sender ID (R326). The Hall bridge and the monitor reach any polder and their own. -/
def execOutputOrder (t : Nat) (p : PolderId) (l : List (Master × Nat × Nat)) (s : State) : Result :=
  onPart t p s fun now y =>
    if awake (y.pol p) then y.modPol p fun q => polish now (orders now (now / cyc) ([1, 2, 3, 4, 5].flatMap fun id => of y id) q) else y
where
  of (y : State) (id : Nat) : List (Nat × Nat × Nat) := (l.filter fun e => e.1.id == id && may y e.1).map fun e => (id, e.2.1, e.2.2)
  may (y : State) (m : Master) : Bool := live y m && reaches m p A.FIO_DOCMD && (match m with
    | .mon j => decide (2 ≤ monLevel (y.pol j))
    | _ => true)

/-- A write of the Hall bridge to `HAL_APPLY` (R417). -/
def onApply (t bit : Nat) (s : State) : Result := onDevice t s fun now y => if y.hall.up then (hallWrite now A.HAL_APPLY (wordN (2 ^ bit)) y).2 else y

def execApplyGo (t : Nat) (s : State) : Result := onApply t F.HAL_APPLY_GO.lo s
def execApplyDiscard (t : Nat) (s : State) : Result := onApply t F.HAL_APPLY_DISCARD.lo s
def execCntclr (t : Nat) (s : State) : Result := onApply t F.HAL_APPLY_CNTCLR.lo s

/-- A write of the Hall bridge to `DKH_CMD` (R459, R471). -/
def onDkhCmd (t bit : Nat) (s : State) : Result :=
  onDevice t s fun now y => if y.hall.up && y.dkh.up then (dkhWrite now 3 A.DKH_CMD (wordN (2 ^ bit)) y).2 else y

def execDkhSave (t : Nat) (s : State) : Result := onDkhCmd t F.DKH_CMD_SAVE.lo s
def execWakeclr (t : Nat) (s : State) : Result := onDkhCmd t F.DKH_CMD_WAKECLR.lo s

def execDkhreqTrip (t : Nat) (p : PolderId) (s : State) : Result := onWrite t p .dkh A.PCT_DKHREQ (wordN (2 ^ F.PCT_DKHREQ_TRIP.lo)) s
def execDkhreqStop (t : Nat) (p : PolderId) (mode : Nat) (s : State) : Result :=
  onWrite t p .dkh A.PCT_DKHREQ (wordN (2 ^ F.PCT_DKHREQ_STOP.lo + mode % 2)) s

/-! ### DIRECT_REGISTER_WRITE (R25, R513) -/

/-- A write to an address: the Hall window belongs to the Hall bridge, the Dikehouse window to it and the Dikehouse; an error is recorded in the
window addressed. -/
def execDirectRegisterWrite (t : Nat) (m : Master) (addr : Nat) (v : Word) (s : State) : Result :=
  let off := addr % 16777216
  match m, windowAt addr with
  | .mon j, _ => onMonitor t j 2 s fun now _ => monWr now addr v
  | _, none => idle t s
  | _, some (.polder p) => if Part.has s.part p then onWrite t p m off v s else idle t s
  | _, some .hall => onDevice t s fun now y =>
    if !live y m || !y.hall.up then y
    else if m = .hall then (hallWrite now off v y).2 else modHall (accErrH now Kind.unmapped m.id off) y
  | _, some .dikehouse => onDevice t s fun now y =>
    if !live y m || !y.dkh.up then y
    else if m = .hall ∨ m = .dkh then (dkhWrite now m.id off v y).2 else modDkh (accErrK now Kind.unmapped m.id off) y

end Sys2Proof.Machine
end

