-- ==== Sys2Proof/Machine/EventsPolder.lean ====
section
/-! DEFINITION. Events of a polder's functions (spec/02 to spec/13): updates, timers, links, comparators, conversions, filters, sluices, field
I/O, safe pulse block. Each row is offered by the environment at its instant; where the condition that the spec gives the event does not
hold, only time passes. -/
namespace Sys2Proof.Machine

/-- An event of one of `n` like parts of a polder; a part that does not exist has none. -/
def onIndex (k n t : Nat) (i : PolderId) (s : State) (f : Nat → Polder → Polder) : Result :=
  if k < n then onRunning t i s f else idle t s

/-- An edge at a pin of a polder. Where the polder does not run, the pin's level changes and nothing else. -/
def onPin (runs : Polder → Bool) (t : Nat) (i : PolderId) (s : State) (f g : Nat → Polder → Polder) : Result :=
  onPart t i s fun now y => y.modPol i fun p => if runs p then polish now (f now p) else g now p

/-- The polder runs its functions: awake and not in rescue (R452). -/
def inService (p : Polder) : Bool := awake p && !rescue p

/-- A function that the CE carries out: it does not happen while the CE does not run. -/
def ifCe (f : Nat → Polder → Polder) (now : Nat) (p : Polder) : Polder := if ceRuns p then f now p else p

/-- A function that the SE carries out. -/
def ifSe (f : Nat → Polder → Polder) (now : Nat) (p : Polder) : Polder := if seState p = Eng.run then f now p else p

/-! ### Swing engine, learner, regimes (spec/02, 03, 06) -/

def execSwingUpdate (t : Nat) (p : PolderId) (x : SwingIn) (s : State) : Result := onRunning t p s fun now q => swingUpdate now x q
def execDwellEnd (t : Nat) (p : PolderId) (k : Nat) (s : State) : Result := onIndex k 4 t p s fun now q => dwellEnd' now k q
def execAnchorBlock (t : Nat) (p : PolderId) (s : State) : Result := onRunning t p s anchorBlock
def execAnchorUnblock (t : Nat) (p : PolderId) (s : State) : Result := onRunning t p s anchorUnblock
def execCoefficientSetComplete (t : Nat) (p : PolderId) (n : Nat) (s : State) : Result :=
  onRunning t p s (ifCe fun now q => if rdN q A.LRN_CYCLES = n then coefficientSet now q else q)
def execSweepEnd (t : Nat) (p : PolderId) (s : State) : Result := onRunning t p s fun _ q => sweepEnd q
def execLearnerAutosave (t : Nat) (p : PolderId) (s : State) : Result := onRunning t p s (ifCe lrnAutosave)
def execRegimeEvaluation (t : Nat) (p : PolderId) (s : State) : Result := onRunning t p s regimeEval
def execPrechargeTimeout (t : Nat) (p : PolderId) (s : State) : Result := onRunning t p s prechargeTimeout
def execEnergiseTimeout (t : Nat) (p : PolderId) (s : State) : Result := onRunning t p s energiseTimeout
def execEnergiseComplete (t : Nat) (p : PolderId) (s : State) : Result := onRunning t p s energiseComplete
def execSyncTimeout (t : Nat) (p : PolderId) (s : State) : Result := onRunning t p s syncTimeout
def execCloseCommand (t : Nat) (p : PolderId) (s : State) : Result := onRunning t p s closeCommand
def execBreakerCloseDelay (t : Nat) (p : PolderId) (s : State) : Result := onRunning t p s brkFollow
def execBrkTimeout (t : Nat) (p : PolderId) (s : State) : Result := onRunning t p s brkTimeout
def execBackoffWaitEnd (t : Nat) (p : PolderId) (s : State) : Result := onRunning t p s waitOver
def execCollision (t : Nat) (p : PolderId) (s : State) : Result := onRunning t p s collision
def execDeadBusChange (t : Nat) (p : PolderId) (s : State) : Result := onRunning t p s deadChange
def execRideIn (t : Nat) (p : PolderId) (s : State) : Result := onRunning t p s rideIn
def execRideOut (t : Nat) (p : PolderId) (s : State) : Result := onRunning t p s rideOut
def execStopTmo (t : Nat) (p : PolderId) (s : State) : Result := onRunning t p s stopTimeout

/-! ### Embankment and modulator (spec/04, 05) -/

def execFastSample (t : Nat) (p : PolderId) (x : FastIn) (s : State) : Result := onRunning t p s fun now q => fastSample now x q
def execEmbankmentDecision (t : Nat) (p : PolderId) (i : Nat) (s : State) : Result := onIndex i 3 t p s fun now q => embDecision now i q
def execLevelChange (t : Nat) (p : PolderId) (i : Nat) (s : State) : Result := onIndex i 4 t p s fun now q => levelChange now i q
def execDeadTimeEnd (t : Nat) (p : PolderId) (i : Nat) (s : State) : Result := onIndex i 4 t p s fun now q => deadTimeEnd now i q
def execTimerMove (t : Nat) (p : PolderId) (i : Nat) (s : State) : Result := onIndex i 4 t p s fun now q => timerMove now i q
def execTimerMidpointReload (t : Nat) (p : PolderId) (i : Nat) (s : State) : Result := onIndex i 4 t p s fun now q => timerMidpoint now i q
def execPeriodBoundary (t : Nat) (p : PolderId) (s : State) : Result := onRunning t p s periodBoundary
def execCentreReload (t : Nat) (p : PolderId) (s : State) : Result := onRunning t p s centreReload
def execRefreshPulse (t : Nat) (p : PolderId) (i : Nat) (s : State) : Result := onIndex i 4 t p s fun now q => refreshPulse now i q
def execRefreshPulseStep (t : Nat) (p : PolderId) (i : Nat) (s : State) : Result := onIndex i 4 t p s fun now q => refreshStep now i q
def execReferenceStarvation (t : Nat) (p : PolderId) (i : Nat) (s : State) : Result := onIndex i 4 t p s fun now q => starvation now i q
def execSafeStateStep2 (t : Nat) (p : PolderId) (s : State) : Result := onRunning t p s safeStep2

/-- SEQUENCING_END: the modulator's sequencing, and the sequencing of a leg after its gate unit's L2 (R180, R299). -/
def execSequencingEnd (t : Nat) (p : PolderId) (s : State) : Result := onRunning t p s fun now q => l2LegEnd now (seqEnd now q)

/-! ### Gate links and Dike (spec/10) -/

def execDownlinkFrame (t : Nat) (p : PolderId) (n : Nat) (s : State) : Result := onIndex n 4 t p s fun now q => downlinkFrame now n q
def execUplinkFrame (t : Nat) (p : PolderId) (n : Nat) (bad : Bool) (w : Word) (s : State) : Result :=
  if n < 4 then onPin inService t p s (fun now q => uplinkFrame now n bad w q) (fun _ q => uplinkLost n q) else idle t s
def execL2WindowEnd (t : Nat) (p : PolderId) (s : State) : Result := onRunning t p s l2WindowEnd
def execLinkLost (t : Nat) (p : PolderId) (n : Nat) (s : State) : Result := onIndex n 4 t p s fun _ q => linkLost n q
def execTrainingFrame (t : Nat) (p : PolderId) (n : Nat) (x : TrainIn) (s : State) : Result :=
  onIndex n 4 t p s fun now q => trainingFrame now n x q
def execTrainingFailure (t : Nat) (p : PolderId) (n : Nat) (s : State) : Result := onIndex n 4 t p s fun now q => trainingFailure now n q
def execTrainingRetry (t : Nat) (p : PolderId) (n : Nat) (s : State) : Result := onIndex n 4 t p s fun now q => trainingRetry now n q
def execGateUnitResponse (t : Nat) (p : PolderId) (n code : Nat) (payload : List Byte) (s : State) : Result :=
  onIndex n 4 t p s fun now q => gateUnitResponse now n code payload q
def execMessageTimeout (t : Nat) (p : PolderId) (n : Nat) (s : State) : Result := onIndex n 4 t p s fun now q => messageTimeout now n q
def execTripiChange (t : Nat) (p : PolderId) (x : PinHeld) (s : State) : Result :=
  onPin inService t p s (fun now q => tripiChange now x q) (fun now q => tripiLevel now x.low q)
def execThermalTrip (t : Nat) (p : PolderId) (s : State) : Result := onRunning t p s thermalTrip
def execComparatorSelfTestLevel (t : Nat) (p : PolderId) (outside : Bool) (s : State) : Result :=
  onRunning t p s fun now q => cmpTestLevel now outside q

/-! ### Converters, filters, capture (spec/07, 08) -/

def execSlotSample (t : Nat) (p : PolderId) (x : SlotIn) (s : State) : Result := onRunning t p s fun now q => slotSample now x q
def execFrameRestart (t : Nat) (p : PolderId) (s : State) : Result := onRunning t p s frameRestart
def execComparatorActed (t : Nat) (p : PolderId) (x : CmpHeld) (s : State) : Result :=
  onIndex x.k 6 t p s fun now q => cmpOutside now x.k x.uv x.cycles q
def execBlankingEnd (t : Nat) (p : PolderId) (k : Nat) (s : State) : Result := onIndex k 6 t p s fun now q => cmpFollow now k q
def execComparatorInside (t : Nat) (p : PolderId) (x : CmpSeen) (s : State) : Result :=
  onIndex x.k 6 t p s fun now q => cmpInside now x.k x.uv q
def execSettlingEnd (t : Nat) (p : PolderId) (s : State) : Result := onRunning t p s settlingEnd
def execInputTestLevel (t : Nat) (p : PolderId) (k level : Nat) (s : State) : Result := onRunning t p s fun now q => inputTestLevel now k level q
def execPathMOutput (t : Nat) (p : PolderId) (x : PathIn) (s : State) : Result := onRunning t p s fun now q => pathM now x q
def execMeteringCycleComplete (t : Nat) (p : PolderId) (ends : Nat) (s : State) : Result := onRunning t p s (ifCe fun _ q => meterCycle ends q)
def execSampledValueInstant (t : Nat) (p : PolderId) (k : Nat) (s : State) : Result := onRunning t p s fun now q => svInstant now k q

/-- The Hall sends the oldest sample that a polder has handed over, or gives it up (R252). -/
def execSvFrameSend (t : Nat) (p : PolderId) (s : State) : Result :=
  onPart t p s fun now y => if awake (y.pol p) && !rescue (y.pol p) then svSend now p y else y
def execSvlost (t : Nat) (p : PolderId) (s : State) : Result :=
  onPart t p s fun now y => if awake (y.pol p) && !rescue (y.pol p) then svLost now p y else y

def execCaptureTimeTrigger (t : Nat) (p : PolderId) (s : State) : Result := onRunning t p s capTime
def execFireEdge (t : Nat) (p : PolderId) (falling : Bool) (s : State) : Result := 
  onPin inService t p s (fun now q => fireEdge now falling q) (fun _ q => fireLevel falling q)
def execFirePulseEnd (t : Nat) (p : PolderId) (s : State) : Result := onRunning t p s firePulseEnd
def execArmEdge (t : Nat) (p : PolderId) (s : State) : Result := onRunning t p s fun _ q => armEdge q

/-! ### Sluices (spec/09) -/

def execSluiceCheck (t : Nat) (p : PolderId) (n : Nat) (s : State) : Result := onIndex n 8 t p s fun now q => sluCheck now n q
def execSluiceTimedCommit (t : Nat) (p : PolderId) (n : Nat) (s : State) : Result := onIndex n 8 t p s fun now q => sluTimed now n (follow now q)
def execSluiceIdleTimeout (t : Nat) (p : PolderId) (n : Nat) (s : State) : Result := onIndex n 8 t p s fun now q => sluIdle now n q

/-! ### Field I/O (spec/11) -/

/-- FIELD_INPUT_CHANGE: the count of an input has run its filter time. The breaker logic sees the new filtered level. -/
def execFieldInputChange (t : Nat) (p : PolderId) (k : Nat) (s : State) : Result :=
  if k < 8 then onPart t p s fun now y => y.modPol p fun q =>
    if inService q then polish now (let r := filteredChange now k q; if r.1 then brkSee r.2 else r.2)
    else if sampling q then polish now (filteredChange now k q).2
    else q
  else idle t s
def execRawInputChange (t : Nat) (p : PolderId) (k : Nat) (high : Bool) (s : State) : Result :=
  if k < 8 then onPin (fun q => awake q || sampling q) t p s (fun now q => rawChange now k high q) (fun now q => rawLevel now k high q) else idle t s
def execReadbackFault (t : Nat) (p : PolderId) (x : RbSeen) (s : State) : Result := onIndex x.k 4 t p s fun now q => readbackSample now x q
def execIlim (t : Nat) (p : PolderId) (k : Nat) (s : State) : Result := onIndex k 4 t p s fun _ q => ilimFlag s.part k q
def execTherm (t : Nat) (p : PolderId) (k : Nat) (s : State) : Result := onIndex k 4 t p s fun now q => thermShut s.part now k q
def execThermalRestart (t : Nat) (p : PolderId) (k : Nat) (s : State) : Result := onIndex k 4 t p s fun now q => thermCool now k q
def execTestPulseStart (t : Nat) (p : PolderId) (k : Nat) (s : State) : Result := onIndex k 4 t p s fun now q => pulseStart now k q
def execTestPulseEnd (t : Nat) (p : PolderId) (k : Nat) (low : Bool) (s : State) : Result :=
  onIndex k 4 t p s fun now q => pulseEnd now k low q
def execLpLoss (t : Nat) (p : PolderId) (s : State) : Result := onPart t p s fun now y => y.modPol p (lpGone now)
def execLpReturn (t : Nat) (p : PolderId) (s : State) : Result := onPart t p s fun now y => y.modPol p (lpBack now)

/-! ### Safe pulse block (spec/12) -/

def execLaneMessage (t : Nat) (p : PolderId) (x : LaneIn) (s : State) : Result := onRunning t p s fun now q => laneMessage now x q
def execLaneDisagreement (t : Nat) (p : PolderId) (s : State) : Result := onRunning t p s laneDisagreement
def execLaneStopped (t : Nat) (p : PolderId) (s : State) : Result := onRunning t p s laneStopped
def execParameterCheck (t : Nat) (p : PolderId) (s : State) : Result := onRunning t p s parameterCheck
def execSafetyInputFiltered (t : Nat) (p : PolderId) (k : Nat) (s : State) : Result := onIndex k 4 t p s fun now q => safetyFiltered now k q
def execDisc (t : Nat) (p : PolderId) (j : Nat) (s : State) : Result := onIndex j 2 t p s fun now q => discLatch now j q

/-- A safety frame comes through the Hall, which must be up (R355). -/
def execStometFrame (t : Nat) (p : PolderId) (port ip : Nat) (bytes : List Byte) (s : State) : Result :=
  onHeard inService t port p s fun now q => stometFrame now port ip bytes q
def execComparisonWindowEnd (t : Nat) (p : PolderId) (s : State) : Result := onRunning t p s windowEnd
def execWdog (t : Nat) (p : PolderId) (s : State) : Result := onRunning t p s frameWatchdog
def execNetworkDown (t : Nat) (p : PolderId) (j : Nat) (s : State) : Result := onIndex j 2 t p s fun now q => networkDown now j q
def execNetworkResume (t : Nat) (p : PolderId) (j : Nat) (s : State) : Result := onIndex j 2 t p s fun now q => networkResume now j q
def execStometTransmit (t : Nat) (p : PolderId) (s : State) : Result := onRunning t p s stometTransmit
def execEnablePathTestStart (t : Nat) (p : PolderId) (s : State) : Result := onRunning t p s testStart
def execEnablePathTestStep (t : Nat) (p : PolderId) (gen1 gen2 : Bool) (s : State) : Result :=
  onRunning t p s fun now q => testStep now (bn gen1 + 2 * bn gen2) q

/-- TEST_AGE_HOUR counts in every power state other than OFF (R351). -/
def execTestAgeHour (t : Nat) (p : PolderId) (s : State) : Result :=
  onPart t p s fun now y => if (y.pol p).power = .off then y else y.modPol p fun q => polish now (testAgeHour now q)
def execPasswordLockoutEnd (t : Nat) (p : PolderId) (s : State) : Result := onAwake t p s passUnlock

end Sys2Proof.Machine
end

