-- ==== Sys2Proof/Machine/EventsHall.lean ====
section
/-! DEFINITION. Events of clocks and time, of the Hall's ports and bridge, of engines and memories, of power, start-up and the Dikehouse
(spec/13 to spec/18). -/
namespace Sys2Proof.Machine

/-! ### Clock and time (spec/13) -/

/-- An event of a polder's clock: it runs from the release of the reset on, through the boot and the wake (R369, R455). -/
def onClocked (t : Nat) (i : PolderId) (s : State) (f : Nat → Polder → Polder) : Result :=
  onPart t i s fun now y =>
    if [Power.awake, .booting, .waking].contains (y.pol i).power then y.modPol i (fun p => polish now (f now p)) else y

def execRefclkMissing (t : Nat) (p : PolderId) (s : State) : Result := onClocked t p s refclkMissing
def execUnlockPll (t : Nat) (p : PolderId) (s : State) : Result := onClocked t p s unlockPll
def execRefok (t : Nat) (p : PolderId) (temp : Int) (s : State) : Result := onClocked t p s fun now q => refok now temp q
def execPllLock (t : Nat) (p : PolderId) (ok : Bool) (band : Nat) (temp : Int) (s : State) : Result :=
  onClocked t p s fun now q => pllLock now ok band temp q
def execBandSearchRetry (t : Nat) (p : PolderId) (s : State) : Result := onClocked t p s bandSearchRetry
def execCalibrationComplete (t : Nat) (p : PolderId) (s : State) : Result := onClocked t p s calibrationComplete

/-- What the Hall passes on reaches a polder only while the Hall is up. -/
def ifHall (t : Nat) (s : State) (r : Result) : Result := if s.hall.up then r else idle t s

def execHallTimeStrobe (t : Nat) (p : PolderId) (hallNs : Nat) (s : State) : Result :=
  ifHall t s (onPart t p s fun now y =>
    if awake (y.pol p) then modHall (fun h => { h with timeRef := some (hallNs, now) }) (y.modPol p fun q => polish now (strobe now hallNs q)) else y)
def execHallLost (t : Nat) (p : PolderId) (s : State) : Result := onAwake t p s hallLost

/-- PTP events are carried out by the SE's servo (R377): they wait for an SE that runs. -/
def execSyncMessage (t : Nat) (p : PolderId) (x : SyncIn) (s : State) : Result :=
  onHeard awake t x.port p s (ifSe fun now q => syncMessage now x q)
def execAnnounceMessage (t : Nat) (p : PolderId) (x : AnnounceIn) (s : State) : Result :=
  onHeard awake t x.port p s (ifSe fun now q => announce now x q)
def execDomainLost (t : Nat) (p : PolderId) (n : Nat) (s : State) : Result :=
  if n < 2 then onAwake t p s fun now q => domainLost now n q else idle t s
def execRevert (t : Nat) (p : PolderId) (s : State) : Result := onAwake t p s timeTick
def execHoldoverExpiry (t : Nat) (p : PolderId) (s : State) : Result := onAwake t p s timeTick
def execCorrectionSlew (t : Nat) (p : PolderId) (s : State) : Result := onAwake t p s timeTick
/-- PEER_DELAY_MEASUREMENT: the Hall sends its Pdelay_Req, and what it has measured reaches the polder. -/
def execPeerDelayMeasurement (t : Nat) (p : PolderId) (port delayNs : Nat) (s : State) : Result :=
  if s.hall.up && decide (port < 2) then
    onPart t p s fun now y =>
      let y1 := portHeard now port y
      pdelaySend now port (if awake (y1.pol p) then y1.modPol p (fun q => polish now (peerDelay port delayNs q)) else y1.modPol p clockStood)
  else idle t s
def execPpsOutput (t : Nat) (p : PolderId) (s : State) : Result := onAwake t p s ppsOutput
def execPpsPulseEnd (t : Nat) (p : PolderId) (s : State) : Result := onAwake t p s ppsPulseEnd
def execPpsIn (t : Nat) (p : PolderId) (s : State) : Result := onAwake t p s ppsIn

/-! ### The Hall's ports (spec/14) -/

def execPdelayReq (t : Nat) (port : Nat) (bytes : List Byte) (s : State) : Result := onDevice t s fun now y => pdelayReq now port bytes y
def execCommandPacket (t : Nat) (src : Source) (prp : Option (Nat × Nat)) (bytes : List Byte) (s : State) : Result :=
  onDevice t s fun now y => commandPacket now src prp bytes y
def execArpRequest (t : Nat) (port : Nat) (prp : Option (Nat × Nat)) (target senderIp senderMac : Nat) (s : State) : Result :=
  onDevice t s fun now y => arpRequest now port prp target senderIp senderMac y
def execIcmpEcho (t : Nat) (port : Nat) (prp : Option (Nat × Nat)) (srcIp : Nat) (data : List Byte) (s : State) : Result :=
  onDevice t s fun now y => icmpEcho now port prp srcIp data y
def execEthLinkChange (t : Nat) (port : Nat) (up : Bool) (s : State) : Result := onDevice t s fun now y => linkChange now port up y
def execSupervisionFrame (t : Nat) (s : State) : Result := onDevice t s supervisionFrame
def execSpiStatus (t : Nat) (s : State) : Result := onDevice t s fun _ y => spiStatus y
def execSpiWrite (t : Nat) (len : Nat) (bytes : List Byte) (s : State) : Result := onDevice t s fun _ y => spiWrite len bytes y
def execSpiRead (t : Nat) (clocked : Nat) (s : State) : Result := onDevice t s fun _ y => spiRead clocked y
def execCommandDelivery (t : Nat) (tgt : Target) (s : State) : Result := onDevice t s fun now y => commandDeliver now tgt y
def execTargetReply (t : Nat) (tgt : Target) (s : State) : Result := onDevice t s fun now y => targetReply now tgt y
def execReplyTimeout (t : Nat) (tgt : Target) (s : State) : Result := onDevice t s fun now y => replyTimeout now tgt y
def execDeliveryTimeout (t : Nat) (tgt : Target) (s : State) : Result := onDevice t s fun now y => deliveryTimeout now tgt y

/-- MAILBOX_STUCK (R430): the bit of the queue sets; for the Hall's own queue the waiting command is answered. -/
def execMailboxStuck (t : Nat) (p : PolderId) (q : Nat) (s : State) : Result :=
  if q < 6 then onPart t p s fun now y =>
    if awake (y.pol p) then
      let r := mbxStuck now q (y.pol p)
      let y1 := y.setPol p (polish now r.2)
      if r.1 && q == 0 then stuckAt now p y1 else y1
    else y
  else idle t s

def execSessionTimeout (t : Nat) (idx : Nat) (s : State) : Result := onDevice t s fun now y => sessionTimeout now idx y
def execTokenLapse (t : Nat) (k : Nat) (s : State) : Result := onDevice t s fun now y => tokenLapse now k y

/-! ### Engines and memories (spec/01, 15) -/

/-- What an SE reset means for the Hall: the command it was reading or held is answered (R427). -/
def seFails (now : Nat) (i : PolderId) (f : Polder → Polder) (s : State) : State :=
  seLost now i (collect now (s.modPol i fun p => polish now (f p)))

def execCeWatchdog (t : Nat) (p : PolderId) (s : State) : Result := onAwake t p s ceWatchdog
def execSeWatchdog (t : Nat) (p : PolderId) (s : State) : Result :=
  onPart t p s fun now y => if awake (y.pol p) && seState (y.pol p) == Eng.run then seFails now p (seWatchdog now) y else y

/-- The learner entry reads as 0 and is counted (R44). -/
def eccTable (off : Nat) (p : Polder) : Polder :=
  if inTable off && off % 4 == 0 then
    let p1 := wr p off 0
    { p1 with lrn := { p1.lrn with ecc := p1.lrn.ecc + 1, bad := off :: p1.lrn.bad.filter (· != off) } }
  else p

/-- A recorder's word is delivered with its sample flagged invalid: the flag code of R203 in each sample of the word (R44, R254). The rest
of the word is free. -/
def eccRecorder (packed : Bool) (off : Nat) (p : Polder) : Polder :=
  let w := withBits (Config.eccWord p.free) 1 0 3
  wr { p with free := p.free + 1 } off (if packed then withBits w 17 16 3 else w)

/-- The filters of a stream restart; its outputs are invalid for one flag span (R44, R242). -/
def eccFilter (now k : Nat) (p : Polder) : Polder :=
  let f := p.flt
  let w := vget f.resp k 0
  evt F.FLT_EVT_RESTART { p with flt := { f with
    ovrC := vset f.ovrC k 0, susC := vset f.susC k 0, ovrM := vset f.ovrM k 0, susM := vset f.susM k 0,
    invC := vset f.invC k (now + spanFs (bitsOf w 3 0)), invM := vset f.invM k (now + spanFs (bitsOf w 7 4)) } }

/-- A double-bit error in a memory that a polder's own logic handles. For the mailboxes, as for the Hall's and the Dikehouse's memory, the spec gives it no effect
(DESIGN CHOICE, notes/assumptions/15.md). -/
def eccLocal (now : Nat) (p : Polder) : EccRegion → Polder
  | .ceCode => ceReset now 2 1 true p
  | .ceData => ceReset now 2 2 false p
  | .seCode | .seData => p
  | .table off => eccTable off p
  | .gallery off => if 0x300000 ≤ off ∧ off < 0x320000 ∧ off % 4 = 0 then eccRecorder false off p else p
  | .capture off =>
    if 0x380000 ≤ off ∧ off < 0x3B0000 ∧ off % 4 = 0 then eccRecorder (cfgGet (capRec p) F.CAP_CTRL_FORMAT == 1) off p else p
  | .filter k => if k < 15 && !rescue p then eccFilter now k p else p
  | .mailbox | .hallPackets | .watchCore => p
  | .spb => if p.spb.lane1 then spbFault now F.SPB_FAULT_ECC p else p

/-- A single-bit error is corrected and counted for its region (R44, R423). -/
def eccCorrected (p : Polder) : EccRegion → Polder
  | .ceCode | .ceData => addSat p A.PCT_CE_ECC1 1
  | .seCode | .seData => addSat p A.PCT_SE_ECC1 1
  | .table _ => count 0
  | .gallery _ => count 1
  | .capture _ => count 2
  | .filter _ => count 3
  | .spb => count 4
  | .mailbox => count 5
  | .hallPackets | .watchCore => p
where
  count (k : Nat) : Polder := { p with eng := { p.eng with ecc1 := vmod p.eng.ecc1 k (· + 1) } }

/-- ECC_DOUBLE_ERROR (R44, R423, R424, R350). An error in the SE's code restarts the whole polder. -/
def eccError (now : Nat) (i : PolderId) (r : EccRegion) (s : State) : State := match r with
  | .seData => seFails now i (seReset now 3 4) s
  | .seCode => restartPol now i Cause.seCode (s.modPol i (engEvent now 3 3 0))
  | _ => s.modPol i fun p => polish now (eccLocal now p r)

/-- An error in the Hall's packet buffers or the Dikehouse's memory: a single-bit error is counted. -/
def eccDevice (double : Bool) (r : EccRegion) (s : State) : State :=
  if double then s
  else if r = .hallPackets then (if s.hall.up then modHall (fun h => { h with ecc1 := h.ecc1 + 1 }) s else s)
  else if s.dkh.up then modDkh (fun d => { d with ecc1 := d.ecc1 + 1 }) s
  else s

def execEccDoubleError (t : Nat) (p : PolderId) (x : MemError) (s : State) : Result :=
  if x.region = .hallPackets ∨ x.region = .watchCore then onDevice t s fun _ y => eccDevice x.double x.region y
  else onPart t p s fun now y =>
    if awake (y.pol p) then (if x.double then eccError now p x.region y else y.modPol p fun q => polish now (eccCorrected q x.region)) else y

/-- An SE that runs again, after a halt or a reset, takes the words that have waited for it (R426, R427). -/
def drainSe (p : Polder) : Polder :=
  if (mbxQueue p 0).isEmpty then p
  else evt (F.MBX_STAT_EMPTY 0) (modEng (fun e => { e with queues := vset e.queues 0 [], fullSince := vset e.fullSince 0 none }) p)

/-- The SE of a polder runs again, after a halt or a reset: it takes the words that have waited for it. -/
def seTakes (now : Nat) (i : PolderId) (f : Polder → Polder) (s : State) : State := flightsRead i (s.modPol i fun q => polish now (f (drainSe q)))

def execEngineRestartComplete (t : Nat) (p : PolderId) (ce : Bool) (s : State) : Result := onPart t p s fun now y =>
  if awake (y.pol p) then
    if ce then y.modPol p fun q => polish now (ceRestarted (reloadCode y.part q) q)
    else if seState (y.pol p) = Eng.reset then seTakes now p seRestarted y
    else y
  else y

/-- ENGINE_HALT, refused while x_DBG_EN is low (R504). -/
def execEngineHalt (t : Nat) (p : PolderId) (e : DebugEngine) (s : State) : Result :=
  onAwake t p s fun now q => if e.en then engHalt now e.ce q else q

/-- ENGINE_RELEASE. The Dikehouse has not read the heartbeat during the halt: its 100 ms begin anew (R426, R463). -/
def execEngineRelease (t : Nat) (p : PolderId) (ce : Bool) (s : State) : Result := onPart t p s fun now y =>
  if awake (y.pol p) then
    if ce then (if ceState (y.pol p) = Eng.halt then superviseFrom now p (y.modPol p fun q => polish now (engRelease true q)) else y)
    else if seState (y.pol p) = Eng.halt then superviseFrom now p (seTakes now p (engRelease false) y)
    else y
  else y

/-! ### Power, start-up, the Dikehouse, NV stores (spec/16, 17, 18) -/

def execVaonRise (t : Nat) (s : State) : Result := onDevice t s dkhStart
def execRailLoss (t : Nat) (r : Rail) (s : State) : Result := onDevice t s fun now y => railLoss now r y
def execBrownOut (t : Nat) (p : PolderId) (vdd : Bool) (s : State) : Result := onPart t p s fun now y => brownOut now p vdd y
def execPolderResetRelease (t : Nat) (p : PolderId) (s : State) : Result := onPart t p s fun now y => resetRelease now p y

/-- BOOT_COMPLETE and WAKE_COMPLETE: what follows from the polder's state settles at once. -/
def thenPolish (now : Nat) (i : PolderId) (s : State) : State := s.modPol i (polish now)
def execBootComplete (t : Nat) (p : PolderId) (s : State) : Result := onPart t p s fun now y => thenPolish now p (bootDoneAt now p y)
def execWakeComplete (t : Nat) (p : PolderId) (s : State) : Result := onPart t p s fun now y => thenPolish now p (wakeDoneAt now p y)
def execBootfail (t : Nat) (p : PolderId) (s : State) : Result := onPart t p s fun now y => bootfail now p y
def execFwTrialTimeout (t : Nat) (p : PolderId) (s : State) : Result := onPart t p s fun now y => trialTimeout now p y
def execFlashEraseComplete (t : Nat) (p : PolderId) (s : State) : Result := onAwake t p s fun _ q => eraseComplete q
def execWatchSample (t : Nat) (k code : Nat) (s : State) : Result := onDevice t s fun _ y => watchSample k code y
def execRuleEvaluation (t : Nat) (s : State) : Result := onDevice t s ruleEvaluation
def execHeartbeatRead (t : Nat) (p : PolderId) (s : State) : Result := onPart t p s fun now y => heartbeatRead p now y
def execHblost (t : Nat) (p : PolderId) (s : State) : Result := onPart t p s fun now y => hblost now p y
def execGuardTimeout (t : Nat) (p : PolderId) (s : State) : Result := onPart t p s fun now y => guardTimeout now p y
def execActionDelayEnd (t : Nat) (p : PolderId) (s : State) : Result := onPart t p s fun now y => delayEnd now p y

/-- NV_WRITE: a store begins the write of its changed sections (R460). A polder's is written by its SE, the device's by the Dikehouse. -/
def execNvWrite (t : Nat) (n : NvStore) (s : State) : Result := match n with
  | .polder p => onAwake t p s (ifSe nvWrite)
  | .device => onDevice t s fun now y => if y.dkh.up then modDkh (devWrite now) y else y
def execNvWriteComplete (t : Nat) (n : NvStore) (good : Bool) (s : State) : Result := match n with
  | .polder p => onAwake t p s fun now q => nvComplete now good q
  | .device => onDevice t s fun now y => if y.dkh.up then modDkh (devComplete now good) y else y

def execHallResetRelease (t : Nat) (s : State) : Result := onDevice t s fun _ y => hallStart y
/-- EXTEST: with x_DBG_EN low the port acts as BYPASS, in which nothing of the polder changes. -/
def execExtest (t : Nat) (x : DebugPort) (s : State) : Result := onPart t x.pol s fun now y => if x.en then extestHeld now x.pol y else y

end Sys2Proof.Machine
end

