-- ==== Sys2Proof/Machine/Dispatch.lean ====
section
/-!
DEFINITION. One arm per command, each a direct call of its meaning.
-/
namespace Sys2Proof.Machine
open Sys2Proof

/-- The effect of a command on the state (on everything but the queue). -/
def exec (i : Instr) (s : State) : Host.Outcome State Fault Refusal :=
  match i with
  | .hello t h => Sys2Proof.Machine.execHello t h s
  | .bye t c => Sys2Proof.Machine.execBye t c s
  | .tokenTake t c => Sys2Proof.Machine.execTokenTake t c s
  | .tokenRelease t c => Sys2Proof.Machine.execTokenRelease t c s
  | .subscribe t c => Sys2Proof.Machine.execSubscribe t c s
  | .getNotifications t c => Sys2Proof.Machine.execGetNotifications t c s
  | .setNetwork t c => Sys2Proof.Machine.execSetNetwork t c s
  | .setSv t c => Sys2Proof.Machine.execSetSv t c s
  | .setKey t c => Sys2Proof.Machine.execSetKey t c s
  | .getHall t c => Sys2Proof.Machine.execGetHall t c s
  | .readWords t tgt c => Sys2Proof.Machine.execReadWords t tgt c s
  | .writeWords t tgt c => Sys2Proof.Machine.execWriteWords t tgt c s
  | .setBases t p c => Sys2Proof.Machine.execSetBases t p c s
  | .setInertia t p c => Sys2Proof.Machine.execSetInertia t p c s
  | .setDroops t p c => Sys2Proof.Machine.execSetDroops t p c s
  | .setVoltageLaw t p c => Sys2Proof.Machine.execSetVoltageLaw t p c s
  | .setLimits t p c => Sys2Proof.Machine.execSetLimits t p c s
  | .setAnchor t p c => Sys2Proof.Machine.execSetAnchor t p c s
  | .setPoints t p c => Sys2Proof.Machine.execSetPoints t p c s
  | .getSwing t p c => Sys2Proof.Machine.execGetSwing t p c s
  | .requestRegime t p c => Sys2Proof.Machine.execRequestRegime t p c s
  | .breaker t p c => Sys2Proof.Machine.execBreaker t p c s
  | .setStartSync t p c => Sys2Proof.Machine.execSetStartSync t p c s
  | .setRide t p c => Sys2Proof.Machine.execSetRide t p c s
  | .setEnvelope t p c => Sys2Proof.Machine.execSetEnvelope t p c s
  | .getRegime t p c => Sys2Proof.Machine.execGetRegime t p c s
  | .setEmbankment t p c => Sys2Proof.Machine.execSetEmbankment t p c s
  | .setBand t p c => Sys2Proof.Machine.execSetBand t p c s
  | .setPrediction t p c => Sys2Proof.Machine.execSetPrediction t p c s
  | .setNpBalance t p c => Sys2Proof.Machine.execSetNpBalance t p c s
  | .getEmbankment t p c => Sys2Proof.Machine.execGetEmbankment t p c s
  | .setModulator t p c => Sys2Proof.Machine.execSetModulator t p c s
  | .setBootstrap t p c => Sys2Proof.Machine.execSetBootstrap t p c s
  | .setPulseShape t p c => Sys2Proof.Machine.execSetPulseShape t p c s
  | .setCarrier t p c => Sys2Proof.Machine.execSetCarrier t p c s
  | .getModulator t p c => Sys2Proof.Machine.execGetModulator t p c s
  | .setLearner t p c => Sys2Proof.Machine.execSetLearner t p c s
  | .learnerStore t p c => Sys2Proof.Machine.execLearnerStore t p c s
  | .getLearner t p c => Sys2Proof.Machine.execGetLearner t p c s
  | .setGallery t p c => Sys2Proof.Machine.execSetGallery t p c s
  | .galleryControl t p c => Sys2Proof.Machine.execGalleryControl t p c s
  | .readGallery t p c => Sys2Proof.Machine.execReadGallery t p c s
  | .setAcquisition t p c => Sys2Proof.Machine.execSetAcquisition t p c s
  | .setComparator t p c => Sys2Proof.Machine.execSetComparator t p c s
  | .runInputTest t p c => Sys2Proof.Machine.execRunInputTest t p c s
  | .getAcquisition t p c => Sys2Proof.Machine.execGetAcquisition t p c s
  | .setFilters t p c => Sys2Proof.Machine.execSetFilters t p c s
  | .getMetering t p c => Sys2Proof.Machine.execGetMetering t p c s
  | .setCapture t p c => Sys2Proof.Machine.execSetCapture t p c s
  | .captureControl t p c => Sys2Proof.Machine.execCaptureControl t p c s
  | .readCapture t p c => Sys2Proof.Machine.execReadCapture t p c s
  | .sluiceOpen t p c => Sys2Proof.Machine.execSluiceOpen t p c s
  | .sluiceStage t p c => Sys2Proof.Machine.execSluiceStage t p c s
  | .sluiceCommit t p c => Sys2Proof.Machine.execSluiceCommit t p c s
  | .sluiceAbort t p c => Sys2Proof.Machine.execSluiceAbort t p c s
  | .getSluice t p c => Sys2Proof.Machine.execGetSluice t p c s
  | .setStair t p c => Sys2Proof.Machine.execSetStair t p c s
  | .getStairs t p c => Sys2Proof.Machine.execGetStairs t p c s
  | .setDike t p c => Sys2Proof.Machine.execSetDike t p c s
  | .setL1 t p c => Sys2Proof.Machine.execSetL1 t p c s
  | .clearTrips t p c => Sys2Proof.Machine.execClearTrips t p c s
  | .trip t p c => Sys2Proof.Machine.execTrip t p c s
  | .getDike t p c => Sys2Proof.Machine.execGetDike t p c s
  | .setGateLink t p c => Sys2Proof.Machine.execSetGateLink t p c s
  | .gateLinkControl t p c => Sys2Proof.Machine.execGateLinkControl t p c s
  | .runSelfTest t p c => Sys2Proof.Machine.execRunSelfTest t p c s
  | .getGateLinks t p c => Sys2Proof.Machine.execGetGateLinks t p c s
  | .setFieldInputs t p c => Sys2Proof.Machine.execSetFieldInputs t p c s
  | .setFieldOutputs t p c => Sys2Proof.Machine.execSetFieldOutputs t p c s
  | .setOutputs t p c => Sys2Proof.Machine.execSetOutputs t p c s
  | .getFieldIo t p c => Sys2Proof.Machine.execGetFieldIo t p c s
  | .getFieldEvents t p c => Sys2Proof.Machine.execGetFieldEvents t p c s
  | .clearFieldDiag t p c => Sys2Proof.Machine.execClearFieldDiag t p c s
  | .setSafety t p c => Sys2Proof.Machine.execSetSafety t p c s
  | .confirmSafety t p c => Sys2Proof.Machine.execConfirmSafety t p c s
  | .safetyAck t p c => Sys2Proof.Machine.execSafetyAck t p c s
  | .getSafety t p c => Sys2Proof.Machine.execGetSafety t p c s
  | .setSafetyPassword t p c => Sys2Proof.Machine.execSetSafetyPassword t p c s
  | .readSafetyLog t p c => Sys2Proof.Machine.execReadSafetyLog t p c s
  | .setClock t p c => Sys2Proof.Machine.execSetClock t p c s
  | .getClock t p c => Sys2Proof.Machine.execGetClock t p c s
  | .setTimeSources t p c => Sys2Proof.Machine.execSetTimeSources t p c s
  | .getTime t p c => Sys2Proof.Machine.execGetTime t p c s
  | .setPps t p c => Sys2Proof.Machine.execSetPps t p c s
  | .setTime t p c => Sys2Proof.Machine.execSetTime t p c s
  | .getNv t p c => Sys2Proof.Machine.execGetNv t p c s
  | .fwSlot t p c => Sys2Proof.Machine.execFwSlot t p c s
  | .fwActivate t p c => Sys2Proof.Machine.execFwActivate t p c s
  | .fwConfirm t p c => Sys2Proof.Machine.execFwConfirm t p c s
  | .getFirmware t p c => Sys2Proof.Machine.execGetFirmware t p c s
  | .setPerformance t p c => Sys2Proof.Machine.execSetPerformance t p c s
  | .sleep t p c => Sys2Proof.Machine.execSleep t p c s
  | .polderPower t c => Sys2Proof.Machine.execPolderPower t c s
  | .setWatch t c => Sys2Proof.Machine.execSetWatch t c s
  | .setRule t c => Sys2Proof.Machine.execSetRule t c s
  | .setSupervision t c => Sys2Proof.Machine.execSetSupervision t c s
  | .getDikehouse t c => Sys2Proof.Machine.execGetDikehouse t c s
  | .readLog t tgt c => Sys2Proof.Machine.execReadLog t tgt c s
  | .setLog t p c => Sys2Proof.Machine.execSetLog t p c s
  | .getEngines t p c => Sys2Proof.Machine.execGetEngines t p c s
  | .setMonitor t p c => Sys2Proof.Machine.execSetMonitor t p c s
  | .monitorHelp t p => Sys2Proof.Machine.execMonitorHelp t p s
  | .monitorId t p => Sys2Proof.Machine.execMonitorId t p s
  | .monitorStat t p => Sys2Proof.Machine.execMonitorStat t p s
  | .unlock t p => Sys2Proof.Machine.execUnlock t p s
  | .unlockResponse t p resp => Sys2Proof.Machine.execUnlockResponse t p resp s
  | .lock t p => Sys2Proof.Machine.execLock t p s
  | .quit t p => Sys2Proof.Machine.execQuit t p s
  | .rd t p addr n => Sys2Proof.Machine.execRd t p addr n s
  | .monitorLog t p first n => Sys2Proof.Machine.execMonitorLog t p first n s
  | .dumpGal t p first n => Sys2Proof.Machine.execDumpGal t p first n s
  | .dumpCap t p first n => Sys2Proof.Machine.execDumpCap t p first n s
  | .eng t p => Sys2Proof.Machine.execEng t p s
  | .wr t p addr v => Sys2Proof.Machine.execWr t p addr v s
  | .monitorTrip t p code => Sys2Proof.Machine.execMonitorTrip t p code s
  | .monitorClear t p mask => Sys2Proof.Machine.execMonitorClear t p mask s
  | .monitorDo t p mask v => Sys2Proof.Machine.execMonitorDo t p mask v s
  | .monitorRestart t p => Sys2Proof.Machine.execMonitorRestart t p s
  | .monitorRateSet t p baud => Sys2Proof.Machine.execMonitorRateSet t p baud s
  | .monitorSessionTimeout t p => Sys2Proof.Machine.execMonitorSessionTimeout t p s
  | .monitorLockoutEnd t p => Sys2Proof.Machine.execMonitorLockoutEnd t p s
  | .directRegisterWrite t m addr v => Sys2Proof.Machine.execDirectRegisterWrite t m addr v s
  | .measurementGroupLatch t p m => Sys2Proof.Machine.execMeasurementGroupLatch t p m s
  | .meterLatch t p m => Sys2Proof.Machine.execMeterLatch t p m s
  | .timeLatch t p m => Sys2Proof.Machine.execTimeLatch t p m s
  | .mailboxPush t p m onBehalf q w => Sys2Proof.Machine.execMailboxPush t p m onBehalf q w s
  | .mailboxPop t p m q => Sys2Proof.Machine.execMailboxPop t p m q s
  | .lockAcquire t p ms k => Sys2Proof.Machine.execLockAcquire t p ms k s
  | .lockRelease t p m k => Sys2Proof.Machine.execLockRelease t p m k s
  | .qpop t p m v => Sys2Proof.Machine.execQpop t p m v s
  | .galleryArm t p m => Sys2Proof.Machine.execGalleryArm t p m s
  | .galleryForce t p m => Sys2Proof.Machine.execGalleryForce t p m s
  | .galleryStop t p m => Sys2Proof.Machine.execGalleryStop t p m s
  | .captureArm t p m => Sys2Proof.Machine.execCaptureArm t p m s
  | .captureForce t p m => Sys2Proof.Machine.execCaptureForce t p m s
  | .captureStop t p m => Sys2Proof.Machine.execCaptureStop t p m s
  | .learnerSave t p m => Sys2Proof.Machine.execLearnerSave t p m s
  | .learnerRestore t p m => Sys2Proof.Machine.execLearnerRestore t p m s
  | .learnerClear t p m => Sys2Proof.Machine.execLearnerClear t p m s
  | .learnerErase t p m => Sys2Proof.Machine.execLearnerErase t p m s
  | .learnerTableWrite t p m off v => Sys2Proof.Machine.execLearnerTableWrite t p m off v s
  | .cntclrEmb t p m => Sys2Proof.Machine.execCntclrEmb t p m s
  | .swtrip t p m => Sys2Proof.Machine.execSwtrip t p m s
  | .dikClr t p m mask => Sys2Proof.Machine.execDikClr t p m mask s
  | .bufferedWrite t p m off v => Sys2Proof.Machine.execBufferedWrite t p m off v s
  | .outputOrder t p orders => Sys2Proof.Machine.execOutputOrder t p orders s
  | .applyGo t => Sys2Proof.Machine.execApplyGo t s
  | .applyDiscard t => Sys2Proof.Machine.execApplyDiscard t s
  | .cntclr t => Sys2Proof.Machine.execCntclr t s
  | .dkhSave t => Sys2Proof.Machine.execDkhSave t s
  | .wakeclr t => Sys2Proof.Machine.execWakeclr t s
  | .dkhreqTrip t p => Sys2Proof.Machine.execDkhreqTrip t p s
  | .dkhreqStop t p mode => Sys2Proof.Machine.execDkhreqStop t p mode s
  | .swingUpdate t p x => Sys2Proof.Machine.execSwingUpdate t p x s
  | .dwellEnd t p k => Sys2Proof.Machine.execDwellEnd t p k s
  | .anchorBlock t p => Sys2Proof.Machine.execAnchorBlock t p s
  | .anchorUnblock t p => Sys2Proof.Machine.execAnchorUnblock t p s
  | .coefficientSetComplete t p n => Sys2Proof.Machine.execCoefficientSetComplete t p n s
  | .sweepEnd t p => Sys2Proof.Machine.execSweepEnd t p s
  | .learnerAutosave t p => Sys2Proof.Machine.execLearnerAutosave t p s
  | .regimeEvaluation t p => Sys2Proof.Machine.execRegimeEvaluation t p s
  | .prechargeTimeout t p => Sys2Proof.Machine.execPrechargeTimeout t p s
  | .energiseTimeout t p => Sys2Proof.Machine.execEnergiseTimeout t p s
  | .energiseComplete t p => Sys2Proof.Machine.execEnergiseComplete t p s
  | .syncTimeout t p => Sys2Proof.Machine.execSyncTimeout t p s
  | .closeCommand t p => Sys2Proof.Machine.execCloseCommand t p s
  | .breakerCloseDelay t p => Sys2Proof.Machine.execBreakerCloseDelay t p s
  | .brkTimeout t p => Sys2Proof.Machine.execBrkTimeout t p s
  | .backoffWaitEnd t p => Sys2Proof.Machine.execBackoffWaitEnd t p s
  | .collision t p => Sys2Proof.Machine.execCollision t p s
  | .deadBusChange t p => Sys2Proof.Machine.execDeadBusChange t p s
  | .rideIn t p => Sys2Proof.Machine.execRideIn t p s
  | .rideOut t p => Sys2Proof.Machine.execRideOut t p s
  | .stopTmo t p => Sys2Proof.Machine.execStopTmo t p s
  | .fastSample t p x => Sys2Proof.Machine.execFastSample t p x s
  | .embankmentDecision t p leg => Sys2Proof.Machine.execEmbankmentDecision t p leg s
  | .levelChange t p leg => Sys2Proof.Machine.execLevelChange t p leg s
  | .deadTimeEnd t p leg => Sys2Proof.Machine.execDeadTimeEnd t p leg s
  | .timerMove t p leg => Sys2Proof.Machine.execTimerMove t p leg s
  | .periodBoundary t p => Sys2Proof.Machine.execPeriodBoundary t p s
  | .centreReload t p => Sys2Proof.Machine.execCentreReload t p s
  | .refreshPulse t p leg => Sys2Proof.Machine.execRefreshPulse t p leg s
  | .refreshPulseStep t p leg => Sys2Proof.Machine.execRefreshPulseStep t p leg s
  | .referenceStarvation t p leg => Sys2Proof.Machine.execReferenceStarvation t p leg s
  | .safeStateStep2 t p => Sys2Proof.Machine.execSafeStateStep2 t p s
  | .sequencingEnd t p => Sys2Proof.Machine.execSequencingEnd t p s
  | .downlinkFrame t p n => Sys2Proof.Machine.execDownlinkFrame t p n s
  | .uplinkFrame t p n bad w => Sys2Proof.Machine.execUplinkFrame t p n bad w s
  | .l2WindowEnd t p => Sys2Proof.Machine.execL2WindowEnd t p s
  | .linkLost t p n => Sys2Proof.Machine.execLinkLost t p n s
  | .trainingFrame t p n x => Sys2Proof.Machine.execTrainingFrame t p n x s
  | .trainingFailure t p n => Sys2Proof.Machine.execTrainingFailure t p n s
  | .trainingRetry t p n => Sys2Proof.Machine.execTrainingRetry t p n s
  | .gateUnitResponse t p n code payload => Sys2Proof.Machine.execGateUnitResponse t p n code payload s
  | .messageTimeout t p n => Sys2Proof.Machine.execMessageTimeout t p n s
  | .tripiChange t p x => Sys2Proof.Machine.execTripiChange t p x s
  | .thermalTrip t p => Sys2Proof.Machine.execThermalTrip t p s
  | .comparatorSelfTestLevel t p outside => Sys2Proof.Machine.execComparatorSelfTestLevel t p outside s
  | .slotSample t p x => Sys2Proof.Machine.execSlotSample t p x s
  | .frameRestart t p => Sys2Proof.Machine.execFrameRestart t p s
  | .comparatorActed t p x => Sys2Proof.Machine.execComparatorActed t p x s
  | .blankingEnd t p k => Sys2Proof.Machine.execBlankingEnd t p k s
  | .settlingEnd t p => Sys2Proof.Machine.execSettlingEnd t p s
  | .inputTestLevel t p k level => Sys2Proof.Machine.execInputTestLevel t p k level s
  | .pathMOutput t p x => Sys2Proof.Machine.execPathMOutput t p x s
  | .meteringCycleComplete t p ends => Sys2Proof.Machine.execMeteringCycleComplete t p ends s
  | .sampledValueInstant t p k => Sys2Proof.Machine.execSampledValueInstant t p k s
  | .svFrameSend t p => Sys2Proof.Machine.execSvFrameSend t p s
  | .svlost t p => Sys2Proof.Machine.execSvlost t p s
  | .captureTimeTrigger t p => Sys2Proof.Machine.execCaptureTimeTrigger t p s
  | .fireEdge t p falling => Sys2Proof.Machine.execFireEdge t p falling s
  | .firePulseEnd t p => Sys2Proof.Machine.execFirePulseEnd t p s
  | .armEdge t p => Sys2Proof.Machine.execArmEdge t p s
  | .sluiceCheck t p n => Sys2Proof.Machine.execSluiceCheck t p n s
  | .sluiceTimedCommit t p n => Sys2Proof.Machine.execSluiceTimedCommit t p n s
  | .sluiceIdleTimeout t p n => Sys2Proof.Machine.execSluiceIdleTimeout t p n s
  | .fieldInputChange t p k => Sys2Proof.Machine.execFieldInputChange t p k s
  | .readbackFault t p x => Sys2Proof.Machine.execReadbackFault t p x s
  | .ilim t p k => Sys2Proof.Machine.execIlim t p k s
  | .therm t p k => Sys2Proof.Machine.execTherm t p k s
  | .thermalRestart t p k => Sys2Proof.Machine.execThermalRestart t p k s
  | .testPulseStart t p k => Sys2Proof.Machine.execTestPulseStart t p k s
  | .testPulseEnd t p k low => Sys2Proof.Machine.execTestPulseEnd t p k low s
  | .lpLoss t p => Sys2Proof.Machine.execLpLoss t p s
  | .lpReturn t p => Sys2Proof.Machine.execLpReturn t p s
  | .laneMessage t p x => Sys2Proof.Machine.execLaneMessage t p x s
  | .laneDisagreement t p => Sys2Proof.Machine.execLaneDisagreement t p s
  | .laneStopped t p => Sys2Proof.Machine.execLaneStopped t p s
  | .parameterCheck t p => Sys2Proof.Machine.execParameterCheck t p s
  | .safetyInputFiltered t p k => Sys2Proof.Machine.execSafetyInputFiltered t p k s
  | .disc t p pair => Sys2Proof.Machine.execDisc t p pair s
  | .stometFrame t p port ip bytes => Sys2Proof.Machine.execStometFrame t p port ip bytes s
  | .comparisonWindowEnd t p => Sys2Proof.Machine.execComparisonWindowEnd t p s
  | .wdog t p => Sys2Proof.Machine.execWdog t p s
  | .networkDown t p port => Sys2Proof.Machine.execNetworkDown t p port s
  | .networkResume t p port => Sys2Proof.Machine.execNetworkResume t p port s
  | .stometTransmit t p => Sys2Proof.Machine.execStometTransmit t p s
  | .enablePathTestStart t p => Sys2Proof.Machine.execEnablePathTestStart t p s
  | .enablePathTestStep t p gen1 gen2 => Sys2Proof.Machine.execEnablePathTestStep t p gen1 gen2 s
  | .testAgeHour t p => Sys2Proof.Machine.execTestAgeHour t p s
  | .passwordLockoutEnd t p => Sys2Proof.Machine.execPasswordLockoutEnd t p s
  | .refclkMissing t p => Sys2Proof.Machine.execRefclkMissing t p s
  | .unlockPll t p => Sys2Proof.Machine.execUnlockPll t p s
  | .refok t p temp => Sys2Proof.Machine.execRefok t p temp s
  | .pllLock t p ok band temp => Sys2Proof.Machine.execPllLock t p ok band temp s
  | .bandSearchRetry t p => Sys2Proof.Machine.execBandSearchRetry t p s
  | .calibrationComplete t p => Sys2Proof.Machine.execCalibrationComplete t p s
  | .hallTimeStrobe t p hallNs => Sys2Proof.Machine.execHallTimeStrobe t p hallNs s
  | .hallLost t p => Sys2Proof.Machine.execHallLost t p s
  | .syncMessage t p x => Sys2Proof.Machine.execSyncMessage t p x s
  | .announceMessage t p x => Sys2Proof.Machine.execAnnounceMessage t p x s
  | .domainLost t p n => Sys2Proof.Machine.execDomainLost t p n s
  | .revert t p => Sys2Proof.Machine.execRevert t p s
  | .holdoverExpiry t p => Sys2Proof.Machine.execHoldoverExpiry t p s
  | .peerDelayMeasurement t p port delayNs => Sys2Proof.Machine.execPeerDelayMeasurement t p port delayNs s
  | .pdelayReq t port bytes => Sys2Proof.Machine.execPdelayReq t port bytes s
  | .ppsOutput t p => Sys2Proof.Machine.execPpsOutput t p s
  | .ppsPulseEnd t p => Sys2Proof.Machine.execPpsPulseEnd t p s
  | .ppsIn t p => Sys2Proof.Machine.execPpsIn t p s
  | .commandPacket t src prp bytes => Sys2Proof.Machine.execCommandPacket t src prp bytes s
  | .arpRequest t port prp target senderIp senderMac => Sys2Proof.Machine.execArpRequest t port prp target senderIp senderMac s
  | .icmpEcho t port prp srcIp data => Sys2Proof.Machine.execIcmpEcho t port prp srcIp data s
  | .ethLinkChange t port up => Sys2Proof.Machine.execEthLinkChange t port up s
  | .supervisionFrame t => Sys2Proof.Machine.execSupervisionFrame t s
  | .spiStatus t => Sys2Proof.Machine.execSpiStatus t s
  | .spiWrite t len bytes => Sys2Proof.Machine.execSpiWrite t len bytes s
  | .spiRead t clocked => Sys2Proof.Machine.execSpiRead t clocked s
  | .commandDelivery t tgt => Sys2Proof.Machine.execCommandDelivery t tgt s
  | .targetReply t tgt => Sys2Proof.Machine.execTargetReply t tgt s
  | .replyTimeout t tgt => Sys2Proof.Machine.execReplyTimeout t tgt s
  | .deliveryTimeout t tgt => Sys2Proof.Machine.execDeliveryTimeout t tgt s
  | .mailboxStuck t p q => Sys2Proof.Machine.execMailboxStuck t p q s
  | .sessionTimeout t idx => Sys2Proof.Machine.execSessionTimeout t idx s
  | .tokenLapse t k => Sys2Proof.Machine.execTokenLapse t k s
  | .ceWatchdog t p => Sys2Proof.Machine.execCeWatchdog t p s
  | .seWatchdog t p => Sys2Proof.Machine.execSeWatchdog t p s
  | .eccDoubleError t p x => Sys2Proof.Machine.execEccDoubleError t p x s
  | .engineRestartComplete t p ce => Sys2Proof.Machine.execEngineRestartComplete t p ce s
  | .engineHalt t p e => Sys2Proof.Machine.execEngineHalt t p e s
  | .engineRelease t p ce => Sys2Proof.Machine.execEngineRelease t p ce s
  | .vaonRise t => Sys2Proof.Machine.execVaonRise t s
  | .railLoss t r => Sys2Proof.Machine.execRailLoss t r s
  | .brownOut t p vdd => Sys2Proof.Machine.execBrownOut t p vdd s
  | .polderResetRelease t p => Sys2Proof.Machine.execPolderResetRelease t p s
  | .bootComplete t p => Sys2Proof.Machine.execBootComplete t p s
  | .bootfail t p => Sys2Proof.Machine.execBootfail t p s
  | .fwTrialTimeout t p => Sys2Proof.Machine.execFwTrialTimeout t p s
  | .flashEraseComplete t p => Sys2Proof.Machine.execFlashEraseComplete t p s
  | .wakeComplete t p => Sys2Proof.Machine.execWakeComplete t p s
  | .watchSample t k code => Sys2Proof.Machine.execWatchSample t k code s
  | .ruleEvaluation t => Sys2Proof.Machine.execRuleEvaluation t s
  | .heartbeatRead t p => Sys2Proof.Machine.execHeartbeatRead t p s
  | .hblost t p => Sys2Proof.Machine.execHblost t p s
  | .guardTimeout t p => Sys2Proof.Machine.execGuardTimeout t p s
  | .actionDelayEnd t p => Sys2Proof.Machine.execActionDelayEnd t p s
  | .nvWrite t n => Sys2Proof.Machine.execNvWrite t n s
  | .nvWriteComplete t n good => Sys2Proof.Machine.execNvWriteComplete t n good s
  | .hallResetRelease t => Sys2Proof.Machine.execHallResetRelease t s
  | .correctionSlew t p => Sys2Proof.Machine.execCorrectionSlew t p s
  | .timerMidpointReload t p leg => Sys2Proof.Machine.execTimerMidpointReload t p leg s
  | .extest t x => Sys2Proof.Machine.execExtest t x s
  | .comparatorInside t p x => Sys2Proof.Machine.execComparatorInside t p x s
  | .rawInputChange t p k high => Sys2Proof.Machine.execRawInputChange t p k high s

end Sys2Proof.Machine
end

