-- ==== Sys2Proof/Safety.lean ====
section
/-!
DEFINITION. The terms the statements use: when a polder takes commands and events, the state that an event leaves, what a basic command
commits, the polder that a command belongs to, and what counts as a sound state of the device.
-/
namespace Sys2Proof.Machine

/-! ### Where a command can act -/

/-- Device time at an event of instant `t`. -/
def State.clock (s : State) (t : Nat) : Nat := max s.now t

/-- Polder `i` exists, is awake and runs its firmware: its functions have events. -/
def State.runs (s : State) (i : PolderId) : Prop := Part.has s.part i = true ∧ awake (s.pol i) = true ∧ rescue (s.pol i) = false

/-- Polder `i` takes command `c` of opcode `op` (R17, R22, R452): available, its SE runs, the payload has a length of the card, the regime is one
of the card, and in rescue the card is one that rescue accepts. -/
def State.takes (s : State) (i : PolderId) (op : Nat) (c : Cmd) : Prop :=
  unavail s i = none ∧ seState (s.pol i) = Eng.run ∧
    ∃ k, cardOf op = some k ∧ k.len.ok c.payload = true ∧ (rescue (s.pol i) = true → k.rescue = true) ∧
      k.regimes.contains (regime (s.pol i)) = true

/-- The state after an event at instant `t` that leaves polder `i` as `q`: what follows from `q` by itself has settled (comparators, trip sources,
links, safe pulse block), and what was handed over has reached the Hall. -/
def State.after (s : State) (t : Nat) (i : PolderId) (q : Polder) : State :=
  collect (s.clock t) ((s.at' t).setPol i (polish (s.clock t) q))

/-- The state after an event at instant `t` that leaves the device as `y`. -/
def State.leaves (s : State) (t : Nat) (y : State) : State := collect (s.clock t) y

/-- Only time has passed. -/
def State.waited (s : State) (t : Nat) : State := s.leaves t (s.at' t)

/-- Row `c` completes: it leaves polder `i` as `q`. -/
def Does (c : Instr) (s : State) (t : Nat) (i : PolderId) (q : Polder) : Prop := exec c s = .next (s.after t i q)

/-- Row `c` completes: it leaves the device as `y`. -/
def DoesAll (c : Instr) (s : State) (t : Nat) (y : State) : Prop := exec c s = .next (s.leaves t y)

/-- Row `c`, a frame that came on `port`, completes: every awake polder's network counts the frame (R357), and it leaves polder `i` as `q`. -/
def DoesHeard (c : Instr) (s : State) (t port : Nat) (i : PolderId) (q : Polder) : Prop :=
  DoesAll c s t ((portHeard (s.clock t) port (s.at' t)).setPol i (polish (s.clock t) q))

/-- Command `c` completes with the reply `r` and no other effect at its polder. -/
def Answers (k : Instr) (s : State) (t : Nat) (i : PolderId) (op : Nat) (c : Cmd) (r : Reply) : Prop :=
  Does k s t i (answer (s.pol i) op c r)

/-- An event of instant `t` finds polder `i` as `p`, with its functions running, at device time `now`. -/
def Runs (s : State) (t : Nat) (i : PolderId) (now : Nat) (p : Polder) : Prop := s.runs i ∧ now = s.clock t ∧ p = s.pol i

/-- Command `c` of opcode `op` at instant `t` finds polder `i` as `p`, ready to take it, at device time `now`. -/
def Takes (s : State) (t : Nat) (i : PolderId) (op : Nat) (c : Cmd) (now : Nat) (p : Polder) : Prop :=
  s.takes i op c ∧ now = s.clock t ∧ p = s.pol i

/-! ### Basic commands that write through a sluice (R83) -/

/-- The polder with sluice `n` opened at `now` for session `sess` and the entries `l` staged in it (R274, R275). -/
def Polder.holding (p : Polder) (now sess n : Nat) (l : List (Nat × Word × Word)) : Polder :=
  let q := setSlu p n { st := .opened, owner := sess, lastUse := now, reason := (slu p n).reason, entries := stampFrom p.sts.stamp l }
  { q with sts := { q.sts with stamp := p.sts.stamp + l.length } }

/-- What the sluice rules ask of a polder and of the entries `l`, for a commit at `now` through sluice `n`, beyond the ranges of the command's own card:
`n` is the lowest free sluice (R274); there are at most 64 entries (R277), each in its register's range and in no register that the regime bars (R275,
R276); no other sluice has a commit scheduled for this very cycle to one of their registers (R283); the limits table holds over the registers with the
entries in them (R280); and none orders an output that the regime machine has (R92). -/
def Polder.sluiceTakes (p : Polder) (now : Nat) (l : List (Nat × Word × Word)) (n : Nat) : Prop :=
  sluFree p = some n ∧ l.length ≤ 64 ∧ stageStatus p [] (stampFrom p.sts.stamp l) = Status.ok ∧
    (∀ k < 8, (slu p k).st = .scheduled ∨ (slu p k).st = .check → commitCycle p now (slu p k).commitAt = tblAt p.tim now / Sys2Proof.Machine.cyc →
      ∀ e ∈ (slu p k).entries, ∀ w ∈ l, w.1 ≠ e.off) ∧
    crossOk p (withEntries p (stampFrom p.sts.stamp l)) = true ∧ 
    ∀ w ∈ l, w.1 ≠ A.FIO_DOCMD ∨ bitsOf w.2.1 3 0 &&& assigned (rd (withEntries p (stampFrom p.sts.stamp l)) A.PCT_REGCFG) = 0

/-- The sluice rules take the entries that the fields `l` make, each of which has room in its bits. -/
def Polder.admits (p : Polder) (now : Nat) (l : List Item) (n : Nat) : Prop := l.all Item.fits = true ∧ p.sluiceTakes now (entriesOf l) n

/-- What an immediate commit of the entries `l`, staged for session `sess`, makes of polder `p`; `req` is the command that makes a regime request. -/
def Polder.committed (p : Polder) (now sess n : Nat) (l : List (Nat × Word × Word)) (req : Option CmdRef := none) : Polder :=
  sluCommit now n (presented p now) req (p.holding now sess n l)

/-- Setting command `k` commits the fields `l` and answers OK, in every state whose sluices take them: a condition on the state and the fields alone. -/
def Commits (k : Instr) (s : State) (t : Nat) (i : PolderId) (op : Nat) (c : Cmd) (l : List Item) : Prop :=
  ∀ n, (s.pol i).admits (s.clock t) l n → Does k s t i (answer ((s.pol i).committed (s.clock t) c.sess n (entriesOf l)) op c (okWith []))

/-- Staging refuses the fields `l` with RANGE: one has no room in its bits, or a register's rules refuse its value (R9, R83). -/
def Polder.outOfRange (p : Polder) (now sess : Nat) (l : List Item) : Prop :=
  l.all Item.fits = false ∨ ∃ n q, sluFree p = some n ∧ sluStage now n (entriesOf l) (sluOpen now n sess p) = (Status.range, q)

/-- Setting command `k` commits the fields `l`, and where a value of theirs lies outside its register's range at staging it is refused whole. -/
def Sets (k : Instr) (s : State) (t : Nat) (i : PolderId) (op : Nat) (c : Cmd) (l : List Item) : Prop :=
  Commits k s t i op c l ∧ ((s.pol i).outOfRange (s.clock t) c.sess l → Answers k s t i op c (bare Status.range))

/-! ### Commands of the Hall and of the Dikehouse, direct accesses, monitor lines -/

/-- The Hall takes command `c` of opcode `op` from session `x`. -/
def State.hears (s : State) (op : Nat) (c : Cmd) (x : Session) : Prop :=
  s.hall.up = true ∧ sessOf s.hall c.sess = some x ∧ ∃ k, cardOf op = some k ∧ k.len.ok c.payload = true

/-- Command `c` of session `x` completes at the Hall: it leaves the device as `y`, and the reply `r` of target `tgt` goes out. -/
def HallReplies (k : Instr) (s : State) (t tgt op : Nat) (c : Cmd) (x : Session) (r : Reply) (y : State) : Prop :=
  DoesAll k s t (sendReply (s.clock t) x.src ⟨tgt, c.sess, op, c.seq, r.status, r.detail, r.payload⟩ y)

/-- The Dikehouse takes command `c` of opcode `op`. -/
def State.dkhTakes (s : State) (op : Nat) (c : Cmd) : Prop := s.dkh.up = true ∧ ∃ k, cardOf op = some k ∧ k.len.ok c.payload = true

/-- Command `c` completes at the Dikehouse with the reply `r` and no other effect. -/
def DkhAnswers (k : Instr) (s : State) (t op : Nat) (c : Cmd) (r : Reply) : Prop := DoesAll k s t (dkhReply op c.sess c.seq r (s.at' t))

/-- Master `m`, which is not a monitor, makes an access at instant `t` in the window of polder `i`, which stands as `p`, at device time `now`. -/
def Accesses (s : State) (t : Nat) (i : PolderId) (m : Master) (now : Nat) (p : Polder) : Prop :=
  Part.has s.part i = true ∧ awake (s.pol i) = true ∧ live s m = true ∧ (∀ j, m ≠ .mon j) ∧ now = s.clock t ∧ p = s.pol i

/-- A line of the open monitor session of polder `i` that needs level `need` and has it finds the polder as `p`, its input noted, at device
time `now`. -/
def Types (s : State) (t : Nat) (i : PolderId) (need now : Nat) (p : Polder) : Prop :=
  Part.has s.part i = true ∧ monServed (s.pol i) = true ∧ monActive (s.pol i) = true ∧ need ≤ monLevel (s.pol i) ∧ now = s.clock t ∧
    p = modMon (fun m => { m with lastInput := s.clock t }) (s.pol i)

/-! ### Sound states -/

/-- Nothing stands in a target's hand-over. -/
def State.outEmpty (s : State) : Prop := s.polA.out = [] ∧ s.polB.out = [] ∧ s.polC.out = [] ∧ s.polD.out = [] ∧ s.dkh.out = []

/-- At most eight sessions, each with its own index below eight, and every token that is held belongs to an open session (R406, R409). -/
def State.sessionsOk (s : State) : Prop :=
  (s.hall.sessions.map (·.idx)).Nodup ∧ (∀ x ∈ s.hall.sessions, x.idx < 8) ∧
    (∀ k l, vget s.hall.tokens k none = some l → ∃ x ∈ s.hall.sessions, x.idx = l.holder)

/-! ### The polder that a command belongs to -/

/-- The polder whose own window and functions a row acts on; a monitor acts in its own. -/
def masterHome (m : Master) (p : PolderId) : PolderId := match m with
  | .mon j => j
  | _ => p

/-- The polder that a row belongs to; none for rows of the Hall, of the Dikehouse, of frames that every polder's networks count, and of accesses that name an
address or a target. -/
def homeOf : Instr → Option PolderId
  | .setBases _ p _ | .setInertia _ p _ | .setDroops _ p _ | .setVoltageLaw _ p _ | .setLimits _ p _ | .setAnchor _ p _
  | .setPoints _ p _ | .getSwing _ p _ | .requestRegime _ p _ | .breaker _ p _ | .setStartSync _ p _ | .setRide _ p _
  | .setEnvelope _ p _ | .getRegime _ p _ | .setEmbankment _ p _ | .setBand _ p _ | .setPrediction _ p _ | .setNpBalance _ p _
  | .getEmbankment _ p _ | .setModulator _ p _ | .setBootstrap _ p _ | .setPulseShape _ p _ | .setCarrier _ p _ | .getModulator _ p _
  | .setLearner _ p _ | .learnerStore _ p _ | .getLearner _ p _ | .setGallery _ p _ | .galleryControl _ p _ | .readGallery _ p _
  | .setAcquisition _ p _ | .setComparator _ p _ | .runInputTest _ p _ | .getAcquisition _ p _ | .setFilters _ p _ | .getMetering _ p _
  | .setCapture _ p _ | .captureControl _ p _ | .readCapture _ p _ | .sluiceOpen _ p _ | .sluiceStage _ p _ | .sluiceCommit _ p _
  | .sluiceAbort _ p _ | .getSluice _ p _ | .setStair _ p _ | .getStairs _ p _ | .setDike _ p _ | .setL1 _ p _ | .clearTrips _ p _
  | .trip _ p _ | .getDike _ p _ | .setGateLink _ p _ | .gateLinkControl _ p _ | .runSelfTest _ p _ | .getGateLinks _ p _
  | .setFieldInputs _ p _ | .setFieldOutputs _ p _ | .setOutputs _ p _ | .getFieldIo _ p _ | .getFieldEvents _ p _
  | .clearFieldDiag _ p _ | .setSafety _ p _ | .confirmSafety _ p _ | .safetyAck _ p _ | .getSafety _ p _ | .setSafetyPassword _ p _
  | .readSafetyLog _ p _ | .setClock _ p _ | .getClock _ p _ | .setTimeSources _ p _ | .getTime _ p _ | .setPps _ p _ | .setTime _ p _
  | .getNv _ p _ | .fwSlot _ p _ | .fwActivate _ p _ | .fwConfirm _ p _ | .getFirmware _ p _ | .setPerformance _ p _ | .sleep _ p _
  | .setLog _ p _ | .getEngines _ p _ | .setMonitor _ p _ | .monitorHelp _ p | .monitorId _ p | .monitorStat _ p | .unlock _ p
  | .unlockResponse _ p _ | .lock _ p | .quit _ p | .rd _ p _ _ | .monitorLog _ p _ _ | .dumpGal _ p _ _ | .dumpCap _ p _ _ | .eng _ p
  | .wr _ p _ _ | .monitorTrip _ p _ | .monitorClear _ p _ | .monitorDo _ p _ _ | .monitorRestart _ p | .monitorRateSet _ p _
  | .monitorSessionTimeout _ p | .monitorLockoutEnd _ p | .lockAcquire _ p _ _ | .outputOrder _ p _ | .dkhreqTrip _ p | .dkhreqStop _ p _
  | .swingUpdate _ p _ | .dwellEnd _ p _ | .anchorBlock _ p | .anchorUnblock _ p | .coefficientSetComplete _ p _ | .sweepEnd _ p
  | .learnerAutosave _ p | .regimeEvaluation _ p | .prechargeTimeout _ p | .energiseTimeout _ p | .energiseComplete _ p
  | .syncTimeout _ p | .closeCommand _ p | .breakerCloseDelay _ p | .brkTimeout _ p | .backoffWaitEnd _ p | .collision _ p
  | .deadBusChange _ p | .rideIn _ p | .rideOut _ p | .stopTmo _ p | .fastSample _ p _ | .embankmentDecision _ p _ | .levelChange _ p _
  | .deadTimeEnd _ p _ | .timerMove _ p _ | .periodBoundary _ p | .centreReload _ p | .refreshPulse _ p _ | .refreshPulseStep _ p _
  | .referenceStarvation _ p _ | .safeStateStep2 _ p | .sequencingEnd _ p | .downlinkFrame _ p _ | .uplinkFrame _ p _ _ _
  | .l2WindowEnd _ p | .linkLost _ p _ | .trainingFrame _ p _ _ | .trainingFailure _ p _ | .trainingRetry _ p _
  | .gateUnitResponse _ p _ _ _ | .messageTimeout _ p _ | .tripiChange _ p _ | .thermalTrip _ p | .comparatorSelfTestLevel _ p _
  | .slotSample _ p _ | .frameRestart _ p | .comparatorActed _ p _ | .blankingEnd _ p _ | .settlingEnd _ p | .inputTestLevel _ p _ _
  | .pathMOutput _ p _ | .meteringCycleComplete _ p _ | .sampledValueInstant _ p _ | .svFrameSend _ p | .svlost _ p
  | .captureTimeTrigger _ p | .fireEdge _ p _ | .firePulseEnd _ p | .armEdge _ p | .sluiceCheck _ p _ | .sluiceTimedCommit _ p _
  | .sluiceIdleTimeout _ p _ | .fieldInputChange _ p _ | .readbackFault _ p _ | .ilim _ p _ | .therm _ p _ | .thermalRestart _ p _
  | .testPulseStart _ p _ | .testPulseEnd _ p _ _ | .lpLoss _ p | .lpReturn _ p | .laneMessage _ p _ | .laneDisagreement _ p
  | .laneStopped _ p | .parameterCheck _ p | .safetyInputFiltered _ p _ | .disc _ p _ | .comparisonWindowEnd _ p
  | .wdog _ p | .networkDown _ p _ | .networkResume _ p _ | .stometTransmit _ p | .enablePathTestStart _ p | .enablePathTestStep _ p _ _
  | .testAgeHour _ p | .passwordLockoutEnd _ p | .refclkMissing _ p | .unlockPll _ p | .refok _ p _ | .pllLock _ p _ _ _
  | .bandSearchRetry _ p | .calibrationComplete _ p | .hallTimeStrobe _ p _ | .hallLost _ p
  | .domainLost _ p _ | .revert _ p | .holdoverExpiry _ p | .ppsOutput _ p | .ppsPulseEnd _ p
  | .ppsIn _ p | .mailboxStuck _ p _ | .ceWatchdog _ p | .seWatchdog _ p | .engineRestartComplete _ p _
  | .engineHalt _ p _ | .engineRelease _ p _ | .brownOut _ p _ | .polderResetRelease _ p | .bootComplete _ p | .bootfail _ p
  | .fwTrialTimeout _ p | .flashEraseComplete _ p | .wakeComplete _ p | .heartbeatRead _ p | .hblost _ p | .guardTimeout _ p
  | .actionDelayEnd _ p | .correctionSlew _ p | .timerMidpointReload _ p _ | .comparatorInside _ p _
  | .rawInputChange _ p _ _ => some p
  | .extest _ x => some x.pol
  | .eccDoubleError _ p x => if x.region = .hallPackets ∨ x.region = .watchCore then none else some p
  | .measurementGroupLatch _ p m | .meterLatch _ p m | .timeLatch _ p m | .mailboxPush _ p m _ _ _ | .mailboxPop _ p m _
  | .lockRelease _ p m _ | .qpop _ p m _ | .galleryArm _ p m | .galleryForce _ p m | .galleryStop _ p m | .captureArm _ p m
  | .captureForce _ p m | .captureStop _ p m | .learnerSave _ p m | .learnerRestore _ p m | .learnerClear _ p m | .learnerErase _ p m
  | .learnerTableWrite _ p m _ _ | .cntclrEmb _ p m | .swtrip _ p m | .dikClr _ p m _ | .bufferedWrite _ p m _ _ => some (masterHome m p)
  | .hello _ _ | .bye _ _ | .tokenTake _ _ | .tokenRelease _ _ | .subscribe _ _ | .getNotifications _ _ | .setNetwork _ _ | .setSv _ _
  | .setKey _ _ | .getHall _ _ | .readWords _ _ _ | .writeWords _ _ _ | .polderPower _ _ | .setWatch _ _ | .setRule _ _
  | .setSupervision _ _ | .getDikehouse _ _ | .readLog _ _ _ | .directRegisterWrite _ _ _ _ | .applyGo _ | .applyDiscard _ | .cntclr _
  | .dkhSave _ | .wakeclr _ | .pdelayReq _ _ _ | .commandPacket _ _ _ _ | .arpRequest _ _ _ _ _ _ | .icmpEcho _ _ _ _ _
  | .ethLinkChange _ _ _ | .supervisionFrame _ | .spiStatus _ | .spiWrite _ _ _ | .spiRead _ _ | .commandDelivery _ _ | .targetReply _ _
  | .replyTimeout _ _ | .deliveryTimeout _ _ | .sessionTimeout _ _ | .tokenLapse _ _ | .vaonRise _ | .railLoss _ _ | .watchSample _ _ _
  | .ruleEvaluation _ | .nvWrite _ _ | .nvWriteComplete _ _ _ | .hallResetRelease _ | .stometFrame _ _ _ _ _ | .syncMessage _ _ _
  | .announceMessage _ _ _ | .peerDelayMeasurement _ _ _ _ => none

/-- The polder at which a row happens: that of `homeOf`; of a frame the polder it is for; of a write of NV a polder's store; of a direct write of a monitor
its own. -/
def namedPolder : Instr → Option PolderId
  | .stometFrame _ p _ _ _ | .syncMessage _ p _ | .announceMessage _ p _ | .peerDelayMeasurement _ p _ _ => some p
  | .nvWrite _ (.polder p) | .nvWriteComplete _ (.polder p) _ => some p
  | .directRegisterWrite _ (.mon p) _ _ => some p
  | c => homeOf c

/-- The instant, polder, opcode and command of a row that is a command to a polder. -/
def polderCommand : Instr → Option (Nat × PolderId × Nat × Cmd)
  | .setBases t p c => some (t, p, Op.setBases, c)
  | .setInertia t p c => some (t, p, Op.setInertia, c)
  | .setDroops t p c => some (t, p, Op.setDroops, c)
  | .setVoltageLaw t p c => some (t, p, Op.setVoltageLaw, c)
  | .setLimits t p c => some (t, p, Op.setLimits, c)
  | .setAnchor t p c => some (t, p, Op.setAnchor, c)
  | .setPoints t p c => some (t, p, Op.setPoints, c)
  | .getSwing t p c => some (t, p, Op.getSwing, c)
  | .requestRegime t p c => some (t, p, Op.requestRegime, c)
  | .breaker t p c => some (t, p, Op.breaker, c)
  | .setStartSync t p c => some (t, p, Op.setStartSync, c)
  | .setRide t p c => some (t, p, Op.setRide, c)
  | .setEnvelope t p c => some (t, p, Op.setEnvelope, c)
  | .getRegime t p c => some (t, p, Op.getRegime, c)
  | .setEmbankment t p c => some (t, p, Op.setEmbankment, c)
  | .setBand t p c => some (t, p, Op.setBand, c)
  | .setPrediction t p c => some (t, p, Op.setPrediction, c)
  | .setNpBalance t p c => some (t, p, Op.setNpBalance, c)
  | .getEmbankment t p c => some (t, p, Op.getEmbankment, c)
  | .setModulator t p c => some (t, p, Op.setModulator, c)
  | .setBootstrap t p c => some (t, p, Op.setBootstrap, c)
  | .setPulseShape t p c => some (t, p, Op.setPulseShape, c)
  | .setCarrier t p c => some (t, p, Op.setCarrier, c)
  | .getModulator t p c => some (t, p, Op.getModulator, c)
  | .setLearner t p c => some (t, p, Op.setLearner, c)
  | .learnerStore t p c => some (t, p, Op.learnerStore, c)
  | .getLearner t p c => some (t, p, Op.getLearner, c)
  | .setGallery t p c => some (t, p, Op.setGallery, c)
  | .galleryControl t p c => some (t, p, Op.galleryControl, c)
  | .readGallery t p c => some (t, p, Op.readGallery, c)
  | .setAcquisition t p c => some (t, p, Op.setAcquisition, c)
  | .setComparator t p c => some (t, p, Op.setComparator, c)
  | .runInputTest t p c => some (t, p, Op.runInputTest, c)
  | .getAcquisition t p c => some (t, p, Op.getAcquisition, c)
  | .setFilters t p c => some (t, p, Op.setFilters, c)
  | .getMetering t p c => some (t, p, Op.getMetering, c)
  | .setCapture t p c => some (t, p, Op.setCapture, c)
  | .captureControl t p c => some (t, p, Op.captureControl, c)
  | .readCapture t p c => some (t, p, Op.readCapture, c)
  | .sluiceOpen t p c => some (t, p, Op.sluiceOpen, c)
  | .sluiceStage t p c => some (t, p, Op.sluiceStage, c)
  | .sluiceCommit t p c => some (t, p, Op.sluiceCommit, c)
  | .sluiceAbort t p c => some (t, p, Op.sluiceAbort, c)
  | .getSluice t p c => some (t, p, Op.getSluice, c)
  | .setStair t p c => some (t, p, Op.setStair, c)
  | .getStairs t p c => some (t, p, Op.getStairs, c)
  | .setDike t p c => some (t, p, Op.setDike, c)
  | .setL1 t p c => some (t, p, Op.setL1, c)
  | .clearTrips t p c => some (t, p, Op.clearTrips, c)
  | .trip t p c => some (t, p, Op.trip, c)
  | .getDike t p c => some (t, p, Op.getDike, c)
  | .setGateLink t p c => some (t, p, Op.setGateLink, c)
  | .gateLinkControl t p c => some (t, p, Op.gateLinkControl, c)
  | .runSelfTest t p c => some (t, p, Op.runSelfTest, c)
  | .getGateLinks t p c => some (t, p, Op.getGateLinks, c)
  | .setFieldInputs t p c => some (t, p, Op.setFieldInputs, c)
  | .setFieldOutputs t p c => some (t, p, Op.setFieldOutputs, c)
  | .setOutputs t p c => some (t, p, Op.setOutputs, c)
  | .getFieldIo t p c => some (t, p, Op.getFieldIo, c)
  | .getFieldEvents t p c => some (t, p, Op.getFieldEvents, c)
  | .clearFieldDiag t p c => some (t, p, Op.clearFieldDiag, c)
  | .setSafety t p c => some (t, p, Op.setSafety, c)
  | .confirmSafety t p c => some (t, p, Op.confirmSafety, c)
  | .safetyAck t p c => some (t, p, Op.safetyAck, c)
  | .getSafety t p c => some (t, p, Op.getSafety, c)
  | .setSafetyPassword t p c => some (t, p, Op.setSafetyPassword, c)
  | .readSafetyLog t p c => some (t, p, Op.readSafetyLog, c)
  | .setClock t p c => some (t, p, Op.setClock, c)
  | .getClock t p c => some (t, p, Op.getClock, c)
  | .setTimeSources t p c => some (t, p, Op.setTimeSources, c)
  | .getTime t p c => some (t, p, Op.getTime, c)
  | .setPps t p c => some (t, p, Op.setPps, c)
  | .setTime t p c => some (t, p, Op.setTime, c)
  | .getNv t p c => some (t, p, Op.getNv, c)
  | .fwSlot t p c => some (t, p, Op.fwSlot, c)
  | .fwActivate t p c => some (t, p, Op.fwActivate, c)
  | .fwConfirm t p c => some (t, p, Op.fwConfirm, c)
  | .getFirmware t p c => some (t, p, Op.getFirmware, c)
  | .setPerformance t p c => some (t, p, Op.setPerformance, c)
  | .sleep t p c => some (t, p, Op.sleep, c)
  | .setLog t p c => some (t, p, Op.setLog, c)
  | .getEngines t p c => some (t, p, Op.getEngines, c)
  | .setMonitor t p c => some (t, p, Op.setMonitor, c)
  | _ => none

end Sys2Proof.Machine
end

