-- ==== Sys2Proof/Certificates/Slice0/Obligations.lean ====
section
/-!
DEFINITION. The statements for the provers. In them `Runs s t i now p` says that polder `i` is awake outside rescue, that device time at instant `t` is
`now` and that the polder stands as `p`; `Does k s t i q` says that row `k` completes and leaves the polder as `q`, from which what follows at once
has settled; every other polder, the sessions and the tokens stay as they are (`Obligations.EventFrame`).
-/
open Sys2Proof Sys2Proof.Machine

/-! ### The queue, time and the device as a whole -/

/-- A step carries out the command at the front of the queue, on the state with the rest of the queue. -/
def Obligations.StepRunsFront : Prop :=
  ∀ (c : Instr) (l : List Instr) (s : State), step { s with pending := c :: l } = exec c { s with pending := l }

/-- The model's choices at a polder that takes commands (notes/assumptions/1.md, 2.md and 24.md): an empty queue idles; while the SE of its polder
does not run no command is taken and only time passes; a payload of another length than the card's is refused with LENGTH before all else; and in
rescue a card that rescue does not accept is refused with STATE. -/
def Obligations.IdleQueueHaltedSeAndLengths : Prop :=
  (∀ s : State, s.pending = [] → step s = .next s) ∧
  ∀ (k : Instr) (s : State) (t : Nat) (i : PolderId) (op : Nat) (c : Cmd), polderCommand k = some (t, i, op, c) → unavail s i = none →
    (seState (s.pol i) ≠ Eng.run → exec k s = .next (s.waited t)) ∧
      ∀ d, seState (s.pol i) = Eng.run → cardOf op = some d →
        (d.len.ok c.payload = false → Answers k s t i op c (bare Status.length)) ∧
          (d.len.ok c.payload = true → rescue (s.pol i) = true → d.rescue = false → Answers k s t i op c (bare Status.state))

/-- No command changes the queue: after a step its rest is waiting. Time never runs back, and the part stays the same (R2). Nothing that a target
hands over stays behind: after every command the outboxes are empty. -/
def Obligations.StepKeepsQueuePartAndTime : Prop :=
  (∀ (c : Instr) (l : List Instr) (s y : State), step { s with pending := c :: l } = .next y →
    y.pending = l ∧ y.part = s.part ∧ s.now ≤ y.now) ∧
  (∀ (c : Instr) (s y : State), exec c s = .next y → y.outEmpty)

/-- Sessions and tokens stay sound at every step (R406, R409): at most one session to an index below eight, and every token that is held is held by
an open session. -/
def Obligations.SessionsStaySound : Prop := ∀ s y : State, s.sessionsOk → step s = .next y → y.sessionsOk

/-- After reset no session is open and no token is held. -/
def Obligations.SessionsSoundAtReset : Prop :=
  State.reset.sessionsOk ∧ State.reset.hall.sessions = [] ∧ ∀ k, vget State.reset.hall.tokens k none = none

/-- R7: a command or event of one polder leaves every register, memory and inner state of every other polder as it was. What a polder had handed
over reaches the Hall within the step. -/
def Obligations.OnePolderLeavesTheOthersAlone : Prop :=
  ∀ (c : Instr) (i j : PolderId) (s y : State), homeOf c = some i → j ≠ i → exec c s = .next y →
    y.pol j = { s.pol j with out := [] } ∧ y.hall.tokens = s.hall.tokens

/-- What an event of instant `t` that leaves polder `i` as `q` leaves in the device: the polder as what follows at once from `q`, the other polders,
the tokens, the sessions' indices, the rails, the part and the queue as they were. -/
def Obligations.EventFrame : Prop :=
  ∀ (s : State) (t : Nat) (i : PolderId) (q : Polder),
    (s.after t i q).pol i = { polish (s.clock t) q with out := [] } ∧
      (∀ j, j ≠ i → (s.after t i q).pol j = { s.pol j with out := [] }) ∧ (s.after t i q).now = max s.now t ∧
      (s.after t i q).part = s.part ∧ (s.after t i q).pending = s.pending ∧ (s.after t i q).rails = s.rails ∧
      (s.after t i q).hall.tokens = s.hall.tokens ∧
      (s.after t i q).hall.sessions.map (·.idx) = s.hall.sessions.map (·.idx) ∧ (s.after t i q).hall.up = s.hall.up

/-- Every row completes on a device that has the polder it names: no row is refused, and the one stop is that of an event offered at its polder where
the part lacks it (R2). Commands never stop. -/
def Obligations.EveryRowCompletes : Prop :=
  (∀ (c : Instr) (s : State),
    ((∀ i, namedPolder c = some i → Part.has s.part i = true) → ∃ y, exec c s = .next y) ∧ (∀ r, exec c s ≠ .refused r) ∧
      ∀ f, exec c s = .fault f → ∃ i, namedPolder c = some i ∧ f = .absentPolder i ∧ Part.has s.part i = false ∧ polderCommand c = none) ∧
  ∀ (s : State) (t : Nat) (i : PolderId), Part.has s.part i = false →
    (∀ x, exec (.swingUpdate t i x) s = .fault (.absentPolder i)) ∧ exec (.regimeEvaluation t i) s = .fault (.absentPolder i) ∧
      (∀ n, n < 8 → exec (.sluiceCheck t i n) s = .fault (.absentPolder i)) ∧ exec (.refclkMissing t i) s = .fault (.absentPolder i) ∧
      exec (.ceWatchdog t i) s = .fault (.absentPolder i) ∧ exec (.polderResetRelease t i) s = .fault (.absentPolder i) ∧
      exec (.heartbeatRead t i) s = .fault (.absentPolder i)

/-- Registers after reset: at every offset of every window the word that the register maps give (R32 to R35), with some of them spelled out. -/
def Obligations.RegistersAfterReset : Prop :=
  (∀ i off, rd (State.reset.pol i) off = polReset off) ∧ (∀ off, hrd State.reset.hall off = hallReset off) ∧
    (∀ off, krd State.reset.dkh off = dkhReset off) ∧
    polReset A.SWG_SBASE = 0x001E8480#32 ∧ polReset A.SWG_VBASE = 0x000A8750#32 ∧ polReset A.SWG_INERTIA = 0x04000000#32 ∧
    polReset A.SWG_MP = 0x00A3D70A#32 ∧ polReset A.SWG_ILIM = 0x1199999A#32 ∧ polReset A.SWG_VREF = 0x10000000#32 ∧
    polReset A.SWG_ANCHOR_CTRL = 0x003C0064#32

/-! ### Commands to a polder: what every one of them meets first -/

/-- R22: a command or an expert access to a polder that is OFF, booting, in SLEEP or absent is answered POLDER_UNAVAILABLE with the detail of its
state, nothing executes, and no polder changes. -/
def Obligations.UnavailablePoldersAnswer : Prop :=
  (∀ (k : Instr) (s : State) (t : Nat) (i : PolderId) (op : Nat) (c : Cmd) (d : Nat),
    polderCommand k = some (t, i, op, c) → unavail s i = some d →
      DoesAll k s t (hallSays (s.clock t) i.num op c ⟨Status.unavailable, d, []⟩ (s.at' t)) ∧
        ∀ y, exec k s = .next y → ∀ j, y.pol j = { s.pol j with out := [] }) ∧
  (∀ (s : State) (t : Nat) (i : PolderId) (c : Cmd) (x : Session) (d : Nat), unavail s i = some d →
    (s.hears Op.readWords c x → DoesAll (.readWords t (.polder i) c) s t (hallSays (s.clock t) i.num Op.readWords c ⟨Status.unavailable, d, []⟩ (s.at' t))) ∧
    (s.hears Op.writeWords c x → DoesAll (.writeWords t (.polder i) c) s t (hallSays (s.clock t) i.num Op.writeWords c ⟨Status.unavailable, d, []⟩ (s.at' t)))) ∧
  ∀ (s : State) (i : PolderId), (Part.has s.part i = false → unavail s i = some 1) ∧
    (Part.has s.part i = true → ((s.pol i).power = .off → unavail s i = some 2) ∧ ((s.pol i).power = .booting → unavail s i = some 3) ∧
      ((s.pol i).power = .asleep → unavail s i = some 4))

/-- R17: a command issued in a regime that its card does not list is refused with STATE, and nothing executes. Its payload has a length of its card.
-/
def Obligations.RegimesNotListedAreRefused : Prop :=
  ∀ (k : Instr) (s : State) (t : Nat) (i : PolderId) (op : Nat) (c : Cmd) (d : Card),
    polderCommand k = some (t, i, op, c) → unavail s i = none → seState (s.pol i) = Eng.run → cardOf op = some d →
      d.len.ok c.payload = true → d.regimes.contains (regime (s.pol i)) = false → Answers k s t i op c (bare Status.state)

/-! ### Swing engine and regimes (spec/02, spec/03) -/

/-- The setting commands of the swing engine (R83): each commits the registers that its card names, and answers OK, for every payload whose fields
lie in the ranges of the card. R83: a field outside the range of its card, or a value that converts outside the register's range at staging, makes
the whole command refused with RANGE, and nothing changes but the reply.
A command that commits fields does so in every state in which the sluice rules take
them, a free sluice among them (R274 to R283). -/
def Obligations.SwingSettingsComplete : Prop :=
  (∀ (s : State) (t : Nat) (i : PolderId) (c : Cmd),
    (s.takes i Op.setBases c → byteAt c.payload 8 = 50 ∨ byteAt c.payload 8 = 60 →
      Sets (.setBases t i c) s t i Op.setBases c
        [whole A.SWG_SBASE (u32At c.payload 0), whole A.SWG_VBASE (u32At c.payload 4),
          part F.SWG_CTRL_FNOM (if byteAt c.payload 8 = 60 then 1 else 0),
          whole A.SWG_SCL_I (iPeak (u32At c.payload 0) (u32At c.payload 4) (u32At c.payload 12)),
          whole A.SWG_SCL_V (vPeak (u32At c.payload 4) (u32At c.payload 16)),
          whole A.SWG_SCL_DC (vDc (u32At c.payload 4) (u32At c.payload 20))]) ∧
    (s.takes i Op.setInertia c → 50 ≤ u32At c.payload 0 ∧ u32At c.payload 0 ≤ 20000 → u32At c.payload 4 ≤ 20000 →
      1000 ≤ u32At c.payload 8 ∧ u32At c.payload 8 ≤ 50000 → 50 ≤ u32At c.payload 12 ∧ u32At c.payload 12 ≤ 50000 →
      Sets (.setInertia t i c) s t i Op.setInertia c
        [whole A.SWG_INERTIA (uq24of (u32At c.payload 0) 1000), whole A.SWG_DAMP (uq24of (u32At c.payload 4) 100),
          whole A.SWG_FEBW (u32At c.payload 8), whole A.SWG_TPQ (u32At c.payload 12)]) ∧
    (s.takes i Op.setDroops c → 500 ≤ u32At c.payload 0 ∧ u32At c.payload 0 ≤ 10000 →
      500 ≤ u32At c.payload 4 ∧ u32At c.payload 4 ≤ 20000 →
      Sets (.setDroops t i c) s t i Op.setDroops c
        [whole A.SWG_MP (q28of (u32At c.payload 0) 100000), whole A.SWG_NQ (q28of (u32At c.payload 4) 100000)]) ∧
    (s.takes i Op.setVoltageLaw c → 100 ≤ u32At c.payload 0 ∧ u32At c.payload 0 ≤ 100000 → u32At c.payload 4 ≤ 10000 →
      u32At c.payload 8 ≤ 10000 → u32At c.payload 12 ≤ 4000 → u32At c.payload 16 ≤ 3000 →
      Sets (.setVoltageLaw t i c) s t i Op.setVoltageLaw c
        [whole A.SWG_TV (u32At c.payload 0), whole A.SWG_RV (q28of (u32At c.payload 4) 10000),
          whole A.SWG_XV (q28of (u32At c.payload 8) 10000), whole A.SWG_GV (q28of (u32At c.payload 12) 1000),
          whole A.SWG_BC (q28of (u32At c.payload 16) 10000), part F.SWG_CTRL_VIMP_EN (byteAt c.payload 20 % 2),
          part F.SWG_CTRL_CFF_EN (byteAt c.payload 20 / 2 % 2)]) ∧
    (s.takes i Op.setLimits c → 10000 ≤ u32At c.payload 0 ∧ u32At c.payload 0 ≤ 15000 → u32At c.payload 4 ≤ 6000 →
      100 ≤ u32At c.payload 8 ∧ u32At c.payload 8 ≤ 3000 → byteAt c.payload 12 ≤ 2 → byteAt c.payload 13 ≤ 1 →
      Sets (.setLimits t i c) s t i Op.setLimits c
        [whole A.SWG_ILIM (q28of (u32At c.payload 0) 10000), whole A.SWG_KNEG (uq24of (u32At c.payload 4) 1000),
          whole A.SWG_DFMAX (q28of (u32At c.payload 8) 10000), part F.SWG_CTRL_ILIM_MODE (byteAt c.payload 12),
          part F.SWG_CTRL_NSEQ_EN (byteAt c.payload 13)]) ∧
    (s.takes i Op.setAnchor c → byteAt c.payload 0 ≤ 1 → 10 ≤ u16At c.payload 2 ∧ u16At c.payload 2 ≤ 1000 →
      1 ≤ u16At c.payload 4 ∧ u16At c.payload 4 ≤ 600 → 100 ≤ u32At c.payload 8 ∧ u32At c.payload 8 ≤ 10000 →
      Sets (.setAnchor t i c) s t i Op.setAnchor c
        [part F.SWG_CTRL_ANCHOR_EN (byteAt c.payload 0), part F.SWG_ANCHOR_CTRL_FADE (u16At c.payload 4),
          part F.SWG_ANCHOR_CTRL_BW (u16At c.payload 2), whole A.SWG_ANCHOR_LIM (q28of (u32At c.payload 8) 1000000),
          whole A.SWG_ANCHOR_OFS (u32At c.payload 12)]) ∧
    (∀ l : List Item, s.takes i Op.setPoints c → byteAt c.payload 0 % 16 ≠ 0 →
      l = (((List.range 4).zip [wholeI A.SWG_PREF (roundDiv (i32At c.payload 4 * 268435456) (sBase (s.pol i))),
          wholeI A.SWG_QREF (roundDiv (i32At c.payload 8 * 268435456) (sBase (s.pol i))),
          whole A.SWG_VREF (vLine (vBase (s.pol i)) (u32At c.payload 12)),
          whole A.SWG_FREF (q28of (u32At c.payload 16) (fNom (s.pol i) * 1000))]).filter fun x => (byteAt c.payload 0).testBit x.1).map (·.2) →
      Sets (.setPoints t i c) s t i Op.setPoints c l) ∧
    (s.takes i Op.setPoints c → byteAt c.payload 0 % 16 = 0 → Answers (.setPoints t i c) s t i Op.setPoints c (okWith []))) ∧
  (∀ (s : State) (t : Nat) (i : PolderId) (c : Cmd),
    (s.takes i Op.setBases c → byteAt c.payload 8 ≠ 50 ∧ byteAt c.payload 8 ≠ 60 →
      Answers (.setBases t i c) s t i Op.setBases c (bare Status.range)) ∧
    (s.takes i Op.setInertia c → u32At c.payload 0 < 50 ∨ 20000 < u32At c.payload 0 ∨ 20000 < u32At c.payload 4 ∨ u32At c.payload 8 < 1000 ∨
        50000 < u32At c.payload 8 ∨ u32At c.payload 12 < 50 ∨ 50000 < u32At c.payload 12 →
      Answers (.setInertia t i c) s t i Op.setInertia c (bare Status.range)) ∧
    (s.takes i Op.setDroops c → u32At c.payload 0 < 500 ∨ 10000 < u32At c.payload 0 ∨ u32At c.payload 4 < 500 ∨ 20000 < u32At c.payload 4 →
      Answers (.setDroops t i c) s t i Op.setDroops c (bare Status.range)) ∧
    (s.takes i Op.setVoltageLaw c → u32At c.payload 0 < 100 ∨ 100000 < u32At c.payload 0 ∨ 10000 < u32At c.payload 4 ∨ 10000 < u32At c.payload 8 ∨
        4000 < u32At c.payload 12 ∨ 3000 < u32At c.payload 16 →
      Answers (.setVoltageLaw t i c) s t i Op.setVoltageLaw c (bare Status.range)) ∧
    (s.takes i Op.setLimits c → u32At c.payload 0 < 10000 ∨ 15000 < u32At c.payload 0 ∨ 6000 < u32At c.payload 4 ∨ u32At c.payload 8 < 100 ∨
        3000 < u32At c.payload 8 ∨ 2 < byteAt c.payload 12 ∨ 1 < byteAt c.payload 13 →
      Answers (.setLimits t i c) s t i Op.setLimits c (bare Status.range)) ∧
    (s.takes i Op.setAnchor c → 1 < byteAt c.payload 0 ∨ u16At c.payload 2 < 10 ∨ 1000 < u16At c.payload 2 ∨ u16At c.payload 4 < 1 ∨
        600 < u16At c.payload 4 ∨ u32At c.payload 8 < 100 ∨ 10000 < u32At c.payload 8 →
      Answers (.setAnchor t i c) s t i Op.setAnchor c (bare Status.range)))

/-- What the commit of a setting does to the registers of the swing engine (R69, R280, R284): of entries for plain registers of the swing engine,
`SWG_CTRL` apart, which the sluice rules take and which the CE has not written directly in the same cycle, each is in its register; every other
register of that block is as it was; and the sluice is free with reason 0. -/
def Obligations.CommittedSwingRegisters : Prop :=
  ∀ (p q : Polder) (now sess n : Nat) (l : List Item), p.admits now l n → p.cyc.standing (now / cyc) = [] → q = p.committed now sess n (entriesOf l) →
    (∀ x ∈ l, 0x60010 ≤ x.off ∧ x.off < 0x600A0 ∨ x.off = A.SWG_ANCHOR_CTRL) →
    (∀ x ∈ l, (l.filter fun y => y.off == x.off) = [x]) →
      (∀ x ∈ l, x.hi = 31 → x.lo = 0 → rd q x.off = wordI x.code) ∧
        (∀ off, 0x60010 ≤ off → off < 0x60100 → (∀ x ∈ l, x.off ≠ off) → rd q off = rd p off) ∧
        (slu q n).st = .free ∧ (slu q n).reason = Rsn.committed

/-- R84: GET_SWING latches the measurement group, and answers 44 bytes that begin with P in W and Q in var and hold `SWG_THETA` and `SWG_STAT` of that update.
GET_REGIME answers 40 bytes that begin with `PCT_REGIME` and `PCT_REGEVT`. R82: the latch takes the eleven registers of the measurement group from
the most recent update, and changes no other register. -/
def Obligations.SwingReadsComplete : Prop :=
  (∀ (s : State) (t : Nat) (i : PolderId) (c : Cmd),
    (s.takes i Op.getSwing c → ∃ r : List Byte, r.length = 44 ∧
      r.take 8 = iField 4 (vaOf (s.pol i) (vget (s.pol i).swg.meas 0 0).toInt) ++ iField 4 (vaOf (s.pol i) (vget (s.pol i).swg.meas 1 0).toInt) ∧
      (r.drop 16).take 4 = wBytes (vget (s.pol i).swg.meas 4 0) ∧ (r.drop 28).take 4 = wBytes (s.pol i).swg.measStat ∧
      Does (.getSwing t i c) s t i (answer (latchGroup (s.pol i)) Op.getSwing c (okWith r))) ∧
    (s.takes i Op.getRegime c → ∃ r : List Byte, r.length = 32 ∧
      Answers (.getRegime t i c) s t i Op.getRegime c (okWith (wBytes (rd (s.pol i) A.PCT_REGIME) ++ wBytes (rd (s.pol i) A.PCT_REGEVT) ++ r)))) ∧
  ((∀ (p : Polder) (k : Nat), k < 11 → rd (latchGroup p) (A.SWG_P + 4 * k) = vget p.swg.meas k 0) ∧
    (∀ (p : Polder) (off : Nat), (∀ k < 11, off ≠ A.SWG_P + 4 * k) → rd (latchGroup p) off = rd p off) ∧
    (∀ (s : State) (t : Nat) (i : PolderId) (m : Master), Part.has s.part i = true → awake (s.pol i) = true → live s m = true →
      reaches m i A.SWG_P = true → (∀ j, m ≠ .mon j) → Does (.measurementGroupLatch t i m) s t i (latchGroup (s.pol i))))

/-- R54, R57, R58, R101: at an update in a regime in which the law runs, the phase accumulator advances by the update's increment, modulo 2^64;
ω lies between its bounds afterwards, in SYNC too; the first update of SYNC starts from the angle of the network; and the update's own marks follow.
-/
def Obligations.UpdatesOfTheLaw : Prop :=
  ∀ (s : State) (t : Nat) (i : PolderId) (now : Nat) (p : Polder) (x : SwingIn), Runs s t i now p → lawRegime p = true →
    ∃ q, Does (.swingUpdate t i x) s t i q ∧ q = swingUpdate now x p ∧ q.swg.ran = true ∧ q.swg.lastAt = now ∧ q.swg.u1 = x.u1 ∧
      (p.swg.init = false → q.swg.acc = p.swg.acc + BitVec.ofInt 64 q.swg.inc) ∧
      (p.swg.init = true → regime p = Rg.sync →
        q.swg.acc = BitVec.ofNat 64 (x.u1arg % 4294967296 * 4294967296) + BitVec.ofInt 64 q.swg.inc) ∧
      (wLow p ≤ wHigh p → wLow p ≤ q.swg.w ∧ q.swg.w ≤ wHigh p)

/-- R79, R113: on entry to TRIPPED or SAFE a law that ran in the last update sets `SWG_EVT.TRIPSTOP`; an entry from a regime in which the law did
not run leaves it unchanged; and ω, θ and E hold, as they do at every update in a regime in which the law does not run (R80). -/
def Obligations.LawStopsAndHolds : Prop :=
  (∀ (now new : Nat) (p : Polder), new = Rg.tripped ∨ new = Rg.safe →
    (toStopped now new p).swg.acc = p.swg.acc ∧ (toStopped now new p).swg.w = p.swg.w ∧ (toStopped now new p).swg.e = p.swg.e ∧
      (fbit p F.SWG_STAT_RUN = true → fbit (toStopped now new p) F.SWG_EVT_TRIPSTOP = true) ∧
      (fbit p F.SWG_STAT_RUN = false → rd (toStopped now new p) A.SWG_EVT = rd p A.SWG_EVT)) ∧
    ∀ (s : State) (t : Nat) (i : PolderId) (now : Nat) (p : Polder) (x : SwingIn), Runs s t i now p → lawRegime p = false →
      ∃ q, Does (.swingUpdate t i x) s t i q ∧ q = swingUpdate now x p ∧ q.swg.acc = p.swg.acc ∧ q.swg.w = p.swg.w ∧ q.swg.e = p.swg.e ∧
        q.swg.irefD = 0 ∧ q.swg.irefQ = 0 ∧ q.swg.i2refD = 0 ∧ q.swg.i2refQ = 0

/-- A dwell that has run out ends where it stands (R269). The anchor is blocked after 10 s at its limit, and released after 10 s with a small error
(R77). The learner completes a set, which is 0 outside its mask, and its sweep writes every entry of its tables that it had not reached before, each entry
clamped (R190, R191); an automatic save is due after its interval (R198). -/
def Obligations.DwellsAnchorAndLearner : Prop :=
  ∀ (s : State) (t : Nat) (i : PolderId) (now : Nat) (p : Polder), Runs s t i now p →
    (∀ k a, k < 4 → (stair p k).dwellEnd = some a → a ≤ now → ∃ q, Does (.dwellEnd t i k) s t i q ∧
      (stair q k).dwellEnd = none ∧ (stair q k).out = (stair p k).out ∧ rd q (A.STS_DWL k) = 0) ∧
    (∀ a, p.swg.clampSince = some a → a + 10 * sec ≤ now → fbit p F.SWG_STAT_ANCHOR_BLK = false →
      Does (.anchorBlock t i) s t i (evt F.SWG_EVT_ANCHOR_SAT (fput p F.SWG_STAT_ANCHOR_BLK 1))) ∧
    (∀ a, p.swg.errSince = some a → a + 10 * sec ≤ now → Does (.anchorUnblock t i) s t i (fput p F.SWG_STAT_ANCHOR_BLK 0)) ∧
    (∀ c fk eps, ceRuns p = true → p.lrn.job = some (c, fk, eps) → ∃ q, Does (.coefficientSetComplete t i (rdN p A.LRN_CYCLES)) s t i q ∧
      q.lrn.job = none ∧ q.lrn.sweepFrom = some now ∧ fbit q F.LRN_STAT_SWEEP = true ∧
      ∀ k, k < 384 → inMask c (k % 128 / 2) = false → rd q (A.LRN_COEF k) = 0) ∧
    (∀ a b, p.lrn.sweepFrom = some a → b = p.lrn.sweepBase.getD ((p.lrn.lastRead + 1) % 4096) →
      ∃ q, Does (.sweepEnd t i) s t i q ∧ q.lrn.sweepFrom = none ∧ fbit q F.LRN_STAT_SWEEP = false ∧
        ∀ ph k j, ph < 3 → p.lrn.swept ≤ k → k < 4096 → j = (b + k) % 4096 →
          rd q (0x200000 + 0x4000 * ph + 4 * j) = toQ28 (clampI (-p.lrn.clim) p.lrn.clim (synth (coefOf p) ph j))) ∧
    (ceRuns p = true → lrnB p.lrn.inForce F.LRN_CTRL_AUTOSAVE = true → lrnN p.lrn.inForce A.LRN_SAVEINT * 60 * sec ≤ p.lrn.learnTime →
      Does (.learnerAutosave t i) s t i (lrnSave now { p with lrn := { p.lrn with learnTime := 0 } }))

/-- The commands of the regime machine (R118): SET_START_SYNC, SET_RIDE and SET_ENVELOPE commit the registers of their cards; REQUEST_REGIME for now
makes its request at the commit and is answered by the evaluation; BREAKER gives its order and is answered by its confirmation.
A command that commits fields does so in every state in which the sluice rules take
them, a free sluice among them (R274 to R283). -/
def Obligations.RegimeCommandsComplete : Prop :=
  ∀ (s : State) (t : Nat) (i : PolderId) (c : Cmd),
    (s.takes i Op.setEnvelope c → byteAt c.payload 0 ≤ 1 →
      Commits (.setEnvelope t i c) s t i Op.setEnvelope c
        ((List.range 16).map fun k => whole (if byteAt c.payload 0 = 0 then A.SWG_UVENV k else A.SWG_OVENV k)
          (u16At c.payload (4 + 4 * k) * 65536 + u16At c.payload (6 + 4 * k)))) ∧
    (s.takes i Op.setRide c →
      Commits (.setRide t i c) s t i Op.setRide c
        [whole A.SWG_RIDE_LO (vLine (vBase (s.pol i)) (u32At c.payload 0)), whole A.SWG_RIDE_HI (vLine (vBase (s.pol i)) (u32At c.payload 4)),
          whole A.SWG_RIDE_HYS (vLine (vBase (s.pol i)) (u32At c.payload 8)), whole A.SWG_RIDE_TDET (u32At c.payload 12),
          whole A.SWG_RIDE_TREC (u32At c.payload 16), ⟨A.SWG_RIDE_CFG, 7, 0, byteAt c.payload 20, false⟩,
          whole A.SWG_SLIP_ANG (phase001 (u16At c.payload 24)), whole A.SWG_PJ_THR (phase001 (u16At c.payload 26)),
          whole A.SWG_ROCOF_MAX (q28of (u32At c.payload 28) (fNom (s.pol i) * 1000)), whole A.SWG_ROCOF_WIN (u16At c.payload 32),
          whole A.SWG_DCG_LO (vDc (vBase (s.pol i)) (u32At c.payload 36)), whole A.SWG_DCG_HI (vDc (vBase (s.pol i)) (u32At c.payload 40)),
          whole A.SWG_DCG_K (q28of (u32At c.payload 44) 1000), whole A.SWG_STOP_RATE (q28of (u32At c.payload 48) 1000),
          whole A.SWG_STOP_TMO (u32At c.payload 52)]) ∧
    (s.takes i Op.setStartSync c → ∀ l : List Item,
      l = (let b := c.payload
        let vb := vBase (s.pol i)
        let bit := fun (f : Fld) => part f (u16At b 62 / 2 ^ (f.lo - 16) % 2 ^ (f.hi + 1 - f.lo))
        [bit F.PCT_REGCFG_BRK_EN, bit F.PCT_REGCFG_BRK_DO, bit F.PCT_REGCFG_AUX_EN, bit F.PCT_REGCFG_AUX_POL, bit F.PCT_REGCFG_AUX_DI,
          bit F.PCT_REGCFG_PRE_EN, bit F.PCT_REGCFG_PRE_DO, bit F.PCT_REGCFG_TRIP_BRK, part F.PCT_REGCFG_BRK_TMO (u16At b 60),
          whole A.SWG_DC_RDY (vDc vb (u32At b 0)), whole A.SWG_DC_BAL (vDc vb (u32At b 4)), whole A.SWG_PRE_TMO (u32At b 8),
          whole A.SWG_DEAD_V (vLine vb (u32At b 12)), whole A.SWG_EN_RATE (q28of (u32At b 16) 1000), whole A.SWG_EN_TMO (u32At b 20),
          whole A.SWG_BO_BASE (u16At b 24), whole A.SWG_BO_TRIES (byteAt b 26), whole A.SWG_SYNC_BW (u16At b 28),
          whole A.SWG_SYNC_LIM (q28of (u32At b 32) 1000000), whole A.SWG_SYNC_DV (vLine vb (u32At b 36)), whole A.SWG_SYNC_DF (u16At b 30),
          whole A.SWG_SYNC_DA (phase001 (u16At b 40)), whole A.SWG_SYNC_DWELL (u16At b 42), whole A.SWG_SYNC_TMO (u32At b 44),
          whole A.SWG_BRK_TCLOSE (u16At b 48), whole A.SWG_SYNC_VLO (vLine vb (u32At b 52)),
          whole A.SWG_SYNC_VHI (vLine vb (u32At b 56))]) →
      Commits (.setStartSync t i c) s t i Op.setStartSync c l) ∧
    (s.takes i Op.requestRegime c → u48At c.payload 4 = 0 → u32At c.payload 10 = 0 → ∀ n l,
      l = [part F.PCT_REGREQ_MODE (byteAt c.payload 1), part F.PCT_REGREQ_TARGET (byteAt c.payload 0)] → (s.pol i).admits (s.clock t) l n →
        Does (.requestRegime t i c) s t i ((s.pol i).committed (s.clock t) c.sess n (entriesOf l) (some ⟨c.sess, Op.requestRegime, c.seq⟩))) ∧
    (s.takes i Op.breaker c → byteAt c.payload 0 = 0 → fbit (s.pol i) F.PCT_REGCFG_BRK_EN = true →
      Does (.breaker t i c) s t i (brkDo (s.clock t) false (some ⟨c.sess, Op.breaker, c.seq⟩) (s.pol i))) ∧
    (s.takes i Op.breaker c → byteAt c.payload 0 = 1 → fbit (s.pol i) F.PCT_REGCFG_BRK_EN = true → regime (s.pol i) = Rg.ready →
      fbit (s.pol i) F.PCT_REGIME_DEAD = true → rgPhase (s.pol i) = 0 →
      Does (.breaker t i c) s t i (brkDo (s.clock t) true (some ⟨c.sess, Op.breaker, c.seq⟩) (s.pol i))) ∧
    (s.takes i Op.breaker c → fbit (s.pol i) F.PCT_REGCFG_BRK_EN = false → byteAt c.payload 0 ≤ 1 →
      Answers (.breaker t i c) s t i Op.breaker c (bare Status.state))

/-- The evaluation of the regime machine (R86, R87, R113, R114) takes the causes in their order: the safe pulse block's demand, a latched trip, the stop that
the Dikehouse requests, a condition of the machine itself that has fallen due or that it finds (of these the time limit and the completion of PRECHARGE),
a request. A transition of rank 1 to 4 discards every request that waits. Without one the oldest request is carried out, which takes a request in STANDBY to
PRECHARGE, and the others go on waiting; that, and the end of TRIPPED or SAFE behind the trips, are the model's choice (notes/assumptions/12.md). -/
def Obligations.RegimeEvaluationOrder : Prop :=
  ∀ (s : State) (t : Nat) (i : PolderId) (now : Nat) (p : Polder), Runs s t i now p → ceRuns p = true → p.rgm.order = none →
    (spbDemands p = true → regime p ≠ Rg.safe →
      Does (.regimeEvaluation t i) s t i (linkKicks now (refuseAll (toStopped now Rg.safe p)))) ∧
    (spbDemands p = false → latched p ≠ 0 → regime p ≠ Rg.tripped →
      Does (.regimeEvaluation t i) s t i (linkKicks now (refuseAll (toStopped now Rg.tripped p)))) ∧
    (spbDemands p = false → latched p = 0 → regime p = Rg.tripped ∨ regime p = Rg.safe →
      Does (.regimeEvaluation t i) s t i (linkKicks now (refuseAll (leaveStopped now p)))) ∧
    (∀ m, spbDemands p = false → latched p = 0 → regime p = Rg.energise ∨ regime p = Rg.sync ∨ regime p = Rg.forming → p.rgm.dkhStop = some m →
      Does (.regimeEvaluation t i) s t i (linkKicks now (refuseAll (toStopping now m { p with rgm := { p.rgm with dkhStop := none } })))) ∧
    (spbDemands p = false → latched p = 0 → p.rgm.dkhStop = none → regime p = Rg.precharge → p.rgm.enteredAt + tookN p A.SWG_PRE_TMO * ms ≤ now →
      ∃ q, Does (.regimeEvaluation t i) s t i q ∧ regime q = Rg.standby ∧ q.rgm.reqs = [] ∧ fbit q F.PCT_REGEVT_PRE_TMO = true) ∧
    (spbDemands p = false → latched p = 0 → p.rgm.dkhStop = none → regime p = Rg.precharge → now < p.rgm.enteredAt + tookN p A.SWG_PRE_TMO * ms →
      fbit p F.PCT_REGIME_DCOK = true → ready p = true →
      ∃ q, Does (.regimeEvaluation t i) s t i q ∧ regime q = Rg.ready ∧ q.rgm.reqs = []) ∧
    (spbDemands p = false → latched p = 0 → p.rgm.dkhStop = none → regime p = Rg.standby → ∀ r l, p.rgm.reqs = r :: l →
      r.target = 3 → r.mode = 0 →
      Does (.regimeEvaluation t i) s t i
        (linkKicks now (endReq r true (toPrecharge now { p with rgm := { p.rgm with dkhStop := none, reqs := l } }))))

/-- The timers of the regime machine (R90, R97, R111): PRE_TMO returns to STANDBY, EN_TMO and SYNC_TMO end a start, STOP_TMO ends a ramp; each sets
its event, and none of them changes anything while a cause of a higher rank stands (R87). Riding through (R104): RIDE begins once the voltage has stayed outside the ride
thresholds for `SWG_RIDE_TDET` and ends once it has stayed inside them for `SWG_RIDE_TREC`; the regime stays FORMING. -/
def Obligations.RegimeTimersAndRide : Prop :=
  (∀ (s : State) (t : Nat) (i : PolderId) (now : Nat) (p : Polder), Runs s t i now p → ceRuns p = true → spbDemands p = false → latched p = 0 →
    p.rgm.dkhStop = none →
    (regime p = Rg.precharge → p.rgm.enteredAt + tookN p A.SWG_PRE_TMO * ms ≤ now →
      Does (.prechargeTimeout t i) s t i (refuseAll (toStandby now (evt F.PCT_REGEVT_PRE_TMO p)))) ∧
    (regime p = Rg.energise → p.rgm.enteredAt + tookN p A.SWG_EN_TMO * ms ≤ now →
      Does (.energiseTimeout t i) s t i (refuseAll (toStopping now 1 (evt F.PCT_REGEVT_EN_FAIL p)))) ∧
    (∀ a, regime p = Rg.energise → p.rgm.settleSince = some a → a + 20 * ms ≤ now →
      Does (.energiseComplete t i) s t i (refuseAll (setRegime now Rg.forming 0 p))) ∧
    (regime p = Rg.sync → rgPhase p = 0 → p.rgm.enteredAt + tookN p A.SWG_SYNC_TMO * ms ≤ now →
      Does (.syncTimeout t i) s t i (refuseAll (stopSwitching now (setRegime now Rg.ready 0 (evt F.PCT_REGEVT_SYNC_TMO p))))) ∧
    (∀ a, regime p = Rg.sync → rgPhase p = 0 → p.rgm.syncSince = some a → a + tookN p A.SWG_SYNC_DWELL * ms ≤ now →
      Does (.closeCommand t i) s t i (brkDo now true none (fput p F.PCT_REGIME_PHASE 1))) ∧
    (regime p = Rg.stopping → rgPhase p = 0 → p.rgm.rampEnd = none → p.rgm.enteredAt + tookN p A.SWG_STOP_TMO * ms ≤ now →
      Does (.stopTmo t i) s t i (evt F.PCT_REGEVT_STOP_TMO { p with rgm := { p.rgm with rampEnd := some now } }))) ∧
  (∀ (s : State) (t : Nat) (i : PolderId) (now : Nat) (p : Polder), Runs s t i now p →
    spbDemands p = true ∨ latched p ≠ 0 ∨ p.rgm.dkhStop.isSome = true →
    Does (.prechargeTimeout t i) s t i p ∧ Does (.energiseTimeout t i) s t i p ∧ Does (.energiseComplete t i) s t i p ∧
      Does (.syncTimeout t i) s t i p ∧ Does (.closeCommand t i) s t i p ∧ Does (.stopTmo t i) s t i p ∧ Does (.rideIn t i) s t i p ∧
      Does (.rideOut t i) s t i p) ∧
  (∀ (s : State) (t : Nat) (i : PolderId) (now : Nat) (p : Polder), Runs s t i now p → ceRuns p = true → spbDemands p = false → latched p = 0 →
    p.rgm.dkhStop = none →
    (∀ a, regime p = Rg.forming → fbit p F.PCT_REGIME_RIDE = false → p.rgm.rideOutSince = some a → a + tookN p A.SWG_RIDE_TDET * us ≤ now → ∃ q,
      Does (.rideIn t i) s t i q ∧ fbit q F.PCT_REGIME_RIDE = true ∧ fbit q F.PCT_REGEVT_RIDE_IN = true ∧
        rd q A.SWG_RIDE_T = wordN ((now - a) / ms) ∧ regime q = Rg.forming) ∧
    (∀ a, regime p = Rg.forming → fbit p F.PCT_REGIME_RIDE = true → p.rgm.rideInSince = some a → a + tookN p A.SWG_RIDE_TREC * ms ≤ now → ∃ q,
      Does (.rideOut t i) s t i q ∧ fbit q F.PCT_REGIME_RIDE = false ∧ fbit q F.PCT_REGEVT_RIDE_OUT = true ∧ regime q = Rg.forming))

/-- The breaker (R93): `BRK` follows a close after its delay, and an order that its position does not confirm in time fails with BRK_FAIL; a failed
open leaves everything else as it is. Black start (R98, R99) and the dead bus (R89): the wait ends in ENERGISE on a dead bus and in SYNC on a live
one; a collision opens the breaker, sets its event, and starts attempt n + 1 while tries are left; `DEAD` follows the voltage after 2 ms. -/
def Obligations.BreakerAndBlackStart : Prop :=
  (∀ (s : State) (t : Nat) (i : PolderId) (now : Nat) (p : Polder), Runs s t i now p →
    (∀ a, p.rgm.closeAt = some a → a ≤ now → p.rgm.order = none →
      Does (.breakerCloseDelay t i) s t i (fput { p with rgm := { p.rgm with closeAt := none } } F.PCT_REGIME_BRK 1)) ∧
    (∀ a, ceRuns p = true → p.rgm.order = some ⟨false, a, none⟩ → a + fget p F.PCT_REGCFG_BRK_TMO * ms ≤ now →
      Does (.brkTimeout t i) s t i (evt F.PCT_REGEVT_BRK_FAIL { p with rgm := { p.rgm with order := none } })) ∧
    (∀ a c, ceRuns p = true → p.rgm.order = some ⟨false, a, some c⟩ → a + fget p F.PCT_REGCFG_BRK_TMO * ms ≤ now →
      Does (.brkTimeout t i) s t i
        (replyTo (evt F.PCT_REGEVT_BRK_FAIL { p with rgm := { p.rgm with order := none } }) c (bare Status.timeout)))) ∧
  (∀ (s : State) (t : Nat) (i : PolderId) (now : Nat) (p : Polder), Runs s t i now p → ceRuns p = true → spbDemands p = false → latched p = 0 →
    p.rgm.dkhStop = none →
    (∀ a, regime p = Rg.ready → rgPhase p = 1 → p.rgm.waitEnd = some a → a ≤ now →
      Does (.backoffWaitEnd t i) s t i (refuseAll (if fbit p F.PCT_REGIME_DEAD then toEnergise now true p else toSync now p))) ∧
    (∀ a, regime p = Rg.energise → p.rgm.collSince = some a → a + ms ≤ now → ∀ e q, e = evt F.PCT_REGEVT_COLLISION p →
      q = setRegime now Rg.ready 0
        (brkDo now false none (stopSwitching now { e with swg := { e.swg with irefD := 0, irefQ := 0, i2refD := 0, i2refQ := 0 } })) →
      Does (.collision t i) s t i (refuseAll (if fget p F.PCT_REGIME_TRY < tookN p A.SWG_BO_TRIES then startWait now (fget p F.PCT_REGIME_TRY + 1) q
        else evt F.PCT_REGEVT_BACKOFF_FAIL q))) ∧
    (∀ a, regime p ≠ Rg.ready → p.rgm.belowSince = some a → a + 2 * ms ≤ now →
      Does (.deadBusChange t i) s t i (fput p F.PCT_REGIME_DEAD 1)) ∧
    (∀ a, regime p ≠ Rg.ready → p.rgm.belowSince = none → p.rgm.aboveSince = some a → a + 2 * ms ≤ now →
      Does (.deadBusChange t i) s t i (fput p F.PCT_REGIME_DEAD 0)))

/-! ### Embankment controller, modulator, learner, gallery (spec/04 to spec/06) -/

/-- The setting commands of the embankment controller and the modulator (R152, R185): each commits the registers of its card and answers OK. That SET_CARRIER
with mask 0 answers OK and changes nothing is the model's choice (notes/assumptions/19.md).
A command that commits fields does so in every state in which the sluice rules take
them, a free sluice among them (R274 to R283). -/
def Obligations.EmbankmentAndModulatorSettingsComplete : Prop :=
  ∀ (s : State) (t : Nat) (i : PolderId) (c : Cmd) (b : List Byte) (p : Polder), b = c.payload → p = s.pol i →
    (s.takes i Op.setEmbankment c → byteAt b 0 ≤ 2 →
      Commits (.setEmbankment t i c) s t i Op.setEmbankment c
        [part F.EMB_CTRL_TOPO (byteAt b 0), part F.EMB_CTRL_ZS_REMOVE (byteAt b 1 % 2), part F.EMB_CTRL_CM_EST (byteAt b 1 / 2 % 2),
          whole A.EMB_XL (reactance p (u32At b 4))]) ∧
    (s.takes i Op.setBand c → byteAt b 0 ≤ 2 → 500 ≤ u32At b 4 ∧ u32At b 4 ≤ 20000 → u32At b 20 ≤ 500 →
      Commits (.setBand t i c) s t i Op.setBand c
        [part F.EMB_CTRL_BANDMODE (byteAt b 0), whole A.EMB_FSW (u32At b 4), whole A.EMB_HFIX (iCode p (u32At b 8)),
          whole A.EMB_HMIN (iCode p (u32At b 12)), whole A.EMB_HMAX (iCode p (u32At b 16)), whole A.EMB_TRIMK (q28of (u32At b 20) 1000)]) ∧
    (s.takes i Op.setPrediction c → byteAt b 0 ≤ 2 → byteAt b 1 = 8 → u32At b 4 ≤ 5119921 → 1100 ≤ u32At b 20 ∧ u32At b 20 ≤ 4000 →
      Commits (.setPrediction t i c) s t i Op.setPrediction c
        [part F.EMB_CTRL_SLOPE_SRC (byteAt b 0), part F.EMB_CTRL_FIT_N 1, whole A.EMB_TEXT (binsOfPs (u32At b 4)), whole A.EMB_HOLD (u32At b 8),
          whole A.EMB_SETTLE (u32At b 12), whole A.EMB_IZC (iCode p (u32At b 16)), whole A.EMB_OUTER (uq24of (u32At b 20) 1000),
          whole A.EMB_SMIN (iCode p (u32At b 24))]) ∧
    (s.takes i Op.setPrediction c → byteAt b 1 ≠ 4 ∧ byteAt b 1 ≠ 8 ∧ byteAt b 1 ≠ 16 →
      Answers (.setPrediction t i c) s t i Op.setPrediction c (bare Status.range)) ∧
    (s.takes i Op.setNpBalance c → byteAt b 0 ≤ 1 → u32At b 4 ≤ 7900 → 100 ≤ u32At b 16 ∧ u32At b 16 ≤ 100000 →
      Commits (.setNpBalance t i c) s t i Op.setNpBalance c
        [part F.EMB_CTRL_NP_EN (byteAt b 0), whole A.EMB_NPK (q28of (u32At b 4) 1000), whole A.EMB_V0MAX (vPeak (vBase p) (u32At b 8)),
          whole A.EMB_SECT_HYS (vPeak (vBase p) (u32At b 12)), whole A.EMB_NPTF (u32At b 16)]) ∧
    (s.takes i Op.setModulator c → byteAt b 0 ≤ 3 → byteAt b 1 ≤ 1 → byteAt b 2 ≤ 2 → byteAt b 3 ≤ 1 →
      (∀ k < 4, 200000 ≤ u32At b (4 + 4 * k) ∧ u32At b (4 + 4 * k) ≤ 10000000) → 100000 ≤ u32At b 20 ∧ u32At b 20 ≤ 20000000 →
      byteAt b 26 ≤ 15 →
      Commits (.setModulator t i c) s t i Op.setModulator c
        [part F.MOD_CTRL_SS_SINK (byteAt b 26), part F.MOD_CTRL_AUX_MODE (byteAt b 2), part F.MOD_CTRL_AUX_CFG (byteAt b 3),
          part F.MOD_CTRL_UPD (byteAt b 1), part F.MOD_CTRL_MODE (byteAt b 0), whole (A.MOD_DT 0) (binsOfPs (u32At b 4)),
          whole (A.MOD_DT 1) (binsOfPs (u32At b 8)), whole (A.MOD_DT 2) (binsOfPs (u32At b 12)), whole (A.MOD_DT 3) (binsOfPs (u32At b 16)),
          whole A.MOD_TMIN (binsOfPs (u32At b 20)), whole A.MOD_SS_GAP (u16At b 24)]) ∧
    (s.takes i Op.setBootstrap c →
      Commits (.setBootstrap t i c) s t i Op.setBootstrap c
        [part F.MOD_CTRL_BS_EN (byteAt b 0 % 16), whole A.MOD_BS_TMAX (u32At b 4), whole A.MOD_BS_TRF (u32At b 8),
          whole A.MOD_BS_WARN (u32At b 12), whole A.MOD_CHOP_ON (vDc (vBase p) (u32At b 16)),
          whole A.MOD_CHOP_OFF (vDc (vBase p) (u32At b 20))]) ∧
    (s.takes i Op.setPulseShape c → byteAt b 0 ≤ 3 → byteAt b 1 ≤ 1 →
      Commits (.setPulseShape t i c) s t i Op.setPulseShape c
        [whole (if byteAt b 1 = 0 then A.MOD_SHAPE (byteAt b 0) else A.MOD_SHAPEH (byteAt b 0)) (u32At b 4),
          whole A.MOD_SHAPE_ITH (iCode p (u32At b 8))]) ∧
    (s.takes i Op.setCarrier c → byteAt b 0 = 1 →
      Commits (.setCarrier t i c) s t i Op.setCarrier c [whole A.MOD_PER (binsOfNs (u32At b 4))]) ∧
    (s.takes i Op.setCarrier c → byteAt b 0 = 2 → 0 ≤ i32At b 8 ∧ i32At b 8 ≤ 1000000 →
      Commits (.setCarrier t i c) s t i Op.setCarrier c
        [part (F.MOD_CMP_SIDE 0) 0, part (F.MOD_CMP_TON 0) (roundDivN ((i32At b 8).toNat * perBuffer p) 1000000)]) ∧
    (s.takes i Op.setCarrier c → byteAt b 0 = 0 → Answers (.setCarrier t i c) s t i Op.setCarrier c (okWith []))

/-- The learner's and the gallery's commands that set and control (R204, R205, R211): settings commit, LEARNER_STORE and GALLERY_CONTROL order the
action of the register and answer with the words of the state, or STATE where the register would ignore it.
A command that commits fields does so in every state in which the sluice rules take
them, a free sluice among them (R274 to R283). -/
def Obligations.LearnerAndGalleryCommandsComplete : Prop :=
  ∀ (s : State) (t : Nat) (i : PolderId) (c : Cmd) (b : List Byte) (p : Polder), b = c.payload → p = s.pol i →
    (s.takes i Op.setLearner c → u32At b 4 ≤ 1000 → 900000 ≤ u32At b 8 ∧ u32At b 8 ≤ 1000000 → 100 ≤ u32At b 16 ∧ u32At b 16 ≤ 5000 →
      100 ≤ u32At b 32 ∧ u32At b 32 ≤ 50000 →
      Commits (.setLearner t i c) s t i Op.setLearner c
        [part F.LRN_CTRL_AUTOSAVE (byteAt b 0 / 8 % 2), part F.LRN_CTRL_WARM (byteAt b 0 / 4 % 2), part F.LRN_CTRL_FREEZE (byteAt b 0 / 2 % 2),
          part F.LRN_CTRL_EN (byteAt b 0 % 2), whole A.LRN_GAIN (q28of (u32At b 4) 1000), whole A.LRN_FORGET (q28of (u32At b 8) 1000000),
          whole A.LRN_LEAD (u32At b 12), whole A.LRN_CLIM (q28of (u32At b 16) 10000), whole A.LRN_HMASK0 (u32At b 20),
          whole A.LRN_HMASK1 (u32At b 24), whole A.LRN_FADE (u16At b 28), whole A.LRN_DFUPD (q28of (u32At b 32) 1000000),
          whole A.LRN_SAVEINT (u16At b 30)]) ∧
    (s.takes i Op.learnerStore c → byteAt b 0 = 0 ∨ byteAt b 0 = 3 ∨ byteAt b 0 = 2 ∧ lrnOff p = true ∨
        byteAt b 0 = 1 ∧ lrnOff p = true ∧ (goodSection p).isSome = true →
      ∀ q, q = lrnCmd (s.clock t) (wordN (2 ^ byteAt b 0)) p →
        Does (.learnerStore t i c) s t i (answer q Op.learnerStore c (okWith (wBytes (rd q A.LRN_STAT) ++ wBytes (rd q A.LRN_EVT))))) ∧
    (s.takes i Op.learnerStore c → byteAt b 0 = 1 ∨ byteAt b 0 = 2 → lrnOff p = false →
      Answers (.learnerStore t i c) s t i Op.learnerStore c (bare Status.state)) ∧
    (s.takes i Op.setGallery c →
      Commits (.setGallery t i c) s t i Op.setGallery c
        [part F.GAL_CTRL_EVSEL (byteAt b 37), part F.GAL_CTRL_TSLOT (byteAt b 3), part F.GAL_CTRL_TEDGE (byteAt b 2),
          part F.GAL_CTRL_TSRC (byteAt b 1), part F.GAL_CTRL_DECMODE (byteAt b 36), part F.GAL_CTRL_NPROBE (byteAt b 0),
          whole (A.GAL_PROBE 0) (u32At b 4), whole (A.GAL_PROBE 1) (u32At b 8), whole (A.GAL_PROBE 2) (u32At b 12),
          whole (A.GAL_PROBE 3) (u32At b 16), whole A.GAL_LEN (u32At b 20), whole A.GAL_PRE (u32At b 24), whole A.GAL_DEC (u32At b 28),
          wholeI A.GAL_TLEVEL (i32At b 32)]) ∧
    (∀ k q, s.takes i Op.galleryControl c → k = byteAt b 0 → k ≤ 2 →
      (k = 0 ∧ fget p F.GAL_STAT_STATE ≠ Rec.triggered ∨ k = 1 ∧ fget p F.GAL_STAT_STATE = Rec.armed ∨
        k = 2 ∧ (fget p F.GAL_STAT_STATE = Rec.armed ∨ fget p F.GAL_STAT_STATE = Rec.triggered)) →
      q = galCmd (wordN (2 ^ k)) p →
        Does (.galleryControl t i c) s t i (answer q Op.galleryControl c (okWith (wBytes (rd q A.GAL_STAT))))) ∧
    (s.takes i Op.galleryControl c → byteAt b 0 = 1 → fget p F.GAL_STAT_STATE ≠ Rec.armed →
      Answers (.galleryControl t i c) s t i Op.galleryControl c (bare Status.state))

/-- The reads of spec/04 to spec/06: each answers OK with the length of its card and its status words in their places, and changes nothing. -/
def Obligations.EmbankmentToGalleryReadsComplete : Prop :=
  ∀ (s : State) (t : Nat) (i : PolderId) (c : Cmd) (b : List Byte) (p : Polder), b = c.payload → p = s.pol i →
    (s.takes i Op.getEmbankment c → ∃ r : List Byte, r.length = 60 ∧ r.take 4 = wBytes (rd p (A.EMB_FSWM 0)) ∧
      (r.drop 48).take 8 = wBytes (rd p A.EMB_STAT) ++ wBytes (rd p A.EMB_EVT) ∧
      Answers (.getEmbankment t i c) s t i Op.getEmbankment c (okWith r)) ∧
    (s.takes i Op.getModulator c → ∃ r : List Byte, r.length = 44 ∧
      r.take 12 = wBytes (rd p A.MOD_STAT) ++ wBytes (rd p A.MOD_EVT) ++ wBytes (rd p A.MOD_SW) ∧
      (r.drop 12).take 4 = leBytes 4 p.mdl.per.inForce ∧ Answers (.getModulator t i c) s t i Op.getModulator c (okWith r)) ∧
    (s.takes i Op.getLearner c → byteAt b 0 ≤ 2 → ∃ r : List Byte, r.length = 536 ∧
      r.take 8 = wBytes (rd p A.LRN_STAT) ++ wBytes (rd p A.LRN_EVT) ∧
      (∀ k < 128, (r.drop (24 + 4 * k)).take 4 = wBytes (rd p (A.LRN_COEF (128 * byteAt b 0 + k)))) ∧
      Answers (.getLearner t i c) s t i Op.getLearner c (okWith r)) ∧
    (∀ n rows, s.takes i Op.readGallery c → n = cfgGet p.gal F.GAL_CTRL_NPROBE → rows = u16At b 4 → fget p F.GAL_STAT_STATE = Rec.done →
      4 * rows * n ≤ 1000 → u32At b 0 + rows ≤ rdN p A.GAL_ROWS → ∃ r : List Byte, r.length = 24 + 4 * rows * n ∧
        r.take 8 = wBytes (rd p A.GAL_STAT) ++ wBytes (rd p A.GAL_ROWS) ∧
        r.drop 24 = (List.range rows).flatMap (fun k => (galRow p (u32At b 0 + k)).flatMap wBytes) ∧
        Answers (.readGallery t i c) s t i Op.readGallery c (okWith r)) ∧
    (s.takes i Op.readGallery c → fget p F.GAL_STAT_STATE ≠ Rec.done →
      Answers (.readGallery t i c) s t i Op.readGallery c (bare Status.state))

/-- The controller's decision (R122, R124, R130, R139): at its decision instant each sample is used once, and its error is the reference less the
current at its own instant; while the modulator does not switch under its control nothing is asked of the modulator, and a leg that starts gets its
first level at the decision instant. Level changes (R155 to R159): a due change of a leg that nothing holds up is carried out at its earliest instant,
and one that comes too early waits for it with `MINP`; T_dt after the outgoing switches have turned off the incoming ones turn on. -/
def Obligations.DecisionsAndLevelChanges : Prop :=
  (∀ (s : State) (t : Nat) (i : PolderId) (now : Nat) (p : Polder) (k : Nat) (e : EmbSample) (l : List EmbSample), Runs s t i now p → k < 3 →
    (phaseOf p k).pend = e :: l → e.td ≤ now → ∃ q,
      Does (.embankmentDecision t i k) s t i q ∧ q = embDecision now k p ∧ q.free = p.free + 1 ∧ (phaseOf q k).pend = l ∧
        (phaseOf q k).tn = e.tn ∧ (phaseOf q k).err = e.ref - e.cur ∧
        (embActive p = false → (phaseOf p k).coming = [] → q.mdl = p.mdl) ∧
        (embActive p = true → (leg p k).taken = false → (leg p k).seq = none → (phaseOf p k).starting = true →
          (phaseOf p k).coming = [] → ∃ m, (leg q k).sched = (leg p k).sched ++ [m] ∧ m.src = .start ∧ m.at' = e.td)) ∧
  (∀ (s : State) (t : Nat) (i : PolderId) (now : Nat) (p : Polder) (k : Nat), Runs s t i now p → k < 4 →
    (∀ m l, (leg p k).sched = m :: l → m.at' ≤ now → (leg p k).refresh = none → (leg p k).trans = none → (leg p k).seq = none →
      fbit p F.MOD_STAT_RUN = true →
      (earliest p k m.at' ≤ now → (leg p k).level ≠ m.level → Does (.levelChange t i k) s t i
        (doMove k (earliest p k m.at') m
          (modLeg (evtIf (m.at' < earliest p k m.at') F.MOD_EVT_MINP p) k fun x => { x with sched := l }))) ∧
      (now < earliest p k m.at' → Does (.levelChange t i k) s t i
        (modLeg (evt F.MOD_EVT_MINP p) k fun x => { x with sched := { m with at' := earliest p k m.at' } :: l }))) ∧
    (∀ on a, (leg p k).trans = some (on, a) → a ≤ now →
      Does (.deadTimeEnd t i k) s t i (modLeg (switchTo k (edgeAt p k a) (swOf p k ||| on) false p) k fun x => { x with trans := none })))

/-- R157: a change that turns switches off and others on turns the outgoing ones off first, behind the interlock of R156, and leaves the incoming
ones to the end of the dead time; the other legs stay as they are. R156: whatever switch states are asked for, those that `MOD_SW` shows and the link
is sent keep S1 off unless S3 is off and, in a 3-level leg, S2 is on, and S4 off unless S2 is off and S3 is on; in a 2-level leg S1 and S4 are not on
together. The states of a level are sent as they are, and only a change is sent (R155). -/
def Obligations.DeadTimeSeparatesSwitches : Prop :=
  (∀ (p : Polder) (k eff : Nat) (m : Move), k < 4 →
    (swOf p k ^^^ levelSw p k m.level) &&& swOf p k ≠ 0 → (swOf p k ^^^ levelSw p k m.level) &&& levelSw p k m.level ≠ 0 →
      swOf (doMove k eff m p) k = interlock (threeLevel p k) (swOf p k &&& levelSw p k m.level) ∧
        (leg (doMove k eff m p) k).trans = some ((swOf p k ^^^ levelSw p k m.level) &&& levelSw p k m.level, eff + deadFs p k) ∧
        (leg (doMove k eff m p) k).level = m.level ∧ ∀ j, j ≠ k → j < 4 → leg (doMove k eff m p) j = leg p j) ∧
  (∀ (p q : Polder) (k t want sink source w : Nat), k < 4 → q = putEdge k t want sink source p → w = swOf q k →
    (threeLevel p k = true → w.testBit 0 = true → w.testBit 1 = true ∧ w.testBit 2 = false ∧ w.testBit 3 = false) ∧
    (threeLevel p k = true → w.testBit 3 = true → w.testBit 2 = true ∧ w.testBit 1 = false ∧ w.testBit 0 = false) ∧
    (threeLevel p k = false → w.testBit 0 = true → w.testBit 3 = false) ∧
    (∀ l, want = levelSw p k l → w = want) ∧
    (w = swOf p k → q = p) ∧
    (w ≠ swOf p k → (linkOf q k).edges = (linkOf p k).edges ++ [⟨t, w, sink, source⟩]) ∧
    ∀ j, j < 4 → j ≠ k → swOf q j = swOf p j ∧ linkOf q j = linkOf p j)

/-- Timers, carrier and refresh pulses (R163, R164, R167, R172): each event of the modulator at its instant. Safe-state sequencing (R177, R179,
R181): the second step turns S2 and S3 off `MOD_SS_GAP` after the first, and its end sets `SAFE`; a leg whose references have stayed away for 5 µs
is starved. -/
def Obligations.ModulatorTimersAndSafeState : Prop :=
  (∀ (s : State) (t : Nat) (i : PolderId) (now : Nat) (p : Polder) (k : Nat), Runs s t i now p → k < 4 →
    (∀ x, (leg p k).timer = some x → x.ends ≤ now → modMode p = Mode.cot → (leg p k).level ≠ lowLevel p k → (leg p k).sched = [] →
      Does (.timerMove t i k) s t i
        (levelChange now k (askMove k ⟨lowLevel p k, max x.ends (holdBound p k (linkLead p k + deadFs p k)), .timer⟩
          (modLeg p k fun l => { l with timer := none })))) ∧
    (∀ x, (leg p k).timer = some x → x.ends ≤ now → modMode p = Mode.cft → (leg p k).level ≠ highLevel p k → (leg p k).sched = [] →
      Does (.timerMove t i k) s t i
        (levelChange now k (askMove k ⟨highLevel p k, max x.ends (holdBound p k (linkLead p k + deadFs p k)), .timer⟩
          (modLeg p k fun l => { l with timer := none })))) ∧
    (∀ t0 e m q, (leg p k).timer = some ⟨t0, e, some m⟩ → m ≤ now → fbit p F.MOD_CTRL_UPD = true → q = reloadLeg m k p →
      Does (.timerMidpointReload t i k) s t i
        (modLeg q k fun l => { l with timer := some ⟨t0, max m (t0 + (vget q.mdl.ttmr k {}).inForce * bin), none⟩ })) ∧
    (∀ b, p.mdl.carrier = some b → b + p.mdl.per.inForce * bin ≤ now →
      Does (.periodBoundary t i) s t i (startPeriod (b + p.mdl.per.inForce * bin) p)) ∧
    (∀ b e, p.mdl.carrier = some b → e = b + p.mdl.per.inForce * bin / 2 → e ≤ now → p.mdl.centreDue = true → fbit p F.MOD_CTRL_UPD = true →
      modMode p ≠ Mode.cpwm → fget p F.MOD_CTRL_AUX_MODE = 1 →
      Does (.centreReload t i) s t i (legCentre b e 3 (armRestart e true { p with mdl := { p.mdl with centreDue := false } }))) ∧
    (∀ h, (leg p k).highSince = some h → h + rdN p A.MOD_BS_TMAX * us ≤ now → getBit p F.MOD_CTRL_BS_EN k = true →
      (leg p k).trans = none → (leg p k).refresh = none → (leg p k).seq = none → downBy p k now = false →
      Does (.refreshPulse t i k) s t i (refreshStart k now p)) ∧
    (∀ r, (leg p k).refresh = some r → r.step = 1 → r.next ≤ now →
      Does (.refreshPulseStep t i k) s t i (modLeg (switchTo k (edgeAt p k r.next) (swOf p k ||| r.low) true p) k fun l =>
        { l with refresh := some { r with step := 2, next := r.next + rdN p A.MOD_BS_TRF * ns } })) ∧
    (∀ r, (leg p k).refresh = some r → r.step = 2 → r.next ≤ now →
      Does (.refreshPulseStep t i k) s t i (modLeg (switchTo k (edgeAt p k r.next) (swOf p k &&& (15 ^^^ r.low)) true p) k fun l =>
        { l with refresh := some { r with step := 3, next := r.next + deadFs p k } })) ∧
    (∀ r, (leg p k).refresh = some r → r.step = 3 → r.next ≤ now → ∃ q,
      Does (.refreshPulseStep t i k) s t i q ∧ (leg q k).refresh = none ∧ (leg q k).lastMove = r.next ∧
        swOf q k = interlock (threeLevel p k) (swOf p k ||| r.high))) ∧
  (∀ (s : State) (t : Nat) (i : PolderId) (now : Nat) (p : Polder), Runs s t i now p →
    (∀ k a e, k < 4 → (leg p k).seq = some ⟨some a, e⟩ → a ≤ now → (∀ j < 4, j ≠ k → (leg p j).seq = none) →
      Does (.safeStateStep2 t i) s t i (safeLast k a e p)) ∧
    (p.mdl.sequencing = true → (∀ k < 4, seqOver now (leg p k) = true) → p.dike.l2Leg = none → ∃ q,
      Does (.sequencingEnd t i) s t i q ∧ q.mdl.sequencing = false ∧ fget q F.MOD_STAT_SEQ = 0 ∧ fget q F.MOD_STAT_SAFE = 1 ∧
        ∀ k < 4, (leg q k).seq = none) ∧
    (∀ k, k < 3 → modMode p ≠ Mode.cpwm → fbit p F.MOD_STAT_RUN = true → (leg p k).taken = false → (leg p k).seq = none →
      (leg p k).refsUntil + 5 * us ≤ now →
      Does (.referenceStarvation t i k) s t i { p with dike := { p.dike with starved := true } }))

/-! ### Acquisition, filters, capture, sluices (spec/07 to spec/09) -/

/-- The setting commands of spec/07 to spec/09 (R229, R235, R262, R290): each commits the registers of its card and answers OK. A `TRIG`, or a path
C response, equal to the one in force is not staged.
A command that commits fields does so in every state in which the sluice rules take
them, a free sluice among them (R274 to R283). -/
def Obligations.AcquisitionSettingsComplete : Prop :=
  ∀ (s : State) (t : Nat) (i : PolderId) (c : Cmd) (b : List Byte) (p : Polder), b = c.payload → p = s.pol i →
    (s.takes i Op.setAcquisition c → byteAt b 0 ≤ 3 → 1 ≤ byteAt b 2 ∧ byteAt b 2 ≤ 255 → u32At b 4 ≤ 163837 →
      Commits (.setAcquisition t i c) s t i Op.setAcquisition c
        ([part F.AFE_CTRL_PLS_TRIP (byteAt b 1 / 4 % 2), part F.AFE_CTRL_SHD_EN (byteAt b 1 / 2 % 2), part F.AFE_CTRL_PLS_EN (byteAt b 1 % 2)] ++
          (if byteAt b 0 = fget p F.AFE_CTRL_TRIG then [] else [part F.AFE_CTRL_TRIG (byteAt b 0)]) ++
          [whole A.AFE_TDLY (roundDivN (u32At b 4 * 2) 5), whole A.AFE_PLS_TOL (roundDivN (u32At b 8 * 32768) 2500000),
            whole A.AFE_SHD_TOL (roundDivN (u32At b 12 * 32768) 1250000), whole A.AFE_PLS_N (byteAt b 2)])) ∧
    (∀ k, s.takes i Op.setComparator c → k = byteAt b 0 → k < 5 → byteAt b 3 ≤ 5 → u16At b 8 ≤ 5000 → byteAt b 10 ≤ 15 →
      Commits (.setComparator t i c) s t i Op.setComparator c
        [partI (F.AFE_CMP_THR_HI k) (thrCode (fget p (F.AFE_CMP_CFG_SRC k)) (i16At b 4)),
          partI (F.AFE_CMP_THR_LO k) (thrCode (fget p (F.AFE_CMP_CFG_SRC k)) (i16At b 6)), part (F.AFE_CMP_CFG_EN k) (byteAt b 1 % 2),
          part (F.AFE_CMP_CFG_BREF k) (byteAt b 3), part (F.AFE_CMP_CFG_FILT k) (byteAt b 10), part (F.AFE_CMP_CFG_BLANK k) (u16At b 8)]) ∧
    (s.takes i Op.setComparator c → byteAt b 0 = 5 → byteAt b 2 ≤ 14 → byteAt b 3 ≤ 5 → u16At b 8 ≤ 5000 → byteAt b 10 ≤ 15 →
      Commits (.setComparator t i c) s t i Op.setComparator c
        [partI (F.AFE_CMP_THR_HI 5) (thrCode (byteAt b 2) (i16At b 4)), partI (F.AFE_CMP_THR_LO 5) (thrCode (byteAt b 2) (i16At b 6)),
          part (F.AFE_CMP_CFG_EN 5) (byteAt b 1 % 2), part (F.AFE_CMP_CFG_SRC 5) (byteAt b 2), part (F.AFE_CMP_CFG_BREF 5) (byteAt b 3),
          part (F.AFE_CMP_CFG_FILT 5) (byteAt b 10), part (F.AFE_CMP_CFG_BLANK 5) (u16At b 8)]) ∧
    (s.takes i Op.setComparator c → 5 < byteAt b 0 → Answers (.setComparator t i c) s t i Op.setComparator c (bare Status.range)) ∧
    (s.takes i Op.setFilters c → 1 ≤ u16At b 32 ∧ u16At b 32 ≤ 3000 →
      Commits (.setFilters t i c) s t i Op.setFilters c
        ((List.range 15).flatMap (fun k => part (F.FLT_RESP_M k) (byteAt b (16 + k)) ::
            (if byteAt b k = fget p (F.FLT_RESP_C k) then [] else [part (F.FLT_RESP_C k) (byteAt b k)])) ++
          [whole A.FLT_MAVG (u16At b 32), part F.FLT_CTRL_HSEL (byteAt b 34), part F.FLT_CTRL_SV_EN (byteAt b 35 % 2)])) ∧
    (s.takes i Op.setCapture c → 1 ≤ byteAt b 0 ∧ byteAt b 0 ≤ 16 → u32At b 58 ≤ 999999999 → timeOk c (u48At b 52) (u32At b 58) = true →
      Commits (.setCapture t i c) s t i Op.setCapture c
        ([part F.CAP_CTRL_ROLE (byteAt b 6), part F.CAP_CTRL_FIRE_IN (byteAt b 7 % 2), part F.CAP_CTRL_FIRE_OUT (byteAt b 7 / 2 % 2),
          part F.CAP_CTRL_ARMPIN (byteAt b 7 / 4 % 2), part F.CAP_CTRL_MED (byteAt b 7 / 8 % 2), part F.CAP_CTRL_TAP (byteAt b 1),
          part F.CAP_CTRL_FORMAT (byteAt b 2), part F.CAP_CTRL_TSRC (byteAt b 3), part F.CAP_CTRL_TEDGE (byteAt b 4),
          part F.CAP_CTRL_TCH (byteAt b 5), part F.CAP_CTRL_EVSEL (byteAt b 62), part F.CAP_CTRL_NCH (byteAt b 0 - 1)] ++
          (List.range 16).map (fun k => ⟨A.CAP_CHSEL (k / 8), 4 * (k % 8) + 3, 4 * (k % 8), byteAt b (8 + k), false⟩) ++
          [whole A.CAP_LEN (u32At b 24), whole A.CAP_PRE (u32At b 28), whole A.CAP_INT (u32At b 32), wholeI A.CAP_TLEVEL (i32At b 36),
            wholeI A.CAP_THI (i32At b 40), whole A.CAP_THYST (u32At b 44), whole A.CAP_TSLN (u16At b 48), whole A.CAP_TT_NS (u32At b 58),
            whole A.CAP_TT_SL (u32At b 52), whole A.CAP_TT_SH (u16At b 56)])) ∧
    (∀ k, s.takes i Op.setStair c → k = byteAt b 0 → k ≤ 1 → u16At b 2 ≤ 60000 → 100 ≤ u32At b 4 ∧ u32At b 4 ≤ 7900000 →
      100 ≤ u32At b 8 ∧ u32At b 8 ≤ 7900000 →
      Commits (.setStair t i c) s t i Op.setStair c
        [part (F.STS_SCFG_LAND_EN k) (byteAt b 1 % 2), part (F.STS_SCFG_LAND_DIR k) (byteAt b 1 / 2 % 4), part (F.STS_SCFG_DWELL k) (u16At b 2),
          whole (A.STS_RUP k) (q28of (u32At b 4) 1000000), whole (A.STS_RDN k) (q28of (u32At b 8) 1000000),
          wholeI (A.STS_LAND k) (roundDiv (i32At b 12 * 268435456) (sBase p))]) ∧
    (s.takes i Op.setStair c → byteAt b 0 = 2 → u16At b 2 ≤ 60000 → 100 ≤ u32At b 4 ∧ u32At b 4 ≤ 7900000 →
      100 ≤ u32At b 8 ∧ u32At b 8 ≤ 7900000 →
      Commits (.setStair t i c) s t i Op.setStair c
        [part (F.STS_SCFG_LAND_EN 2) (byteAt b 1 % 2), part (F.STS_SCFG_LAND_DIR 2) (byteAt b 1 / 2 % 4), part (F.STS_SCFG_DWELL 2) (u16At b 2),
          whole (A.STS_RUP 2) (q28of (u32At b 4) 1000000), whole (A.STS_RDN 2) (q28of (u32At b 8) 1000000),
          whole (A.STS_LAND 2) (vLine (vBase p) (u32At b 12))]) ∧
    (s.takes i Op.setCapture c → 999999999 < u32At b 58 → Answers (.setCapture t i c) s t i Op.setCapture c (bare Status.range)) ∧
    (s.takes i Op.setStair c → byteAt b 0 = 3 → u16At b 2 ≤ 60000 → 100 ≤ u32At b 4 ∧ u32At b 4 ≤ 7900000 →
      100 ≤ u32At b 8 ∧ u32At b 8 ≤ 7900000 →
      Commits (.setStair t i c) s t i Op.setStair c
        [part (F.STS_SCFG_LAND_EN 3) (byteAt b 1 % 2), part (F.STS_SCFG_LAND_DIR 3) (byteAt b 1 / 2 % 4), part (F.STS_SCFG_DWELL 3) (u16At b 2),
          whole (A.STS_RUP 3) (q28of (u32At b 4) 1000000), whole (A.STS_RDN 3) (q28of (u32At b 8) 1000000),
          whole (A.STS_LAND 3) (q28of (u32At b 12) (fNom p * 1000))])

/-- Tests, capture control and the reads of spec/07 to spec/09 (R229, R256, R262, R263, R290, R291).
A command that commits fields does so in every state in which the sluice rules take
them, a free sluice among them (R274 to R283). -/
def Obligations.AcquisitionControlsAndReadsComplete : Prop :=
  ∀ (s : State) (t : Nat) (i : PolderId) (c : Cmd) (b : List Byte) (p : Polder), b = c.payload → p = s.pol i →
    (∀ m k l x q n, s.takes i Op.runInputTest c → 1 ≤ u32At b 8 ∧ u32At b 8 ≤ 100000 → m = u16At b 0 % 32768 →
      (List.range 15).filter (fun j => m.testBit j) = k :: l →
      x = ⟨k :: l, 0, s.clock t, [], [], u32At b 4, u32At b 8, m, ⟨c.sess, Op.runInputTest, c.seq⟩, false, 0, 0, 0⟩ →
      p.sluiceTakes (s.clock t) [(A.AFE_TEST, BitVec.allOnes 32, testWord k ((testLevels k).getD 0 0))] n →
      q = p.committed (s.clock t) c.sess n [(A.AFE_TEST, BitVec.allOnes 32, testWord k ((testLevels k).getD 0 0))] →
      Does (.runInputTest t i c) s t i { q with afe := { q.afe with test := some x } }) ∧
    (s.takes i Op.runInputTest c → 1 ≤ u32At b 8 ∧ u32At b 8 ≤ 100000 → u16At b 0 % 32768 = 0 →
      Answers (.runInputTest t i c) s t i Op.runInputTest c (okWith (testReply 0 0 []))) ∧
    (s.takes i Op.runInputTest c → u32At b 8 = 0 ∨ 100000 < u32At b 8 →
      Answers (.runInputTest t i c) s t i Op.runInputTest c (bare Status.range)) ∧
    (s.takes i Op.getAcquisition c → ∃ r : List Byte, r.length = 92 ∧ (∀ k < 15, (r.drop (4 * k)).take 4 = wBytes (rd p (A.AFE_RAW k))) ∧
      (r.drop 60).take 16 = wBytes (rd p A.AFE_OVR) ++ wBytes (rd p A.AFE_STAT) ++ wBytes (rd p A.AFE_EVT) ++ wBytes (rd p A.AFE_CMP_STAT) ∧
      Answers (.getAcquisition t i c) s t i Op.getAcquisition c (okWith r)) ∧
    (s.takes i Op.getMetering c → ∃ r : List Byte, r.length = 272 ∧
      (∀ k < 64, (r.drop (16 + 4 * k)).take 4 = wBytes (vget p.flt.block k 0)) ∧
      Does (.getMetering t i c) s t i (answer (meterLatch p) Op.getMetering c (okWith r))) ∧
    (∀ q, s.takes i Op.captureControl c → byteAt b 0 = 0 → u48At b 4 = 0 → u32At b 10 = 0 → capState p ≠ Rec.triggered → capTapOff p = false →
      q = capArm p → Does (.captureControl t i c) s t i (answer q Op.captureControl c (okWith (wBytes (rd q A.CAP_STAT))))) ∧
    (∀ q, s.takes i Op.captureControl c → byteAt b 0 = 1 → u48At b 4 = 0 → u32At b 10 = 0 → capState p = Rec.armed →
      q = capTrigger (s.clock t) 2 (cycleStamp p (s.clock t)) p →
      Does (.captureControl t i c) s t i (answer q Op.captureControl c (okWith (wBytes (rd q A.CAP_STAT))))) ∧
    (∀ q, s.takes i Op.captureControl c → byteAt b 0 = 2 → u48At b 4 = 0 → u32At b 10 = 0 → capState p = Rec.armed ∨ capState p = Rec.triggered →
      q = capStop p → Does (.captureControl t i c) s t i (answer q Op.captureControl c (okWith (wBytes (rd q A.CAP_STAT))))) ∧
    (s.takes i Op.captureControl c → byteAt b 0 = 2 → u48At b 4 = 0 → u32At b 10 = 0 → capState p = Rec.idle →
      Answers (.captureControl t i c) s t i Op.captureControl c (bare Status.state)) ∧
    (∀ n, s.takes i Op.readCapture c → n = u16At b 4 → capState p = Rec.done → 1 ≤ n ∧ n ≤ 248 →
      u32At b 0 + n ≤ rdN p A.CAP_ROWS * capRowWords p → ∃ r : List Byte, r.length = 32 + 4 * n ∧
        r.take 8 = wBytes (rd p A.CAP_STAT) ++ wBytes (rd p A.CAP_ROWS) ∧
        r.drop 32 = (List.range n).flatMap (fun k => wBytes (capWord p (u32At b 0 + k))) ∧
        Answers (.readCapture t i c) s t i Op.readCapture c (okWith r)) ∧
    (s.takes i Op.getStairs c → ∃ r : List Byte, r.length = 56 ∧ r.take 8 = wBytes (vget p.sts.shown 0 0) ++ wBytes (vget p.sts.shown 1 0) ∧
      (∀ k < 4, (r.drop (16 + 12 * k)).take 4 = wBytes (vget p.sts.shown (4 + 3 * k) 0)) ∧
      Answers (.getStairs t i c) s t i Op.getStairs c (okWith r)) ∧
    (s.takes i Op.getSluice c → byteAt b 0 ≤ 7 → ∃ r : List Byte, r.length = 16 + 12 * (slu p (byteAt b 0)).entries.length ∧
      r.take 4 = wBytes (sluWord (slu p (byteAt b 0))) ∧
      r.drop 16 = (slu p (byteAt b 0)).entries.flatMap (fun e => leBytes 4 e.off ++ wBytes e.mask ++ wBytes e.val) ∧
      Answers (.getSluice t i c) s t i Op.getSluice c (okWith r))

/-- The slot frame (R215, R217, R218): a due slot converts its inputs and moves the frame on; a slot too close to a restart delivers nothing and
sets ABORT; a restart starts a new frame at its instant, before the slot that would lie there, unless a carrier event of that instant replaces it (R219). R220: a sample of an input shows in `AFE_RAWk` as its 16-bit code with its flag, and an
over-range sample sets the input's bit of `AFE_OVR` and `AFE_EVT.OVR`; R214: the fast samples lie on their grid. -/
def Obligations.SlotsAndSamples : Prop :=
  (∀ (s : State) (t : Nat) (i : PolderId) (now : Nat) (p : Polder), Runs s t i now p →
    (∀ x a next, a = p.afe.frameAt + p.afe.slot * 100 * ns → a ≤ now →
      next = (fun (f : AfeState) =>
        if p.afe.slot = 15 then { f with frameAt := f.frameAt + 1600 * ns, slot := 0 } else { f with slot := p.afe.slot + 1 }) →
      ((∀ r, p.afe.restart = some r → a < r) → abandoned p a = false →
        Does (.slotSample t i x) s t i (afeShow { slotConvert a x p with afe := next (slotConvert a x p).afe })) ∧
      (∀ e, (∀ r, p.afe.restart = some r → a < r) → abandoned p a = true → e = evt F.AFE_EVT_ABORT (if p.afe.slot = 0 then frameCount p else p) →
        Does (.slotSample t i x) s t i (afeShow { e with afe := next e.afe })) ∧
      (∀ r q c, p.afe.restart = some r → r ≤ a → carrierOn p = true → eventDue p r = false → p.afe.frameAt ≠ r → p.afe.frameAt + 1600 * ns ≠ r →
        q = { p with afe := { p.afe with restart := none, frameAt := r, slot := 0 } } → abandoned q r = false → c = slotConvert r x q →
        Does (.slotSample t i x) s t i (afeShow { c with afe := { c.afe with slot := 1 } }))) ∧
    (∀ a, p.afe.restart = some a → a ≤ now → carrierOn p = true → eventDue p a = false → p.afe.frameAt ≠ a → p.afe.frameAt + 1600 * ns ≠ a →
      Does (.frameRestart t i) s t i { p with afe := { p.afe with restart := none, frameAt := a, slot := 0 } }) ∧
    (fbit p F.AFE_STAT_SETTLING = true → p.afe.settleEnd ≤ now →
      Does (.settlingEnd t i) s t i (cmpSettle now (fput p F.AFE_STAT_SETTLING 0)))) ∧
  ((∀ (p : Polder) (now k : Nat) (code : Int) (flag : Nat), k < 15 → flag < 4 →
    fget (showSample now k code flag p) (F.AFE_RAW_CODE k) = codeOf 16 code ∧ fget (showSample now k code flag p) (F.AFE_RAW_FLAG k) = flag ∧
      (flag = 2 → getBit (showSample now k code flag p) F.AFE_OVR_AIN k = true ∧ fbit (showSample now k code flag p) F.AFE_EVT_OVR = true)) ∧
    ∀ (s : State) (t : Nat) (i : PolderId) (now : Nat) (p : Polder) (x : FastIn), Runs s t i now p → p.afe.fastNext ≤ now →
      p.afe.shadow = none → p.afe.released = none →
      ∃ q, Does (.fastSample t i x) s t i q ∧ q.afe.fastAt = p.afe.fastNext ∧ q.afe.fastNext = p.afe.fastNext + smpFs p ∧
        vget q.afe.fast 0 [] = (((convert p 0 128 x.codes.1 (x.ovr.testBit 0)).1,
          if (convert p 0 128 x.codes.1 (x.ovr.testBit 0)).2 then 2 else bn (inputSus p 0)) :: vget p.afe.fast 0 []).take 3)

/-- The window comparators (R227, R230, R231): an input that has lain outside its window for `FILT` cycles acts unless it is blanked; one under test, or
just released, drives `TEST_OUT` alone; a shorter one does nothing; an input that is inside by the hysteresis of one step clears both. The input test
(R228, R229): once 64 samples of a level have followed, their sum is taken and the next level, or the next input, follows; the last level of the last
input ends the test with `AFE_DIAG` and the reply. -/
def Obligations.ComparatorsAndInputTest : Prop :=
  (∀ (s : State) (t : Nat) (i : PolderId) (now : Nat) (p : Polder) (k : Nat) (uv v : Int) (n : Nat), Runs s t i now p → k < 6 → v = cmpVolt p k uv →
    (n < fget p (F.AFE_CMP_CFG_FILT k) → Does (.comparatorActed t i ⟨k, uv, n⟩) s t i p) ∧
    (fget p (F.AFE_CMP_CFG_FILT k) ≤ n → cmpHi p k * cmpStep p k < v ∨ v < cmpLo p k * cmpStep p k →
      (cmpMasked k p = true → Does (.comparatorActed t i ⟨k, uv, n⟩) s t i (putBit p F.AFE_CMP_STAT_TEST_OUT k true)) ∧
      (cmpMasked k p = false → ∀ q, q = putBit p F.AFE_CMP_STAT_OUT k true →
        (cmpBlanked now k q = true → (vget p.afe.cmps k {}).acting = false → Does (.comparatorActed t i ⟨k, uv, n⟩) s t i q) ∧
        (cmpBlanked now k q = false → fbit q (F.AFE_CMP_CFG_EN k) = true → (vget p.afe.cmps k {}).acting = false → ∃ z,
          Does (.comparatorActed t i ⟨k, uv, n⟩) s t i z ∧ (vget z.afe.cmps k {}).acting = true ∧ getBit z ⟨A.AFE_EVT, 31, 0⟩ (8 + k) = true))) ∧
    (getBit p F.AFE_CMP_STAT_OUT k = true → fbit p (F.AFE_CMP_CFG_EN k) = true → cmpBlanked now k p = false → cmpMasked k p = false →
      (vget p.afe.cmps k {}).acting = false → ∃ z, Does (.blankingEnd t i k) s t i z ∧ (vget z.afe.cmps k {}).acting = true) ∧
    (v ≤ (cmpHi p k - 1) * cmpStep p k → (cmpLo p k + 1) * cmpStep p k ≤ v → ∃ z, Does (.comparatorInside t i ⟨k, uv⟩) s t i z ∧
      getBit z F.AFE_CMP_STAT_OUT k = false ∧ getBit z F.AFE_CMP_STAT_TEST_OUT k = false ∧ (vget z.afe.cmps k {}).acting = false)) ∧
  (∀ (s : State) (t : Nat) (i : PolderId) (now : Nat) (p : Polder) (x y : InputTest) (k : Nat) (l : List Nat) (bad : Bool),
    Runs s t i now p → p.afe.test = some x → x.inputs = k :: l → 64 ≤ x.count → bad = (x.failing || levelBad k x.level x.sum x.ovrs) →
    y = { x with
      inputs := l, level := 0, sums := [], failing := false,
      results := x.results ++ [(k, judgeInput k (x.sums ++ [x.sum]) bad x.offTol x.gainTol)] } →
    (x.level + 1 < (testLevels k).length →
      Does (.inputTestLevel t i k x.level) s t i (inputTestGo now { x with level := x.level + 1, sums := x.sums ++ [x.sum], failing := bad } p)) ∧
    ((testLevels k).length ≤ x.level + 1 → l ≠ [] → Does (.inputTestLevel t i k x.level) s t i (inputTestGo now y p)) ∧
    ((testLevels k).length ≤ x.level + 1 → l = [] → Does (.inputTestLevel t i k x.level) s t i (inputTestDone now y p)))

/-- Path M, metering and sampled values (R245 to R253): path M feeds the lanes and the tap M of the capture engine while the polder runs it; a cycle
whose samples are there joins the block in progress, and ends it at the set number of cycles or where the reference changes; the oldest sample of lane
S is handed over under its number while publication is enabled. R252: the Hall sends the oldest sampled value that a polder has handed over, at most
250 µs old, and drops and counts one that is older. -/
def Obligations.MeteringAndSampledValues : Prop :=
  (∀ (s : State) (t : Nat) (i : PolderId) (now : Nat) (p : Polder), Runs s t i now p →
    (∀ x val, fbit p F.FLT_STAT_MPATH = false → val = (fun k => (x.vals.getD k 0, flagM p now k)) →
      Does (.pathMOutput t i x) s t i (capSample now 2 (tapInstant p now 4) val (laneFeed now (streamDelay p 4) val p))) ∧
    (∀ c l n, ceRuns p = true → p.flt.lane.cycles = c :: l → cycleReady p.flt.lane = true → n = fget p F.FLT_STAT_BLKCYC + 1 → n < 4096 →
      (n < rdN p A.FLT_MAVG → c.changes = false → ∃ q, Does (.meteringCycleComplete t i c.wrap) s t i q ∧ fget q F.FLT_STAT_BLKCYC = n ∧
        q.flt.metered = p.flt.metered + 1 ∧ q.flt.durSum = p.flt.durSum + (c.wrap - c.first) ∧ q.flt.block = p.flt.block ∧ q.flt.lane.cycles = l) ∧
      (rdN p A.FLT_MAVG ≤ n ∨ c.changes = true → ∃ q, Does (.meteringCycleComplete t i c.wrap) s t i q ∧ fget q F.FLT_STAT_BLKCYC = 0 ∧
        q.flt.metered = p.flt.metered + 1 ∧ q.flt.blockN = n ∧ vget q.flt.block 61 0 = wordN (p.flt.metered + 1) ∧ q.flt.lane.cycles = l)) ∧
    (fbit p F.FLT_CTRL_SV_EN = true → (∀ j < 6, vget (svAligned p.flt.lane) j [] ≠ []) → ∃ q o, Does (.sampledValueInstant t i (svNumber p (svAligned p.flt.lane))) s t i q ∧
      q.flt.svOut = p.flt.svOut ++ [o] ∧ o.at' = now ∧ o.k = svNumber p (svAligned p.flt.lane) ∧
      fbit q F.FLT_STAT_SVRUN = true)) ∧
  (∀ (s : State) (t : Nat) (i : PolderId) (v : SvOut) (l : List SvOut), s.runs i → s.hall.up = true → (s.pol i).flt.svOut = v :: l →
    (listening s = false → s.clock t ≤ v.at' + 250 * us →
      DoesAll (.svFrameSend t i) s t
        (modHall (fun h => hallTx (fun n =>
            .frame n (hapF h F.HAL_CFG_PCP_SV) (0x010CCD040000 + hapF h (F.HAL_SVCFG_MAC (i.num - 1))) 0x88BA (svFrame h (i.num - 1) v)) h)
          ((s.at' t).modPol i fun p => { p with flt := { p.flt with svOut := l } }))) ∧
    (v.at' + 250 * us < s.clock t →
      DoesAll (.svlost t i) s t
        (hallNote (s.clock t) F.HAL_EVT_SVLOST none
          (hallCount A.HAL_SVLOST ((s.at' t).modPol i fun p => { p with flt := { p.flt with svOut := l } })))))

/-- The capture engine's pins and time trigger (R256, R257, R259): each event in the state that lets it act. R256: arming takes the configuration in
force, discards a record, and enters ARMED; it is ignored in TRIGGERED, and with tap M outside FULL. It changes no register but `CAP_STAT`, and no
word of the capture memory. -/
def Obligations.CapturePinsTimeAndArming : Prop :=
  (∀ (s : State) (t : Nat) (i : PolderId) (now : Nat) (p : Polder), Runs s t i now p →
    (∀ a, a = fsOf (cfgN (capRec p) A.CAP_TT_SL + 4294967296 * (cfgN (capRec p) A.CAP_TT_SH % 65536)) (cfgN (capRec p) A.CAP_TT_NS) →
      a ≤ presented p now → cfgGet (capRec p) F.CAP_CTRL_TSRC = 6 → capState p = Rec.armed → ∃ q,
      Does (.captureTimeTrigger t i) s t i q ∧ capState q = Rec.triggered ∧ fget q F.CAP_STAT_TCAUSE = 0) ∧
    (p.cap.driving = false → fget p F.CAP_CTRL_ROLE = 2 → capState p = Rec.idle →
      Does (.fireEdge t i false) s t i (capArm (fputB p F.CAP_STAT_FIREPIN true))) ∧
    (p.cap.driving = false → cfgGet (capRec p) F.CAP_CTRL_FIRE_IN = 1 → capState p = Rec.armed → ∃ q,
      Does (.fireEdge t i true) s t i q ∧ capState q = Rec.triggered ∧ fget q F.CAP_STAT_TCAUSE = 1) ∧
    (∀ a, p.cap.pulseEnd = some a → a ≤ now → ∃ q, Does (.firePulseEnd t i) s t i q ∧ q.cap.pulseEnd = none ∧
      (capRole p ≠ 1 → q.cap.driving = false ∧ fbit q F.CAP_STAT_FIREHOLD = false ∧ fbit q F.CAP_STAT_FIREPIN = fbit p F.CAP_STAT_FIREPIN)) ∧
    (fbit p F.CAP_CTRL_ARMPIN = true → Does (.armEdge t i) s t i (capArm p))) ∧
  (∀ p : Polder,
    (capState p = Rec.triggered → capArm p = p) ∧ (fget p F.CAP_CTRL_TAP = 2 → fget p F.SWG_STAT_RATE ≠ 0 → capArm p = p) ∧
      (capState p ≠ Rec.triggered → fget p F.CAP_CTRL_TAP ≠ 2 ∨ fget p F.SWG_STAT_RATE = 0 →
        capState (capArm p) = Rec.armed ∧ (capRec (capArm p)).rows = 0 ∧
          cfgGet (capRec (capArm p)) F.CAP_CTRL_TSRC = fget p F.CAP_CTRL_TSRC ∧
          ∀ off, off ≠ A.CAP_STAT → rd (capArm p) off = rd p off))

/-- The commands of a sluice (R274, R275, R280, R285, R286, R290): a free sluice opens; a staging command that every check passes adds its entries;
an immediate commit that no scheduled sluice conflicts with and whose check passes writes them; a timed one from 20 µs to 86,400 s ahead is pending;
the owner's abort, or anyone's of a scheduled sluice, leaves the sluice free. -/
def Obligations.SluiceCommandsComplete : Prop :=
  ∀ (s : State) (t : Nat) (i : PolderId) (c : Cmd) (b : List Byte) (p : Polder) (now n : Nat), b = c.payload → p = s.pol i → now = s.clock t →
    (s.takes i Op.sluiceOpen c → sluFree p = some n →
      Does (.sluiceOpen t i c) s t i
        (answer (setSlu p n { st := .opened, owner := c.sess, lastUse := now, reason := (slu p n).reason }) Op.sluiceOpen c
          (okWith (leBytes 1 n ++ zeros 3)))) ∧
    (s.takes i Op.sluiceOpen c → sluFree p = none → Answers (.sluiceOpen t i c) s t i Op.sluiceOpen c (bare Status.conflict)) ∧
    (∀ q l, s.takes i Op.sluiceStage c → n = byteAt b 0 → n ≤ 7 → 1 ≤ byteAt b 1 ∧ byteAt b 1 ≤ 64 → (slu p n).st = .opened →
      (slu p n).owner = c.sess → l = stagedEntries b → (slu p n).entries.length + l.length ≤ 64 →
      stageStatus p (slu p n).entries (stampFrom p.sts.stamp l) = Status.ok → q = (sluStage now n l p).2 →
      (slu q n).entries = (slu p n).entries ++ stampFrom p.sts.stamp l ∧
        Does (.sluiceStage t i c) s t i (answer q Op.sluiceStage c (okWith (leBytes 1 (slu q n).entries.length ++ zeros 3)))) ∧
    (s.takes i Op.sluiceCommit c → n = byteAt b 0 → n ≤ 7 → u48At b 2 = 0 → u32At b 8 = 0 → (slu p n).st = .opened → (slu p n).owner = c.sess →
      conflicts p now n (tblAt p.tim now / (cyc : Nat)) = [] → checkReason p (slu p n) [] (quality p == 3) = none →
      Does (.sluiceCommit t i c) s t i
        (answer (sluCommit now n (presented p now) none p) Op.sluiceCommit c
          (okWith (wBytes (sluWord (slu (sluCommit now n (presented p now) none p) n)))))) ∧
    (∀ T, s.takes i Op.sluiceCommit c → n = byteAt b 0 → n ≤ 7 → u32At b 8 ≤ 999999999 → T = u48At b 2 * 1000000000 + u32At b 8 → T ≠ 0 →
      (slu p n).st = .opened → (slu p n).owner = c.sess → onPll p = true → presented p now + (20 * us : Nat) ≤ ((T * ns : Nat) : Int) →
      ((T * ns : Nat) : Int) ≤ presented p now + (86400 * sec : Nat) → conflicts p now n (commitCycle p now T) = [] →
      Does (.sluiceCommit t i c) s t i
        (answer (setSlu p n { slu p n with
            st := .scheduled, timed := true, reqGood := (byteAt b 1).testBit 0, commitAt := T, cmd := some ⟨c.sess, Op.sluiceCommit, c.seq⟩ })
          Op.sluiceCommit c (bare Status.pending))) ∧
    (s.takes i Op.sluiceCommit c → n = byteAt b 0 → n ≤ 7 → u32At b 8 ≤ 999999999 → u48At b 2 ≠ 0 → (slu p n).st = .opened →
      (slu p n).owner = c.sess → onPll p = false →
      Does (.sluiceCommit t i c) s t i (answer (setSlu p n { slu p n with lastUse := now }) Op.sluiceCommit c (bare Status.state))) ∧
    (s.takes i Op.sluiceAbort c → n = byteAt b 0 → n ≤ 7 → (slu p n).st ≠ .free → (slu p n).owner = c.sess →
      Does (.sluiceAbort t i c) s t i (answer (sluAbort now n Rsn.abort true p) Op.sluiceAbort c (okWith []))) ∧
    (s.takes i Op.sluiceAbort c → n = byteAt b 0 → n ≤ 7 → (slu p n).st = .scheduled → (slu p n).owner ≠ c.sess →
      Does (.sluiceAbort t i c) s t i (answer (sluAbort now n Rsn.abort false p) Op.sluiceAbort c (okWith []))) ∧
    (s.takes i Op.sluiceAbort c → n = byteAt b 0 → n ≤ 7 → (slu p n).st = .opened → (slu p n).owner ≠ c.sess →
      Answers (.sluiceAbort t i c) s t i Op.sluiceAbort c (bare Status.state)) ∧
    (s.takes i Op.sluiceAbort c → n = byteAt b 0 → (slu p n).st = .free → Answers (.sluiceAbort t i c) s t i Op.sluiceAbort c (bare Status.state))

/-- R275, R277: all entries of one staging command are accepted, or none is. What refuses one leaves the polder as it was; what takes them appends
them, numbered in their order, and writes no register. R285: an abort writes no entry: the sluice becomes free with its reason, `STS_EVT.ABORT`
sets, and every register outside the sluice unit and the event log keeps its word. A sluice that is free does not abort. -/
def Obligations.SluicesStageAndAbortWhole : Prop :=
  (∀ (p : Polder) (now n : Nat) (l : List (Nat × Word × Word)), n < 8 →
    ((sluStage now n l p).1 ≠ Status.ok → (sluStage now n l p).2 = p) ∧
      ((sluStage now n l p).1 = Status.ok → (sluStage now n l p).2.regs = p.regs ∧ (slu p n).entries.length + l.length ≤ 64 ∧
        (slu (sluStage now n l p).2 n).entries = (slu p n).entries ++ stampFrom p.sts.stamp l ∧
        ∀ k, k ≠ n → slu (sluStage now n l p).2 k = slu p k)) ∧
  (∀ (p : Polder) (now n reason : Nat) (asked : Bool), n < 8 →
    ((slu p n).st = .free → sluAbort now n reason asked p = p) ∧
      ((slu p n).st ≠ .free → (slu (sluAbort now n reason asked p) n).st = .free ∧ (slu (sluAbort now n reason asked p) n).reason = reason ∧
        (slu (sluAbort now n reason asked p) n).entries = [] ∧ fbit (sluAbort now n reason asked p) F.STS_EVT_ABORT = true ∧
        ∀ off, off / 65536 ≠ 0xB → off / 65536 ≠ 0 → rd (sluAbort now n reason asked p) off = rd p off))

/-- The events of a sluice (R278 to R280, R288): 2 µs before its instant a scheduled sluice enters CHECK when its check passes; once the
cycle of its instant is over it commits, behind what has settled in it; an open sluice idle for `STS_IDLE_TMO` aborts. That the commit acts with the first
row behind the cycle of its instant is the model's choice (notes/assumptions/54.md). -/
def Obligations.SluiceEvents : Prop :=
  ∀ (s : State) (t : Nat) (i : PolderId) (now : Nat) (p : Polder) (n : Nat), Runs s t i now p → n < 8 →
    ((slu p n).st = .scheduled → (((slu p n).commitAt * ns : Nat) : Int) ≤ presented p now + (2 * us : Nat) →
      checkReason (setSlu p n { slu p n with st := .check }) (slu p n) (earlierEntries (setSlu p n { slu p n with st := .check }) n (slu p n).commitAt)
        (quality p == 3) = none →
      Does (.sluiceCheck t i n) s t i (setSlu p n { slu p n with st := .check })) ∧
    (∀ f k, f = follow now p → (slu f n).st = .check → k = commitCycle f now (slu f n).commitAt → k < tblAt f.tim now / (cyc : Nat) →
      conflicts f now n k = [] →
      Does (.sluiceTimedCommit t i n) s t i (sluCommit now n (k * (cyc : Nat) + (presented f now - tblAt f.tim now)) none f)) ∧
    ((slu p n).st = .opened → (slu p n).lastUse + tookN p A.STS_IDLE_TMO * ms ≤ now →
      Does (.sluiceIdleTimeout t i n) s t i (sluAbort now n Rsn.idle false p)) ∧
    (∀ r, (slu p n).st = .scheduled → (((slu p n).commitAt * ns : Nat) : Int) ≤ presented p now + (2 * us : Nat) →
      checkReason (setSlu p n { slu p n with st := .check }) (slu p n) (earlierEntries (setSlu p n { slu p n with st := .check }) n (slu p n).commitAt)
        (quality p == 3) = some r →
      Does (.sluiceCheck t i n) s t i (sluAbort now n r false (setSlu p n { slu p n with st := .check })))

/-! ### Dike, gate links, field I/O, safe pulse block (spec/10 to spec/12) -/

/-- The setting commands of spec/10 to spec/12 (R318, R339, R362): each commits the registers of its card. Bits 6, 7 and 12 of the enables of
SET_DIKE are ignored, and so are reserved bits of its masks; a current of 0 disables a comparison of L1; GL3 carries two switches. SET_SAFETY answers `SPB_CRC` as the committed set gives
it.
A command that commits fields does so in every state in which the sluice rules take
them, a free sluice among them (R274 to R283). -/
def Obligations.ProtectionSettingsComplete : Prop :=
  ∀ (s : State) (t : Nat) (i : PolderId) (c : Cmd) (b : List Byte) (p : Polder), b = c.payload → p = s.pol i →
    (s.takes i Op.setDike c →
      Commits (.setDike t i c) s t i Op.setDike c
        [part F.DIK_TRIPEN_B13 (u16At b 0 / 8192 % 2), part F.DIK_TRIPEN_B11 (u16At b 0 / 256 % 16), part F.DIK_TRIPEN_B5 (u16At b 0 % 64),
          part F.DIK_GENMASK_BITS (u16At b 2 % 16384), part F.DIK_TRIPOMASK_BITS (u16At b 4 % 16384),
          part F.DIK_CFG_TRIPI_FILT (byteAt b 7), part F.DIK_CFG_TRIPO_PASS (byteAt b 6 % 2), whole A.DIK_SETTLE (u32At b 8), whole A.DIK_DCLO (vDc (vBase p) (u32At b 12)),
          whole A.DIK_DCHI (vDc (vBase p) (u32At b 16)), whole A.DIK_DCN (u16At b 20), wholeI A.DIK_TH0LIM (i16At b 24),
          wholeI A.DIK_TH1LIM (i16At b 26), whole A.DIK_GUTMAX (u16At b 22)]) ∧
    (∀ n, s.takes i Op.setL1 c → n = byteAt b 0 → n ≤ 3 → 1 ≤ byteAt b 1 ∧ byteAt b 1 ≤ 4 → u16At b 2 ≤ 10000 →
      (∀ k < 4, u32At b (4 + 4 * k) = 0 ∨ 1 ≤ l1Code p n (u32At b (4 + 4 * k)) ∧ l1Code p n (u32At b (4 + 4 * k)) ≤ 127) →
      Commits (.setL1 t i c) s t i Op.setL1 c
        [part (F.DIK_L1THR_S4 n) (l1Code p n (u32At b 16)), part (F.DIK_L1THR_S3 n) (l1Code p n (u32At b 12)),
          part (F.DIK_L1THR_S2 n) (l1Code p n (u32At b 8)), part (F.DIK_L1THR_S1 n) (l1Code p n (u32At b 4)),
          part F.DIK_L1CFG_BLANK (u16At b 2), part F.DIK_L1CFG_N (byteAt b 1)]) ∧
    (∀ n, s.takes i Op.setGateLink c → n = byteAt b 0 → n < 3 →
      Commits (.setGateLink t i c) s t i Op.setGateLink c
        [part (F.GLK_CFG_EN n) (byteAt b 1 % 2), part (F.GLK_CFG_VMAX n) (byteAt b 2), part (F.GLK_CFG_VMIN n) (byteAt b 3),
          part (F.GLK_CFG_NSW n) (byteAt b 1 / 2 % 2), part (F.GLK_CFG_LOSSN n) (byteAt b 4), whole (A.GLK_ISFS n) (u32At b 8)]) ∧
    (s.takes i Op.setGateLink c → byteAt b 0 = 3 →
      Commits (.setGateLink t i c) s t i Op.setGateLink c
        [part (F.GLK_CFG_EN 3) (byteAt b 1 % 2), part (F.GLK_CFG_VMAX 3) (byteAt b 2), part (F.GLK_CFG_VMIN 3) (byteAt b 3),
          part (F.GLK_CFG_LOSSN 3) (byteAt b 4), whole (A.GLK_ISFS 3) (u32At b 8)]) ∧
    (s.takes i Op.setFieldInputs c →
      Commits (.setFieldInputs t i c) s t i Op.setFieldInputs c ((List.range 8).flatMap fun k =>
        [part (F.FIO_DICFG_EDGE k) (u16At b 16 / 4 ^ k % 4), part (F.FIO_DICFG_FILT k) (u16At b (2 * k))])) ∧
    (s.takes i Op.setFieldOutputs c → (∀ k < 4, 10 ≤ u16At b (8 * k + 4) ∧ u16At b (8 * k + 4) ≤ 500) →
      Commits (.setFieldOutputs t i c) s t i Op.setFieldOutputs c ([0, 1, 2, 3].flatMap fun k =>
        [part (F.FIO_DOCFG_TP_EN k) (byteAt b (8 * k) % 2), part (F.FIO_DOCFG_RETRY k) (byteAt b (8 * k) / 2 % 2),
          part (F.FIO_DOCFG_TP_W k) (u16At b (8 * k + 2)), part (F.FIO_DOCFG_TP_INT k) (byteAt b (8 * k + 1)),
          part (F.FIO_DOCFG_RB_MASK k) (roundDivN (u16At b (8 * k + 4)) 10)])) ∧
    (∀ n x, s.takes i Op.setSafety c → p.sluiceTakes (s.clock t) (safetyWrites b) n → x = p.committed (s.clock t) c.sess n (safetyWrites b) →
      Does (.setSafety t i c) s t i (answer x Op.setSafety c (okWith (wBytes (spbCrc x)))))

/-- The commands of spec/10 to spec/12 that act (R297, R309, R310, R312, R313, R318, R330, R339, R348, R362, R363). CLEAR_TRIPS and SET_OUTPUTS
write through a sluice; TRIP latches source 8; RETRAIN starts to train; another GATE_LINK_CONTROL sends its message; RUN_SELF_TEST with no test to
run answers at once and with the comparator test starts it. The model's choices here are those of notes/assumptions/25.md (GATE_LINK_CONTROL and RETRAIN),
26.md (CLEAR_TRIPS and RUN_SELF_TEST), 27.md (field outputs) and 28.md (the safe pulse block).
A command that commits fields does so in every state in which the sluice rules take
them, a free sluice among them (R274 to R283). -/
def Obligations.ProtectionControlsComplete : Prop :=
  ∀ (s : State) (t : Nat) (i : PolderId) (c : Cmd) (b : List Byte) (now : Nat) (p : Polder), b = c.payload → now = s.clock t → p = s.pol i →
    (∀ n x, s.takes i Op.clearTrips c → p.sluiceTakes now (entriesOf [part F.DIK_CLR_BITS (u16At b 0 % 16384)]) n →
      x = p.committed now c.sess n (entriesOf [part F.DIK_CLR_BITS (u16At b 0 % 16384)]) →
      Does (.clearTrips t i c) s t i (answer x Op.clearTrips c
        ⟨if rd x A.DIK_CLRRES = 0 then Status.ok else Status.tripActive, 0, wBytes (rd x A.DIK_TRIPSRC) ++ wBytes (rd x A.DIK_CLRRES)⟩)) ∧
    (∀ q, s.takes i Op.trip c → q = logRec now 0x0C 1 Sev.warn (leBytes 1 (byteAt b 0)) (swTrip now p) →
      Does (.trip t i c) s t i (answer q Op.trip c (okWith (wBytes (rd q A.DIK_TRIPSRC))))) ∧
    (s.takes i Op.gateLinkControl c → byteAt b 0 ≤ 3 → byteAt b 1 = 0 → linkEn p (byteAt b 0) = true → trainAllowed p = true →
      ∃ q, Does (.gateLinkControl t i c) s t i q ∧ linkState q (byteAt b 0) = LinkSt.search ∧ rd q (A.GLK_ERR (byteAt b 0)) = 0 ∧
        (linkOf q (byteAt b 0)).retrain = some (refOf Op.gateLinkControl c) ∧ (linkOf q (byteAt b 0)).trainSince = now) ∧
    (∀ n, s.takes i Op.gateLinkControl c → n = byteAt b 0 → n ≤ 3 → byteAt b 1 = 1 ∨ byteAt b 1 = 4 → linkUp p n = true → (linkOf p n).out = none →
      Does (.gateLinkControl t i c) s t i
        (setLink p n (startMsg now (linkOf p n) ⟨byteAt b 1, [], now, 0, some (refOf Op.gateLinkControl c)⟩))) ∧
    (s.takes i Op.gateLinkControl c → byteAt b 0 ≤ 3 → byteAt b 1 = 1 ∨ byteAt b 1 = 4 → linkUp p (byteAt b 0) = false →
      Answers (.gateLinkControl t i c) s t i Op.gateLinkControl c ⟨Status.state, 0, wBytes (rd p (A.GLK_STAT (byteAt b 0))) ++ zeros 4⟩) ∧
    (s.takes i Op.runSelfTest c → p.dike.stestCmd = none → p.dike.cmpTest = none → p.dike.guPending = [] → byteAt b 0 % 4 = 0 →
      Answers (.runSelfTest t i c) s t i Op.runSelfTest c (okWith (wBytes (rd p A.DIK_STEST)))) ∧
    (∀ k v, s.takes i Op.runSelfTest c → p.dike.stestCmd = none → p.dike.cmpTest = none → p.dike.guPending = [] → p.afe.test = none →
      fbit p F.AFE_TEST_EN = false → byteAt b 0 % 4 = 1 → nextCmp p 0 = some k → nextLevel p k 0 = some v →
      Does (.runSelfTest t i c) s t i { p with dike := { p.dike with
        cmpTest := some ⟨k, v, now, false, false, 0, 0, 0⟩, stestCmd := some (refOf Op.runSelfTest c) } }) ∧
    (∀ n x, s.takes i Op.setOutputs c → byteAt b 0 % 16 ≠ 0 →
      p.sluiceTakes now [(A.FIO_DOCMD, wordN (byteAt b 0 % 16), wordN (byteAt b 1 % 16))] n →
      x = p.committed now c.sess n [(A.FIO_DOCMD, wordN (byteAt b 0 % 16), wordN (byteAt b 1 % 16))] →
      Does (.setOutputs t i c) s t i (answer x Op.setOutputs c (okWith (wBytes (rd x A.FIO_DOSTAT))))) ∧
    (s.takes i Op.setOutputs c → byteAt b 0 % 16 = 0 → Answers (.setOutputs t i c) s t i Op.setOutputs c (okWith (wBytes (rd p A.FIO_DOSTAT)))) ∧
    (∀ q, s.takes i Op.clearFieldDiag c → q = diagWrite now (wordN (u32At b 0)) p →
      Does (.clearFieldDiag t i c) s t i (answer q Op.clearFieldDiag c (okWith (wBytes (rd q A.FIO_DODIAG))))) ∧
    (∀ q, s.takes i Op.confirmSafety c → byteAt b 0 = 0 → byteAt b 1 = 0 → wordN (u32At b 4) = spbCrc p →
      q = spbSettle now (confirmSet now 1 c.sess p) →
      Does (.confirmSafety t i c) s t i (answer q Op.confirmSafety c (okWith (wBytes (rd q A.SPB_CRC_OK) ++ wBytes (spbStatWord q)))) ∧
        rd q A.SPB_CRC_OK = spbCrc p ∧ q.spb.confirmed = some (safetySet p)) ∧
    (s.takes i Op.confirmSafety c → byteAt b 0 = 0 → byteAt b 1 = 0 → wordN (u32At b 4) ≠ spbCrc p →
      Answers (.confirmSafety t i c) s t i Op.confirmSafety c (bare Status.conflict)) ∧
    (s.takes i Op.safetyAck c → spbState p = 2 → Answers (.safetyAck t i c) s t i Op.safetyAck c (okWith (wBytes (spbStatWord p)))) ∧
    (∀ q, s.takes i Op.safetyAck c → spbState p = 1 → demandsLow p = 0 → ackable p = true → q = spbSettle now (acknowledge now p).2 → q.dike.genLow = 0 →
      Does (.safetyAck t i c) s t i (modSpb (fun x => { x with waiting := x.waiting ++ [refOf Op.safetyAck c] }) q)) ∧
    (∀ q, s.takes i Op.setSafetyPassword c → byteAt b 4 = 0 → 8 ≤ byteAt b 5 ∧ byteAt b 5 ≤ 16 → passOk ((b.drop 24).take (byteAt b 5)) = true →
      passLocked now p = false → p.spb.password = none → (demandsLow p).testBit 3 = false → wordN (u32At b 0) = rd p A.SPB_CRC_OK →
      q = storeSafety now (changeLog now 3 c.sess (spbCrc p) (spbCrc p) (passStore ((b.drop 24).take (byteAt b 5)) p)) →
      Does (.setSafetyPassword t i c) s t i (answer q Op.setSafetyPassword c (okWith [])))

/-- The reads of spec/10 to spec/12 (R319, R323, R339, R364, R367): each answers the layout of its card; GET_FIELD_EVENTS takes the oldest entries
off the queue, the others change nothing. -/
def Obligations.ProtectionReadsComplete : Prop :=
  ∀ (s : State) (t : Nat) (i : PolderId) (c : Cmd) (b : List Byte) (p : Polder), b = c.payload → p = s.pol i →
    (s.takes i Op.getDike c → ∃ r : List Byte, r.length = 44 ∧ r.take 12 = wBytes (rd p A.DIK_TRIPSRC) ++ wBytes (activeWord (max s.now t) p) ++ wBytes (rd p A.DIK_FIRST) ∧
      (r.drop 12).take 12 = leBytes 6 (rdN p A.DIK_FT_SL + 4294967296 * (rdN p A.DIK_FT_SH % 65536)) ++ wBytes (rd p A.DIK_FT_NS) ++ leBytes 2 (rdN p A.DIK_FT_FR) ∧
      Answers (.getDike t i c) s t i Op.getDike c (okWith r)) ∧
    (s.takes i Op.getGateLinks c → ∃ r : List Byte, r.length = 96 ∧
      (∀ n < 4, (r.drop (24 * n)).take 24 = wBytes (rd p (A.GLK_CFG n)) ++ wBytes (rd p (A.GLK_STAT n)) ++ wBytes (rd p (A.GLK_ERR n)) ++
        wBytes (rd p (A.GLK_MON n)) ++ wBytes (rd p (A.GLK_TEMP n)) ++ wBytes (rd p (A.GLK_IS n))) ∧
      Answers (.getGateLinks t i c) s t i Op.getGateLinks c (okWith r)) ∧
    (s.takes i Op.getFieldIo c → ∃ r : List Byte, r.length = 72 ∧ r.take 8 = wBytes (rd p A.FIO_DI) ++
        wBytes (withBits (rd p A.FIO_STAT) F.FIO_STAT_QCOUNT.hi F.FIO_STAT_QCOUNT.lo p.fio.queue.length) ∧
      (∀ k < 8, (r.drop (24 + 4 * k)).take 4 = wBytes (rd p (A.FIO_DICNT k))) ∧ Answers (.getFieldIo t i c) s t i Op.getFieldIo c (okWith r)) ∧
    (∀ n, s.takes i Op.getFieldEvents c → n = byteAt b 0 → 1 ≤ n ∧ n ≤ 63 →
      Does (.getFieldEvents t i c) s t i
        (answer { p with fio := { p.fio with queue := p.fio.queue.drop n } } Op.getFieldEvents c
          (okWith (leBytes 1 (p.fio.queue.take n).length ++ leBytes 1 (p.fio.queue.drop n).length ++ zeros 2 ++
            (p.fio.queue.take n).flatMap fun e => (eventWords e).flatMap wBytes)))) ∧
    (s.takes i Op.getSafety c → ∃ r : List Byte, r.length = 76 ∧ r.take 4 = wBytes (spbStatWord p) ∧
      (r.drop 16).take 32 = wBytes (rd p A.SPB_CRC_OK) ++ safetySet p ∧ Answers (.getSafety t i c) s t i Op.getSafety c (okWith r)) ∧
    (∀ l, s.takes i Op.readSafetyLog c → byteAt b 0 ≤ 63 → 1 ≤ byteAt b 1 ∧ byteAt b 1 ≤ 32 →
      l = (p.spb.log.reverse.drop (byteAt b 0)).take (byteAt b 1) →
      Answers (.readSafetyLog t i c) s t i Op.readSafetyLog c
        (okWith (wBytes (rd p A.SPB_LOGCNT) ++ leBytes 1 p.spb.log.length ++ leBytes 1 l.length ++ zeros 2 ++ l.flatten)))

/-- R305: what a latch of bits that were not latched does: the bits set, `DIK_TRIPCNT` counts them, and the first of a tripped interval fills
`DIK_FIRST` and its timestamp; a later one leaves those. The latch keeps every other register of the Dike. -/
def Obligations.LatchesRecordTheFirst : Prop :=
  ∀ (p : Polder) (now m : Nat), 0 < m → m < 16384 → latched p &&& m = 0 →
    rd (latchBits now m p) A.DIK_TRIPSRC = rd p A.DIK_TRIPSRC ||| wordN m ∧
      rdN (latchBits now m p) A.DIK_TRIPCNT = min 4294967295 (rdN p A.DIK_TRIPCNT + popCount m) ∧
      (latched p = 0 → rd (latchBits now m p) A.DIK_FIRST = wordN (firstLink p m * 268435456 + m) ∧
        rd (latchBits now m p) A.DIK_FT_FR = wordN (fracOf (latchStamp p m now))) ∧
      (latched p ≠ 0 → rd (latchBits now m p) A.DIK_FIRST = rd p A.DIK_FIRST ∧ rd (latchBits now m p) A.DIK_FT_FR = rd p A.DIK_FT_FR) ∧
      ∀ off, off = A.DIK_TRIPEN ∨ off = A.DIK_GENMASK ∨ off = A.DIK_TRIPOMASK ∨ off = A.DIK_SETTLE ∨ off = A.DIK_CLRRES →
        rd (latchBits now m p) off = rd p off

/-- R309: a clear is all or nothing. When no latched bit of its mask has a source that is active or was within `DIK_SETTLE`, the bits clear, bit 7
apart, and `DIK_CLRRES` becomes 0; otherwise no latch changes, `DIK_CLRRES` shows the bits that failed and `DIK_EVT.CLR_REFUSED` sets. -/
def Obligations.ClearsAreAllOrNothing : Prop :=
  ∀ (p : Polder) (now m : Nat), m < 16384 →
    ((∀ k < 14, m.testBit k = true → (latched p).testBit k = true →
        sourceActive p k = false ∧ (k ≠ Src.spb → vget p.dike.inactiveAt k 0 + rdN p A.DIK_SETTLE * ms ≤ now)) →
      (dikClear now m p).1 = true ∧ rd (dikClear now m p).2 A.DIK_CLRRES = 0 ∧
        rd (dikClear now m p).2 A.DIK_TRIPSRC = rd p A.DIK_TRIPSRC &&& ~~~ (wordN m &&& ~~~ 0x80#32)) ∧
    ((∃ k < 14, m.testBit k = true ∧ (latched p).testBit k = true ∧
        (sourceActive p k = true ∨ (k ≠ Src.spb ∧ now < vget p.dike.inactiveAt k 0 + rdN p A.DIK_SETTLE * ms))) →
      (dikClear now m p).1 = false ∧ rd (dikClear now m p).2 A.DIK_TRIPSRC = rd p A.DIK_TRIPSRC ∧ rd (dikClear now m p).2 A.DIK_CLRRES ≠ 0 ∧
        fbit (dikClear now m p).2 F.DIK_EVT_CLR_REFUSED = true)

/-- The frames, messages and training of a gate link (R293, R295, R297 to R301): each event at its condition completes with its own effect; each frame
window sends one frame, an edge in the window that its offset names. The other events of the Dike (R303, R308, R311, R312): the L2 window, the trip input, a thermal limit, a level of the comparator self-test. -/
def Obligations.GateLinkAndDikeEvents : Prop :=
  (∀ (s : State) (t : Nat) (i : PolderId) (now : Nat) (p : Polder) (n : Nat) (l : Link) (g w : Nat), Runs s t i now p → n < 4 → l = linkOf p n →
    g = framePeriod p n → w = now / g * g →
    (∀ e rest f x, l.txEnd + g ≤ w → LinkSt.check ≤ linkState p n → carried p n = true → l.edges = e :: rest → fineOf p n (w - g) e = some f →
      x = { l with
        edges := rest, sentStates := e.states, txSeq := (l.txSeq + 1) % 8,
        lastTx := edgeFrame e.states f (firstStep e.sink (l.sentStates &&& (15 ^^^ e.states)))
          (firstStep e.source (e.states &&& (15 ^^^ l.sentStates))) l.txSeq } →
      Does (.downlinkFrame t i n) s t i (setLink p n (onLine w (frameSymbols x.lastTx) x))) ∧
    (∀ x, l.txEnd + g ≤ w → LinkSt.check ≤ linkState p n → carried p n = true → (∀ e ∈ l.edges.head?, fineOf p n (w - g) e = none) → l.txBytes = [] →
      x = { l with txSeq := (l.txSeq + 1) % 8, lastTx := plainFrame l.sentStates 0 0 l.txSeq } →
      Does (.downlinkFrame t i n) s t i (setLink p n (onLine w (frameSymbols x.lastTx) x))) ∧
    (∀ b rest x, l.txEnd + g ≤ w → LinkSt.check ≤ linkState p n → carried p n = true → l.edges = [] → l.txBytes = b :: rest →
      x = { l with
        txBytes := rest, txStarted := true, txSeq := (l.txSeq + 1) % 8,
        lastTx := plainFrame l.sentStates (if l.txStarted then 2 else 1) b.toNat l.txSeq } →
      Does (.downlinkFrame t i n) s t i (setLink p n (onLine w (frameSymbols x.lastTx) x))) ∧
    (l.txEnd + g ≤ w → linkState p n = LinkSt.search →
      Does (.downlinkFrame t i n) s t i
        (setLink p n (onLine w [.k285, .data (BitVec.ofNat 8 (trainCaps p n)), .data 1, .data (BitVec.ofNat 8 (trainCaps p n ^^^ 1))]
          { l with trainSent := 0 }))) ∧
    (w < l.txEnd + g → Does (.downlinkFrame t i n) s t i p) ∧
    (∀ w, LinkSt.check ≤ linkState p n → bitsOf w 5 0 = crc6 w → l.rxSeq = some ((bitsOf w 8 6 + 7) % 8) →
      Does (.uplinkFrame t i n false w) s t i (useFrame now n w (setLink p n { l with
        rxSeq := some (bitsOf w 8 6), lastRx := w, missing := 0 }))) ∧
    (∀ w, LinkSt.check ≤ linkState p n → bitsOf w 5 0 ≠ crc6 w →
      ∃ q, Does (.uplinkFrame t i n false w) s t i q ∧ (linkOf q n).missing = l.missing + 1 ∧ (linkOf q n).lastRx = w ∧
        bitsOf (rd q (A.GLK_ERR n)) 31 16 = min 65535 (bitsOf (rd p (A.GLK_ERR n)) 31 16 + 1) ∧
        bitsOf (rd q (A.GLK_ERR n)) 15 0 = bitsOf (rd p (A.GLK_ERR n)) 15 0) ∧
    (linkUp p n = true → fget p (F.GLK_CFG_LOSSN n) ≤ l.missing ∨ l.holdExpired = true →
      Does (.linkLost t i n) s t i (setLinkState n LinkSt.lost p)) ∧
    (∀ x, linkState p n = LinkSt.search → trainValid x = true → fget p (F.GLK_CFG_VMIN n) ≤ min (fget p (F.GLK_CFG_VMAX n)) (x.caps / 16) → ∃ q,
      Does (.trainingFrame t i n x) s t i q ∧ linkState q n = LinkSt.negotiate ∧ (linkOf q n).trainSince = now ∧
        fget q (F.GLK_STAT_VER n) = min (fget p (F.GLK_CFG_VMAX n)) (x.caps / 16)) ∧
    (∀ x, linkState p n = LinkSt.negotiate → trainValid x = true → x.state = 16 + fget p (F.GLK_STAT_VER n) → 7 ≤ l.trainFrames → 8 ≤ l.trainSent →
      Does (.trainingFrame t i n x) s t i (setLinkState n LinkSt.align (setLink p n { l with trainSince := now, trainFrames := 0 }))) ∧
    (linkState p n = LinkSt.search → l.trainSince + 100 * us ≤ now →
      ∃ q, Does (.trainingFailure t i n) s t i q ∧ linkState q n = LinkSt.down ∧ fget q (F.GLK_STAT_FAILRSN n) = 1 ∧ (linkOf q n).failedAt = some now) ∧
    (∀ f, l.failedAt = some f → f + 10 * ms ≤ now → linkEn p n = true → trainAllowed p = true → linkState p n = LinkSt.down →
      ∃ q, Does (.trainingRetry t i n) s t i q ∧ linkState q n = LinkSt.search ∧ rd q (A.GLK_ERR n) = 0 ∧ (linkOf q n).trainSince = now) ∧
    (∀ m c b q, l.out = some m → m.code = Msg.readId → m.purpose = 0 → m.cmd = some c → q = wr (nextMsg now n p) (A.GLK_ID n) (wordN (u32At b 0)) →
      Does (.gateUnitResponse t i n 129 b) s t i (replyTo q c ⟨Status.ok, 0, wBytes (rd q (A.GLK_STAT n)) ++ (b ++ zeros 4).take 4⟩)) ∧
    (∀ m c q, l.out = some m → m.code = Msg.readId → m.purpose = 0 → m.cmd = some c → m.sentAt + 50 * us ≤ now → q = errLo n 1 (nextMsg now n p) →
      Does (.messageTimeout t i n) s t i (replyTo q c ⟨Status.timeout, 0, wBytes (rd q (A.GLK_STAT n)) ++ zeros 4⟩))) ∧
  (∀ (s : State) (t : Nat) (i : PolderId) (now : Nat) (p : Polder), Runs s t i now p →
    (∀ t0 k, p.dike.l2Window = some (t0, k) → t0 + 10 * us ≤ now →
      Does (.l2WindowEnd t i) s t i { p with dike := { p.dike with l2Window := none } }) ∧
    (∀ k, fget p F.DIK_CFG_TRIPI_FILT ≤ k → p.dike.tripiLow = false → Does (.tripiChange t i ⟨true, k⟩) s t i
      (evt F.DIK_EVT_TRIPI { p with dike := { p.dike with tripiLow := true, tripiPin := true, tripiEdge := now } })) ∧
    (∀ k, fget p F.DIK_CFG_TRIPI_FILT ≤ k →
      Does (.tripiChange t i ⟨false, k⟩) s t i { p with dike := { p.dike with tripiLow := false, tripiPin := false, tripiEdge := now } }) ∧
    (∀ k low, k < fget p F.DIK_CFG_TRIPI_FILT →
      Does (.tripiChange t i ⟨low, k⟩) s t i { p with dike := { p.dike with tripiPin := low, tripiEdge := now } }) ∧
    (∀ k since, k < 2 → vget p.dike.thermSince k none = some since → since + ms ≤ now →
      Does (.thermalTrip t i) s t i { p with dike := { p.dike with therm := true } }) ∧
    (∀ x v, p.dike.cmpTest = some x → x.since + 15 * us ≤ now → nextLevel p x.cmp (x.level + 1) = some v →
      Does (.comparatorSelfTestLevel t i (x.level % 2 == 1)) s t i
        { p with dike := { p.dike with cmpTest := some { x with level := v, since := now } } }) ∧
    (∀ x v, p.dike.cmpTest = some x → x.since + 15 * us ≤ now → nextLevel p x.cmp (x.level + 1) = some v →
      Does (.comparatorSelfTestLevel t i (x.level % 2 != 1)) s t i
        { p with dike := { p.dike with cmpTest := some { x with level := v, since := now, failed := true } } }))

/-- The events of spec/11 (R320 to R336): a raw edge, the end of a filter time with its count and queue entry, what the read-back samples with the
flag of its direction, current limit and thermal shutdown of a stage in which current can flow (on the FGC4200 none flows while off), restart, a test pulse,
loss and return of the field supply. -/
def Obligations.FieldEvents : Prop :=
  ∀ (s : State) (t : Nat) (i : PolderId) (now : Nat) (p : Polder), Runs s t i now p →
    (∀ k p1, k < 8 → (din p k).raw = false → diCount p k now = 0 →
      p1 = setDin k { din p k with raw := true, rawAt := now, count := 0, countAt := now, left := cycleStamp p now } p →
      Does (.rawInputChange t i k true) s t i (putBit p1 F.FIO_DI_RAW k (lpOk p))) ∧
    (∀ k p1 a, k < 8 → (din p k).filt = false → rawState p k = true → 0 < diTicks p k → diCount p k now = diTicks p k → a = (din p k).left →
      fget p (F.FIO_DICFG_EDGE k) % 2 = 1 → p.fio.queue.length < 64 →
      p1 = addSat (putBit (setDin k { din p k with filt := true, count := diTicks p k, countAt := now } p) F.FIO_DI_FILT k true) (A.FIO_DICNT k) 1 →
      Does (.fieldInputChange t i k) s t i (brkSee { p1 with fio := { p1.fio with
        queue := p.fio.queue ++ [⟨k, true, fracOf a, nanosOf a, secsOf a⟩] } })) ∧
    (∀ k n, k < 4 → lpOk p = true → (dout p k).pulse = none → (dout p k).maskEnd + 4 * us ≤ now → 5 ≤ n →
      ∃ q, Does (.readbackFault t i ⟨k, !getBit p F.FIO_DOSTAT_DRIVEN k, n⟩) s t i q ∧ getBit q F.FIO_DOSTAT_RB k = !getBit p F.FIO_DOSTAT_DRIVEN k ∧
        diagGet q k (if getBit p F.FIO_DOSTAT_DRIVEN k then Diag.noDrive else Diag.extDrive) = true) ∧
    (∀ k n high, k < 4 → lpOk p = true → now < (dout p k).maskEnd →
      Does (.readbackFault t i ⟨k, high, n⟩) s t i (putBit p F.FIO_DOSTAT_RB k high)) ∧
    (∀ k m, k < 4 → lpOk p = true → stageOn s.part p k = true → m = wordN (2 ^ (8 * k + 2)) →
      Does (.ilim t i k) s t i (marked A.FIO_DODIAG m (wr p A.FIO_DODIAG (rd p A.FIO_DODIAG ||| m)))) ∧
    (∀ k, k < 4 → stageOn s.part p k = false → Does (.ilim t i k) s t i p ∧ Does (.therm t i k) s t i p) ∧
    (∀ k, k < 4 → lpOk p = true → stageOn s.part p k = true → ∃ q, Does (.therm t i k) s t i q ∧ diagGet q k Diag.therm = true ∧ (dout q k).shut = some now ∧
      getBit q F.FIO_DOSTAT_DRIVEN k = false) ∧
    (∀ k t0, k < 4 → (dout p k).shut = some t0 → fbit p (F.FIO_DOCFG_RETRY k) = true → t0 + 100 * ms ≤ now →
      Does (.thermalRestart t i k) s t i (drive now (modDout k (fun o => { o with shut := none, hot := false }) p))) ∧
    (∀ k t0, k < 4 → (dout p k).onSince = some t0 → t0 + fget p (F.FIO_DOCFG_TP_INT k) * sec ≤ now → fbit p (F.FIO_DOCFG_TP_EN k) = true →
      drivenNow p k = true → (∀ j < 4, (dout p j).pulse = none) → (dout p k).notBefore ≤ now →
      ∃ q, Does (.testPulseStart t i k) s t i q ∧ (dout q k).pulse = some now ∧ getBit q F.FIO_DOSTAT_TP k = true ∧
        getBit q F.FIO_DOSTAT_DRIVEN k = false ∧ docmd q = docmd p) ∧
    (∀ k t0, k < 4 → (dout p k).pulse = some t0 → t0 + fget p (F.FIO_DOCFG_TP_W k) * us ≤ now → (dout p k).discard = false →
      ∃ q, Does (.testPulseEnd t i k true) s t i q ∧ rdN q (A.FIO_TPPASS k) = min 4294967295 (rdN p (A.FIO_TPPASS k) + 1) ∧ (dout q k).pulse = none ∧
        rd q A.FIO_DODIAG = rd p A.FIO_DODIAG) ∧
    (lpOk p = true → ∃ q, Does (.lpLoss t i) s t i q ∧ lpOk q = false ∧ docmd q = 0 ∧ rd q A.FIO_DI = 0 ∧ q.spb.lane2 = false ∧
      (∀ k < 8, rd q (A.FIO_DICNT k) = rd p (A.FIO_DICNT k))) ∧
    (lpOk p = false → p.fio.lpSince.getD 0 + 10 * ms ≤ now → ∃ q, Does (.lpReturn t i) s t i q ∧ lpOk q = true ∧ fbit q F.FIO_EVT_LPUP = true ∧
      q.spb.lane2 = true)

/-- The lanes, the enable-path test and the safety inputs (R342, R345, R346, R351, R352): each event at its condition. Stomet frames (R355 to R359):
a frame that fails its checks is discarded and counted; the second copy, equal to the first within its window, is accepted; a window that ends
without its partner, in the mode that needs both, is an event of source 7; so is the watchdog; networks go down and come back; a status frame goes
out at its period. -/
def Obligations.SafePulseBlockEvents : Prop :=
  (∀ (s : State) (t : Nat) (i : PolderId) (now : Nat) (p : Polder), Runs s t i now p →
    (∀ x, x.good = true → x.toLane1 = true → p.spb.lane1 = true → p.spb.lane2 = true → x.rb = genMask p →
      ∃ q, Does (.laneMessage t i x) s t i q ∧ q.regs = p.regs ∧ q.spb.heard2 = now ∧ q.spb.demand2 = x.demand ∧ q.spb.inputs2 = x.inputs ∧
        (q.spb.loaded2 = true ↔ p.spb.loaded2 = true ∨ x.check = spbCrc p)) ∧
    (∀ x j, x.good = true → x.toLane1 = true → p.spb.lane1 = true → p.spb.lane2 = true → j < 2 → x.rb.testBit j ≠ genHigh p j →
      vget p.spb.genAt j 0 + 5 * us ≤ now → ∃ q, Does (.laneMessage t i x) s t i q ∧ fbit q F.SPB_FAULT_GENRB = true) ∧
    (∀ t0, p.spb.disagree = some t0 ∨ p.spb.disagree2 = some t0 → t0 + 500 * us ≤ now → p.spb.lane1 = true → p.spb.lane2 = true →
      Does (.laneDisagreement t i) s t i (spbReport now true (fput p F.SPB_FAULT_LANE 1))) ∧
    (p.spb.lane1 = true → p.spb.lane2 = true → p.spb.heard2 + ms ≤ now →
      Does (.laneStopped t i) s t i (spbReport now true (fput (modSpb (fun x => { x with demand2 := true }) p) F.SPB_FAULT_HB 1))) ∧
    (p.spb.lane1 = true → p.spb.corrupt = true ∨ p.spb.corrupt1 = true → p.spb.confirmed.isSome = true →
      Does (.parameterCheck t i) s t i (spbReport now true (fput p F.SPB_FAULT_CFGCRC 1))) ∧
    (∀ k, k < 4 → p.spb.lane1 = true → rawState p (4 + k) ≠ getBit p F.SPB_STAT_INP k → (din p (4 + k)).rawAt + rdN p A.SPB_FILT * us ≤ now →
      p.spb.laneAt + rdN p A.SPB_FILT * us ≤ now →
      ∃ q, Does (.safetyInputFiltered t i k) s t i q ∧ getBit q F.SPB_STAT_INP k = rawState p (4 + k) ∧
        ∀ j < 4, j ≠ k → getBit q F.SPB_STAT_INP j = getBit p F.SPB_STAT_INP j) ∧
    (∀ j t0, j < 2 → vget p.spb.disc j none = some t0 → t0 + rdN p A.SPB_DISC * ms ≤ now → vget p.spb.discLatched j false = false →
      ∃ q, Does (.disc t i j) s t i q ∧ vget q.spb.discLatched j false = true ∧
        fbit q (if j = 0 then F.SPB_EVT_DISC1 else F.SPB_EVT_DISC2) = true) ∧
    (p.spb.testWanted = true → p.spb.test = none → p.dike.genLow = 0 → p.spb.lane1 = true →
      Does (.enablePathTestStart t i) s t i (modSpb (fun x => { x with test := some (0, now), testWanted := false }) p)) ∧
    (∀ k t0 x y, p.spb.test = some (k, t0) → t0 + (if k % 2 = 0 then 200 * us else 100 * us) ≤ now → k < 7 → x = genHigh p 0 → y = genHigh p 1 →
      (∀ n < 4, linkLive p n = true → linkFollows p k t0 n = true) →
      Does (.enablePathTestStep t i x y) s t i (modSpb (fun z => { z with test := some (k + 1, now), rbOff := 0 }) p)) ∧
    (∀ t0 q, p.spb.test = some (7, t0) → t0 + 100 * us ≤ now → (∀ n < 4, linkLive p n = true → linkFollows p 7 t0 n = true) →
      q = testPassed now (modSpb (fun z => { z with rbOff := 0 }) p) →
      Does (.enablePathTestStep t i (genHigh p 0) (genHigh p 1)) s t i q ∧ rd q A.SPB_TESTAGE = 0 ∧ q.spb.test = none ∧ (spbState p = 1 → spbState q = 2)) ∧
    (p.spb.ageAt + 3600 * sec ≤ now → ∃ q, Does (.testAgeHour t i) s t i q ∧ rd q A.SPB_TESTAGE = rd p A.SPB_TESTAGE + 1 ∧
      q.spb.ageAt = p.spb.ageAt + 3600 * sec ∧ (rdN q A.SPB_TESTINT ≤ rdN q A.SPB_TESTAGE → fget q F.SPB_STAT_TEST_DUE = 1)) ∧
    (∀ t0, p.spb.lockEnd = some t0 → t0 ≤ now →
      Does (.passwordLockoutEnd t i) s t i (modSpb (fun x => { x with lockEnd := none, wrong := 0 }) p))) ∧
  (∀ (s : State) (t : Nat) (i : PolderId) (now : Nat) (p : Polder), Runs s t i now p →
    (∀ port ip b p1, port < 2 → s.hall.up = true → p.spb.lane1 = true → b.length = 40 → p1 = windowEnd now (netHeard now port p) →
      copyValid now ip b p1 = false → DoesHeard (.stometFrame t i port ip b) s t port i (addSat p1 A.SPB_DISCARD 1)) ∧
    (∀ port ip b p1 w, port < 2 → s.hall.up = true → p.spb.lane1 = true → b.length = 40 → p1 = windowEnd now (netHeard now port p) →
      copyValid now ip b p1 = true → (p1.spb.windows.find? fun x => x.seq == frameSeq b) = some w → w.port ≠ port → w.bytes = b →
      ∃ q, DoesHeard (.stometFrame t i port ip b) s t port i q ∧ rdN q A.SPB_LASTSEQ = frameSeq b ∧
        rdN q A.SPB_ACCEPTED = min 4294967295 (rdN p A.SPB_ACCEPTED + 1) ∧ q.spb.lastAccepted = now ∧
        (∀ k < 4, rd q (A.SPB_RXDATA k) = wordN (u32At b (20 + 4 * k)))) ∧
    (∀ w, p.spb.windows = [w] → w.since + rdN p A.SPB_CMPWIN * us ≤ now → fbit p F.SPB_CFG_CMPMODE = false →
      ∃ q, Does (.comparisonWindowEnd t i) s t i q ∧ q.spb.windows = [] ∧ fbit q F.SPB_EVT_MISSING = true) ∧
    (rxUsed p = true → p.spb.lane1 = true → p.spb.wdogDone = false → p.spb.lastAccepted + rdN p A.SPB_WD * ms ≤ now →
      ∃ q, Does (.wdog t i) s t i q ∧ fbit q F.SPB_EVT_WDOG = true ∧ connLatched q = true) ∧
    (∀ j, j < 2 → getBit p F.SPB_STAT_NETUP j = true → vget p.spb.heardAt j 0 + rdN p A.SPB_NETDOWN * ms ≤ now →
      Does (.networkDown t i j) s t i (netDown j p)) ∧
    (∀ j t0, j < 2 → vget p.spb.upSince j none = some t0 → t0 + sec ≤ now →
      ∃ q, Does (.networkResume t i j) s t i q ∧ vget q.spb.resumed j false = true ∧ (netUsable q 0 = true → netUsable q 1 = true → fget q F.SPB_STAT_REDUCED = 0)) ∧
    (fbit p F.SPB_CFG_TX_EN = true → p.spb.lane1 = true → lanesAgree p = false → p.spb.txAt + rdN p A.SPB_TXPER * ms ≤ now →
      Does (.stometTransmit t i) s t i (modSpb (fun x => { x with txAt := now }) p)) ∧
    (fbit p F.SPB_CFG_TX_EN = true → p.spb.lane1 = true → lanesAgree p = true → p.spb.txAt + rdN p A.SPB_TXPER * ms ≤ now →
      Does (.stometTransmit t i) s t i (emit (modSpb (fun x => { x with txSeq := p.spb.txSeq + 1, txAt := now }) p)
        (.datagram (rdN p A.SPB_PEERIP) 4403 (statusFrame now (p.spb.txSeq + 1) p)))))

/-! ### Clocks and time (spec/13) -/

/-- The commands of spec/13 (R368, R370, R386, R393): SET_CLOCK commits the registers whose values differ from those in force; SET_TIME makes
presented time what it says, at quality NONE or FREE only; the reads answer the layouts of their cards.
A command that commits fields does so in every state in which the sluice rules take
them, a free sluice among them (R274 to R283). -/
def Obligations.ClockAndTimeCommandsComplete : Prop :=
  ∀ (s : State) (t : Nat) (i : PolderId) (c : Cmd) (b : List Byte) (now : Nat) (p : Polder), b = c.payload → now = s.clock t → p = s.pol i →
    (∀ l n x k, s.takes i Op.setClock c → 10000000 ≤ u32At b 0 ∧ u32At b 0 ≤ 50000000 → -500000 ≤ i32At b 4 ∧ i32At b 4 ≤ 500000 →
      k = clkCodes (u32At b 0) (i32At b 4) ((byteAt b 8).testBit 1) →
      l = (if k.1 = fget p F.CLK_CFG_NINT ∧ byteAt b 8 % 2 = fget p F.CLK_CFG_SEARCH then [] else [part F.CLK_CFG_SEARCH (byteAt b 8 % 2), part F.CLK_CFG_NINT k.1]) ++
          (if k.2 = fget p F.CLK_FRAC_FRAC then [] else [part F.CLK_FRAC_FRAC k.2]) ++
          (if u32At b 0 = rdN p A.CLK_FREF then [] else [whole A.CLK_FREF (u32At b 0)]) →
      p.admits now l n → x = p.committed now c.sess n (entriesOf l) →
      Does (.setClock t i c) s t i (answer x Op.setClock c (okWith (wBytes (rd x A.CLK_CFG) ++ wBytes (rd x A.CLK_FRAC))))) ∧
    (s.takes i Op.getClock c → ∃ r : List Byte, r.length = 28 ∧ r.take 12 = wBytes (rd p A.CLK_CFG) ++ wBytes (rd p A.CLK_FRAC) ++ wBytes (viewWord s.part now p A.CLK_STAT) ∧
      Answers (.getClock t i c) s t i Op.getClock c (okWith r)) ∧
    (s.takes i Op.setTimeSources c →
      Commits (.setTimeSources t i c) s t i Op.setTimeSources c
        [whole (A.TIM_DOMCFG 0) (u32At b 0), whole (A.TIM_DOMCFG 1) (u32At b 4), part F.TIM_CFG_STEP_EN (byteAt b 8 % 2),
          part F.TIM_CFG_REVERT (byteAt b 8 / 2 % 2), part F.TIM_CFG_SLEW (byteAt b 9), whole A.TIM_GOODTHR (u32At b 12),
          whole A.TIM_HOLDTMO (u32At b 16), whole A.TIM_REVERTT (u32At b 20), whole A.TIM_SRVBW (u32At b 24), whole A.TIM_STEPTHR (u32At b 28)]) ∧
    (s.takes i Op.getTime c → ∃ r : List Byte, r.length = 60 ∧
      r.take 12 = leBytes 6 (secsOf (presented p now)) ++ leBytes 4 (nanosOf (presented p now)) ++ leBytes 2 (fracOf (presented p now)) ∧
      (r.drop 12).take 16 = wBytes (rd p A.TIM_STAT) ++ wBytes (rd p A.TIM_EVT) ++ wBytes (rd p (A.TIM_OFS 0)) ++ wBytes (rd p (A.TIM_OFS 1)) ∧
      Answers (.getTime t i c) s t i Op.getTime c (okWith r)) ∧
    (s.takes i Op.setPps c → 1 ≤ byteAt b 1 ∧ byteAt b 1 ≤ 3 → 1 ≤ u16At b 2 ∧ u16At b 2 ≤ 900 →
      Commits (.setPps t i c) s t i Op.setPps c
        [part F.TIM_PPSCFG_DIR (byteAt b 0 % 2), part F.TIM_PPSCFG_QMIN (byteAt b 1), part F.TIM_PPSCFG_WIDTH (u16At b 2)]) ∧
    (s.takes i Op.setTime c → u32At b 6 ≤ 999999999 → timeOk c (u48At b 0) (u32At b 6) = true → qualityAt p now ≤ 1 → onPll p = true →
      ∃ q, presented q now = fsOf (u48At b 0) (u32At b 6) ∧ Does (.setTime t i c) s t i (answer q Op.setTime c (okWith (wBytes (rd q A.TIM_STAT))))) ∧
    (s.takes i Op.setTime c → u32At b 6 ≤ 999999999 → timeOk c (u48At b 0) (u32At b 6) = true → 1 < qualityAt p now → Answers (.setTime t i c) s t i Op.setTime c (bare Status.state))

/-- The clock generator (R371, R374, R376): a missing reference and a lost lock switch CLK_P to the backup oscillator; the reference found good
starts an attempt; a lock brings CLK_P back, and `LOCK` sets after the calibration; while no attempt succeeds a band search follows every 10 ms.
Time (R378 to R390): strobes, PTP messages, loss of a domain, the choice of the active base, and the PPS pin. An offset that does not fit `TIM_OFSn`
leaves a free word there (the model's choice, notes/assumptions/22.md). -/
def Obligations.ClockAndTimeEvents : Prop :=
  (∀ (s : State) (t : Nat) (i : PolderId) (now : Nat) (p : Polder), Runs s t i now p →
    (∃ q, Does (.refclkMissing t i) s t i q ∧ fbit q F.CLK_EVT_REFLOSS = true ∧ fget q F.CLK_STAT_SRC = 1 ∧
      fbit q F.CLK_STAT_LOCK = false ∧ fbit q F.CLK_STAT_REFOK = false ∧ rdN q A.CLK_LOSSES = min 4294967295 (rdN p A.CLK_LOSSES + 1)) ∧
    (onPll p = true → ∃ q, Does (.unlockPll t i) s t i q ∧ fbit q F.CLK_EVT_UNLOCK = true ∧ fget q F.CLK_STAT_SRC = 1 ∧ fget q F.CLK_STAT_STATE = 4 ∧
      fbit q F.CLK_STAT_LOCK = false ∧ rdN q A.CLK_LOSSES = min 4294967295 (rdN p A.CLK_LOSSES + 1)) ∧
    (∀ v, fbit p F.CLK_STAT_REFOK = false → onPll p = false → ∃ q, Does (.refok t i v) s t i q ∧ fbit q F.CLK_STAT_REFOK = true ∧
      (fget q F.CLK_STAT_STATE = 1 ∨ fget q F.CLK_STAT_STATE = 2) ∧ q.clk.temp = v) ∧
    (∀ band v, fget p F.CLK_STAT_STATE = 1 ∨ fget p F.CLK_STAT_STATE = 2 → ∃ q, Does (.pllLock t i true band v) s t i q ∧ onPll q = true ∧
      fget q F.CLK_STAT_STATE = 3 ∧ q.clk.calibrating = true ∧ (fget p F.CLK_STAT_STATE = 2 → fget q F.CLK_STAT_BAND = band % 64)) ∧
    (∀ band v, fget p F.CLK_STAT_STATE = 2 → ∃ q, Does (.pllLock t i false band v) s t i q ∧ fget q F.CLK_STAT_STATE = 4) ∧
    (fget p F.CLK_STAT_STATE = 4 → fbit p F.CLK_STAT_REFOK = true → 10 * ms ≤ now - p.clk.since →
      ∃ q, Does (.bandSearchRetry t i) s t i q ∧ fget q F.CLK_STAT_STATE = 2 ∧ q.clk.since = now) ∧
    (p.clk.calibrating = true → ∃ q, Does (.calibrationComplete t i) s t i q ∧ fbit q F.CLK_STAT_LOCK = true ∧ q.clk.calibrating = false ∧
      (p.clk.everLocked = true → fbit q F.CLK_EVT_RELOCK = true))) ∧
  (∀ (s : State) (t : Nat) (i : PolderId) (now : Nat) (p : Polder), Runs s t i now p →
    (∀ h, s.hall.up = true → ∃ q, DoesAll (.hallTimeStrobe t i h) s t (modHall (fun g => { g with timeRef := some (h, now) }) ((s.at' t).setPol i (polish now q))) ∧
      q.tim.lastStrobe = now ∧ fbit q F.TIM_STAT_HALLOK = true ∧ q.tim.strobes = ((h, tblStamp p now) :: p.tim.strobes).take 16) ∧
    (3 * sec ≤ now - strobeSince p → ∃ q, Does (.hallLost t i) s t i q ∧ fbit q F.TIM_STAT_HALLOK = false ∧
      (p.tim.hallGone = false → fbit q F.TIM_EVT_HALL_LOST = true) ∧ ∀ n < 2, 1 ≤ domState p n ∧ domState p n ≤ 3 → domState q n = 4) ∧
    (∀ (x : SyncIn) p1 n tl, s.hall.up = true → seState p = Eng.run → x.port < 2 → p1 = netHeard now x.port p → domOf p1 x.domain = some n →
      domState p1 n = 2 ∨ domState p1 n = 3 → (baseOf p1 n).gm = some x.gm → domPort p1 n = x.port + 1 → -3 ≤ x.interval ∧ x.interval ≤ 0 →
      hallToTbl p1.tim.strobes x.rx = some tl →
      ∃ q, DoesHeard (.syncMessage t i x) s t x.port i q ∧ (baseOf q n).lastSync = some now ∧
        rd q (A.TIM_OFS n) = wordFit (A.TIM_OFS n)
          (roundDiv (baseAt (baseOf p1 n) (rdI p1 (A.TIM_RATE n)) tl - (x.origin + ((rdN p1 (A.TIM_PDLY x.port) * ns : Nat) : Int))) ns)) ∧
    (∀ (x : AnnounceIn) p1 n, s.hall.up = true → seState p = Eng.run → x.port < 2 → p1 = netHeard now x.port p → domOf p1 x.domain = some n →
      domState p1 n = 1 → x.interval = 0 → (∀ k < 2, vget (baseOf p1 n).seen k none = none) → x.cls.toNat ≤ fget p1 (F.TIM_DOMCFG_CLASSMAX n) →
      ∃ q, DoesHeard (.announceMessage t i x) s t x.port i q ∧ domState q n = 2 ∧ (baseOf q n).gm = some x.gm.toNat ∧ domPort q n = x.port + 1) ∧
    (∀ n, n < 2 → domState p n = 2 ∨ domState p n = 3 → 3 * sec ≤ now - (baseOf p n).lastHeard →
      ∃ q, Does (.domainLost t i n) s t i q ∧ domState q n = 4 ∧ domPort q n = 0 ∧ fbit q (if n = 0 then F.TIM_EVT_DOM0_LOST else F.TIM_EVT_DOM1_LOST) = true) ∧
    (∀ k, newActive now p = some k → ∃ q, Does (.revert t i) s t i q ∧ fget q F.TIM_STAT_ACT = k ∧ fbit q F.TIM_EVT_SWITCH = true) ∧
    (newActive now p = none → stepDue now (qualityAt p now) p = false →
      ∃ q, Does (.holdoverExpiry t i) s t i q ∧ quality q = qualityAt p now ∧ presented q now = presented p now) ∧
    (newActive now p = none → stepDue now (qualityAt p now) p = false → corrNow now p = 0 →
      ∃ q, Does (.correctionSlew t i) s t i q ∧ fbit q F.TIM_STAT_SLEW = false) ∧
    (∀ k v, k < 2 → s.hall.up = true →
      DoesAll (.peerDelayMeasurement t i k v) s t
        (pdelaySend now k ((portHeard now k (s.at' t)).setPol i (polish now (wr (netHeard now k p) (A.TIM_PDLY k) (wordN v))))) ∧
      (vget s.hall.pdAt k none = none → ∃ f, (pdelaySend now k s).hall.sent = s.hall.sent ++ [f] ∧
        f = .frame s.hall.prpSeq (hapF s.hall F.HAL_CFG_PCP_PTP) 0x0180C200000E 0x88F7
          (pdelayAsk now k s.hall))) ∧
    (fbit p F.TIM_PPSCFG_DIR = true → onPll p = true → fget p F.TIM_PPSCFG_QMIN ≤ qualityAt p now → presented p now % (sec : Nat) ≤ (ns : Nat) →
      p.tim.ppsHigh = none → p.tim.stepsIn (tblAt p.tim now / (cyc : Nat)) = false →
      Does (.ppsOutput t i) s t i (modTim (fun x => { x with ppsHigh := some now }) p)) ∧
    (p.tim.stepsIn (tblAt p.tim now / (cyc : Nat)) = true → Does (.ppsOutput t i) s t i p) ∧
    (∀ t0, p.tim.ppsHigh = some t0 → fget p F.TIM_PPSCFG_WIDTH * ms ≤ now - t0 →
      Does (.ppsPulseEnd t i) s t i (modTim (fun x => { x with ppsHigh := none }) p)) ∧
    (fbit p F.TIM_PPSCFG_DIR = false → ∃ q, Does (.ppsIn t i) s t i q ∧ fbit q F.TIM_EVT_PPS_IN = true ∧
      rd q A.TIM_PPS_FR = wordN (fracOf (tdcStamp p now)) ∧ rd q A.TIM_PPS_NS = wordN (nanosOf (tdcStamp p now))))

/-- R384: when the active base changes, C takes up the difference, so presented time is continuous. -/
def Obligations.PresentedTimeIsContinuous : Prop :=
  ∀ (p : Polder) (now n : Nat), n ≤ 2 → presented (baseSwitch now n p) now = presented p now ∧ fget (baseSwitch now n p) F.TIM_STAT_ACT = n

/-! ### The Hall (spec/14) -/

/-- The commands of the Hall (R406 to R410, R412, R417, R419 to R421). HELLO opens a session at the lowest free index under an ID that no other has;
BYE closes it and frees its tokens; TOKEN_TAKE gives all the tokens named for 2 s; the settings come into force with the reply; the expert commands
act in order. That the ID drawn differs from every open session's and that the index is the lowest free one are the model's choice (notes/assumptions/7.md,
38.md). -/
def Obligations.HallCommandsComplete : Prop :=
  (∀ (s : State) (t : Nat) (h : HelloArgs) (v i : Nat), s.hall.up = true → s.sessionsOk → h.payload.length = 24 → chooseVersion (u16At h.payload 0) = some v →
    v ≠ 0x10 → byteAt h.payload 2 = 255 → h.src = .spi → ((List.range 8).find? fun k => (sessOf s.hall k).isNone) = some i →
    ∃ y x, DoesAll (.hello t h) s t y ∧ sessOf y.hall i = some x ∧ x.idx = i ∧ x.ver = v ∧ (noKeys s.hall = true → x.role = 2 ∧ x.mask = 31) ∧
      (∀ e ∈ s.hall.sessions, e.id ≠ x.id) ∧ (∀ k, k ≠ i → sessOf y.hall k = sessOf s.hall k) ∧ y.hall.tokens = s.hall.tokens) ∧
  (∀ (s : State) (t : Nat) (c : Cmd) (x : Session) (b : List Byte) (now : Nat), b = c.payload → now = s.clock t → x.idx = c.sess →
    (s.hears Op.bye c x → ∃ y, DoesAll (.bye t c) s t y ∧ sessOf y.hall c.sess = none ∧ ∀ k, holds y.hall k c.sess = false) ∧
    (∀ y, s.hears Op.tokenTake c x → (∀ k ∈ tokensOf (byteAt b 0 % 32), (∀ i, polderNo k = some i → Part.has s.part i = true) ∧ (maskOf s.hall x).testBit k = true ∧
        (vget s.hall.tokens k none = none ∨ holds s.hall k x.idx = true)) → roleOf s.hall x ≠ 0 → (byteAt b 1).testBit 0 = false →
      y = (tokensOf (byteAt b 0 % 32)).foldl (fun z k => leaseTo now k x.idx z) (s.at' t) →
      HallReplies (.tokenTake t c) s t 0 Op.tokenTake c x
          (okWith (leBytes 1 (ownTokens y.hall x.idx) ++ leBytes 1 (otherTokens y.hall x.idx) ++ leBytes 2 2000)) y ∧
        ∀ k ∈ tokensOf (byteAt b 0 % 32), vget y.hall.tokens k none = some ⟨x.idx, now + 2 * sec⟩) ∧
    (∀ k, s.hears Op.tokenTake c x → byteAt b 0 % 32 = 2 ^ k → k < 5 → (∀ i, polderNo k = some i → Part.has s.part i = true) → (maskOf s.hall x).testBit k = true →
      roleOf s.hall x ≠ 0 → (byteAt b 1).testBit 0 = false → (∃ l, vget s.hall.tokens k none = some l ∧ l.holder ≠ x.idx) →
      HallReplies (.tokenTake t c) s t 0 Op.tokenTake c x (bare Status.conflict) (s.at' t)) ∧
    (s.hears Op.tokenRelease c x → ∃ y, (∀ k ∈ tokensOf (byteAt b 0), holds y.hall k x.idx = false) ∧
      HallReplies (.tokenRelease t c) s t 0 Op.tokenRelease c x (okWith (leBytes 1 (ownTokens y.hall x.idx) ++ zeros 3)) y) ∧
    (s.hears Op.subscribe c x →
      HallReplies (.subscribe t c) s t 0 Op.subscribe c x (okWith (leBytes 1 (byteAt b 0 % 16) ++ leBytes 1 (byteAt b 1 % 32) ++ zeros 2))
        (modSess x.idx (fun e => { e with classes := byteAt b 0 % 16, targets := byteAt b 1 % 32 }) (s.at' t))) ∧
    (∀ n, s.hears Op.getNotifications c x → (x.notes.find? fun e => e.seq == u16At b 0) = some n →
      HallReplies (.getNotifications t c) s t 0 Op.getNotifications c x
        (okWith (leBytes 2 n.seq ++ leBytes 1 n.target ++ leBytes 1 n.status ++ [BitVec.ofNat 8 n.kind, BitVec.ofNat 8 n.flag, 0#8, 0#8] ++ n.body)) (s.at' t)) ∧
    (s.hears Op.setNetwork c x → byteAt b 0 % 2 = 0 → rngOk 32 .ipmask (u32At b 10) = true → 3 ≤ u16At b 18 ∧ u16At b 18 ≤ 600 →
      (∀ k, 21 ≤ k → k ≤ 24 → byteAt b k ≤ 7) → byteAt b 25 ≤ 2 → byteAt b 26 ≤ 31 →
      ∃ y, DoesAll (.setNetwork t c) s t y ∧ hap y.hall A.HAL_IPADDR = wordN (u32At b 6) ∧ hap y.hall A.HAL_NETMASK = wordN (u32At b 10) ∧
        hap y.hall A.HAL_GW = wordN (u32At b 14) ∧ hap y.hall A.HAL_SESSTMO = wordN (u16At b 18) ∧ hallStaged y.hall = false) ∧
    (∀ i, s.hears Op.setSv c x → polderNo (byteAt b 0) = some i → Part.has s.part i = true → 1 ≤ byteAt b 1 ∧ byteAt b 1 ≤ 34 →
      0x4000 ≤ u16At b 2 ∧ u16At b 2 ≤ 0x7FFF → u16At b 4 ≤ 511 → ((b.drop 12).take (byteAt b 1)).all printable = true →
      ∃ y, DoesAll (.setSv t c) s t y ∧ hap y.hall (A.HAL_SVCFG (byteAt b 0 - 1)) = wordN (u16At b 2 * 65536 + u16At b 4) ∧
        vget y.hall.svId (byteAt b 0 - 1) [] = (b.drop 12).take (byteAt b 1) ∧ vget y.hall.svRev (byteAt b 0 - 1) 0 = u32At b 8) ∧
    (s.hears Op.setKey c x → byteAt b 0 ≤ 7 → byteAt b 1 = 2 → x.key = [] →
      ∃ y, DoesAll (.setKey t c) s t y ∧ vget y.hall.keys (byteAt b 0) none = some ⟨(b.drop 4).take 32, 2, byteAt b 2 % 32⟩ ∧
        ∀ e ∈ y.hall.sessions, e.slot ≠ byteAt b 0) ∧
    (s.hears Op.getHall c x → ∃ r : List Byte, r.length = 60 ∧ r.take 8 = wBytes (hallStat s) ++ wBytes (tokenWord s.hall) ∧
      HallReplies (.getHall t c) s t 0 Op.getHall c x (okWith r) (s.at' t)) ∧
    (∀ tgt r, s.hears Op.readWords c x → 1 ≤ u16At b 4 ∧ u16At b 4 ≤ 64 → absentWindow s.part (u32At b 0) (u16At b 4) = false →
      (∀ i, tgt = .polder i → unavail s i = none ∧ rescue (s.pol i) = false) →
      r = readRun now tgt (u16At b 4) (u32At b 0) (s.at' t) → r.1.2 = false →
      HallReplies (.readWords t tgt c) s t tgt.code Op.readWords c x (okWith (b.take 4 ++ r.1.1.flatMap wBytes)) r.2 ∧ r.1.1.length = u16At b 4) ∧
    (∀ i r, s.hears Op.writeWords c x → 1 ≤ u16At b 4 ∧ u16At b 4 ≤ 64 → absentWindow s.part (u32At b 0) (u16At b 4) = false → unavail s i = none → rescue (s.pol i) = false →
      r = writeRun now (.polder i) (wordsAt b 8 (u16At b 4)) (u32At b 0) 0 (s.at' t) → r.1.2 = true →
      ∃ y, DoesAll (.writeWords t (.polder i) c) s t y ∧ y.polA = r.2.polA ∧ y.polB = r.2.polB ∧ y.polC = r.2.polC ∧ y.polD = r.2.polD ∧ r.1.1 = u16At b 4))

/-- What arrives at the Hall's ports (R387, R394 to R400, R403): a Pdelay_Req, a command packet, an ARP request, an ICMP echo, a link, the
supervision frame, and the three transactions of the SPI target. The layouts of frames that the spec takes from published standards are the model's presumption
(notes/assumptions/40.md, 56.md). -/
def Obligations.HallPortEvents : Prop :=
  ∀ (s : State) (t now : Nat) (h : Hall), now = s.clock t → h = s.hall → h.up = true →
    (∀ port b, listening (portHeard now port (s.at' t)) = false → ∃ y f g, DoesAll (.pdelayReq t port b) s t y ∧ y.hall.sent = h.sent ++ [f, g] ∧
      f = .frame h.prpSeq (hapF h F.HAL_CFG_PCP_PTP) 0x0180C200000E 0x88F7 (pdelayBytes false now port b h) ∧
      g = .frame ((h.prpSeq + 1) % 65536) (hapF h F.HAL_CFG_PCP_PTP) 0x0180C200000E 0x88F7 (pdelayBytes true now port b h)) ∧
    (∀ b, h.spiRx = some b → b.length < 20 → ∃ y, DoesAll (.commandPacket t .spi none b) s t y ∧ y.hall.spiRx = none ∧
      (hrd y.hall A.HAL_BADLEN).toNat = min 4294967295 ((hrd h A.HAL_BADLEN).toNat + 1) ∧ y.hall.sessions = h.sessions ∧ y.hall.queues = h.queues) ∧
    (∀ b x y, h.spiRx = some b → (headOf b).len ≤ 1024 → (headOf b).auth = false → b.length = 20 + (headOf b).len →
      u32At b (16 + (headOf b).len) = (crc32 (b.take (16 + (headOf b).len))).toNat → (headOf b).op ≠ Op.hello → sessById h (headOf b).id = some x →
      x.key = [] → entryAt now .spi h = now → y = modHall (fun g => { g with spiRx := none, entered := (now / hallCyc, 0) }) (s.at' t) →
      DoesAll (.commandPacket t .spi none b) s t (sequenced now .spi (headOf b) { x with lastSeen := now } ((b.drop 16).take (headOf b).len)
        (modSess x.idx (fun e => { e with lastSeen := now }) y))) ∧
    (∀ port prp ip mac, isDuplicate now h prp = false → ownIp h ≠ 0 → ∃ y, DoesAll (.arpRequest t port prp (ownIp h) ip mac) s t y ∧
      y.hall.sent = h.sent ++ [.frame h.prpSeq Config.otherPcp.val mac 0x0806 (arpBytes 2 (ownMac h) (ownIp h) mac ip)] ∧
      y.hall.arp.head? = some (ip, mac, now)) ∧
    (∀ port prp ip l, isDuplicate now h prp = false → ownIp h ≠ 0 → l.length ≤ 1472 → h.icmpTimes.length < 100 →
      ∃ y, DoesAll (.icmpEcho t port prp ip l) s t y ∧ y.hall.sent = h.sent ++ [.echo h.prpSeq Config.otherPcp.val (resolved now h ip) ip l]) ∧
    (hbit h F.HAL_STAT_LINKA = true → ∃ y, DoesAll (.ethLinkChange t 0 false) s t y ∧ hbit y.hall F.HAL_STAT_LINKA = false ∧
      hbit y.hall F.HAL_EVT_LINKA_DOWN = true) ∧
    (hbit h F.HAL_STAT_LINKB = false → ownIp h ≠ 0 → ∃ y, DoesAll (.ethLinkChange t 1 true) s t y ∧ hbit y.hall F.HAL_STAT_LINKB = true ∧
      y.hall.sent = h.sent ++ [.frame h.prpSeq Config.otherPcp.val broadcastMac 0x0806 (arpBytes 1 (ownMac h) (ownIp h) 0 (ownIp h))]) ∧
    (h.supAt = none ∨ (∃ t0, h.supAt = some t0 ∧ t0 + 2 * sec ≤ now) → ∃ y, DoesAll (.supervisionFrame t) s t y ∧ y.hall.supAt = some now ∧
      y.hall.supSeq = (h.supSeq + 1) % 65536 ∧ y.hall.sent = h.sent ++ [.frame h.prpSeq Config.otherPcp.val 0x01154E000100 0x88FB (supervisionBytes h)]) ∧
    (h.spiOut = [] → ∃ y, DoesAll (.spiStatus t) s t y ∧ y.hall.sent = h.sent ++ [.spi ([0xFF#8, 0xFF#8, 0#8, 0#8, 0#8] ++ leBytes 1 (bn h.spiRx.isNone))]) ∧
    (∀ len b, len ≤ b.length → h.spiRx = none → DoesAll (.spiWrite t len b) s t (modHall (fun g => { g with spiRx := some (b.take len) }) (s.at' t))) ∧
    (∀ b note l n, h.spiOut = (b, note) :: l → b.length = n → ∃ y, DoesAll (.spiRead t n) s t y ∧ y.hall.spiOut = l ∧
      y.hall.sent = h.sent ++ [.spi ([0xFF#8, 0xFF#8] ++ leBytes 2 n ++ b)])

/-- Delivery and the ends of sessions (R404, R406, R409, R411, R414, R417): a command leaves its queue and is in flight; its reply goes out, and
without one TIMEOUT does; a session and a token lapse; `HAL_APPLY` applies, discards, clears. -/
def Obligations.HallDeliveryEvents : Prop :=
  ∀ (s : State) (t now : Nat) (h : Hall), now = s.clock t → h = s.hall → h.up = true →
    (∀ q l, vget h.queues 5 [] = q :: l → busy h 15 = false → isExpert q.opcode = false →
      DoesAll (.commandDelivery t .dikehouse) s t (modHall (fun g => { g with
        queues := vset g.queues 5 l, inFlight := g.inFlight ++ [⟨q, 15, false, false, false⟩] }) (s.at' t))) ∧
    (∀ (tgt : Target) q l, tgt ≠ .hall → vget h.queues (queueNo tgt.code) [] = q :: l → busy h tgt.code = false → isExpert q.opcode = true →
      DoesAll (.commandDelivery t tgt) s t (hallAnswer now q.src tgt.code q.opcode q.cmd
        (expert now q.opcode tgt q.cmd (modHall (fun g => { g with queues := vset g.queues (queueNo tgt.code) l }) (s.at' t))))) ∧
    (∀ i q l, vget h.queues i.num [] = q :: l → busy h i.num = false → isExpert q.opcode = false → awake (s.pol i) = true → seState (s.pol i) = Eng.run →
      ∃ y, DoesAll (.commandDelivery t (.polder i)) s t y ∧ vget y.hall.queues i.num [] = l ∧ y.hall.inFlight = h.inFlight ++ [⟨q, i.num, false, false, false⟩]) ∧
    (∀ (tgt : Target) a f, h.replies = [.answer a] → a.target = tgt.code → flightOf h a = some f → f.late = false → f.pending = false →
      DoesAll (.targetReply t tgt) s t (endOf f (sendReply now f.q.src a (modHall (fun g => { g with replies := [] }) (s.at' t))))) ∧
    (∀ (tgt : Target) f, h.inFlight = [f] → f.target = tgt.code → f.late = false → f.pending = false → f.q.at' + 50 * ms ≤ now → h.replies = [] →
      DoesAll (.replyTimeout t tgt) s t (sendReply now f.q.src ⟨tgt.code, f.q.cmd.sess, f.q.opcode, f.q.cmd.seq, Status.timeout, 1, []⟩
        (modHall (fun g => { g with inFlight := [{ f with late := true }] }) (s.at' t)))) ∧
    (∀ (tgt : Target) q, vget h.queues (queueNo tgt.code) [] = [q] → q.at' + 50 * ms ≤ now →
      DoesAll (.deliveryTimeout t tgt) s t (withdraw now tgt.code q (s.at' t))) ∧
    (∀ k x, sessOf h k = some x → x.lastSeen + (hap h A.HAL_SESSTMO).toNat * sec ≤ now → ∃ y, DoesAll (.sessionTimeout t k) s t y ∧
      sessOf y.hall k = none ∧ (∀ j, holds y.hall j k = false) ∧ ∀ j, j ≠ k → (sessOf y.hall j).isSome = (sessOf h j).isSome) ∧
    (∀ k l, vget h.tokens k none = some l → l.until' / hallCyc < now / hallCyc → ∃ y, DoesAll (.tokenLapse t k) s t y ∧ vget y.hall.tokens k none = none ∧
      hbit y.hall F.HAL_EVT_TOKEN_LAPSE = true ∧ ∀ j, j ≠ k → vget y.hall.tokens j none = vget h.tokens j none) ∧
    (∃ y, DoesAll (.applyGo t) s t y ∧ hallStaged y.hall = false ∧ ∀ o ∈ heldOffs, hap y.hall o = hrd h o) ∧
    (∃ y, DoesAll (.applyDiscard t) s t y ∧ hallStaged y.hall = false ∧ y.hall.applied = h.applied) ∧
    (∃ y, DoesAll (.cntclr t) s t y ∧ (∀ k < 10, hrd y.hall (A.HAL_CMDS + 4 * k) = 0) ∧ y.hall.applied = h.applied)

/-! ### Direct accesses, engines, locks (spec/01, spec/15) -/

/-- The rows that a master carries out directly (R25, R37, R197, R205, R210, R310, R326, R428 to R436, R462, R513): each completes with its own
effect, for a master that reaches the register. The accesses of the monitor are those of `MonitorLinesComplete`. -/
def Obligations.DirectAccessesComplete : Prop :=
  ∀ (s : State) (t : Nat) (i : PolderId) (m : Master) (now : Nat) (p : Polder), Accesses s t i m now p →
    (∀ addr v, addr / 16777216 = 0x40 + (i.num - 1) → Does (.directRegisterWrite t m addr v) s t i (busWrite now m i (addr % 16777216) v p).2) ∧
    (reaches m i (A.FLT_MTR 0) = true → Does (.meterLatch t i m) s t i (meterLatch p)) ∧
    (reaches m i A.TIM_NOW_FR = true → ∃ q, Does (.timeLatch t i m) s t i q ∧ rd q A.TIM_NOW_FR = wordN (fracOf (presented p now)) ∧
      rd q A.TIM_NOW_NS = wordN (nanosOf (presented p now)) ∧ rd q A.TIM_NOW_SL = wordN (secsOf (presented p now) % 4294967296)) ∧
    (∀ k w, k < 6 → reaches m i (A.MBX_DATA k) = true → mbxSender k = m.id → (mbxQueue p k).length < 8 →
      (mbxCycle now k p).reset = false →
      ∃ q, Does (.mailboxPush t i m false k w) s t i q ∧
        mbxQueue q k = mbxQueue p k ++ [⟨w, BitVec.ofNat 8 (epochOf p m.id % 16 * 16 + m.id % 16)⟩] ∧
        (∀ o, o ≠ A.MBX_STAT k → rd q o = rd p o) ∧
        ∀ j, j ≠ k → mbxQueue q j = mbxQueue p j) ∧
    (∀ k x l, k < 6 → reaches m i (A.MBX_DATA k) = true → mbxReceiver k = m.id → mbxQueue p k = x :: l →
      (mbxCycle now k p).fresh = false → (mbxCycle now k p).refused = none →
      ∃ q, Does (.mailboxPop t i m k) s t i q ∧ mbxQueue q k = l ∧ (l = [] → fbit q (F.MBX_STAT_EMPTY k) = true) ∧
        ∀ j, j ≠ k → mbxQueue q j = mbxQueue p j) ∧
    (∀ k, k < 16 → reaches m i (A.MBX_LOCK k) = true → lockOwner p k = 0 →
      ∃ q, DoesAll (.lockAcquire t i [m] k) s t ((s.at' t).setPol i q) ∧ lockOwner q k = m.id ∧ (∀ j, j ≠ k → lockOwner q j = lockOwner p j) ∧
        q.regs = p.regs) ∧
    (reaches m i A.FIO_QPOP = true → ∃ q, Does (.qpop t i m 1) s t i q ∧ q.fio.queue = p.fio.queue.tail) ∧
    (reaches m i A.GAL_CMD = true → fget p F.GAL_STAT_STATE ≠ Rec.triggered → ∃ q, Does (.galleryArm t i m) s t i q ∧ fget q F.GAL_STAT_STATE = Rec.armed) ∧
    (reaches m i A.GAL_CMD = true → fget p F.GAL_STAT_STATE = Rec.armed → (∃ q, Does (.galleryForce t i m) s t i q ∧ fget q F.GAL_STAT_STATE = Rec.triggered) ∧
      ∃ q, Does (.galleryStop t i m) s t i q ∧ fget q F.GAL_STAT_STATE = Rec.idle) ∧
    (reaches m i A.CAP_CMD = true → capState p ≠ Rec.triggered → capTapOff p = false → ∃ q, Does (.captureArm t i m) s t i q ∧ capState q = Rec.armed) ∧
    (reaches m i A.CAP_CMD = true → capState p = Rec.armed → (∃ q, Does (.captureForce t i m) s t i q ∧ capState q = Rec.triggered ∧
        fget q F.CAP_STAT_TCAUSE = 2) ∧ ∃ q, Does (.captureStop t i m) s t i q ∧ capState q = Rec.idle) ∧
    (reaches m i A.LRN_CMD = true → (∃ q, Does (.learnerSave t i m) s t i q ∧ q.lrn.saving = true ∧ q.nv.image.learner.isSome = true) ∧
      ∃ q, Does (.learnerErase t i m) s t i q ∧ q.nv.image.learner = none) ∧
    (reaches m i A.LRN_CMD = true → lrnOff p = true → ∃ q, Does (.learnerClear t i m) s t i q ∧ rd q A.LRN_CYCLES = 0 ∧ ∀ k < 384, rd q (A.LRN_COEF k) = 0) ∧
    (∀ x, reaches m i A.LRN_CMD = true → lrnOff p = true → goodSection p = some x →
      ∃ q, Does (.learnerRestore t i m) s t i q ∧ fbit q F.LRN_EVT_WARM_OK = true ∧ rd q A.LRN_CYCLES = wordN x.cycles) ∧
    (∀ off v, off % 4 = 0 → inTable off = true → reaches m i off = true → lrnOff p = true →
      Does (.learnerTableWrite t i m off v) s t i { wr p off v with lrn := { p.lrn with bad := p.lrn.bad.filter (· != off) } }) ∧
    (reaches m i A.EMB_CNTCLR = true → ∃ q, Does (.cntclrEmb t i m) s t i q ∧ ∀ k < 3, rd q (A.EMB_CNT k) = 0) ∧
    (reaches m i A.DIK_SWTRIP = true → (enabledMask p).testBit 8 = true → ∃ q, Does (.swtrip t i m) s t i q ∧ (latched q).testBit 8 = true) ∧
    (∀ mask, mask < 16384 → reaches m i A.DIK_CLR = true → ∃ q, Does (.dikClr t i m mask) s t i q ∧
      rd q A.DIK_CLRRES = rd (dikClear now mask p).2 A.DIK_CLRRES ∧ rd q A.DIK_TRIPSRC = rd (dikClear now mask p).2 A.DIK_TRIPSRC) ∧
    (∀ off v, isBuffered off = true → reaches m i off = true → Does (.bufferedWrite t i m off v) s t i (bufferedWrite now off v (noted now m.id off (BitVec.allOnes 32) v p))) ∧
    (∀ mask v, reaches m i A.FIO_DOCMD = true → m.id ≠ 3 → p.cyc.ordersIn (now / cyc) = [] →
      Does (.outputOrder t i [(m, mask, v)]) s t i (orders now (now / cyc) [(m.id, mask, v)] p) ∧
      docmd (orders now (now / cyc) [(m.id, mask, v)] p) = ((docmd p &&& (15 ^^^ mask % 16)) ||| (v % 16 &&& mask % 16))) ∧
    (m = .dkh → (enabledMask p).testBit 8 = true → ∃ q, Does (.dkhreqTrip t i) s t i q ∧ (latched q).testBit 8 = true) ∧
    (∀ mode, m = .dkh → ∃ q, Does (.dkhreqStop t i mode) s t i q ∧ q.rgm.dkhStop = some (mode % 2))

/-- R36 to R38, R513: what a direct write to a register of the map does. A write off a word boundary is an access error of kind 3. A write to any
register without a field that takes direct writes changes nothing but the record of its error. In any register whose directly written fields are write-one-to-clear
flags, `FIO_DODIAG` and the mailbox status apart, a flag clears on a 1 only, and not in the cycle in which the hardware has set it. An engine's
access to another polder's window changes nothing there and is recorded nowhere, which is the model's reading of R20 (notes/assumptions/41.md). -/
def Obligations.DirectWriteRules : Prop :=
  ∀ (now : Nat) (m : Master) (i : PolderId) (off : Nat) (v : Word) (p : Polder),
    (reaches m i off = true → off % 4 ≠ 0 → (busWrite now m i off v p).1 = .error ∧
      (bitOf (rd p A.PCT_ACCERR) 31 = false → bitsOf (rd (busWrite now m i off v p).2 A.PCT_ACCERR) 29 28 = 3 ∧
        bitOf (rd (busWrite now m i off v p).2 A.PCT_ACCERR) 31 = true) ∧
      ∀ o, o ≠ A.PCT_ACCERR → rd (busWrite now m i off v p).2 o = rd p o) ∧
    (reaches m i A.DIK_EVT = true → (busWrite now m i A.DIK_EVT v p).1 = .ok ∧
      (fbit (busWrite now m i A.DIK_EVT v p).2 F.DIK_EVT_CLR_REFUSED = (fbit p F.DIK_EVT_CLR_REFUSED &&
        (!v.getLsbD 1 || (setInCycle p (now / cyc) A.DIK_EVT).getLsbD 1))) ∧
      ∀ o, o ≠ A.DIK_EVT → rd (busWrite now m i A.DIK_EVT v p).2 o = rd p o) ∧
    (∀ r k, reaches m i off = true → polRow off = some (r, k) → inMemory off = false → dataQueue off = none → lockIndex off = none →
      (accMask r [.rw, .w1c, .wo] = 0 → (busWrite now m i off v p).1 = .error ∧ ∀ o, o ≠ A.PCT_ACCERR → rd (busWrite now m i off v p).2 o = rd p o) ∧
      (accMask r [.rw, .wo] = 0 → accMask r [.w1c] ≠ 0 → off ≠ A.FIO_DODIAG → statQueue off = none → (busWrite now m i off v p).1 = .ok ∧
        rd (busWrite now m i off v p).2 off = rd p off &&& ~~~ (v &&& accMask r [.w1c] &&& ~~~ setInCycle p (now / cyc) off) ∧
        ∀ o, o ≠ off → rd (busWrite now m i off v p).2 o = rd p o)) ∧
    (reaches m i off = false → off % 4 = 0 → (busWrite now m i off v p).1 = .error ∧
      ∀ o, o ≠ A.PCT_ACCERR → rd (busWrite now m i off v p).2 o = rd p o) ∧
    (∀ j, j ≠ i → (busWrite now (.ce j) i off v p).2 = p ∧ (busWrite now (.se j) i off v p).2 = p)

/-- R40 to R42: an access-error register with `VALID` 0 takes the error, its kind, sender and offset; while `VALID` is 1 a further error sets
`OVERRUN` and leaves the other fields, except that of two errors of one cycle the one with the lower sender ID is recorded. The Hall and the
Dikehouse keep registers of the same layout, in cycles of their own clocks. -/
def Obligations.AccessErrorRegisters : Prop :=
  (∀ (old : Word) (at' c kind sender off : Nat), kind < 4 → sender < 16 → off < 16777216 → ∀ w, w = (accNext old at' c kind sender off).1 →
    (bitOf old 31 = false ∨ (at' = c ∧ sender < bitsOf old 27 24) →
      bitOf w 31 = true ∧ bitsOf w 29 28 = kind ∧ bitsOf w 27 24 = sender ∧ bitsOf w 23 2 = off / 4 ∧ (accNext old at' c kind sender off).2 = c ∧
        bitOf w 30 = (bitOf old 31 || bitOf old 30)) ∧
    (bitOf old 31 = true → ¬(at' = c ∧ sender < bitsOf old 27 24) →
      w = (old ||| 0x40000000#32) ∧ (accNext old at' c kind sender off).2 = at')) ∧
  (∀ (p : Polder) (now kind sender off : Nat),
    rd (accErr now kind sender off p) A.PCT_ACCERR = (accNext (rd p A.PCT_ACCERR) p.eng.accAt (now / cyc) kind sender off).1 ∧
      (accErr now kind sender off p).eng.accAt = (accNext (rd p A.PCT_ACCERR) p.eng.accAt (now / cyc) kind sender off).2 ∧
      ∀ o, o ≠ A.PCT_ACCERR → rd (accErr now kind sender off p) o = rd p o) ∧
  (∀ (h : Hall) (now kind sender off : Nat),
    hrd (accErrH now kind sender off h) A.HAL_ACCERR = (accNext (hrd h A.HAL_ACCERR) h.accAt (now / (5 * ns)) kind sender off).1) ∧
  ∀ (d : Dikehouse) (now kind sender off : Nat),
    krd (accErrK now kind sender off d) A.DKH_ACCERR = (accNext (krd d A.DKH_ACCERR) d.accAt (now / (125 * ns)) kind sender off).1

/-- R434 to R436: a read of a free lock acquires it and returns 0; the owner reads `HELD` with `OWN`, another master `HELD` with the owner's ID, and neither
read changes a register or an owner; an access of the Hall bridge acquires as every other; `MBX_LOCKOWN0` and `MBX_LOCKOWN1` show the owners. Of the
masters that read a free lock in one cycle the one first in the order CE, SE, Dikehouse, Hall bridge, Movia monitor acquires it and reads 0, and each
other reads `HELD` with the ID of that one. A write by the owner releases its lock; one by another master is ignored, sets `LOCK_BADREL` and shows the writer and
the lock. Of the masters that read a lock in the cycle of its release the first in that order acquires it, whether its row comes before or behind the
release: how rows of one cycle meet is notes/assumptions/54.md. -/
def Obligations.LocksAcquireAndRelease : Prop :=
  (∀ (part : Part) (p : Polder) (now m k : Nat), k < 16 →
    (lockOwner p k = 0 → (lockRead now m k p).1 = 0 ∧ lockOwner (lockRead now m k p).2 k = m) ∧
    (∀ o, lockOwner p k = o → o ≠ 0 → (o = m → lockRead now m k p = (wordN (0xC0000000 + o % 16), p)) ∧
      (o ≠ m → p.eng.lockTook.contains (now / cyc, k) = false → (lockRead now m k p).1 = wordN (0x80000000 + o % 16) ∧
        (lockRead now m k p).2.regs = p.regs ∧ ∀ j, lockOwner (lockRead now m k p).2 j = lockOwner p j)) ∧
    (∀ (x : Master) (i : PolderId), x.id = m → reaches x i (A.MBX_LOCK k) = true →
      busRead part now x i (A.MBX_LOCK k) p = (((lockRead now m k p).1, false), (lockRead now m k p).2)) ∧
    bitsOf (viewWord part now p (if k < 8 then A.MBX_LOCKOWN0 else A.MBX_LOCKOWN1)) (4 * (k % 8) + 3) (4 * (k % 8)) = lockOwner p k % 16) ∧
  (∀ (p : Polder) (now k : Nat) (l : List Nat), k < 16 → lockOwner p k = 0 → l ≠ [] → (∀ m ∈ l, 1 ≤ m ∧ m ≤ 5) →
    ∃ w ∈ l, (∀ m ∈ l, lockRank w ≤ lockRank m) ∧ (lockRead now w k p).1 = 0 ∧ lockOwner (lockReads now l k p) k = w ∧
      ∀ m ∈ l, m ≠ w → (lockRead now m k (lockReads now l k p)).1 = wordN (0x80000000 + w)) ∧
  (lockRank 1 < lockRank 2 ∧ lockRank 2 < lockRank 4 ∧ lockRank 4 < lockRank 3 ∧ lockRank 3 < lockRank 5) ∧
  (∀ (s : State) (t : Nat) (i : PolderId) (m : Master) (now : Nat) (p : Polder) (k : Nat), Accesses s t i m now p → k < 16 →
    reaches m i (A.MBX_LOCK k) = true →
    (lockOwner p k = m.id → (∀ x ∈ p.eng.lockLost, x.1 = now / cyc → x.2.1 ≠ k) → ∃ q, Does (.lockRelease t i m k) s t i q ∧ lockOwner q k = 0 ∧ q.regs = p.regs ∧
      ∀ j, j ≠ k → lockOwner q j = lockOwner p j) ∧
    (lockOwner p k ≠ m.id → ∃ q, Does (.lockRelease t i m k) s t i q ∧ (∀ j, lockOwner q j = lockOwner p j) ∧
      fbit q F.MBX_EVT_LOCK_BADREL = true ∧ rd q A.MBX_LOCKBAD = wordN (m.id % 16 * 16 + k))) ∧
  ∀ (p : Polder) (now k m : Nat) (l : List Nat), k < 16 → lockOwner p k = m → m ≠ 0 → l ≠ [] → (∀ r ∈ l, 1 ≤ r ∧ r ≤ 5) →
    (∀ x ∈ p.eng.lockLost, x.1 = now / cyc → x.2.1 ≠ k) → p.eng.lockTook.contains (now / cyc, k) = false →
    ∃ w ∈ l, (∀ r ∈ l, lockRank w ≤ lockRank r) ∧ lockOwner (lockReads now l k (lockWrite now m k p)) k = w ∧
      (lockRead now w k (lockWrite now m k p)).1 = 0 ∧
      ((∀ r ∈ l, r ≠ m) → lockOwner (lockWrite now m k (l.foldl (fun q r => (lockRead now r k q).2) p)) k = w)

/-- The engines (R44, R423 to R427, R430, R504): watchdogs, memory errors, restarts, halts and releases of the debug port, a mailbox that stands full. That an
SE which runs again takes all the words of its queue at once is the model's choice (notes/assumptions/41.md). -/
def Obligations.EngineEvents : Prop :=
  ∀ (s : State) (t : Nat) (i : PolderId) (now : Nat) (p : Polder), Runs s t i now p →
    (ceState p = Eng.run → ∃ q, Does (.ceWatchdog t i) s t i q ∧ ceState q = Eng.reset ∧ mbxQueue q 2 = [] ∧
      rdN q A.PCT_CE_RESETS = min 4294967295 (rdN p A.PCT_CE_RESETS + 1) ∧ q.eng.epochCE = (p.eng.epochCE + 1) % 16 ∧
      ((enabledMask p).testBit 8 = true → (latched q).testBit 8 = true)) ∧
    (seState p = Eng.run → ∃ y, DoesAll (.seWatchdog t i) s t y ∧ seState (y.pol i) = Eng.reset ∧ (y.pol i).eng.epochSE = (p.eng.epochSE + 1) % 16 ∧
      rdN (y.pol i) A.PCT_SE_RESETS = min 4294967295 (rdN p A.PCT_SE_RESETS + 1)) ∧
    (∀ off, inTable off = true → off % 4 = 0 → ∃ q, Does (.eccDoubleError t i ⟨.table off, true⟩) s t i q ∧ rd q off = 0 ∧
      (∀ o, o ≠ off → rd q o = rd p o) ∧ q.lrn.ecc = p.lrn.ecc + 1) ∧
    (∀ off, Does (.eccDoubleError t i ⟨.ceData, false⟩) s t i (addSat p A.PCT_CE_ECC1 1) ∧
      Does (.eccDoubleError t i ⟨.seCode, false⟩) s t i (addSat p A.PCT_SE_ECC1 1) ∧
      Does (.eccDoubleError t i ⟨.table off, false⟩) s t i { p with eng := { p.eng with ecc1 := vmod p.eng.ecc1 0 (· + 1) } }) ∧
    Does (.eccDoubleError t i ⟨.mailbox, false⟩) s t i { p with eng := { p.eng with ecc1 := vmod p.eng.ecc1 5 (· + 1) } } ∧
    (s.hall.up = true → DoesAll (.eccDoubleError t i ⟨.hallPackets, false⟩) s t (modHall (fun h => { h with ecc1 := h.ecc1 + 1 }) (s.at' t))) ∧
    (s.dkh.up = true → DoesAll (.eccDoubleError t i ⟨.watchCore, false⟩) s t (modDkh (fun d => { d with ecc1 := d.ecc1 + 1 }) (s.at' t))) ∧
    (∃ q, Does (.eccDoubleError t i ⟨.ceCode, true⟩) s t i q ∧ ceState q = Eng.loading ∧
      rdN q A.PCT_CE_RESETS = min 4294967295 (rdN p A.PCT_CE_RESETS + 1)) ∧
    (ceState p = Eng.reset → Does (.engineRestartComplete t i true) s t i (fput p F.PCT_ENG_CE_STATE Eng.run)) ∧
    (ceState p = Eng.loading → (∀ l, seState p = Eng.run → reloadCode s.part p = some l → ∃ q, Does (.engineRestartComplete t i true) s t i q ∧
        ceState q = Eng.run ∧ q.eng.ceCode = l) ∧
      (reloadCode s.part p = none → Does (.engineRestartComplete t i true) s t i p)) ∧
    (seState p = Eng.reset → ∃ y, DoesAll (.engineRestartComplete t i false) s t y ∧ seState (y.pol i) = Eng.run ∧ (y.pol i).eng.owed = [] ∧
      ((mbxQueue p 0) ≠ [] → mbxQueue (y.pol i) 0 = [])) ∧
    (∀ b, Does (.engineHalt t i ⟨b, false⟩) s t i p) ∧
    (ceState p = Eng.run → Does (.engineHalt t i ⟨true, true⟩) s t i (fput (engEvent now 4 0 0 p) F.PCT_ENG_CE_STATE Eng.halt)) ∧
    (seState p = Eng.run → Does (.engineHalt t i ⟨false, true⟩) s t i (fput (engEvent now 5 0 0 p) F.PCT_ENG_SE_STATE Eng.halt)) ∧
    (ceState p = Eng.halt → ∃ y, DoesAll (.engineRelease t i true) s t y ∧ ceState (y.pol i) = Eng.run ∧ (vget y.dkh.pols (i.num - 1) {}).hbAt = now) ∧
    (seState p = Eng.halt → ∃ y, DoesAll (.engineRelease t i false) s t y ∧ seState (y.pol i) = Eng.run ∧ ((mbxQueue p 0) ≠ [] → mbxQueue (y.pol i) 0 = [])) ∧
    (∀ k t0, 1 ≤ k → k < 6 → vget p.eng.fullSince k none = some t0 → t0 + ms ≤ now → Does (.mailboxStuck t i k) s t i (evt (F.MBX_STAT_STUCK k) p))

/-! ### Start-up, stores, the Dikehouse, the monitor (spec/16 to spec/18) -/

/-- The commands of spec/16 and spec/17 to a polder (R440, R448 to R454, R472, R482). FW_ACTIVATE restarts the polder, SLEEP takes it to SLEEP,
FW_CONFIRM confirms the slot on trial.
A command that commits fields does so in every state in which the sluice rules take
them, a free sluice among them (R274 to R283). -/
def Obligations.SystemCommandsComplete : Prop :=
  ∀ (s : State) (t : Nat) (i : PolderId) (c : Cmd) (b : List Byte) (now : Nat) (p : Polder), b = c.payload → now = s.clock t → p = s.pol i →
    (s.takes i Op.getNv c → ∃ r : List Byte, r.length = 20 ∧ r.take 4 = wBytes (rd p A.NVS_STAT) ∧ Answers (.getNv t i c) s t i Op.getNv c (okWith r)) ∧
    (s.takes i Op.getEngines c → ∃ r : List Byte, r.length = 60 ∧ r.take 8 = wBytes (rd p A.PCT_ENG) ++ wBytes (rd p A.PCT_ENGEVT) ∧
      (∀ k < 6, (r.drop (24 + 4 * k)).take 4 = wBytes (mbxStat p k)) ∧ Answers (.getEngines t i c) s t i Op.getEngines c (okWith r)) ∧
    (s.takes i Op.getFirmware c → ∃ r : List Byte, r.length = 148 ∧ r.take 8 = wBytes (rd p A.PCT_BOOT) ++ wBytes (rd p A.PCT_FWVER) ∧
      (r.drop 16).take 128 = slotBytes p 0 0 64 ++ slotBytes p 1 0 64 ∧ Answers (.getFirmware t i c) s t i Op.getFirmware c (okWith r)) ∧
    (s.takes i Op.fwSlot c → b.length = 12 → byteAt b 0 = 0 → byteAt b 1 ≤ 1 → u16At b 2 = 0 → u32At b 4 ≤ slotSize → p.boot.erase = none →
      slotHeld p (byteAt b 1) = false →
      Does (.fwSlot t i c) s t i (answer (modBoot (fun x => { x with erase := some (byteAt b 1, now, some (refOf Op.fwSlot c)) }) p) Op.fwSlot c (bare Status.pending))) ∧
    (∀ q, s.takes i Op.fwSlot c → b.length = 12 + u16At b 2 → byteAt b 0 = 1 → byteAt b 1 ≤ 1 → 1 ≤ u16At b 2 → u32At b 4 + u16At b 2 ≤ slotSize →
      p.boot.erase = none → slotHeld p (byteAt b 1) = false → slotWrite (byteAt b 1) (u32At b 4) (b.drop 12) p = (true, q) →
      Does (.fwSlot t i c) s t i (answer q Op.fwSlot c (okWith []))) ∧
    (s.takes i Op.fwSlot c → b.length = 12 → byteAt b 0 = 2 → byteAt b 1 ≤ 1 → u16At b 2 = 0 → u32At b 4 ≤ slotSize → p.boot.erase = none →
      Answers (.fwSlot t i c) s t i Op.fwSlot c (okWith (leBytes 1 (slotResult s.part p (byteAt b 1)) ++ zeros 3 ++ slotBytes p (byteAt b 1) 0 64))) ∧
    (s.takes i Op.fwActivate c → byteAt b 0 ≤ 1 → u32At b 4 = 0 ∨ 10 ≤ u32At b 4 ∧ u32At b 4 ≤ 86400 → p.boot.erase = none →
      slotResult s.part p (byteAt b 0) = 0 → byteAt b 0 ≠ (bootSec p).active →
      ∃ y, DoesAll (.fwActivate t i c) s t y ∧ (y.pol i).power = .off ∧ (y.pol i).boot.cause = Cause.activate) ∧
    (∀ q, s.takes i Op.fwConfirm c → (bootSec p).state = .trialRunning → p.boot.trialEnd.any (· ≤ now) = false → q = fwConfirm now p →
      Does (.fwConfirm t i c) s t i (answer q Op.fwConfirm c (okWith (wBytes (rd q A.PCT_BOOT) ++ wBytes (rd q A.PCT_MINRB)))) ∧
        (bootSec q).state = .confirmed ∧ (bootSec q).active = (bootSec p).trial ∧ q.boot.trialEnd = none) ∧
    (s.takes i Op.setPerformance c → byteAt b 0 ≤ 2 →
      Commits (.setPerformance t i c) s t i Op.setPerformance c [part F.PCT_PERF_MODE (byteAt b 0)]) ∧
    (s.takes i Op.sleep c → sleepable s i = true → ∃ y, DoesAll (.sleep t i c) s t y ∧ (y.pol i).power = .asleep ∧ regime (y.pol i) = Rg.sleep ∧
      docmd (y.pol i) = 0) ∧
    (s.takes i Op.setLog c → byteAt b 0 ≤ 3 → 1 ≤ byteAt b 1 →
      Commits (.setLog t i c) s t i Op.setLog c [part F.PCT_LOGCFG_BURST (byteAt b 1), part F.PCT_LOGCFG_NVMIN (byteAt b 0)]) ∧
    (∀ out, s.takes i Op.readLog c → u32At b 0 ≤ p.log.nextNo → 1 ≤ byteAt b 4 ∧ byteAt b 4 ≤ 31 → byteAt b 5 = 0 →
      out = (p.log.sram.reverse.dropWhile fun r => decide (r.number < u32At b 0)).take (byteAt b 4) →
      Answers (.readLog t (.polder i) c) s t i Op.readLog c
        (okWith (leBytes 4 ((p.log.sram.reverse.head?.map (·.number)).getD p.log.nextNo) ++ leBytes 4 p.log.nextNo ++ leBytes 4 (rdN p A.PCT_LOGNVLOST) ++
          leBytes 1 out.length ++ zeros 3 ++ out.flatMap LogRec.bytes))) ∧
    (∀ l n x, s.takes i Op.setMonitor c → byteAt b 1 ≤ 7 → (byteAt b 0).testBit 1 = false →
      l = [part F.PCT_MONCFG_EN (byteAt b 0 % 2), part F.PCT_MONCFG_SLOT (byteAt b 1)] → p.admits now l n → x = p.committed now c.sess n (entriesOf l) →
      Does (.setMonitor t i c) s t i (answer x Op.setMonitor c (okWith (wBytes (rd x A.PCT_MONSTAT)))))

/-- The commands of the Dikehouse (R457, R458, R460, R463, R472, R482): POLDER_POWER is requested for the next evaluation; a setting that its
registers take is stored, and answered when the write of the device NV has ended, which is the model's reading of R472 (notes/assumptions/34.md); the reads
answer the layouts of their cards. -/
def Obligations.DikehouseCommandsComplete : Prop :=
  ∀ (s : State) (t : Nat) (c : Cmd) (b : List Byte) (now : Nat), b = c.payload → now = s.clock t →
    (s.dkhTakes Op.polderPower c → 1 ≤ byteAt b 1 ∧ byteAt b 1 ≤ 5 → (∀ i, (byteAt b 0 % 16).testBit (i.num - 1) = true → Part.has s.part i = true) →
      powerRefused s (byteAt b 0 % 16) (byteAt b 1) = false →
      DoesAll (.polderPower t c) s t
        (modDkh (fun d => { d with requests := d.requests ++ [(byteAt b 0 % 16, byteAt b 1, refOf Op.polderPower c)] }) (s.at' t))) ∧
    (∀ k w, s.dkhTakes Op.setWatch c → k = byteAt b 0 → k ≤ 7 → byteAt b 2 ≤ 10 → byteAt b 3 ≤ 7 → u16At b 4 ≤ 3000 → u16At b 6 ≤ 3000 →
      watchCode (u16At b 4) < watchCode (u16At b 6) →
      w = wordN (byteAt b 1 % 2 * 2147483648 + byteAt b 2 * 134217728 + byteAt b 3 * 16777216 + watchCode (u16At b 6) * 4096 + watchCode (u16At b 4)) →
      ∃ y, DoesAll (.setWatch t c) s t y ∧ krd y.dkh (A.DKH_WINCFG k) = w ∧
        y.dkh.waiting = s.dkh.waiting ++ [⟨15, c.sess, Op.setWatch, c.seq, 0, 0, wBytes w⟩] ∧ y.dkh.dirtySince.isSome = true) ∧
    (∀ r s1 s2, s.dkhTakes Op.setRule c → r = byteAt b 0 → r ≤ 15 → dkhWrite now 4 (A.DKH_RULE_A r) (wordN (u32At b 4)) (s.at' t) = (.ok, s1) →
      dkhWrite now 4 (A.DKH_RULE_B r) (wordN (u32At b 8)) s1 = (.ok, s2) →
      DoesAll (.setRule t c) s t (modDkh (fun d => { dkhSave now d with waiting := d.waiting ++ [⟨15, c.sess, Op.setRule, c.seq, 0, 0, []⟩] }) s2)) ∧
    (∀ i s1, s.dkhTakes Op.setSupervision c → polderNo (byteAt b 0) = some i → Part.has s.part i = true →
      dkhWrite now 4 (A.DKH_SUP (byteAt b 0 - 1)) (wordN (u32At b 4)) (s.at' t) = (.ok, s1) →
      DoesAll (.setSupervision t c) s t
        (modDkh (fun d => { dkhSave now d with waiting := d.waiting ++ [⟨15, c.sess, Op.setSupervision, c.seq, 0, 0, []⟩] }) s1)) ∧
    (s.dkhTakes Op.getDikehouse c → ∃ r : List Byte, r.length = 76 ∧ r.take 8 = wBytes (dkhStat s) ++ wBytes (krd s.dkh A.DKH_EVT) ∧
      (∀ k < 8, (r.drop (16 + 4 * k)).take 4 = wBytes (krd s.dkh (A.DKH_WIN k))) ∧ DkhAnswers (.getDikehouse t c) s t Op.getDikehouse c (okWith r)) ∧
    (∀ out, s.dkhTakes Op.readLog c → u32At b 0 ≤ s.dkh.nextNo → 1 ≤ byteAt b 4 ∧ byteAt b 4 ≤ 31 → byteAt b 5 = 0 →
      out = (s.dkh.sram.reverse.dropWhile fun r => decide (r.number < u32At b 0)).take (byteAt b 4) →
      DkhAnswers (.readLog t .dikehouse c) s t Op.readLog c
        (okWith (leBytes 4 ((s.dkh.sram.reverse.head?.map (·.number)).getD s.dkh.nextNo) ++ leBytes 4 s.dkh.nextNo ++ leBytes 4 0 ++
          leBytes 1 out.length ++ zeros 3 ++ out.flatMap LogRec.bytes)))

/-- Start-up, reset, sleep and the stores (R369, R425, R444, R445, R448, R450, R451, R453, R455, R469, R496, R504): each event at its condition. -/
def Obligations.PowerAndStoreEvents : Prop :=
  ∀ (s : State) (t : Nat) (i : PolderId) (now : Nat) (p : Polder), Part.has s.part i = true → now = s.clock t → p = s.pol i →
    (∀ v, p.power ≠ .off → ∃ y, DoesAll (.brownOut t i v) s t y ∧ (y.pol i).power = .off ∧ (y.pol i).boot.cause = Cause.brownOut ∧
      (∀ off, off ≠ A.CAP_STAT → rd (y.pol i) off = polReset off) ∧ ∀ j, j ≠ i → y.pol j = s.pol j) ∧
    (s.rails.vaon = true → s.rails.testen = false → s.dkh.up = true → (dpol s i).closed = true → (dpol s i).resetEnd = none → p.power = .off →
      ∃ y, DoesAll (.polderResetRelease t i) s t y ∧ (y.pol i).power = .booting ∧ (y.pol i).boot.t0 = now ∧
        (y.pol i).boot.bootCount = (p.boot.bootCount + 1) % 65536) ∧
    (p.power = .booting → rescue p = false → ∃ y, DoesAll (.bootComplete t i) s t y ∧ (y.pol i).power = .awake ∧ ceState (y.pol i) = Eng.run ∧
      seState (y.pol i) = Eng.run ∧ (y.pol i).spb.lane1 = true) ∧
    (p.power = .booting → rescue p = true → ∃ y, DoesAll (.bootComplete t i) s t y ∧ (y.pol i).power = .awake ∧ ceState (y.pol i) = Eng.reset ∧
      seState (y.pol i) = Eng.run) ∧
    (p.power = .waking → ∃ y, DoesAll (.wakeComplete t i) s t y ∧ (y.pol i).power = .awake ∧ (y.pol i).spb.lane1 = true) ∧
    (∀ e, p.power = .awake → seState p = Eng.run → lawRegime p = false → (dpol s i).guard = none → (dpol s i).closed = true → p.boot.trialEnd = some e → e ≤ now →
      ∃ y, DoesAll (.fwTrialTimeout t i) s t y ∧ (y.pol i).power = .off ∧ (y.pol i).boot.cause = Cause.revert) ∧
    (∀ k t0 r, p.power = .awake → p.boot.erase = some (k, t0, some r) → ∃ q, Does (.flashEraseComplete t i) s t i q ∧ q.boot.erase = none ∧
      (∀ a, k * slotSize ≤ a → a < k * slotSize + slotSize → flashAt q.boot.flash a = 0xFF) ∧
      q.out = p.out ++ [.done r.sess p.id.num r.opcode r.seq Status.ok 0 []]) ∧
    (p.power ≠ .off → ∃ y, DoesAll (.extest t ⟨i, true⟩) s t y ∧ (y.pol i).power = .off ∧ (y.pol i).boot.extest = true) ∧
    DoesAll (.extest t ⟨i, false⟩) s t (s.at' t) ∧
    (p.power = .awake → seState p = Eng.run → p.nv.writing = none → p.nv.dirtySince.isSome = true → p.nv.lastEnd + 100 * ms ≤ now → bankInUse p = some 0 →
      ∃ q, Does (.nvWrite t (.polder i)) s t i q ∧ q.nv.writing = some (1, now, false) ∧ q.nv.writeData = p.nv.image ∧ q.nv.dirtySince = none ∧
        q.nv.bank0 = p.nv.bank0 ∧ q.nv.bank1.valid = false) ∧
    (∀ k t0 a, p.power = .awake → p.nv.writing = some (k, t0, a) → k < 2 → ∃ q, Does (.nvWriteComplete t (.polder i) true) s t i q ∧ q.nv.writing = none ∧
      (recordLength p.nv.writeData.sections ≤ 16360 → (if k = 0 then q.nv.bank0 else q.nv.bank1).valid = true) ∧ (if k = 0 then q.nv.bank0 else q.nv.bank1).data = p.nv.writeData ∧
      fget q F.NVS_STAT_BANK = k ∧ rdN q A.NVS_WRITES = min 4294967295 (rdN p A.NVS_WRITES + 1)) ∧
    (∀ k t0, p.power = .awake → p.nv.writing = some (k, t0, false) → ∃ q, Does (.nvWriteComplete t (.polder i) false) s t i q ∧
      q.nv.writing = some (k, now, true) ∧ rdN q A.NVS_FAILS = min 4294967295 (rdN p A.NVS_FAILS + 1)) ∧
    (s.dkh.up = true → s.dkh.writing = none → s.dkh.dirtySince.isSome = true → s.dkh.lastEnd + 100 * ms ≤ now → ∃ y, DoesAll (.nvWrite t .device) s t y ∧
      y.dkh.writing.isSome = true ∧ y.dkh.writeData = s.dkh.image ∧ y.dkh.dirtySince = none) ∧
    (∀ k t0 a, s.dkh.up = true → s.dkh.writing = some (k, t0, a) → k < 2 → ∃ y, DoesAll (.nvWriteComplete t .device true) s t y ∧ y.dkh.writing = none ∧
      (if k = 0 then y.dkh.bank0 else y.dkh.bank1).data = s.dkh.writeData ∧
      y.dkh.out = s.dkh.out ++ (s.dkh.waiting.take s.dkh.covered).map Out.answer ∧ y.dkh.waiting = s.dkh.waiting.drop s.dkh.covered) ∧
    (∃ y, DoesAll (.railLoss t .vddH) s t y ∧ y.hall.up = false ∧ y.hall.sessions = [] ∧ (∀ k, vget y.hall.tokens k none = none) ∧ y.rails.vddH = false) ∧
    (∃ y, DoesAll (.railLoss t .vaon) s t y ∧ y.dkh.up = false ∧ y.hall.up = false ∧ (∀ j, (y.pol j).power = .off) ∧ y.rails.vaon = false) ∧
    (s.rails.vaon = true → s.rails.testen = false → s.dkh.up = true → s.hall.up = false → ∃ y, DoesAll (.hallResetRelease t) s t y ∧ y.hall.up = true ∧ hallStaged y.hall = false)

/-- What the Dikehouse does of itself (R444, R456 to R464): its start, the watch inputs, the evaluation of its rules, the heartbeat, the guard and
delayed actions. -/
def Obligations.DikehouseEvents : Prop :=
  ∀ (s : State) (t : Nat) (i : PolderId) (now : Nat), Part.has s.part i = true → now = s.clock t →
    (s.dkh.up = false → ∃ y, DoesAll (.vaonRise t) s t y ∧ y.dkh.up = true ∧ y.rails.vaon = true ∧ y.dkh.bootCount = (s.dkh.bootCount + 1) % 65536 ∧
      y.dkh.requests = []) ∧
    (∀ k code, s.dkh.up = true → k ≤ 7 → code ≤ 4095 → kbit s.dkh (F.DKH_WINCFG_EN k) = true → kget s.dkh (F.DKH_WINCFG_F k) = 0 →
      ∃ y, DoesAll (.watchSample t k code) s t y ∧ kget y.dkh (F.DKH_WIN_RAW k) = code ∧ kget y.dkh (F.DKH_WIN_FILT k) = code ∧
        kget y.dkh (F.DKH_WIN_STATE k) = watchState (kget s.dkh (F.DKH_WIN_STATE k)) (code * 1048576) (kget s.dkh (F.DKH_WINCFG_HI k))
          (kget s.dkh (F.DKH_WINCFG_LO k)) (kget s.dkh (F.DKH_WINCFG_HYS k))) ∧
    (s.dkh.up = true → s.dkh.lastEval + ms ≤ now → ∃ y, DoesAll (.ruleEvaluation t) s t y ∧ y.dkh.lastEval = now ∧ y.dkh.requests = [] ∧
      ∀ r < 16, ruleHolds (s.at' t) r = false → (∀ j, (dpol s j).guard = none) → vget y.dkh.held r none = none) ∧
    (watched s i = true → rd (s.pol i) A.PCT_HBEAT ≠ (dpol s i).hbValue → ∃ y, DoesAll (.heartbeatRead t i) s t y ∧ (dpol y i).hbAt = now ∧
      (dpol y i).hbValue = rd (s.pol i) A.PCT_HBEAT ∧ (dpol y i).lost = false ∧ hbLostBit y i = false) ∧
    (watched s i = true → supF s i F.DKH_SUP_HB_EN = 1 → (dpol s i).lost = false → (dpol s i).hbAt + 100 * ms ≤ now → ∃ y, DoesAll (.hblost t i) s t y ∧
      hbLostBit y i = true ∧ (dpol y i).lost = true ∧ bitOf (krd y.dkh A.DKH_EVT) F.DKH_EVT_HBLOST.lo = true) ∧
    (s.dkh.up = true → (s.pol i).power = .booting → (dpol s i).lost = false → (s.pol i).boot.t0 + 600 * ms ≤ now → ∃ y, DoesAll (.bootfail t i) s t y ∧
      (dpol y i).lost = true ∧ bitOf (krd y.dkh A.DKH_EVT) F.DKH_EVT_BOOTFAIL.lo = true) ∧
    (∀ g, (dpol s i).guard = some g → g.tripped = none → guarded s i = true → g.since + supF s i F.DKH_SUP_STOPTMO * ms ≤ now →
      (enabledMask (s.pol i)).testBit 8 = true → ∃ y, DoesAll (.guardTimeout t i) s t y ∧ (dpol y i).guard = some { g with tripped := some now } ∧
        (latched (y.pol i)).testBit 8 = true) ∧
    (∀ t0, (dpol s i).guard = none → (dpol s i).closed = true → (dpol s i).restartAt = some t0 → t0 ≤ now → ∃ y, DoesAll (.actionDelayEnd t i) s t y ∧ (y.pol i).power = .off ∧
      (y.pol i).boot.cause = Cause.restart ∧ (dpol y i).resetEnd = some (now + ms)) ∧
    (∀ t0, (dpol s i).guard = none → (dpol s i).restartAt = none → (dpol s i).resetEnd = some t0 → t0 ≤ now →
      ∃ y, DoesAll (.actionDelayEnd t i) s t y ∧ (dpol y i).resetEnd = none ∧ y.pol i = s.pol i) ∧
    (s.hall.up = true → s.dkh.up = true → (∃ y, DoesAll (.wakeclr t) s t y ∧ y.dkh.wakeLow = false) ∧
      ∃ y, DoesAll (.dkhSave t) s t y ∧ y.dkh.image.dkh = some (dkhConfig s.dkh) ∧ y.dkh.dirtySince.isSome = true)

/-- The lines and events of the monitor (R483 to R487): each line of an open session with the level that it needs has its effect, and its answer is
kept; a line below its level answers LOCKED. That a write outside the map answers LOCKED too, with a record of code 5 and an access error, is the model's choice,
as are the other answers that notes/assumptions/43.md lists. -/
def Obligations.MonitorLinesComplete : Prop :=
  (∀ (s : State) (t : Nat) (i : PolderId) (now : Nat) (p : Polder), Types s t i 0 now p →
    Does (.monitorHelp t i) s t i (monSay ⟨[], monHelp, Status.ok⟩ p) ∧
    Does (.monitorId t i) s t i (monOk [viewWord s.part now p A.PCT_ID, rd p A.PCT_FWVER, rd p A.PCT_BOOT] p) ∧
    Does (.monitorStat t i) s t i
      (monOk [wordN (regime p), rd p A.DIK_TRIPSRC, wordN (fget p F.SPB_STAT_STATE), rd p A.CLK_STAT, wordN (fget p F.TIM_STAT_QUAL)] p) ∧
    (∀ k, p.mon.lockEnd = none → monSlot s p = some k → ∃ q ch, Does (.unlock t i) s t i q ∧ q.mon.challenge = some (ch, now) ∧ ch.length = 8 ∧
      q.mon.answers = (⟨[], ch, Status.ok⟩ :: p.mon.answers).take 16) ∧
    (p.mon.lockEnd.isSome = true → Does (.unlock t i) s t i (monErr Status.locked p)) ∧
    (∀ k ch t0, p.mon.challenge = some (ch, t0) → monSlot s p = some k → now ≤ t0 + 300 * sec → ∃ q,
      Does (.unlockResponse t i (monResponse k.key p ch)) s t i q ∧ monLevel q = (if k.role = 0 then 1 else 2) ∧ q.mon.admin = (k.role == 2) ∧
        q.mon.challenge = none ∧ fget q F.PCT_MONSTAT_FAILS = 0) ∧
    (∀ k ch t0 r, p.mon.challenge = some (ch, t0) → monSlot s p = some k → r ≠ monResponse k.key p ch → ∃ q, Does (.unlockResponse t i r) s t i q ∧
      monLevel q = monLevel p ∧ fget q F.PCT_MONSTAT_FAILS = min 5 (fget p F.PCT_MONSTAT_FAILS + 1) ∧
      (4 ≤ fget p F.PCT_MONSTAT_FAILS → fbit q F.PCT_MONSTAT_LOCKOUT = true ∧ q.mon.lockEnd = some (now + 900 * sec))) ∧
    (∃ q, Does (.lock t i) s t i q ∧ monLevel q = 0 ∧ monActive q = true) ∧
    (∃ q, Does (.quit t i) s t i q ∧ monLevel q = 0 ∧ monActive q = false ∧ ∀ k < 16, lockOwner q k ≠ 5) ∧
    (monLevel p < 1 → ∀ a n, Does (.rd t i a n) s t i (monErr Status.locked p)) ∧
    (monLevel p < 2 → ∀ a v, Does (.wr t i a v) s t i (monErr Status.locked p))) ∧
  (∀ (s : State) (t : Nat) (i : PolderId) (now : Nat) (p : Polder), Types s t i 1 now p →
    (∀ a n r, 1 ≤ n ∧ n ≤ 64 → r = monRead s.part now n a p → Does (.rd t i a n) s t i (monOk r.1 r.2) ∧ r.1.length = n) ∧
    (∀ first n, first ≤ p.log.nextNo → 1 ≤ n ∧ n ≤ 31 → Does (.monitorLog t i first n) s t i
      (monSay ⟨[], ((p.log.sram.reverse.dropWhile fun r => decide (r.number < first)).take n).flatMap LogRec.bytes, Status.ok⟩ p)) ∧
    (∀ first n, fget p F.GAL_STAT_STATE = Rec.done → first + n ≤ galCount p →
      Does (.dumpGal t i first n) s t i (monOk ((List.range n).map fun k => galWord p (first + k)) p)) ∧
    (∀ first n, capState p = Rec.done → first + n ≤ rdN p A.CAP_ROWS * capRowWords p →
      Does (.dumpCap t i first n) s t i (monOk ((List.range n).map fun k => capWord p (first + k)) p)) ∧
    Does (.eng t i) s t i (monEng s.part now p)) ∧
  (∀ (s : State) (t : Nat) (i : PolderId) (now : Nat) (p : Polder), Types s t i 2 now p →
    (∀ a v q, a / 16777216 = 0x40 + (p.id.num - 1) → monMay p (a % 16777216) = true → a % 16777216 ≠ A.FIO_DOCMD →
      busWrite now (.mon p.id) p.id (a % 16777216) v p = (.ok, q) → Does (.wr t i a v) s t i (monOk [] (monRecord now 4 a v q))) ∧
    (∀ a v, monStray a p = none → monMay p (a % 16777216) = false →
      Does (.wr t i a v) s t i (monErr Status.locked (monRecord now 5 a v p))) ∧
    (∀ a v k, monStray a p = some k →
      Does (.wr t i a v) s t i (monErr Status.locked (monRecord now 5 a v (accErr now k 5 (a % 16777216) p)))) ∧
    (∀ code, (enabledMask p).testBit 8 = true → ∃ q, Does (.monitorTrip t i code) s t i q ∧ (latched q).testBit 8 = true) ∧
    (∀ m, switching p = false → ∃ q, Does (.monitorClear t i m) s t i q ∧ rd q A.DIK_TRIPSRC = rd (dikClear now m p).2 A.DIK_TRIPSRC ∧
      rd q A.DIK_CLRRES = rd (dikClear now m p).2 A.DIK_CLRRES) ∧
    (∀ m v, m % 16 &&& assigned (rd p A.PCT_REGCFG) = 0 → p.cyc.ordersIn (now / cyc) = [] → ∃ q, Does (.monitorDo t i m v) s t i q ∧
      docmd q = ((docmd p &&& (15 ^^^ m % 16)) ||| (v % 16 &&& m % 16))) ∧
    (p.mon.admin = true → lawRegime p = false → ∃ y, DoesAll (.monitorRestart t i) s t y ∧ (y.pol i).power = .off ∧ (y.pol i).boot.cause = Cause.monitor)) ∧
  (∀ (s : State) (t : Nat) (i : PolderId) (now : Nat) (p : Polder), Runs s t i now p →
    (∀ baud, monServed p = true → 112896 ≤ baud ∧ baud ≤ 3060000 → ∃ q, Does (.monitorRateSet t i baud) s t i q ∧ monActive q = true ∧
      fget q F.PCT_MONSTAT_BAUD = baud ∧ (monActive p = false → monLevel q = 0)) ∧
    (monActive p = true → p.mon.lastInput + 600 * sec ≤ now → ∃ q, Does (.monitorSessionTimeout t i) s t i q ∧ monActive q = false ∧ monLevel q = 0) ∧
    (∀ e, p.mon.lockEnd = some e → e ≤ now → ∃ q, Does (.monitorLockoutEnd t i) s t i q ∧ q.mon.lockEnd = none ∧
      fbit q F.PCT_MONSTAT_LOCKOUT = false ∧ fget q F.PCT_MONSTAT_FAILS = 0))
end

