-- ==== Sys2Proof/Laws/Cells.lean ====
section
/-! SUPPORT. The words of a window: a read after a write, and the canonical form that every write keeps. -/
namespace Sys2Proof.Machine
open Sys2Proof

theorem cellGet_drop_ne (d : Nat → Word) (l : Cells) {k j : Nat} (h : j ≠ k) : cellGet d (cellDrop l k) j = cellGet d l j := by
  induction l with
  | nil => rfl
  | cons e l ih =>
    obtain ⟨a, w⟩ := e
    by_cases ha : a = k
    · subst ha
      simp [cellDrop, cellGet, ih, Ne.symm h]
    · by_cases hj : a = j
      · subst hj
        simp [cellDrop, cellGet, ha]
      · simp [cellDrop, cellGet, ha, hj, ih]

theorem cellGet_drop_self (d : Nat → Word) (l : Cells) (k : Nat) : cellGet d (cellDrop l k) k = d k := by
  induction l with
  | nil => rfl
  | cons e l ih =>
    obtain ⟨a, w⟩ := e
    by_cases ha : a = k <;> simp [cellDrop, cellGet, ha, ih]

theorem cellGet_add_ne (d : Nat → Word) (l : Cells) (w : Word) {k j : Nat} (h : j ≠ k) : cellGet d (cellAdd l k w) j = cellGet d l j := by
  induction l with
  | nil => simp [cellAdd, cellGet, Ne.symm h]
  | cons e l ih =>
    obtain ⟨a, x⟩ := e
    by_cases ha : k < a
    · simp [cellAdd, cellGet, ha, Ne.symm h]
    · by_cases hj : a = j
      · subst hj
        simp [cellAdd, cellGet, ha]
      · simp [cellAdd, cellGet, ha, hj, ih]

theorem cellGet_add_drop (d : Nat → Word) (l : Cells) (k : Nat) (w : Word) : cellGet d (cellAdd (cellDrop l k) k w) k = w := by
  induction l with
  | nil => simp [cellDrop, cellAdd, cellGet]
  | cons e l ih =>
    obtain ⟨a, x⟩ := e
    by_cases ha : a = k
    · simpa [cellDrop, ha] using ih
    · by_cases hk : k < a <;> simp [cellDrop, cellAdd, cellGet, ha, hk, ih]

/-- A read after a write of the same offset gives the written word. -/
theorem cellGet_set_self (d : Nat → Word) (l : Cells) (k : Nat) (w : Word) : cellGet d (cellSet d l k w) k = w := by
  unfold cellSet
  split
  · rename_i h
    rw [cellGet_drop_self, h]
  · exact cellGet_add_drop d l k w

/-- A write leaves every other offset alone. -/
theorem cellGet_set_ne (d : Nat → Word) (l : Cells) (w : Word) {k j : Nat} (h : j ≠ k) : cellGet d (cellSet d l k w) j = cellGet d l j := by
  unfold cellSet
  split
  · exact cellGet_drop_ne d l h
  · rw [cellGet_add_ne d _ w h, cellGet_drop_ne d l h]

/-! ### The canonical form -/

theorem cellsFrom_mono (d : Nat → Word) {m n : Nat} (l : Cells) (h : m ≤ n) (hl : cellsFrom d n l = true) : cellsFrom d m l = true := by
  cases l with
  | nil => rfl
  | cons e l =>
    obtain ⟨a, w⟩ := e
    simp only [cellsFrom, Bool.and_eq_true, decide_eq_true_eq] at hl ⊢
    exact ⟨⟨le_trans h hl.1.1, hl.1.2⟩, hl.2⟩

theorem cellsFrom_drop (d : Nat → Word) (n : Nat) (l : Cells) (k : Nat) (hl : cellsFrom d n l = true) : cellsFrom d n (cellDrop l k) = true := by
  induction l generalizing n with
  | nil => rfl
  | cons e l ih =>
    obtain ⟨a, w⟩ := e
    simp only [cellsFrom, Bool.and_eq_true, decide_eq_true_eq] at hl
    by_cases ha : a = k
    · simp only [cellDrop, ha, if_true]
      exact ih n (cellsFrom_mono d l (by omega) hl.2)
    · simp only [cellDrop, ha, if_false, cellsFrom, Bool.and_eq_true, decide_eq_true_eq]
      exact ⟨hl.1, ih _ hl.2⟩

/-- No entry of the list stands at the offset. -/
def cellsFree (k : Nat) (l : Cells) : Prop := ∀ e ∈ l, e.1 ≠ k

theorem cellsFree_drop (l : Cells) (k : Nat) : cellsFree k (cellDrop l k) := by
  induction l with
  | nil => simp [cellDrop, cellsFree]
  | cons e l ih =>
    obtain ⟨a, w⟩ := e
    by_cases ha : a = k
    · simpa [cellDrop, ha] using ih
    · simp only [cellDrop, ha, if_false]
      intro x hx
      rcases List.mem_cons.mp hx with h | h
      · subst h
        exact ha
      · exact ih x h

theorem cellsFrom_add (d : Nat → Word) (n k : Nat) (w : Word) (l : Cells) (hk : n ≤ k) (hw : w ≠ d k) (hf : cellsFree k l)
    (hl : cellsFrom d n l = true) : cellsFrom d n (cellAdd l k w) = true := by
  induction l generalizing n with
  | nil => simp [cellAdd, cellsFrom, hk, hw]
  | cons e l ih =>
    obtain ⟨a, x⟩ := e
    simp only [cellsFrom, Bool.and_eq_true, decide_eq_true_eq] at hl
    have ha : a ≠ k := hf (a, x) (by simp)
    by_cases hlt : k < a
    · simp only [cellAdd, hlt, if_true, cellsFrom, Bool.and_eq_true, decide_eq_true_eq]
      exact ⟨⟨hk, hw⟩, ⟨by omega, hl.1.2⟩, hl.2⟩
    · simp only [cellAdd, hlt, if_false, cellsFrom, Bool.and_eq_true, decide_eq_true_eq]
      exact ⟨hl.1, ih (a + 1) (by omega) (fun e he => hf e (by simp [he])) hl.2⟩

/-- A write keeps the canonical form. -/
theorem cellSet_wf (d : Nat → Word) (l : Cells) (k : Nat) (w : Word) (hl : Cells.wf d l = true) : Cells.wf d (cellSet d l k w) = true := by
  unfold cellSet Cells.wf at *
  split
  · exact cellsFrom_drop d 0 l k hl
  · rename_i hw
    exact cellsFrom_add d 0 k w _ (Nat.zero_le k) hw (cellsFree_drop l k) (cellsFrom_drop d 0 l k hl)

/-! ### Registers of a polder, of the Hall, of the Dikehouse -/

@[simp] theorem rd_wr_self (p : Polder) (o : Nat) (w : Word) : rd (wr p o w) o = w := cellGet_set_self _ _ _ _
theorem rd_wr_ne (p : Polder) (w : Word) {o j : Nat} (h : j ≠ o) : rd (wr p o w) j = rd p j := cellGet_set_ne _ _ _ h
@[simp] theorem hrd_hwr_self (x : Hall) (o : Nat) (w : Word) : hrd (hwr x o w) o = w := cellGet_set_self _ _ _ _
theorem hrd_hwr_ne (x : Hall) (w : Word) {o j : Nat} (h : j ≠ o) : hrd (hwr x o w) j = hrd x j := cellGet_set_ne _ _ _ h
@[simp] theorem krd_kwr_self (x : Dikehouse) (o : Nat) (w : Word) : krd (kwr x o w) o = w := cellGet_set_self _ _ _ _
theorem krd_kwr_ne (x : Dikehouse) (w : Word) {o j : Nat} (h : j ≠ o) : krd (kwr x o w) j = krd x j := cellGet_set_ne _ _ _ h

theorem rd_wr (p : Polder) (o j : Nat) (w : Word) : rd (wr p o w) j = if j = o then w else rd p j := by
  by_cases h : j = o
  · subst h
    simp
  · simp [h, rd_wr_ne p w h]

theorem wr_regs_wf (p : Polder) (o : Nat) (w : Word) (h : Cells.wf polReset p.regs = true) : Cells.wf polReset (wr p o w).regs = true :=
  cellSet_wf _ _ _ _ h
theorem hwr_regs_wf (x : Hall) (o : Nat) (w : Word) (h : Cells.wf hallReset x.regs = true) : Cells.wf hallReset (hwr x o w).regs = true :=
  cellSet_wf _ _ _ _ h
theorem kwr_regs_wf (x : Dikehouse) (o : Nat) (w : Word) (h : Cells.wf dkhReset x.regs = true) : Cells.wf dkhReset (kwr x o w).regs = true :=
  cellSet_wf _ _ _ _ h
theorem wrAll_regs_wf (l : List (Nat × Word)) (p : Polder) (h : Cells.wf polReset p.regs = true) :
    Cells.wf polReset (wrAll p l).regs = true := by
  induction l generalizing p with
  | nil => exact h
  | cons e l ih => exact ih _ (wr_regs_wf p e.1 e.2 h)

/-- Two windows in canonical form whose every word agrees hold the same list. -/
theorem cells_ext (d : Nat → Word) (l m : Cells) (n : Nat) (hl : cellsFrom d n l = true) (hm : cellsFrom d n m = true)
    (h : ∀ k, cellGet d l k = cellGet d m k) : l = m := by
  have low : ∀ (l : Cells) (n k : Nat), cellsFrom d n l = true → k < n → cellGet d l k = d k := by
    intro l
    induction l with
    | nil => intros; rfl
    | cons e l ih =>
      intro n k hl hk
      obtain ⟨a, w⟩ := e
      simp only [cellsFrom, Bool.and_eq_true, decide_eq_true_eq] at hl
      have : a ≠ k := by omega
      simp only [cellGet, this, if_false]
      exact ih (a + 1) k hl.2 (by omega)
  induction l generalizing m n with
  | nil =>
    cases m with
    | nil => rfl
    | cons e m =>
      obtain ⟨a, w⟩ := e
      simp only [cellsFrom, Bool.and_eq_true, decide_eq_true_eq] at hm
      have := h a
      simp [cellGet] at this
      exact absurd this.symm hm.1.2
  | cons e l ih =>
    obtain ⟨a, w⟩ := e
    have hl' := hl
    simp only [cellsFrom, Bool.and_eq_true, decide_eq_true_eq] at hl
    cases m with
    | nil =>
      have := h a
      simp [cellGet] at this
      exact absurd this hl.1.2
    | cons f m =>
      obtain ⟨b, x⟩ := f
      have hm' := hm
      simp only [cellsFrom, Bool.and_eq_true, decide_eq_true_eq] at hm
      have hab : a = b := by
        rcases Nat.lt_trichotomy a b with hlt | heq | hgt
        · have h1 := h a
          have hne : b ≠ a := by omega
          simp only [cellGet, if_true, hne, if_false] at h1
          rw [low m (b + 1) a hm.2 (by omega)] at h1
          exact absurd h1 hl.1.2
        · exact heq
        · have h1 := h b
          have hne : a ≠ b := by omega
          simp only [cellGet, if_true, hne, if_false] at h1
          rw [low l (a + 1) b hl.2 (by omega)] at h1
          exact absurd h1.symm hm.1.2
      subst hab
      have hw : w = x := by
        have h1 := h a
        simpa [cellGet] using h1
      subst hw
      congr 1
      apply ih m (a + 1) hl.2 hm.2
      intro k
      have h1 := h k
      by_cases hk : a = k
      · subst hk
        rw [low l (a + 1) a hl.2 (by omega), low m (a + 1) a hm.2 (by omega)]
      · simpa [cellGet, hk] using h1

end Sys2Proof.Machine
end

