-- ==== Sys2Proof/Laws/State.lean ====
section
/-! SUPPORT. What each named update of the state leaves alone, field by field; generated from the structures of Machine/State.lean. -/
namespace Sys2Proof.Machine
open Sys2Proof

/-! `wr` -/
@[simp] theorem wr_id (p : Polder) (o : Nat) (w : Word) : (wr p o w).id = p.id := rfl
@[simp] theorem wr_power (p : Polder) (o : Nat) (w : Word) : (wr p o w).power = p.power := rfl
@[simp] theorem wr_sts (p : Polder) (o : Nat) (w : Word) : (wr p o w).sts = p.sts := rfl
@[simp] theorem wr_clk (p : Polder) (o : Nat) (w : Word) : (wr p o w).clk = p.clk := rfl
@[simp] theorem wr_tim (p : Polder) (o : Nat) (w : Word) : (wr p o w).tim = p.tim := rfl
@[simp] theorem wr_eng (p : Polder) (o : Nat) (w : Word) : (wr p o w).eng = p.eng := rfl
@[simp] theorem wr_mdl (p : Polder) (o : Nat) (w : Word) : (wr p o w).mdl = p.mdl := rfl
@[simp] theorem wr_dike (p : Polder) (o : Nat) (w : Word) : (wr p o w).dike = p.dike := rfl
@[simp] theorem wr_links (p : Polder) (o : Nat) (w : Word) : (wr p o w).links = p.links := rfl
@[simp] theorem wr_swg (p : Polder) (o : Nat) (w : Word) : (wr p o w).swg = p.swg := rfl
@[simp] theorem wr_rgm (p : Polder) (o : Nat) (w : Word) : (wr p o w).rgm = p.rgm := rfl
@[simp] theorem wr_emb (p : Polder) (o : Nat) (w : Word) : (wr p o w).emb = p.emb := rfl
@[simp] theorem wr_afe (p : Polder) (o : Nat) (w : Word) : (wr p o w).afe = p.afe := rfl
@[simp] theorem wr_gal (p : Polder) (o : Nat) (w : Word) : (wr p o w).gal = p.gal := rfl
@[simp] theorem wr_lrn (p : Polder) (o : Nat) (w : Word) : (wr p o w).lrn = p.lrn := rfl
@[simp] theorem wr_flt (p : Polder) (o : Nat) (w : Word) : (wr p o w).flt = p.flt := rfl
@[simp] theorem wr_cap (p : Polder) (o : Nat) (w : Word) : (wr p o w).cap = p.cap := rfl
@[simp] theorem wr_fio (p : Polder) (o : Nat) (w : Word) : (wr p o w).fio = p.fio := rfl
@[simp] theorem wr_spb (p : Polder) (o : Nat) (w : Word) : (wr p o w).spb = p.spb := rfl
@[simp] theorem wr_nv (p : Polder) (o : Nat) (w : Word) : (wr p o w).nv = p.nv := rfl
@[simp] theorem wr_boot (p : Polder) (o : Nat) (w : Word) : (wr p o w).boot = p.boot := rfl
@[simp] theorem wr_log (p : Polder) (o : Nat) (w : Word) : (wr p o w).log = p.log := rfl
@[simp] theorem wr_mon (p : Polder) (o : Nat) (w : Word) : (wr p o w).mon = p.mon := rfl
@[simp] theorem wr_cyc (p : Polder) (o : Nat) (w : Word) : (wr p o w).cyc = p.cyc := rfl
@[simp] theorem wr_out (p : Polder) (o : Nat) (w : Word) : (wr p o w).out = p.out := rfl
@[simp] theorem wr_free (p : Polder) (o : Nat) (w : Word) : (wr p o w).free = p.free := rfl

/-! `fput` -/
@[simp] theorem fput_id (p : Polder) (f : Fld) (v : Nat) : (fput p f v).id = p.id := rfl
@[simp] theorem fput_power (p : Polder) (f : Fld) (v : Nat) : (fput p f v).power = p.power := rfl
@[simp] theorem fput_sts (p : Polder) (f : Fld) (v : Nat) : (fput p f v).sts = p.sts := rfl
@[simp] theorem fput_clk (p : Polder) (f : Fld) (v : Nat) : (fput p f v).clk = p.clk := rfl
@[simp] theorem fput_tim (p : Polder) (f : Fld) (v : Nat) : (fput p f v).tim = p.tim := rfl
@[simp] theorem fput_eng (p : Polder) (f : Fld) (v : Nat) : (fput p f v).eng = p.eng := rfl
@[simp] theorem fput_mdl (p : Polder) (f : Fld) (v : Nat) : (fput p f v).mdl = p.mdl := rfl
@[simp] theorem fput_dike (p : Polder) (f : Fld) (v : Nat) : (fput p f v).dike = p.dike := rfl
@[simp] theorem fput_links (p : Polder) (f : Fld) (v : Nat) : (fput p f v).links = p.links := rfl
@[simp] theorem fput_swg (p : Polder) (f : Fld) (v : Nat) : (fput p f v).swg = p.swg := rfl
@[simp] theorem fput_rgm (p : Polder) (f : Fld) (v : Nat) : (fput p f v).rgm = p.rgm := rfl
@[simp] theorem fput_emb (p : Polder) (f : Fld) (v : Nat) : (fput p f v).emb = p.emb := rfl
@[simp] theorem fput_afe (p : Polder) (f : Fld) (v : Nat) : (fput p f v).afe = p.afe := rfl
@[simp] theorem fput_gal (p : Polder) (f : Fld) (v : Nat) : (fput p f v).gal = p.gal := rfl
@[simp] theorem fput_lrn (p : Polder) (f : Fld) (v : Nat) : (fput p f v).lrn = p.lrn := rfl
@[simp] theorem fput_flt (p : Polder) (f : Fld) (v : Nat) : (fput p f v).flt = p.flt := rfl
@[simp] theorem fput_cap (p : Polder) (f : Fld) (v : Nat) : (fput p f v).cap = p.cap := rfl
@[simp] theorem fput_fio (p : Polder) (f : Fld) (v : Nat) : (fput p f v).fio = p.fio := rfl
@[simp] theorem fput_spb (p : Polder) (f : Fld) (v : Nat) : (fput p f v).spb = p.spb := rfl
@[simp] theorem fput_nv (p : Polder) (f : Fld) (v : Nat) : (fput p f v).nv = p.nv := rfl
@[simp] theorem fput_boot (p : Polder) (f : Fld) (v : Nat) : (fput p f v).boot = p.boot := rfl
@[simp] theorem fput_log (p : Polder) (f : Fld) (v : Nat) : (fput p f v).log = p.log := rfl
@[simp] theorem fput_mon (p : Polder) (f : Fld) (v : Nat) : (fput p f v).mon = p.mon := rfl
@[simp] theorem fput_cyc (p : Polder) (f : Fld) (v : Nat) : (fput p f v).cyc = p.cyc := rfl
@[simp] theorem fput_out (p : Polder) (f : Fld) (v : Nat) : (fput p f v).out = p.out := rfl
@[simp] theorem fput_free (p : Polder) (f : Fld) (v : Nat) : (fput p f v).free = p.free := rfl

/-! `fputB` -/
@[simp] theorem fputB_id (p : Polder) (f : Fld) (b : Bool) : (fputB p f b).id = p.id := rfl
@[simp] theorem fputB_power (p : Polder) (f : Fld) (b : Bool) : (fputB p f b).power = p.power := rfl
@[simp] theorem fputB_sts (p : Polder) (f : Fld) (b : Bool) : (fputB p f b).sts = p.sts := rfl
@[simp] theorem fputB_clk (p : Polder) (f : Fld) (b : Bool) : (fputB p f b).clk = p.clk := rfl
@[simp] theorem fputB_tim (p : Polder) (f : Fld) (b : Bool) : (fputB p f b).tim = p.tim := rfl
@[simp] theorem fputB_eng (p : Polder) (f : Fld) (b : Bool) : (fputB p f b).eng = p.eng := rfl
@[simp] theorem fputB_mdl (p : Polder) (f : Fld) (b : Bool) : (fputB p f b).mdl = p.mdl := rfl
@[simp] theorem fputB_dike (p : Polder) (f : Fld) (b : Bool) : (fputB p f b).dike = p.dike := rfl
@[simp] theorem fputB_links (p : Polder) (f : Fld) (b : Bool) : (fputB p f b).links = p.links := rfl
@[simp] theorem fputB_swg (p : Polder) (f : Fld) (b : Bool) : (fputB p f b).swg = p.swg := rfl
@[simp] theorem fputB_rgm (p : Polder) (f : Fld) (b : Bool) : (fputB p f b).rgm = p.rgm := rfl
@[simp] theorem fputB_emb (p : Polder) (f : Fld) (b : Bool) : (fputB p f b).emb = p.emb := rfl
@[simp] theorem fputB_afe (p : Polder) (f : Fld) (b : Bool) : (fputB p f b).afe = p.afe := rfl
@[simp] theorem fputB_gal (p : Polder) (f : Fld) (b : Bool) : (fputB p f b).gal = p.gal := rfl
@[simp] theorem fputB_lrn (p : Polder) (f : Fld) (b : Bool) : (fputB p f b).lrn = p.lrn := rfl
@[simp] theorem fputB_flt (p : Polder) (f : Fld) (b : Bool) : (fputB p f b).flt = p.flt := rfl
@[simp] theorem fputB_cap (p : Polder) (f : Fld) (b : Bool) : (fputB p f b).cap = p.cap := rfl
@[simp] theorem fputB_fio (p : Polder) (f : Fld) (b : Bool) : (fputB p f b).fio = p.fio := rfl
@[simp] theorem fputB_spb (p : Polder) (f : Fld) (b : Bool) : (fputB p f b).spb = p.spb := rfl
@[simp] theorem fputB_nv (p : Polder) (f : Fld) (b : Bool) : (fputB p f b).nv = p.nv := rfl
@[simp] theorem fputB_boot (p : Polder) (f : Fld) (b : Bool) : (fputB p f b).boot = p.boot := rfl
@[simp] theorem fputB_log (p : Polder) (f : Fld) (b : Bool) : (fputB p f b).log = p.log := rfl
@[simp] theorem fputB_mon (p : Polder) (f : Fld) (b : Bool) : (fputB p f b).mon = p.mon := rfl
@[simp] theorem fputB_cyc (p : Polder) (f : Fld) (b : Bool) : (fputB p f b).cyc = p.cyc := rfl
@[simp] theorem fputB_out (p : Polder) (f : Fld) (b : Bool) : (fputB p f b).out = p.out := rfl
@[simp] theorem fputB_free (p : Polder) (f : Fld) (b : Bool) : (fputB p f b).free = p.free := rfl

/-! `addSat` -/
@[simp] theorem addSat_id (p : Polder) (o k : Nat) : (addSat p o k).id = p.id := rfl
@[simp] theorem addSat_power (p : Polder) (o k : Nat) : (addSat p o k).power = p.power := rfl
@[simp] theorem addSat_sts (p : Polder) (o k : Nat) : (addSat p o k).sts = p.sts := rfl
@[simp] theorem addSat_clk (p : Polder) (o k : Nat) : (addSat p o k).clk = p.clk := rfl
@[simp] theorem addSat_tim (p : Polder) (o k : Nat) : (addSat p o k).tim = p.tim := rfl
@[simp] theorem addSat_eng (p : Polder) (o k : Nat) : (addSat p o k).eng = p.eng := rfl
@[simp] theorem addSat_mdl (p : Polder) (o k : Nat) : (addSat p o k).mdl = p.mdl := rfl
@[simp] theorem addSat_dike (p : Polder) (o k : Nat) : (addSat p o k).dike = p.dike := rfl
@[simp] theorem addSat_links (p : Polder) (o k : Nat) : (addSat p o k).links = p.links := rfl
@[simp] theorem addSat_swg (p : Polder) (o k : Nat) : (addSat p o k).swg = p.swg := rfl
@[simp] theorem addSat_rgm (p : Polder) (o k : Nat) : (addSat p o k).rgm = p.rgm := rfl
@[simp] theorem addSat_emb (p : Polder) (o k : Nat) : (addSat p o k).emb = p.emb := rfl
@[simp] theorem addSat_afe (p : Polder) (o k : Nat) : (addSat p o k).afe = p.afe := rfl
@[simp] theorem addSat_gal (p : Polder) (o k : Nat) : (addSat p o k).gal = p.gal := rfl
@[simp] theorem addSat_lrn (p : Polder) (o k : Nat) : (addSat p o k).lrn = p.lrn := rfl
@[simp] theorem addSat_flt (p : Polder) (o k : Nat) : (addSat p o k).flt = p.flt := rfl
@[simp] theorem addSat_cap (p : Polder) (o k : Nat) : (addSat p o k).cap = p.cap := rfl
@[simp] theorem addSat_fio (p : Polder) (o k : Nat) : (addSat p o k).fio = p.fio := rfl
@[simp] theorem addSat_spb (p : Polder) (o k : Nat) : (addSat p o k).spb = p.spb := rfl
@[simp] theorem addSat_nv (p : Polder) (o k : Nat) : (addSat p o k).nv = p.nv := rfl
@[simp] theorem addSat_boot (p : Polder) (o k : Nat) : (addSat p o k).boot = p.boot := rfl
@[simp] theorem addSat_log (p : Polder) (o k : Nat) : (addSat p o k).log = p.log := rfl
@[simp] theorem addSat_mon (p : Polder) (o k : Nat) : (addSat p o k).mon = p.mon := rfl
@[simp] theorem addSat_cyc (p : Polder) (o k : Nat) : (addSat p o k).cyc = p.cyc := rfl
@[simp] theorem addSat_out (p : Polder) (o k : Nat) : (addSat p o k).out = p.out := rfl
@[simp] theorem addSat_free (p : Polder) (o k : Nat) : (addSat p o k).free = p.free := rfl

/-! `addWrap` -/
@[simp] theorem addWrap_id (p : Polder) (o k : Nat) : (addWrap p o k).id = p.id := rfl
@[simp] theorem addWrap_power (p : Polder) (o k : Nat) : (addWrap p o k).power = p.power := rfl
@[simp] theorem addWrap_sts (p : Polder) (o k : Nat) : (addWrap p o k).sts = p.sts := rfl
@[simp] theorem addWrap_clk (p : Polder) (o k : Nat) : (addWrap p o k).clk = p.clk := rfl
@[simp] theorem addWrap_tim (p : Polder) (o k : Nat) : (addWrap p o k).tim = p.tim := rfl
@[simp] theorem addWrap_eng (p : Polder) (o k : Nat) : (addWrap p o k).eng = p.eng := rfl
@[simp] theorem addWrap_mdl (p : Polder) (o k : Nat) : (addWrap p o k).mdl = p.mdl := rfl
@[simp] theorem addWrap_dike (p : Polder) (o k : Nat) : (addWrap p o k).dike = p.dike := rfl
@[simp] theorem addWrap_links (p : Polder) (o k : Nat) : (addWrap p o k).links = p.links := rfl
@[simp] theorem addWrap_swg (p : Polder) (o k : Nat) : (addWrap p o k).swg = p.swg := rfl
@[simp] theorem addWrap_rgm (p : Polder) (o k : Nat) : (addWrap p o k).rgm = p.rgm := rfl
@[simp] theorem addWrap_emb (p : Polder) (o k : Nat) : (addWrap p o k).emb = p.emb := rfl
@[simp] theorem addWrap_afe (p : Polder) (o k : Nat) : (addWrap p o k).afe = p.afe := rfl
@[simp] theorem addWrap_gal (p : Polder) (o k : Nat) : (addWrap p o k).gal = p.gal := rfl
@[simp] theorem addWrap_lrn (p : Polder) (o k : Nat) : (addWrap p o k).lrn = p.lrn := rfl
@[simp] theorem addWrap_flt (p : Polder) (o k : Nat) : (addWrap p o k).flt = p.flt := rfl
@[simp] theorem addWrap_cap (p : Polder) (o k : Nat) : (addWrap p o k).cap = p.cap := rfl
@[simp] theorem addWrap_fio (p : Polder) (o k : Nat) : (addWrap p o k).fio = p.fio := rfl
@[simp] theorem addWrap_spb (p : Polder) (o k : Nat) : (addWrap p o k).spb = p.spb := rfl
@[simp] theorem addWrap_nv (p : Polder) (o k : Nat) : (addWrap p o k).nv = p.nv := rfl
@[simp] theorem addWrap_boot (p : Polder) (o k : Nat) : (addWrap p o k).boot = p.boot := rfl
@[simp] theorem addWrap_log (p : Polder) (o k : Nat) : (addWrap p o k).log = p.log := rfl
@[simp] theorem addWrap_mon (p : Polder) (o k : Nat) : (addWrap p o k).mon = p.mon := rfl
@[simp] theorem addWrap_cyc (p : Polder) (o k : Nat) : (addWrap p o k).cyc = p.cyc := rfl
@[simp] theorem addWrap_out (p : Polder) (o k : Nat) : (addWrap p o k).out = p.out := rfl
@[simp] theorem addWrap_free (p : Polder) (o k : Nat) : (addWrap p o k).free = p.free := rfl

/-! `emit` -/
@[simp] theorem emit_id (p : Polder) (o : Out) : (emit p o).id = p.id := rfl
@[simp] theorem emit_power (p : Polder) (o : Out) : (emit p o).power = p.power := rfl
@[simp] theorem emit_regs (p : Polder) (o : Out) : (emit p o).regs = p.regs := rfl
@[simp] theorem emit_sts (p : Polder) (o : Out) : (emit p o).sts = p.sts := rfl
@[simp] theorem emit_clk (p : Polder) (o : Out) : (emit p o).clk = p.clk := rfl
@[simp] theorem emit_tim (p : Polder) (o : Out) : (emit p o).tim = p.tim := rfl
@[simp] theorem emit_eng (p : Polder) (o : Out) : (emit p o).eng = p.eng := rfl
@[simp] theorem emit_mdl (p : Polder) (o : Out) : (emit p o).mdl = p.mdl := rfl
@[simp] theorem emit_dike (p : Polder) (o : Out) : (emit p o).dike = p.dike := rfl
@[simp] theorem emit_links (p : Polder) (o : Out) : (emit p o).links = p.links := rfl
@[simp] theorem emit_swg (p : Polder) (o : Out) : (emit p o).swg = p.swg := rfl
@[simp] theorem emit_rgm (p : Polder) (o : Out) : (emit p o).rgm = p.rgm := rfl
@[simp] theorem emit_emb (p : Polder) (o : Out) : (emit p o).emb = p.emb := rfl
@[simp] theorem emit_afe (p : Polder) (o : Out) : (emit p o).afe = p.afe := rfl
@[simp] theorem emit_gal (p : Polder) (o : Out) : (emit p o).gal = p.gal := rfl
@[simp] theorem emit_lrn (p : Polder) (o : Out) : (emit p o).lrn = p.lrn := rfl
@[simp] theorem emit_flt (p : Polder) (o : Out) : (emit p o).flt = p.flt := rfl
@[simp] theorem emit_cap (p : Polder) (o : Out) : (emit p o).cap = p.cap := rfl
@[simp] theorem emit_fio (p : Polder) (o : Out) : (emit p o).fio = p.fio := rfl
@[simp] theorem emit_spb (p : Polder) (o : Out) : (emit p o).spb = p.spb := rfl
@[simp] theorem emit_nv (p : Polder) (o : Out) : (emit p o).nv = p.nv := rfl
@[simp] theorem emit_boot (p : Polder) (o : Out) : (emit p o).boot = p.boot := rfl
@[simp] theorem emit_log (p : Polder) (o : Out) : (emit p o).log = p.log := rfl
@[simp] theorem emit_mon (p : Polder) (o : Out) : (emit p o).mon = p.mon := rfl
@[simp] theorem emit_cyc (p : Polder) (o : Out) : (emit p o).cyc = p.cyc := rfl
@[simp] theorem emit_free (p : Polder) (o : Out) : (emit p o).free = p.free := rfl

/-! `answer` -/
@[simp] theorem answer_id (p : Polder) (n : Nat) (c : Cmd) (r : Reply) : (answer p n c r).id = p.id := rfl
@[simp] theorem answer_power (p : Polder) (n : Nat) (c : Cmd) (r : Reply) : (answer p n c r).power = p.power := rfl
@[simp] theorem answer_regs (p : Polder) (n : Nat) (c : Cmd) (r : Reply) : (answer p n c r).regs = p.regs := rfl
@[simp] theorem answer_sts (p : Polder) (n : Nat) (c : Cmd) (r : Reply) : (answer p n c r).sts = p.sts := rfl
@[simp] theorem answer_clk (p : Polder) (n : Nat) (c : Cmd) (r : Reply) : (answer p n c r).clk = p.clk := rfl
@[simp] theorem answer_tim (p : Polder) (n : Nat) (c : Cmd) (r : Reply) : (answer p n c r).tim = p.tim := rfl
@[simp] theorem answer_eng (p : Polder) (n : Nat) (c : Cmd) (r : Reply) : (answer p n c r).eng = p.eng := rfl
@[simp] theorem answer_mdl (p : Polder) (n : Nat) (c : Cmd) (r : Reply) : (answer p n c r).mdl = p.mdl := rfl
@[simp] theorem answer_dike (p : Polder) (n : Nat) (c : Cmd) (r : Reply) : (answer p n c r).dike = p.dike := rfl
@[simp] theorem answer_links (p : Polder) (n : Nat) (c : Cmd) (r : Reply) : (answer p n c r).links = p.links := rfl
@[simp] theorem answer_swg (p : Polder) (n : Nat) (c : Cmd) (r : Reply) : (answer p n c r).swg = p.swg := rfl
@[simp] theorem answer_rgm (p : Polder) (n : Nat) (c : Cmd) (r : Reply) : (answer p n c r).rgm = p.rgm := rfl
@[simp] theorem answer_emb (p : Polder) (n : Nat) (c : Cmd) (r : Reply) : (answer p n c r).emb = p.emb := rfl
@[simp] theorem answer_afe (p : Polder) (n : Nat) (c : Cmd) (r : Reply) : (answer p n c r).afe = p.afe := rfl
@[simp] theorem answer_gal (p : Polder) (n : Nat) (c : Cmd) (r : Reply) : (answer p n c r).gal = p.gal := rfl
@[simp] theorem answer_lrn (p : Polder) (n : Nat) (c : Cmd) (r : Reply) : (answer p n c r).lrn = p.lrn := rfl
@[simp] theorem answer_flt (p : Polder) (n : Nat) (c : Cmd) (r : Reply) : (answer p n c r).flt = p.flt := rfl
@[simp] theorem answer_cap (p : Polder) (n : Nat) (c : Cmd) (r : Reply) : (answer p n c r).cap = p.cap := rfl
@[simp] theorem answer_fio (p : Polder) (n : Nat) (c : Cmd) (r : Reply) : (answer p n c r).fio = p.fio := rfl
@[simp] theorem answer_spb (p : Polder) (n : Nat) (c : Cmd) (r : Reply) : (answer p n c r).spb = p.spb := rfl
@[simp] theorem answer_nv (p : Polder) (n : Nat) (c : Cmd) (r : Reply) : (answer p n c r).nv = p.nv := rfl
@[simp] theorem answer_boot (p : Polder) (n : Nat) (c : Cmd) (r : Reply) : (answer p n c r).boot = p.boot := rfl
@[simp] theorem answer_log (p : Polder) (n : Nat) (c : Cmd) (r : Reply) : (answer p n c r).log = p.log := rfl
@[simp] theorem answer_mon (p : Polder) (n : Nat) (c : Cmd) (r : Reply) : (answer p n c r).mon = p.mon := rfl
@[simp] theorem answer_cyc (p : Polder) (n : Nat) (c : Cmd) (r : Reply) : (answer p n c r).cyc = p.cyc := rfl
@[simp] theorem answer_free (p : Polder) (n : Nat) (c : Cmd) (r : Reply) : (answer p n c r).free = p.free := rfl

/-! `done` -/
@[simp] theorem done_id (p : Polder) (c : CmdRef) (r : Reply) : (done p c r).id = p.id := rfl
@[simp] theorem done_power (p : Polder) (c : CmdRef) (r : Reply) : (done p c r).power = p.power := rfl
@[simp] theorem done_regs (p : Polder) (c : CmdRef) (r : Reply) : (done p c r).regs = p.regs := rfl
@[simp] theorem done_sts (p : Polder) (c : CmdRef) (r : Reply) : (done p c r).sts = p.sts := rfl
@[simp] theorem done_clk (p : Polder) (c : CmdRef) (r : Reply) : (done p c r).clk = p.clk := rfl
@[simp] theorem done_tim (p : Polder) (c : CmdRef) (r : Reply) : (done p c r).tim = p.tim := rfl
@[simp] theorem done_eng (p : Polder) (c : CmdRef) (r : Reply) : (done p c r).eng = p.eng := rfl
@[simp] theorem done_mdl (p : Polder) (c : CmdRef) (r : Reply) : (done p c r).mdl = p.mdl := rfl
@[simp] theorem done_dike (p : Polder) (c : CmdRef) (r : Reply) : (done p c r).dike = p.dike := rfl
@[simp] theorem done_links (p : Polder) (c : CmdRef) (r : Reply) : (done p c r).links = p.links := rfl
@[simp] theorem done_swg (p : Polder) (c : CmdRef) (r : Reply) : (done p c r).swg = p.swg := rfl
@[simp] theorem done_rgm (p : Polder) (c : CmdRef) (r : Reply) : (done p c r).rgm = p.rgm := rfl
@[simp] theorem done_emb (p : Polder) (c : CmdRef) (r : Reply) : (done p c r).emb = p.emb := rfl
@[simp] theorem done_afe (p : Polder) (c : CmdRef) (r : Reply) : (done p c r).afe = p.afe := rfl
@[simp] theorem done_gal (p : Polder) (c : CmdRef) (r : Reply) : (done p c r).gal = p.gal := rfl
@[simp] theorem done_lrn (p : Polder) (c : CmdRef) (r : Reply) : (done p c r).lrn = p.lrn := rfl
@[simp] theorem done_flt (p : Polder) (c : CmdRef) (r : Reply) : (done p c r).flt = p.flt := rfl
@[simp] theorem done_cap (p : Polder) (c : CmdRef) (r : Reply) : (done p c r).cap = p.cap := rfl
@[simp] theorem done_fio (p : Polder) (c : CmdRef) (r : Reply) : (done p c r).fio = p.fio := rfl
@[simp] theorem done_spb (p : Polder) (c : CmdRef) (r : Reply) : (done p c r).spb = p.spb := rfl
@[simp] theorem done_nv (p : Polder) (c : CmdRef) (r : Reply) : (done p c r).nv = p.nv := rfl
@[simp] theorem done_boot (p : Polder) (c : CmdRef) (r : Reply) : (done p c r).boot = p.boot := rfl
@[simp] theorem done_log (p : Polder) (c : CmdRef) (r : Reply) : (done p c r).log = p.log := rfl
@[simp] theorem done_mon (p : Polder) (c : CmdRef) (r : Reply) : (done p c r).mon = p.mon := rfl
@[simp] theorem done_cyc (p : Polder) (c : CmdRef) (r : Reply) : (done p c r).cyc = p.cyc := rfl
@[simp] theorem done_free (p : Polder) (c : CmdRef) (r : Reply) : (done p c r).free = p.free := rfl

/-! `drawn` -/
@[simp] theorem drawn_id (p : Polder) : (drawn p).id = p.id := rfl
@[simp] theorem drawn_power (p : Polder) : (drawn p).power = p.power := rfl
@[simp] theorem drawn_regs (p : Polder) : (drawn p).regs = p.regs := rfl
@[simp] theorem drawn_sts (p : Polder) : (drawn p).sts = p.sts := rfl
@[simp] theorem drawn_clk (p : Polder) : (drawn p).clk = p.clk := rfl
@[simp] theorem drawn_tim (p : Polder) : (drawn p).tim = p.tim := rfl
@[simp] theorem drawn_eng (p : Polder) : (drawn p).eng = p.eng := rfl
@[simp] theorem drawn_mdl (p : Polder) : (drawn p).mdl = p.mdl := rfl
@[simp] theorem drawn_dike (p : Polder) : (drawn p).dike = p.dike := rfl
@[simp] theorem drawn_links (p : Polder) : (drawn p).links = p.links := rfl
@[simp] theorem drawn_swg (p : Polder) : (drawn p).swg = p.swg := rfl
@[simp] theorem drawn_rgm (p : Polder) : (drawn p).rgm = p.rgm := rfl
@[simp] theorem drawn_emb (p : Polder) : (drawn p).emb = p.emb := rfl
@[simp] theorem drawn_afe (p : Polder) : (drawn p).afe = p.afe := rfl
@[simp] theorem drawn_gal (p : Polder) : (drawn p).gal = p.gal := rfl
@[simp] theorem drawn_lrn (p : Polder) : (drawn p).lrn = p.lrn := rfl
@[simp] theorem drawn_flt (p : Polder) : (drawn p).flt = p.flt := rfl
@[simp] theorem drawn_cap (p : Polder) : (drawn p).cap = p.cap := rfl
@[simp] theorem drawn_fio (p : Polder) : (drawn p).fio = p.fio := rfl
@[simp] theorem drawn_spb (p : Polder) : (drawn p).spb = p.spb := rfl
@[simp] theorem drawn_nv (p : Polder) : (drawn p).nv = p.nv := rfl
@[simp] theorem drawn_boot (p : Polder) : (drawn p).boot = p.boot := rfl
@[simp] theorem drawn_log (p : Polder) : (drawn p).log = p.log := rfl
@[simp] theorem drawn_mon (p : Polder) : (drawn p).mon = p.mon := rfl
@[simp] theorem drawn_cyc (p : Polder) : (drawn p).cyc = p.cyc := rfl
@[simp] theorem drawn_out (p : Polder) : (drawn p).out = p.out := rfl
@[simp] theorem emit_out (p : Polder) (o : Out) : (emit p o).out = p.out ++ [o] := rfl
@[simp] theorem answer_out (p : Polder) (n : Nat) (c : Cmd) (r : Reply) : (answer p n c r).out = p.out ++ [.answer ⟨p.id.num, c.sess, n, c.seq, r.status, r.detail, r.payload⟩] := rfl
@[simp] theorem drawn_free (p : Polder) : (drawn p).free = p.free + 1 := rfl

/-! `modAfe` -/
@[simp] theorem modAfe_id (g : AfeState → AfeState) (p : Polder) : (modAfe g p).id = p.id := rfl
@[simp] theorem modAfe_power (g : AfeState → AfeState) (p : Polder) : (modAfe g p).power = p.power := rfl
@[simp] theorem modAfe_regs (g : AfeState → AfeState) (p : Polder) : (modAfe g p).regs = p.regs := rfl
@[simp] theorem modAfe_sts (g : AfeState → AfeState) (p : Polder) : (modAfe g p).sts = p.sts := rfl
@[simp] theorem modAfe_clk (g : AfeState → AfeState) (p : Polder) : (modAfe g p).clk = p.clk := rfl
@[simp] theorem modAfe_tim (g : AfeState → AfeState) (p : Polder) : (modAfe g p).tim = p.tim := rfl
@[simp] theorem modAfe_eng (g : AfeState → AfeState) (p : Polder) : (modAfe g p).eng = p.eng := rfl
@[simp] theorem modAfe_mdl (g : AfeState → AfeState) (p : Polder) : (modAfe g p).mdl = p.mdl := rfl
@[simp] theorem modAfe_dike (g : AfeState → AfeState) (p : Polder) : (modAfe g p).dike = p.dike := rfl
@[simp] theorem modAfe_links (g : AfeState → AfeState) (p : Polder) : (modAfe g p).links = p.links := rfl
@[simp] theorem modAfe_swg (g : AfeState → AfeState) (p : Polder) : (modAfe g p).swg = p.swg := rfl
@[simp] theorem modAfe_rgm (g : AfeState → AfeState) (p : Polder) : (modAfe g p).rgm = p.rgm := rfl
@[simp] theorem modAfe_emb (g : AfeState → AfeState) (p : Polder) : (modAfe g p).emb = p.emb := rfl
@[simp] theorem modAfe_afe (g : AfeState → AfeState) (p : Polder) : (modAfe g p).afe = g p.afe := rfl
@[simp] theorem modAfe_gal (g : AfeState → AfeState) (p : Polder) : (modAfe g p).gal = p.gal := rfl
@[simp] theorem modAfe_lrn (g : AfeState → AfeState) (p : Polder) : (modAfe g p).lrn = p.lrn := rfl
@[simp] theorem modAfe_flt (g : AfeState → AfeState) (p : Polder) : (modAfe g p).flt = p.flt := rfl
@[simp] theorem modAfe_cap (g : AfeState → AfeState) (p : Polder) : (modAfe g p).cap = p.cap := rfl
@[simp] theorem modAfe_fio (g : AfeState → AfeState) (p : Polder) : (modAfe g p).fio = p.fio := rfl
@[simp] theorem modAfe_spb (g : AfeState → AfeState) (p : Polder) : (modAfe g p).spb = p.spb := rfl
@[simp] theorem modAfe_nv (g : AfeState → AfeState) (p : Polder) : (modAfe g p).nv = p.nv := rfl
@[simp] theorem modAfe_boot (g : AfeState → AfeState) (p : Polder) : (modAfe g p).boot = p.boot := rfl
@[simp] theorem modAfe_log (g : AfeState → AfeState) (p : Polder) : (modAfe g p).log = p.log := rfl
@[simp] theorem modAfe_mon (g : AfeState → AfeState) (p : Polder) : (modAfe g p).mon = p.mon := rfl
@[simp] theorem modAfe_cyc (g : AfeState → AfeState) (p : Polder) : (modAfe g p).cyc = p.cyc := rfl
@[simp] theorem modAfe_out (g : AfeState → AfeState) (p : Polder) : (modAfe g p).out = p.out := rfl
@[simp] theorem modAfe_free (g : AfeState → AfeState) (p : Polder) : (modAfe g p).free = p.free := rfl

/-! `modBoot` -/
@[simp] theorem modBoot_id (g : BootState → BootState) (p : Polder) : (modBoot g p).id = p.id := rfl
@[simp] theorem modBoot_power (g : BootState → BootState) (p : Polder) : (modBoot g p).power = p.power := rfl
@[simp] theorem modBoot_regs (g : BootState → BootState) (p : Polder) : (modBoot g p).regs = p.regs := rfl
@[simp] theorem modBoot_sts (g : BootState → BootState) (p : Polder) : (modBoot g p).sts = p.sts := rfl
@[simp] theorem modBoot_clk (g : BootState → BootState) (p : Polder) : (modBoot g p).clk = p.clk := rfl
@[simp] theorem modBoot_tim (g : BootState → BootState) (p : Polder) : (modBoot g p).tim = p.tim := rfl
@[simp] theorem modBoot_eng (g : BootState → BootState) (p : Polder) : (modBoot g p).eng = p.eng := rfl
@[simp] theorem modBoot_mdl (g : BootState → BootState) (p : Polder) : (modBoot g p).mdl = p.mdl := rfl
@[simp] theorem modBoot_dike (g : BootState → BootState) (p : Polder) : (modBoot g p).dike = p.dike := rfl
@[simp] theorem modBoot_links (g : BootState → BootState) (p : Polder) : (modBoot g p).links = p.links := rfl
@[simp] theorem modBoot_swg (g : BootState → BootState) (p : Polder) : (modBoot g p).swg = p.swg := rfl
@[simp] theorem modBoot_rgm (g : BootState → BootState) (p : Polder) : (modBoot g p).rgm = p.rgm := rfl
@[simp] theorem modBoot_emb (g : BootState → BootState) (p : Polder) : (modBoot g p).emb = p.emb := rfl
@[simp] theorem modBoot_afe (g : BootState → BootState) (p : Polder) : (modBoot g p).afe = p.afe := rfl
@[simp] theorem modBoot_gal (g : BootState → BootState) (p : Polder) : (modBoot g p).gal = p.gal := rfl
@[simp] theorem modBoot_lrn (g : BootState → BootState) (p : Polder) : (modBoot g p).lrn = p.lrn := rfl
@[simp] theorem modBoot_flt (g : BootState → BootState) (p : Polder) : (modBoot g p).flt = p.flt := rfl
@[simp] theorem modBoot_cap (g : BootState → BootState) (p : Polder) : (modBoot g p).cap = p.cap := rfl
@[simp] theorem modBoot_fio (g : BootState → BootState) (p : Polder) : (modBoot g p).fio = p.fio := rfl
@[simp] theorem modBoot_spb (g : BootState → BootState) (p : Polder) : (modBoot g p).spb = p.spb := rfl
@[simp] theorem modBoot_nv (g : BootState → BootState) (p : Polder) : (modBoot g p).nv = p.nv := rfl
@[simp] theorem modBoot_boot (g : BootState → BootState) (p : Polder) : (modBoot g p).boot = g p.boot := rfl
@[simp] theorem modBoot_log (g : BootState → BootState) (p : Polder) : (modBoot g p).log = p.log := rfl
@[simp] theorem modBoot_mon (g : BootState → BootState) (p : Polder) : (modBoot g p).mon = p.mon := rfl
@[simp] theorem modBoot_cyc (g : BootState → BootState) (p : Polder) : (modBoot g p).cyc = p.cyc := rfl
@[simp] theorem modBoot_out (g : BootState → BootState) (p : Polder) : (modBoot g p).out = p.out := rfl
@[simp] theorem modBoot_free (g : BootState → BootState) (p : Polder) : (modBoot g p).free = p.free := rfl

/-! `modNv` -/
@[simp] theorem modNv_id (g : NvState → NvState) (p : Polder) : (modNv g p).id = p.id := rfl
@[simp] theorem modNv_power (g : NvState → NvState) (p : Polder) : (modNv g p).power = p.power := rfl
@[simp] theorem modNv_regs (g : NvState → NvState) (p : Polder) : (modNv g p).regs = p.regs := rfl
@[simp] theorem modNv_sts (g : NvState → NvState) (p : Polder) : (modNv g p).sts = p.sts := rfl
@[simp] theorem modNv_clk (g : NvState → NvState) (p : Polder) : (modNv g p).clk = p.clk := rfl
@[simp] theorem modNv_tim (g : NvState → NvState) (p : Polder) : (modNv g p).tim = p.tim := rfl
@[simp] theorem modNv_eng (g : NvState → NvState) (p : Polder) : (modNv g p).eng = p.eng := rfl
@[simp] theorem modNv_mdl (g : NvState → NvState) (p : Polder) : (modNv g p).mdl = p.mdl := rfl
@[simp] theorem modNv_dike (g : NvState → NvState) (p : Polder) : (modNv g p).dike = p.dike := rfl
@[simp] theorem modNv_links (g : NvState → NvState) (p : Polder) : (modNv g p).links = p.links := rfl
@[simp] theorem modNv_swg (g : NvState → NvState) (p : Polder) : (modNv g p).swg = p.swg := rfl
@[simp] theorem modNv_rgm (g : NvState → NvState) (p : Polder) : (modNv g p).rgm = p.rgm := rfl
@[simp] theorem modNv_emb (g : NvState → NvState) (p : Polder) : (modNv g p).emb = p.emb := rfl
@[simp] theorem modNv_afe (g : NvState → NvState) (p : Polder) : (modNv g p).afe = p.afe := rfl
@[simp] theorem modNv_gal (g : NvState → NvState) (p : Polder) : (modNv g p).gal = p.gal := rfl
@[simp] theorem modNv_lrn (g : NvState → NvState) (p : Polder) : (modNv g p).lrn = p.lrn := rfl
@[simp] theorem modNv_flt (g : NvState → NvState) (p : Polder) : (modNv g p).flt = p.flt := rfl
@[simp] theorem modNv_cap (g : NvState → NvState) (p : Polder) : (modNv g p).cap = p.cap := rfl
@[simp] theorem modNv_fio (g : NvState → NvState) (p : Polder) : (modNv g p).fio = p.fio := rfl
@[simp] theorem modNv_spb (g : NvState → NvState) (p : Polder) : (modNv g p).spb = p.spb := rfl
@[simp] theorem modNv_nv (g : NvState → NvState) (p : Polder) : (modNv g p).nv = g p.nv := rfl
@[simp] theorem modNv_boot (g : NvState → NvState) (p : Polder) : (modNv g p).boot = p.boot := rfl
@[simp] theorem modNv_log (g : NvState → NvState) (p : Polder) : (modNv g p).log = p.log := rfl
@[simp] theorem modNv_mon (g : NvState → NvState) (p : Polder) : (modNv g p).mon = p.mon := rfl
@[simp] theorem modNv_cyc (g : NvState → NvState) (p : Polder) : (modNv g p).cyc = p.cyc := rfl
@[simp] theorem modNv_out (g : NvState → NvState) (p : Polder) : (modNv g p).out = p.out := rfl
@[simp] theorem modNv_free (g : NvState → NvState) (p : Polder) : (modNv g p).free = p.free := rfl

/-! `modClk` -/
@[simp] theorem modClk_id (g : ClkState → ClkState) (p : Polder) : (modClk g p).id = p.id := rfl
@[simp] theorem modClk_power (g : ClkState → ClkState) (p : Polder) : (modClk g p).power = p.power := rfl
@[simp] theorem modClk_regs (g : ClkState → ClkState) (p : Polder) : (modClk g p).regs = p.regs := rfl
@[simp] theorem modClk_sts (g : ClkState → ClkState) (p : Polder) : (modClk g p).sts = p.sts := rfl
@[simp] theorem modClk_clk (g : ClkState → ClkState) (p : Polder) : (modClk g p).clk = g p.clk := rfl
@[simp] theorem modClk_tim (g : ClkState → ClkState) (p : Polder) : (modClk g p).tim = p.tim := rfl
@[simp] theorem modClk_eng (g : ClkState → ClkState) (p : Polder) : (modClk g p).eng = p.eng := rfl
@[simp] theorem modClk_mdl (g : ClkState → ClkState) (p : Polder) : (modClk g p).mdl = p.mdl := rfl
@[simp] theorem modClk_dike (g : ClkState → ClkState) (p : Polder) : (modClk g p).dike = p.dike := rfl
@[simp] theorem modClk_links (g : ClkState → ClkState) (p : Polder) : (modClk g p).links = p.links := rfl
@[simp] theorem modClk_swg (g : ClkState → ClkState) (p : Polder) : (modClk g p).swg = p.swg := rfl
@[simp] theorem modClk_rgm (g : ClkState → ClkState) (p : Polder) : (modClk g p).rgm = p.rgm := rfl
@[simp] theorem modClk_emb (g : ClkState → ClkState) (p : Polder) : (modClk g p).emb = p.emb := rfl
@[simp] theorem modClk_afe (g : ClkState → ClkState) (p : Polder) : (modClk g p).afe = p.afe := rfl
@[simp] theorem modClk_gal (g : ClkState → ClkState) (p : Polder) : (modClk g p).gal = p.gal := rfl
@[simp] theorem modClk_lrn (g : ClkState → ClkState) (p : Polder) : (modClk g p).lrn = p.lrn := rfl
@[simp] theorem modClk_flt (g : ClkState → ClkState) (p : Polder) : (modClk g p).flt = p.flt := rfl
@[simp] theorem modClk_cap (g : ClkState → ClkState) (p : Polder) : (modClk g p).cap = p.cap := rfl
@[simp] theorem modClk_fio (g : ClkState → ClkState) (p : Polder) : (modClk g p).fio = p.fio := rfl
@[simp] theorem modClk_spb (g : ClkState → ClkState) (p : Polder) : (modClk g p).spb = p.spb := rfl
@[simp] theorem modClk_nv (g : ClkState → ClkState) (p : Polder) : (modClk g p).nv = p.nv := rfl
@[simp] theorem modClk_boot (g : ClkState → ClkState) (p : Polder) : (modClk g p).boot = p.boot := rfl
@[simp] theorem modClk_log (g : ClkState → ClkState) (p : Polder) : (modClk g p).log = p.log := rfl
@[simp] theorem modClk_mon (g : ClkState → ClkState) (p : Polder) : (modClk g p).mon = p.mon := rfl
@[simp] theorem modClk_cyc (g : ClkState → ClkState) (p : Polder) : (modClk g p).cyc = p.cyc := rfl
@[simp] theorem modClk_out (g : ClkState → ClkState) (p : Polder) : (modClk g p).out = p.out := rfl
@[simp] theorem modClk_free (g : ClkState → ClkState) (p : Polder) : (modClk g p).free = p.free := rfl

/-! `modTim` -/
@[simp] theorem modTim_id (g : TimState → TimState) (p : Polder) : (modTim g p).id = p.id := rfl
@[simp] theorem modTim_power (g : TimState → TimState) (p : Polder) : (modTim g p).power = p.power := rfl
@[simp] theorem modTim_regs (g : TimState → TimState) (p : Polder) : (modTim g p).regs = p.regs := rfl
@[simp] theorem modTim_sts (g : TimState → TimState) (p : Polder) : (modTim g p).sts = p.sts := rfl
@[simp] theorem modTim_clk (g : TimState → TimState) (p : Polder) : (modTim g p).clk = p.clk := rfl
@[simp] theorem modTim_tim (g : TimState → TimState) (p : Polder) : (modTim g p).tim = g p.tim := rfl
@[simp] theorem modTim_eng (g : TimState → TimState) (p : Polder) : (modTim g p).eng = p.eng := rfl
@[simp] theorem modTim_mdl (g : TimState → TimState) (p : Polder) : (modTim g p).mdl = p.mdl := rfl
@[simp] theorem modTim_dike (g : TimState → TimState) (p : Polder) : (modTim g p).dike = p.dike := rfl
@[simp] theorem modTim_links (g : TimState → TimState) (p : Polder) : (modTim g p).links = p.links := rfl
@[simp] theorem modTim_swg (g : TimState → TimState) (p : Polder) : (modTim g p).swg = p.swg := rfl
@[simp] theorem modTim_rgm (g : TimState → TimState) (p : Polder) : (modTim g p).rgm = p.rgm := rfl
@[simp] theorem modTim_emb (g : TimState → TimState) (p : Polder) : (modTim g p).emb = p.emb := rfl
@[simp] theorem modTim_afe (g : TimState → TimState) (p : Polder) : (modTim g p).afe = p.afe := rfl
@[simp] theorem modTim_gal (g : TimState → TimState) (p : Polder) : (modTim g p).gal = p.gal := rfl
@[simp] theorem modTim_lrn (g : TimState → TimState) (p : Polder) : (modTim g p).lrn = p.lrn := rfl
@[simp] theorem modTim_flt (g : TimState → TimState) (p : Polder) : (modTim g p).flt = p.flt := rfl
@[simp] theorem modTim_cap (g : TimState → TimState) (p : Polder) : (modTim g p).cap = p.cap := rfl
@[simp] theorem modTim_fio (g : TimState → TimState) (p : Polder) : (modTim g p).fio = p.fio := rfl
@[simp] theorem modTim_spb (g : TimState → TimState) (p : Polder) : (modTim g p).spb = p.spb := rfl
@[simp] theorem modTim_nv (g : TimState → TimState) (p : Polder) : (modTim g p).nv = p.nv := rfl
@[simp] theorem modTim_boot (g : TimState → TimState) (p : Polder) : (modTim g p).boot = p.boot := rfl
@[simp] theorem modTim_log (g : TimState → TimState) (p : Polder) : (modTim g p).log = p.log := rfl
@[simp] theorem modTim_mon (g : TimState → TimState) (p : Polder) : (modTim g p).mon = p.mon := rfl
@[simp] theorem modTim_cyc (g : TimState → TimState) (p : Polder) : (modTim g p).cyc = p.cyc := rfl
@[simp] theorem modTim_out (g : TimState → TimState) (p : Polder) : (modTim g p).out = p.out := rfl
@[simp] theorem modTim_free (g : TimState → TimState) (p : Polder) : (modTim g p).free = p.free := rfl

/-! `modEng` -/
@[simp] theorem modEng_id (g : EngState → EngState) (p : Polder) : (modEng g p).id = p.id := rfl
@[simp] theorem modEng_power (g : EngState → EngState) (p : Polder) : (modEng g p).power = p.power := rfl
@[simp] theorem modEng_regs (g : EngState → EngState) (p : Polder) : (modEng g p).regs = p.regs := rfl
@[simp] theorem modEng_sts (g : EngState → EngState) (p : Polder) : (modEng g p).sts = p.sts := rfl
@[simp] theorem modEng_clk (g : EngState → EngState) (p : Polder) : (modEng g p).clk = p.clk := rfl
@[simp] theorem modEng_tim (g : EngState → EngState) (p : Polder) : (modEng g p).tim = p.tim := rfl
@[simp] theorem modEng_eng (g : EngState → EngState) (p : Polder) : (modEng g p).eng = g p.eng := rfl
@[simp] theorem modEng_mdl (g : EngState → EngState) (p : Polder) : (modEng g p).mdl = p.mdl := rfl
@[simp] theorem modEng_dike (g : EngState → EngState) (p : Polder) : (modEng g p).dike = p.dike := rfl
@[simp] theorem modEng_links (g : EngState → EngState) (p : Polder) : (modEng g p).links = p.links := rfl
@[simp] theorem modEng_swg (g : EngState → EngState) (p : Polder) : (modEng g p).swg = p.swg := rfl
@[simp] theorem modEng_rgm (g : EngState → EngState) (p : Polder) : (modEng g p).rgm = p.rgm := rfl
@[simp] theorem modEng_emb (g : EngState → EngState) (p : Polder) : (modEng g p).emb = p.emb := rfl
@[simp] theorem modEng_afe (g : EngState → EngState) (p : Polder) : (modEng g p).afe = p.afe := rfl
@[simp] theorem modEng_gal (g : EngState → EngState) (p : Polder) : (modEng g p).gal = p.gal := rfl
@[simp] theorem modEng_lrn (g : EngState → EngState) (p : Polder) : (modEng g p).lrn = p.lrn := rfl
@[simp] theorem modEng_flt (g : EngState → EngState) (p : Polder) : (modEng g p).flt = p.flt := rfl
@[simp] theorem modEng_cap (g : EngState → EngState) (p : Polder) : (modEng g p).cap = p.cap := rfl
@[simp] theorem modEng_fio (g : EngState → EngState) (p : Polder) : (modEng g p).fio = p.fio := rfl
@[simp] theorem modEng_spb (g : EngState → EngState) (p : Polder) : (modEng g p).spb = p.spb := rfl
@[simp] theorem modEng_nv (g : EngState → EngState) (p : Polder) : (modEng g p).nv = p.nv := rfl
@[simp] theorem modEng_boot (g : EngState → EngState) (p : Polder) : (modEng g p).boot = p.boot := rfl
@[simp] theorem modEng_log (g : EngState → EngState) (p : Polder) : (modEng g p).log = p.log := rfl
@[simp] theorem modEng_mon (g : EngState → EngState) (p : Polder) : (modEng g p).mon = p.mon := rfl
@[simp] theorem modEng_cyc (g : EngState → EngState) (p : Polder) : (modEng g p).cyc = p.cyc := rfl
@[simp] theorem modEng_out (g : EngState → EngState) (p : Polder) : (modEng g p).out = p.out := rfl
@[simp] theorem modEng_free (g : EngState → EngState) (p : Polder) : (modEng g p).free = p.free := rfl

/-! `modMon` -/
@[simp] theorem modMon_id (g : MonState → MonState) (p : Polder) : (modMon g p).id = p.id := rfl
@[simp] theorem modMon_power (g : MonState → MonState) (p : Polder) : (modMon g p).power = p.power := rfl
@[simp] theorem modMon_regs (g : MonState → MonState) (p : Polder) : (modMon g p).regs = p.regs := rfl
@[simp] theorem modMon_sts (g : MonState → MonState) (p : Polder) : (modMon g p).sts = p.sts := rfl
@[simp] theorem modMon_clk (g : MonState → MonState) (p : Polder) : (modMon g p).clk = p.clk := rfl
@[simp] theorem modMon_tim (g : MonState → MonState) (p : Polder) : (modMon g p).tim = p.tim := rfl
@[simp] theorem modMon_eng (g : MonState → MonState) (p : Polder) : (modMon g p).eng = p.eng := rfl
@[simp] theorem modMon_mdl (g : MonState → MonState) (p : Polder) : (modMon g p).mdl = p.mdl := rfl
@[simp] theorem modMon_dike (g : MonState → MonState) (p : Polder) : (modMon g p).dike = p.dike := rfl
@[simp] theorem modMon_links (g : MonState → MonState) (p : Polder) : (modMon g p).links = p.links := rfl
@[simp] theorem modMon_swg (g : MonState → MonState) (p : Polder) : (modMon g p).swg = p.swg := rfl
@[simp] theorem modMon_rgm (g : MonState → MonState) (p : Polder) : (modMon g p).rgm = p.rgm := rfl
@[simp] theorem modMon_emb (g : MonState → MonState) (p : Polder) : (modMon g p).emb = p.emb := rfl
@[simp] theorem modMon_afe (g : MonState → MonState) (p : Polder) : (modMon g p).afe = p.afe := rfl
@[simp] theorem modMon_gal (g : MonState → MonState) (p : Polder) : (modMon g p).gal = p.gal := rfl
@[simp] theorem modMon_lrn (g : MonState → MonState) (p : Polder) : (modMon g p).lrn = p.lrn := rfl
@[simp] theorem modMon_flt (g : MonState → MonState) (p : Polder) : (modMon g p).flt = p.flt := rfl
@[simp] theorem modMon_cap (g : MonState → MonState) (p : Polder) : (modMon g p).cap = p.cap := rfl
@[simp] theorem modMon_fio (g : MonState → MonState) (p : Polder) : (modMon g p).fio = p.fio := rfl
@[simp] theorem modMon_spb (g : MonState → MonState) (p : Polder) : (modMon g p).spb = p.spb := rfl
@[simp] theorem modMon_nv (g : MonState → MonState) (p : Polder) : (modMon g p).nv = p.nv := rfl
@[simp] theorem modMon_boot (g : MonState → MonState) (p : Polder) : (modMon g p).boot = p.boot := rfl
@[simp] theorem modMon_log (g : MonState → MonState) (p : Polder) : (modMon g p).log = p.log := rfl
@[simp] theorem modMon_mon (g : MonState → MonState) (p : Polder) : (modMon g p).mon = g p.mon := rfl
@[simp] theorem modMon_cyc (g : MonState → MonState) (p : Polder) : (modMon g p).cyc = p.cyc := rfl
@[simp] theorem modMon_out (g : MonState → MonState) (p : Polder) : (modMon g p).out = p.out := rfl
@[simp] theorem modMon_free (g : MonState → MonState) (p : Polder) : (modMon g p).free = p.free := rfl

/-! `modFlt` -/
@[simp] theorem modFlt_id (g : FltState → FltState) (p : Polder) : (modFlt g p).id = p.id := rfl
@[simp] theorem modFlt_power (g : FltState → FltState) (p : Polder) : (modFlt g p).power = p.power := rfl
@[simp] theorem modFlt_regs (g : FltState → FltState) (p : Polder) : (modFlt g p).regs = p.regs := rfl
@[simp] theorem modFlt_sts (g : FltState → FltState) (p : Polder) : (modFlt g p).sts = p.sts := rfl
@[simp] theorem modFlt_clk (g : FltState → FltState) (p : Polder) : (modFlt g p).clk = p.clk := rfl
@[simp] theorem modFlt_tim (g : FltState → FltState) (p : Polder) : (modFlt g p).tim = p.tim := rfl
@[simp] theorem modFlt_eng (g : FltState → FltState) (p : Polder) : (modFlt g p).eng = p.eng := rfl
@[simp] theorem modFlt_mdl (g : FltState → FltState) (p : Polder) : (modFlt g p).mdl = p.mdl := rfl
@[simp] theorem modFlt_dike (g : FltState → FltState) (p : Polder) : (modFlt g p).dike = p.dike := rfl
@[simp] theorem modFlt_links (g : FltState → FltState) (p : Polder) : (modFlt g p).links = p.links := rfl
@[simp] theorem modFlt_swg (g : FltState → FltState) (p : Polder) : (modFlt g p).swg = p.swg := rfl
@[simp] theorem modFlt_rgm (g : FltState → FltState) (p : Polder) : (modFlt g p).rgm = p.rgm := rfl
@[simp] theorem modFlt_emb (g : FltState → FltState) (p : Polder) : (modFlt g p).emb = p.emb := rfl
@[simp] theorem modFlt_afe (g : FltState → FltState) (p : Polder) : (modFlt g p).afe = p.afe := rfl
@[simp] theorem modFlt_gal (g : FltState → FltState) (p : Polder) : (modFlt g p).gal = p.gal := rfl
@[simp] theorem modFlt_lrn (g : FltState → FltState) (p : Polder) : (modFlt g p).lrn = p.lrn := rfl
@[simp] theorem modFlt_flt (g : FltState → FltState) (p : Polder) : (modFlt g p).flt = g p.flt := rfl
@[simp] theorem modFlt_cap (g : FltState → FltState) (p : Polder) : (modFlt g p).cap = p.cap := rfl
@[simp] theorem modFlt_fio (g : FltState → FltState) (p : Polder) : (modFlt g p).fio = p.fio := rfl
@[simp] theorem modFlt_spb (g : FltState → FltState) (p : Polder) : (modFlt g p).spb = p.spb := rfl
@[simp] theorem modFlt_nv (g : FltState → FltState) (p : Polder) : (modFlt g p).nv = p.nv := rfl
@[simp] theorem modFlt_boot (g : FltState → FltState) (p : Polder) : (modFlt g p).boot = p.boot := rfl
@[simp] theorem modFlt_log (g : FltState → FltState) (p : Polder) : (modFlt g p).log = p.log := rfl
@[simp] theorem modFlt_mon (g : FltState → FltState) (p : Polder) : (modFlt g p).mon = p.mon := rfl
@[simp] theorem modFlt_cyc (g : FltState → FltState) (p : Polder) : (modFlt g p).cyc = p.cyc := rfl
@[simp] theorem modFlt_out (g : FltState → FltState) (p : Polder) : (modFlt g p).out = p.out := rfl
@[simp] theorem modFlt_free (g : FltState → FltState) (p : Polder) : (modFlt g p).free = p.free := rfl

/-! `modRgm` -/
@[simp] theorem modRgm_id (g : RegState → RegState) (p : Polder) : (modRgm g p).id = p.id := rfl
@[simp] theorem modRgm_power (g : RegState → RegState) (p : Polder) : (modRgm g p).power = p.power := rfl
@[simp] theorem modRgm_regs (g : RegState → RegState) (p : Polder) : (modRgm g p).regs = p.regs := rfl
@[simp] theorem modRgm_sts (g : RegState → RegState) (p : Polder) : (modRgm g p).sts = p.sts := rfl
@[simp] theorem modRgm_clk (g : RegState → RegState) (p : Polder) : (modRgm g p).clk = p.clk := rfl
@[simp] theorem modRgm_tim (g : RegState → RegState) (p : Polder) : (modRgm g p).tim = p.tim := rfl
@[simp] theorem modRgm_eng (g : RegState → RegState) (p : Polder) : (modRgm g p).eng = p.eng := rfl
@[simp] theorem modRgm_mdl (g : RegState → RegState) (p : Polder) : (modRgm g p).mdl = p.mdl := rfl
@[simp] theorem modRgm_dike (g : RegState → RegState) (p : Polder) : (modRgm g p).dike = p.dike := rfl
@[simp] theorem modRgm_links (g : RegState → RegState) (p : Polder) : (modRgm g p).links = p.links := rfl
@[simp] theorem modRgm_swg (g : RegState → RegState) (p : Polder) : (modRgm g p).swg = p.swg := rfl
@[simp] theorem modRgm_rgm (g : RegState → RegState) (p : Polder) : (modRgm g p).rgm = g p.rgm := rfl
@[simp] theorem modRgm_emb (g : RegState → RegState) (p : Polder) : (modRgm g p).emb = p.emb := rfl
@[simp] theorem modRgm_afe (g : RegState → RegState) (p : Polder) : (modRgm g p).afe = p.afe := rfl
@[simp] theorem modRgm_gal (g : RegState → RegState) (p : Polder) : (modRgm g p).gal = p.gal := rfl
@[simp] theorem modRgm_lrn (g : RegState → RegState) (p : Polder) : (modRgm g p).lrn = p.lrn := rfl
@[simp] theorem modRgm_flt (g : RegState → RegState) (p : Polder) : (modRgm g p).flt = p.flt := rfl
@[simp] theorem modRgm_cap (g : RegState → RegState) (p : Polder) : (modRgm g p).cap = p.cap := rfl
@[simp] theorem modRgm_fio (g : RegState → RegState) (p : Polder) : (modRgm g p).fio = p.fio := rfl
@[simp] theorem modRgm_spb (g : RegState → RegState) (p : Polder) : (modRgm g p).spb = p.spb := rfl
@[simp] theorem modRgm_nv (g : RegState → RegState) (p : Polder) : (modRgm g p).nv = p.nv := rfl
@[simp] theorem modRgm_boot (g : RegState → RegState) (p : Polder) : (modRgm g p).boot = p.boot := rfl
@[simp] theorem modRgm_log (g : RegState → RegState) (p : Polder) : (modRgm g p).log = p.log := rfl
@[simp] theorem modRgm_mon (g : RegState → RegState) (p : Polder) : (modRgm g p).mon = p.mon := rfl
@[simp] theorem modRgm_cyc (g : RegState → RegState) (p : Polder) : (modRgm g p).cyc = p.cyc := rfl
@[simp] theorem modRgm_out (g : RegState → RegState) (p : Polder) : (modRgm g p).out = p.out := rfl
@[simp] theorem modRgm_free (g : RegState → RegState) (p : Polder) : (modRgm g p).free = p.free := rfl

/-! `modSpb` -/
@[simp] theorem modSpb_id (g : SpbState → SpbState) (p : Polder) : (modSpb g p).id = p.id := rfl
@[simp] theorem modSpb_power (g : SpbState → SpbState) (p : Polder) : (modSpb g p).power = p.power := rfl
@[simp] theorem modSpb_regs (g : SpbState → SpbState) (p : Polder) : (modSpb g p).regs = p.regs := rfl
@[simp] theorem modSpb_sts (g : SpbState → SpbState) (p : Polder) : (modSpb g p).sts = p.sts := rfl
@[simp] theorem modSpb_clk (g : SpbState → SpbState) (p : Polder) : (modSpb g p).clk = p.clk := rfl
@[simp] theorem modSpb_tim (g : SpbState → SpbState) (p : Polder) : (modSpb g p).tim = p.tim := rfl
@[simp] theorem modSpb_eng (g : SpbState → SpbState) (p : Polder) : (modSpb g p).eng = p.eng := rfl
@[simp] theorem modSpb_mdl (g : SpbState → SpbState) (p : Polder) : (modSpb g p).mdl = p.mdl := rfl
@[simp] theorem modSpb_dike (g : SpbState → SpbState) (p : Polder) : (modSpb g p).dike = p.dike := rfl
@[simp] theorem modSpb_links (g : SpbState → SpbState) (p : Polder) : (modSpb g p).links = p.links := rfl
@[simp] theorem modSpb_swg (g : SpbState → SpbState) (p : Polder) : (modSpb g p).swg = p.swg := rfl
@[simp] theorem modSpb_rgm (g : SpbState → SpbState) (p : Polder) : (modSpb g p).rgm = p.rgm := rfl
@[simp] theorem modSpb_emb (g : SpbState → SpbState) (p : Polder) : (modSpb g p).emb = p.emb := rfl
@[simp] theorem modSpb_afe (g : SpbState → SpbState) (p : Polder) : (modSpb g p).afe = p.afe := rfl
@[simp] theorem modSpb_gal (g : SpbState → SpbState) (p : Polder) : (modSpb g p).gal = p.gal := rfl
@[simp] theorem modSpb_lrn (g : SpbState → SpbState) (p : Polder) : (modSpb g p).lrn = p.lrn := rfl
@[simp] theorem modSpb_flt (g : SpbState → SpbState) (p : Polder) : (modSpb g p).flt = p.flt := rfl
@[simp] theorem modSpb_cap (g : SpbState → SpbState) (p : Polder) : (modSpb g p).cap = p.cap := rfl
@[simp] theorem modSpb_fio (g : SpbState → SpbState) (p : Polder) : (modSpb g p).fio = p.fio := rfl
@[simp] theorem modSpb_spb (g : SpbState → SpbState) (p : Polder) : (modSpb g p).spb = g p.spb := rfl
@[simp] theorem modSpb_nv (g : SpbState → SpbState) (p : Polder) : (modSpb g p).nv = p.nv := rfl
@[simp] theorem modSpb_boot (g : SpbState → SpbState) (p : Polder) : (modSpb g p).boot = p.boot := rfl
@[simp] theorem modSpb_log (g : SpbState → SpbState) (p : Polder) : (modSpb g p).log = p.log := rfl
@[simp] theorem modSpb_mon (g : SpbState → SpbState) (p : Polder) : (modSpb g p).mon = p.mon := rfl
@[simp] theorem modSpb_cyc (g : SpbState → SpbState) (p : Polder) : (modSpb g p).cyc = p.cyc := rfl
@[simp] theorem modSpb_out (g : SpbState → SpbState) (p : Polder) : (modSpb g p).out = p.out := rfl
@[simp] theorem modSpb_free (g : SpbState → SpbState) (p : Polder) : (modSpb g p).free = p.free := rfl

/-! `hwr`, `kwr` -/
@[simp] theorem hwr_up (h : Hall) (o : Nat) (w : Word) : (hwr h o w).up = h.up := rfl
@[simp] theorem hwr_applied (h : Hall) (o : Nat) (w : Word) : (hwr h o w).applied = h.applied := rfl
@[simp] theorem hwr_keys (h : Hall) (o : Nat) (w : Word) : (hwr h o w).keys = h.keys := rfl
@[simp] theorem hwr_sessions (h : Hall) (o : Nat) (w : Word) : (hwr h o w).sessions = h.sessions := rfl
@[simp] theorem hwr_tokens (h : Hall) (o : Nat) (w : Word) : (hwr h o w).tokens = h.tokens := rfl
@[simp] theorem hwr_queues (h : Hall) (o : Nat) (w : Word) : (hwr h o w).queues = h.queues := rfl
@[simp] theorem hwr_inFlight (h : Hall) (o : Nat) (w : Word) : (hwr h o w).inFlight = h.inFlight := rfl
@[simp] theorem hwr_timeRef (h : Hall) (o : Nat) (w : Word) : (hwr h o w).timeRef = h.timeRef := rfl
@[simp] theorem hwr_pdAt (h : Hall) (o : Nat) (w : Word) : (hwr h o w).pdAt = h.pdAt := rfl
@[simp] theorem hwr_pdSeq (h : Hall) (o : Nat) (w : Word) : (hwr h o w).pdSeq = h.pdSeq := rfl
@[simp] theorem hwr_entered (h : Hall) (o : Nat) (w : Word) : (hwr h o w).entered = h.entered := rfl
@[simp] theorem hwr_sets (h : Hall) (o : Nat) (w : Word) : (hwr h o w).sets = h.sets := rfl
@[simp] theorem hwr_replies (h : Hall) (o : Nat) (w : Word) : (hwr h o w).replies = h.replies := rfl
@[simp] theorem hwr_sent (h : Hall) (o : Nat) (w : Word) : (hwr h o w).sent = h.sent := rfl
@[simp] theorem hwr_spiOut (h : Hall) (o : Nat) (w : Word) : (hwr h o w).spiOut = h.spiOut := rfl
@[simp] theorem hwr_spiRx (h : Hall) (o : Nat) (w : Word) : (hwr h o w).spiRx = h.spiRx := rfl
@[simp] theorem hwr_failTimes (h : Hall) (o : Nat) (w : Word) : (hwr h o w).failTimes = h.failTimes := rfl
@[simp] theorem hwr_icmpTimes (h : Hall) (o : Nat) (w : Word) : (hwr h o w).icmpTimes = h.icmpTimes := rfl
@[simp] theorem hwr_prpSeen (h : Hall) (o : Nat) (w : Word) : (hwr h o w).prpSeen = h.prpSeen := rfl
@[simp] theorem hwr_prpSeq (h : Hall) (o : Nat) (w : Word) : (hwr h o w).prpSeq = h.prpSeq := rfl
@[simp] theorem hwr_arp (h : Hall) (o : Nat) (w : Word) : (hwr h o w).arp = h.arp := rfl
@[simp] theorem hwr_supSeq (h : Hall) (o : Nat) (w : Word) : (hwr h o w).supSeq = h.supSeq := rfl
@[simp] theorem hwr_supAt (h : Hall) (o : Nat) (w : Word) : (hwr h o w).supAt = h.supAt := rfl
@[simp] theorem hwr_svId (h : Hall) (o : Nat) (w : Word) : (hwr h o w).svId = h.svId := rfl
@[simp] theorem hwr_svRev (h : Hall) (o : Nat) (w : Word) : (hwr h o w).svRev = h.svRev := rfl
@[simp] theorem hwr_epoch (h : Hall) (o : Nat) (w : Word) : (hwr h o w).epoch = h.epoch := rfl
@[simp] theorem hwr_fifoLost (h : Hall) (o : Nat) (w : Word) : (hwr h o w).fifoLost = h.fifoLost := rfl
@[simp] theorem hwr_ecc1 (h : Hall) (o : Nat) (w : Word) : (hwr h o w).ecc1 = h.ecc1 := rfl
@[simp] theorem hwr_accAt (h : Hall) (o : Nat) (w : Word) : (hwr h o w).accAt = h.accAt := rfl
@[simp] theorem kwr_up (d : Dikehouse) (o : Nat) (w : Word) : (kwr d o w).up = d.up := rfl
@[simp] theorem kwr_pols (d : Dikehouse) (o : Nat) (w : Word) : (kwr d o w).pols = d.pols := rfl
@[simp] theorem kwr_filt (d : Dikehouse) (o : Nat) (w : Word) : (kwr d o w).filt = d.filt := rfl
@[simp] theorem kwr_held (d : Dikehouse) (o : Nat) (w : Word) : (kwr d o w).held = d.held := rfl
@[simp] theorem kwr_fired (d : Dikehouse) (o : Nat) (w : Word) : (kwr d o w).fired = d.fired := rfl
@[simp] theorem kwr_lastEval (d : Dikehouse) (o : Nat) (w : Word) : (kwr d o w).lastEval = d.lastEval := rfl
@[simp] theorem kwr_rtcAt (d : Dikehouse) (o : Nat) (w : Word) : (kwr d o w).rtcAt = d.rtcAt := rfl
@[simp] theorem kwr_requests (d : Dikehouse) (o : Nat) (w : Word) : (kwr d o w).requests = d.requests := rfl
@[simp] theorem kwr_wakeLow (d : Dikehouse) (o : Nat) (w : Word) : (kwr d o w).wakeLow = d.wakeLow := rfl
@[simp] theorem kwr_bank0 (d : Dikehouse) (o : Nat) (w : Word) : (kwr d o w).bank0 = d.bank0 := rfl
@[simp] theorem kwr_bank1 (d : Dikehouse) (o : Nat) (w : Word) : (kwr d o w).bank1 = d.bank1 := rfl
@[simp] theorem kwr_image (d : Dikehouse) (o : Nat) (w : Word) : (kwr d o w).image = d.image := rfl
@[simp] theorem kwr_sets (d : Dikehouse) (o : Nat) (w : Word) : (kwr d o w).sets = d.sets := rfl
@[simp] theorem kwr_dirtySince (d : Dikehouse) (o : Nat) (w : Word) : (kwr d o w).dirtySince = d.dirtySince := rfl
@[simp] theorem kwr_dirtySect (d : Dikehouse) (o : Nat) (w : Word) : (kwr d o w).dirtySect = d.dirtySect := rfl
@[simp] theorem kwr_writing (d : Dikehouse) (o : Nat) (w : Word) : (kwr d o w).writing = d.writing := rfl
@[simp] theorem kwr_writeData (d : Dikehouse) (o : Nat) (w : Word) : (kwr d o w).writeData = d.writeData := rfl
@[simp] theorem kwr_lastEnd (d : Dikehouse) (o : Nat) (w : Word) : (kwr d o w).lastEnd = d.lastEnd := rfl
@[simp] theorem kwr_waiting (d : Dikehouse) (o : Nat) (w : Word) : (kwr d o w).waiting = d.waiting := rfl
@[simp] theorem kwr_covered (d : Dikehouse) (o : Nat) (w : Word) : (kwr d o w).covered = d.covered := rfl
@[simp] theorem kwr_accAt (d : Dikehouse) (o : Nat) (w : Word) : (kwr d o w).accAt = d.accAt := rfl
@[simp] theorem kwr_bootCount (d : Dikehouse) (o : Nat) (w : Word) : (kwr d o w).bootCount = d.bootCount := rfl
@[simp] theorem kwr_sram (d : Dikehouse) (o : Nat) (w : Word) : (kwr d o w).sram = d.sram := rfl
@[simp] theorem kwr_nextNo (d : Dikehouse) (o : Nat) (w : Word) : (kwr d o w).nextNo = d.nextNo := rfl
@[simp] theorem kwr_out (d : Dikehouse) (o : Nat) (w : Word) : (kwr d o w).out = d.out := rfl
@[simp] theorem kwr_fifoLost (d : Dikehouse) (o : Nat) (w : Word) : (kwr d o w).fifoLost = d.fifoLost := rfl
@[simp] theorem kwr_ecc1 (d : Dikehouse) (o : Nat) (w : Word) : (kwr d o w).ecc1 = d.ecc1 := rfl

/-! The device -/
@[simp] theorem at_part (s : State) (t : Nat) : (s.at' t).part = s.part := rfl
@[simp] theorem modHall_part (g : Hall → Hall) (s : State) : (modHall g s).part = s.part := rfl
@[simp] theorem modDkh_part (g : Dikehouse → Dikehouse) (s : State) : (modDkh g s).part = s.part := rfl
@[simp] theorem at_now (s : State) (t : Nat) : (s.at' t).now = max s.now t := rfl
@[simp] theorem modHall_now (g : Hall → Hall) (s : State) : (modHall g s).now = s.now := rfl
@[simp] theorem modDkh_now (g : Dikehouse → Dikehouse) (s : State) : (modDkh g s).now = s.now := rfl
@[simp] theorem at_rails (s : State) (t : Nat) : (s.at' t).rails = s.rails := rfl
@[simp] theorem modHall_rails (g : Hall → Hall) (s : State) : (modHall g s).rails = s.rails := rfl
@[simp] theorem modDkh_rails (g : Dikehouse → Dikehouse) (s : State) : (modDkh g s).rails = s.rails := rfl
@[simp] theorem at_polA (s : State) (t : Nat) : (s.at' t).polA = s.polA := rfl
@[simp] theorem modHall_polA (g : Hall → Hall) (s : State) : (modHall g s).polA = s.polA := rfl
@[simp] theorem modDkh_polA (g : Dikehouse → Dikehouse) (s : State) : (modDkh g s).polA = s.polA := rfl
@[simp] theorem at_polB (s : State) (t : Nat) : (s.at' t).polB = s.polB := rfl
@[simp] theorem modHall_polB (g : Hall → Hall) (s : State) : (modHall g s).polB = s.polB := rfl
@[simp] theorem modDkh_polB (g : Dikehouse → Dikehouse) (s : State) : (modDkh g s).polB = s.polB := rfl
@[simp] theorem at_polC (s : State) (t : Nat) : (s.at' t).polC = s.polC := rfl
@[simp] theorem modHall_polC (g : Hall → Hall) (s : State) : (modHall g s).polC = s.polC := rfl
@[simp] theorem modDkh_polC (g : Dikehouse → Dikehouse) (s : State) : (modDkh g s).polC = s.polC := rfl
@[simp] theorem at_polD (s : State) (t : Nat) : (s.at' t).polD = s.polD := rfl
@[simp] theorem modHall_polD (g : Hall → Hall) (s : State) : (modHall g s).polD = s.polD := rfl
@[simp] theorem modDkh_polD (g : Dikehouse → Dikehouse) (s : State) : (modDkh g s).polD = s.polD := rfl
@[simp] theorem at_hall (s : State) (t : Nat) : (s.at' t).hall = s.hall := rfl
@[simp] theorem modHall_hall (g : Hall → Hall) (s : State) : (modHall g s).hall = g s.hall := rfl
@[simp] theorem modDkh_hall (g : Dikehouse → Dikehouse) (s : State) : (modDkh g s).hall = s.hall := rfl
@[simp] theorem at_dkh (s : State) (t : Nat) : (s.at' t).dkh = s.dkh := rfl
@[simp] theorem modHall_dkh (g : Hall → Hall) (s : State) : (modHall g s).dkh = s.dkh := rfl
@[simp] theorem modDkh_dkh (g : Dikehouse → Dikehouse) (s : State) : (modDkh g s).dkh = g s.dkh := rfl
@[simp] theorem at_free (s : State) (t : Nat) : (s.at' t).free = s.free := rfl
@[simp] theorem modHall_free (g : Hall → Hall) (s : State) : (modHall g s).free = s.free := rfl
@[simp] theorem modDkh_free (g : Dikehouse → Dikehouse) (s : State) : (modDkh g s).free = s.free := rfl
@[simp] theorem at_pending (s : State) (t : Nat) : (s.at' t).pending = s.pending := rfl
@[simp] theorem modHall_pending (g : Hall → Hall) (s : State) : (modHall g s).pending = s.pending := rfl
@[simp] theorem modDkh_pending (g : Dikehouse → Dikehouse) (s : State) : (modDkh g s).pending = s.pending := rfl
@[simp] theorem setPol_part (s : State) (i : PolderId) (p : Polder) : (s.setPol i p).part = s.part := by cases i <;> rfl
@[simp] theorem modPol_part (s : State) (i : PolderId) (g : Polder → Polder) : (s.modPol i g).part = s.part := setPol_part s i _
@[simp] theorem setPol_now (s : State) (i : PolderId) (p : Polder) : (s.setPol i p).now = s.now := by cases i <;> rfl
@[simp] theorem modPol_now (s : State) (i : PolderId) (g : Polder → Polder) : (s.modPol i g).now = s.now := setPol_now s i _
@[simp] theorem setPol_rails (s : State) (i : PolderId) (p : Polder) : (s.setPol i p).rails = s.rails := by cases i <;> rfl
@[simp] theorem modPol_rails (s : State) (i : PolderId) (g : Polder → Polder) : (s.modPol i g).rails = s.rails := setPol_rails s i _
@[simp] theorem setPol_hall (s : State) (i : PolderId) (p : Polder) : (s.setPol i p).hall = s.hall := by cases i <;> rfl
@[simp] theorem modPol_hall (s : State) (i : PolderId) (g : Polder → Polder) : (s.modPol i g).hall = s.hall := setPol_hall s i _
@[simp] theorem setPol_dkh (s : State) (i : PolderId) (p : Polder) : (s.setPol i p).dkh = s.dkh := by cases i <;> rfl
@[simp] theorem modPol_dkh (s : State) (i : PolderId) (g : Polder → Polder) : (s.modPol i g).dkh = s.dkh := setPol_dkh s i _
@[simp] theorem setPol_free (s : State) (i : PolderId) (p : Polder) : (s.setPol i p).free = s.free := by cases i <;> rfl
@[simp] theorem modPol_free (s : State) (i : PolderId) (g : Polder → Polder) : (s.modPol i g).free = s.free := setPol_free s i _
@[simp] theorem setPol_pending (s : State) (i : PolderId) (p : Polder) : (s.setPol i p).pending = s.pending := by cases i <;> rfl
@[simp] theorem modPol_pending (s : State) (i : PolderId) (g : Polder → Polder) : (s.modPol i g).pending = s.pending := setPol_pending s i _
@[simp] theorem setPol_pol (s : State) (i : PolderId) (p : Polder) : (s.setPol i p).pol i = p := by cases i <;> rfl
theorem setPol_pol_ne (s : State) (p : Polder) {i j : PolderId} (h : j ≠ i) : (s.setPol i p).pol j = s.pol j := by
  cases i <;> cases j <;> first | rfl | exact absurd rfl h
@[simp] theorem modPol_pol (s : State) (i : PolderId) (g : Polder → Polder) : (s.modPol i g).pol i = g (s.pol i) := setPol_pol s i _
theorem modPol_pol_ne (s : State) (g : Polder → Polder) {i j : PolderId} (h : j ≠ i) : (s.modPol i g).pol j = s.pol j :=
  setPol_pol_ne s _ h
@[simp] theorem at_pol (s : State) (t : Nat) (i : PolderId) : (s.at' t).pol i = s.pol i := by cases i <;> rfl
@[simp] theorem modHall_pol (g : Hall → Hall) (s : State) (i : PolderId) : (modHall g s).pol i = s.pol i := by cases i <;> rfl
@[simp] theorem modDkh_pol (g : Dikehouse → Dikehouse) (s : State) (i : PolderId) : (modDkh g s).pol i = s.pol i := by cases i <;> rfl

end Sys2Proof.Machine
end

