-- ==== Sys2Proof/Laws/Collect.lean ====
section
/-! SUPPORT. What the Hall's sending can change: packets, queues of packets, counters, kept notifications and the device log; never a polder, the
time, the rails, the open sessions or the tokens. `collect` besides empties the outboxes. -/
namespace Sys2Proof.Machine
open Sys2Proof

/-- `y` differs from `s` only in what the Hall sends and keeps for its sessions, and in the Dikehouse's log and registers. -/
structure Talks (s y : State) : Prop where
  part : y.part = s.part
  now : y.now = s.now
  rails : y.rails = s.rails
  pol : ∀ i, y.pol i = s.pol i
  free : y.free = s.free
  pending : y.pending = s.pending
  tokens : y.hall.tokens = s.hall.tokens
  idx : y.hall.sessions.map (·.idx) = s.hall.sessions.map (·.idx)
  up : y.hall.up = s.hall.up
  dkhOut : y.dkh.out = s.dkh.out

theorem Talks.refl (s : State) : Talks s s := ⟨rfl, rfl, rfl, fun _ => rfl, rfl, rfl, rfl, rfl, rfl, rfl⟩

theorem Talks.trans {s y z : State} (h : Talks s y) (g : Talks y z) : Talks s z :=
  ⟨g.part.trans h.part, g.now.trans h.now, g.rails.trans h.rails, fun i => (g.pol i).trans (h.pol i), g.free.trans h.free,
    g.pending.trans h.pending, g.tokens.trans h.tokens, g.idx.trans h.idx, g.up.trans h.up, g.dkhOut.trans h.dkhOut⟩

theorem Talks.foldl {α : Type} (f : State → α → State) (hf : ∀ s a, Talks s (f s a)) (l : List α) (s : State) : Talks s (l.foldl f s) := by
  induction l generalizing s with
  | nil => exact Talks.refl s
  | cons a l ih => exact (hf s a).trans (ih (f s a))

/-- A change of the Hall that leaves sessions' indices, tokens and the reset alone. -/
theorem talks_modHall (g : Hall → Hall) (s : State) (ht : (g s.hall).tokens = s.hall.tokens)
    (hi : (g s.hall).sessions.map (·.idx) = s.hall.sessions.map (·.idx)) (hu : (g s.hall).up = s.hall.up) : Talks s (modHall g s) :=
  ⟨rfl, rfl, rfl, fun i => modHall_pol g s i, rfl, rfl, ht, hi, hu, rfl⟩

theorem talks_modDkh (g : Dikehouse → Dikehouse) (s : State) (h : (g s.dkh).out = s.dkh.out) : Talks s (modDkh g s) :=
  ⟨rfl, rfl, rfl, fun i => modDkh_pol g s i, rfl, rfl, rfl, rfl, rfl, h⟩

theorem devTouch_out (now sect : Nat) (f : DevRecord → DevRecord) (d : Dikehouse) : (devTouch now sect f d).out = d.out := by
  unfold devTouch
  split <;> rfl

theorem devLog_out (now source code sev : Nat) (data : List Byte) (d : Dikehouse) : (devLog now source code sev data d).out = d.out := by
  unfold devLog
  rw [devTouch_out]
  rfl

theorem talks_hallNote (now : Nat) (f : Fld) (x : Option Nat) (s : State) : Talks s (hallNote now f x s) := by
  unfold hallNote
  exact (talks_modHall _ s rfl rfl rfl).trans (talks_modDkh _ _ (devLog_out _ _ _ _ _ _))

theorem talks_hallCount (o : Nat) (s : State) : Talks s (hallCount o s) := talks_modHall _ s rfl rfl rfl

theorem talks_spiPush (now : Nat) (note : Bool) (b : List Byte) (s : State) : Talks s (spiPush now note b s) := by
  unfold spiPush
  split
  · exact talks_modHall _ s rfl rfl rfl
  · dsimp only
    have hl : ∀ x, Talks x (hallNote now F.HAL_EVT_SPI_OVF none (hallCount A.HAL_SPIDROP x)) := fun x =>
      (talks_hallCount _ x).trans (talks_hallNote _ _ _ _)
    split
    · exact Talks.trans (talks_modHall _ s rfl rfl rfl) (hl _)
    · split
      · exact ((hl s).trans (talks_hallCount _ _)).trans (talks_hallNote _ _ _ _)
      · exact hl s

theorem talks_sendTo (now : Nat) (src : Source) (note : Bool) (b : List Byte) (s : State) : Talks s (sendTo now src note b s) := by
  unfold sendTo
  split
  · exact talks_spiPush _ _ _ _
  · exact talks_modHall _ s rfl rfl rfl

theorem talks_modSess (i : Nat) (f : Session → Session) (hf : ∀ x, (f x).idx = x.idx) (s : State) : Talks s (modSess i f s) := by
  apply talks_modHall _ s rfl _ rfl
  simp only [List.map_map]
  apply List.map_congr_left
  intro x _
  simp only [Function.comp]
  split
  · exact hf x
  · rfl

theorem talks_sendReply (now : Nat) (src : Source) (a : Answer) (s : State) : Talks s (sendReply now src a s) := by
  unfold sendReply
  split
  · exact Talks.refl s
  · rename_i x _
    dsimp only
    split
    · refine Talks.trans ?_ (Talks.foldl _ (fun y r => talks_sendTo _ _ _ _ y) _ _)
      refine Talks.trans (talks_sendTo now src false (replyPacket x src a) s) ?_
      exact talks_modSess _ _ (by intro _; rfl) _
    · exact talks_sendTo _ _ _ _ s

theorem talks_notify (now i t st k f : Nat) (b : List Byte) (s : State) : Talks s (notify now i t st k f b s) := by
  unfold notify
  split
  · exact Talks.refl s
  · split
    · exact Talks.refl s
    · dsimp only
      split
      · exact talks_modSess _ _ (by intro _; rfl) s
      · exact (talks_modSess _ _ (by intro _; rfl) s).trans (talks_sendTo _ _ _ _ _)

theorem talks_notifySubs (now c t k : Nat) (b : List Byte) (s : State) : Talks s (notifySubs now c t k b s) := by
  unfold notifySubs
  apply Talks.foldl
  intro y x
  generalize (if t = 0 ∨ t = 15 then 0 else t) = bit
  split
  · exact talks_notify _ _ _ _ _ _ _ y
  · exact Talks.refl y

theorem talks_notifyDone (now : Nat) (a : Answer) (s : State) : Talks s (notifyDone now a s) := by
  unfold notifyDone
  dsimp only
  split
  · exact (talks_notify _ _ _ _ _ _ _ s).trans (talks_modSess _ _ (by intro x; split <;> rfl) _)
  · exact (talks_notify _ _ _ _ _ _ _ s).trans (talks_modSess _ _ (by intro x; split <;> rfl) _)

theorem talks_takeOut (now : Nat) (o : Out) (s : State) : Talks s (takeOut now o s) := by
  unfold takeOut
  split
  · exact Talks.refl s
  · split
    · exact talks_modHall _ s rfl rfl rfl
    · exact talks_modHall _ s rfl rfl rfl
    · exact talks_notify _ _ _ _ _ _ _ s
    · exact talks_notifySubs _ _ _ _ _ s
    · exact talks_modHall _ s rfl rfl rfl

/-! ### `collect` -/

/-- A polder with nothing left to hand over. -/
def handed (p : Polder) : Polder := { p with out := [] }

@[simp] theorem handed_out (p : Polder) : (handed p).out = [] := rfl
@[simp] theorem handed_regs (p : Polder) : (handed p).regs = p.regs := rfl
@[simp] theorem handed_handed (p : Polder) : handed (handed p) = handed p := rfl

/-- What `collect` does: the outboxes empty, and beyond them only the Hall's sending. -/
structure Collects (s y : State) : Prop where
  part : y.part = s.part
  now : y.now = s.now
  rails : y.rails = s.rails
  pol : ∀ i, y.pol i = handed (s.pol i)
  free : y.free = s.free
  pending : y.pending = s.pending
  tokens : y.hall.tokens = s.hall.tokens
  idx : y.hall.sessions.map (·.idx) = s.hall.sessions.map (·.idx)
  up : y.hall.up = s.hall.up
  dkhOut : y.dkh.out = []

theorem talks_takeOuts (now : Nat) (l : List Out) (s : State) : Talks s (l.foldl (fun y o => takeOut now o y) s) :=
  Talks.foldl _ (fun y o => talks_takeOut now o y) l s

theorem takePolder_talks (now : Nat) (s : State) (i : PolderId) : Talks (s.modPol i handed) (takePolder now s i) := by
  refine Talks.trans ?_ (talks_takeOuts now _ _)
  unfold fifoCount
  split
  · exact Talks.refl _
  · exact talks_modHall _ _ rfl rfl rfl

theorem takePolder_pol (now : Nat) (s : State) (i j : PolderId) :
    (takePolder now s i).pol j = if j = i then handed (s.pol j) else s.pol j := by
  rw [(takePolder_talks now s i).pol]
  by_cases h : j = i
  · subst h
    simp
  · simp [h, modPol_pol_ne s handed h]

theorem collects (now : Nat) (s : State) : Collects s (collect now s) := by
  have hd : Talks (modDkh (fun d => { d with out := [], fifoLost := d.fifoLost + (if s.hall.up then 0 else s.dkh.out.length) }) s) (takeDkh now s) := talks_takeOuts now _ _
  have hA := takePolder_talks now (takeDkh now s) .A
  have hB := takePolder_talks now (takePolder now (takeDkh now s) .A) .B
  have hC := takePolder_talks now (takePolder now (takePolder now (takeDkh now s) .A) .B) .C
  have hD := takePolder_talks now (takePolder now (takePolder now (takePolder now (takeDkh now s) .A) .B) .C) .D
  have e : collect now s = takePolder now (takePolder now (takePolder now (takePolder now (takeDkh now s) .A) .B) .C) .D := rfl
  rw [e]
  constructor
  · rw [hD.part, modPol_part, hC.part, modPol_part, hB.part, modPol_part, hA.part, modPol_part, hd.part]; rfl
  · rw [hD.now, modPol_now, hC.now, modPol_now, hB.now, modPol_now, hA.now, modPol_now, hd.now]; rfl
  · rw [hD.rails, modPol_rails, hC.rails, modPol_rails, hB.rails, modPol_rails, hA.rails, modPol_rails, hd.rails]; rfl
  · intro i
    simp only [takePolder_pol, hd.pol, modDkh_pol]
    cases i <;> simp
  · rw [hD.free, modPol_free, hC.free, modPol_free, hB.free, modPol_free, hA.free, modPol_free, hd.free]; rfl
  · rw [hD.pending, modPol_pending, hC.pending, modPol_pending, hB.pending, modPol_pending, hA.pending, modPol_pending, hd.pending]; rfl
  · rw [hD.tokens, modPol_hall, hC.tokens, modPol_hall, hB.tokens, modPol_hall, hA.tokens, modPol_hall, hd.tokens]; rfl
  · rw [hD.idx, modPol_hall, hC.idx, modPol_hall, hB.idx, modPol_hall, hA.idx, modPol_hall, hd.idx]; rfl
  · rw [hD.up, modPol_hall, hC.up, modPol_hall, hB.up, modPol_hall, hA.up, modPol_hall, hd.up]; rfl
  · rw [hD.dkhOut, modPol_dkh, hC.dkhOut, modPol_dkh, hB.dkhOut, modPol_dkh, hA.dkhOut, modPol_dkh, hd.dkhOut]; rfl

end Sys2Proof.Machine
end

