-- ==== Sys2Proof/Laws/Fields.lean ====
section
/-! SUPPORT. Fields of registers: a read after a write of a field, and the fields that a write of another one leaves alone. -/
namespace Sys2Proof.Machine
open Sys2Proof

theorem bitsOf_testBit (w : Word) (hi lo i : Nat) : (bitsOf w hi lo).testBit i = (decide (i < hi + 1 - lo) && w.getLsbD (lo + i)) := by
  unfold bitsOf
  rw [Nat.testBit_mod_two_pow, Nat.testBit_div_two_pow, BitVec.getLsbD, Nat.add_comm lo i]

theorem maskBits_getLsbD (hi lo j : Nat) : (maskBits hi lo).getLsbD j = (decide (j < 32) && decide (lo ≤ j) && decide (j < hi + 1)) := by
  unfold maskBits
  rw [BitVec.getLsbD_shiftLeft, BitVec.getLsbD_ofNat, Nat.testBit_two_pow_sub_one]
  by_cases h1 : j < 32 <;> by_cases h2 : lo ≤ j <;> by_cases h3 : j < hi + 1 <;> simp [h1, h2, h3] <;> omega

theorem withBits_getLsbD (w : Word) (hi lo v j : Nat) :
    (withBits w hi lo v).getLsbD j = (decide (j < 32) && (if lo ≤ j ∧ j ≤ hi then v.testBit (j - lo) else w.getLsbD j)) := by
  unfold withBits
  rw [BitVec.getLsbD_or, BitVec.getLsbD_and, BitVec.getLsbD_and, BitVec.getLsbD_not, maskBits_getLsbD, BitVec.getLsbD_shiftLeft,
    BitVec.getLsbD_ofNat]
  by_cases h1 : j < 32
  · have h4 : j - lo < 32 := by omega
    by_cases h2 : lo ≤ j <;> by_cases h3 : j ≤ hi <;> simp [h1, h2, h3, h4, Nat.lt_succ_iff] <;> omega
  · simp [h1, BitVec.getLsbD_of_ge w j (by omega)]

/-- A field reads back what was written, cut to its width. -/
theorem bitsOf_withBits_self (w : Word) (hi lo v : Nat) (h : hi < 32) : bitsOf (withBits w hi lo v) hi lo = v % 2 ^ (hi + 1 - lo) := by
  apply Nat.eq_of_testBit_eq
  intro i
  rw [bitsOf_testBit, withBits_getLsbD, Nat.testBit_mod_two_pow]
  by_cases hi' : i < hi + 1 - lo
  · have h1 : lo + i < 32 := by omega
    have h2 : lo + i ≤ hi := by omega
    simp [hi', h1, h2]
  · simp [hi']

/-- A write of one field leaves a field above or below it alone. -/
theorem bitsOf_withBits_ne (w : Word) {hi lo hi' lo' : Nat} (v : Nat) (h : hi' < lo ∨ hi < lo') :
    bitsOf (withBits w hi lo v) hi' lo' = bitsOf w hi' lo' := by
  apply Nat.eq_of_testBit_eq
  intro i
  rw [bitsOf_testBit, withBits_getLsbD, bitsOf_testBit]
  by_cases hi' : i < hi' + 1 - lo'
  · have h1 : ¬(lo ≤ lo' + i ∧ lo' + i ≤ hi) := by omega
    by_cases h2 : lo' + i < 32
    · simp [hi', h1, h2]
    · simp [hi', h2, BitVec.getLsbD_of_ge w (lo' + i) (by omega)]
  · simp [hi']

theorem fget_wr_ne (p : Polder) (f : Fld) (w : Word) {o : Nat} (h : f.off ≠ o) : fget (wr p o w) f = fget p f := by
  unfold fget
  rw [rd_wr_ne p w h]

theorem fget_wr_self (p : Polder) (f : Fld) (w : Word) : fget (wr p f.off w) f = bitsOf w f.hi f.lo := by
  unfold fget
  rw [rd_wr_self]

/-- A field reads back what was written, cut to its width. -/
theorem fget_fput_self (p : Polder) (f : Fld) (v : Nat) (h : f.hi < 32) : fget (fput p f v) f = v % 2 ^ (f.hi + 1 - f.lo) := by
  unfold fput
  rw [fget_wr_self, bitsOf_withBits_self _ _ _ _ h]

/-- A write of a field leaves the fields of other registers alone. -/
theorem fget_fput_off (p : Polder) {f g : Fld} (v : Nat) (h : g.off ≠ f.off) : fget (fput p f v) g = fget p g :=
  fget_wr_ne p g _ h

/-- A write of a field leaves the other fields of its register alone. -/
theorem fget_fput_bits (p : Polder) {f g : Fld} (v : Nat) (h : g.hi < f.lo ∨ f.hi < g.lo) : fget (fput p f v) g = fget p g := by
  unfold fput
  by_cases ho : g.off = f.off
  · unfold fget
    rw [ho, rd_wr_self, bitsOf_withBits_ne _ _ h]
  · exact fget_wr_ne p g _ ho

theorem rd_fput_ne (p : Polder) (f : Fld) (v : Nat) {o : Nat} (h : o ≠ f.off) : rd (fput p f v) o = rd p o := rd_wr_ne p _ h

theorem fput_regs_wf (p : Polder) (f : Fld) (v : Nat) (h : Cells.wf polReset p.regs = true) : Cells.wf polReset (fput p f v).regs = true :=
  wr_regs_wf p _ _ h

end Sys2Proof.Machine
end

