-- ==== Sys2Proof/Laws/Frames.lean ====
section
/-! SUPPORT. The frames in which commands and events run: what each answers, and what an event inside one polder leaves alone. -/
namespace Sys2Proof.Machine
open Sys2Proof

/-! ### What the frames answer -/

theorem onDevice_eq (t : Nat) (s : State) (f : Nat → State → State) : onDevice t s f = .next (s.leaves t (f (s.clock t) (s.at' t))) := rfl

theorem onPart_eq (t : Nat) (i : PolderId) (s : State) (f : Nat → State → State) (h : Part.has s.part i = true) :
    onPart t i s f = .next (s.leaves t (f (s.clock t) (s.at' t))) := by
  unfold onPart
  rw [if_pos h]
  rfl

theorem onPart_absent (t : Nat) (i : PolderId) (s : State) (f : Nat → State → State) (h : Part.has s.part i = false) :
    onPart t i s f = .fault (.absentPolder i) := by
  unfold onPart
  simp [h]

theorem leaves_modPol (s : State) (t : Nat) (i : PolderId) (g : Polder → Polder) :
    s.leaves t ((s.at' t).modPol i fun p => polish (s.clock t) (g p)) = s.after t i (g (s.pol i)) := by
  unfold State.leaves State.after State.modPol
  simp

theorem onAwake_eq (t : Nat) (i : PolderId) (s : State) (f : Nat → Polder → Polder) (hp : Part.has s.part i = true)
    (ha : awake (s.pol i) = true) : onAwake t i s f = .next (s.after t i (f (s.clock t) (s.pol i))) := by
  unfold onAwake
  rw [onPart_eq _ _ _ _ hp]
  simp only [at_pol, ha, if_true]
  rw [leaves_modPol]

theorem onAwake_not (t : Nat) (i : PolderId) (s : State) (f : Nat → Polder → Polder) (hp : Part.has s.part i = true)
    (ha : awake (s.pol i) = false) : onAwake t i s f = .next (s.waited t) := by
  unfold onAwake
  rw [onPart_eq _ _ _ _ hp]
  simp only [at_pol, ha]
  rfl

theorem onRunning_eq (t : Nat) (i : PolderId) (s : State) (f : Nat → Polder → Polder) (h : s.runs i) :
    onRunning t i s f = .next (s.after t i (f (s.clock t) (s.pol i))) := by
  obtain ⟨hp, ha, hr⟩ := h
  unfold onRunning
  rw [onPart_eq _ _ _ _ hp]
  simp only [at_pol, ha, hr, Bool.not_false, Bool.and_self, if_true]
  rw [leaves_modPol]

theorem onIndex_eq (k n t : Nat) (i : PolderId) (s : State) (f : Nat → Polder → Polder) (hk : k < n) (h : s.runs i) :
    onIndex k n t i s f = .next (s.after t i (f (s.clock t) (s.pol i))) := by
  unfold onIndex
  rw [if_pos hk, onRunning_eq _ _ _ _ h]

theorem onMonitor_eq (t : Nat) (i : PolderId) (need : Nat) (s : State) (f : Nat → State → Polder → Polder) (hp : Part.has s.part i = true)
    (ha : awake (s.pol i) = true) :
    onMonitor t i need s f = .next (s.after t i (monLine (s.clock t) need (f (s.clock t) s) (s.pol i))) := by
  unfold onMonitor
  rw [onAwake_eq _ _ _ _ hp ha]

theorem carried_eq (op : Nat) (c : Cmd) (p : Polder) (f : Polder → Polder) (k : Card) (hk : cardOf op = some k)
    (hl : k.len.ok c.payload = true) (hr : rescue p = true → k.rescue = true) (hg : k.regimes.contains (regime p) = true) :
    carried' op c p f = f p := by
  unfold carried'
  rw [hk]
  have hm : regime p ∈ k.regimes := by simpa using hg
  by_cases h : rescue p = true
  · simp [hl, hr h, hm, h]
  · simp [hl, hm, h]

theorem unavail_at (s : State) (t : Nat) (i : PolderId) : unavail (s.at' t) i = unavail s i := by
  unfold unavail
  simp

theorem onCommand_eq (t : Nat) (i : PolderId) (c : Cmd) (op : Nat) (s : State) (f : Nat → Polder → Polder) (h : s.takes i op c) :
    onCommand t i c op s f = .next (s.after t i (f (s.clock t) (s.pol i))) := by
  obtain ⟨hu, hs, k, hk, hl, hr, hg⟩ := h
  unfold onCommand atPolder
  rw [onDevice_eq]
  simp only [unavail_at, hu, at_pol, hs, if_true]
  rw [leaves_modPol, carried_eq op c _ _ k hk hl hr hg]

/-! ### An event inside one polder -/

/-- `y` differs from `s` in polder `i`, in the Dikehouse, and in what the Hall sends and keeps; of the other polders at most the outboxes have been
emptied. -/
structure Local (i : PolderId) (s y : State) : Prop where
  part : y.part = s.part
  now : y.now = s.now
  pending : y.pending = s.pending
  pol : ∀ j, j ≠ i → handed (y.pol j) = handed (s.pol j)
  tokens : y.hall.tokens = s.hall.tokens
  idx : y.hall.sessions.map (·.idx) = s.hall.sessions.map (·.idx)

theorem Local.refl (i : PolderId) (s : State) : Local i s s := ⟨rfl, rfl, rfl, fun _ _ => rfl, rfl, rfl⟩

theorem Local.trans {i : PolderId} {s y z : State} (h : Local i s y) (g : Local i y z) : Local i s z :=
  ⟨g.part.trans h.part, g.now.trans h.now, g.pending.trans h.pending, fun j hj => (g.pol j hj).trans (h.pol j hj),
    g.tokens.trans h.tokens, g.idx.trans h.idx⟩

theorem Talks.local' {s y : State} (i : PolderId) (h : Talks s y) : Local i s y :=
  ⟨h.part, h.now, h.pending, fun j _ => by rw [h.pol j], h.tokens, h.idx⟩

theorem local_collect (i : PolderId) (now : Nat) (s : State) : Local i s (collect now s) :=
  ⟨(collects now s).part, (collects now s).now, (collects now s).pending, fun j _ => by rw [(collects now s).pol j]; rfl,
    (collects now s).tokens, (collects now s).idx⟩

theorem local_modPol (i : PolderId) (g : Polder → Polder) (s : State) : Local i s (s.modPol i g) :=
  ⟨modPol_part s i g, modPol_now s i g, modPol_pending s i g, fun _ hj => by rw [modPol_pol_ne s g hj], by rw [modPol_hall], by rw [modPol_hall]⟩

theorem local_setPol (i : PolderId) (p : Polder) (s : State) : Local i s (s.setPol i p) := local_modPol i (fun _ => p) s

theorem local_modDkh (i : PolderId) (g : Dikehouse → Dikehouse) (s : State) : Local i s (modDkh g s) :=
  ⟨rfl, rfl, rfl, fun j _ => by rw [modDkh_pol], rfl, rfl⟩

theorem Local.foldl {i : PolderId} {α : Type} (f : State → α → State) (hf : ∀ s a, Local i s (f s a)) (l : List α) (s : State) :
    Local i s (l.foldl f s) := by
  induction l generalizing s with
  | nil => exact Local.refl i s
  | cons a l ih => exact (hf s a).trans (ih (f s a))

theorem local_ite {i : PolderId} {s y z : State} (b : Prop) [Decidable b] (h : Local i s y) (g : Local i s z) :
    Local i s (if b then y else z) := by
  split <;> assumption

end Sys2Proof.Machine
end

