-- ==== Sys2Proof/Laws/Isolation.lean ====
section
/-! SUPPORT. An event inside one polder leaves the other polders alone: the frames in which commands and events run, and the operations over the
whole device that a polder's resets, restarts, sleeps and supervision go through. -/
namespace Sys2Proof.Machine
open Sys2Proof

/-- `y` comes of an event inside polder `i` in `s`: every other polder holds what it held, its outbox apart, and the part, the queue of commands, the
sessions and the tokens are as they were. -/
structure Apart (i : PolderId) (s y : State) : Prop where
  part : y.part = s.part
  now : s.now ≤ y.now
  pending : y.pending = s.pending
  pol : ∀ j, j ≠ i → y.pol j = handed (s.pol j)
  tokens : y.hall.tokens = s.hall.tokens
  idx : y.hall.sessions.map (·.idx) = s.hall.sessions.map (·.idx)

/-- Wherever `r` is a next state, it comes of an event inside polder `i` in `s`. -/
def Iso (i : PolderId) (s : State) (r : Result) : Prop := ∀ y, r = .next y → Apart i s y

theorem iso_onDevice {i : PolderId} (t : Nat) (s : State) (f : Nat → State → State) (hf : ∀ n y, Local i y (f n y)) :
    Iso i s (onDevice t s f) := by
  intro y hy
  unfold onDevice at hy
  injection hy with hy
  have h := hf (max s.now t) (s.at' t)
  have g := collects (max s.now t) (f (max s.now t) (s.at' t))
  subst hy
  refine ⟨g.part.trans h.part, ?_, g.pending.trans h.pending, fun j hj => ?_, g.tokens.trans h.tokens, g.idx.trans h.idx⟩
  · rw [g.now, h.now]
    exact Nat.le_max_left _ _
  · rw [g.pol, h.pol j hj, at_pol]

theorem iso_onPart {i : PolderId} (t : Nat) (p : PolderId) (s : State) (f : Nat → State → State) (hf : ∀ n y, Local i y (f n y)) :
    Iso i s (onPart t p s f) := by
  unfold onPart
  split
  · exact iso_onDevice t s f hf
  · intro y hy; cases hy

theorem iso_idle {i : PolderId} (t : Nat) (s : State) : Iso i s (idle t s) := iso_onDevice t s _ (fun _ y => Local.refl i y)

theorem iso_onAwake (t : Nat) (i : PolderId) (s : State) (f) : Iso i s (onAwake t i s f) :=
  iso_onPart t i s _ (fun _ y => local_ite _ (local_modPol i _ y) (Local.refl i y))

theorem iso_onRunning (t : Nat) (i : PolderId) (s : State) (f) : Iso i s (onRunning t i s f) :=
  iso_onPart t i s _ (fun _ y => local_ite _ (local_modPol i _ y) (Local.refl i y))

theorem iso_onClocked (t : Nat) (i : PolderId) (s : State) (f) : Iso i s (onClocked t i s f) :=
  iso_onPart t i s _ (fun _ y => local_ite _ (local_modPol i _ y) (Local.refl i y))

theorem iso_onIndex (k n t : Nat) (i : PolderId) (s : State) (f) : Iso i s (onIndex k n t i s f) := by
  unfold onIndex; split
  · exact iso_onRunning t i s f
  · exact iso_idle t s

theorem iso_ifHall {i : PolderId} (t : Nat) (s : State) (r : Result) (h : Iso i s r) : Iso i s (ifHall t s r) := by
  unfold ifHall; split
  · exact h
  · exact iso_idle t s

theorem iso_ite {i : PolderId} {s : State} {b : Prop} [Decidable b] {r r' : Result} (h : Iso i s r) (g : Iso i s r') : Iso i s (if b then r else r') := by
  split <;> assumption

theorem talks_hallSays (now tgt op : Nat) (c : Cmd) (r : Reply) (s : State) : Talks s (hallSays now tgt op c r s) := by
  unfold hallSays
  split
  · exact talks_sendReply _ _ _ _
  · exact Talks.refl s

theorem iso_atPolder (t : Nat) (i : PolderId) (c : Cmd) (op : Nat) (s : State) (f : Nat → State → State) (hf : ∀ n y, Local i y (f n y)) :
    Iso i s (atPolder t i c op s f) := by
  unfold atPolder
  apply iso_onDevice
  intro n y
  split
  · exact (talks_hallSays _ _ _ _ _ _).local' i
  · exact local_ite _ (hf n y) (Local.refl i y)

theorem iso_onCommand (t : Nat) (i : PolderId) (c : Cmd) (op : Nat) (s : State) (f) : Iso i s (onCommand t i c op s f) :=
  iso_atPolder t i c op s _ (fun n y => local_modPol i _ y)

theorem iso_onMonitor (t : Nat) (i : PolderId) (need : Nat) (s : State) (f) : Iso i s (onMonitor t i need s f) := iso_onAwake t i s _

theorem iso_onWrite (t : Nat) (p : PolderId) (m : Master) (off : Nat) (v : Word) (s : State) : Iso (masterHome m p) s (onWrite t p m off v s) := by
  unfold onWrite
  split
  · exact iso_onMonitor _ _ _ _ _
  · cases m <;> first | (exfalso; simp_all; done) | exact iso_onPart t p s _ (fun _ y => local_ite _ (local_modPol p _ y) (Local.refl p y))

theorem iso_onRead (t : Nat) (p : PolderId) (m : Master) (off : Nat) (s : State) : Iso (masterHome m p) s (onRead t p m off s) := by
  unfold onRead
  split
  · exact iso_onMonitor _ _ _ _ _
  · cases m <;> first | (exfalso; simp_all; done) | exact iso_onPart t p s _ (fun _ y => local_ite _ (local_modPol p _ y) (Local.refl p y))

theorem talks_endFlight (now st dt : Nat) (s : State) (f : InFlight) : Talks s (endFlight now st dt s f) := by
  unfold endFlight
  dsimp only
  split
  · exact (talks_notifyDone _ _ s).trans (talks_modHall _ _ rfl rfl rfl)
  · exact (talks_sendReply _ _ _ s).trans (talks_modHall _ _ rfl rfl rfl)

theorem talks_hallDrop (now : Nat) (i : PolderId) (d : Nat) (s : State) : Talks s (hallDrop now i d s) := by
  unfold hallDrop
  dsimp only
  refine Talks.trans ?_ (Talks.foldl _ (fun y f => talks_endFlight _ _ _ y f) _ _)
  refine Talks.trans ?_ (Talks.foldl _ (fun y x => talks_sendReply _ _ _ y) _ _)
  exact talks_modHall _ s rfl rfl rfl

theorem local_resetPol (now : Nat) (i : PolderId) (c : Nat) (b : Bool) (s : State) : Local i s (resetPol now i c b s) :=
  (local_modPol i _ s).trans ((talks_hallDrop _ _ _ _).local' i)

theorem local_owes (i : PolderId) (r : CmdRef) (s : State) : Local i s (owes i r s) := local_modPol i _ s

theorem local_seLostOne (now : Nat) (i : PolderId) (s : State) (f : InFlight) : Local i s (seLostOne now i s f) := by
  unfold seLostOne
  dsimp only
  repeat' split
  · exact (talks_endFlight _ _ _ _ _).local' i
  · exact (talks_modHall _ s rfl rfl rfl).local' i
  · exact ((talks_modHall _ s rfl rfl rfl).local' i).trans (local_owes i _ _)
  · exact Local.refl i s
  · exact ((talks_endFlight _ _ _ _ _).local' i).trans (local_owes i _ _)

theorem local_seLost (now : Nat) (i : PolderId) (s : State) : Local i s (seLost now i s) :=
  Local.foldl _ (fun y f => local_seLostOne now i y f) _ _

theorem local_seFails (now : Nat) (i : PolderId) (f) (s : State) : Local i s (seFails now i f s) :=
  ((local_modPol i _ s).trans (local_collect i _ _)).trans (local_seLost _ _ _)

theorem local_flightsRead (i k : PolderId) (s : State) : Local i s (flightsRead k s) := (talks_modHall _ s rfl rfl rfl).local' i

theorem local_seTakes (now : Nat) (i : PolderId) (f) (s : State) : Local i s (seTakes now i f s) := (local_modPol i _ s).trans (local_flightsRead i i _)

theorem local_modDpol (i k : PolderId) (g) (s : State) : Local i s (modDpol k g s) := local_modDkh i _ s

theorem local_setHbLost (i k : PolderId) (b : Bool) (s : State) : Local i s (setHbLost k b s) := local_modDkh i _ s

theorem local_superviseFrom (i k : PolderId) (now : Nat) (s : State) : Local i s (superviseFrom now k s) := local_modDpol i k _ s

theorem local_dkhNote (i : PolderId) (now : Nat) (f : Fld) (r p : Nat) (s : State) : Local i s (dkhNote now f r p s) :=
  (local_modDkh i _ s).trans (local_modDkh i _ _)

theorem local_dkhNotify (i : PolderId) (now : Nat) (s : State) : Local i s (dkhNotify now s) := local_modDkh i _ s

theorem local_powerOff (now : Nat) (i : PolderId) (s : State) : Local i s (powerOff now i s) :=
  ((local_resetPol _ _ _ _ s).trans (local_modDpol i _ _ _)).trans (local_setHbLost i _ _ _)

theorem local_powerRestart (now : Nat) (i : PolderId) (sup : Bool) (c : Nat) (s : State) : Local i s (powerRestart now i sup c s) := by
  unfold powerRestart
  dsimp only
  split
  · exact local_modDpol i _ _ _
  refine Local.trans ?_ (local_dkhNote i _ _ _ _ _)
  split
  · exact ((local_resetPol _ _ _ _ s).trans (local_modDpol i _ _ _)).trans (local_modDkh i _ _)
  · exact ((local_resetPol _ _ _ _ s).trans (local_modDpol i _ _ _))

theorem local_proceed (now : Nat) (i : PolderId) (a : Nat) (sup : Bool) (c : Nat) (s : State) : Local i s (proceed now i a sup c s) := by
  unfold proceed; split
  · exact local_powerOff _ _ _
  · exact local_powerRestart _ _ _ _ _

theorem local_withGuard (now : Nat) (i : PolderId) (a : Nat) (sup : Bool) (c : Nat) (s : State) : Local i s (withGuard now i a sup c s) := by
  unfold withGuard; split
  · exact (local_modPol i _ s).trans (local_modDpol i _ _ _)
  · exact local_proceed _ _ _ _ _ _

theorem local_guardTimeout (now : Nat) (i : PolderId) (s : State) : Local i s (guardTimeout now i s) := by
  unfold guardTimeout; split
  · split
    · exact (local_modPol i _ s).trans (local_modDpol i _ _ _)
    · exact Local.refl i s
  · exact Local.refl i s

theorem local_delayEnd (now : Nat) (i : PolderId) (s : State) : Local i s (delayEnd now i s) := by
  have h1 : ∀ g, Local i s (modDpol i g s) := fun g => local_modDpol i i g s
  have h2 : Local i s (powerRestart now i true Cause.restart s) := local_powerRestart _ _ _ _ _
  have h3 : ∀ a b c, Local i s (proceed now i a b c s) := fun a b c => local_proceed _ _ _ _ _ _
  unfold delayEnd
  generalize dpol s i = d
  obtain ⟨g, ra, re, hv, ha, lo, wa, rs, cl⟩ := d
  dsimp only
  repeat' split
  all_goals first | exact h1 _ | exact h2 | exact h3 _ _ _ | exact Local.refl i s

theorem local_heartbeatRead (now : Nat) (i : PolderId) (s : State) : Local i s (heartbeatRead i now s) := by
  unfold heartbeatRead; split
  · exact Local.refl i s
  · dsimp only; split
    · exact Local.refl i s
    · exact (local_modDpol i _ _ _).trans (local_setHbLost i _ _ _)

theorem local_heartbeatLost (now : Nat) (i : PolderId) (b : Bool) (s : State) : Local i s (heartbeatLost now i b s) := by
  have h1 : ∀ y : State, Local i s y → Local i s (dkhNote now F.DKH_EVT_HBLOST 0 i.num y) := fun y h => h.trans (local_dkhNote i _ _ _ _ y)
  have h2 : Local i s (if b then modDkh (kevt now F.DKH_EVT_BOOTFAIL) (setHbLost i true (modDpol i (fun d => { d with lost := true }) s))
      else setHbLost i true (modDpol i (fun d => { d with lost := true }) s)) := by
    split
    · exact ((local_modDpol i i _ s).trans (local_setHbLost i _ _ _)).trans (local_modDkh i _ _)
    · exact (local_modDpol i i _ s).trans (local_setHbLost i _ _ _)
  have h3 := h1 _ h2
  unfold heartbeatLost
  dsimp only
  generalize dkhNote now F.DKH_EVT_HBLOST 0 i.num _ = y at h3 ⊢
  split
  · exact h3.trans (local_dkhNotify i _ _)
  · split
    · exact h3.trans ((local_modDpol i _ _ _).trans (local_dkhNote i _ _ _ _ _))
    · exact h3.trans (local_modDpol i _ _ _)

theorem local_hblost (now : Nat) (i : PolderId) (s : State) : Local i s (hblost now i s) := by
  unfold hblost; split
  · exact local_heartbeatLost _ _ _ _
  · exact Local.refl i s

theorem local_bootfail (now : Nat) (i : PolderId) (s : State) : Local i s (bootfail now i s) := by
  unfold bootfail; split
  · split
    · exact local_heartbeatLost _ _ _ _
    · exact (local_modDpol i _ _ _).trans (local_dkhNote i _ _ _ _ _)
  · exact Local.refl i s

theorem local_brownOut (now : Nat) (i : PolderId) (v : Bool) (s : State) : Local i s (brownOut now i v s) := by
  have h1 : ∀ g, Local i s (setHbLost i false (s.modPol i g)) := fun g => (local_modPol i g s).trans (local_setHbLost i _ _ _)
  unfold brownOut; dsimp only
  repeat' split
  all_goals first | exact h1 _ | exact (h1 _).trans (local_modPol i _ _) | exact (h1 _).trans (local_resetPol _ _ _ _ _)

theorem local_extestHeld (now : Nat) (i : PolderId) (s : State) : Local i s (extestHeld now i s) := by
  unfold extestHeld; dsimp only
  split
  · exact local_modPol i _ s
  · exact (local_modPol i _ s).trans (local_resetPol _ _ _ _ _)

theorem local_rails (i : PolderId) (r) (s : State) : Local i s { s with rails := r } :=
  ⟨rfl, rfl, rfl, fun j _ => by cases j <;> rfl, rfl, rfl⟩

theorem local_resetRelease (now : Nat) (i : PolderId) (s : State) : Local i s (resetRelease now i s) := by
  unfold resetRelease; dsimp only
  split
  · exact (((local_rails i _ s).trans (local_modPol i _ _)).trans (local_modPol i _ _)).trans (local_modDpol i _ _ _)
  · exact Local.refl i s

theorem local_bootDoneAt (now : Nat) (i : PolderId) (s : State) : Local i s (bootDoneAt now i s) := by
  unfold bootDoneAt; split
  · exact (local_modPol i _ s).trans (local_superviseFrom i _ _ _)
  · exact Local.refl i s

theorem local_wakeDoneAt (now : Nat) (i : PolderId) (s : State) : Local i s (wakeDoneAt now i s) := by
  unfold wakeDoneAt; split
  · exact (local_modPol i _ s).trans (local_superviseFrom i _ _ _)
  · exact Local.refl i s

theorem local_wakeUp (now : Nat) (i : PolderId) (s : State) : Local i s (wakeUp now i s) := by
  unfold wakeUp
  split
  · exact local_modPol i _ s
  · split
    · exact Local.refl i s
    · exact (local_modPol i _ s).trans (local_modDpol i _ _ _)
  · exact Local.refl i s

theorem local_sleep (now : Nat) (i : PolderId) (s : State) : Local i s (toSleep now i s) := by
  unfold toSleep
  exact (((local_modPol i _ s).trans (local_collect i _ _)).trans ((talks_hallDrop _ _ _ _).local' i)).trans (local_setHbLost i _ _ _)

theorem local_carryOut (now : Nat) (i : PolderId) (a : Nat) (po : Option Nat) (s : State) : Local i s (carryOut now i a po s) := by
  have h1 : ∀ g, Local i s (modDpol i g s) := fun g => local_modDpol i i g s
  have h4 := local_sleep now i s
  have h5 : ∀ a b c, Local i s (withGuard now i a b c s) := fun a b c => local_withGuard _ _ _ _ _ _
  have h6 := local_wakeUp now i s
  have h7 : ∀ f r p, Local i s (dkhNote now f r p s) := fun f r p => local_dkhNote i _ _ _ _ _
  unfold carryOut
  dsimp only
  repeat' split
  all_goals first | exact h1 _ | exact h4 | exact h5 _ _ _ | exact h6 | exact h7 _ _ _ | exact Local.refl i s

theorem local_trialTimeout (now : Nat) (i : PolderId) (s : State) : Local i s (trialTimeout now i s) := by
  unfold trialTimeout
  split
  · split
    · dsimp only
      split
      · exact ((local_modPol i _ s).trans (local_carryOut _ _ _ _ _)).trans (local_modDpol i _ _ _)
      · exact (local_modPol i _ s).trans (local_withGuard _ _ _ _ _ _)
    · exact Local.refl i s
  · exact Local.refl i s

theorem local_svSend (now : Nat) (i : PolderId) (s : State) : Local i s (svSend now i s) := by
  unfold svSend
  split
  · exact Local.refl i s
  · split
    · exact (local_modPol i _ s).trans ((talks_modHall _ _ rfl rfl rfl).local' i)
    · exact Local.refl i s

theorem local_svLost (now : Nat) (i : PolderId) (s : State) : Local i s (svLost now i s) := by
  unfold svLost
  split
  · exact Local.refl i s
  · split
    · exact ((local_modPol i _ s).trans ((talks_hallCount _ _).local' i)).trans ((talks_hallNote _ _ _ _).local' i)
    · exact Local.refl i s

theorem local_eccError (now : Nat) (i : PolderId) (r : EccRegion) (s : State) : Local i s (eccError now i r s) := by
  unfold eccError
  split
  · exact local_seFails _ _ _ _
  · exact (local_modPol i (engEvent now 3 3 0) s).trans (local_resetPol _ _ _ _ _)
  · exact local_modPol i _ s

theorem local_restartPol (now : Nat) (i : PolderId) (c : Nat) (s : State) : Local i s (restartPol now i c s) := local_resetPol _ _ _ _ _

theorem local_stuckAt (now : Nat) (i : PolderId) (s : State) : Local i s (stuckAt now i s) := by
  unfold stuckAt
  split
  · split
    · exact Local.refl i s
    · unfold withdraw
      first
        | exact Local.trans ((talks_modHall _ _ rfl rfl rfl).local' i) ((talks_sendReply _ _ _ _).local' i)
        | exact Local.trans ((talks_sendReply _ _ _ _).local' i) ((talks_modHall _ _ rfl rfl rfl).local' i)
  · exact Local.refl i s

end Sys2Proof.Machine
end

