-- ==== Sys2Proof/Machine/Pins.lean ====
section
/-!
DEFINITION. The digital output pins as the state drives them, and what they are in reset (R501, R504, R505).
-/
namespace Sys2Proof.Machine
open Sys2Proof

/-- The outputs of R501, of a polder and of the Hall. -/
inductive Pin where
  | qspiSck | qspiCsN | qspiIo | monTx | tripO | fire | pps | dbgTdo
  | spiMiso | spiIrqN
  deriving DecidableEq, Repr

/-- What a pin does: `asInput` for a bidirectional pin that only listens, `released` for an open drain, `traffic` while it carries a transfer whose bits
the state does not hold. -/
inductive Drive where
  | low | high | highZ | highZPulledUp | highPulledUp | released | asInput | traffic
  deriving DecidableEq, Repr

def level (b : Bool) : Drive := if b then .high else .low

/-- The column "In reset" of R501. -/
def resetDrive : Pin → Drive
  | .qspiSck => .low
  | .qspiCsN => .highPulledUp
  | .qspiIo => .highZPulledUp
  | .monTx => .highZPulledUp
  | .tripO => .highZ
  | .fire => .released
  | .pps => .asInput
  | .dbgTdo => .highZ
  | .spiMiso => .highZ
  | .spiIrqN => .high

/-- Reset in the sense of R501: off, or held in reset, or booting (the model has no instant t4 between, notes/assumptions/50.md). -/
def pinsInReset (p : Polder) : Bool := p.power == .off || p.power == .booting

/-- A pin of a polder out of reset; in SLEEP the pins keep their states, which the state keeps. -/
def runDrive (p : Polder) : Pin → Drive
  | .tripO => level (!p.dike.tripoLow)
  | .fire => if p.cap.driving then .low else .released
  | .pps => if fbit p F.TIM_PPSCFG_DIR then level (ppsLevel p) else .asInput
  | .qspiSck | .qspiCsN | .qspiIo | .monTx | .dbgTdo | .spiMiso | .spiIrqN => .traffic

/-- A pin of a polder or of the Hall. -/
def pinDrive (s : State) (i : PolderId) (x : Pin) : Drive := match x with
  | .spiMiso => if s.hall.up then .traffic else resetDrive .spiMiso
  | .spiIrqN => if s.hall.up then level (spiIrqN s.hall) else resetDrive .spiIrqN
  | _ => if pinsInReset (s.pol i) then resetDrive x else runDrive (s.pol i) x

/-- The IDCODE of a polder's debug port: `PCT_ID.PART` in bits 27:12 (R504). -/
def idcode (part : Part) (i : PolderId) : Word :=
  withBits (Config.idcodeRest i) 27 12 (match part with
    | .fgc4400 => 0x4400
    | .fgc4200 => 0x4200)

end Sys2Proof.Machine
end

