-- ==== Sys2Proof/WellFormed.lean ====
section
/-!
DEFINITION. Well-formed commands: what a sender of the spec can send, and what an event of the spec can carry. A command that is not
well-formed has no counterpart on the hardware.
-/
namespace Sys2Proof

/-- A command as a session sends it (R400, R404, R406): one of eight sessions, a 16-bit `SEQ`, a version of R404, at most 1,024 bytes. -/
def Cmd.wf (c : Cmd) : Bool :=
  decide (c.sess < 8) && decide (c.seq < 65536) && (c.ver == 0x10 || c.ver == 0x20 || c.ver == 0x21) && decide (c.payload.length ≤ 1024)

/-- An Ethernet source: port, IPv4 address, UDP port (R395). -/
def Source.wf : Source → Bool
  | .spi => true
  | .eth port ip udp => decide (port < 2) && decide (ip < 0x100000000) && decide (udp < 65536)

/-- A HELLO (R406): its payload has 24 bytes. -/
def HelloArgs.wf (h : HelloArgs) : Bool :=
  h.src.wf && decide (h.ver < 256) && decide (h.seq < 65536) && decide (h.payload.length = 24)

/-- One value per stream (R237), phases as fractions of 2^32. -/
def SwingIn.wf (x : SwingIn) : Bool :=
  decide (x.vals.length = 15) && decide (x.u1arg < 0x100000000) && decide (x.u2arg < 0x100000000) && decide (x.v1arg < 0x100000000) &&
    decide (x.i1arg < 0x100000000)
def FastIn.wf (x : FastIn) : Bool := decide (x.ovr < 8)
def SlotIn.wf (x : SlotIn) : Bool := decide (x.ovr < 4)
def PathIn.wf (x : PathIn) : Bool := decide (x.vals.length = 15)

def LaneIn.wf (x : LaneIn) : Bool := decide (x.inputs < 16 ∧ x.rb < 4)
def TrainIn.wf (x : TrainIn) : Bool := decide (x.caps < 256) && decide (x.state < 256) && decide (x.check < 256)
def SyncIn.wf (x : SyncIn) : Bool := decide (x.port < 2) && decide (x.domain < 256) && decide (x.gm < 0x10000000000000000)
def AnnounceIn.wf (x : AnnounceIn) : Bool := decide (x.port < 2) && decide (x.domain < 256)

/-- Words of the memories of R43, streams of R237. -/
def EccRegion.wf : EccRegion → Bool
  | .table off => decide (0x200000 ≤ off ∧ off < 0x20C000 ∧ off % 4 = 0)
  | .gallery off => decide (0x300000 ≤ off ∧ off < 0x320000 ∧ off % 4 = 0)
  | .capture off => decide (0x380000 ≤ off ∧ off < 0x3B0000 ∧ off % 4 = 0)
  | .filter k => decide (k < 15)
  | .ceCode | .ceData | .seCode | .seData | .spb | .mailbox | .hallPackets | .watchCore => true

/-- Operands that a sender or an event of the spec can have. -/
def Instr.wf : Instr → Bool
  | .hello _ h => h.wf
  | .bye _ c => c.wf
  | .tokenTake _ c => c.wf
  | .tokenRelease _ c => c.wf
  | .subscribe _ c => c.wf
  | .getNotifications _ c => c.wf
  | .setNetwork _ c => c.wf
  | .setSv _ c => c.wf
  | .setKey _ c => c.wf
  | .getHall _ c => c.wf
  | .readWords _ _ c => c.wf
  | .writeWords _ _ c => c.wf
  | .setBases _ _ c => c.wf
  | .setInertia _ _ c => c.wf
  | .setDroops _ _ c => c.wf
  | .setVoltageLaw _ _ c => c.wf
  | .setLimits _ _ c => c.wf
  | .setAnchor _ _ c => c.wf
  | .setPoints _ _ c => c.wf
  | .getSwing _ _ c => c.wf
  | .requestRegime _ _ c => c.wf
  | .breaker _ _ c => c.wf
  | .setStartSync _ _ c => c.wf
  | .setRide _ _ c => c.wf
  | .setEnvelope _ _ c => c.wf
  | .getRegime _ _ c => c.wf
  | .setEmbankment _ _ c => c.wf
  | .setBand _ _ c => c.wf
  | .setPrediction _ _ c => c.wf
  | .setNpBalance _ _ c => c.wf
  | .getEmbankment _ _ c => c.wf
  | .setModulator _ _ c => c.wf
  | .setBootstrap _ _ c => c.wf
  | .setPulseShape _ _ c => c.wf
  | .setCarrier _ _ c => c.wf
  | .getModulator _ _ c => c.wf
  | .setLearner _ _ c => c.wf
  | .learnerStore _ _ c => c.wf
  | .getLearner _ _ c => c.wf
  | .setGallery _ _ c => c.wf
  | .galleryControl _ _ c => c.wf
  | .readGallery _ _ c => c.wf
  | .setAcquisition _ _ c => c.wf
  | .setComparator _ _ c => c.wf
  | .runInputTest _ _ c => c.wf
  | .getAcquisition _ _ c => c.wf
  | .setFilters _ _ c => c.wf
  | .getMetering _ _ c => c.wf
  | .setCapture _ _ c => c.wf
  | .captureControl _ _ c => c.wf
  | .readCapture _ _ c => c.wf
  | .sluiceOpen _ _ c => c.wf
  | .sluiceStage _ _ c => c.wf
  | .sluiceCommit _ _ c => c.wf
  | .sluiceAbort _ _ c => c.wf
  | .getSluice _ _ c => c.wf
  | .setStair _ _ c => c.wf
  | .getStairs _ _ c => c.wf
  | .setDike _ _ c => c.wf
  | .setL1 _ _ c => c.wf
  | .clearTrips _ _ c => c.wf
  | .trip _ _ c => c.wf
  | .getDike _ _ c => c.wf
  | .setGateLink _ _ c => c.wf
  | .gateLinkControl _ _ c => c.wf
  | .runSelfTest _ _ c => c.wf
  | .getGateLinks _ _ c => c.wf
  | .setFieldInputs _ _ c => c.wf
  | .setFieldOutputs _ _ c => c.wf
  | .setOutputs _ _ c => c.wf
  | .getFieldIo _ _ c => c.wf
  | .getFieldEvents _ _ c => c.wf
  | .clearFieldDiag _ _ c => c.wf
  | .setSafety _ _ c => c.wf
  | .confirmSafety _ _ c => c.wf
  | .safetyAck _ _ c => c.wf
  | .getSafety _ _ c => c.wf
  | .setSafetyPassword _ _ c => c.wf
  | .readSafetyLog _ _ c => c.wf
  | .setClock _ _ c => c.wf
  | .getClock _ _ c => c.wf
  | .setTimeSources _ _ c => c.wf
  | .getTime _ _ c => c.wf
  | .setPps _ _ c => c.wf
  | .setTime _ _ c => c.wf
  | .getNv _ _ c => c.wf
  | .fwSlot _ _ c => c.wf
  | .fwActivate _ _ c => c.wf
  | .fwConfirm _ _ c => c.wf
  | .getFirmware _ _ c => c.wf
  | .setPerformance _ _ c => c.wf
  | .sleep _ _ c => c.wf
  | .polderPower _ c => c.wf
  | .setWatch _ c => c.wf
  | .setRule _ c => c.wf
  | .setSupervision _ c => c.wf
  | .getDikehouse _ c => c.wf
  | .readLog _ _ c => c.wf
  | .setLog _ _ c => c.wf
  | .getEngines _ _ c => c.wf
  | .setMonitor _ _ c => c.wf
  | .monitorHelp _ _ => true
  | .monitorId _ _ => true
  | .monitorStat _ _ => true
  | .unlock _ _ => true
  | .unlockResponse _ _ _ => true
  | .lock _ _ => true
  | .quit _ _ => true
  | .rd _ _ addr _ => decide (addr < 0x100000000)
  | .monitorLog _ _ _ _ => true
  | .dumpGal _ _ _ _ => true
  | .dumpCap _ _ _ _ => true
  | .eng _ _ => true
  | .wr _ _ addr _ => decide (addr < 0x100000000)
  | .monitorTrip _ _ _ => true
  | .monitorClear _ _ _ => true
  | .monitorDo _ _ _ _ => true
  | .monitorRestart _ _ => true
  | .monitorRateSet _ _ _ => true
  | .monitorSessionTimeout _ _ => true
  | .monitorLockoutEnd _ _ => true
  | .directRegisterWrite _ _ addr _ => decide (addr < 0x100000000)
  | .measurementGroupLatch _ _ _ => true
  | .meterLatch _ _ _ => true
  | .timeLatch _ _ _ => true
  | .mailboxPush _ _ _ _ q _ => decide (q < 6)
  | .mailboxPop _ _ _ q => decide (q < 6)
  | .lockAcquire _ _ _ k => decide (k < 16)
  | .lockRelease _ _ _ k => decide (k < 16)
  | .qpop _ _ _ _ => true
  | .galleryArm _ _ _ => true
  | .galleryForce _ _ _ => true
  | .galleryStop _ _ _ => true
  | .captureArm _ _ _ => true
  | .captureForce _ _ _ => true
  | .captureStop _ _ _ => true
  | .learnerSave _ _ _ => true
  | .learnerRestore _ _ _ => true
  | .learnerClear _ _ _ => true
  | .learnerErase _ _ _ => true
  | .learnerTableWrite _ _ _ off _ => decide (off < 0x1000000)
  | .cntclrEmb _ _ _ => true
  | .swtrip _ _ _ => true
  | .dikClr _ _ _ mask => decide (mask < 16384)
  | .bufferedWrite _ _ _ off _ => decide (off < 0x1000000)
  | .outputOrder _ _ _ => true
  | .applyGo _ => true
  | .applyDiscard _ => true
  | .cntclr _ => true
  | .dkhSave _ => true
  | .wakeclr _ => true
  | .dkhreqTrip _ _ => true
  | .dkhreqStop _ _ mode => decide (mode < 2)
  | .swingUpdate _ _ x => x.wf
  | .dwellEnd _ _ k => decide (k < 4)
  | .anchorBlock _ _ => true
  | .anchorUnblock _ _ => true
  | .coefficientSetComplete _ _ n => decide (n < 2 ^ 32)
  | .sweepEnd _ _ => true
  | .learnerAutosave _ _ => true
  | .regimeEvaluation _ _ => true
  | .prechargeTimeout _ _ => true
  | .energiseTimeout _ _ => true
  | .energiseComplete _ _ => true
  | .syncTimeout _ _ => true
  | .closeCommand _ _ => true
  | .breakerCloseDelay _ _ => true
  | .brkTimeout _ _ => true
  | .backoffWaitEnd _ _ => true
  | .collision _ _ => true
  | .deadBusChange _ _ => true
  | .rideIn _ _ => true
  | .rideOut _ _ => true
  | .stopTmo _ _ => true
  | .fastSample _ _ x => x.wf
  | .embankmentDecision _ _ leg => decide (leg < 3)
  | .levelChange _ _ leg => decide (leg < 4)
  | .deadTimeEnd _ _ leg => decide (leg < 4)
  | .timerMove _ _ leg => decide (leg < 4)
  | .periodBoundary _ _ => true
  | .centreReload _ _ => true
  | .refreshPulse _ _ leg => decide (leg < 4)
  | .refreshPulseStep _ _ leg => decide (leg < 4)
  | .referenceStarvation _ _ leg => decide (leg < 4)
  | .safeStateStep2 _ _ => true
  | .sequencingEnd _ _ => true
  | .downlinkFrame _ _ n => decide (n < 4)
  | .uplinkFrame _ _ n _ _ => decide (n < 4)
  | .l2WindowEnd _ _ => true
  | .linkLost _ _ n => decide (n < 4)
  | .trainingFrame _ _ n x => decide (n < 4) && x.wf
  | .trainingFailure _ _ n => decide (n < 4)
  | .trainingRetry _ _ n => decide (n < 4)
  | .gateUnitResponse _ _ n code _ => decide (n < 4) && decide (code < 256)
  | .messageTimeout _ _ n => decide (n < 4)
  | .tripiChange _ _ _ => true
  | .thermalTrip _ _ => true
  | .comparatorSelfTestLevel _ _ _ => true
  | .slotSample _ _ x => x.wf
  | .frameRestart _ _ => true
  | .comparatorActed _ _ x => decide (x.k < 6)
  | .blankingEnd _ _ k => decide (k < 6)
  | .settlingEnd _ _ => true
  | .inputTestLevel _ _ k _ => decide (k < 15)
  | .pathMOutput _ _ x => x.wf
  | .meteringCycleComplete _ _ _ => true
  | .sampledValueInstant _ _ k => decide (k < 4800)
  | .svFrameSend _ _ => true
  | .svlost _ _ => true
  | .captureTimeTrigger _ _ => true
  | .fireEdge _ _ _ => true
  | .firePulseEnd _ _ => true
  | .armEdge _ _ => true
  | .sluiceCheck _ _ n => decide (n < 8)
  | .sluiceTimedCommit _ _ n => decide (n < 8)
  | .sluiceIdleTimeout _ _ n => decide (n < 8)
  | .fieldInputChange _ _ k => decide (k < 8)
  | .readbackFault _ _ x => decide (x.k < 4)
  | .ilim _ _ k => decide (k < 4)
  | .therm _ _ k => decide (k < 4)
  | .thermalRestart _ _ k => decide (k < 4)
  | .testPulseStart _ _ k => decide (k < 4)
  | .testPulseEnd _ _ k _ => decide (k < 4)
  | .lpLoss _ _ => true
  | .lpReturn _ _ => true
  | .laneMessage _ _ x => x.wf
  | .laneDisagreement _ _ => true
  | .laneStopped _ _ => true
  | .parameterCheck _ _ => true
  | .safetyInputFiltered _ _ k => decide (k < 4)
  | .disc _ _ pair => decide (pair < 2)
  | .stometFrame _ _ port ip _ => decide (port < 2) && decide (ip < 0x100000000)
  | .comparisonWindowEnd _ _ => true
  | .wdog _ _ => true
  | .networkDown _ _ port => decide (port < 2)
  | .networkResume _ _ port => decide (port < 2)
  | .stometTransmit _ _ => true
  | .enablePathTestStart _ _ => true
  | .enablePathTestStep _ _ _ _ => true
  | .testAgeHour _ _ => true
  | .passwordLockoutEnd _ _ => true
  | .refclkMissing _ _ => true
  | .unlockPll _ _ => true
  | .refok _ _ _ => true
  | .pllLock _ _ _ _ _ => true
  | .bandSearchRetry _ _ => true
  | .calibrationComplete _ _ => true
  | .hallTimeStrobe _ _ _ => true
  | .hallLost _ _ => true
  | .syncMessage _ _ x => x.wf
  | .announceMessage _ _ x => x.wf
  | .domainLost _ _ n => decide (n < 2)
  | .revert _ _ => true
  | .holdoverExpiry _ _ => true
  | .peerDelayMeasurement _ _ port _ => decide (port < 2)
  | .pdelayReq _ port _ => decide (port < 2)
  | .ppsOutput _ _ => true
  | .ppsPulseEnd _ _ => true
  | .ppsIn _ _ => true
  | .commandPacket _ src _ _ => src.wf
  | .arpRequest _ port _ target senderIp senderMac => decide (port < 2) && decide (target < 0x100000000) && decide (senderIp < 0x100000000) && decide (senderMac < 0x1000000000000)
  | .icmpEcho _ port _ srcIp _ => decide (port < 2) && decide (srcIp < 0x100000000)
  | .ethLinkChange _ port _ => decide (port < 2)
  | .supervisionFrame _ => true
  | .spiStatus _ => true
  | .spiWrite _ _ _ => true
  | .spiRead _ _ => true
  | .commandDelivery _ _ => true
  | .targetReply _ _ => true
  | .replyTimeout _ _ => true
  | .deliveryTimeout _ _ => true
  | .mailboxStuck _ _ q => decide (q < 6)
  | .sessionTimeout _ idx => decide (idx < 8)
  | .tokenLapse _ k => decide (k < 5)
  | .ceWatchdog _ _ => true
  | .seWatchdog _ _ => true
  | .eccDoubleError _ _ x => x.region.wf
  | .engineRestartComplete _ _ _ => true
  | .engineHalt _ _ _ => true
  | .engineRelease _ _ _ => true
  | .vaonRise _ => true
  | .railLoss _ _ => true
  | .brownOut _ _ _ => true
  | .polderResetRelease _ _ => true
  | .bootComplete _ _ => true
  | .bootfail _ _ => true
  | .fwTrialTimeout _ _ => true
  | .flashEraseComplete _ _ => true
  | .wakeComplete _ _ => true
  | .watchSample _ k code => decide (k < 8) && decide (code < 4096)
  | .ruleEvaluation _ => true
  | .heartbeatRead _ _ => true
  | .hblost _ _ => true
  | .guardTimeout _ _ => true
  | .actionDelayEnd _ _ => true
  | .nvWrite _ _ => true
  | .nvWriteComplete _ _ _ => true
  | .hallResetRelease _ => true
  | .correctionSlew _ _ => true
  | .timerMidpointReload _ _ leg => decide (leg < 4)
  | .extest _ _ => true
  | .comparatorInside _ _ x => decide (x.k < 6)
  | .rawInputChange _ _ k _ => decide (k < 8)

end Sys2Proof
end

