-- ==== Sys2Proof/Tests/Slice0.lean ====
section
/-!
SUPPORT. Tests: an ill-formed command for each check of `Instr.wf`, a few commands and events on fixed values with results taken from the spec's tables, and for each
statement that has hypotheses a named witness that meets them.
-/
namespace Sys2Proof.Tests
open Sys2Proof Sys2Proof.Machine

-- One proof after another: each waits in the kernel for the one before it.
set_option Elab.async false

/-! ### Small states -/

/-- Polder A awake with fields set. -/
def pol (l : List (Fld × Nat)) : Polder :=
  { l.foldl (fun q e => fput q e.1 e.2) (resetPolder .A) with power := .awake }

/-- Polder A awake in a regime, its engines running, with further fields set. -/
def atRegime (r : Nat) (l : List (Fld × Nat)) : Polder := pol ((F.PCT_REGIME_CUR, r) :: (F.PCT_ENG_CE_STATE, 0) :: (F.PCT_ENG_SE_STATE, 0) :: l)

/-- A device whose polder A stands as `p`, its Dikehouse up. -/
def dev (p : Polder) : State := { State.reset with
  polA := p, rails := ⟨true, true, true, false⟩, dkh := { State.reset.dkh with up := true } }

/-- A command of session 0. -/
def cmd (b : List Byte) : Cmd := ⟨0, 1, 0x21, b⟩

/-- Polder A takes the command of opcode `op` and payload `b`, and `f` holds. -/
def okB (p : Polder) (op : Nat) (b : List Byte) (f : List Byte → Polder → Bool) : Bool :=
  unavail (dev p) .A == none && seState p == Eng.run && (match cardOf op with
    | some k => k.len.ok b && (!rescue p || k.rescue) && k.regimes.contains (regime p)
    | none => false) && f b p

theorem ok_of {p : Polder} {op : Nat} {b : List Byte} {f : List Byte → Polder → Bool} (h : okB p op b f = true) :
    (dev p).takes .A op (cmd b) ∧ f b p = true := by
  unfold okB at h
  simp only [Bool.and_eq_true, beq_iff_eq] at h
  obtain ⟨⟨⟨h1, h2⟩, h3⟩, h4⟩ := h
  refine ⟨⟨h1, h2, ?_⟩, h4⟩
  split at h3
  · rename_i k hk
    simp only [Bool.and_eq_true, Bool.or_eq_true, Bool.not_eq_true'] at h3
    refine ⟨k, hk, h3.1.1, fun hr => ?_, h3.2⟩
    rcases h3.1.2 with h | h
    · have hr' : rescue p = true := hr
      rw [hr'] at h; cases h
    · exact h
  · cases h3

/-- Every one of a list of commands is taken by its polder, with what its statement asks of payload and polder. -/
abbrev Taken (l : List (Polder × Nat × List Byte × (List Byte → Polder → Bool))) : Prop :=
  ∀ x ∈ l, (dev x.1).takes .A x.2.1 (cmd x.2.2.1) ∧ x.2.2.2 x.2.2.1 x.1 = true

theorem taken_of {l : List (Polder × Nat × List Byte × (List Byte → Polder → Bool))}
    (h : (l.all fun x => okB x.1 x.2.1 x.2.2.1 x.2.2.2) = true) : Taken l :=
  fun x hx => ok_of (List.all_eq_true.mp h x hx)

/-- Every one of a list of instants and polders is a state in which events of polder A happen, with what the statement asks. -/
abbrev Running (l : List (Nat × Polder × (Nat → Polder → Bool))) : Prop :=
  ∀ x ∈ l, Runs (dev x.2.1) x.1 .A x.1 x.2.1 ∧ x.2.2 x.1 x.2.1 = true

theorem running_of {l : List (Nat × Polder × (Nat → Polder → Bool))}
    (h : (l.all fun x => awake x.2.1 && !rescue x.2.1 && x.2.2 x.1 x.2.1) = true) : Running l := by
  intro x hx
  have hx' := List.all_eq_true.mp h x hx
  simp only [Bool.and_eq_true, Bool.not_eq_true'] at hx'
  exact ⟨⟨⟨rfl, hx'.1.1, hx'.1.2⟩, (Nat.zero_max x.1).symm, rfl⟩, hx'.2⟩

/-- A sluice takes the entries `l`, and no other has a commit scheduled. -/
def takesB (p : Polder) (l : List (Nat × Word × Word)) : Bool :=
  (sluFree p).isSome && decide (l.length ≤ 64) && stageStatus p [] (stampFrom p.sts.stamp l) == Status.ok &&
    ((List.range 8).all fun k => decide ((slu p k).st ≠ .scheduled ∧ (slu p k).st ≠ .check)) && crossOk p (withEntries p (stampFrom p.sts.stamp l)) &&
    l.all fun w => decide (w.1 ≠ A.FIO_DOCMD ∨ bitsOf w.2.1 3 0 &&& assigned (rd (withEntries p (stampFrom p.sts.stamp l)) A.PCT_REGCFG) = 0)

theorem takes_of {p : Polder} {l : List (Nat × Word × Word)} (now : Nat) (h : takesB p l = true) : ∃ n, p.sluiceTakes now l n := by
  unfold takesB at h
  simp only [Bool.and_eq_true, decide_eq_true_eq, beq_iff_eq, List.all_eq_true, List.mem_range] at h
  obtain ⟨⟨⟨⟨⟨h1, h2⟩, h3⟩, h4⟩, h5⟩, h6⟩ := h
  obtain ⟨n, hn⟩ := Option.isSome_iff_exists.mp h1
  exact ⟨n, hn, h2, h3, fun k hk hs => absurd hs (by simp [(h4 k hk).1, (h4 k hk).2]), h5, h6⟩

/-- The fields `l` fit their registers and a sluice takes them. -/
def admitsB (p : Polder) (l : List Item) : Bool := l.all Item.fits && takesB p (entriesOf l)

theorem admits_of {p : Polder} {l : List Item} (now : Nat) (h : admitsB p l = true) : ∃ n, p.admits now l n := by
  unfold admitsB at h
  rw [Bool.and_eq_true] at h
  obtain ⟨n, hn⟩ := takes_of now h.2
  exact ⟨n, h.1, hn⟩

/-- The Hall up, with an open session 0 that has no key, and tokens free. -/
def sess0 : Session := ⟨0, 1, 0x21, .spi, 2, 31, 255, [], 0, 0, none, [], 0, 0, 0, 0, []⟩

/-! ### Heard, standing, reached, typed -/

/-- The Hall and the Dikehouse up beside polder A, session 0 open. -/
def up (p : Polder) : State := { dev p with hall := { State.reset.hall with up := true, sessions := [sess0] } }

/-- The same with the Hall changed. -/
def upH (f : Hall → Hall) : State := { up (atRegime 2 []) with hall := f (up (atRegime 2 [])).hall }

/-- The same with the Dikehouse changed. -/
def upK (f : Dikehouse → Dikehouse) : State := { up (atRegime 2 []) with dkh := f (up (atRegime 2 [])).dkh }

/-- The same with the Dikehouse's data of polder A changed. -/
def upD (f : DkhPolder → DkhPolder) (p : Polder) : State := { up p with dkh := { (up p).dkh with pols := vmod (up p).dkh.pols 0 f } }

def lenOk (op : Nat) (b : List Byte) : Bool := match cardOf op with
  | some k => k.len.ok b
  | none => false

theorem lenOk_of {op : Nat} {b : List Byte} (h : lenOk op b = true) : ∃ k, cardOf op = some k ∧ k.len.ok b = true := by
  unfold lenOk at h
  split at h
  · exact ⟨_, by assumption, h⟩
  · cases h

/-- Every one of a list of commands is heard by the Hall from session 0, with what its statement asks. -/
abbrev Heard (l : List (State × Nat × List Byte × (List Byte → State → Bool))) : Prop :=
  ∀ x ∈ l, x.1.hears x.2.1 (cmd x.2.2.1) sess0 ∧ x.2.2.2 x.2.2.1 x.1 = true

theorem heard_of {l : List (State × Nat × List Byte × (List Byte → State → Bool))}
    (h : (l.all fun x => x.1.hall.up && sessOf x.1.hall 0 == some sess0 && lenOk x.2.1 x.2.2.1 && x.2.2.2 x.2.2.1 x.1) = true) : Heard l := by
  intro x hx
  have hx' := List.all_eq_true.mp h x hx
  simp only [Bool.and_eq_true, beq_iff_eq] at hx'
  exact ⟨⟨hx'.1.1.1, hx'.1.1.2, lenOk_of hx'.1.2⟩, hx'.2⟩

/-- Every one of a list of commands is taken by the Dikehouse, with what its statement asks. -/
abbrev Given (l : List (State × Nat × List Byte × (List Byte → State → Bool))) : Prop :=
  ∀ x ∈ l, x.1.dkhTakes x.2.1 (cmd x.2.2.1) ∧ x.2.2.2 x.2.2.1 x.1 = true

theorem given_of {l : List (State × Nat × List Byte × (List Byte → State → Bool))}
    (h : (l.all fun x => x.1.dkh.up && lenOk x.2.1 x.2.2.1 && x.2.2.2 x.2.2.1 x.1) = true) : Given l := by
  intro x hx
  have hx' := List.all_eq_true.mp h x hx
  simp only [Bool.and_eq_true] at hx'
  exact ⟨⟨hx'.1.1, lenOk_of hx'.1.2⟩, hx'.2⟩

/-- Every one of a list of devices and instants is one in which events of polder A happen, with what the statement asks. -/
abbrev Stands (l : List (State × Nat × (State → Nat → Polder → Bool))) : Prop :=
  ∀ x ∈ l, Runs x.1 x.2.1 .A (x.1.clock x.2.1) x.1.polA ∧ x.2.2 x.1 (x.1.clock x.2.1) x.1.polA = true

theorem stands_of {l : List (State × Nat × (State → Nat → Polder → Bool))}
    (h : (l.all fun x => awake x.1.polA && !rescue x.1.polA && x.2.2 x.1 (x.1.clock x.2.1) x.1.polA) = true) : Stands l := by
  intro x hx
  have hx' := List.all_eq_true.mp h x hx
  simp only [Bool.and_eq_true, Bool.not_eq_true'] at hx'
  exact ⟨⟨⟨by cases x.1.part <;> rfl, hx'.1.1, hx'.1.2⟩, rfl, rfl⟩, hx'.2⟩

/-- Every one of a list of devices, instants is as the statement asks; for statements that ask nothing else. -/
abbrev Found (l : List (State × Nat × (State → Nat → Bool))) : Prop := ∀ x ∈ l, x.2.2 x.1 (x.1.clock x.2.1) = true

theorem found_of {l : List (State × Nat × (State → Nat → Bool))} (h : (l.all fun x => x.2.2 x.1 (x.1.clock x.2.1)) = true) : Found l :=
  fun x hx => List.all_eq_true.mp h x hx

def noMon : Master → Bool
  | .mon _ => false
  | _ => true

/-- Every one of a list of masters makes accesses at polder A, with what the statement asks. -/
abbrev Reached (l : List (Master × Polder × (Master → Polder → Bool))) : Prop :=
  ∀ x ∈ l, Accesses (up x.2.1) 0 .A x.1 ((up x.2.1).clock 0) x.2.1 ∧ x.2.2 x.1 x.2.1 = true

theorem reached_of {l : List (Master × Polder × (Master → Polder → Bool))}
    (h : (l.all fun x => awake x.2.1 && live (up x.2.1) x.1 && noMon x.1 && x.2.2 x.1 x.2.1) = true) : Reached l := by
  intro x hx
  have hx' := List.all_eq_true.mp h x hx
  simp only [Bool.and_eq_true] at hx'
  refine ⟨⟨rfl, hx'.1.1.1, hx'.1.1.2, fun j hj => ?_, rfl, rfl⟩, hx'.2⟩
  have := hx'.1.2
  rw [hj] at this
  cases this

/-- Polder A with its monitor session open at a level. -/
def typing (level : Nat) (l : List (Fld × Nat)) : Polder := atRegime 2 ((F.PCT_MONCFG_EN, 1) :: (F.PCT_MONSTAT_ACTIVE, 1) :: (F.PCT_MONSTAT_LEVEL, level) :: l)

/-- Every one of a list of polders has a monitor session that may type, with what the statement asks of the polder. -/
abbrev Typed (l : List (Nat × Polder × (Polder → Bool))) : Prop :=
  ∀ x ∈ l, Types (up x.2.1) 0 .A x.1 ((up x.2.1).clock 0) (modMon (fun m => { m with lastInput := (up x.2.1).clock 0 }) x.2.1) ∧ x.2.2 x.2.1 = true

theorem typed_of {l : List (Nat × Polder × (Polder → Bool))}
    (h : (l.all fun x => monServed x.2.1 && monActive x.2.1 && decide (x.1 ≤ monLevel x.2.1) && x.2.2 x.2.1) = true) : Typed l := by
  intro x hx
  have hx' := List.all_eq_true.mp h x hx
  simp only [Bool.and_eq_true, decide_eq_true_eq] at hx'
  exact ⟨⟨rfl, hx'.1.1.1, hx'.1.1.2, hx'.1.2, rfl, rfl⟩, hx'.2⟩

/-- A stored learner section that fits the polder. -/
def section0 : LrnSave := let p := atRegime 2 []
  ⟨[], 0, 0, rd p A.SWG_SBASE, rd p A.SWG_VBASE, fget p F.SWG_CTRL_FNOM, fget p F.EMB_CTRL_TOPO, 3, 0, 0, 0⟩

/-! ### Well-formed commands: one ill-formed term for each check -/

theorem test_wf_session : Instr.wf (.bye 0 ⟨8, 1, 0x21, []⟩) = false := by decide
theorem test_wf_seq : Instr.wf (.bye 0 ⟨0, 65536, 0x21, []⟩) = false := by decide
theorem test_wf_version : Instr.wf (.bye 0 ⟨0, 1, 0x22, []⟩) = false := by decide
theorem test_wf_length : Cmd.wf ⟨0, 1, 0x21, zeros 1025⟩ = false := by decide +kernel
theorem test_wf_good : Instr.wf (.bye 0 ⟨7, 65535, 0x21, zeros 4⟩) = true := by decide
theorem test_wf_port : Source.wf (.eth 2 1 1) = false := by decide
theorem test_wf_hello : HelloArgs.wf ⟨.spi, 0x21, 1, zeros 23⟩ = false := by decide
theorem test_wf_streams : FastIn.wf ⟨(0, 0, 0), 8⟩ = false := by decide
theorem test_wf_slot : SlotIn.wf ⟨0, 0, 4⟩ = false := by decide
theorem test_wf_region : EccRegion.wf (.table 0x200002) = false := by decide
theorem test_wf_filter : EccRegion.wf (.filter 15) = false := by decide

/-! ### Values taken from the spec -/

/-- The reset table of the swing engine: `SWG_ILIM` is 1.1 pu. -/
theorem test_reset_ilim : polReset A.SWG_ILIM = toQ28 (11 * one60 / 10 + 1) := by decide

/-- R13: conversions round to the nearest code: 0.5 pu, and 1 % of droop. -/
theorem test_q28of : q28of 50000 100000 = 134217728 ∧ q28of 1000 100000 = 2684355 := by decide

/-- CRC-32 of "123456789" (R402 names the polynomial; the check value is the published one). -/
theorem test_crc32 : crc32 (ascii "123456789") = 0xCBF43926#32 := by decide +kernel

/-- A clock, R12: a phase wraps. -/
theorem test_signedPhase : signedPhase 0xFFFFFFFF = -1 ∧ signedPhase 0x80000000 = -2147483648 := by decide

/-- R425 and the example of R437: a word pushed by the CE in epoch 0 carries the tag 0x01. -/
theorem test_tag : mbxQueue (mbxPush 0 3 1 0x55#32 (atRegime 2 [])) 3 = [⟨0x55#32, 0x01#8⟩] := by decide

/-- The example of R437: the CE owns lock 3, the Hall bridge reads 0x8000_0001, and its write shows 0x0000_0033. -/
theorem test_lock_example :
    lockOwner (lockReads 0 [3, 1] 3 (atRegime 2 [])) 3 = 1 ∧ (lockRead 0 3 3 (lockReads 0 [3, 1] 3 (atRegime 2 []))).1 = 0x80000001#32 ∧
      rd (lockWrite 0 3 3 (lockReads 0 [3, 1] 3 (atRegime 2 []))) A.MBX_LOCKBAD = 0x33#32 ∧
      (lockRead 0 1 3 (lockReads 0 [3, 1] 3 (atRegime 2 []))).1 = 0xC0000001#32 := by decide

/-- No row of the table has bits. -/
theorem test_decode : decodeTableWord 32 0x12345678 = none := rfl

/-! ### Witnesses: for each statement that has hypotheses, states and operands that meet them -/

theorem witness_StepKeepsQueuePartAndTime : ∃ y, step { State.reset with pending := [.hallResetRelease 0, .vaonRise 1] } = .next y := ⟨_, rfl⟩

theorem witness_SessionsStaySound : State.reset.sessionsOk ∧ ∃ y, step State.reset = .next y := by
  refine ⟨⟨List.nodup_nil, fun x h => ?_, fun k l h => ?_⟩, _, rfl⟩
  · simp [State.reset] at h
  · have h' : (Vector.replicate 5 (none : Option Lease))[k]?.getD none = some l := h
    rw [Vector.getElem?_replicate] at h'
    split at h' <;> cases h'

theorem witness_OnePolderLeavesTheOthersAlone :
    homeOf (.ceWatchdog 0 .A) = some .A ∧ PolderId.B ≠ .A ∧ ∃ y, exec (.ceWatchdog 0 .A) State.reset = .next y := ⟨rfl, by decide, _, rfl⟩

theorem witness_EveryRowCompletes : (∀ i, Part.has State.reset.part i = true) ∧ Part.has { State.reset with part := .fgc4200 }.part .C = false ∧
    exec (.ceWatchdog 0 .C) { State.reset with part := .fgc4200 } = .fault (.absentPolder .C) := ⟨fun i => by cases i <;> rfl, rfl, rfl⟩

theorem witness_UnavailablePoldersAnswer : polderCommand (.getSwing 0 .B (cmd [])) = some (0, .B, Op.getSwing, cmd []) ∧ unavail State.reset .B = some 2 ∧
    State.hears { State.reset with hall := { State.reset.hall with up := true, sessions := [sess0] } } Op.readWords (cmd (zeros 8)) sess0 :=
  ⟨rfl, rfl, rfl, rfl, _, rfl, by decide⟩

theorem witness_UnavailableStates :
    unavail { dev { pol [] with power := .booting } with part := .fgc4200 } .A = some 3 ∧ unavail (dev { pol [] with power := .asleep }) .A = some 4 ∧
      unavail { dev (pol []) with part := .fgc4200 } .D = some 1 := ⟨rfl, rfl, rfl⟩

theorem witness_RegimesNotListedAreRefused : polderCommand (.setBases 0 .A (cmd (zeros 24))) = some (0, .A, Op.setBases, cmd (zeros 24)) ∧
    unavail (dev (atRegime 7 [])) .A = none ∧ seState (atRegime 7 []) = Eng.run ∧
    ∃ d, cardOf Op.setBases = some d ∧ d.len.ok (zeros 24) = true ∧ d.regimes.contains (regime (atRegime 7 [])) = false :=
  ⟨rfl, rfl, by decide, _, rfl, by decide, by decide⟩

theorem witness_IdleQueueHaltedSeAndLengths : State.reset.pending = [] ∧ seState (pol []) ≠ Eng.run ∧
    (∃ d, cardOf Op.setBases = some d ∧ d.len.ok (zeros 23) = false) ∧
    ∃ d, cardOf Op.setBases = some d ∧ d.len.ok (zeros 24) = true ∧ rescue (pol [(F.PCT_BOOT_RESCUE, 1)]) = true ∧ d.rescue = false :=
  ⟨rfl, by decide, ⟨_, rfl, by decide⟩, _, rfl, by decide, by decide, by decide⟩

/-- The refusals of the swing engine's settings, and a setting of no point. -/
theorem witness_SwingSettingsComplete : Taken [
    (atRegime 2 [], Op.setBases, zeros 8 ++ [51] ++ zeros 15, fun b _ => decide (byteAt b 8 ≠ 50 ∧ byteAt b 8 ≠ 60)),
    (atRegime 2 [], Op.setInertia, leBytes 4 49 ++ zeros 12, fun b _ => decide (u32At b 0 < 50)),
    (atRegime 7 [], Op.setInertia, leBytes 4 20000 ++ leBytes 4 20001 ++ leBytes 4 50000 ++ leBytes 4 50001,
      fun b _ => decide (20000 < u32At b 4 ∧ 50000 < u32At b 12)),
    (atRegime 2 [], Op.setDroops, leBytes 4 10001 ++ leBytes 4 500, fun b _ => decide (10000 < u32At b 0)),
    (atRegime 2 [], Op.setDroops, leBytes 4 500 ++ leBytes 4 499, fun b _ => decide (u32At b 4 < 500)),
    (atRegime 2 [], Op.setLimits, zeros 12 ++ [3, 0, 0, 0], fun b _ => decide (2 < byteAt b 12)),
    (atRegime 2 [], Op.setAnchor, zeros 4 ++ leBytes 2 601 ++ zeros 10, fun b _ => decide (600 < u16At b 4)),
    (atRegime 7 [], Op.setPoints, zeros 20, fun b _ => byteAt b 0 == 0)] := taken_of (by decide +kernel)

/-! ### Commands that commit fields: payloads of the ranges of their cards whose fields the sluice rules take -/

theorem witness_SwingSettingsComplete_commits : Taken [
    (atRegime 2 [], Op.setBases, leBytes 4 2000000 ++ leBytes 4 690000 ++ [60, 0, 0, 0] ++ leBytes 4 4000000 ++ leBytes 4 1000000 ++ leBytes 4 1500000, fun b p =>
      decide (byteAt b 8 = 50 ∨ byteAt b 8 = 60) && admitsB p [whole A.SWG_SBASE (u32At b 0), whole A.SWG_VBASE (u32At b 4), part F.SWG_CTRL_FNOM (if byteAt b 8 = 60
      then 1 else 0), whole A.SWG_SCL_I (iPeak (u32At b 0) (u32At b 4) (u32At b 12)), whole A.SWG_SCL_V (vPeak (u32At b 4) (u32At b 16)), whole A.SWG_SCL_DC (vDc
      (u32At b 4) (u32At b 20))]),
    (atRegime 2 [], Op.setInertia, leBytes 4 50 ++ leBytes 4 0 ++ leBytes 4 1000 ++ leBytes 4 50, fun b p => decide (50 ≤ u32At b 0 ∧ u32At b 0 ≤ 20000) && decide
      (u32At b 4 ≤ 20000) && decide (1000 ≤ u32At b 8 ∧ u32At b 8 ≤ 50000) && decide (50 ≤ u32At b 12 ∧ u32At b 12 ≤ 50000) && admitsB p [whole A.SWG_INERTIA (uq24of
      (u32At b 0) 1000), whole A.SWG_DAMP (uq24of (u32At b 4) 100), whole A.SWG_FEBW (u32At b 8), whole A.SWG_TPQ (u32At b 12)]),
    (atRegime 2 [], Op.setDroops, leBytes 4 500 ++ leBytes 4 20000, fun b p => decide (500 ≤ u32At b 0 ∧ u32At b 0 ≤ 10000) && decide (500 ≤ u32At b 4 ∧ u32At b 4 ≤
      20000) && admitsB p [whole A.SWG_MP (q28of (u32At b 0) 100000), whole A.SWG_NQ (q28of (u32At b 4) 100000)]),
    (atRegime 2 [], Op.setVoltageLaw, leBytes 4 100 ++ leBytes 4 10000 ++ leBytes 4 10000 ++ leBytes 4 4000 ++ leBytes 4 3000 ++ [3, 0, 0, 0], fun b p => decide
      (100 ≤ u32At b 0 ∧ u32At b 0 ≤ 100000) && decide (u32At b 4 ≤ 10000) && decide (u32At b 8 ≤ 10000) && decide (u32At b 12 ≤ 4000) && decide (u32At b 16 ≤ 3000)
      && admitsB p [whole A.SWG_TV (u32At b 0), whole A.SWG_RV (q28of (u32At b 4) 10000), whole A.SWG_XV (q28of (u32At b 8) 10000), whole A.SWG_GV (q28of (u32At b 12)
      1000), whole A.SWG_BC (q28of (u32At b 16) 10000), part F.SWG_CTRL_VIMP_EN (byteAt b 20 % 2), part F.SWG_CTRL_CFF_EN (byteAt b 20 / 2 % 2)]),
    (atRegime 2 [], Op.setLimits, leBytes 4 15000 ++ leBytes 4 6000 ++ leBytes 4 100 ++ [2, 1, 0, 0], fun b p => decide (10000 ≤ u32At b 0 ∧ u32At b 0 ≤ 15000) &&
      decide (u32At b 4 ≤ 6000) && decide (100 ≤ u32At b 8 ∧ u32At b 8 ≤ 3000) && decide (byteAt b 12 ≤ 2) && decide (byteAt b 13 ≤ 1) && admitsB p [whole A.SWG_ILIM
      (q28of (u32At b 0) 10000), whole A.SWG_KNEG (uq24of (u32At b 4) 1000), whole A.SWG_DFMAX (q28of (u32At b 8) 10000), part F.SWG_CTRL_ILIM_MODE (byteAt b 12),
      part F.SWG_CTRL_NSEQ_EN (byteAt b 13)]),
    (atRegime 2 [], Op.setAnchor, [1, 0] ++ leBytes 2 10 ++ leBytes 2 600 ++ leBytes 2 0 ++ leBytes 4 100 ++ leBytes 4 0, fun b p => decide (byteAt b 0 ≤ 1) &&
      decide (10 ≤ u16At b 2 ∧ u16At b 2 ≤ 1000) && decide (1 ≤ u16At b 4 ∧ u16At b 4 ≤ 600) && decide (100 ≤ u32At b 8 ∧ u32At b 8 ≤ 10000) && admitsB p [part
      F.SWG_CTRL_ANCHOR_EN (byteAt b 0), part F.SWG_ANCHOR_CTRL_FADE (u16At b 4), part F.SWG_ANCHOR_CTRL_BW (u16At b 2), whole A.SWG_ANCHOR_LIM (q28of (u32At b 8)
      1000000), whole A.SWG_ANCHOR_OFS (u32At b 12)]),
    (atRegime 7 [], Op.setPoints, [15, 0, 0, 0] ++ leBytes 4 1000000 ++ leBytes 4 0 ++ leBytes 4 690000 ++ leBytes 4 50000, fun b p => decide (byteAt b 0 = 15) &&
      admitsB p [wholeI A.SWG_PREF (roundDiv (i32At b 4 * 268435456) (sBase p)), wholeI A.SWG_QREF (roundDiv (i32At b 8 * 268435456) (sBase p)), whole A.SWG_VREF
      (vLine (vBase p) (u32At b 12)), whole A.SWG_FREF (q28of (u32At b 16) (fNom p * 1000))]),
    (atRegime 7 [], Op.setPoints, [2] ++ zeros 19, fun b p => decide (byteAt b 0 = 2) && admitsB p [wholeI A.SWG_QREF (roundDiv (i32At b 8 * 268435456) (sBase p))])] := taken_of (by decide +kernel)

/-- The fields that SET_START_SYNC commits, at the values of a payload. -/
def startItems (b : List Byte) (p : Polder) : List Item :=
  let vb := vBase p
  let bit := fun (f : Fld) => part f (u16At b 62 / 2 ^ (f.lo - 16) % 2 ^ (f.hi + 1 - f.lo))
  [bit F.PCT_REGCFG_BRK_EN, bit F.PCT_REGCFG_BRK_DO, bit F.PCT_REGCFG_AUX_EN, bit F.PCT_REGCFG_AUX_POL, bit F.PCT_REGCFG_AUX_DI, bit
    F.PCT_REGCFG_PRE_EN, bit F.PCT_REGCFG_PRE_DO, bit F.PCT_REGCFG_TRIP_BRK, part F.PCT_REGCFG_BRK_TMO (u16At b 60), whole A.SWG_DC_RDY (vDc vb (u32At
    b 0)), whole A.SWG_DC_BAL (vDc vb (u32At b 4)), whole A.SWG_PRE_TMO (u32At b 8), whole A.SWG_DEAD_V (vLine vb (u32At b 12)), whole A.SWG_EN_RATE
    (q28of (u32At b 16) 1000), whole A.SWG_EN_TMO (u32At b 20), whole A.SWG_BO_BASE (u16At b 24), whole A.SWG_BO_TRIES (byteAt b 26), whole
    A.SWG_SYNC_BW (u16At b 28), whole A.SWG_SYNC_LIM (q28of (u32At b 32) 1000000), whole A.SWG_SYNC_DV (vLine vb (u32At b 36)), whole A.SWG_SYNC_DF
    (u16At b 30), whole A.SWG_SYNC_DA (phase001 (u16At b 40)), whole A.SWG_SYNC_DWELL (u16At b 42), whole A.SWG_SYNC_TMO (u32At b 44), whole
    A.SWG_BRK_TCLOSE (u16At b 48), whole A.SWG_SYNC_VLO (vLine vb (u32At b 52)), whole A.SWG_SYNC_VHI (vLine vb (u32At b 56))]

theorem witness_RegimeCommandsComplete_commits : Taken [
    (atRegime 2 [], Op.setEnvelope, [1, 0, 0, 0] ++ (List.range 16).flatMap fun k => leBytes 2 (1000 * k) ++ leBytes 2 (1100 + 10 * k), fun b p => decide (byteAt b
      0 ≤ 1) && admitsB p ((List.range 16).map fun k => whole (if byteAt b 0 = 0 then A.SWG_UVENV k else A.SWG_OVENV k) (u16At b (4 + 4 * k) * 65536 + u16At b (6 + 4
      * k)))),
    (atRegime 2 [], Op.setRide, leBytes 4 552000 ++ leBytes 4 759000 ++ leBytes 4 13800 ++ leBytes 4 2000 ++ leBytes 4 100 ++ [1, 0, 0, 0] ++ leBytes 2 12000 ++
      leBytes 2 1000 ++ leBytes 4 2000 ++ leBytes 2 100 ++ leBytes 2 0 ++ leBytes 4 800000 ++ leBytes 4 1200000 ++ leBytes 4 1000 ++ leBytes 4 1000 ++ leBytes 4 5000,
      fun b p => admitsB p [whole A.SWG_RIDE_LO (vLine (vBase p) (u32At b 0)), whole A.SWG_RIDE_HI (vLine (vBase p) (u32At b 4)), whole A.SWG_RIDE_HYS (vLine (vBase
      p) (u32At b 8)), whole A.SWG_RIDE_TDET (u32At b 12), whole A.SWG_RIDE_TREC (u32At b 16), ⟨A.SWG_RIDE_CFG, 7, 0, byteAt b 20, false⟩, whole A.SWG_SLIP_ANG
      (phase001 (u16At b 24)), whole A.SWG_PJ_THR (phase001 (u16At b 26)), whole A.SWG_ROCOF_MAX (q28of (u32At b 28) (fNom p * 1000)), whole A.SWG_ROCOF_WIN (u16At b
      32), whole A.SWG_DCG_LO (vDc (vBase p) (u32At b 36)), whole A.SWG_DCG_HI (vDc (vBase p) (u32At b 40)), whole A.SWG_DCG_K (q28of (u32At b 44) 1000), whole
      A.SWG_STOP_RATE (q28of (u32At b 48) 1000), whole A.SWG_STOP_TMO (u32At b 52)]),
    (atRegime 2 [], Op.setStartSync, leBytes 4 900000 ++ leBytes 4 50000 ++ leBytes 4 5000 ++ leBytes 4 69000 ++ leBytes 4 500 ++ leBytes 4 2000 ++ leBytes 2 1000
      ++ [3, 0] ++ leBytes 2 100 ++ leBytes 2 100 ++ leBytes 4 2000 ++ leBytes 4 69000 ++ leBytes 2 1000 ++ leBytes 2 100 ++ leBytes 4 60000 ++ leBytes 2 50 ++
      leBytes 2 0 ++ leBytes 4 600000 ++ leBytes 4 760000 ++ leBytes 2 100 ++ leBytes 2 0, fun b p => admitsB p (startItems b p))] := taken_of (by decide +kernel)

theorem witness_EmbankmentAndModulatorSettingsComplete_commits : Taken [
    (atRegime 2 [], Op.setEmbankment, [0, 1, 0, 0] ++ leBytes 4 20000, fun b p => decide (byteAt b 0 ≤ 2) && admitsB p [part F.EMB_CTRL_TOPO (byteAt b 0), part
      F.EMB_CTRL_ZS_REMOVE (byteAt b 1 % 2), part F.EMB_CTRL_CM_EST (byteAt b 1 / 2 % 2), whole A.EMB_XL (reactance p (u32At b 4))]),
    (atRegime 2 [], Op.setBand, [0, 0, 0, 0] ++ leBytes 4 20000 ++ leBytes 4 100000 ++ leBytes 4 50000 ++ leBytes 4 200000 ++ leBytes 4 500, fun b p => decide
      (byteAt b 0 ≤ 2) && decide (500 ≤ u32At b 4 ∧ u32At b 4 ≤ 20000) && decide (u32At b 20 ≤ 500) && admitsB p [part F.EMB_CTRL_BANDMODE (byteAt b 0), whole
      A.EMB_FSW (u32At b 4), whole A.EMB_HFIX (iCode p (u32At b 8)), whole A.EMB_HMIN (iCode p (u32At b 12)), whole A.EMB_HMAX (iCode p (u32At b 16)), whole
      A.EMB_TRIMK (q28of (u32At b 20) 1000)]),
    (atRegime 2 [], Op.setPrediction, [2, 8, 0, 0] ++ leBytes 4 100000 ++ leBytes 4 2000 ++ leBytes 4 2000 ++ leBytes 4 1000 ++ leBytes 4 4000 ++ leBytes 4 1000,
      fun b p => decide (byteAt b 0 ≤ 2) && decide (byteAt b 1 = 8) && decide (u32At b 4 ≤ 5119921) && decide (1100 ≤ u32At b 20 ∧ u32At b 20 ≤ 4000) && admitsB p
      [part F.EMB_CTRL_SLOPE_SRC (byteAt b 0), part F.EMB_CTRL_FIT_N 1, whole A.EMB_TEXT (binsOfPs (u32At b 4)), whole A.EMB_HOLD (u32At b 8), whole A.EMB_SETTLE
      (u32At b 12), whole A.EMB_IZC (iCode p (u32At b 16)), whole A.EMB_OUTER (uq24of (u32At b 20) 1000), whole A.EMB_SMIN (iCode p (u32At b 24))]),
    (atRegime 2 [], Op.setNpBalance, [1, 0, 0, 0] ++ leBytes 4 7900 ++ leBytes 4 20000 ++ leBytes 4 10000 ++ leBytes 4 100, fun b p => decide (byteAt b 0 ≤ 1) &&
      decide (u32At b 4 ≤ 7900) && decide (100 ≤ u32At b 16 ∧ u32At b 16 ≤ 100000) && admitsB p [part F.EMB_CTRL_NP_EN (byteAt b 0), whole A.EMB_NPK (q28of (u32At b
      4) 1000), whole A.EMB_V0MAX (vPeak (vBase p) (u32At b 8)), whole A.EMB_SECT_HYS (vPeak (vBase p) (u32At b 12)), whole A.EMB_NPTF (u32At b 16)]),
    (atRegime 2 [], Op.setModulator, [3, 1, 2, 1] ++ leBytes 4 200000 ++ leBytes 4 200000 ++ leBytes 4 200000 ++ leBytes 4 10000000 ++ leBytes 4 100000 ++ leBytes 2
      500 ++ [15, 0], fun b p => decide (byteAt b 0 ≤ 3) && decide (byteAt b 1 ≤ 1) && decide (byteAt b 2 ≤ 2) && decide (byteAt b 3 ≤ 1) && ([0, 1, 2, 3].all fun k
      => decide (200000 ≤ u32At b (4 + 4 * k) ∧ u32At b (4 + 4 * k) ≤ 10000000)) && decide (100000 ≤ u32At b 20 ∧ u32At b 20 ≤ 20000000) && decide (byteAt b 26 ≤ 15)
      && admitsB p [part F.MOD_CTRL_SS_SINK (byteAt b 26), part F.MOD_CTRL_AUX_MODE (byteAt b 2), part F.MOD_CTRL_AUX_CFG (byteAt b 3), part F.MOD_CTRL_UPD (byteAt b
      1), part F.MOD_CTRL_MODE (byteAt b 0), whole (A.MOD_DT 0) (binsOfPs (u32At b 4)), whole (A.MOD_DT 1) (binsOfPs (u32At b 8)), whole (A.MOD_DT 2) (binsOfPs (u32At
      b 12)), whole (A.MOD_DT 3) (binsOfPs (u32At b 16)), whole A.MOD_TMIN (binsOfPs (u32At b 20)), whole A.MOD_SS_GAP (u16At b 24)]),
    (atRegime 2 [], Op.setBootstrap, [15, 0, 0, 0] ++ leBytes 4 5000 ++ leBytes 4 1000 ++ leBytes 4 6000 ++ leBytes 4 1100000 ++ leBytes 4 1000000, fun b p =>
      admitsB p [part F.MOD_CTRL_BS_EN (byteAt b 0 % 16), whole A.MOD_BS_TMAX (u32At b 4), whole A.MOD_BS_TRF (u32At b 8), whole A.MOD_BS_WARN (u32At b 12), whole
      A.MOD_CHOP_ON (vDc (vBase p) (u32At b 16)), whole A.MOD_CHOP_OFF (vDc (vBase p) (u32At b 20))]),
    (atRegime 2 [], Op.setPulseShape, [3, 1, 0, 0] ++ leBytes 4 0 ++ leBytes 4 0, fun b p => decide (byteAt b 0 ≤ 3) && decide (byteAt b 1 ≤ 1) && admitsB p [whole
      (if byteAt b 1 = 0 then A.MOD_SHAPE (byteAt b 0) else A.MOD_SHAPEH (byteAt b 0)) (u32At b 4), whole A.MOD_SHAPE_ITH (iCode p (u32At b 8))]),
    (atRegime 2 [], Op.setCarrier, [1, 0, 0, 0] ++ leBytes 4 100000 ++ zeros 28, fun b p => decide (byteAt b 0 = 1) && admitsB p [whole A.MOD_PER (binsOfNs (u32At b
      4))]),
    (atRegime 2 [], Op.setCarrier, [2] ++ zeros 7 ++ leBytes 4 1000000 ++ zeros 24, fun b p => decide (byteAt b 0 = 2) && decide (0 ≤ i32At b 8 ∧ i32At b 8 ≤
      1000000) && admitsB p [part (F.MOD_CMP_SIDE 0) 0, part (F.MOD_CMP_TON 0) (roundDivN ((i32At b 8).toNat * perBuffer p) 1000000)])] := taken_of (by decide +kernel)

theorem witness_LearnerAndGalleryCommandsComplete_commits : Taken [
    (atRegime 2 [], Op.setLearner, [15, 0, 0, 0] ++ leBytes 4 1000 ++ leBytes 4 900000 ++ leBytes 4 100 ++ leBytes 4 100 ++ leBytes 4 4 ++ leBytes 4 0 ++ leBytes 2
      100 ++ leBytes 2 60 ++ leBytes 4 50000, fun b p => decide (u32At b 4 ≤ 1000) && decide (900000 ≤ u32At b 8 ∧ u32At b 8 ≤ 1000000) && decide (100 ≤ u32At b 16 ∧
      u32At b 16 ≤ 5000) && decide (100 ≤ u32At b 32 ∧ u32At b 32 ≤ 50000) && admitsB p [part F.LRN_CTRL_AUTOSAVE (byteAt b 0 / 8 % 2), part F.LRN_CTRL_WARM (byteAt b
      0 / 4 % 2), part F.LRN_CTRL_FREEZE (byteAt b 0 / 2 % 2), part F.LRN_CTRL_EN (byteAt b 0 % 2), whole A.LRN_GAIN (q28of (u32At b 4) 1000), whole A.LRN_FORGET
      (q28of (u32At b 8) 1000000), whole A.LRN_LEAD (u32At b 12), whole A.LRN_CLIM (q28of (u32At b 16) 10000), whole A.LRN_HMASK0 (u32At b 20), whole A.LRN_HMASK1
      (u32At b 24), whole A.LRN_FADE (u16At b 28), whole A.LRN_DFUPD (q28of (u32At b 32) 1000000), whole A.LRN_SAVEINT (u16At b 30)]),
    (atRegime 2 [], Op.setGallery, [4, 0, 0, 0] ++ leBytes 4 0 ++ leBytes 4 0 ++ leBytes 4 0 ++ leBytes 4 0 ++ leBytes 4 256 ++ leBytes 4 10 ++ leBytes 4 1 ++
      leBytes 4 0 ++ zeros 4, fun b p => admitsB p [part F.GAL_CTRL_EVSEL (byteAt b 37), part F.GAL_CTRL_TSLOT (byteAt b 3), part F.GAL_CTRL_TEDGE (byteAt b 2), part
      F.GAL_CTRL_TSRC (byteAt b 1), part F.GAL_CTRL_DECMODE (byteAt b 36), part F.GAL_CTRL_NPROBE (byteAt b 0), whole (A.GAL_PROBE 0) (u32At b 4), whole (A.GAL_PROBE
      1) (u32At b 8), whole (A.GAL_PROBE 2) (u32At b 12), whole (A.GAL_PROBE 3) (u32At b 16), whole A.GAL_LEN (u32At b 20), whole A.GAL_PRE (u32At b 24), whole
      A.GAL_DEC (u32At b 28), wholeI A.GAL_TLEVEL (i32At b 32)])] := taken_of (by decide +kernel)

theorem witness_AcquisitionSettingsComplete_commits : Taken [
    (atRegime 2 [], Op.setAcquisition, [3, 7, 1, 0] ++ leBytes 4 163837 ++ leBytes 4 1000 ++ leBytes 4 1000, fun b p => decide (byteAt b 0 ≤ 3) && decide (1 ≤
      byteAt b 2 ∧ byteAt b 2 ≤ 255) && decide (u32At b 4 ≤ 163837) && admitsB p ([part F.AFE_CTRL_PLS_TRIP (byteAt b 1 / 4 % 2), part F.AFE_CTRL_SHD_EN (byteAt b 1 /
      2 % 2), part F.AFE_CTRL_PLS_EN (byteAt b 1 % 2)] ++ (if byteAt b 0 = fget p F.AFE_CTRL_TRIG then [] else [part F.AFE_CTRL_TRIG (byteAt b 0)]) ++ [whole
      A.AFE_TDLY (roundDivN (u32At b 4 * 2) 5), whole A.AFE_PLS_TOL (roundDivN (u32At b 8 * 32768) 2500000), whole A.AFE_SHD_TOL (roundDivN (u32At b 12 * 32768)
      1250000), whole A.AFE_PLS_N (byteAt b 2)])),
    (atRegime 2 [], Op.setComparator, [4, 1, 0, 5] ++ leBytes 2 1000 ++ leBytes 2 64536 ++ leBytes 2 5000 ++ [15, 0], fun b p => let k := byteAt b 0; decide (k < 5)
      && decide (byteAt b 3 ≤ 5) && decide (u16At b 8 ≤ 5000) && decide (byteAt b 10 ≤ 15) && admitsB p [partI (F.AFE_CMP_THR_HI k) (thrCode (fget p
      (F.AFE_CMP_CFG_SRC k)) (i16At b 4)), partI (F.AFE_CMP_THR_LO k) (thrCode (fget p (F.AFE_CMP_CFG_SRC k)) (i16At b 6)), part (F.AFE_CMP_CFG_EN k) (byteAt b 1 %
      2), part (F.AFE_CMP_CFG_BREF k) (byteAt b 3), part (F.AFE_CMP_CFG_FILT k) (byteAt b 10), part (F.AFE_CMP_CFG_BLANK k) (u16At b 8)]),
    (atRegime 2 [], Op.setComparator, [5, 1, 3, 5] ++ leBytes 2 1000 ++ leBytes 2 64536 ++ leBytes 2 5000 ++ [15, 0], fun b p => decide (byteAt b 0 = 5) && decide
      (byteAt b 2 ≤ 14) && decide (byteAt b 3 ≤ 5) && decide (u16At b 8 ≤ 5000) && decide (byteAt b 10 ≤ 15) && admitsB p [partI (F.AFE_CMP_THR_HI 5) (thrCode (byteAt
      b 2) (i16At b 4)), partI (F.AFE_CMP_THR_LO 5) (thrCode (byteAt b 2) (i16At b 6)), part (F.AFE_CMP_CFG_EN 5) (byteAt b 1 % 2), part (F.AFE_CMP_CFG_SRC 5) (byteAt
      b 2), part (F.AFE_CMP_CFG_BREF 5) (byteAt b 3), part (F.AFE_CMP_CFG_FILT 5) (byteAt b 10), part (F.AFE_CMP_CFG_BLANK 5) (u16At b 8)]),
    (atRegime 2 [], Op.setFilters, List.replicate 15 3 ++ [0] ++ List.replicate 15 8 ++ [0] ++ leBytes 2 3000 ++ [50, 1], fun b p => decide (1 ≤ u16At b 32 ∧ u16At
      b 32 ≤ 3000) && admitsB p ((List.range 15).flatMap (fun k => part (F.FLT_RESP_M k) (byteAt b (16 + k)) :: (if byteAt b k = fget p (F.FLT_RESP_C k) then [] else
      [part (F.FLT_RESP_C k) (byteAt b k)])) ++ [whole A.FLT_MAVG (u16At b 32), part F.FLT_CTRL_HSEL (byteAt b 34), part F.FLT_CTRL_SV_EN (byteAt b 35 % 2)])),
    (atRegime 2 [], Op.setCapture, [16, 0, 0, 0, 0, 0, 0, 0] ++ zeros 16 ++ leBytes 4 1024 ++ leBytes 4 100 ++ leBytes 4 1 ++ zeros 12 ++ [1] ++ zeros 19, fun b p
      => decide (1 ≤ byteAt b 0 ∧ byteAt b 0 ≤ 16) && decide (u32At b 58 ≤ 999999999) && timeOk (cmd b) (u48At b 52) (u32At b 58) && admitsB p ([part F.CAP_CTRL_ROLE
      (byteAt b 6), part F.CAP_CTRL_FIRE_IN (byteAt b 7 % 2), part F.CAP_CTRL_FIRE_OUT (byteAt b 7 / 2 % 2), part F.CAP_CTRL_ARMPIN (byteAt b 7 / 4 % 2), part
      F.CAP_CTRL_MED (byteAt b 7 / 8 % 2), part F.CAP_CTRL_TAP (byteAt b 1), part F.CAP_CTRL_FORMAT (byteAt b 2), part F.CAP_CTRL_TSRC (byteAt b 3), part
      F.CAP_CTRL_TEDGE (byteAt b 4), part F.CAP_CTRL_TCH (byteAt b 5), part F.CAP_CTRL_EVSEL (byteAt b 62), part F.CAP_CTRL_NCH (byteAt b 0 - 1)] ++ (List.range
      16).map (fun k => ⟨A.CAP_CHSEL (k / 8), 4 * (k % 8) + 3, 4 * (k % 8), byteAt b (8 + k), false⟩) ++ [whole A.CAP_LEN (u32At b 24), whole A.CAP_PRE (u32At b 28),
      whole A.CAP_INT (u32At b 32), wholeI A.CAP_TLEVEL (i32At b 36), wholeI A.CAP_THI (i32At b 40), whole A.CAP_THYST (u32At b 44), whole A.CAP_TSLN (u16At b 48),
      whole A.CAP_TT_NS (u32At b 58), whole A.CAP_TT_SL (u32At b 52), whole A.CAP_TT_SH (u16At b 56)])),
    (atRegime 2 [], Op.setStair, [1, 5] ++ leBytes 2 60000 ++ leBytes 4 100 ++ leBytes 4 7900000 ++ leBytes 4 0 ++ zeros 4, fun b p => let k := byteAt b 0; decide
      (k ≤ 1) && decide (u16At b 2 ≤ 60000) && decide (100 ≤ u32At b 4 ∧ u32At b 4 ≤ 7900000) && decide (100 ≤ u32At b 8 ∧ u32At b 8 ≤ 7900000) && admitsB p [part
      (F.STS_SCFG_LAND_EN k) (byteAt b 1 % 2), part (F.STS_SCFG_LAND_DIR k) (byteAt b 1 / 2 % 4), part (F.STS_SCFG_DWELL k) (u16At b 2), whole (A.STS_RUP k) (q28of
      (u32At b 4) 1000000), whole (A.STS_RDN k) (q28of (u32At b 8) 1000000), wholeI (A.STS_LAND k) (roundDiv (i32At b 12 * 268435456) (sBase p))]),
    (atRegime 2 [], Op.setStair, [2, 5] ++ leBytes 2 60000 ++ leBytes 4 100 ++ leBytes 4 7900000 ++ leBytes 4 690000 ++ zeros 4, fun b p => decide (byteAt b 0 = 2)
      && decide (u16At b 2 ≤ 60000) && decide (100 ≤ u32At b 4 ∧ u32At b 4 ≤ 7900000) && decide (100 ≤ u32At b 8 ∧ u32At b 8 ≤ 7900000) && admitsB p [part
      (F.STS_SCFG_LAND_EN 2) (byteAt b 1 % 2), part (F.STS_SCFG_LAND_DIR 2) (byteAt b 1 / 2 % 4), part (F.STS_SCFG_DWELL 2) (u16At b 2), whole (A.STS_RUP 2) (q28of
      (u32At b 4) 1000000), whole (A.STS_RDN 2) (q28of (u32At b 8) 1000000), whole (A.STS_LAND 2) (vLine (vBase p) (u32At b 12))]),
    (atRegime 2 [], Op.setStair, [3, 5] ++ leBytes 2 60000 ++ leBytes 4 100 ++ leBytes 4 7900000 ++ leBytes 4 50000 ++ zeros 4, fun b p => decide (byteAt b 0 = 3)
      && decide (u16At b 2 ≤ 60000) && decide (100 ≤ u32At b 4 ∧ u32At b 4 ≤ 7900000) && decide (100 ≤ u32At b 8 ∧ u32At b 8 ≤ 7900000) && admitsB p [part
      (F.STS_SCFG_LAND_EN 3) (byteAt b 1 % 2), part (F.STS_SCFG_LAND_DIR 3) (byteAt b 1 / 2 % 4), part (F.STS_SCFG_DWELL 3) (u16At b 2), whole (A.STS_RUP 3) (q28of
      (u32At b 4) 1000000), whole (A.STS_RDN 3) (q28of (u32At b 8) 1000000), whole (A.STS_LAND 3) (q28of (u32At b 12) (fNom p * 1000))])] := taken_of (by decide +kernel)

theorem witness_ProtectionSettingsComplete_commits : Taken [
    (atRegime 2 [], Op.setDike, leBytes 2 65535 ++ leBytes 2 65535 ++ leBytes 2 65535 ++ [1, 1] ++ leBytes 4 100 ++ leBytes 4 500000 ++ leBytes 4 1200000 ++ leBytes
      2 4 ++ leBytes 2 100 ++ leBytes 2 1000 ++ leBytes 2 1000, fun b p => admitsB p [part F.DIK_TRIPEN_B13 (u16At b 0 / 8192 % 2), part F.DIK_TRIPEN_B11 (u16At b 0 /
      256 % 16), part F.DIK_TRIPEN_B5 (u16At b 0 % 64), part F.DIK_GENMASK_BITS (u16At b 2 % 16384), part F.DIK_TRIPOMASK_BITS (u16At b 4 % 16384), part
      F.DIK_CFG_TRIPI_FILT (byteAt b 7), part F.DIK_CFG_TRIPO_PASS (byteAt b 6 % 2), whole A.DIK_SETTLE (u32At b 8), whole A.DIK_DCLO (vDc (vBase p) (u32At b 12)),
      whole A.DIK_DCHI (vDc (vBase p) (u32At b 16)), whole A.DIK_DCN (u16At b 20), wholeI A.DIK_TH0LIM (i16At b 24), wholeI A.DIK_TH1LIM (i16At b 26), whole
      A.DIK_GUTMAX (u16At b 22)]),
    (atRegime 2 [], Op.setL1, [3, 4] ++ leBytes 2 10000 ++ zeros 16, fun b p => let n := byteAt b 0; decide (n ≤ 3) && decide (1 ≤ byteAt b 1 ∧ byteAt b 1 ≤ 4) &&
      decide (u16At b 2 ≤ 10000) && ([0, 1, 2, 3].all fun k => decide (u32At b (4 + 4 * k) = 0 ∨ 1 ≤ l1Code p n (u32At b (4 + 4 * k)) ∧ l1Code p n (u32At b (4 + 4 *
      k)) ≤ 127)) && admitsB p [part (F.DIK_L1THR_S4 n) (l1Code p n (u32At b 16)), part (F.DIK_L1THR_S3 n) (l1Code p n (u32At b 12)), part (F.DIK_L1THR_S2 n) (l1Code
      p n (u32At b 8)), part (F.DIK_L1THR_S1 n) (l1Code p n (u32At b 4)), part F.DIK_L1CFG_BLANK (u16At b 2), part F.DIK_L1CFG_N (byteAt b 1)]),
    (atRegime 2 [], Op.setGateLink, [2, 2, 2, 1, 8, 0, 0, 0] ++ leBytes 4 1000, fun b p => let n := byteAt b 0; decide (n < 3) && admitsB p [part (F.GLK_CFG_EN n)
      (byteAt b 1 % 2), part (F.GLK_CFG_VMAX n) (byteAt b 2), part (F.GLK_CFG_VMIN n) (byteAt b 3), part (F.GLK_CFG_NSW n) (byteAt b 1 / 2 % 2), part (F.GLK_CFG_LOSSN
      n) (byteAt b 4), whole (A.GLK_ISFS n) (u32At b 8)]),
    (atRegime 2 [], Op.setGateLink, [3, 3, 2, 1, 8, 0, 0, 0] ++ leBytes 4 1000, fun b p => decide (byteAt b 0 = 3) && admitsB p [part (F.GLK_CFG_EN 3) (byteAt b 1 %
      2), part (F.GLK_CFG_VMAX 3) (byteAt b 2), part (F.GLK_CFG_VMIN 3) (byteAt b 3), part (F.GLK_CFG_LOSSN 3) (byteAt b 4), whole (A.GLK_ISFS 3) (u32At b 8)]),
    (atRegime 2 [], Op.setFieldInputs, (List.range 8).flatMap (fun _ => leBytes 2 500) ++ zeros 4, fun b p => admitsB p ((List.range 8).flatMap fun k => [part
      (F.FIO_DICFG_EDGE k) (u16At b 16 / 4 ^ k % 4), part (F.FIO_DICFG_FILT k) (u16At b (2 * k))])),
    (atRegime 2 [], Op.setFieldOutputs, (List.range 4).flatMap fun _ => [3, 60] ++ leBytes 2 300 ++ leBytes 2 280 ++ zeros 2, fun b p => ([0, 1, 2, 3].all fun k =>
      decide (10 ≤ u16At b (8 * k + 4) ∧ u16At b (8 * k + 4) ≤ 500)) && admitsB p ([0, 1, 2, 3].flatMap fun k => [part (F.FIO_DOCFG_TP_EN k) (byteAt b (8 * k) % 2),
      part (F.FIO_DOCFG_RETRY k) (byteAt b (8 * k) / 2 % 2), part (F.FIO_DOCFG_TP_W k) (u16At b (8 * k + 2)), part (F.FIO_DOCFG_TP_INT k) (byteAt b (8 * k + 1)), part
      (F.FIO_DOCFG_RB_MASK k) (roundDivN (u16At b (8 * k + 4)) 10)]))] := taken_of (by decide +kernel)

theorem witness_ClockAndTimeCommandsComplete_commits : Taken [
    (atRegime 2 [], Op.setTimeSources, leBytes 4 2147483655 ++ leBytes 4 263 ++ [3, 10, 0, 0] ++ leBytes 4 1000 ++ leBytes 4 60 ++ leBytes 4 60 ++ leBytes 4 100 ++
      leBytes 4 1000, fun b p => admitsB p [whole (A.TIM_DOMCFG 0) (u32At b 0), whole (A.TIM_DOMCFG 1) (u32At b 4), part F.TIM_CFG_STEP_EN (byteAt b 8 % 2), part
      F.TIM_CFG_REVERT (byteAt b 8 / 2 % 2), part F.TIM_CFG_SLEW (byteAt b 9), whole A.TIM_GOODTHR (u32At b 12), whole A.TIM_HOLDTMO (u32At b 16), whole A.TIM_REVERTT
      (u32At b 20), whole A.TIM_SRVBW (u32At b 24), whole A.TIM_STEPTHR (u32At b 28)]),
    (atRegime 2 [], Op.setPps, [1, 3] ++ leBytes 2 900, fun b p => decide (1 ≤ byteAt b 1 ∧ byteAt b 1 ≤ 3) && decide (1 ≤ u16At b 2 ∧ u16At b 2 ≤ 900) && admitsB p
      [part F.TIM_PPSCFG_DIR (byteAt b 0 % 2), part F.TIM_PPSCFG_QMIN (byteAt b 1), part F.TIM_PPSCFG_WIDTH (u16At b 2)])] := taken_of (by decide +kernel)

theorem witness_SystemCommandsComplete_commits : Taken [
    (atRegime 2 [], Op.setPerformance, [2, 0, 0, 0], fun b p => decide (byteAt b 0 ≤ 2) && admitsB p [part F.PCT_PERF_MODE (byteAt b 0)]),
    (atRegime 2 [], Op.setLog, [3, 1, 0, 0], fun b p => decide (byteAt b 0 ≤ 3) && decide (1 ≤ byteAt b 1) && admitsB p [part F.PCT_LOGCFG_BURST (byteAt b 1), part
      F.PCT_LOGCFG_NVMIN (byteAt b 0)])] := taken_of (by decide +kernel)

/-! ### The other forms -/

theorem witness_CommittedSwingRegisters : (∃ n, (atRegime 2 []).admits 0 [whole A.SWG_INERTIA 67108864, whole A.SWG_ANCHOR_CTRL 0x003C0064] n) ∧
    (atRegime 2 []).cyc.standing (0 / cyc) = [] ∧
    ∀ l, l = [whole A.SWG_INERTIA 67108864, whole A.SWG_ANCHOR_CTRL 0x003C0064] →
      (∀ x ∈ l, 0x60010 ≤ x.off ∧ x.off < 0x600A0 ∨ x.off = A.SWG_ANCHOR_CTRL) ∧ ∀ x ∈ l, (l.filter fun y => y.off == x.off) = [x] :=
  ⟨admits_of 0 (by decide +kernel), rfl, fun _ h => by subst h; decide⟩

theorem witness_SwingReadsComplete : Taken [(atRegime 2 [], Op.getSwing, [], fun _ _ => true), (atRegime 2 [], Op.getRegime, [], fun _ _ => true)] ∧
    Accesses (dev (atRegime 2 [])) 0 .A (.ce .A) 0 (atRegime 2 []) ∧ reaches (.ce .A) .A A.SWG_P = true :=
  ⟨taken_of (by decide +kernel), ⟨rfl, rfl, by decide, by simp, rfl, rfl⟩, by decide⟩

theorem witness_UpdatesOfTheLaw : Running [(0, atRegime 7 [], fun _ p => lawRegime p && !p.swg.init && decide (wLow p ≤ wHigh p)),
    (0, { atRegime 6 [] with swg := { (atRegime 6 []).swg with init := true } }, fun _ p => lawRegime p && p.swg.init && regime p == Rg.sync)] :=
  running_of (by decide +kernel)

theorem witness_LawStopsAndHolds : Running [(0, atRegime 2 [], fun _ p => !lawRegime p)] := running_of (by decide +kernel)

theorem witness_DwellsAnchorAndLearner : Running [
    (10 * sec, setStair (atRegime 7 []) 3 { out := 0, dwellEnd := some (10 * sec) }, fun t p => decide ((stair p 3).dwellEnd = some t)),
    (10 * sec, { atRegime 7 [] with swg := { (atRegime 7 []).swg with clampSince := some 0 } }, fun t p => decide (p.swg.clampSince = some 0 ∧ 0 + 10 * sec ≤ t ∧ fbit p F.SWG_STAT_ANCHOR_BLK = false)),
    (10 * sec, { atRegime 7 [] with swg := { (atRegime 7 []).swg with errSince := some 0 } }, fun t p => decide (p.swg.errSince = some 0 ∧ 0 + 10 * sec ≤ t)),
    (0, { atRegime 7 [] with lrn := { (atRegime 7 []).lrn with job := some ([], 0, []) } }, fun _ p => ceRuns p && decide (p.lrn.job = some ([], 0, [])) && !inMask [] 0),
    (0, { atRegime 7 [] with lrn := { (atRegime 7 []).lrn with sweepFrom := some 0 } }, fun _ p => decide (p.lrn.sweepFrom = some 0 ∧ p.lrn.swept ≤ 4095)),
    (0, { atRegime 7 [] with lrn := { (atRegime 7 []).lrn with learnTime := 65536 * 60 * sec, inForce := [(A.LRN_CTRL, 0xFFFFFFFF#32)] } },
      fun _ p => ceRuns p && lrnB p.lrn.inForce F.LRN_CTRL_AUTOSAVE && decide (lrnN p.lrn.inForce A.LRN_SAVEINT * 60 * sec ≤ p.lrn.learnTime))] := running_of (by decide +kernel)

theorem witness_RegimeCommandsComplete : Taken [
    (atRegime 2 [], Op.requestRegime, [3] ++ zeros 15, fun b p => u48At b 4 == 0 && u32At b 10 == 0 &&
      admitsB p [part F.PCT_REGREQ_MODE (byteAt b 1), part F.PCT_REGREQ_TARGET (byteAt b 0)]),
    (atRegime 2 [(F.PCT_REGCFG_BRK_EN, 1)], Op.breaker, zeros 4, fun b p => byteAt b 0 == 0 && fbit p F.PCT_REGCFG_BRK_EN),
    (atRegime 4 [(F.PCT_REGCFG_BRK_EN, 1), (F.PCT_REGIME_DEAD, 1)], Op.breaker, [1, 0, 0, 0],
      fun b p => byteAt b 0 == 1 && fbit p F.PCT_REGCFG_BRK_EN && regime p == Rg.ready && fbit p F.PCT_REGIME_DEAD && rgPhase p == 0),
    (atRegime 2 [(F.PCT_REGCFG_BRK_EN, 0)], Op.breaker, [1, 0, 0, 0], fun b p => decide (byteAt b 0 ≤ 1) && !fbit p F.PCT_REGCFG_BRK_EN)] :=
  taken_of (by decide +kernel)

/-- Polder A with the safe pulse block permitting, so that only the named cause acts. -/
def quiet (r : Nat) (l : List (Fld × Nat)) : Polder := atRegime r ((F.SPB_STAT_STATE, 2) :: l)

/-- A polder with its regime machine's data changed. -/
def withRgm (f : RegState → RegState) (p : Polder) : Polder := { p with rgm := f p.rgm }

theorem witness_RegimeEvaluationOrder : Running [
    (0, atRegime 2 [], fun _ p => ceRuns p && p.rgm.order.isNone && spbDemands p && regime p != Rg.safe),
    (0, atRegime 7 [(F.SPB_STAT_STATE, 2), (F.DIK_TRIPSRC_TRIPI, 1)], fun _ p => ceRuns p && p.rgm.order.isNone && !spbDemands p && latched p != 0 && regime p != Rg.tripped),
    (0, atRegime 9 [(F.SPB_STAT_STATE, 2)], fun _ p => ceRuns p && p.rgm.order.isNone && !spbDemands p && latched p == 0 && regime p == Rg.tripped),
    (0, { atRegime 2 [(F.SPB_STAT_STATE, 2)] with rgm := { (atRegime 2 []).rgm with reqs := [⟨3, 0, none, false⟩] } },
      fun _ p => ceRuns p && p.rgm.order.isNone && !spbDemands p && latched p == 0 && p.rgm.dkhStop.isNone && regime p == Rg.standby &&
        decide (p.rgm.reqs = [⟨3, 0, none, false⟩])),
    (0, withRgm (fun g => { g with dkhStop := some 1 }) (quiet 7 []), fun _ p => ceRuns p && p.rgm.order.isNone && !spbDemands p && latched p == 0 &&
      p.rgm.dkhStop == some 1 && regime p == Rg.forming),
    (100 * sec, quiet 3 [], fun t p => ceRuns p && p.rgm.order.isNone && !spbDemands p && latched p == 0 && p.rgm.dkhStop.isNone && regime p == Rg.precharge &&
      decide (p.rgm.enteredAt + tookN p A.SWG_PRE_TMO * ms ≤ t)),
    (0, { quiet 3 [(F.PCT_REGIME_DCOK, 1), (F.GLK_CFG_EN 0, 0), (F.GLK_CFG_EN 1, 0), (F.GLK_CFG_EN 2, 0), (F.GLK_CFG_EN 3, 0)] with dike := { (quiet 3 []).dike with preGuPass := 15, preCmpPass := true } }, fun t p => ceRuns p && p.rgm.order.isNone &&
      !spbDemands p && latched p == 0 && p.rgm.dkhStop.isNone && regime p == Rg.precharge && decide (t < p.rgm.enteredAt + tookN p A.SWG_PRE_TMO * ms) &&
      fbit p F.PCT_REGIME_DCOK && ready p)] := running_of (by decide +kernel)

theorem witness_RegimeTimersAndRide : Running ([
    (100 * sec, quiet 3 [], fun t p => regime p == Rg.precharge && decide (p.rgm.enteredAt + tookN p A.SWG_PRE_TMO * ms ≤ t)),
    (100 * sec, quiet 5 [], fun t p => regime p == Rg.energise && decide (p.rgm.enteredAt + tookN p A.SWG_EN_TMO * ms ≤ t)),
    (20 * ms, withRgm (fun g => { g with settleSince := some 0 }) (quiet 5 []), fun t p => regime p == Rg.energise && decide (p.rgm.settleSince = some 0 ∧ 0 + 20 * ms ≤ t)),
    (1000 * sec, quiet 6 [], fun t p => regime p == Rg.sync && rgPhase p == 0 && decide (p.rgm.enteredAt + tookN p A.SWG_SYNC_TMO * ms ≤ t)),
    (100 * sec, withRgm (fun g => { g with syncSince := some 0 }) (quiet 6 []),
      fun t p => regime p == Rg.sync && rgPhase p == 0 && decide (p.rgm.syncSince = some 0 ∧ 0 + tookN p A.SWG_SYNC_DWELL * ms ≤ t)),
    (1000 * sec, quiet 8 [], fun t p => regime p == Rg.stopping && rgPhase p == 0 && p.rgm.rampEnd.isNone && decide (p.rgm.enteredAt + tookN p A.SWG_STOP_TMO * ms ≤ t)),
    (100 * sec, withRgm (fun g => { g with rideOutSince := some 0 }) (quiet 7 []),
      fun t p => regime p == Rg.forming && !fbit p F.PCT_REGIME_RIDE && decide (p.rgm.rideOutSince = some 0 ∧ 0 + tookN p A.SWG_RIDE_TDET * us ≤ t)),
    (1000 * sec, withRgm (fun g => { g with rideInSince := some 0 }) (quiet 7 [(F.PCT_REGIME_RIDE, 1)]),
      fun t p => regime p == Rg.forming && fbit p F.PCT_REGIME_RIDE && decide (p.rgm.rideInSince = some 0 ∧ 0 + tookN p A.SWG_RIDE_TREC * ms ≤ t))].map
    fun x => (x.1, x.2.1, fun t p => x.2.2 t p && ceRuns p && !spbDemands p && latched p == 0 && p.rgm.dkhStop.isNone)) := running_of (by decide +kernel)

theorem witness_BreakerAndBlackStart : Running [
    (5, withRgm (fun g => { g with closeAt := some 5 }) (quiet 4 []), fun t p => decide (p.rgm.closeAt = some t) && p.rgm.order.isNone),
    (100 * sec, withRgm (fun g => { g with order := some ⟨false, 0, none⟩ }) (quiet 4 []),
      fun t p => ceRuns p && decide (p.rgm.order = some ⟨false, 0, none⟩ ∧ 0 + fget p F.PCT_REGCFG_BRK_TMO * ms ≤ t)),
    (100 * sec, withRgm (fun g => { g with order := some ⟨false, 0, some ⟨0, 1, 1⟩⟩ }) (quiet 4 []),
      fun t p => ceRuns p && decide (p.rgm.order = some ⟨false, 0, some ⟨0, 1, 1⟩⟩ ∧ 0 + fget p F.PCT_REGCFG_BRK_TMO * ms ≤ t)),
    (5, withRgm (fun g => { g with waitEnd := some 5 }) (quiet 4 [(F.PCT_REGIME_PHASE, 1)]),
      fun t p => ceRuns p && !spbDemands p && latched p == 0 && p.rgm.dkhStop.isNone && regime p == Rg.ready && rgPhase p == 1 && decide (p.rgm.waitEnd = some t)),
    (ms, withRgm (fun g => { g with collSince := some 0 }) (quiet 5 []),
      fun t p => ceRuns p && !spbDemands p && latched p == 0 && regime p == Rg.energise && decide (p.rgm.collSince = some 0 ∧ 0 + ms ≤ t)),
    (2 * ms, withRgm (fun g => { g with belowSince := some 0 }) (quiet 7 []),
      fun t p => ceRuns p && !spbDemands p && latched p == 0 && regime p != Rg.ready && decide (p.rgm.belowSince = some 0 ∧ 0 + 2 * ms ≤ t)),
    (2 * ms, withRgm (fun g => { g with belowSince := none, aboveSince := some 0 }) (quiet 7 []),
      fun t p => ceRuns p && !spbDemands p && latched p == 0 && regime p != Rg.ready && p.rgm.belowSince.isNone && decide (p.rgm.aboveSince = some 0 ∧ 0 + 2 * ms ≤ t))] :=
  running_of (by decide +kernel)

theorem witness_EmbankmentAndModulatorSettingsComplete : Taken [
    (atRegime 2 [], Op.setPrediction, [0, 5, 0, 0] ++ zeros 24, fun b _ => decide (byteAt b 1 ≠ 4 ∧ byteAt b 1 ≠ 8 ∧ byteAt b 1 ≠ 16)),
    (atRegime 2 [], Op.setCarrier, zeros 36, fun b _ => byteAt b 0 == 0)] := taken_of (by decide +kernel)

theorem witness_LearnerAndGalleryCommandsComplete : Taken [
    (atRegime 2 [], Op.learnerStore, [3, 0, 0, 0], fun b _ => decide (byteAt b 0 = 0 ∨ byteAt b 0 = 3)),
    (atRegime 2 [], Op.learnerStore, [2, 0, 0, 0], fun b p => decide (byteAt b 0 = 2) && lrnOff p),
    ({ atRegime 2 [] with lrn := { (atRegime 2 []).lrn with stored := some section0 } }, Op.learnerStore, [1, 0, 0, 0],
      fun b p => decide (byteAt b 0 = 1) && lrnOff p && (goodSection p).isSome),
    (atRegime 2 [(F.LRN_STAT_STATE, 1)], Op.learnerStore, [1, 0, 0, 0], fun b p => decide (byteAt b 0 = 1) && !lrnOff p),
    (atRegime 2 [], Op.galleryControl, [0, 0, 0, 0], fun b p => byteAt b 0 == 0 && fget p F.GAL_STAT_STATE != Rec.triggered),
    (atRegime 2 [(F.GAL_STAT_STATE, 1)], Op.galleryControl, [1, 0, 0, 0], fun b p => byteAt b 0 == 1 && fget p F.GAL_STAT_STATE == Rec.armed),
    (atRegime 2 [(F.GAL_STAT_STATE, 2)], Op.galleryControl, [2, 0, 0, 0], fun b p => byteAt b 0 == 2 && fget p F.GAL_STAT_STATE == Rec.triggered),
    (atRegime 2 [], Op.galleryControl, [1, 0, 0, 0], fun b p => byteAt b 0 == 1 && fget p F.GAL_STAT_STATE != Rec.armed)] := taken_of (by decide +kernel)

theorem witness_EmbankmentToGalleryReadsComplete : Taken [
    (atRegime 2 [], Op.getEmbankment, [], fun _ _ => true), (atRegime 2 [], Op.getModulator, [], fun _ _ => true),
    (atRegime 2 [], Op.getLearner, [2, 0, 0, 0], fun b _ => decide (byteAt b 0 ≤ 2)),
    (atRegime 2 [(F.GAL_STAT_STATE, 3), (⟨A.GAL_ROWS, 31, 0⟩, 8)], Op.readGallery, leBytes 4 7 ++ leBytes 2 1 ++ zeros 2, fun b p =>
      fget p F.GAL_STAT_STATE == Rec.done && decide (4 * u16At b 4 * cfgGet p.gal F.GAL_CTRL_NPROBE ≤ 1000 ∧ u32At b 0 + u16At b 4 ≤ rdN p A.GAL_ROWS)),
    (atRegime 2 [], Op.readGallery, zeros 8, fun _ p => fget p F.GAL_STAT_STATE != Rec.done)] := taken_of (by decide +kernel)

/-- A polder with one leg changed. -/
def withLeg (k : Nat) (f : Leg → Leg) (p : Polder) : Polder := modLeg p k f

/-- A sample whose decision instant is 300 ns after it. -/
def sample0 : EmbSample := ⟨0, 300 * ns, 5, 3, 0, 0, true⟩

theorem witness_DecisionsAndLevelChanges : Running [
    (ms, setPhase (atRegime 4 []) 0 { phaseOf (atRegime 4 []) 0 with pend := [sample0] }, fun t p => decide ((phaseOf p 0).pend = [sample0] ∧ sample0.td ≤ t) && !embActive p &&
      (phaseOf p 0).coming.isEmpty),
    (ms, setPhase (atRegime 7 [(F.MOD_STAT_RUN, 1)]) 2 { phaseOf (atRegime 7 []) 2 with pend := [sample0, sample0], starting := true }, fun t p =>
      decide ((phaseOf p 2).pend = [sample0, sample0] ∧ sample0.td ≤ t) && embActive p && !(leg p 2).taken && (leg p 2).seq.isNone && (phaseOf p 2).starting &&
        (phaseOf p 2).coming.isEmpty),
    (ms, withLeg 0 (fun l => { l with sched := [⟨.zero, ms, .timer⟩] }) (atRegime 7 [(F.MOD_STAT_RUN, 1)]), fun t p =>
      decide ((leg p 0).sched = [⟨.zero, ms, .timer⟩] ∧ earliest p 0 ms ≤ t ∧ (leg p 0).level ≠ .zero) && (leg p 0).refresh.isNone && (leg p 0).trans.isNone &&
        (leg p 0).seq.isNone && fbit p F.MOD_STAT_RUN),
    (ms, withLeg 0 (fun l => { l with sched := [⟨.zero, ms, .timer⟩], moved := true, lastMove := ms }) (atRegime 7 [(F.MOD_STAT_RUN, 1)]), fun t p =>
      decide ((leg p 0).sched = [⟨.zero, ms, .timer⟩] ∧ t < earliest p 0 ms) && (leg p 0).refresh.isNone && (leg p 0).trans.isNone && (leg p 0).seq.isNone && fbit p F.MOD_STAT_RUN),
    (5, withLeg 3 (fun l => { l with trans := some (1, 5) }) (atRegime 7 []), fun t p => decide ((leg p 3).trans = some (1, t)))] := running_of (by decide +kernel)

/-- A leg at the low level that goes high: an outgoing and an incoming switch. -/
theorem witness_DeadTimeSeparatesSwitches : ∀ p, p = atRegime 7 [(⟨A.MOD_SW, 3, 0⟩, 8)] →
    ((swOf p 0 ^^^ levelSw p 0 .pos) &&& swOf p 0 ≠ 0 ∧ (swOf p 0 ^^^ levelSw p 0 .pos) &&& levelSw p 0 .pos ≠ 0) ∧ threeLevel p 3 = false ∧
      (swOf (putEdge 3 0 1 0 0 p) 3).testBit 0 = true ∧ swOf (putEdge 0 0 8 0 0 p) 0 = swOf p 0 ∧ swOf (putEdge 0 0 0 0 0 p) 0 ≠ swOf p 0 := by
  rintro p rfl; decide +kernel

/-- A leg of three levels: S1 is on with S2 alone, and S4 with S3 alone. -/
theorem witness_InterlockOfThreeLevels : ∀ p, p = { atRegime 7 [] with emb := { (atRegime 7 []).emb with cfg := [(A.EMB_CTRL, rd (atRegime 7 [(F.EMB_CTRL_TOPO, 1)]) A.EMB_CTRL)] } } → threeLevel p 0 = true ∧
    (swOf (putEdge 0 0 3 0 0 p) 0).testBit 0 = true ∧ (swOf (putEdge 0 0 12 0 0 p) 0).testBit 3 = true := by rintro p rfl; decide +kernel

theorem witness_ModulatorTimersAndSafeState : Running [
    (ms, withLeg 0 (fun l => { l with timer := some ⟨0, 1, none⟩ }) (atRegime 7 [(F.MOD_CTRL_MODE, 1)]), fun t p =>
      decide ((leg p 0).timer = some ⟨0, 1, none⟩ ∧ 1 ≤ t ∧ modMode p = Mode.cot ∧ (leg p 0).level ≠ lowLevel p 0 ∧ (leg p 0).sched = [])),
    (ms, withLeg 0 (fun l => { l with timer := some ⟨0, 1, none⟩ }) (atRegime 7 [(F.MOD_CTRL_MODE, 2)]), fun t p =>
      decide ((leg p 0).timer = some ⟨0, 1, none⟩ ∧ 1 ≤ t ∧ modMode p = Mode.cft ∧ (leg p 0).level ≠ highLevel p 0 ∧ (leg p 0).sched = [])),
    (ms, withLeg 0 (fun l => { l with timer := some ⟨0, 9, some 5⟩ }) (atRegime 7 [(F.MOD_CTRL_MODE, 1), (F.MOD_CTRL_UPD, 1)]), fun t p =>
      decide ((leg p 0).timer = some ⟨0, 9, some 5⟩ ∧ 5 ≤ t) && fbit p F.MOD_CTRL_UPD),
    (ms, { atRegime 7 [] with mdl := { (atRegime 7 []).mdl with carrier := some 0 } }, fun t p => decide (p.mdl.carrier = some 0 ∧ 0 + p.mdl.per.inForce * bin ≤ t)),
    (ms, { atRegime 7 [(F.MOD_CTRL_MODE, 0), (F.MOD_CTRL_UPD, 1), (F.MOD_CTRL_AUX_MODE, 1)] with mdl := { (atRegime 7 []).mdl with carrier := some 0, centreDue := true } }, fun t p =>
      decide (p.mdl.carrier = some 0 ∧ 0 + p.mdl.per.inForce * bin / 2 ≤ t ∧ modMode p ≠ Mode.cpwm ∧ fget p F.MOD_CTRL_AUX_MODE = 1) && fbit p F.MOD_CTRL_UPD && p.mdl.centreDue),
    (1000 * sec, withLeg 0 (fun l => { l with highSince := some 0 }) (atRegime 7 [(F.MOD_CTRL_BS_EN, 1)]), fun t p =>
      decide ((leg p 0).highSince = some 0 ∧ 0 + rdN p A.MOD_BS_TMAX * us ≤ t) && getBit p F.MOD_CTRL_BS_EN 0 && (leg p 0).trans.isNone && (leg p 0).seq.isNone &&
        (leg p 0).refresh.isNone && !downBy p 0 t),
    (5, withLeg 0 (fun l => { l with refresh := some ⟨0, 1, 5, 1, 2⟩ }) (atRegime 7 []), fun t p => decide ((leg p 0).refresh = some ⟨0, 1, t, 1, 2⟩)),
    (5, withLeg 0 (fun l => { l with refresh := some ⟨0, 2, 5, 1, 2⟩ }) (atRegime 7 []), fun t p => decide ((leg p 0).refresh = some ⟨0, 2, t, 1, 2⟩)),
    (5, withLeg 0 (fun l => { l with refresh := some ⟨0, 3, 5, 1, 2⟩ }) (atRegime 7 []), fun t p => decide ((leg p 0).refresh = some ⟨0, 3, t, 1, 2⟩)),
    (5, withLeg 0 (fun l => { l with seq := some ⟨some 5, 9⟩ }) (atRegime 9 []), fun t p => decide ((leg p 0).seq = some ⟨some t, 9⟩) && [1, 2, 3].all fun k => (leg p k).seq.isNone),
    (5, { atRegime 9 [] with mdl := { (atRegime 9 []).mdl with sequencing := true } }, fun t p =>
      p.mdl.sequencing && ([0, 1, 2, 3].all fun k => seqOver t (leg p k)) && p.dike.l2Leg.isNone),
    (5 * us, atRegime 7 [(F.MOD_CTRL_MODE, 0), (F.MOD_STAT_RUN, 1)], fun t p =>
      decide (modMode p ≠ Mode.cpwm ∧ (leg p 0).refsUntil + 5 * us ≤ t) && fbit p F.MOD_STAT_RUN && !(leg p 0).taken && (leg p 0).seq.isNone)] := running_of (by decide +kernel)

theorem witness_AcquisitionSettingsComplete : Taken [
    (atRegime 2 [], Op.setComparator, [6] ++ zeros 11, fun b _ => decide (5 < byteAt b 0)),
    (atRegime 2 [], Op.setCapture, [16] ++ zeros 57 ++ leBytes 4 1000000000 ++ zeros 6, fun b _ => decide (999999999 < u32At b 58))] := taken_of (by decide +kernel)

theorem witness_AcquisitionControlsAndReadsComplete : Taken [
    (atRegime 2 [], Op.runInputTest, [0, 64] ++ zeros 6 ++ leBytes 4 100000, fun b p => decide (1 ≤ u32At b 8 ∧ u32At b 8 ≤ 100000) &&
      decide ((List.range 15).filter (fun j => (u16At b 0 % 32768).testBit j) = [14]) &&
      takesB p [(A.AFE_TEST, BitVec.allOnes 32, testWord 14 ((testLevels 14).getD 0 0))]),
    (atRegime 2 [], Op.runInputTest, [0, 128] ++ zeros 6 ++ leBytes 4 1, fun b _ => decide (1 ≤ u32At b 8 ∧ u32At b 8 ≤ 100000 ∧ u16At b 0 % 32768 = 0)),
    (atRegime 2 [], Op.runInputTest, zeros 12, fun b _ => u32At b 8 == 0),
    (atRegime 2 [], Op.getAcquisition, [], fun _ _ => true), (atRegime 2 [], Op.getMetering, [], fun _ _ => true),
    (atRegime 2 [], Op.captureControl, zeros 16, fun b p => byteAt b 0 == 0 && u48At b 4 == 0 && u32At b 10 == 0 && capState p != Rec.triggered && !capTapOff p),
    (atRegime 2 [(F.CAP_STAT_STATE, 1)], Op.captureControl, [1] ++ zeros 15, fun b p => byteAt b 0 == 1 && capState p == Rec.armed),
    (atRegime 2 [(F.CAP_STAT_STATE, 2)], Op.captureControl, [2] ++ zeros 15, fun b p => byteAt b 0 == 2 && capState p == Rec.triggered),
    (atRegime 2 [], Op.captureControl, [2] ++ zeros 15, fun b p => byteAt b 0 == 2 && capState p == Rec.idle),
    (atRegime 2 [(F.CAP_STAT_STATE, 3), (⟨A.CAP_ROWS, 31, 0⟩, 8)], Op.readCapture, zeros 4 ++ leBytes 2 1 ++ zeros 2, fun b p =>
      capState p == Rec.done && u16At b 4 == 1 && decide (u32At b 0 + 1 ≤ rdN p A.CAP_ROWS * capRowWords p)),
    (atRegime 2 [], Op.getStairs, [], fun _ _ => true), (atRegime 2 [], Op.getSluice, [7, 0, 0, 0], fun b _ => decide (byteAt b 0 ≤ 7))] := taken_of (by decide +kernel)

theorem witness_SlotsAndSamples : Running [
    (0, { atRegime 2 [] with afe := { (atRegime 2 []).afe with frameAt := 0, slot := 15 } }, fun t p => decide (p.afe.frameAt + p.afe.slot * 100 * ns ≤ t + 1500 * ns) && !abandoned p (1500 * ns) && p.afe.restart.isNone),
    (100 * ns, { atRegime 2 [] with afe := { (atRegime 2 []).afe with frameAt := 0, slot := 1, restart := some (150 * ns) } },
      fun t p => decide (p.afe.frameAt + p.afe.slot * 100 * ns ≤ t) && abandoned p (100 * ns) && p.afe.slot != 0),
    (150 * ns, { atRegime 2 [] with afe := { (atRegime 2 []).afe with frameAt := 0, slot := 1, restart := some (150 * ns) }, mdl := { (atRegime 2 []).mdl with carrier := some 0 } },
      fun t p => decide (p.afe.restart = some t ∧ p.afe.frameAt ≠ t ∧ p.afe.frameAt + 1600 * ns ≠ t) && carrierOn p && !eventDue p t),
    (200 * ns, { atRegime 2 [] with afe := { (atRegime 2 []).afe with frameAt := 0, slot := 2, restart := some (150 * ns) }, mdl := { (atRegime 2 []).mdl with carrier := some 0 } },
      fun t p => let q := { p with afe := { p.afe with restart := none, frameAt := 150 * ns, slot := 0 } }
        decide (p.afe.restart = some (150 * ns) ∧ 150 * ns ≤ p.afe.frameAt + p.afe.slot * 100 * ns ∧ p.afe.frameAt + p.afe.slot * 100 * ns ≤ t ∧ p.afe.frameAt ≠ 150 * ns ∧
          p.afe.frameAt + 1600 * ns ≠ 150 * ns) && carrierOn p && !eventDue p (150 * ns) && !abandoned q (150 * ns)),
    (5, { atRegime 2 [(F.AFE_STAT_SETTLING, 1)] with afe := { (atRegime 2 []).afe with settleEnd := 5 } }, fun t p => fbit p F.AFE_STAT_SETTLING && decide (p.afe.settleEnd ≤ t)),
    (0, atRegime 2 [], fun t p => p.afe.shadow.isNone && p.afe.released.isNone && decide (p.afe.fastNext ≤ t))] := running_of (by decide +kernel)

/-- Polder A under an input test that stands at a level with its 64 samples. -/
def inTest (l : List Nat) (level : Nat) : Polder := let p := atRegime 2 []
  { p with afe := { p.afe with test := some ⟨l, level, 0, [], [], 0, 1, 1, ⟨0, Op.runInputTest, 1⟩, false, 64, 0, 0⟩ } }

theorem witness_ComparatorsAndInputTest : Running [
    (0, atRegime 2 [(F.AFE_CMP_CFG_FILT 0, 4)], fun _ p => decide (3 < fget p (F.AFE_CMP_CFG_FILT 0))),
    (0, { atRegime 2 [(F.AFE_CMP_CFG_FILT 0, 0)] with afe := { (atRegime 2 []).afe with released := some (cmpInput (atRegime 2 []) 0, 1) } }, fun _ p =>
      cmpMasked 0 p && decide (fget p (F.AFE_CMP_CFG_FILT 0) ≤ 4 ∧ cmpHi p 0 * cmpStep p 0 < cmpVolt p 0 2000000)),
    (0, atRegime 2 [(F.AFE_STAT_SETTLING, 1), (F.AFE_CMP_CFG_FILT 5, 0)], fun t p => !cmpMasked 5 p && !(vget p.afe.cmps 5 {}).acting &&
      cmpBlanked t 5 (putBit p F.AFE_CMP_STAT_OUT 5 true) && decide (fget p (F.AFE_CMP_CFG_FILT 5) ≤ 0 ∧ cmpVolt p 5 (-3000000) < cmpLo p 5 * cmpStep p 5)),
    (100 * sec, atRegime 2 [(F.AFE_STAT_SETTLING, 0), (F.AFE_CMP_CFG_EN 0, 1)], fun t p => fbit p (F.AFE_CMP_CFG_EN 0) && !cmpMasked 0 p && !(vget p.afe.cmps 0 {}).acting &&
      !cmpBlanked t 0 (putBit p F.AFE_CMP_STAT_OUT 0 true) && decide (fget p (F.AFE_CMP_CFG_FILT 0) ≤ 15 ∧ cmpHi p 0 * cmpStep p 0 < cmpVolt p 0 2000000)),
    (100 * sec, atRegime 2 [(F.AFE_STAT_SETTLING, 0), (F.AFE_CMP_STAT_OUT, 1), (F.AFE_CMP_CFG_EN 0, 1)], fun t p => getBit p F.AFE_CMP_STAT_OUT 0 && fbit p (F.AFE_CMP_CFG_EN 0) && !cmpBlanked t 0 p &&
      !(vget p.afe.cmps 0 {}).acting && !cmpMasked 0 p),
    (0, atRegime 2 [(F.AFE_CMP_THR_HI 0, 100), (F.AFE_CMP_THR_LO 0, 156)], fun _ p =>
      decide (cmpVolt p 0 0 ≤ (cmpHi p 0 - 1) * cmpStep p 0 ∧ (cmpLo p 0 + 1) * cmpStep p 0 ≤ cmpVolt p 0 0)),
    (10 * us, inTest [0] 0, fun _ p => (p.afe.test.map fun x => x.inputs == [0] && decide (64 ≤ x.count) && decide (x.level + 1 < (testLevels 0).length)) == some true),
    (10 * us, inTest [3, 7] 100, fun _ p => (p.afe.test.map fun x => x.inputs == [3, 7] && decide (64 ≤ x.count ∧ (testLevels 3).length ≤ x.level + 1)) == some true),
    (10 * us, inTest [14] 100, fun _ p => (p.afe.test.map fun x => x.inputs == [14] && decide (64 ≤ x.count ∧ (testLevels 14).length ≤ x.level + 1)) == some true)] :=
  running_of (by decide +kernel)

/-- A polder with its lanes changed. -/
def withLane (f : LaneState → LaneState) (p : Polder) : Polder := { p with flt := { p.flt with lane := f p.flt.lane } }

/-- Polder A that has handed over a sampled value of instant 0. -/
def published : Polder := let p := atRegime 2 []
  { p with flt := { p.flt with svOut := [⟨0, 0, [], 0⟩] } }

theorem witness_MeteringAndSampledValues : Running [
    (0, atRegime 2 [(F.FLT_STAT_MPATH, 0)], fun _ p => !fbit p F.FLT_STAT_MPATH),
    (0, withLane (fun l => { l with cycles := [⟨1, 0, 255, 256, false⟩], vals := Vector.replicate 11 (List.replicate 256 (0, 0)) }) (atRegime 2 [(F.FLT_STAT_BLKCYC, 0)]), fun _ p =>
      ceRuns p && cycleReady p.flt.lane && (p.flt.lane.cycles.map (·.changes)) == [false] && decide (fget p F.FLT_STAT_BLKCYC + 1 < rdN p A.FLT_MAVG)),
    (0, withLane (fun l => { l with cycles := [⟨1, 0, 255, 256, true⟩], vals := Vector.replicate 11 (List.replicate 256 (0, 0)) }) (atRegime 2 [(F.FLT_STAT_BLKCYC, 0)]), fun _ p =>
      ceRuns p && cycleReady p.flt.lane && (p.flt.lane.cycles.map (·.changes)) == [true]),
    (0, withLane (fun l => { l with sv := Vector.replicate 6 [(7, 0, 0)] }) (atRegime 2 [(F.FLT_CTRL_SV_EN, 1)]), fun _ p =>
      fbit p F.FLT_CTRL_SV_EN && [0, 1, 2, 3, 4, 5].all fun j => decide (vget (svAligned p.flt.lane) j [] ≠ []))] ∧
    Found [(up published, 0, fun s t => awake s.polA && s.hall.up && (s.polA.flt.svOut.map (·.at')) == [0] && !listening s && decide (t ≤ 0 + 250 * us)),
      (up published, sec, fun s t => awake s.polA && s.hall.up && (s.polA.flt.svOut.map (·.at')) == [0] && decide (0 + 250 * us < t))] :=
  ⟨running_of (by decide +kernel), found_of (by decide +kernel)⟩

/-- Polder A whose capture engine was armed with fields set. -/
def armed (l : List (Fld × Nat)) : Polder := capArm (atRegime 2 l)

theorem witness_CapturePinsTimeAndArming : Running [
    (0, armed [(F.CAP_CTRL_TSRC, 6)], fun t p => decide (fsOf (cfgN (capRec p) A.CAP_TT_SL + 4294967296 * (cfgN (capRec p) A.CAP_TT_SH % 65536)) (cfgN (capRec p) A.CAP_TT_NS) ≤ presented p t) &&
      cfgGet (capRec p) F.CAP_CTRL_TSRC == 6 && capState p == Rec.armed),
    (0, armed [(F.CAP_CTRL_FIRE_IN, 1)], fun _ p => capState p == Rec.armed && !p.cap.driving && cfgGet (capRec p) F.CAP_CTRL_FIRE_IN == 1),
    (0, atRegime 2 [(F.CAP_CTRL_ROLE, 2)], fun _ p => !p.cap.driving && fget p F.CAP_CTRL_ROLE == 2 && capState p == Rec.idle),
    (5, { atRegime 2 [] with cap := { (atRegime 2 []).cap with pulseEnd := some 5 } }, fun t p => decide (p.cap.pulseEnd = some t) && capRole p != 1),
    (0, atRegime 2 [(F.CAP_CTRL_ARMPIN, 1)], fun _ p => fbit p F.CAP_CTRL_ARMPIN),
    (0, atRegime 2 [(F.CAP_CTRL_TAP, 2), (F.SWG_STAT_RATE, 1)], fun _ p => fget p F.CAP_CTRL_TAP == 2 && fget p F.SWG_STAT_RATE != 0),
    (0, atRegime 2 [(F.CAP_CTRL_TAP, 2)], fun _ p => capState p != Rec.triggered && fget p F.SWG_STAT_RATE == 0),
    (0, atRegime 2 [(F.CAP_STAT_STATE, 2)], fun _ p => capState p == Rec.triggered)] := running_of (by decide +kernel)

/-- Polder A with sluice 0 open and owned by session 0. -/
def opened : Polder := setSlu (atRegime 2 []) 0 { st := .opened }

theorem witness_SluiceCommandsComplete : Taken [
    (atRegime 2 [], Op.sluiceOpen, [], fun _ p => decide (sluFree p = some 0)),
    ((List.range 8).foldl (fun p k => setSlu p k { st := .opened }) (atRegime 2 []), Op.sluiceOpen, [], fun _ p => decide (sluFree p = none)),
    (opened, Op.sluiceStage, [0, 1, 0, 0] ++ leBytes 4 A.SWG_PREF ++ leBytes 4 4294967295 ++ leBytes 4 0, fun b p =>
      decide (byteAt b 0 = 0 ∧ byteAt b 1 = 1 ∧ (slu p 0).st = .opened ∧ (slu p 0).owner = 0 ∧ (slu p 0).entries.length + (stagedEntries b).length ≤ 64) &&
        stageStatus p (slu p 0).entries (stampFrom p.sts.stamp (stagedEntries b)) == Status.ok),
    (opened, Op.sluiceCommit, zeros 12, fun b p => decide (u48At b 2 = 0 ∧ u32At b 8 = 0 ∧ (slu p 0).st = .opened ∧ (slu p 0).owner = 0) &&
      (conflicts p 0 0 (tblAt p.tim 0 / (cyc : Nat))).isEmpty && (checkReason p (slu p 0) [] (quality p == 3)).isNone),
    (setSlu (atRegime 2 [(F.CLK_STAT_SRC, 0)]) 0 { st := .opened }, Op.sluiceCommit, [0, 1] ++ leBytes 6 1 ++ zeros 4, fun b p =>
      decide (u48At b 2 = 1 ∧ u32At b 8 = 0 ∧ (slu p 0).st = .opened ∧ (slu p 0).owner = 0 ∧ presented p 0 + (20 * us : Nat) ≤ ((1000000000 * ns : Nat) : Int) ∧
        ((1000000000 * ns : Nat) : Int) ≤ presented p 0 + (86400 * sec : Nat)) && onPll p && (conflicts p 0 0 (commitCycle p 0 1000000000)).isEmpty),
    (setSlu (atRegime 2 [(F.CLK_STAT_SRC, 1)]) 0 { st := .opened }, Op.sluiceCommit, [0, 0] ++ leBytes 6 1 ++ zeros 4, fun b p =>
      decide (u48At b 2 ≠ 0 ∧ u32At b 8 ≤ 999999999 ∧ (slu p 0).st = .opened ∧ (slu p 0).owner = 0) && !onPll p),
    (opened, Op.sluiceAbort, zeros 4, fun b p => decide (byteAt b 0 = 0 ∧ (slu p 0).st ≠ .free ∧ (slu p 0).owner = 0)),
    (setSlu (atRegime 2 []) 7 { st := .scheduled, owner := 3 }, Op.sluiceAbort, [7, 0, 0, 0], fun b p => decide (byteAt b 0 = 7 ∧ (slu p 7).st = .scheduled ∧ (slu p 7).owner ≠ 0)),
    (setSlu (atRegime 2 []) 7 { st := .opened, owner := 3 }, Op.sluiceAbort, [7, 0, 0, 0], fun b p => decide (byteAt b 0 = 7 ∧ (slu p 7).st = .opened ∧ (slu p 7).owner ≠ 0)),
    (atRegime 2 [], Op.sluiceAbort, zeros 4, fun b p => decide ((slu p (byteAt b 0)).st = .free))] := taken_of (by decide +kernel)

theorem witness_SluicesStageAndAbortWhole : (sluStage 0 0 [(A.SWG_PREF, 0xFFFFFFFF#32, 0)] opened).1 = Status.ok ∧
    (sluStage 0 0 [(A.SWG_STAT, 0xFFFFFFFF#32, 0)] opened).1 ≠ Status.ok ∧ (slu opened 0).st ≠ .free ∧ (slu opened 1).st = .free := by decide +kernel

theorem witness_SluiceEvents : Running [
    (2 * sec, setSlu (atRegime 2 []) 0 { st := .scheduled, commitAt := 1 }, fun t p => decide ((slu p 0).st = .scheduled ∧ (((slu p 0).commitAt * ns : Nat) : Int) ≤ presented p t + (2 * us : Nat)) &&
      (checkReason (setSlu p 0 { slu p 0 with st := .check }) (slu p 0) (earlierEntries (setSlu p 0 { slu p 0 with st := .check }) 0 (slu p 0).commitAt) (quality p == 3)).isNone),
    (2 * sec, setSlu (atRegime 2 []) 7 { st := .scheduled, commitAt := 1, timed := true, reqGood := true }, fun t p =>
      decide ((slu p 7).st = .scheduled ∧ (((slu p 7).commitAt * ns : Nat) : Int) ≤ presented p t + (2 * us : Nat)) &&
      (checkReason (setSlu p 7 { slu p 7 with st := .check }) (slu p 7) (earlierEntries (setSlu p 7 { slu p 7 with st := .check }) 7 (slu p 7).commitAt) (quality p == 3)).isSome),
    (2 * sec, setSlu (follow (2 * sec) (atRegime 2 [])) 0 { st := .check, commitAt := 1 }, fun t p => let f := follow t p
      decide ((slu f 0).st = .check ∧ commitCycle f t (slu f 0).commitAt < tblAt f.tim t / (cyc : Nat)) && (conflicts f t 0 (commitCycle f t (slu f 0).commitAt)).isEmpty),
    (10000 * sec, setSlu (atRegime 2 []) 0 { st := .opened }, fun t p => decide ((slu p 0).st = .opened ∧ (slu p 0).lastUse + tookN p A.STS_IDLE_TMO * ms ≤ t))] := running_of (by decide +kernel)

theorem witness_ProtectionSettingsComplete : Taken [
    (atRegime 2 [], Op.setSafety, safetySet (atRegime 2 []), fun b p => takesB p (safetyWrites b))] := taken_of (by decide +kernel)

/-- Polder A with its safe pulse block's data changed. -/
def withSpb (f : SpbState → SpbState) (p : Polder) : Polder := { p with spb := f p.spb }

/-- Polder A with a gate link changed. -/
def withLink (n : Nat) (f : Link → Link) (p : Polder) : Polder := setLink p n (f (linkOf p n))

theorem witness_ProtectionControlsComplete : Taken [
    (atRegime 2 [], Op.clearTrips, leBytes 2 16383 ++ zeros 2, fun b p => takesB p (entriesOf [part F.DIK_CLR_BITS (u16At b 0 % 16384)])),
    (atRegime 7 [], Op.trip, [5, 0, 0, 0], fun _ _ => true),
    (atRegime 2 [(F.GLK_CFG_EN 3, 1)], Op.gateLinkControl, [3, 0, 0, 0], fun b p => byteAt b 0 == 3 && byteAt b 1 == 0 && linkEn p 3 && trainAllowed p),
    (atRegime 2 [(F.GLK_STAT_STATE 0, 6)], Op.gateLinkControl, [0, 1, 0, 0], fun b p => byteAt b 1 == 1 && linkUp p 0 && (linkOf p 0).out.isNone),
    (atRegime 2 [], Op.gateLinkControl, [0, 4, 0, 0], fun b p => byteAt b 1 == 4 && !linkUp p 0),
    (atRegime 2 [], Op.runSelfTest, [0, 0, 0, 0], fun b p => byteAt b 0 % 4 == 0 && p.dike.stestCmd.isNone && p.dike.cmpTest.isNone && p.dike.guPending == []),
    (atRegime 2 [(F.AFE_CMP_CFG_EN 0, 1), (F.AFE_CMP_THR_HI 0, 20), (F.AFE_CMP_THR_LO 0, 0)], Op.runSelfTest, [1, 0, 0, 0], fun b p => byteAt b 0 % 4 == 1 && p.dike.stestCmd.isNone &&
      p.dike.cmpTest.isNone && p.dike.guPending == [] && p.afe.test.isNone && !fbit p F.AFE_TEST_EN && nextCmp p 0 == some 0 && (nextLevel p 0 0).isSome),
    (atRegime 2 [(F.FIO_STAT_LPOK, 1)], Op.setOutputs, [15, 1, 0, 0], fun b p => byteAt b 0 % 16 != 0 &&
      takesB p [(A.FIO_DOCMD, wordN (byteAt b 0 % 16), wordN (byteAt b 1 % 16))]),
    (atRegime 2 [], Op.setOutputs, [16, 1, 0, 0], fun b _ => byteAt b 0 % 16 == 0),
    (atRegime 2 [], Op.clearFieldDiag, [1, 2, 3, 4], fun _ _ => true),
    (atRegime 2 [], Op.confirmSafety, [0, 0, 0, 0] ++ wBytes (spbCrc (atRegime 2 [])) ++ zeros 16, fun b p => byteAt b 0 == 0 && byteAt b 1 == 0 && wordN (u32At b 4) == spbCrc p),
    (atRegime 2 [], Op.confirmSafety, zeros 24, fun b p => byteAt b 0 == 0 && byteAt b 1 == 0 && wordN (u32At b 4) != spbCrc p),
    (quiet 2 [], Op.safetyAck, [], fun _ p => spbState p == 2),
    (withSpb (fun x => { x with confirmed := some [], loaded2 := true }) (wr (atRegime 2 [(F.FIO_STAT_LPOK, 1), (F.SPB_STAT_STATE, 1), (F.SPB_CFG_SP1_EN, 0), (F.SPB_CFG_SP2_EN, 0),
        (F.SPB_CFG_NET_EN, 0)]) A.SPB_CRC_OK (spbCrc (atRegime 2 [(F.SPB_CFG_SP1_EN, 0), (F.SPB_CFG_SP2_EN, 0), (F.SPB_CFG_NET_EN, 0)]))),
      Op.safetyAck, [], fun _ p => spbState p == 1 && demandsLow p == 0 && ackable p && decide ((spbSettle 0 (acknowledge 0 p).2).dike.genLow = 0)),
    (withSpb (fun x => { x with confirmed := some [] }) (wr (atRegime 2 []) A.SPB_CRC_OK (spbCrc (atRegime 2 []))), Op.setSafetyPassword,
      wBytes (spbCrc (atRegime 2 [])) ++ [0, 8, 0, 0] ++ zeros 16 ++ List.replicate 8 0x41 ++ zeros 8, fun b p => byteAt b 4 == 0 && byteAt b 5 == 8 &&
        passOk ((b.drop 24).take (byteAt b 5)) && p.spb.lockEnd.isNone && p.spb.password.isNone && !(demandsLow p).testBit 3 && wordN (u32At b 0) == rd p A.SPB_CRC_OK)] := taken_of (by decide +kernel)

theorem witness_ProtectionReadsComplete : Taken [
    (atRegime 2 [], Op.getDike, [], fun _ _ => true), (atRegime 2 [], Op.getGateLinks, [], fun _ _ => true), (atRegime 2 [], Op.getFieldIo, [], fun _ _ => true),
    (atRegime 2 [], Op.getFieldEvents, [63, 0, 0, 0], fun b _ => decide (1 ≤ byteAt b 0 ∧ byteAt b 0 ≤ 63)), (atRegime 2 [], Op.getSafety, [], fun _ _ => true),
    (atRegime 2 [], Op.readSafetyLog, [63, 32, 0, 0], fun b _ => decide (byteAt b 0 ≤ 63 ∧ 1 ≤ byteAt b 1 ∧ byteAt b 1 ≤ 32))] := taken_of (by decide +kernel)

/-- The first bit of a tripped interval, and a later one. -/
theorem witness_LatchesRecordTheFirst : latched (atRegime 2 []) &&& 16383 = 0 ∧ latched (atRegime 2 []) = 0 ∧
    latched (wr (atRegime 2 []) A.DIK_TRIPSRC 1) ≠ 0 ∧ latched (wr (atRegime 2 []) A.DIK_TRIPSRC 1) &&& 8192 = 0 := by decide +kernel

/-- A source that is gone, and one that is still active. -/
theorem witness_ClearsAreAllOrNothing : ∀ p, p = wr (quiet 2 []) A.DIK_TRIPSRC 1 →
    ((∀ k < 14, (1 : Nat).testBit k = true → (latched p).testBit k = true →
      sourceActive p k = false ∧ (k ≠ Src.spb → vget p.dike.inactiveAt k 0 + rdN p A.DIK_SETTLE * ms ≤ 1000 * sec)) ∧
    ∀ q, q = { p with dike := { p.dike with tripiLow := true } } → ∃ k < 14, (1 : Nat).testBit k = true ∧ (latched q).testBit k = true ∧ sourceActive q k = true) := by
  rintro p rfl
  refine ⟨by decide +kernel, ?_⟩
  rintro q rfl
  exact ⟨0, by decide +kernel⟩

/-- The command that a message of a link answers. -/
def ref0 : CmdRef := ⟨0, Op.gateLinkControl, 1⟩

/-- The uplink word of slot 1 with a correct check, and one that has none. -/
def upWord : Word := wordN (64 + crc6 64#32)

/-- A frame window of a link is over that no frame has been sent in. -/
def frameDue (p : Polder) (n t : Nat) : Bool := decide ((linkOf p n).txEnd + framePeriod p n ≤ t / framePeriod p n * framePeriod p n)

theorem witness_GateLinkAndDikeEvents : Running [
    (10 * us, withLink 0 (fun l => { l with edges := [⟨5, 3, 0, 0⟩] }) (atRegime 2 [(F.GLK_STAT_STATE 0, 6)]), fun t p => decide (LinkSt.check ≤ linkState p 0) && carried p 0 &&
      frameDue p 0 t && decide ((linkOf p 0).edges = [⟨5, 3, 0, 0⟩]) && (fineOf p 0 (t / framePeriod p 0 * framePeriod p 0 - framePeriod p 0) ⟨5, 3, 0, 0⟩).isSome),
    (10 * us, withLink 3 (fun l => { l with edges := [⟨10 * us, 3, 0, 0⟩] }) (atRegime 2 [(F.GLK_STAT_STATE 3, 7)]), fun t p => decide (LinkSt.check ≤ linkState p 3) && carried p 3 &&
      frameDue p 3 t && (linkOf p 3).edges.head?.all (fun e => (fineOf p 3 (t / framePeriod p 3 * framePeriod p 3 - framePeriod p 3) e).isNone) && (linkOf p 3).txBytes == []),
    (10 * us, withLink 1 (fun l => { l with txBytes := [1#8, 2#8] }) (atRegime 2 [(F.GLK_STAT_STATE 1, 6)]), fun t p => decide (LinkSt.check ≤ linkState p 1) && carried p 1 &&
      frameDue p 1 t && (linkOf p 1).edges == [] && (linkOf p 1).txBytes == [1#8, 2#8]),
    (10 * us, atRegime 2 [(F.GLK_STAT_STATE 0, 2)], fun t p => frameDue p 0 t && linkState p 0 == LinkSt.search),
    (0, atRegime 2 [], fun t p => !frameDue p 0 t),
    (5, withLink 0 (fun l => { l with rxSeq := some 0 }) (atRegime 2 [(F.GLK_STAT_STATE 0, 6)]), fun _ p => decide (LinkSt.check ≤ linkState p 0) && bitsOf upWord 5 0 == crc6 upWord &&
      (linkOf p 0).rxSeq == some ((bitsOf upWord 8 6 + 7) % 8)),
    (5, atRegime 2 [(F.GLK_STAT_STATE 0, 5)], fun _ p => decide (LinkSt.check ≤ linkState p 0) && bitsOf (upWord ^^^ 1#32) 5 0 != crc6 (upWord ^^^ 1#32)),
    (5, withLink 0 (fun l => { l with holdExpired := true }) (atRegime 2 [(F.GLK_STAT_STATE 0, 6)]), fun _ p => linkUp p 0 && (linkOf p 0).holdExpired),
    (5, atRegime 2 [(F.GLK_STAT_STATE 0, 2)], fun _ p => linkState p 0 == LinkSt.search && trainValid ⟨true, 0x21, 1, 0x20, 0⟩ &&
      decide (fget p (F.GLK_CFG_VMIN 0) ≤ min (fget p (F.GLK_CFG_VMAX 0)) (0x21 / 16))),
    (5, withLink 0 (fun l => { l with trainFrames := 7, trainSent := 8 }) (atRegime 2 [(F.GLK_STAT_STATE 0, 3), (F.GLK_STAT_VER 0, 2)]), fun _ p => linkState p 0 == LinkSt.negotiate &&
      decide (7 ≤ (linkOf p 0).trainFrames ∧ 8 ≤ (linkOf p 0).trainSent) && trainValid ⟨true, 1, 18, 19, 0⟩ && 18 == 16 + fget p (F.GLK_STAT_VER 0)),
    (ms, atRegime 2 [(F.GLK_STAT_STATE 0, 2)], fun t p => linkState p 0 == LinkSt.search && decide ((linkOf p 0).trainSince + 100 * us ≤ t)),
    (sec, withLink 0 (fun l => { l with failedAt := some 0 }) (atRegime 2 [(F.GLK_STAT_STATE 0, 1), (F.GLK_CFG_EN 0, 1)]), fun t p =>
      decide ((linkOf p 0).failedAt = some 0 ∧ 0 + 10 * ms ≤ t ∧ linkState p 0 = LinkSt.down) && linkEn p 0 && trainAllowed p),
    (sec, withLink 0 (fun l => { l with out := some ⟨1, [], 0, 0, some ref0⟩ }) (atRegime 2 []), fun t p =>
      match (linkOf p 0).out with | some m => m.code == Msg.readId && m.purpose == 0 && m.cmd == some ref0 && decide (m.sentAt + 50 * us ≤ t) | none => false),
    (sec, { atRegime 2 [] with dike := { (atRegime 2 []).dike with l2Window := some (0, 2) } }, fun t p => decide (p.dike.l2Window = some (0, 2) ∧ 0 + 10 * us ≤ t)),
    (0, atRegime 2 [], fun _ p => !p.dike.tripiLow && decide (fget p F.DIK_CFG_TRIPI_FILT ≤ 255)),
    (0, atRegime 2 [(F.DIK_CFG_TRIPI_FILT, 8)], fun _ p => decide (7 < fget p F.DIK_CFG_TRIPI_FILT)),
    (sec, { atRegime 2 [] with dike := { (atRegime 2 []).dike with thermSince := #v[none, some 0] } }, fun t p => decide (vget p.dike.thermSince 1 none = some 0 ∧ 0 + ms ≤ t)),
    (sec, { atRegime 2 [(F.AFE_CMP_THR_HI 0, 20), (F.AFE_CMP_THR_LO 0, 0)] with dike := { (atRegime 2 []).dike with cmpTest := some ⟨0, 0, 0, false, false, 0, 0, 0⟩ } }, fun t p =>
      match p.dike.cmpTest with | some x => decide (x.since + 15 * us ≤ t) && (nextLevel p x.cmp (x.level + 1)).isSome | none => false)] := running_of (by decide +kernel)

theorem witness_FieldEvents : Running [
    (0, atRegime 2 [], fun t p => !(din p 7).raw && diCount p 7 t == 0),
    (sec, setDin 0 { raw := true } (atRegime 2 [(F.FIO_STAT_LPOK, 1), (F.FIO_DICFG_FILT 0, 5), (F.FIO_DICFG_EDGE 0, 1)]), fun t p => !(din p 0).filt && rawState p 0 && decide (0 < diTicks p 0) &&
      diCount p 0 t == diTicks p 0 && fget p (F.FIO_DICFG_EDGE 0) % 2 == 1 && decide (p.fio.queue.length < 64)),
    (sec, atRegime 2 [(F.FIO_STAT_LPOK, 1)], fun t p => lpOk p && (dout p 3).pulse.isNone && decide ((dout p 3).maskEnd + 4 * us ≤ t)),
    (5, modDout 3 (fun o => { o with maskEnd := 6 }) (atRegime 2 [(F.FIO_STAT_LPOK, 1)]), fun t p => lpOk p && decide (t < (dout p 3).maskEnd)),
    (5, wr (atRegime 2 [(F.FIO_STAT_LPOK, 1)]) A.FIO_DOCMD 8, fun _ p => lpOk p && stageOn .fgc4400 p 3),
    (5, modDout 3 (fun o => { o with shut := some 0 }) (atRegime 2 [(F.FIO_STAT_LPOK, 1)]), fun _ p => !stageOn .fgc4400 p 3),
    (sec, modDout 0 (fun o => { o with shut := some 0 }) (atRegime 2 [(F.FIO_DOCFG_RETRY 0, 1)]), fun t p => decide ((dout p 0).shut = some 0 ∧ 0 + 100 * ms ≤ t) && fbit p (F.FIO_DOCFG_RETRY 0)),
    (1000 * sec, modDout 0 (fun o => { o with onSince := some 0 }) (wr (atRegime 2 [(F.FIO_STAT_LPOK, 1), (F.FIO_DOCFG_TP_EN 0, 1)]) A.FIO_DOCMD 1), fun t p =>
      decide ((dout p 0).onSince = some 0 ∧ 0 + fget p (F.FIO_DOCFG_TP_INT 0) * sec ≤ t ∧ (dout p 0).notBefore ≤ t) && fbit p (F.FIO_DOCFG_TP_EN 0) && drivenNow p 0 &&
        [0, 1, 2, 3].all fun j => (dout p j).pulse.isNone),
    (sec, modDout 0 (fun o => { o with pulse := some 0 }) (atRegime 2 []), fun t p => decide ((dout p 0).pulse = some 0 ∧ 0 + fget p (F.FIO_DOCFG_TP_W 0) * us ≤ t) && !(dout p 0).discard),
    (sec, atRegime 2 [(F.FIO_STAT_LPOK, 0)], fun t p => !lpOk p && decide (p.fio.lpSince.getD 0 + 10 * ms ≤ t))] := running_of (by decide +kernel)

/-- A Stomet frame of the peer, with its check. -/
def frame0 : List Byte :=
  let b : List Byte := [1, 1] ++ leBytes 2 1 ++ leBytes 4 1 ++ zeros 28
  b ++ wBytes (crc32c b)

theorem witness_SafePulseBlockEvents : Running [
    (0, withSpb (fun x => { x with lane1 := true, lane2 := true }) (atRegime 2 []), fun _ p => p.spb.lane1 && p.spb.lane2 && (⟨true, true, false, 0, 0, 0⟩ : LaneIn).good && genMask p == 0),
    (sec, withSpb (fun x => { x with lane1 := true, lane2 := true }) (atRegime 2 []), fun t p => p.spb.lane1 && p.spb.lane2 &&
      (⟨true, true, false, 0, 0, 1⟩ : LaneIn).rb.testBit 0 != genHigh p 0 && decide (vget p.spb.genAt 0 0 + 5 * us ≤ t)),
    (sec, withSpb (fun x => { x with lane1 := true, lane2 := true, disagree2 := some 0 }) (atRegime 2 []), fun t p => p.spb.lane1 && p.spb.lane2 && decide (p.spb.disagree2 = some 0 ∧ 0 + 500 * us ≤ t)),
    (sec, withSpb (fun x => { x with lane1 := true, lane2 := true }) (atRegime 2 []), fun t p => p.spb.lane1 && p.spb.lane2 && decide (p.spb.heard2 + ms ≤ t)),
    (sec, withSpb (fun x => { x with lane1 := true, corrupt1 := true, confirmed := some [] }) (atRegime 2 []), fun _ p => p.spb.lane1 && p.spb.corrupt1 && p.spb.confirmed.isSome),
    (sec, setDin 7 { raw := true } (withSpb (fun x => { x with lane1 := true }) (atRegime 2 [(F.FIO_STAT_LPOK, 1)])), fun t p => p.spb.lane1 && rawState p 7 != getBit p F.SPB_STAT_INP 3 &&
      decide ((din p 7).rawAt + rdN p A.SPB_FILT * us ≤ t ∧ p.spb.laneAt + rdN p A.SPB_FILT * us ≤ t)),
    (100 * sec, withSpb (fun x => { x with disc := #v[none, some 0] }) (atRegime 2 []), fun t p => decide (vget p.spb.disc 1 none = some 0 ∧ 0 + rdN p A.SPB_DISC * ms ≤ t) &&
      !vget p.spb.discLatched 1 false),
    (0, withSpb (fun x => { x with testWanted := true, lane1 := true }) (atRegime 2 []), fun _ p => p.spb.testWanted && p.spb.test.isNone && p.dike.genLow == 0 && p.spb.lane1),
    (sec, withSpb (fun x => { x with test := some (6, 0) }) (atRegime 2 []), fun t p => decide (p.spb.test = some (6, 0) ∧ 0 + 200 * us ≤ t) &&
      [0, 1, 2, 3].all fun n => !linkLive p n || linkFollows p 6 0 n),
    (sec, withSpb (fun x => { x with test := some (7, 0) }) (atRegime 2 []), fun t p => decide (p.spb.test = some (7, 0) ∧ 0 + 100 * us ≤ t) &&
      [0, 1, 2, 3].all fun n => !linkLive p n || linkFollows p 7 0 n),
    (3600 * sec, atRegime 2 [], fun t p => decide (p.spb.ageAt + 3600 * sec ≤ t)),
    (5, withSpb (fun x => { x with lockEnd := some 5 }) (atRegime 2 []), fun t p => decide (p.spb.lockEnd = some t)),
    (sec, withSpb (fun x => { x with windows := [⟨1, frame0, 0, 0⟩] }) (atRegime 2 []), fun t p => decide (p.spb.windows = [⟨1, frame0, 0, 0⟩] ∧ 0 + rdN p A.SPB_CMPWIN * us ≤ t) && !fbit p F.SPB_CFG_CMPMODE),
    (100 * sec, withSpb (fun x => { x with lane1 := true }) (atRegime 2 [(⟨A.SPB_CONN, 31, 16⟩, 1)]), fun t p => rxUsed p && p.spb.lane1 && !p.spb.wdogDone &&
      decide (p.spb.lastAccepted + rdN p A.SPB_WD * ms ≤ t)),
    (1000 * sec, putBit (atRegime 2 []) F.SPB_STAT_NETUP 1 true, fun t p => getBit p F.SPB_STAT_NETUP 1 && decide (vget p.spb.heardAt 1 0 + rdN p A.SPB_NETDOWN * ms ≤ t)),
    (sec, withSpb (fun x => { x with upSince := #v[none, some 0] }) (atRegime 2 []), fun t p => decide (vget p.spb.upSince 1 none = some 0 ∧ 0 + sec ≤ t)),
    (100 * sec, withSpb (fun x => { x with lane1 := true, disagree := some 0 }) (atRegime 2 [(F.SPB_CFG_TX_EN, 1)]), fun t p => fbit p F.SPB_CFG_TX_EN && p.spb.lane1 &&
      !lanesAgree p && decide (p.spb.txAt + rdN p A.SPB_TXPER * ms ≤ t)),
    (100 * sec, withSpb (fun x => { x with lane1 := true, lane2 := true }) (atRegime 2 [(F.SPB_CFG_TX_EN, 1)]), fun t p => fbit p F.SPB_CFG_TX_EN && p.spb.lane1 && lanesAgree p &&
      decide (p.spb.txAt + rdN p A.SPB_TXPER * ms ≤ t))] ∧ Stands [
    (up (withSpb (fun x => { x with lane1 := true }) (atRegime 2 [])), 0, fun s t p => s.hall.up && p.spb.lane1 && !copyValid t 0 (zeros 40) (windowEnd t (netHeard t 0 p))),
    (up (withSpb (fun x => { x with lane1 := true, windows := [⟨1, frame0, 0, 0⟩] }) (atRegime 2 [(⟨A.SPB_PEERIP, 31, 0⟩, 7), (⟨A.SPB_CONN, 31, 0⟩, 65536)])), 0, fun s t p => s.hall.up && p.spb.lane1 && frame0.length == 40 &&
      copyValid t 7 frame0 (windowEnd t (netHeard t 1 p)) && frameSeq frame0 == 1 &&
        decide (((windowEnd t (netHeard t 1 p)).spb.windows.find? fun x => x.seq == frameSeq frame0) = some ⟨1, frame0, 0, 0⟩))] := ⟨running_of (by decide +kernel), stands_of (by decide +kernel)⟩

/-- Polder A with its time unit's data changed. -/
def withTim (f : TimState → TimState) (p : Polder) : Polder := { p with tim := f p.tim }

/-- A domain 0 that listens, and one that is LOCKED. -/
def domAt (st : Nat) : List (Fld × Nat) := [(F.TIM_STAT_ACT, 0), (F.TIM_STAT_DOM0, st), (F.CLK_STAT_SRC, 0)]

theorem witness_ClockAndTimeCommandsComplete : Taken [
    (atRegime 2 [], Op.setClock, leBytes 4 20000000 ++ zeros 8, fun b p => decide (10000000 ≤ u32At b 0 ∧ u32At b 0 ≤ 50000000 ∧ -500000 ≤ i32At b 4 ∧ i32At b 4 ≤ 500000) &&
      (let k := clkCodes (u32At b 0) (i32At b 4) ((byteAt b 8).testBit 1)
       admitsB p ((if k.1 = fget p F.CLK_CFG_NINT ∧ byteAt b 8 % 2 = fget p F.CLK_CFG_SEARCH then [] else [part F.CLK_CFG_SEARCH (byteAt b 8 % 2), part F.CLK_CFG_NINT k.1]) ++
          (if k.2 = fget p F.CLK_FRAC_FRAC then [] else [part F.CLK_FRAC_FRAC k.2]) ++
          (if u32At b 0 = rdN p A.CLK_FREF then [] else [whole A.CLK_FREF (u32At b 0)])))),
    (atRegime 2 [], Op.getClock, [], fun _ _ => true), (atRegime 2 [], Op.getTime, [], fun _ _ => true),
    (atRegime 2 [(F.CLK_STAT_SRC, 0)], Op.setTime, leBytes 6 1000000000 ++ leBytes 4 999999999 ++ zeros 2, fun b p => decide (u32At b 6 ≤ 999999999 ∧ qualityAt p 0 ≤ 1) && onPll p),
    (withTim (fun x => { x with everLocked := true }) (atRegime 2 (domAt 3)), Op.setTime, zeros 12, fun b p => decide (u32At b 6 ≤ 999999999 ∧ 1 < qualityAt p 0))] := taken_of (by decide +kernel)

/-- A Sync of domain 0 at port A, and an Announce. -/
def sync0 : SyncIn := ⟨0, 0, 7, 0, 1000, 5⟩
def ann0 : AnnounceIn := ⟨0, 0, 128#8, 6#8, 0#8, 0#16, 128#8, 7#64, 0#16, 9#64, 0⟩

theorem witness_ClockAndTimeEvents : Stands [
    (up (atRegime 2 [(F.CLK_STAT_SRC, 0)]), 0, fun _ _ p => onPll p),
    (up (atRegime 2 [(F.CLK_STAT_SRC, 1), (F.CLK_STAT_REFOK, 0)]), 0, fun _ _ p => !onPll p && !fbit p F.CLK_STAT_REFOK),
    (up (atRegime 2 [(F.CLK_STAT_STATE, 1)]), 0, fun _ _ p => fget p F.CLK_STAT_STATE == 1),
    (up (atRegime 2 [(F.CLK_STAT_STATE, 2)]), 0, fun _ _ p => fget p F.CLK_STAT_STATE == 2),
    (up (atRegime 2 [(F.CLK_STAT_STATE, 4), (F.CLK_STAT_REFOK, 1)]), sec, fun _ t p => fget p F.CLK_STAT_STATE == 4 && fbit p F.CLK_STAT_REFOK && decide (10 * ms ≤ t - p.clk.since)),
    (up { atRegime 2 [] with clk := { calibrating := true, everLocked := true } }, 0, fun _ _ p => p.clk.calibrating && p.clk.everLocked),
    (up (atRegime 2 []), 0, fun s _ _ => s.hall.up && (vget s.hall.pdAt 1 none).isNone),
    (up (atRegime 2 [(F.TIM_STAT_HALLOK, 1), (F.TIM_STAT_DOM0, 3)]), 3 * sec, fun _ t p => !p.tim.hallGone && decide (3 * sec ≤ t - strobeSince p) && domState p 0 == 3),
    (up (withTim (fun x => { x with hallGone := true }) (atRegime 2 [(F.TIM_STAT_DOM1, 1)])), 3 * sec, fun _ t p => p.tim.hallGone && decide (3 * sec ≤ t - strobeSince p) && domState p 1 == 1),
    (up (withTim (fun x => { x with strobes := [(1000, 5), (500, 2)], tb0 := { gm := some 7 } }) (atRegime 2 [(F.TIM_STAT_DOM0, 3), (F.TIM_STAT_PORT0, 1)])), 0, fun s t p =>
      let p1 := netHeard t 0 p
      s.hall.up && seState p == Eng.run && domOf p1 sync0.domain == some 0 && domState p1 0 == 3 && (baseOf p1 0).gm == some sync0.gm && domPort p1 0 == 1 &&
        decide (-3 ≤ sync0.interval ∧ sync0.interval ≤ 0) && (hallToTbl p1.tim.strobes sync0.rx).isSome),
    (up (atRegime 2 [(F.TIM_STAT_DOM0, 1)]), 0, fun s t p =>
      let p1 := netHeard t 0 p
      s.hall.up && seState p == Eng.run && domOf p1 ann0.domain == some 0 && domState p1 0 == 1 && ann0.interval == 0 && ([0, 1].all fun k => (vget (baseOf p1 0).seen k none).isNone) &&
        decide (ann0.cls.toNat ≤ fget p1 (F.TIM_DOMCFG_CLASSMAX 0))),
    (up (atRegime 2 [(F.TIM_STAT_DOM1, 2)]), 3 * sec, fun _ t p => domState p 1 == 2 && decide (3 * sec ≤ t - (baseOf p 1).lastHeard)),
    (up (atRegime 2 [(F.TIM_STAT_ACT, 1), (F.TIM_STAT_DOM0, 3)]), 0, fun _ t p => newActive t p == some 0),
    (up (atRegime 2 []), 0, fun _ t p => newActive t p == none && !stepDue t (qualityAt p t) p && decide (corrNow t p = 0)),
    (up (atRegime 2 [(F.TIM_PPSCFG_DIR, 1), (F.TIM_PPSCFG_QMIN, 0), (F.CLK_STAT_SRC, 0)]), 0, fun _ t p => fbit p F.TIM_PPSCFG_DIR && onPll p &&
      decide (fget p F.TIM_PPSCFG_QMIN ≤ qualityAt p t ∧ presented p t % (sec : Nat) ≤ (ns : Nat)) && p.tim.ppsHigh.isNone && !p.tim.stepsIn (tblAt p.tim t / (cyc : Nat))),
    (up (withTim (fun x => { x with stepCyc := some 0 }) (atRegime 2 [])), 0, fun _ t p => p.tim.stepsIn (tblAt p.tim t / (cyc : Nat))),
    (up (withTim (fun x => { x with ppsHigh := some 0 }) (atRegime 2 [])), 100 * sec, fun _ t p => decide (p.tim.ppsHigh = some 0 ∧ fget p F.TIM_PPSCFG_WIDTH * ms ≤ t - 0)),
    (up (atRegime 2 [(F.TIM_PPSCFG_DIR, 0)]), 0, fun _ _ p => !fbit p F.TIM_PPSCFG_DIR)] := stands_of (by decide +kernel)

/-- The bases 0 to 2 can become active in some state where C moves, and time stays as it was (R384). -/
theorem witness_PresentedTimeIsContinuous : presented (baseSwitch sec 1 (withTim (fun x => { x with tb0 := { val := 500 }, tb1 := { val := 900 } }) (atRegime 2 []))) sec =
    presented (withTim (fun x => { x with tb0 := { val := 500 }, tb1 := { val := 900 } }) (atRegime 2 [])) sec := by decide +kernel

/-- A HELLO of the SPI host. -/
def helloBytes : List Byte := leBytes 2 7 ++ [255] ++ zeros 21

theorem up_tokens : ∀ k l, vget (up (atRegime 2 [])).hall.tokens k none = some l → ∃ x ∈ (up (atRegime 2 [])).hall.sessions, x.idx = l.holder := by
  intro k l h
  have h' : vget (Vector.replicate 5 (none : Option Lease)) k none = some l := h
  unfold vget at h'
  rw [Vector.getElem?_replicate] at h'
  split at h' <;> cases h'

theorem witness_HallCommandsComplete : (∃ i, (up (atRegime 2 [])).hall.up = true ∧ (up (atRegime 2 [])).sessionsOk ∧ helloBytes.length = 24 ∧
      chooseVersion (u16At helloBytes 0) = some 0x21 ∧ byteAt helloBytes 2 = 255 ∧
      ((List.range 8).find? fun k => (sessOf (up (atRegime 2 [])).hall k).isNone) = some i ∧ noKeys (up (atRegime 2 [])).hall = true) ∧ Heard [
    (up (atRegime 2 []), Op.bye, [], fun _ _ => true),
    (up (atRegime 2 []), Op.tokenTake, [31, 0, 0, 0], fun b s => (tokensOf (byteAt b 0 % 32)).all fun k => ([PolderId.A, .B, .C, .D].all fun i => Part.has s.part i) &&
      (maskOf s.hall sess0).testBit k && (vget s.hall.tokens k none).isNone && roleOf s.hall sess0 != 0 && !(byteAt b 1).testBit 0),
    (upH fun h => { h with tokens := #v[none, some ⟨3, sec⟩, none, none, none] }, Op.tokenTake, [2, 0, 0, 0], fun b s => byteAt b 0 % 32 == 2 ^ 1 && (maskOf s.hall sess0).testBit 1 &&
      roleOf s.hall sess0 != 0 && !(byteAt b 1).testBit 0 &&
      (match vget s.hall.tokens 1 none with | some l => l.holder != sess0.idx | none => false)),
    (up (atRegime 2 []), Op.tokenRelease, [31, 0, 0, 0], fun _ _ => true), (up (atRegime 2 []), Op.subscribe, [15, 31, 0, 0], fun _ _ => true),
    (up (atRegime 2 []), Op.setNetwork, zeros 6 ++ [2, 0, 0xA8, 0xC0] ++ [0, 0xFF, 0xFF, 0xFF] ++ zeros 4 ++ leBytes 2 30 ++ zeros 8, fun b _ => byteAt b 0 % 2 == 0 &&
      rngOk 32 .ipmask (u32At b 10) && decide (3 ≤ u16At b 18 ∧ u16At b 18 ≤ 600 ∧ byteAt b 25 ≤ 2 ∧ byteAt b 26 ≤ 31) && [21, 22, 23, 24].all fun k => decide (byteAt b k ≤ 7)),
    (up (atRegime 2 []), Op.setSv, [4, 34] ++ leBytes 2 0x4000 ++ leBytes 2 511 ++ zeros 6 ++ List.replicate 36 0x41, fun b _ => decide (polderNo (byteAt b 0) = some .D) &&
      decide (1 ≤ byteAt b 1 ∧ byteAt b 1 ≤ 34 ∧ 0x4000 ≤ u16At b 2 ∧ u16At b 2 ≤ 0x7FFF ∧ u16At b 4 ≤ 511) && ((b.drop 12).take (byteAt b 1)).all printable),
    (up (atRegime 2 []), Op.setKey, [7, 2, 31, 0] ++ zeros 36, fun b _ => decide (byteAt b 0 ≤ 7 ∧ byteAt b 1 = 2) && sess0.key == []),
    (up (atRegime 2 []), Op.getHall, [], fun _ _ => true),
    (up (atRegime 2 []), Op.readWords, leBytes 4 (0x40000000 + A.SWG_SBASE) ++ leBytes 2 1 ++ zeros 2, fun b s => u16At b 4 == 1 && !absentWindow s.part (u32At b 0) 1 && unavail s .A == none && !rescue s.polA &&
      !(readRun 0 (.polder .A) (u16At b 4) (u32At b 0) s).1.2),
    (up (atRegime 2 []), Op.writeWords, leBytes 4 (0x40000000 + A.DIK_EVT) ++ leBytes 2 1 ++ zeros 2 ++ leBytes 4 2, fun b s => u16At b 4 == 1 && !absentWindow s.part (u32At b 0) 1 && unavail s .A == none && !rescue s.polA &&
      (writeRun 0 (.polder .A) (wordsAt b 8 (u16At b 4)) (u32At b 0) 0 s).1.2)] :=
  ⟨⟨1, by decide +kernel, ⟨by decide +kernel, by decide +kernel, up_tokens⟩, by decide +kernel, by decide +kernel, by decide +kernel, by decide +kernel, by decide +kernel⟩, heard_of (by decide +kernel)⟩

/-- A notification kept for session 0 is one that GET_NOTIFICATIONS finds. -/
theorem witness_GetNotifications : ∃ (s : State) (x : Session) (n : Note), s.hears Op.getNotifications (cmd [5, 0, 0, 0]) x ∧
    (x.notes.find? fun e => e.seq == u16At (cmd [5, 0, 0, 0]).payload 0) = some n :=
  ⟨upH fun h => { h with sessions := [{ sess0 with notes := [⟨5, 1, 0, 0, 0, []⟩] }] }, { sess0 with notes := [⟨5, 1, 0, 0, 0, []⟩] }, ⟨5, 1, 0, 0, 0, []⟩,
    ⟨by decide +kernel, by decide +kernel, lenOk_of (by decide +kernel)⟩, by decide +kernel⟩

/-- A GET_HALL of session 0 as the SPI host sends it. -/
def packet0 : List Byte :=
  let b : List Byte := [0x21, 0] ++ leBytes 2 Op.getHall ++ leBytes 2 1 ++ leBytes 2 0 ++ leBytes 4 sess0.id ++ zeros 4
  b ++ wBytes (crc32 b)

theorem witness_HallPortEvents : Found [
    (up (atRegime 2 []), 0, fun s t => s.hall.up && !listening (portHeard t 0 s)),
    (upH fun h => { h with spiRx := some (zeros 19) }, 0, fun s _ => s.hall.up && s.hall.spiRx == some (zeros 19) && decide ((zeros 19).length < 20)),
    (upH fun h => { h with spiRx := some packet0 }, 0, fun s _ => s.hall.up && s.hall.spiRx == some packet0 && decide ((headOf packet0).len ≤ 1024 ∧ packet0.length = 20 + (headOf packet0).len) &&
      !(headOf packet0).auth && u32At packet0 (16 + (headOf packet0).len) == (crc32 (packet0.take (16 + (headOf packet0).len))).toNat && (headOf packet0).op != Op.hello &&
        sessById s.hall (headOf packet0).id == some sess0 && sess0.key == [] && entryAt 0 .spi s.hall == 0),
    (upH fun h => { h with applied := cellSet hallReset h.applied A.HAL_IPADDR 0xC0A80002#32 }, 0, fun s t => s.hall.up && !isDuplicate t s.hall none && ownIp s.hall != 0 &&
      decide (s.hall.icmpTimes.length < 100) && !hbit s.hall F.HAL_STAT_LINKB),
    (upH fun h => hput h F.HAL_STAT_LINKA 1, 0, fun s _ => s.hall.up && hbit s.hall F.HAL_STAT_LINKA),
    (upH fun h => { h with supAt := some 0 }, 2 * sec, fun s t => s.hall.up && decide (s.hall.supAt = some 0 ∧ 0 + 2 * sec ≤ t)),
    (up (atRegime 2 []), 0, fun s _ => s.hall.up && s.hall.spiOut == [] && s.hall.spiRx.isNone && s.hall.supAt.isNone),
    (upH fun h => { h with spiOut := [(packet0, false)] }, 0, fun s _ => s.hall.up && s.hall.spiOut == [(packet0, false)] && packet0.length == 20)] := found_of (by decide +kernel)

/-- A command in a queue, and in flight. -/
def queued0 : Queued := ⟨Op.getSwing, cmd [], .spi, false, 0⟩

theorem witness_HallDeliveryEvents : Found [
    (upH fun h => { h with queues := vset h.queues 5 [queued0] }, 0, fun s _ => s.hall.up && vget s.hall.queues 5 [] == [queued0] && !busy s.hall 15 && !isExpert queued0.opcode),
    (upH fun h => { h with queues := vset h.queues 1 [{ queued0 with opcode := Op.readWords }] }, 0, fun s _ => s.hall.up &&
      vget s.hall.queues (queueNo (Target.polder .A).code) [] == [{ queued0 with opcode := Op.readWords }] && !busy s.hall 1 && isExpert Op.readWords),
    (upH fun h => { h with queues := vset h.queues 1 [queued0] }, 0, fun s _ => s.hall.up && vget s.hall.queues 1 [] == [queued0] && !busy s.hall 1 && awake s.polA && seState s.polA == Eng.run),
    (upH fun h => { h with replies := [.answer ⟨1, 0, Op.getSwing, 1, 0, 0, []⟩], inFlight := [⟨queued0, 1, false, false, false⟩] }, 0, fun s _ => s.hall.up &&
      flightOf s.hall ⟨1, 0, Op.getSwing, 1, 0, 0, []⟩ == some ⟨queued0, 1, false, false, false⟩),
    (upH fun h => { h with inFlight := [⟨queued0, 1, false, false, false⟩] }, sec, fun s t => s.hall.up && s.hall.inFlight == [⟨queued0, 1, false, false, false⟩] && decide (queued0.at' + 50 * ms ≤ t) &&
      s.hall.replies == []),
    (upH fun h => { h with queues := vset h.queues 1 [queued0] }, sec, fun s t => s.hall.up && vget s.hall.queues (queueNo 1) [] == [queued0] && decide (queued0.at' + 50 * ms ≤ t)),
    (up (atRegime 2 []), 1000 * sec, fun s t => s.hall.up && sessOf s.hall 0 == some sess0 && decide (sess0.lastSeen + (hap s.hall A.HAL_SESSTMO).toNat * sec ≤ t)),
    (upH fun h => { h with tokens := #v[none, none, none, none, some ⟨0, 5⟩] }, sec, fun s t => s.hall.up && (match vget s.hall.tokens 4 none with | some l => decide (l.until' / hallCyc < t / hallCyc) | none => false)),
    (upH fun h => hwr h A.HAL_IPADDR 5, 0, fun s _ => s.hall.up && hallStaged s.hall)] := found_of (by decide +kernel)

/-- Polder A with its engine data changed. -/
def withEng (f : EngState → EngState) (p : Polder) : Polder := { p with eng := f p.eng }

theorem witness_DirectAccessesComplete : Reached [
    (.hall, atRegime 2 [], fun _ _ => decide ((0x40000000 + A.DIK_EVT) / 16777216 = 0x40 + (PolderId.A.num - 1))),
    (.se .A, atRegime 2 [], fun m _ => reaches m .A (A.FLT_MTR 0) && reaches m .A A.TIM_NOW_FR && reaches m .A A.FIO_QPOP && reaches m .A A.LRN_CMD && reaches m .A A.EMB_CNTCLR &&
      reaches m .A A.DIK_CLR),
    (.hall, atRegime 2 [], fun m p => reaches m .A (A.MBX_DATA 0) && mbxSender 0 == m.id && decide ((mbxQueue p 0).length < 8) && !(mbxCycle 0 0 p).reset),
    (.se .A, atRegime 2 [], fun m p => reaches m .A (A.MBX_DATA 5) && mbxSender 5 == m.id && decide ((mbxQueue p 5).length < 8) && !(mbxCycle 0 5 p).reset),
    (.se .A, withEng (fun e => { e with queues := vset e.queues 0 [⟨7, 1⟩] }) (atRegime 2 []), fun m p => reaches m .A (A.MBX_DATA 0) && mbxReceiver 0 == m.id && mbxQueue p 0 == [⟨7, 1⟩] &&
      !(mbxCycle 0 0 p).fresh && (mbxCycle 0 0 p).refused.isNone),
    (.ce .A, atRegime 2 [], fun m p => reaches m .A (A.MBX_LOCK 15) && lockOwner p 15 == 0 && lockOwner p 15 != m.id),
    (.ce .A, withEng (fun e => { e with locks := vset e.locks 15 1 }) (atRegime 2 []), fun m p => reaches m .A (A.MBX_LOCK 15) && lockOwner p 15 == m.id),
    (.se .A, atRegime 2 [], fun m p => reaches m .A A.GAL_CMD && fget p F.GAL_STAT_STATE != Rec.triggered && reaches m .A A.CAP_CMD && capState p != Rec.triggered && !capTapOff p),
    (.se .A, atRegime 2 [(F.GAL_STAT_STATE, 1), (F.CAP_STAT_STATE, 1)], fun m p => reaches m .A A.GAL_CMD && fget p F.GAL_STAT_STATE == Rec.armed && reaches m .A A.CAP_CMD && capState p == Rec.armed),
    (.se .A, { atRegime 2 [(F.LRN_STAT_STATE, 0)] with lrn := { (atRegime 2 []).lrn with stored := some section0 } }, fun m p => reaches m .A A.LRN_CMD && lrnOff p && goodSection p == some section0 &&
      inTable 0x200000 && reaches m .A 0x200000),
    (.ce .A, atRegime 2 [(⟨A.DIK_TRIPEN, 13, 0⟩, 16383)], fun m p => reaches m .A A.DIK_SWTRIP && (enabledMask p).testBit 8),
    (.se .A, atRegime 2 [], fun m p => isBuffered A.MOD_PER && reaches m .A A.MOD_PER && reaches m .A A.FIO_DOCMD && m.id != 3 && (p.cyc.ordersIn (0 / cyc)).isEmpty),
    (.dkh, atRegime 2 [(⟨A.DIK_TRIPEN, 13, 0⟩, 16383)], fun m p => m == .dkh && (enabledMask p).testBit 8)] := reached_of (by decide +kernel)

/-- The Dikehouse reaches the Polder control block and not the swing block; the Hall reaches both. -/
theorem witness_DirectWriteRules : reaches .hall .A A.DIK_EVT = true ∧ reaches .hall .A A.SWG_SBASE = true ∧ reaches .dkh .A A.SWG_SBASE = false ∧ (A.SWG_SBASE + 1) % 4 ≠ 0 ∧
    bitOf (rd (atRegime 2 []) A.PCT_ACCERR) 31 = false := by decide +kernel

/-- A register without directly written fields, and one of flags. -/
theorem witness_DirectWriteRows : ((polRow A.SWG_SBASE).any fun x => accMask x.1 [.rw, .w1c, .wo] == 0) = true ∧
    ((polRow A.STS_EVT).any fun x => accMask x.1 [.rw, .wo] == 0 && accMask x.1 [.w1c] != 0) = true ∧ inMemory A.STS_EVT = false ∧
    dataQueue A.STS_EVT = none ∧ lockIndex A.STS_EVT = none ∧ statQueue A.STS_EVT = none ∧ A.STS_EVT ≠ A.FIO_DODIAG := by decide +kernel

/-- An access-error register that is free, one that holds an error, and one that holds an error of a later sender of the same cycle. -/
theorem witness_AccessErrorRegisters : bitOf (0#32) 31 = false ∧ bitOf (0x81000000#32) 31 = true ∧ ¬(7 = 8 ∧ 1 < bitsOf (0x81000000#32) 27 24) ∧
    7 = 7 ∧ 1 < bitsOf (0x82000000#32) 27 24 := by decide +kernel

theorem witness_LocksAcquireAndRelease : lockOwner (atRegime 2 []) 15 = 0 ∧ (∀ m ∈ [1, 2, 3, 4, 5], 1 ≤ m ∧ m ≤ 5) ∧
    lockOwner (withEng (fun e => { e with locks := vset e.locks 15 5 }) (atRegime 2 [])) 15 = 5 ∧
    Reached [(.hall, withEng (fun e => { e with locks := vset e.locks 0 3 }) (atRegime 2 []), fun m p => reaches m .A (A.MBX_LOCK 0) && lockOwner p 0 == m.id &&
        p.eng.lockLost.isEmpty),
      (.dkh, atRegime 2 [], fun m p => reaches m .A (A.MBX_LOCK 0) && lockOwner p 0 != m.id)] :=
  ⟨by decide +kernel, by decide +kernel, by decide +kernel, reached_of (by decide +kernel)⟩

theorem witness_EngineEvents : Running [
    (0, atRegime 2 [(⟨A.DIK_TRIPEN, 13, 0⟩, 16383)], fun _ p => ceState p == Eng.run && seState p == Eng.run && (enabledMask p).testBit 8),
    (0, atRegime 2 [(F.PCT_ENG_CE_STATE, 3), (F.PCT_ENG_SE_STATE, 2)], fun _ p => ceState p == Eng.loading && seState p == Eng.reset && inTable 0x200000),
    (0, withEng (fun e => { e with queues := vset e.queues 0 [⟨7, 1⟩] }) (atRegime 2 [(F.PCT_ENG_CE_STATE, 1), (F.PCT_ENG_SE_STATE, 1)]), fun _ p => ceState p == Eng.halt && seState p == Eng.halt &&
      mbxQueue p 0 != []),
    (ms, withEng (fun e => { e with fullSince := vset e.fullSince 5 (some 0) }) (atRegime 2 []), fun t p => decide (vget p.eng.fullSince 5 none = some 0 ∧ 0 + ms ≤ t))] := running_of (by decide +kernel)

/-- A firmware image header of key 0 for both parts, in slot B. -/
def header0 : List Byte := [0x46, 0x4A, 0x52, 0x4E] ++ leBytes 2 1 ++ leBytes 2 0 ++ leBytes 4 1 ++ leBytes 4 1 ++ zeros 14 ++ leBytes 2 3 ++ zeros 32 ++ zeros 64

/-- Polder A with that header in slot B. -/
def imaged : Polder := let p := atRegime 2 []
  { p with boot := { p.boot with flash := programAll p.boot.flash slotSize header0 } }

/-- Polder A with a firmware trial that runs. -/
def trialed : Polder := let p := atRegime 2 []
  { p with nv := { p.nv with image := { p.nv.image with boot := some ⟨0, 1, .trialRunning, 0, 600⟩ } } }

theorem witness_SystemCommandsComplete : Taken [
    (atRegime 2 [], Op.getNv, [], fun _ _ => true), (atRegime 2 [], Op.getEngines, [], fun _ _ => true), (atRegime 2 [], Op.getFirmware, [], fun _ _ => true),
    (atRegime 2 [], Op.fwSlot, [0, 1] ++ zeros 10, fun b p => byteAt b 0 == 0 && decide (byteAt b 1 ≤ 1 ∧ u32At b 4 ≤ slotSize) && u16At b 2 == 0 && p.boot.erase.isNone && !slotHeld p (byteAt b 1)),
    (atRegime 2 [], Op.fwSlot, [1, 1] ++ leBytes 2 2 ++ zeros 8 ++ [3, 4], fun b p => byteAt b 0 == 1 && u16At b 2 == 2 && p.boot.erase.isNone && !slotHeld p 1 && decide (u32At b 4 + 2 ≤ slotSize) &&
      (slotWrite 1 (u32At b 4) (b.drop 12) p).1),
    (atRegime 2 [], Op.fwSlot, [2, 1] ++ zeros 10, fun b p => byteAt b 0 == 2 && u16At b 2 == 0 && p.boot.erase.isNone),
    (trialed, Op.fwConfirm, [], fun _ p => decide ((bootSec p).state = .trialRunning) && !p.boot.trialEnd.any (· ≤ 0)),
    (atRegime 4 [], Op.sleep, [], fun _ p => sleepable (dev p) .A),
    (atRegime 2 [], Op.readLog, leBytes 4 1 ++ [31, 0, 0, 0], fun b p => decide (u32At b 0 ≤ p.log.nextNo ∧ 1 ≤ byteAt b 4 ∧ byteAt b 4 ≤ 31 ∧ byteAt b 5 = 0)),
    (atRegime 2 [], Op.setMonitor, [1, 7, 0, 0], fun b p => decide (byteAt b 1 ≤ 7) && !(byteAt b 0).testBit 1 && admitsB p [part F.PCT_MONCFG_EN (byteAt b 0 % 2), part F.PCT_MONCFG_SLOT (byteAt b 1)])] :=
  taken_of (by decide +kernel)

/-- FW_ACTIVATE of a slot whose image passes every check of R449, its signature being good. -/
theorem witness_FwActivate : Taken [(imaged, Op.fwActivate, [1] ++ zeros 7, fun b p => decide (byteAt b 0 ≤ 1 ∧ u32At b 4 = 0) && p.boot.erase.isNone && byteAt b 0 != (bootSec p).active &&
    headerOk (slotBytes p 1 0 128) && (u16At (slotBytes p 1 0 128) 30).testBit 0 && !p.boot.revoked.testBit (hdrKey (slotBytes p 1 0 128)) &&
      decide (minRb p ≤ hdrRollback (slotBytes p 1 0 128)))] := taken_of (by decide +kernel)

theorem witness_DikehouseCommandsComplete : Given [
    (up (atRegime 2 []), Op.polderPower, [15, 1, 0, 0], fun b s => decide (1 ≤ byteAt b 1 ∧ byteAt b 1 ≤ 5) && ([PolderId.A, .B, .C, .D].all fun i => Part.has s.part i) && !powerRefused s (byteAt b 0 % 16) (byteAt b 1)),
    (up (atRegime 2 []), Op.setWatch, [7, 1, 10, 7] ++ leBytes 2 0 ++ leBytes 2 3000, fun b _ => decide (byteAt b 0 ≤ 7 ∧ byteAt b 2 ≤ 10 ∧ byteAt b 3 ≤ 7 ∧ u16At b 4 ≤ 3000 ∧ u16At b 6 ≤ 3000 ∧
      watchCode (u16At b 4) < watchCode (u16At b 6))),
    (up (atRegime 2 []), Op.setRule, [15, 0, 0, 0] ++ zeros 8, fun b s =>
      let r := dkhWrite 0 4 (A.DKH_RULE_A (byteAt b 0)) (wordN (u32At b 4)) s
      r.1 == .ok && (dkhWrite 0 4 (A.DKH_RULE_B (byteAt b 0)) (wordN (u32At b 8)) r.2).1 == .ok),
    (up (atRegime 2 []), Op.setSupervision, [4, 0, 0, 0] ++ wBytes (dkhReset (A.DKH_SUP 3)), fun b s => decide (polderNo (byteAt b 0) = some .D) &&
      (dkhWrite 0 4 (A.DKH_SUP (byteAt b 0 - 1)) (wordN (u32At b 4)) s).1 == .ok),
    (up (atRegime 2 []), Op.getDikehouse, [], fun _ _ => true),
    (up (atRegime 2 []), Op.readLog, leBytes 4 1 ++ [31, 0, 0, 0], fun b s => decide (u32At b 0 ≤ s.dkh.nextNo ∧ 1 ≤ byteAt b 4 ∧ byteAt b 4 ≤ 31 ∧ byteAt b 5 = 0))] := given_of (by decide +kernel)

/-- Polder A in a power state. -/
def powered (x : Power) (l : List (Fld × Nat)) : Polder := { atRegime 2 l with power := x }

theorem witness_PowerAndStoreEvents : Found [
    (upD (fun d => { d with closed := true }) (powered .off []), 0, fun s _ => s.rails.vaon && !s.rails.testen && s.dkh.up && (dpol s .A).closed && (dpol s .A).resetEnd.isNone && s.polA.power == .off),
    (up (powered .booting []), 0, fun s _ => s.polA.power == .booting && !rescue s.polA), (up (powered .booting [(F.PCT_BOOT_RESCUE, 1)]), 0, fun s _ => s.polA.power == .booting && rescue s.polA),
    (up (powered .waking []), 0, fun s _ => s.polA.power == .waking),
    (upD (fun d => { d with closed := true }) { atRegime 2 [] with boot := { (atRegime 2 []).boot with trialEnd := some 5, erase := some (1, 0, some ref0) } }, 5, fun s t => (dpol s .A).closed && s.polA.power == .awake && !lawRegime s.polA && (dpol s .A).guard.isNone &&
      (match s.polA.boot.trialEnd with | some e => decide (e ≤ t) | none => false) && s.polA.boot.erase == some (1, 0, some ref0)),
    (up { atRegime 2 [] with nv := { (atRegime 2 []).nv with dirtySince := some 0, bank0 := NvBank.written 1 {} } }, sec, fun s t => let p := s.polA
      p.power == .awake && seState p == Eng.run && p.nv.writing.isNone && p.nv.dirtySince.isSome && decide (p.nv.lastEnd + 100 * ms ≤ t) && bankInUse p == some 0),
    (up { atRegime 2 [] with nv := { (atRegime 2 []).nv with writing := some (1, 0, false) } }, 0, fun s _ => s.polA.power == .awake && s.polA.nv.writing == some (1, 0, false)),
    (upK fun d => { d with dirtySince := some 0 }, sec, fun s t => s.dkh.up && s.dkh.writing.isNone && s.dkh.dirtySince.isSome && decide (s.dkh.lastEnd + 100 * ms ≤ t)),
    (upK fun d => { d with writing := some (1, 0, true) }, 0, fun s _ => s.dkh.up && s.dkh.writing == some (1, 0, true)),
    (dev (atRegime 2 []), 0, fun s _ => s.rails.vaon && !s.rails.testen && s.dkh.up && !s.hall.up)] := found_of (by decide +kernel)

theorem witness_DikehouseEvents : Found [
    (State.reset, 0, fun s _ => !s.dkh.up && Part.has s.part .D),
    (upK fun d => kput (kput d (F.DKH_WINCFG_EN 7) 1) (F.DKH_WINCFG_F 7) 0, 0, fun s _ => s.dkh.up && kbit s.dkh (F.DKH_WINCFG_EN 7) && kget s.dkh (F.DKH_WINCFG_F 7) == 0),
    (up (atRegime 2 []), ms, fun s t => s.dkh.up && decide (s.dkh.lastEval + ms ≤ t) && !ruleHolds s 0 && ([PolderId.A, .B, .C, .D].all fun j => (dpol s j).guard.isNone)),
    (up (atRegime 2 [(⟨A.PCT_HBEAT, 31, 0⟩, 5)]), 0, fun s _ => watched s .A && rd s.polA A.PCT_HBEAT != (dpol s .A).hbValue),
    ({ up (atRegime 2 []) with dkh := kput (up (atRegime 2 [])).dkh (F.DKH_SUP_HB_EN 0) 1 }, sec, fun s t => watched s .A && supF s .A F.DKH_SUP_HB_EN == 1 && !(dpol s .A).lost &&
      decide ((dpol s .A).hbAt + 100 * ms ≤ t)),
    (up (powered .booting []), sec, fun s t => s.dkh.up && s.polA.power == .booting && !(dpol s .A).lost && decide (s.polA.boot.t0 + 600 * ms ≤ t)),
    (upD (fun d => { d with guard := some ⟨3, 0, none, false, 2⟩ }) (atRegime 7 [(⟨A.DIK_TRIPEN, 13, 0⟩, 16383)]), 1000 * sec, fun s t => (dpol s .A).guard == some ⟨3, 0, none, false, 2⟩ && guarded s .A &&
      decide (0 + supF s .A F.DKH_SUP_STOPTMO * ms ≤ t) && (enabledMask s.polA).testBit 8),
    (upD (fun d => { d with restartAt := some 5, closed := true }) (atRegime 2 []), 5, fun s t => (dpol s .A).closed && (dpol s .A).guard.isNone && (dpol s .A).restartAt == some t),
    (upD (fun d => { d with resetEnd := some 5 }) (powered .off []), 5, fun s t => (dpol s .A).guard.isNone && (dpol s .A).restartAt.isNone && (dpol s .A).resetEnd == some t),
    (up (atRegime 2 []), 0, fun s _ => s.hall.up && s.dkh.up)] := found_of (by decide +kernel)

/-- Polder A with its monitor's data changed. -/
def withMon (f : MonState → MonState) (p : Polder) : Polder := { p with mon := f p.mon }

/-- A key slot of the role ADMIN. -/
def key0 : KeySlot := ⟨List.replicate 32 0x55, 2, 31⟩

theorem witness_MonitorLinesComplete : Typed [
    (0, typing 0 [], fun p => p.mon.lockEnd.isNone && decide (monLevel p < 1)), (0, withMon (fun m => { m with lockEnd := some 5 }) (typing 0 []), fun p => p.mon.lockEnd.isSome),
    (0, withMon (fun m => { m with challenge := some (zeros 8, 0) }) (typing 0 [(F.PCT_MONSTAT_FAILS, 4), (F.PCT_MONCFG_SLOT, 7)]), fun p => p.mon.challenge == some (zeros 8, 0) &&
      monSlot (upH fun h => { h with keys := vset h.keys 7 (some key0) }) p == some key0 && decide (4 ≤ fget p F.PCT_MONSTAT_FAILS)),
    (1, typing 1 [], fun p => decide (1 ≤ p.log.nextNo)), (1, typing 1 [(F.GAL_STAT_STATE, 3), (F.CAP_STAT_STATE, 3)], fun p => fget p F.GAL_STAT_STATE == Rec.done && capState p == Rec.done &&
      decide (0 + 0 ≤ galCount p ∧ 0 + 0 ≤ rdN p A.CAP_ROWS * capRowWords p)),
    (2, typing 2 [(⟨A.DIK_TRIPEN, 13, 0⟩, 16383)], fun p => monMay p A.DIK_EVT && (busWrite 0 (.mon p.id) p.id A.DIK_EVT 2#32 p).1 == .ok && !monMay p A.PCT_HBEAT &&
      decide (monStray (0x40000000 + A.PCT_HBEAT) p = none ∧ monStray 0x41000000 p ≠ none ∧ (0x40000000 + A.DIK_EVT) / 16777216 = 0x40 + (p.id.num - 1) ∧ A.DIK_EVT ≠ A.FIO_DOCMD) && (enabledMask p).testBit 8 && !switching p &&
      !lawRegime p && 15 &&& assigned (rd p A.PCT_REGCFG) == 0 && (p.cyc.ordersIn (0 / cyc)).isEmpty),
    (2, withMon (fun m => { m with admin := true }) (typing 2 []), fun p => p.mon.admin && !lawRegime p)] ∧ Running [
    (600 * sec, typing 0 [], fun t p => monServed p && monActive p && decide (p.mon.lastInput + 600 * sec ≤ t)),
    (5, withMon (fun m => { m with lockEnd := some 5 }) (typing 0 []), fun t p => decide (p.mon.lockEnd = some t))] :=
  ⟨typed_of (by decide +kernel), running_of (by decide +kernel)⟩

/-- A response of nine bytes is wrong at every challenge. -/
theorem witness_WrongResponse : zeros 9 ≠ monResponse key0.key (typing 0 []) (zeros 8) := by
  intro h
  have := congrArg List.length h
  unfold monResponse at this
  rw [List.length_take] at this
  have h9 : (zeros 9).length = 9 := rfl
  omega
end Sys2Proof.Tests
end

section
/-! SUPPORT. Rows that are commands to a polder, by what their card takes: the frame that each runs in, and the refusals that it answers (R17). -/
namespace Sys2Proof.Machine
open Sys2Proof

/-! ### `collect` where nothing has been handed over -/

theorem vmod_same {α : Type} {n : Nat} (v : Vector α n) (k : Nat) (f : α → α) (hf : ∀ x, f x = x) : vmod v k f = v := by
  unfold vmod
  split
  next x hx =>
    obtain ⟨hk, rfl⟩ := Vector.getElem?_eq_some_iff.mp hx
    rw [hf]
    ext j hj
    rw [Vector.getElem_setIfInBounds]
    split
    next e => subst e; rfl
    next => rfl
  next => rfl

@[simp] theorem setPol_self (s : State) (i : PolderId) : s.setPol i (s.pol i) = s := by cases i <;> rfl

theorem handed_of_out_nil {p : Polder} (h : p.out = []) : handed p = p := by
  unfold handed
  rw [← h]

theorem fifoCount_zero (i : PolderId) (s : State) : fifoCount i s 0 = s := by
  have hv : vmod s.hall.fifoLost (i.num - 1) (· + 0) = s.hall.fifoLost := vmod_same _ _ _ Nat.add_zero
  unfold fifoCount modHall
  simp only [hv, ite_self]

theorem takePolder_of_out_nil (now : Nat) {s : State} {i : PolderId} (h : (s.pol i).out = []) : takePolder now s i = s := by
  have hm : s.modPol i handed = s := by
    unfold State.modPol
    rw [handed_of_out_nil h, setPol_self]
  unfold takePolder
  rw [h]
  exact (fifoCount_zero i _).trans hm

theorem takeDkh_of_out_nil (now : Nat) {s : State} (h : s.dkh.out = []) : takeDkh now s = s := by
  unfold takeDkh modDkh
  simp only [h, List.foldl_nil, List.length_nil, ite_self, Nat.add_zero]
  rw [← h]

theorem collect_outEmpty (now : Nat) (s : State) : (collect now s).outEmpty := by
  have hp : ∀ i, ((collect now s).pol i).out = [] := fun i => by rw [(collects now s).pol, handed_out]
  exact ⟨hp .A, hp .B, hp .C, hp .D, (collects now s).dkhOut⟩

theorem collect_of_outEmpty (now : Nat) {s : State} (h : s.outEmpty) : collect now s = s := by
  obtain ⟨hA, hB, hC, hD, hk⟩ := h
  unfold collect
  simp only [List.foldl_cons, List.foldl_nil]
  rw [takeDkh_of_out_nil now hk, takePolder_of_out_nil now (i := .A) hA, takePolder_of_out_nil now (i := .B) hB,
    takePolder_of_out_nil now (i := .C) hC, takePolder_of_out_nil now (i := .D) hD]

@[simp] theorem collect_collect (m n : Nat) (s : State) : collect m (collect n s) = collect n s :=
  collect_of_outEmpty m (collect_outEmpty n s)

/-! ### The frame of every command to a polder -/

/-- A command that, where its card takes it and `b` holds, carries on with `g` once its reply has reached the Hall (FW_ACTIVATE, SLEEP). -/
def onCommandThen (t : Nat) (i : PolderId) (c : Cmd) (op : Nat) (s : State) (f : Nat → Polder → Polder) (b : State → Bool)
    (g : Nat → State → State) : Result :=
  atPolder t i c op s fun now y =>
    let z := collect now (y.modPol i fun p => polish now (carried' op c p (f now)))
    if cardTakes op c (y.pol i) && b y then g now z else z

theorem execFwActivate_eq (t : Nat) (i : PolderId) (c : Cmd) (s : State) :
    execFwActivate t i c s = onCommandThen t i c Op.fwActivate s (fun now => cFwActivate s.part now c)
      (fun y => (activateStatus s.part c (y.pol i)).1 == Status.ok) (fun now => restartPol now i Cause.activate) := rfl

theorem execSleep_eq (t : Nat) (i : PolderId) (c : Cmd) (s : State) :
    execSleep t i c s = onCommandThen t i c Op.sleep s (fun _ p => answer p Op.sleep c (okWith [])) (sleepable · i)
      (fun now => toSleep now i) := rfl

/-- Without the card's consent nothing of the command goes beyond its polder. -/
theorem onCommandThen_of_not_cardTakes (t : Nat) (i : PolderId) (c : Cmd) (op : Nat) (s : State) (f : Nat → Polder → Polder)
    (b : State → Bool) (g : Nat → State → State) (h : cardTakes op c (s.pol i) = false) :
    onCommandThen t i c op s f b g = onCommand t i c op s f := by
  unfold onCommandThen onCommand atPolder
  rw [onDevice_eq, onDevice_eq]
  simp only [unavail_at, at_pol, h, Bool.false_and]
  cases unavail s i with
  | some d => rfl
  | none =>
    by_cases hs : seState (s.pol i) = Eng.run
    · simp [hs, State.leaves]
    · simp [hs]

/-- Every row that is a command to a polder runs in one of two frames; for the other rows `polderCommand` is none. -/
theorem exec_polderCommand (s : State) {k : Instr} {t : Nat} {i : PolderId} {op : Nat} {c : Cmd}
    (h : polderCommand k = some (t, i, op, c)) :
    (∃ f, exec k s = onCommand t i c op s f) ∨ ∃ f b g, exec k s = onCommandThen t i c op s f b g := by
  cases k <;> cases h <;> dsimp only [exec]
  case fwActivate => exact .inr ⟨_, _, _, execFwActivate_eq _ _ _ _⟩
  case sleep => exact .inr ⟨_, _, _, execSleep_eq _ _ _ _⟩
  all_goals exact .inl ⟨_, rfl⟩

theorem exec_of_not_cardTakes (s : State) {k : Instr} {t : Nat} {i : PolderId} {op : Nat} {c : Cmd}
    (h : polderCommand k = some (t, i, op, c)) (hc : cardTakes op c (s.pol i) = false) : ∃ f, exec k s = onCommand t i c op s f := by
  obtain hf | ⟨f, b, g, he⟩ := exec_polderCommand s h
  · exact hf
  · exact ⟨f, he.trans (onCommandThen_of_not_cardTakes t i c op s f b g hc)⟩

theorem onCommand_of_seRuns (t : Nat) (i : PolderId) (c : Cmd) (op : Nat) (s : State) (f : Nat → Polder → Polder)
    (hu : unavail s i = none) (hs : seState (s.pol i) = Eng.run) :
    onCommand t i c op s f = .next (s.after t i (carried' op c (s.pol i) (f (s.clock t)))) := by
  unfold onCommand atPolder
  rw [onDevice_eq]
  simp only [unavail_at, hu, at_pol, hs, if_true]
  rw [leaves_modPol]

/-! ### What a card refuses -/

theorem cardTakes_of_regime_not_listed {op : Nat} {c : Cmd} {p : Polder} {d : Card} (hd : cardOf op = some d)
    (hg : d.regimes.contains (regime p) = false) : cardTakes op c p = false := by
  unfold cardTakes
  rw [hd]
  simp only [hg, Bool.and_false]

/-- R17: in a regime that the card does not list the command's own rules are never reached. -/
theorem carried_of_regime_not_listed {op : Nat} {c : Cmd} {p : Polder} {d : Card} (f : Polder → Polder) (hd : cardOf op = some d)
    (hl : d.len.ok c.payload = true) (hg : d.regimes.contains (regime p) = false) :
    carried' op c p f = answer p op c (bare Status.state) := by
  unfold carried'
  rw [hd]
  simp only [hl, hg, Bool.not_true, Bool.not_false, Bool.false_eq_true, if_false, if_true, ite_self]

/-- A command that its card turns away with the reply `r`, whatever its own rules are, is answered so and does nothing else. -/
theorem answers_of_card_refusal (s : State) {k : Instr} {t : Nat} {i : PolderId} {op : Nat} {c : Cmd} {r : Reply}
    (h : polderCommand k = some (t, i, op, c)) (hu : unavail s i = none) (hs : seState (s.pol i) = Eng.run)
    (hc : cardTakes op c (s.pol i) = false) (hr : ∀ f, carried' op c (s.pol i) f = answer (s.pol i) op c r) : Answers k s t i op c r := by
  obtain ⟨f, he⟩ := exec_of_not_cardTakes s h hc
  unfold Answers Does
  rw [he, onCommand_of_seRuns t i c op s f hu hs, hr]

/-- Settles O11: the check of the card's regimes answers STATE before the command's own rules, and the two commands that reach beyond their polder do so
only where their card takes them. -/
theorem regimesNotListedAreRefused : Obligations.RegimesNotListedAreRefused := by
  unfold Obligations.RegimesNotListedAreRefused
  intro k s t i op c d h hu hs hd hl hg
  exact answers_of_card_refusal s h hu hs (cardTakes_of_regime_not_listed hd hg) fun f => carried_of_regime_not_listed f hd hl hg

end Sys2Proof.Machine
end

section
/-! SUPPORT. What is asked of a polder that accepts nothing: commands and expert accesses are answered with the detail of its state (R22). -/
namespace Sys2Proof.Machine
open Sys2Proof

/-! ### The detail of an unavailable polder -/

theorem unavail_of_absent {s : State} {i : PolderId} (h : Part.has s.part i = false) : unavail s i = some 1 := by
  unfold unavail
  simp [h]

theorem unavail_of_present {s : State} {i : PolderId} (h : Part.has s.part i = true) :
    ((s.pol i).power = .off → unavail s i = some 2) ∧ ((s.pol i).power = .booting → unavail s i = some 3) ∧
      ((s.pol i).power = .asleep → unavail s i = some 4) := by
  unfold unavail
  refine ⟨fun hw => ?_, fun hw => ?_, fun hw => ?_⟩ <;> simp [h, hw]

/-! ### The frames of a command and of an expert access -/

/-- R22: the Hall answers in the polder's stead, and the command's own rules are not reached. -/
theorem atPolder_of_unavail (t : Nat) (c : Cmd) (op : Nat) (f : Nat → State → State) {s : State} {i : PolderId} {d : Nat}
    (hu : unavail s i = some d) :
    atPolder t i c op s f = .next (s.leaves t (hallSays (s.clock t) i.num op c ⟨Status.unavailable, d, []⟩ (s.at' t))) := by
  unfold atPolder
  rw [onDevice_eq]
  simp only [unavail_at, hu]

theorem doesAll_of_unavail {k : Instr} {s : State} {t : Nat} {i : PolderId} {op : Nat} {c : Cmd} {d : Nat}
    (h : polderCommand k = some (t, i, op, c)) (hu : unavail s i = some d) :
    DoesAll k s t (hallSays (s.clock t) i.num op c ⟨Status.unavailable, d, []⟩ (s.at' t)) := by
  obtain ⟨f, he⟩ | ⟨f, b, g, he⟩ := exec_polderCommand s h
  · exact he.trans (atPolder_of_unavail t c op _ hu)
  · exact he.trans (atPolder_of_unavail t c op _ hu)

theorem hallSays_of_session {s : State} {c : Cmd} {x : Session} (h : sessOf s.hall c.sess = some x) (now tgt op : Nat) (r : Reply) :
    hallSays now tgt op c r s = hallAnswer now x.src tgt op c (hallBad r s) := by
  unfold hallSays
  rw [h]

theorem onExpert_of_hears (t : Nat) (tgt : Target) {s : State} {op : Nat} {c : Cmd} {x : Session} (h : s.hears op c x) :
    onExpert t op tgt c s =
      .next (s.leaves t (hallAnswer (s.clock t) x.src tgt.code op c (expert (s.clock t) op tgt c (s.at' t)))) := by
  obtain ⟨hup, hx, k, hk, hl⟩ := h
  unfold onExpert
  rw [onDevice_eq]
  simp only [at_hall, hx, hk, hup, hl, Bool.not_true, Bool.false_eq_true, if_false, if_true]

theorem expert_of_unavail (now op : Nat) (c : Cmd) {s : State} {i : PolderId} {d : Nat} (hu : unavail s i = some d) :
    expert now op (.polder i) c s = hallBad ⟨Status.unavailable, d, []⟩ s := by
  unfold expert
  simp only [hu]

theorem onExpert_of_unavail (t : Nat) {s : State} {i : PolderId} {op d : Nat} {c : Cmd} {x : Session} (h : s.hears op c x)
    (hu : unavail s i = some d) :
    onExpert t op (.polder i) c s = .next (s.leaves t (hallSays (s.clock t) i.num op c ⟨Status.unavailable, d, []⟩ (s.at' t))) := by
  have ⟨_, hx, _⟩ := h
  rw [onExpert_of_hears t _ h, expert_of_unavail _ _ _ ((unavail_at s t i).trans hu), hallSays_of_session (s := s.at' t) hx]
  rfl

/-! ### What an answer of the Hall leaves alone -/

/-- An answer of the Hall's own takes what the polders had to hand over, and changes nothing else of them. -/
theorem leaves_hallSays_pol (s : State) (t tgt op : Nat) (c : Cmd) (r : Reply) (j : PolderId) :
    (s.leaves t (hallSays (s.clock t) tgt op c r (s.at' t))).pol j = { s.pol j with out := [] } := by
  unfold State.leaves
  rw [(collects _ _).pol, (talks_hallSays _ _ _ _ _ _).pol, at_pol]
  rfl

/-- Settles O10: every command runs in a frame that asks first whether its polder is available, and so does every expert access; the Hall's answer
reaches no polder. -/
theorem unavailablePoldersAnswer : Obligations.UnavailablePoldersAnswer := by
  unfold Obligations.UnavailablePoldersAnswer
  refine ⟨fun k s t i op c d h hu => ⟨doesAll_of_unavail h hu, fun y hy j => ?_⟩,
    fun s t i c x d hu => ⟨fun h => onExpert_of_unavail t h hu, fun h => onExpert_of_unavail t h hu⟩,
    fun s i => ⟨unavail_of_absent, unavail_of_present⟩⟩
  have hy' := hy.symm.trans (doesAll_of_unavail h hu)
  injection hy' with hy'
  rw [hy', leaves_hallSays_pol]

end Sys2Proof.Machine
end

section
/-! SUPPORT. The access-error registers (R40 to R42): the word and the cycle that an error leaves. -/
namespace Sys2Proof.Machine
open Sys2Proof

/-! ### Single bits of a word -/

theorem bitOf_or (w v : Word) (n : Nat) : bitOf (w ||| v) n = (bitOf w n || bitOf v n) := BitVec.getLsbD_or

theorem bitOf_withBits_ne (w : Word) {hi lo n : Nat} (v : Nat) (h : n < lo ∨ hi < n) : bitOf (withBits w hi lo v) n = bitOf w n := by
  unfold bitOf
  have hn : ¬(lo ≤ n ∧ n ≤ hi) := by omega
  rw [withBits_getLsbD, if_neg hn]
  by_cases h32 : n < 32
  · simp [h32]
  · simp [h32, BitVec.getLsbD_of_ge w n (by omega)]

/-! ### The word of an error -/

theorem bitOf_accWord (old : Word) (kind sender off : Nat) {n : Nat} (h : 29 < n) :
    bitOf (accWord old kind sender off) n = (bitOf old n || bitOf 0x80000000#32 n) := by
  unfold accWord
  rw [bitOf_withBits_ne _ _ (by omega), bitOf_withBits_ne _ _ (by omega), bitOf_withBits_ne _ _ (by omega), bitOf_or]

theorem accWord_valid (old : Word) (kind sender off : Nat) : bitOf (accWord old kind sender off) 31 = true := by
  rw [bitOf_accWord _ _ _ _ (by omega)]
  exact Bool.or_true _

theorem accWord_overrun (old : Word) (kind sender off : Nat) : bitOf (accWord old kind sender off) 30 = bitOf old 30 := by
  rw [bitOf_accWord _ _ _ _ (by omega)]
  exact Bool.or_false _

theorem accWord_kind (old : Word) {kind : Nat} (sender off : Nat) (h : kind < 4) : bitsOf (accWord old kind sender off) 29 28 = kind := by
  unfold accWord
  rw [bitsOf_withBits_ne _ _ (by omega), bitsOf_withBits_ne _ _ (by omega), bitsOf_withBits_self _ _ _ _ (by omega)]
  exact Nat.mod_eq_of_lt h

theorem accWord_sender (old : Word) (kind : Nat) {sender : Nat} (off : Nat) (h : sender < 16) :
    bitsOf (accWord old kind sender off) 27 24 = sender := by
  unfold accWord
  rw [bitsOf_withBits_ne _ _ (by omega), bitsOf_withBits_self _ _ _ _ (by omega)]
  exact Nat.mod_eq_of_lt h

theorem accWord_offset (old : Word) (kind sender : Nat) {off : Nat} (h : off < 16777216) :
    bitsOf (accWord old kind sender off) 23 2 = off / 4 := by
  unfold accWord
  rw [bitsOf_withBits_self _ _ _ _ (by omega)]
  exact Nat.mod_eq_of_lt (by omega)

/-! ### What a further error does -/

theorem accNext_of_free {old : Word} (at' c kind sender off : Nat) (h : bitOf old 31 = false) :
    accNext old at' c kind sender off = (accWord old kind sender off, c) := by
  unfold accNext
  simp [h]

/-- R41: of two errors of one cycle the one with the lower sender ID takes the place of the other, which has overrun it. -/
theorem accNext_of_lower_sender {old : Word} {at' c sender : Nat} (kind off : Nat) (hv : bitOf old 31 = true)
    (h : at' = c ∧ sender < bitsOf old 27 24) :
    accNext old at' c kind sender off = (accWord (old ||| 0x40000000#32) kind sender off, c) := by
  unfold accNext
  simp [hv, h]

theorem accNext_of_held {old : Word} {at' c sender : Nat} (kind off : Nat) (hv : bitOf old 31 = true)
    (h : ¬(at' = c ∧ sender < bitsOf old 27 24)) : accNext old at' c kind sender off = (old ||| 0x40000000#32, at') := by
  unfold accNext
  rw [hv, Bool.not_true, if_neg Bool.false_ne_true, if_neg h]

/-- An error that is recorded is entered in a word that has `OVERRUN` where the register held an error already. -/
theorem accNext_of_recorded {old : Word} {at' c sender : Nat} (kind off : Nat)
    (h : bitOf old 31 = false ∨ at' = c ∧ sender < bitsOf old 27 24) :
    ∃ w, accNext old at' c kind sender off = (accWord w kind sender off, c) ∧ bitOf w 30 = (bitOf old 31 || bitOf old 30) := by
  cases hv : bitOf old 31 with
  | false => exact ⟨old, accNext_of_free at' c kind sender off hv, rfl⟩
  | true =>
    have hs : at' = c ∧ sender < bitsOf old 27 24 := h.resolve_left (by simp [hv])
    refine ⟨old ||| 0x40000000#32, accNext_of_lower_sender kind off hv hs, ?_⟩
    rw [bitOf_or]
    exact Bool.or_true _

/-! ### The registers of the three windows -/

theorem rd_accErr_self (now kind sender off : Nat) (p : Polder) :
    rd (accErr now kind sender off p) A.PCT_ACCERR = (accNext (rd p A.PCT_ACCERR) p.eng.accAt (now / cyc) kind sender off).1 :=
  rd_wr_self p _ _

theorem rd_accErr_ne (now kind sender off : Nat) (p : Polder) {o : Nat} (h : o ≠ A.PCT_ACCERR) :
    rd (accErr now kind sender off p) o = rd p o := rd_wr_ne p _ h

theorem hrd_accErrH_self (now kind sender off : Nat) (h : Hall) :
    hrd (accErrH now kind sender off h) A.HAL_ACCERR = (accNext (hrd h A.HAL_ACCERR) h.accAt (now / hallCyc) kind sender off).1 :=
  hrd_hwr_self h _ _

theorem krd_accErrK_self (now kind sender off : Nat) (d : Dikehouse) :
    krd (accErrK now kind sender off d) A.DKH_ACCERR = (accNext (krd d A.DKH_ACCERR) d.accAt (now / dkhCyc) kind sender off).1 :=
  krd_kwr_self d _ _

/-- Settles O53: `accNext` records an error or sets `OVERRUN`, and each window's register takes the word that it gives. -/
theorem accessErrorRegisters : Obligations.AccessErrorRegisters := by
  unfold Obligations.AccessErrorRegisters
  refine ⟨fun old at' c kind sender off hkind hsender hoff w hw => ⟨fun h => ?_, fun hv h => ?_⟩,
    fun p now kind sender off =>
      ⟨rd_accErr_self now kind sender off p, rfl, fun o ho => rd_accErr_ne now kind sender off p ho⟩,
    fun h now kind sender off => hrd_accErrH_self now kind sender off h,
    fun d now kind sender off => krd_accErrK_self now kind sender off d⟩
  · obtain ⟨v, he, h30⟩ := accNext_of_recorded (at' := at') (c := c) kind off h
    rw [hw, he]
    exact ⟨accWord_valid v kind sender off, accWord_kind v sender off hkind, accWord_sender v kind off hsender,
      accWord_offset v kind sender hoff, rfl, (accWord_overrun v kind sender off).trans h30⟩
  · rw [hw, accNext_of_held kind off hv h]
    exact ⟨rfl, rfl⟩

end Sys2Proof.Machine
end

section
/-! SUPPORT. The lock registers (R434 to R436): what a read and a write of a lock make of its owner, and which of several readers has it. -/
namespace Sys2Proof.Machine
open Sys2Proof

/-! ### Owners -/

theorem vget_vset_self {α : Type} {n k : Nat} (v : Vector α n) (x d : α) (h : k < n) : vget (vset v k x) k d = x := by
  unfold vget vset
  rw [Vector.getElem?_setIfInBounds_self_of_lt h]
  rfl

theorem vget_vset_ne {α : Type} {n k j : Nat} (v : Vector α n) (x d : α) (h : j ≠ k) : vget (vset v k x) j d = vget v j d := by
  unfold vget vset
  rw [Vector.getElem?_setIfInBounds_ne h.symm]

theorem lockOwner_lockTake_self (now m : Nat) (p : Polder) {k : Nat} (h : k < 16) : lockOwner (lockTake now m k p) k = m :=
  vget_vset_self _ _ _ h

theorem lockOwner_lockTake_ne (now m : Nat) (p : Polder) {k j : Nat} (h : j ≠ k) : lockOwner (lockTake now m k p) j = lockOwner p j :=
  vget_vset_ne _ _ _ h

/-! ### A read of a lock (R434) -/

/-- A read by `m` in the cycle of `now` finds lock `k` held by another master, over which it has no priority. -/
def LockHeldAgainst (now m k : Nat) (p : Polder) : Prop :=
  lockOwner p k ≠ 0 ∧ lockOwner p k ≠ m ∧ ¬(lockRank m < lockRank (lockOwner p k) ∧ p.eng.lockTook.contains (now / cyc, k) = true)

theorem lockRead_of_free (now m : Nat) {k : Nat} {p : Polder} (h : lockOwner p k = 0) : lockRead now m k p = (0, lockTake now m k p) := by
  unfold lockRead
  split
  next => rfl
  next h0 => exact absurd h h0

theorem lockRead_of_owner (now : Nat) {m k : Nat} {p : Polder} (h : lockOwner p k = m) (hm : m ≠ 0) :
    lockRead now m k p = (wordN (0xC0000000 + m % 16), p) := by
  unfold lockRead
  split
  next h0 => exact absurd (h.symm.trans h0) hm
  next => rw [if_pos h, h]

theorem lockRead_of_heldAgainst {now m k : Nat} {p : Polder} (h : LockHeldAgainst now m k p) :
    lockRead now m k p = (wordN (0x80000000 + lockOwner p k % 16), lockLose now m k p) := by
  obtain ⟨h0, hne, hlow⟩ := h
  unfold lockRead
  split
  next hf => exact absurd hf h0
  next => rw [if_neg hne, if_neg hlow]

/-- Where no read of the cycle has taken the lock, priority does not count. -/
theorem lockHeldAgainst_of_notTaken {now m k o : Nat} {p : Polder} (h : lockOwner p k = o) (ho : o ≠ 0) (hne : o ≠ m)
    (ht : p.eng.lockTook.contains (now / cyc, k) = false) : LockHeldAgainst now m k p := by
  subst h
  exact ⟨ho, hne, fun hc => Bool.false_ne_true (ht.symm.trans hc.2)⟩

/-! ### Priority (R435) -/

theorem lockRank_lt_of_master {m : Nat} (h : 1 ≤ m ∧ m ≤ 5) : lockRank m < lockRank 0 := by
  obtain ⟨h1, h5⟩ := h
  interval_cases m <;> decide

theorem lockRank_injective {m n : Nat} (hm : 1 ≤ m ∧ m ≤ 5) (hn : 1 ≤ n ∧ n ≤ 5) (h : lockRank m = lockRank n) : m = n := by
  have all : ∀ a ∈ [1, 2, 3, 4, 5], ∀ b ∈ [1, 2, 3, 4, 5], lockRank a = lockRank b → a = b := by decide
  exact all m (by simp; omega) n (by simp; omega) h

/-- `lockFirst` of masters that follow a master `b`. -/
def lockFirstFrom (b : Nat) (l : List Nat) : Nat := l.foldl (fun b m => if lockRank m < lockRank b then m else b) b

theorem lockFirst_eq (l : List Nat) : lockFirst l = lockFirstFrom 0 l := rfl

theorem lockFirstFrom_cons (b a : Nat) (l : List Nat) :
    lockFirstFrom b (a :: l) = lockFirstFrom (if lockRank a < lockRank b then a else b) l := rfl

theorem lockFirstFrom_mem (b : Nat) (l : List Nat) : lockFirstFrom b l ∈ b :: l := by
  induction l generalizing b with
  | nil => exact List.mem_cons_self
  | cons a l ih =>
    have h := ih (if lockRank a < lockRank b then a else b)
    rw [lockFirstFrom_cons]
    split at h <;> grind

theorem lockRank_lockFirstFrom_le (b : Nat) (l : List Nat) : ∀ m ∈ b :: l, lockRank (lockFirstFrom b l) ≤ lockRank m := by
  induction l generalizing b with
  | nil => simp [lockFirstFrom]
  | cons a l ih =>
    have h := ih (if lockRank a < lockRank b then a else b)
    rw [lockFirstFrom_cons]
    split at h <;> grind

theorem lockRank_lockFirst_le {l : List Nat} {m : Nat} (h : m ∈ l) : lockRank (lockFirst l) ≤ lockRank m :=
  lockRank_lockFirstFrom_le 0 l m (List.mem_cons_of_mem 0 h)

theorem lockFirst_mem {l : List Nat} (hne : l ≠ []) (h : ∀ m ∈ l, 1 ≤ m ∧ m ≤ 5) : lockFirst l ∈ l := by
  rcases List.mem_cons.mp (lockFirstFrom_mem 0 l) with h0 | hl
  · obtain ⟨a, ha⟩ := List.exists_mem_of_ne_nil l hne
    have hle := lockRank_lockFirst_le ha
    rw [lockFirst_eq, h0] at hle
    exact absurd (lockRank_lt_of_master (h a ha)) (Nat.not_lt.mpr hle)
  · exact hl

theorem lockFirst_ne_zero {l : List Nat} (hne : l ≠ []) (h : ∀ m ∈ l, 1 ≤ m ∧ m ≤ 5) : lockFirst l ≠ 0 :=
  Nat.one_le_iff_ne_zero.mp (h _ (lockFirst_mem hne h)).1

/-- The master of highest rank does not depend on the order of the rows. -/
theorem lockFirst_reverse {l : List Nat} (hne : l ≠ []) (h : ∀ m ∈ l, 1 ≤ m ∧ m ≤ 5) : lockFirst l.reverse = lockFirst l := by
  have hr : lockFirst l.reverse ∈ l :=
    List.mem_reverse.mp (lockFirst_mem (List.reverse_ne_nil_iff.mpr hne) fun m hm => h m (List.mem_reverse.mp hm))
  have hf := lockFirst_mem hne h
  exact lockRank_injective (h _ hr) (h _ hf)
    (Nat.le_antisymm (lockRank_lockFirst_le (List.mem_reverse.mpr hf)) (lockRank_lockFirst_le hr))

/-! ### Reads of one cycle (R435) -/

/-- The masters whose reads have found lock `k` held in the cycle of `now`, the last first. -/
def lockLosers (now k : Nat) (p : Polder) : List Nat :=
  (p.eng.lockLost.filter fun x => x.1 == now / cyc && x.2.1 == k).map (·.2.2)

theorem lockLosers_lockLose (now m k : Nat) (p : Polder) : lockLosers now k (lockLose now m k p) = m :: lockLosers now k p := by
  unfold lockLosers lockLose
  simp only [modEng_eng, beq_self_eq_true, Bool.and_self, List.filter_cons_of_pos, List.map_cons, List.filter_filter]
  congr 3
  funext x
  cases x.1 == now / cyc <;> simp

theorem lockLosers_eq_nil {now k : Nat} {p : Polder} (h : ∀ x ∈ p.eng.lockLost, x.1 = now / cyc → x.2.1 ≠ k) : lockLosers now k p = [] := by
  unfold lockLosers
  rw [List.map_eq_nil_iff, List.filter_eq_nil_iff]
  intro x hx
  simpa using h x hx

theorem lockOwner_foldl_lockLose (now k j : Nat) (l : List Nat) (p : Polder) :
    lockOwner (l.foldl (fun q m => lockLose now m k q) p) j = lockOwner p j := by
  induction l generalizing p with
  | nil => rfl
  | cons m l ih => exact ih (lockLose now m k p)

theorem lockLosers_foldl_lockLose (now k : Nat) (l : List Nat) (p : Polder) :
    lockLosers now k (l.foldl (fun q m => lockLose now m k q) p) = l.reverse ++ lockLosers now k p := by
  induction l generalizing p with
  | nil => rfl
  | cons m l ih => rw [List.foldl_cons, ih, lockLosers_lockLose, List.reverse_cons, List.append_assoc, List.singleton_append]

/-- Readers that all find the lock held against them are remembered, and no more. -/
theorem foldl_lockRead_of_heldAgainst {now k : Nat} {l : List Nat} {p : Polder} (h : ∀ m ∈ l, LockHeldAgainst now m k p) :
    l.foldl (fun q m => (lockRead now m k q).2) p = l.foldl (fun q m => lockLose now m k q) p := by
  induction l generalizing p with
  | nil => rfl
  | cons m l ih =>
    obtain ⟨hm, hl⟩ := List.forall_mem_cons.mp h
    rw [List.foldl_cons, List.foldl_cons, lockRead_of_heldAgainst hm]
    exact ih hl

/-- A lock that the first of the readers has taken is held against each of the others. -/
theorem lockHeldAgainst_of_owned_by_first {now k m : Nat} {l : List Nat} {p : Polder} (ho : lockOwner p k = lockFirst l) (h0 : lockFirst l ≠ 0)
    (hm : m ∈ l) (hne : m ≠ lockFirst l) : LockHeldAgainst now m k p := by
  rw [← ho] at h0 hne
  exact ⟨h0, hne.symm, fun hc => Nat.not_lt.mpr (ho ▸ lockRank_lockFirst_le hm) hc.1⟩

/-- R435: of the masters that read a free lock in one cycle the first by rank owns it. -/
theorem lockOwner_lockReads_of_free {now k : Nat} {l : List Nat} {p : Polder} (hk : k < 16) (hf : lockOwner p k = 0) (h0 : lockFirst l ≠ 0) :
    lockOwner (lockReads now l k p) k = lockFirst l := by
  have ho : lockOwner (lockTake now (lockFirst l) k p) k = lockFirst l := lockOwner_lockTake_self now _ p hk
  have hlose : ∀ m ∈ l.filter (· != lockFirst l), LockHeldAgainst now m k (lockTake now (lockFirst l) k p) := fun m hm => by
    obtain ⟨hl, hne⟩ := List.mem_filter.mp hm
    exact lockHeldAgainst_of_owned_by_first ho h0 hl (by simpa using hne)
  unfold lockReads
  simp only [h0, if_false, lockRead_of_free now (lockFirst l) hf]
  rw [foldl_lockRead_of_heldAgainst hlose, lockOwner_foldl_lockLose, ho]

/-! ### A write of a lock (R436) -/

/-- A write by the owner: the lock passes to the first of the masters that have read it in the cycle, and is free where none has. -/
theorem lockWrite_of_owner (now : Nat) {m k : Nat} {p : Polder} (h : lockOwner p k = m) :
    lockWrite now m k p = modEng (fun e => { e with lockLost := e.lockLost.filter fun x => x.2.1 != k })
      (lockTake now (lockFirst (lockLosers now k p)) k p) := by
  unfold lockWrite
  exact if_pos h

theorem lockOwner_lockWrite_self (now : Nat) {m k : Nat} {p : Polder} (hk : k < 16) (h : lockOwner p k = m) :
    lockOwner (lockWrite now m k p) k = lockFirst (lockLosers now k p) := by
  rw [lockWrite_of_owner now h]
  exact lockOwner_lockTake_self now _ p hk

theorem lockOwner_lockWrite_ne (now : Nat) {m k j : Nat} {p : Polder} (h : lockOwner p k = m) (hj : j ≠ k) :
    lockOwner (lockWrite now m k p) j = lockOwner p j := by
  rw [lockWrite_of_owner now h]
  exact lockOwner_lockTake_ne now _ p hj

theorem lockWrite_regs_of_owner (now : Nat) {m k : Nat} {p : Polder} (h : lockOwner p k = m) : (lockWrite now m k p).regs = p.regs := by
  rw [lockWrite_of_owner now h]
  rfl

theorem lockOwner_lockWrite_of_noLosers {now m k : Nat} {p : Polder} (hk : k < 16) (h : lockOwner p k = m)
    (hl : ∀ x ∈ p.eng.lockLost, x.1 = now / cyc → x.2.1 ≠ k) : lockOwner (lockWrite now m k p) k = 0 := by
  rw [lockOwner_lockWrite_self now hk h, lockLosers_eq_nil hl]
  rfl

theorem lockWrite_of_other (now : Nat) {m k : Nat} {p : Polder} (h : lockOwner p k ≠ m) :
    lockWrite now m k p = evt F.MBX_EVT_LOCK_BADREL (wr p A.MBX_LOCKBAD (wordN (m % 16 * 16 + k % 16))) := by
  unfold lockWrite
  exact if_neg h

theorem lockOwner_lockWrite_of_other (now j : Nat) {m k : Nat} {p : Polder} (h : lockOwner p k ≠ m) :
    lockOwner (lockWrite now m k p) j = lockOwner p j := by
  rw [lockWrite_of_other now h]
  rfl

theorem fbit_evt_self (p : Polder) (f : Fld) (hw : f.hi = f.lo) (h : f.hi < 32) : fbit (evt f p) f = true := by
  have hget : fget (evt f p) f = 1 % 2 ^ (f.hi + 1 - f.lo) := fget_fput_self p f 1 h
  unfold fbit
  rw [hget, hw, Nat.add_sub_cancel_left]
  rfl

theorem rd_evt_ne (p : Polder) (f : Fld) {o : Nat} (h : o ≠ f.off) : rd (evt f p) o = rd p o := rd_fput_ne p f 1 h

theorem lockBadrel_lockWrite_of_other (now : Nat) {m k : Nat} {p : Polder} (h : lockOwner p k ≠ m) :
    fbit (lockWrite now m k p) F.MBX_EVT_LOCK_BADREL = true := by
  rw [lockWrite_of_other now h]
  exact fbit_evt_self _ _ rfl (by decide)

theorem lockBad_lockWrite_of_other (now : Nat) {m k : Nat} {p : Polder} (hk : k < 16) (h : lockOwner p k ≠ m) :
    rd (lockWrite now m k p) A.MBX_LOCKBAD = wordN (m % 16 * 16 + k) := by
  rw [lockWrite_of_other now h, rd_evt_ne _ _ (by decide), rd_wr_self, Nat.mod_eq_of_lt hk]

/-- R436: a reader of the cycle whose row stands before the release has the lock after it, the first by rank of several. -/
theorem lockOwner_lockWrite_after_reads {now k m : Nat} {l : List Nat} {p : Polder} (hk : k < 16) (ho : lockOwner p k = m) (hm : m ≠ 0)
    (hne : l ≠ []) (hl : ∀ r ∈ l, 1 ≤ r ∧ r ≤ 5) (hlost : ∀ x ∈ p.eng.lockLost, x.1 = now / cyc → x.2.1 ≠ k)
    (ht : p.eng.lockTook.contains (now / cyc, k) = false) (hr : ∀ r ∈ l, r ≠ m) :
    lockOwner (lockWrite now m k (l.foldl (fun q r => (lockRead now r k q).2) p)) k = lockFirst l := by
  have hlose : ∀ r ∈ l, LockHeldAgainst now r k p := fun r h => lockHeldAgainst_of_notTaken ho hm (hr r h).symm ht
  rw [foldl_lockRead_of_heldAgainst hlose, lockOwner_lockWrite_self now hk ((lockOwner_foldl_lockLose now k k l p).trans ho),
    lockLosers_foldl_lockLose, lockLosers_eq_nil hlost, List.append_nil, lockFirst_reverse hne hl]

/-! ### The lock registers on the bus -/

/-- A lock register is a word of its own: none of a memory, none of a mailbox. -/
theorem lockRegister_decoded : ∀ k < 16, A.MBX_LOCK k % 4 = 0 ∧ inTable (A.MBX_LOCK k) = false ∧ inMemory (A.MBX_LOCK k) = false ∧
    dataQueue (A.MBX_LOCK k) = none ∧ lockIndex (A.MBX_LOCK k) = some k := by decide

theorem busRead_lock (part : Part) (now : Nat) {x : Master} {i : PolderId} {k : Nat} (p : Polder) (hk : k < 16)
    (hr : reaches x i (A.MBX_LOCK k) = true) :
    busRead part now x i (A.MBX_LOCK k) p = (((lockRead now x.id k p).1, false), (lockRead now x.id k p).2) := by
  obtain ⟨hw, -, hmem, hq, hi⟩ := lockRegister_decoded k hk
  unfold busRead
  simp [hr, hw, hmem, hq, hi]

theorem busWrite_lock (now : Nat) {x : Master} {i : PolderId} {k : Nat} (v : Word) (p : Polder) (hk : k < 16)
    (hr : reaches x i (A.MBX_LOCK k) = true) : busWrite now x i (A.MBX_LOCK k) v p = (.ok, lockWrite now x.id k p) := by
  obtain ⟨hw, htab, hmem, hq, hi⟩ := lockRegister_decoded k hk
  unfold busWrite
  simp [hr, hw, htab, hmem, hq, hi]

theorem live_at (s : State) (t : Nat) (m : Master) : live (s.at' t) m = live s m := by
  cases m <;> simp [live]

/-- The frame of a direct write of every master but a monitor. -/
theorem onWrite_of_accesses {s : State} {t : Nat} {i : PolderId} {m : Master} {now : Nat} {p : Polder} (off : Nat) (v : Word)
    (h : Accesses s t i m now p) : onWrite t i m off v s = .next (s.after t i (busWrite now m i off v p).2) := by
  obtain ⟨hp, ha, hl, hm, rfl, rfl⟩ := h
  have hdev : onWrite t i m off v s = onPart t i s fun now y =>
      if live y m && awake (y.pol i) then y.modPol i (fun q => polish now (busWrite now m i off v q).2) else y := by
    cases m with
    | mon j => exact absurd rfl (hm j)
    | ce j => rfl
    | se j => rfl
    | hall => rfl
    | dkh => rfl
  rw [hdev, onPart_eq _ _ _ _ hp]
  simp only [live_at, hl, at_pol, ha, Bool.and_self, if_true]
  rw [leaves_modPol]

theorem does_lockRelease {s : State} {t : Nat} {i : PolderId} {m : Master} {now k : Nat} {p : Polder} (h : Accesses s t i m now p) (hk : k < 16)
    (hr : reaches m i (A.MBX_LOCK k) = true) : Does (.lockRelease t i m k) s t i (lockWrite now m.id k p) := by
  have he : exec (.lockRelease t i m k) s = onWrite t i m (A.MBX_LOCK k) 0 s := if_neg (by omega)
  unfold Does
  rw [he, onWrite_of_accesses _ _ h, busWrite_lock now 0 p hk hr]

/-! ### `MBX_LOCKOWN0` and `MBX_LOCKOWN1` -/

/-- Below `16 ^ n` the sum of `n` hexadecimal digits holds each of them at its place. -/
theorem hexDigits_sum (d : Nat → Nat) (hd : ∀ k, d k < 16) (n : Nat) :
    (List.range n).foldl (fun a k => a + d k * 16 ^ k) 0 < 16 ^ n ∧
      ∀ i < n, (List.range n).foldl (fun a k => a + d k * 16 ^ k) 0 / 16 ^ i % 16 = d i := by
  induction n with
  | zero => simp
  | succ n ih =>
    obtain ⟨hlt, hdig⟩ := ih
    rw [List.range_succ, List.foldl_append, List.foldl_cons, List.foldl_nil]
    refine ⟨?_, fun i hi => ?_⟩
    · have := Nat.mul_le_mul_right (16 ^ n) (Nat.le_sub_one_of_lt (hd n))
      rw [pow_succ]
      omega
    · rcases Nat.lt_succ_iff_lt_or_eq.mp hi with hlow | rfl
      · have hpow : 16 ^ n = 16 ^ i * (16 * 16 ^ (n - i - 1)) := by
          rw [← pow_succ', ← pow_add]
          congr 1
          omega
        have hsum : d n * 16 ^ n = 16 ^ i * (16 * (16 ^ (n - i - 1) * d n)) := by
          rw [hpow]
          ring
        rw [hsum, Nat.add_mul_div_left _ _ (by positivity), Nat.add_mul_mod_self_left, hdig i hlow]
      · rw [Nat.add_mul_div_right _ _ (by positivity), Nat.div_eq_of_lt hlt, Nat.zero_add, Nat.mod_eq_of_lt (hd i)]

theorem lockOwnWord_field (p : Polder) (j : Nat) {i : Nat} (h : i < 8) :
    bitsOf (lockOwnWord p j) (4 * i + 3) (4 * i) = lockOwner p (8 * j + i) % 16 := by
  obtain ⟨hlt, hdig⟩ := hexDigits_sum (fun k => lockOwner p (8 * j + k) % 16) (fun k => Nat.mod_lt _ (by decide)) 8
  have hwidth : 4 * i + 3 + 1 - 4 * i = 4 := by omega
  unfold bitsOf lockOwnWord wordN
  rw [BitVec.toNat_ofNat, Nat.mod_eq_of_lt (b := 2 ^ 32) hlt, hwidth, pow_mul]
  exact hdig i h

theorem lockOwn_shows_owner (part : Part) (now : Nat) (p : Polder) {k : Nat} (h : k < 16) :
    bitsOf (viewWord part now p (if k < 8 then A.MBX_LOCKOWN0 else A.MBX_LOCKOWN1)) (4 * (k % 8) + 3) (4 * (k % 8)) = lockOwner p k % 16 := by
  have hview : viewWord part now p (if k < 8 then A.MBX_LOCKOWN0 else A.MBX_LOCKOWN1) = lockOwnWord p (k / 8) := by
    by_cases h8 : k < 8
    · rw [if_pos h8, Nat.div_eq_of_lt h8]
      rfl
    · rw [if_neg h8, show k / 8 = 1 by omega]
      rfl
  rw [hview, lockOwnWord_field p _ (Nat.mod_lt k (by decide)), Nat.div_add_mod]

/-! ### O54 -/

/-- R434: one read of a lock. -/
theorem lockRead_rules {p : Polder} {now m k : Nat} (hk : k < 16) :
    (lockOwner p k = 0 → (lockRead now m k p).1 = 0 ∧ lockOwner (lockRead now m k p).2 k = m) ∧
    (∀ o, lockOwner p k = o → o ≠ 0 → (o = m → lockRead now m k p = (wordN (0xC0000000 + o % 16), p)) ∧
      (o ≠ m → p.eng.lockTook.contains (now / cyc, k) = false → (lockRead now m k p).1 = wordN (0x80000000 + o % 16) ∧
        (lockRead now m k p).2.regs = p.regs ∧ ∀ j, lockOwner (lockRead now m k p).2 j = lockOwner p j)) := by
  refine ⟨fun hf => ?_, fun o ho h0 => ⟨fun hom => ?_, fun hom ht => ?_⟩⟩
  · rw [lockRead_of_free now m hf]
    exact ⟨rfl, lockOwner_lockTake_self now m p hk⟩
  · subst hom
    exact lockRead_of_owner now ho h0
  · rw [lockRead_of_heldAgainst (lockHeldAgainst_of_notTaken ho h0 hom ht), ho]
    exact ⟨rfl, rfl, fun j => rfl⟩

/-- Settles O54: the first reader by rank takes a free lock and the others find it held against them; the owner's write passes the lock to the first of
the cycle's readers. -/
theorem locksAcquireAndRelease : Obligations.LocksAcquireAndRelease := by
  unfold Obligations.LocksAcquireAndRelease
  refine ⟨fun part p now m k hk => ?_, fun p now k l hk hf hne hl => ?_, by decide, fun s t i m now p k hacc hk hr => ⟨fun ho hlost => ?_, fun ho => ?_⟩,
    fun p now k m l hk ho hm hne hl hlost ht => ?_⟩
  · obtain ⟨hfree, hheld⟩ := lockRead_rules (p := p) (now := now) (m := m) hk
    refine ⟨hfree, hheld, fun x i hx hr => ?_, lockOwn_shows_owner part now p hk⟩
    rw [← hx]
    exact busRead_lock part now p hk hr
  · have h0 := lockFirst_ne_zero hne hl
    have ho := lockOwner_lockReads_of_free (now := now) hk hf h0
    refine ⟨lockFirst l, lockFirst_mem hne hl, fun m => lockRank_lockFirst_le, ?_, ho, fun m hm hmw => ?_⟩
    · rw [lockRead_of_free now _ hf]
    · have h5 := (hl _ (lockFirst_mem hne hl)).2
      rw [lockRead_of_heldAgainst (lockHeldAgainst_of_owned_by_first ho h0 hm hmw), ho, Nat.mod_eq_of_lt (by omega)]
  · exact ⟨_, does_lockRelease hacc hk hr, lockOwner_lockWrite_of_noLosers hk ho hlost, lockWrite_regs_of_owner now ho,
      fun j hj => lockOwner_lockWrite_ne now ho hj⟩
  · exact ⟨_, does_lockRelease hacc hk hr, fun j => lockOwner_lockWrite_of_other now j ho, lockBadrel_lockWrite_of_other now ho,
      lockBad_lockWrite_of_other now hk ho⟩
  · have hfree := lockOwner_lockWrite_of_noLosers hk ho hlost
    refine ⟨lockFirst l, lockFirst_mem hne hl, fun r => lockRank_lockFirst_le, lockOwner_lockReads_of_free hk hfree (lockFirst_ne_zero hne hl), ?_,
      lockOwner_lockWrite_after_reads hk ho hm hne hl hlost ht⟩
    rw [lockRead_of_free now _ hfree]

end Sys2Proof.Machine
end

section
/-! SUPPORT. What the Hall's sessions and tokens are under every operation over the whole device (R406, R408 to R410), and the frame of every row: an event at the
device, or one at a polder that the part must have. -/
namespace Sys2Proof.Machine
open Sys2Proof

/-! ### Sessions and tokens -/

/-- The indices of the open sessions. -/
def sessionIdx (h : Hall) : List Nat := h.sessions.map (·.idx)

theorem sessionsOk_iff (s : State) : s.sessionsOk ↔
    (sessionIdx s.hall).Nodup ∧ (∀ i ∈ sessionIdx s.hall, i < 8) ∧ ∀ k l, vget s.hall.tokens k none = some l → l.holder ∈ sessionIdx s.hall := by
  simp [State.sessionsOk, sessionIdx]

/-- `y` differs from `s` in no session's index, and in its tokens only by those that are free in `y` or held there by a session of `g`. -/
structure Grants (g : Nat → Prop) (s y : State) : Prop where
  part : y.part = s.part
  now : y.now = s.now
  pending : y.pending = s.pending
  idx : sessionIdx y.hall = sessionIdx s.hall
  tokens : ∀ k l, vget y.hall.tokens k none = some l → vget s.hall.tokens k none = some l ∨ g l.holder

/-- Tokens are at most released. -/
abbrev Frees (s y : State) : Prop := Grants (fun _ => False) s y

theorem Grants.refl (g : Nat → Prop) (s : State) : Grants g s s := ⟨rfl, rfl, rfl, rfl, fun _ _ => Or.inl⟩

theorem Grants.trans {g : Nat → Prop} {s y z : State} (h : Grants g s y) (k : Grants g y z) : Grants g s z :=
  ⟨k.part.trans h.part, k.now.trans h.now, k.pending.trans h.pending, k.idx.trans h.idx,
    fun n l hl => (k.tokens n l hl).elim (h.tokens n l) Or.inr⟩

theorem Grants.foldl {g : Nat → Prop} {α : Type} (f : State → α → State) (hf : ∀ s a, Grants g s (f s a)) (l : List α) (s : State) :
    Grants g s (l.foldl f s) := by
  induction l generalizing s with
  | nil => exact .refl g s
  | cons a l ih => exact (hf s a).trans (ih (f s a))

theorem Local.grants {i : PolderId} {s y : State} (g : Nat → Prop) (h : Local i s y) : Grants g s y :=
  ⟨h.part, h.now, h.pending, h.idx, fun _ _ hl => .inl (h.tokens ▸ hl)⟩

theorem Talks.grants {s y : State} (g : Nat → Prop) (h : Talks s y) : Grants g s y := (h.local' .A).grants g

theorem grants_collect (g : Nat → Prop) (now : Nat) (s : State) : Grants g s (collect now s) := (local_collect .A now s).grants g

theorem grants_modPol (g : Nat → Prop) (i : PolderId) (f : Polder → Polder) (s : State) : Grants g s (s.modPol i f) := (local_modPol i f s).grants g

theorem Frees.grants {g : Nat → Prop} {s y : State} (h : Frees s y) : Grants g s y :=
  ⟨h.part, h.now, h.pending, h.idx, fun k l hl => .inl ((h.tokens k l hl).resolve_right id)⟩

theorem Frees.tokens {s y : State} (h : Frees s y) {k : Nat} {l : Lease} (hl : vget y.hall.tokens k none = some l) :
    vget s.hall.tokens k none = some l := (Grants.tokens h k l hl).resolve_right id

/-- The part, the time, the queue of commands stay, and sound sessions and tokens stay sound. -/
structure Keeps (s y : State) : Prop where
  part : y.part = s.part
  now : y.now = s.now
  pending : y.pending = s.pending
  sound : s.sessionsOk → y.sessionsOk

theorem Keeps.refl (s : State) : Keeps s s := ⟨rfl, rfl, rfl, id⟩

theorem Keeps.trans {s y z : State} (h : Keeps s y) (k : Keeps y z) : Keeps s z :=
  ⟨k.part.trans h.part, k.now.trans h.now, k.pending.trans h.pending, k.sound ∘ h.sound⟩

theorem Keeps.foldl {α : Type} (f : State → α → State) (hf : ∀ s a, Keeps s (f s a)) (l : List α) (s : State) : Keeps s (l.foldl f s) := by
  induction l generalizing s with
  | nil => exact .refl s
  | cons a l ih => exact (hf s a).trans (ih (f s a))

theorem keeps_ite {s y z : State} (b : Prop) [Decidable b] (h : Keeps s y) (g : Keeps s z) : Keeps s (if b then y else z) := by
  split <;> assumption

theorem Grants.keeps {g : Nat → Prop} {s y : State} (h : Grants g s y) (hg : ∀ i, g i → i ∈ sessionIdx s.hall) : Keeps s y := by
  refine ⟨h.part, h.now, h.pending, fun hs => ?_⟩
  rw [sessionsOk_iff] at hs ⊢
  obtain ⟨hn, h8, ht⟩ := hs
  rw [h.idx]
  exact ⟨hn, h8, fun k l hl => (h.tokens k l hl).elim (ht k l) (hg _)⟩

theorem Frees.keeps {s y : State} (h : Frees s y) : Keeps s y := Grants.keeps h fun _ => False.elim

theorem Local.keeps {i : PolderId} {s y : State} (h : Local i s y) : Keeps s y := (h.grants fun _ => False).keeps fun _ => False.elim

theorem Talks.keeps {s y : State} (h : Talks s y) : Keeps s y := (h.local' .A).keeps

theorem keeps_collect (now : Nat) (s : State) : Keeps s (collect now s) := (local_collect .A now s).keeps

theorem keeps_modPol (i : PolderId) (f : Polder → Polder) (s : State) : Keeps s (s.modPol i f) := (local_modPol i f s).keeps

theorem keeps_modDkh (f : Dikehouse → Dikehouse) (s : State) : Keeps s (modDkh f s) := (local_modDkh .A f s).keeps

/-- A change of the Hall that leaves tokens and sessions' indices alone; it may start or stop the Hall. -/
theorem keeps_modHall (f : Hall → Hall) (s : State) (ht : (f s.hall).tokens = s.hall.tokens) (hi : sessionIdx (f s.hall) = sessionIdx s.hall) :
    Keeps s (modHall f s) :=
  Frees.keeps ⟨rfl, rfl, rfl, hi, fun _ _ hl => .inl (ht ▸ hl)⟩

theorem keeps_rails (r : RailState) (s : State) : Keeps s { s with rails := r } := (local_rails .A r s).keeps

theorem keeps_free (n : Nat) (s : State) : Keeps s { s with free := n } := ⟨rfl, rfl, rfl, id⟩

/-! ### Tokens (R409, R410) -/

theorem frees_token (k : Nat) (s : State) : Frees s (modHall (fun h => { h with tokens := vset h.tokens k none }) s) := by
  refine ⟨rfl, rfl, rfl, rfl, fun j l hl => .inl ?_⟩
  rw [modHall_hall] at hl
  by_cases hj : j = k
  · subst hj
    by_cases h5 : j < 5
    · rw [vget_vset_self _ _ _ h5] at hl
      cases hl
    · unfold vget vset at hl
      rw [Vector.getElem?_eq_none (by omega)] at hl
      cases hl
  · rwa [vget_vset_ne _ _ _ hj] at hl

theorem frees_freeToken (now k : Nat) (s : State) : Frees s (freeToken now k s) := by
  unfold freeToken
  split
  · exact .refl _ s
  · dsimp only
    refine (frees_token k s).trans ?_
    split
    · split
      · exact grants_modPol _ _ _ _
      · exact .refl _ _
    · exact .refl _ _

theorem frees_loseToken (now k i : Nat) (s : State) : Frees s (loseToken now k i s) := by
  unfold loseToken
  refine (frees_freeToken now k s).trans ?_
  dsimp only
  split
  · split
    · exact grants_modPol _ _ _ _
    · exact .refl _ _
  · exact .refl _ _

/-- A token that has been freed has no holder. -/
theorem freeToken_token (now k : Nat) (s : State) : vget (freeToken now k s).hall.tokens k none = none := by
  have hfree : vget (vset s.hall.tokens k none) k none = none := by
    by_cases h5 : k < 5
    · exact vget_vset_self _ _ _ h5
    · unfold vget
      rw [Vector.getElem?_eq_none (by omega)]
      rfl
  unfold freeToken
  split
  next h => exact h
  next =>
    dsimp only
    split
    · split <;> simpa using hfree
    · simpa using hfree

theorem loseToken_token (now k i : Nat) (s : State) : vget (loseToken now k i s).hall.tokens k none = none := by
  have h := freeToken_token now k s
  unfold loseToken
  dsimp only
  split
  · split <;> simpa using h
  · exact h

theorem leaseTo_grants (now k i : Nat) (s : State) : Grants (· = i) s (leaseTo now k i s) := by
  refine ⟨rfl, rfl, rfl, rfl, fun j l hl => ?_⟩
  unfold leaseTo at hl
  rw [modHall_hall] at hl
  by_cases hj : j = k
  · subst hj
    by_cases h5 : j < 5
    · rw [vget_vset_self _ _ _ h5] at hl
      cases hl
      exact .inr rfl
    · unfold vget vset at hl
      rw [Vector.getElem?_eq_none (by omega)] at hl
      cases hl
  · rw [vget_vset_ne _ _ _ hj] at hl
    exact .inl hl

theorem keeps_tokenLapse (now k : Nat) (s : State) : Keeps s (tokenLapse now k s) := by
  unfold tokenLapse
  split
  · exact .refl s
  · split
    · exact (frees_loseToken now k _ s).keeps.trans ((talks_hallNote _ _ _ _).trans (talks_notify _ _ _ _ _ _ _ _)).keeps
    · exact .refl s

/-! ### Closing a session (R406, R408) -/

theorem tokenMask_testBit (f : Nat → Bool) {k : Nat} (h : k < 5) : (tokenMask f).testBit k = f k := by
  have all : ∀ a b c d e : Bool, tokenMask (fun n => [a, b, c, d, e].getD n false) =
      tokenMask f → [a, b, c, d, e].getD k false = f k → (tokenMask f).testBit k = f k := by
    intro a b c d e hm hk
    rw [← hm, ← hk]
    interval_cases k <;> cases a <;> cases b <;> cases c <;> cases d <;> cases e <;> rfl
  refine all (f 0) (f 1) (f 2) (f 3) (f 4) rfl ?_
  interval_cases k <;> rfl

theorem mem_tokensOf_tokenMask (f : Nat → Bool) {k : Nat} (h : k < 5) (hf : f k = true) : k ∈ tokensOf (tokenMask f) := by
  unfold tokensOf
  rw [List.mem_filter, tokenMask_testBit f h]
  exact ⟨by simp; omega, hf⟩

theorem token_lt_of_held {h : Hall} {k : Nat} {l : Lease} (hl : vget h.tokens k none = some l) : k < 5 := by
  by_contra hk
  unfold vget at hl
  rw [Vector.getElem?_eq_none (by omega)] at hl
  cases hl

/-- Tokens that have been lost in turn are free. -/
theorem foldl_loseToken_token (now i : Nat) (l : List Nat) (s : State) {k : Nat} (h : k ∈ l) :
    vget (l.foldl (fun y j => loseToken now j i y) s).hall.tokens k none = none := by
  induction l generalizing s with
  | nil => cases h
  | cons a l ih =>
    by_cases hl : k ∈ l
    · exact ih _ hl
    · obtain rfl : k = a := (List.mem_cons.mp h).resolve_right hl
      have hf : Frees (loseToken now k i s) (l.foldl (fun y j => loseToken now j i y) (loseToken now k i s)) :=
        Grants.foldl _ (fun y j => frees_loseToken now j i y) l _
      by_contra hne
      obtain ⟨x, hx⟩ := Option.ne_none_iff_exists'.mp hne
      have := hf.tokens hx
      rw [loseToken_token] at this
      cases this

/-- Once a session has lost its own tokens it holds none. -/
theorem holder_ne_of_lost (now i : Nat) (s : State) {k : Nat} {l : Lease}
    (hl : vget ((tokensOf (ownTokens s.hall i)).foldl (fun y j => loseToken now j i y) s).hall.tokens k none = some l) : l.holder ≠ i := by
  intro hi
  have hf : Frees s ((tokensOf (ownTokens s.hall i)).foldl (fun y j => loseToken now j i y) s) :=
    Grants.foldl _ (fun y j => frees_loseToken now j i y) _ _
  have hs := hf.tokens hl
  have hold : holds s.hall k i = true := by
    unfold holds
    rw [hs]
    simp [hi]
  have hnone := foldl_loseToken_token now i (tokensOf (ownTokens s.hall i)) s
    (mem_tokensOf_tokenMask (fun j => holds s.hall j i) (token_lt_of_held hs) hold)
  rw [hnone] at hl
  cases hl

/-- A session that holds no token leaves. -/
theorem keeps_dropSession (i : Nat) (s : State) (h : ∀ k l, vget s.hall.tokens k none = some l → l.holder ≠ i) :
    Keeps s (modHall (fun h => { h with sessions := h.sessions.filter fun x => x.idx != i }) s) := by
  refine ⟨rfl, rfl, rfl, fun hs => ?_⟩
  rw [sessionsOk_iff] at hs ⊢
  obtain ⟨hn, h8, ht⟩ := hs
  have hsub : (sessionIdx (modHall (fun h => { h with sessions := h.sessions.filter fun x => x.idx != i }) s).hall) =
      (sessionIdx s.hall).filter (· != i) := by
    unfold sessionIdx
    rw [List.filter_map]
    rfl
  rw [hsub]
  exact ⟨hn.filter _, fun j hj => h8 j (List.mem_of_mem_filter hj),
    fun k l hl => List.mem_filter.mpr ⟨ht k l hl, by simpa using h k l hl⟩⟩

/-- The effects of R410 on a session that closes. -/
theorem frees_notifyClosing (now i : Nat) (cause : Option Nat) (s : State) : Frees s (match cause with
    | some c => notify now i 0 0 8 0 (leBytes 1 c ++ zeros 3) s
    | none => s) := by
  split
  · exact (talks_notify _ _ _ _ _ _ _ _).grants _
  · exact .refl _ s

theorem keeps_closeSession (now i : Nat) (cause : Option Nat) (s : State) : Keeps s (closeSession now i cause s) := by
  unfold closeSession
  split
  · exact .refl s
  · dsimp only
    have h1 : Frees s ((tokensOf (ownTokens s.hall i)).foldl (fun y k => loseToken now k i y) s) :=
      Grants.foldl _ (fun y j => frees_loseToken now j i y) _ _
    have hne := fun k l => holder_ne_of_lost now i s (k := k) (l := l)
    generalize (tokensOf (ownTokens s.hall i)).foldl (fun y k => loseToken now k i y) s = s1 at h1 hne
    have h2 : Frees s1 (if ownTokens s.hall i = 0 then s1 else
        notify now i 0 0 5 0 (leBytes 1 (ownTokens s.hall i) ++ zeros 3) (hallNote now F.HAL_EVT_TOKEN_LAPSE (some i) s1)) := by
      split
      · exact .refl _ s1
      · exact ((talks_hallNote _ _ _ _).trans (talks_notify _ _ _ _ _ _ _ _)).grants _
    generalize (if ownTokens s.hall i = 0 then s1 else _) = s2 at h2
    have h3 : Frees s2 (collect now ((presentPolders s2).foldl
        (fun y p => if awake (y.pol p) then y.modPol p (sluAbortOwner now i) else y) s2)) := by
      refine Grants.trans (Grants.foldl _ (fun y p => ?_) _ _) (grants_collect _ _ _)
      split
      · exact grants_modPol _ _ _ _
      · exact .refl _ y
    generalize collect now _ = s3 at h3
    have h14 := (h2.trans h3).trans (frees_notifyClosing now i cause s3)
    exact (Frees.keeps (h1.trans h14)).trans (keeps_dropSession i _ fun k l hl => hne k l (Frees.tokens h14 hl))

theorem keeps_sessionTimeout (now i : Nat) (s : State) : Keeps s (sessionTimeout now i s) := by
  unfold sessionTimeout
  split
  · exact .refl s
  · exact keeps_ite _ (keeps_closeSession _ _ _ _) (.refl s)

/-! ### Opening a session (R406) -/

/-- A session at an index below eight that none has. -/
theorem keeps_addSession (x : Session) (s : State) (h8 : x.idx < 8) (hn : x.idx ∉ sessionIdx s.hall) :
    Keeps s (modHall (fun h => { h with sessions := h.sessions ++ [x] }) s) := by
  refine ⟨rfl, rfl, rfl, fun hs => ?_⟩
  rw [sessionsOk_iff] at hs ⊢
  obtain ⟨hnd, hlt, ht⟩ := hs
  have hidx : sessionIdx (modHall (fun h => { h with sessions := h.sessions ++ [x] }) s).hall = sessionIdx s.hall ++ [x.idx] := by
    simp [sessionIdx]
  rw [hidx]
  refine ⟨hnd.append (List.nodup_singleton _) (by simpa using hn), fun i hi => ?_, fun k l hl => List.mem_append_left _ (ht k l hl)⟩
  rcases List.mem_append.mp hi with h | h
  · exact hlt i h
  · rw [List.mem_singleton.mp h]
    exact h8

theorem not_mem_sessionIdx {h : Hall} {i : Nat} (hi : (sessOf h i).isNone = true) : i ∉ sessionIdx h := by
  unfold sessOf at hi
  rw [Option.isNone_iff_eq_none, List.find?_eq_none] at hi
  unfold sessionIdx
  rw [List.mem_map]
  rintro ⟨x, hx, rfl⟩
  exact hi x hx (beq_self_eq_true _)

theorem mem_sessionIdx {h : Hall} {i : Nat} {x : Session} (hx : sessOf h i = some x) : x.idx ∈ sessionIdx h :=
  List.mem_map_of_mem (List.mem_of_find?_eq_some hx)

theorem mem_sessionIdx_of_id {h : Hall} {i : Nat} {x : Session} (hx : sessById h i = some x) : x.idx ∈ sessionIdx h :=
  List.mem_map_of_mem (List.mem_of_find?_eq_some hx)

theorem keeps_helloOpen (now : Nat) (a : HelloArgs) (s : State) : Keeps s (helloOpen now a s).2.2 := by
  unfold helloOpen
  dsimp only
  split
  · exact .refl s
  · split
    · exact .refl s
    · split
      · exact .refl s
      · split
        · exact .refl s
        next i hi =>
          have hfree := List.find?_some hi
          have hlt : i < 8 := List.mem_range.mp (List.mem_of_find?_eq_some hi)
          exact (keeps_addSession _ s hlt (not_mem_sessionIdx hfree)).trans (keeps_free _ _)

theorem keeps_hello (now : Nat) (a : HelloArgs) (s : State) : Keeps s (hello now a s) :=
  (keeps_helloOpen now a s).trans (talks_sendTo _ _ _ _ _).keeps

/-! ### Commands of the Hall (R419) -/

/-- A command of the Hall keeps sessions sound before its reply and after it. -/
def KeepsOutcome (s : State) (o : HallOutcome) : Prop := Keeps s o.2.1 ∧ ∀ y, Keeps y (o.2.2 y)

theorem keepsOutcome_hallOk (l : List Byte) {s y : State} (h : Keeps s y) : KeepsOutcome s (hallOk l y) := ⟨h, fun y => .refl y⟩

theorem keepsOutcome_hallBad (r : Reply) {s y : State} (h : Keeps s y) : KeepsOutcome s (hallBad r y) := ⟨h, fun y => .refl y⟩

theorem keepsOutcome_refuse (r : Reply) (s : State) : KeepsOutcome s (hallBad r s) := keepsOutcome_hallBad r (.refl s)

theorem keeps_hallAnswer (now : Nat) (src : Source) (tgt op : Nat) (c : Cmd) {s : State} {o : HallOutcome} (h : KeepsOutcome s o) :
    Keeps s (hallAnswer now src tgt op c o) := h.1.trans ((talks_sendReply _ _ _ _).keeps.trans (h.2 _))

theorem keeps_applyHeld (now : Nat) (s : State) : Keeps s (applyHeld now s) :=
  (keeps_modHall _ s rfl rfl).trans (keeps_modDkh _ _)

theorem foldl_hwr_sessions {α : Type} (o : α → Nat) (w : Hall → α → Word) (l : List α) (h : Hall) :
    (l.foldl (fun y a => hwr y (o a) (w y a)) h).tokens = h.tokens ∧ sessionIdx (l.foldl (fun y a => hwr y (o a) (w y a)) h) = sessionIdx h := by
  induction l generalizing h with
  | nil => exact ⟨rfl, rfl⟩
  | cons a l ih => exact ih (hwr h (o a) (w h a))

theorem keeps_modHall_hwrs {α : Type} (o : α → Nat) (w : Hall → Hall → α → Word) (l : List α) (s : State) :
    Keeps s (modHall (fun h => l.foldl (fun y a => hwr y (o a) (w h y a)) h) s) :=
  keeps_modHall _ s (foldl_hwr_sessions o (w s.hall) l s.hall).1 (foldl_hwr_sessions o (w s.hall) l s.hall).2

theorem keepsOutcome_hTake (now : Nat) (x : Session) (c : Cmd) {s : State} (hx : x.idx ∈ sessionIdx s.hall) : KeepsOutcome s (hTake now x c s) := by
  unfold hTake
  dsimp only
  split
  · exact keepsOutcome_refuse _ s
  split
  · exact keepsOutcome_refuse _ s
  split
  · exact keepsOutcome_refuse _ s
  refine keepsOutcome_hallOk _ (Grants.keeps (g := (· = x.idx)) ?_ fun i hi => hi ▸ hx)
  refine Grants.trans ?_ (Grants.foldl _ (fun y k => leaseTo_grants now k x.idx y) _ _)
  refine Grants.trans ?_ (Grants.foldl _ (fun y i => (talks_notify _ _ _ _ _ _ _ y).grants _) _ _)
  have hlost : ∀ l : List Nat, Grants (· = x.idx) s (l.foldl (fun y k => loseToken now k (holderCode s.hall k) y) s) :=
    fun l => Grants.foldl _ (fun y k => (frees_loseToken now k _ y).grants) l s
  split
  · exact hlost _
  · exact (hlost _).trans ((talks_hallNote _ _ _ _).grants _)

theorem keepsOutcome_hRelease (now : Nat) (x : Session) (c : Cmd) (s : State) : KeepsOutcome s (hRelease now x c s) :=
  keepsOutcome_hallOk _ (Frees.keeps (Grants.foldl _ (fun y k => frees_freeToken now k y) _ s))

theorem keepsOutcome_hNotes (x : Session) (c : Cmd) (s : State) : KeepsOutcome s (hNotes x c s) := by
  unfold hNotes
  split
  · exact keepsOutcome_hallOk _ (.refl s)
  · exact keepsOutcome_refuse _ s
  · exact keepsOutcome_hallBad _ (keeps_free _ s)

theorem keepsOutcome_hNetwork (now : Nat) (c : Cmd) (s : State) : KeepsOutcome s (hNetwork now c s) := by
  unfold hNetwork
  dsimp only
  split
  · exact keepsOutcome_refuse _ s
  · exact ⟨keeps_modHall_hwrs Prod.fst (fun _ _ e => e.2) _ s, keeps_applyHeld now⟩

theorem keepsOutcome_hSv (now : Nat) (c : Cmd) (s : State) : KeepsOutcome s (hSv now c s) := by
  unfold hSv
  dsimp only
  split
  · exact keepsOutcome_refuse _ s
  · split
    · exact keepsOutcome_refuse _ s
    · split
      · exact keepsOutcome_refuse _ s
      · exact ⟨(keeps_modHall _ s rfl rfl).trans (keeps_modDkh _ _), keeps_applyHeld now⟩

theorem keepsOutcome_hKey (now : Nat) (x : Session) (c : Cmd) (s : State) : KeepsOutcome s (hKey now x c s) := by
  unfold hKey
  extract_lets slot role field key keys s1
  split
  · exact keepsOutcome_refuse _ s
  · split
    · exact keepsOutcome_refuse _ s
    · exact ⟨(keeps_modHall _ s rfl rfl).trans (keeps_modDkh _ _), fun y => Keeps.foldl _ (fun z e => keeps_closeSession _ _ _ z) _ y⟩

theorem keepsOutcome_hSubscribe (x : Session) (c : Cmd) (s : State) : KeepsOutcome s (hSubscribe x c s) :=
  keepsOutcome_hallOk _ (talks_modSess x.idx (fun e => { e with classes := byteAt c.payload 0 % 16, targets := byteAt c.payload 1 % 32 })
    (fun _ => rfl) s).keeps

theorem keepsOutcome_hallCommand (now op : Nat) (x : Session) (c : Cmd) {s : State} (hx : x.idx ∈ sessionIdx s.hall) :
    KeepsOutcome s (hallCommand now op x c s) := by
  unfold hallCommand
  split
  · exact ⟨.refl s, keeps_closeSession now _ none⟩
  split
  · exact keepsOutcome_hTake now x c hx
  split
  · exact keepsOutcome_hRelease now x c s
  split
  · exact keepsOutcome_hSubscribe x c s
  split
  · exact keepsOutcome_hNotes x c s
  split
  · exact keepsOutcome_hNetwork now c s
  split
  · exact keepsOutcome_hSv now c s
  split
  · exact keepsOutcome_hKey now x c s
  · exact keepsOutcome_hallOk _ (.refl s)

/-! ### Expert access (R420, R421) -/

theorem keeps_applyWrite (now : Nat) (w : Word) (s : State) : Keeps s (applyWrite now w s) := by
  unfold applyWrite
  dsimp only
  have h1 : Keeps s (if bitOf w 2 then clearCounters s else s) :=
    keeps_ite _ (keeps_modHall_hwrs (fun k => A.HAL_CMDS + 4 * k) (fun _ _ _ => 0) _ s) (.refl s)
  refine h1.trans (keeps_ite _ (keeps_modHall_hwrs id (fun h _ o => hap h o) _ _) (keeps_ite _ (keeps_applyHeld now _) (.refl _)))

theorem keeps_hallWrite (now off : Nat) (v : Word) (s : State) : Keeps s (hallWrite now off v s).2 := by
  have herr : ∀ k, Keeps s (modHall (accErrH now k 3 off) s) := fun k => keeps_modHall _ s rfl rfl
  unfold hallWrite
  split
  · exact herr _
  · split
    · exact herr _
    · split
      · exact herr _
      · exact .refl s
      · exact keeps_ite _ (keeps_applyWrite _ _ s) (keeps_modHall _ s rfl rfl)

theorem keeps_hallRead (now off : Nat) (s : State) : Keeps s (hallRead now off s).2 := by
  have herr : ∀ k, Keeps s (modHall (accErrH now k 3 off) s) := fun k => keeps_modHall _ s rfl rfl
  unfold hallRead
  split
  · exact herr _
  · split
    · exact herr _
    · exact .refl s

theorem keeps_dkhWrite (now id off : Nat) (v : Word) (s : State) : Keeps s (dkhWrite now id off v s).2 := by
  have herr : ∀ k, Keeps s (modDkh (accErrK now k id off) s) := fun k => keeps_modDkh _ s
  unfold dkhWrite
  split
  · exact herr _
  split
  · exact herr _
  split
  · exact herr _
  · exact .refl s
  split
  · exact .refl s
  split
  · exact keeps_modDkh _ s
  · refine Keeps.trans (keeps_modDkh _ s) (keeps_ite _ (keeps_modDkh _ _) ?_)
    split
    · exact keeps_ite _ (.refl _) (keeps_modDkh _ _)
    · exact .refl _

theorem keeps_dkhRead (now id off : Nat) (s : State) : Keeps s (dkhRead now id off s).2 := by
  unfold dkhRead
  split
  · exact keeps_modDkh _ s
  · split
    · exact keeps_modDkh _ s
    · exact .refl s

theorem keeps_outside (now addr : Nat) (tgt : Target) (s : State) : Keeps s (outside now addr tgt s) := by
  unfold outside
  cases tgt with
  | hall => exact keeps_modHall _ s rfl rfl
  | polder i => exact keeps_modPol i _ s
  | dikehouse => exact keeps_modDkh _ s

theorem keeps_bridgeWrite (now : Nat) (tgt : Target) (addr : Nat) (v : Word) (s : State) : Keeps s (bridgeWrite now tgt addr v s).2 := by
  unfold bridgeWrite
  split
  · exact keeps_outside _ _ _ s
  · cases tgt with
    | hall => exact keeps_hallWrite _ _ _ s
    | polder i =>
      dsimp only
      split
      · dsimp only
        exact keeps_modPol i _ s
      · exact (local_setPol i _ s).keeps
    | dikehouse => exact keeps_dkhWrite _ _ _ _ s

theorem keeps_bridgeRead (now : Nat) (tgt : Target) (addr : Nat) (s : State) : Keeps s (bridgeRead now tgt addr s).2 := by
  unfold bridgeRead
  split
  · exact keeps_outside _ _ _ s
  · cases tgt with
    | hall => exact keeps_hallRead _ _ s
    | polder i =>
      dsimp only
      split
      · dsimp only
        exact keeps_modPol i _ s
      · exact (local_setPol i _ s).keeps
    | dikehouse => exact keeps_dkhRead _ _ _ s

theorem keeps_readRun (now : Nat) (tgt : Target) (n a : Nat) (s : State) : Keeps s (readRun now tgt n a s).2 := by
  induction n generalizing a s with
  | zero => exact .refl s
  | succ n ih => exact (keeps_bridgeRead now tgt _ s).trans (ih _ _)

theorem keeps_writeRun (now : Nat) (tgt : Target) (l : List Word) (a n : Nat) (s : State) : Keeps s (writeRun now tgt l a n s).2 := by
  induction l generalizing a n s with
  | nil => exact .refl s
  | cons w l ih =>
    have h := keeps_bridgeWrite now tgt (a % 4294967296) w s
    unfold writeRun
    split
    next heq =>
      rw [heq] at h
      exact h.trans (ih _ _ _)
    next heq =>
      rw [heq] at h
      exact h

theorem keepsOutcome_expert (now op : Nat) (tgt : Target) (c : Cmd) (s : State) : KeepsOutcome s (expert now op tgt c s) := by
  have hread : KeepsOutcome s (hReadWords now tgt c s) := by
    unfold hReadWords
    dsimp only
    have h := keeps_readRun now tgt (u16At c.payload 4) (u32At c.payload 0) s
    split
    · exact keepsOutcome_refuse _ s
    · split
      · exact keepsOutcome_refuse _ s
      · split
        · exact keepsOutcome_hallBad _ h
        · exact keepsOutcome_hallOk _ h
  have hwrite : KeepsOutcome s (hWriteWords now tgt c s) := by
    unfold hWriteWords
    dsimp only
    have h := keeps_writeRun now tgt (wordsAt c.payload 8 (u16At c.payload 4)) (u32At c.payload 0) 0 s
    generalize writeRun now tgt (wordsAt c.payload 8 (u16At c.payload 4)) (u32At c.payload 0) 0 s = r at h ⊢
    split
    · exact keepsOutcome_refuse _ s
    · split
      · exact keepsOutcome_refuse _ s
      · exact ⟨h.trans (keeps_modHall (fun x => { x with applied := s.hall.applied }) _ rfl rfl), fun y =>
        keeps_modHall (fun x => { x with applied := r.2.hall.applied }) y rfl rfl⟩
  have hgo : KeepsOutcome s (if op = Op.readWords then hReadWords now tgt c s else hWriteWords now tgt c s) := by
    split <;> assumption
  unfold expert
  dsimp only
  split
  · split
    · exact keepsOutcome_refuse _ s
    · split
      · exact keepsOutcome_refuse _ s
      · exact hgo
  · exact hgo

end Sys2Proof.Machine
end

section
/-! SUPPORT. What the Hall's ports and bridge, the rails and the Dikehouse keep of the sessions and tokens. -/
namespace Sys2Proof.Machine
open Sys2Proof

/-! ### The ports (R394 to R404) -/

theorem keeps_portHeard (now port : Nat) (s : State) : Keeps s (portHeard now port s) :=
  Keeps.foldl _ (fun y i => keeps_ite _ (keeps_modPol i _ y) (.refl y)) _ s

theorem talks_hallTx (f : Hall → Nat → Sent) (s : State) : Talks s (modHall (fun h => hallTx (f h) h) s) := talks_modHall _ s rfl rfl rfl

theorem remember_sessions (now : Nat) (prp : Option (Nat × Nat)) (h : Hall) :
    (remember now prp h).tokens = h.tokens ∧ sessionIdx (remember now prp h) = sessionIdx h := by
  cases prp <;> exact ⟨rfl, rfl⟩

theorem keeps_received (now port : Nat) (prp : Option (Nat × Nat)) (f : State → State) (hf : ∀ y, Keeps y (f y)) (s : State) :
    Keeps s (received now port prp f s) := by
  unfold received
  split
  · exact .refl s
  · refine (keeps_portHeard now port s).trans (keeps_ite _ (talks_hallCount _ _).keeps ?_)
    exact (keeps_modHall _ _ (remember_sessions now prp _).1 (remember_sessions now prp _).2).trans (hf _)

theorem keeps_arpRequest (now port : Nat) (prp : Option (Nat × Nat)) (target ip mac : Nat) (s : State) :
    Keeps s (arpRequest now port prp target ip mac s) :=
  keeps_received _ _ _ _ (fun y => keeps_ite _ (.refl y) (keeps_modHall _ y rfl rfl)) s

theorem keeps_icmpEcho (now port : Nat) (prp : Option (Nat × Nat)) (ip : Nat) (data : List Byte) (s : State) :
    Keeps s (icmpEcho now port prp ip data s) :=
  keeps_received _ _ _ _ (fun y => keeps_ite _ (.refl y) (keeps_modHall _ y rfl rfl)) s

theorem keeps_linkChange (now port : Nat) (up : Bool) (s : State) : Keeps s (linkChange now port up s) := by
  unfold linkChange
  split
  · exact .refl s
  · dsimp only
    generalize (if port = 0 then F.HAL_STAT_LINKA else F.HAL_STAT_LINKB) = bit
    have h1 : Keeps s (modHall (fun h => hput h bit (bn up)) s) := keeps_modHall _ s rfl rfl
    split
    · refine h1.trans ?_
      split
      · exact .refl _
      · exact keeps_modHall _ _ rfl rfl
    · refine Keeps.trans (h1.trans ?_) (Keeps.foldl _ (fun y i => keeps_ite _ (keeps_modPol i _ y) (.refl y)) _ _)
      split
      · exact (talks_hallNote _ _ _ _).keeps
      · exact .refl _

theorem keeps_supervisionFrame (now : Nat) (s : State) : Keeps s (supervisionFrame now s) :=
  keeps_ite _ (keeps_modHall _ s rfl rfl) (.refl s)

theorem keeps_pdelaySend (now port : Nat) (s : State) : Keeps s (pdelaySend now port s) :=
  keeps_ite _ (keeps_modHall _ s rfl rfl) (.refl s)

theorem keeps_pdelayReq (now port : Nat) (bytes : List Byte) (s : State) : Keeps s (pdelayReq now port bytes s) := by
  unfold pdelayReq
  exact keeps_ite _ (.refl s) ((keeps_portHeard now port s).trans (keeps_ite _ (.refl _) (keeps_modHall _ _ rfl rfl)))

/-! ### Command packets (R400 to R404) -/

theorem keeps_sendTo (now : Nat) (src : Source) (note : Bool) (b : List Byte) (s : State) : Keeps s (sendTo now src note b s) :=
  (talks_sendTo now src note b s).keeps

theorem keeps_failReply (now : Nat) (d : Head) (src : Source) (st : Nat) (s : State) : Keeps s (failReply now d src st s) :=
  keeps_ite _ (.refl s) ((keeps_modHall _ s rfl rfl).trans (keeps_sendTo _ _ _ _ _))

/-- A lease of a session that is open. -/
theorem keeps_leaseTo (now k i : Nat) (s : State) (hi : i ∈ sessionIdx s.hall) : Keeps s (leaseTo now k i s) :=
  (leaseTo_grants now k i s).keeps fun _ hj => hj ▸ hi

theorem keeps_interpret (now : Nat) (src : Source) (d : Head) (x : Session) (payload : List Byte) (s : State) (hx : x.idx ∈ sessionIdx s.hall) :
    Keeps s (interpret now src d x payload s) := by
  have hrefuse : ∀ st dt y, Keeps y (modSess x.idx (fun e => { e with lastReply := some ⟨d.tgt, x.idx, d.op, d.seq, st, dt, []⟩ })
      (sendTo now src false (rawReply d src st dt [] x.key) y)) := fun st dt y =>
    (keeps_sendTo _ _ _ _ y).trans (talks_modSess _ _ (by intro _; rfl) _).keeps
  unfold interpret
  dsimp only
  split
  · exact hrefuse _ _ s
  split
  · exact hrefuse _ _ s
  next tgt _ =>
    split
    · exact hrefuse _ _ s
    · exact hrefuse _ _ s
    split
    · exact hrefuse _ _ s
    split
    · exact hrefuse _ _ s
    have hlease : Grants (· = x.idx) s (if holds s.hall (tokenOf tgt) x.idx then leaseTo now (tokenOf tgt) x.idx s else s) := by
      split
      · exact leaseTo_grants _ _ _ s
      · exact .refl _ s
    generalize (if holds s.hall (tokenOf tgt) x.idx then leaseTo now (tokenOf tgt) x.idx s else s) = s1 at hlease
    have hk : Keeps s s1 := hlease.keeps fun _ hj => hj ▸ hx
    have hx1 : x.idx ∈ sessionIdx (hallCount A.HAL_CMDS s1).hall := hlease.idx.symm ▸ hx
    refine hk.trans ?_
    split
    · refine (talks_hallCount A.HAL_CMDS s1).keeps.trans (keeps_hallAnswer _ _ _ _ _ ?_)
      split
      · exact keepsOutcome_expert _ _ _ _ _
      · exact keepsOutcome_hallCommand _ _ _ _ hx1
    split
    · exact hrefuse _ _ s1
    · exact (talks_hallCount _ s1).keeps.trans (keeps_modHall _ _ rfl rfl)

theorem sessionIdx_modSess (i : Nat) (f : Session → Session) (hf : ∀ x, (f x).idx = x.idx) (s : State) :
    sessionIdx (modSess i f s).hall = sessionIdx s.hall := (talks_modSess i f hf s).idx

theorem keeps_sequenced (now : Nat) (src : Source) (d : Head) (x : Session) (payload : List Byte) (s : State) (hx : x.idx ∈ sessionIdx s.hall) :
    Keeps s (sequenced now src d x payload s) := by
  unfold sequenced
  dsimp only
  split
  · split
    · exact keeps_sendTo _ _ _ _ s
    · exact (talks_modSess _ _ (by intro _; rfl) s).keeps
  split
  · exact (talks_hallCount _ s).keeps
  · refine (talks_modSess _ _ (by intro _; rfl) s).keeps.trans (keeps_interpret _ _ _ _ _ _ ?_)
    rw [sessionIdx_modSess _ _ (by intro _; rfl)]
    exact hx

theorem keeps_helloChecked (now : Nat) (src : Source) (d : Head) (payload : List Byte) (s : State) : Keeps s (helloChecked now src d payload s) := by
  unfold helloChecked
  dsimp only
  split
  · exact keeps_sendTo _ _ _ _ s
  · split
    · exact keeps_sendTo _ _ _ _ s
    · exact keeps_sendTo _ _ _ _ s
  · exact keeps_sendTo _ _ _ _ s
  · exact keeps_ite _ (keeps_sendTo _ _ _ _ s) ((talks_hallCount _ s).keeps.trans (keeps_hello _ _ _))

theorem keeps_checkPacket (now : Nat) (src : Source) (b : List Byte) (s : State) : Keeps s (checkPacket now src b s) := by
  have hcount : ∀ o, Keeps s (hallCount o s) := fun o => (talks_hallCount o s).keeps
  have hbad : ∀ d x st, Keeps s (failReply now d src st (hallNote now F.HAL_EVT_AUTH_FAIL x (hallCount A.HAL_BADAUTH s))) := fun d x st =>
    ((hcount _).trans (talks_hallNote _ _ _ _).keeps).trans (keeps_failReply _ _ _ _ _)
  unfold checkPacket
  dsimp only
  refine keeps_ite _ (hcount _) ?_
  refine keeps_ite _ ((hcount _).trans (keeps_failReply _ _ _ _ _)) ?_
  refine keeps_ite _ ((hcount _).trans (keeps_failReply _ _ _ _ _)) ?_
  refine keeps_ite _ (keeps_ite _ (keeps_helloChecked _ _ _ _ s) (hbad _ _ _)) ?_
  split
  · exact hbad _ _ _
  next x hx =>
    refine keeps_ite _ ?_ (hbad _ _ _)
    refine (talks_modSess _ _ (by intro _; rfl) s).keeps.trans (keeps_sequenced _ _ _ _ _ _ ?_)
    rw [sessionIdx_modSess _ _ (by intro _; rfl)]
    exact (mem_sessionIdx_of_id hx : x.idx ∈ _)

theorem keeps_enter (now : Nat) (src : Source) (b : List Byte) (s : State) : Keeps s (enter now src b s) :=
  (keeps_modHall _ s rfl rfl).trans (keeps_checkPacket _ _ _ _)

theorem keeps_commandPacket (now : Nat) (src : Source) (prp : Option (Nat × Nat)) (b : List Byte) (s : State) :
    Keeps s (commandPacket now src prp b s) := by
  cases src with
  | spi => exact keeps_ite _ ((keeps_modHall _ s rfl rfl).trans (keeps_enter _ _ _ _)) (.refl s)
  | eth port ip udp => exact keeps_received _ _ _ _ (fun y => keeps_ite _ (.refl y) (keeps_enter _ _ _ y)) s

/-! ### The SPI target (R397, R398) -/

theorem keeps_spiStatus (s : State) : Keeps s (spiStatus s) := keeps_ite _ (.refl s) (keeps_modHall _ s rfl rfl)

theorem keeps_spiWrite (len : Nat) (b : List Byte) (s : State) : Keeps s (spiWrite len b s) :=
  keeps_ite _ (.refl s) (keeps_ite _ (talks_hallCount _ s).keeps (keeps_modHall _ s rfl rfl))

theorem keeps_spiRead (clocked : Nat) (s : State) : Keeps s (spiRead clocked s) := by
  unfold spiRead
  split
  · exact .refl s
  split
  · exact keeps_modHall _ s rfl rfl
  · exact Keeps.trans (keeps_modHall _ s rfl rfl) (keeps_ite _ (keeps_modHall _ _ rfl rfl) (.refl _))

/-! ### Delivery (R411, R414, R430) -/

theorem keeps_commandDeliver (now : Nat) (tgt : Target) (s : State) : Keeps s (commandDeliver now tgt s) := by
  unfold commandDeliver
  dsimp only
  split
  · exact .refl s
  split
  · exact .refl s
  split
  · exact Keeps.trans (keeps_modHall _ s rfl rfl) (keeps_hallAnswer _ _ _ _ _ (keepsOutcome_expert _ _ _ _ _))
  cases tgt with
  | polder i =>
    refine keeps_ite _ (.refl s) (keeps_ite _ ?_ ?_)
    · exact (keeps_modPol i _ s).trans (keeps_modHall _ _ rfl rfl)
    · generalize messageWords _ _ = w
      refine Keeps.trans ((keeps_modPol i (pushWords now (w.take (8 - (mbxQueue (s.pol i) 0).length))) s).trans (keeps_free (s.free + 1) _)) ?_
      split
      · exact keeps_modHall _ _ rfl rfl
      · exact .refl _
  | hall => exact keeps_modHall _ s rfl rfl
  | dikehouse => exact keeps_modHall _ s rfl rfl

theorem talks_withdraw (now t : Nat) (q : Queued) (s : State) : Talks s (withdraw now t q s) :=
  Talks.trans (talks_modHall _ s rfl rfl rfl) (talks_sendReply _ _ _ _)

theorem talks_deliveryTimeout (now : Nat) (tgt : Target) (s : State) : Talks s (deliveryTimeout now tgt s) :=
  Talks.foldl _ (fun y q => talks_withdraw _ _ q y) _ s

theorem talks_replyTimeout (now : Nat) (tgt : Target) (s : State) : Talks s (replyTimeout now tgt s) :=
  Talks.foldl _ (fun y _ => Talks.trans (talks_modHall _ y rfl rfl rfl) (talks_sendReply _ _ _ _)) _ s

theorem talks_endOf (f : InFlight) (s : State) : Talks s (endOf f s) := talks_modHall _ s rfl rfl rfl

theorem talks_late (now : Nat) (x : Option Nat) (s : State) : Talks s (hallNote now F.HAL_EVT_LATE x (hallCount A.HAL_LATE s)) :=
  (talks_hallCount _ s).trans (talks_hallNote _ _ _ _)

theorem talks_forward (now : Nat) (a : Answer) (s : State) : Talks s (forward now a s) := by
  unfold forward
  dsimp only
  split
  · exact talks_sendReply _ _ _ s
  split
  · split
    · exact Talks.refl s
    · exact ((talks_late _ _ s).trans (talks_notifyDone _ _ _)).trans (talks_endOf _ _)
  split
  · split
    · exact Talks.refl s
    · exact (talks_notifyDone _ _ s).trans (talks_endOf _ _)
  · exact (talks_sendReply _ _ _ s).trans (talks_endOf _ _)

theorem talks_forwardDone (now : Nat) (a : Answer) (s : State) : Talks s (forwardDone now a s) := by
  unfold forwardDone
  split
  · refine Talks.trans (Talks.trans ?_ (talks_notifyDone _ _ _)) (talks_endOf _ _)
    split
    · exact talks_late _ _ s
    · exact Talks.refl s
  · exact talks_notifyDone _ _ s

theorem talks_pendingReply (now : Nat) (tgt : Target) (s : State) : Talks s (pendingReply now tgt s) := by
  unfold pendingReply
  extract_lets runs
  split
  · split
    · exact Talks.trans (talks_modHall _ s rfl rfl rfl) (talks_sendReply _ _ _ _)
    · exact Talks.refl s
  · exact Talks.refl s

theorem talks_targetReply (now : Nat) (tgt : Target) (s : State) : Talks s (targetReply now tgt s) := by
  unfold targetReply
  split
  next o _ =>
    dsimp only
    refine Talks.trans (talks_modHall (fun h => { h with replies := h.replies.erase o }) s rfl rfl rfl) ?_
    split
    · exact talks_forward _ _ _
    · exact talks_forwardDone _ _ _
    · exact Talks.refl _
  next => exact talks_pendingReply _ _ s

/-! ### The Dikehouse (R456 to R473) -/

theorem keeps_ruleStep (now : Nat) (x : List (Nat × Nat) × State) (r : Nat) : Keeps x.2 (ruleStep now x r).2 := by
  have hnote : ∀ f r p y, Keeps y (dkhNote now f r p y) := fun f r p y => (local_dkhNote .A now f r p y).keeps
  unfold ruleStep
  dsimp only
  split
  · exact keeps_modDkh (fun d => { d with held := vset d.held r none, fired := vset d.fired r false }) x.2
  split
  · exact keeps_modDkh (fun d => { d with held := vset d.held r (some ((vget x.2.dkh.held r none).getD now)) }) x.2
  · have h2 := (keeps_modDkh (fun d => { d with held := vset d.held r (some ((vget x.2.dkh.held r none).getD now)) }) x.2).trans
      (keeps_modDkh (fun d => { d with fired := vset d.fired r true, wakeLow := d.wakeLow || kbit d (F.DKH_RULE_B_WAKEPIN r) }) _)
    have h3 := h2.trans (hnote F.DKH_EVT_RULE r (kget x.2.dkh (F.DKH_RULE_B_POLDERS r)) _)
    exact keeps_ite _ (h3.trans (keeps_modDkh _ _)) h3

theorem keeps_ruleSteps (now : Nat) (l : List Nat) (x : List (Nat × Nat) × State) : Keeps x.2 (l.foldl (ruleStep now) x).2 := by
  induction l generalizing x with
  | nil => exact .refl _
  | cons r l ih => exact (keeps_ruleStep now x r).trans (ih _)

theorem keeps_guardCheck (now : Nat) (s : State) (i : PolderId) : Keeps s (guardCheck now s i) := by
  unfold guardCheck
  split
  · exact keeps_ite _ (.refl s) (local_proceed _ _ _ _ _ s).keeps
  · exact .refl s

theorem keeps_actOn (now : Nat) (reqs : List (Nat × Nat)) (s : State) (i : PolderId) : Keeps s (actOn now reqs s i) := by
  unfold actOn
  dsimp only
  refine Keeps.trans ?_ (local_carryOut _ _ _ _ _).keeps
  exact Keeps.trans (local_modDpol i i _ s).keeps (keeps_ite _ (keeps_modPol i _ _) (.refl _))

theorem keeps_dkhReply (op sess seq : Nat) (r : Reply) (s : State) : Keeps s (dkhReply op sess seq r s) := keeps_modDkh _ s

theorem keeps_ruleEvaluation (now : Nat) (s : State) : Keeps s (ruleEvaluation now s) := by
  unfold ruleEvaluation
  refine keeps_ite _ (.refl s) ?_
  dsimp only
  have h1 : Keeps s ((List.range 16).foldl (ruleStep now)
      ([], (presentPolders s).foldl (guardCheck now) (modDkh (fun d => { d with lastEval := now }) s))).2 :=
    ((keeps_modDkh _ s).trans (Keeps.foldl _ (keeps_guardCheck now) _ _)).trans (keeps_ruleSteps now _ ([], _))
  refine Keeps.trans ?_ (Keeps.foldl _ (fun y e => keeps_dkhReply _ _ _ _ y) _ _)
  refine Keeps.trans ?_ (Keeps.foldl _ (fun y e => keeps_dkhReply _ _ _ _ y) _ _)
  refine Keeps.trans ?_ (Keeps.foldl _ (keeps_actOn now _) _ _)
  exact h1.trans (keeps_modDkh _ _)

theorem keeps_watchSample (k code : Nat) (s : State) : Keeps s (watchSample k code s) :=
  keeps_ite _ (.refl s) (keeps_ite _ (keeps_modDkh _ s) (keeps_modDkh _ s))

theorem keeps_dkhSetting (now op : Nat) (c : Cmd) (off : Nat) (w : Word) (payload : List Byte) (s : State) :
    Keeps s (dkhSetting now op c off w payload s) := by
  unfold dkhSetting
  dsimp only
  split
  · exact (keeps_dkhWrite _ _ _ _ s).trans (keeps_modDkh _ _)
  · exact keeps_dkhReply _ _ _ _ s

theorem keeps_polderPower (c : Cmd) (s : State) : Keeps s (polderPower c s) := by
  have no : ∀ r, Keeps s (dkhReply Op.polderPower c.sess c.seq r s) := fun r => keeps_dkhReply _ _ _ r s
  exact keeps_ite _ (no _) (keeps_ite _ (no _) (keeps_ite _ (no _) (keeps_modDkh _ s)))

theorem keeps_setWatch (now : Nat) (c : Cmd) (s : State) : Keeps s (setWatch now c s) :=
  keeps_ite _ (keeps_dkhReply _ _ _ _ s) (keeps_dkhSetting _ _ _ _ _ _ s)

theorem keeps_setRule (now : Nat) (c : Cmd) (s : State) : Keeps s (setRule now c s) := by
  have no : ∀ r, Keeps s (dkhReply Op.setRule c.sess c.seq r s) := fun r => keeps_dkhReply _ _ _ r s
  unfold setRule
  dsimp only
  split
  · exact no _
  split
  next s1 h1 =>
    have k1 := keeps_dkhWrite now 4 (A.DKH_RULE_A (byteAt c.payload 0)) (wordN (u32At c.payload 4)) s
    rw [h1] at k1
    split
    next s2 h2 =>
      have k2 := keeps_dkhWrite now 4 (A.DKH_RULE_B (byteAt c.payload 0)) (wordN (u32At c.payload 8)) s1
      rw [h2] at k2
      exact (k1.trans k2).trans (keeps_modDkh _ _)
    · exact no _
  · exact no _

theorem keeps_setSupervision (now : Nat) (c : Cmd) (s : State) : Keeps s (setSupervision now c s) := by
  unfold setSupervision
  dsimp only
  split
  · exact keeps_dkhReply _ _ _ _ s
  · exact keeps_ite _ (keeps_dkhReply _ _ _ _ s) (keeps_dkhSetting _ _ _ _ _ _ s)

/-! ### Start and loss of the Hall and of the Dikehouse (R425, R444, R496) -/

theorem keeps_svFlush (count : Bool) (s : State) (i : PolderId) : Keeps s (svFlush count s i) :=
  Keeps.trans (keeps_modPol i (fun p => { p with flt := { p.flt with svOut := [] } }) s)
    (keeps_modHall (fun h => { h with fifoLost := vmod h.fifoLost (i.num - 1) (· + if count then (s.pol i).flt.svOut.length else 0) }) _ rfl rfl)

theorem keeps_sessionsEnd (now : Nat) (s : State) : Keeps s (sessionsEnd now s) :=
  Keeps.foldl _ (fun y p => keeps_ite _ (keeps_modPol p _ y) (.refl y)) _ s

/-- Without sessions and without tokens held all is sound. -/
theorem keeps_modHall_cleared (f : Hall → Hall) (s : State) (hs : (f s.hall).sessions = []) (ht : (f s.hall).tokens = Vector.replicate 5 none) :
    Keeps s (modHall f s) := by
  refine ⟨rfl, rfl, rfl, fun _ => ?_⟩
  rw [sessionsOk_iff]
  unfold sessionIdx
  simp only [modHall_hall, hs, ht, List.map_nil]
  refine ⟨List.nodup_nil, fun i hi => absurd hi (List.not_mem_nil), fun k l hl => ?_⟩
  unfold vget at hl
  rw [Vector.getElem?_replicate] at hl
  split at hl <;> cases hl

theorem keeps_hallDown (now : Nat) (s : State) : Keeps s (hallDown now s) := by
  unfold hallDown
  dsimp only
  refine (keeps_sessionsEnd now s).trans ?_
  refine Keeps.trans (keeps_modHall_cleared (fun h => { sent := h.sent, prpSeq := h.prpSeq, epoch := ((sessionsEnd now s).hall.epoch + 1) % 16, fifoLost := h.fifoLost }) _ rfl rfl) ?_
  exact Keeps.foldl _ (fun y i => (keeps_modPol i _ y).trans (keeps_svFlush _ _ i)) _ _

theorem keeps_railLoss (now : Nat) (r : Rail) (s : State) : Keeps s (railLoss now r s) := by
  unfold railLoss
  split
  · unfold vaonLost
    dsimp only
    refine Keeps.trans ?_ (keeps_modDkh _ _)
    exact ((keeps_rails _ s).trans (keeps_hallDown now _)).trans (Keeps.foldl _ (fun y i => keeps_modPol i _ y) _ _)
  · exact (keeps_rails _ s).trans (keeps_hallDown now _)
  · dsimp only
    refine Keeps.trans ?_ (keeps_hallDown now _)
    refine Keeps.trans (Keeps.foldl _ (fun y i => keeps_ite _ (.refl y) ?_) _ s) (keeps_rails _ _)
    exact ((local_resetPol _ i _ _ y).trans (local_setHbLost i _ _ _)).keeps
  · exact keeps_ite _ (local_brownOut _ _ _ s).keeps (.refl s)
  · exact keeps_ite _ (local_brownOut _ _ _ s).keeps (.refl s)
  · exact keeps_ite _ (keeps_modPol _ _ s) (.refl s)

theorem keeps_hallStart (s : State) : Keeps s (hallStart s) := by
  unfold hallStart
  refine keeps_ite _ (.refl s) ?_
  dsimp only
  refine Keeps.trans ?_ (Keeps.foldl _ (keeps_svFlush true) _ _)
  refine Keeps.trans ?_ (keeps_rails _ _)
  generalize (storedRecord s.dkh).network.getD _ = cfg
  have hset := fun h1 => foldl_hwr_sessions id (fun _ o => cellGet hallReset cfg o) heldOffs h1
  refine keeps_modHall _ s ((hset _).1.trans ?_) ((hset _).2.trans ?_) <;> split <;> rfl

theorem keeps_loadPatch (now : Nat) (s : State) : Keeps s (loadPatch now s) := by
  unfold loadPatch
  split
  · exact .refl s
  · exact keeps_ite _ (keeps_modDkh _ s) (local_dkhNote .A _ _ _ _ s).keeps

theorem keeps_dkhStart (now : Nat) (s : State) : Keeps s (dkhStart now s) := by
  unfold dkhStart
  refine keeps_ite _ (.refl s) ?_
  dsimp only
  refine Keeps.trans ?_ (keeps_loadPatch now _)
  refine Keeps.trans ((keeps_modDkh _ s).trans (keeps_rails _ _)) (Keeps.foldl _ (fun y i => ?_) _ _)
  exact keeps_ite _ ((keeps_modPol i _ y).trans (local_modDpol i i _ _).keeps) (.refl y)

theorem keeps_eccDevice (double : Bool) (r : EccRegion) (s : State) : Keeps s (eccDevice double r s) := by
  unfold eccDevice
  exact keeps_ite _ (.refl s) (keeps_ite _ (keeps_ite _ (keeps_modHall _ s rfl rfl) (.refl s)) (keeps_ite _ (keeps_modDkh _ s) (.refl s)))

end Sys2Proof.Machine
end

section
/-! SUPPORT. The frame of every row, and what each leaves in the device (O3, O4, O6, O7, O8). -/
namespace Sys2Proof.Machine
open Sys2Proof

/-! ### Frames -/

/-- `r` is what an event at the device gives, or one at the polder `named`, which the part must have: in both its effect relates the states by `P`. -/
inductive Framed (s : State) (P : State → State → Prop) (named : Option PolderId) : Result → Prop
  | device {t f} (hf : ∀ n y, P y (f n y)) : Framed s P named (onDevice t s f)
  | part {t i f} (hi : named = some i) (hf : ∀ n y, P y (f n y)) : Framed s P named (onPart t i s f)

theorem Framed.mono {s : State} {P Q : State → State → Prop} {n : Option PolderId} {r : Result} (h : ∀ x y, P x y → Q x y)
    (hr : Framed s P n r) : Framed s Q n r := by
  cases hr with
  | device hf => exact .device fun n y => h _ _ (hf n y)
  | part hi hf => exact .part hi fun n y => h _ _ (hf n y)

/-- Every next state of a frame is one in which everything handed over has been taken. -/
theorem Framed.next {s : State} {P : State → State → Prop} {n : Option PolderId} {r : Result} {y : State} (hr : Framed s P n r) (hy : r = .next y) :
    ∃ t z, P (s.at' t) z ∧ y = collect (s.clock t) z := by
  cases hr with
  | @device t f hf => exact ⟨t, _, hf _ _, by injection hy with hy; exact hy.symm⟩
  | @part t i f hi hf =>
    unfold onPart at hy
    split at hy
    · exact ⟨t, _, hf _ _, by injection hy with hy; exact hy.symm⟩
    · cases hy

theorem Framed.completes {s : State} {P : State → State → Prop} {n : Option PolderId} {r : Result} (hr : Framed s P n r)
    (h : ∀ i, n = some i → Part.has s.part i = true) : ∃ y, r = .next y := by
  cases hr with
  | device hf => exact ⟨_, rfl⟩
  | part hi hf => exact ⟨_, onPart_eq _ _ _ _ (h _ hi)⟩

theorem Framed.not_refused {s : State} {P : State → State → Prop} {n : Option PolderId} {r : Result} (hr : Framed s P n r) (x : Refusal) :
    r ≠ .refused x := by
  cases hr with
  | device hf => exact fun h => by cases h
  | part hi hf =>
    unfold onPart
    split <;> exact fun h => by cases h

theorem Framed.fault {s : State} {P : State → State → Prop} {n : Option PolderId} {r : Result} {x : Fault} (hr : Framed s P n r) (h : r = .fault x) :
    ∃ i, n = some i ∧ x = .absentPolder i ∧ Part.has s.part i = false := by
  cases hr with
  | device hf => cases h
  | @part t i f hi hf =>
    unfold onPart at h
    split at h
    · cases h
    next hp =>
      injection h with h
      exact ⟨i, hi, h.symm, by simpa using hp⟩

/-! ### Rows inside one polder -/

section
variable {n : Option PolderId} (t : Nat) (i : PolderId) (s : State)

theorem framed_idle : Framed s (Local i) n (idle t s) := .device fun _ y => .refl i y

theorem framed_atPolder (c : Cmd) (op : Nat) (f : Nat → State → State) (hf : ∀ n y, Local i y (f n y)) :
    Framed s (Local i) n (atPolder t i c op s f) := by
  refine .device fun m y => ?_
  split
  · exact (talks_hallSays _ _ _ _ _ _).local' i
  · exact local_ite _ (hf m y) (Local.refl i y)

theorem framed_onCommand (c : Cmd) (op : Nat) (f) : Framed s (Local i) n (onCommand t i c op s f) :=
  framed_atPolder t i s c op _ fun _ y => local_modPol i _ y

variable (hi : n = some i)
include hi

theorem framed_onAwake (f) : Framed s (Local i) n (onAwake t i s f) :=
  .part hi fun _ y => local_ite _ (local_modPol i _ y) (.refl i y)

theorem framed_onRunning (f) : Framed s (Local i) n (onRunning t i s f) :=
  .part hi fun _ y => local_ite _ (local_modPol i _ y) (.refl i y)

theorem framed_onClocked (f) : Framed s (Local i) n (onClocked t i s f) :=
  .part hi fun _ y => local_ite _ (local_modPol i _ y) (.refl i y)

theorem framed_onPin (runs : Polder → Bool) (f g) : Framed s (Local i) n (onPin runs t i s f g) := .part hi fun _ y => local_modPol i _ y

theorem framed_onMonitor (need : Nat) (f) : Framed s (Local i) n (onMonitor t i need s f) := framed_onAwake t i s hi _

theorem framed_onIndex (k m : Nat) (f) : Framed s (Local i) n (onIndex k m t i s f) := by
  unfold onIndex
  split
  · exact framed_onRunning t i s hi f
  · exact framed_idle t i s

end

theorem framed_ite {s : State} {P : State → State → Prop} {n : Option PolderId} {b : Prop} [Decidable b] {r r' : Result} (h : Framed s P n r)
    (g : Framed s P n r') : Framed s P n (if b then r else r') := by
  split <;> assumption

/-- An access of a master is an event in the window of its own polder where it is a monitor, and of the polder it reaches otherwise. -/
theorem framed_onWrite (t : Nat) (p : PolderId) (m : Master) (off : Nat) (v : Word) (s : State) :
    Framed s (Local (masterHome m p)) (some (masterHome m p)) (onWrite t p m off v s) := by
  unfold onWrite
  cases m with
  | mon j => exact framed_onMonitor t j s rfl _ _
  | ce j => exact .part rfl fun _ y => local_ite _ (local_modPol p _ y) (.refl p y)
  | se j => exact .part rfl fun _ y => local_ite _ (local_modPol p _ y) (.refl p y)
  | hall => exact .part rfl fun _ y => local_ite _ (local_modPol p _ y) (.refl p y)
  | dkh => exact .part rfl fun _ y => local_ite _ (local_modPol p _ y) (.refl p y)

theorem framed_onRead (t : Nat) (p : PolderId) (m : Master) (off : Nat) (s : State) :
    Framed s (Local (masterHome m p)) (some (masterHome m p)) (onRead t p m off s) := by
  unfold onRead
  cases m with
  | mon j => exact framed_onMonitor t j s rfl _ _
  | ce j => exact .part rfl fun _ y => local_ite _ (local_modPol p _ y) (.refl p y)
  | se j => exact .part rfl fun _ y => local_ite _ (local_modPol p _ y) (.refl p y)
  | hall => exact .part rfl fun _ y => local_ite _ (local_modPol p _ y) (.refl p y)
  | dkh => exact .part rfl fun _ y => local_ite _ (local_modPol p _ y) (.refl p y)

/-- An access of the Dikehouse, which is no monitor. -/
theorem framed_onWrite_dkh (t : Nat) (p : PolderId) (off : Nat) (v : Word) (s : State) :
    Framed s (Local p) (some p) (onWrite t p .dkh off v s) := framed_onWrite t p .dkh off v s

theorem framed_mailboxPush (t : Nat) (p : PolderId) (m : Master) (onBehalf : Bool) (q : Nat) (w : Word) (s : State) :
    Framed s (Local (masterHome m p)) (some (masterHome m p)) (execMailboxPush t p m onBehalf q w s) := by
  unfold execMailboxPush
  split
  · exact framed_idle t _ s
  split
  next h =>
    simp only [Bool.and_eq_true, beq_iff_eq] at h
    obtain ⟨⟨-, rfl⟩, -⟩ := h
    exact .part rfl fun _ y => local_ite _ (local_modPol p _ y) (.refl p y)
  · exact framed_onWrite t p m _ w s

theorem framed_hallTimeStrobe (t : Nat) (p : PolderId) (hallNs : Nat) (s : State) :
    Framed s (Local p) (some p) (execHallTimeStrobe t p hallNs s) := by
  unfold execHallTimeStrobe ifHall
  split
  · exact .part rfl fun _ y => local_ite _ ((local_modPol p _ y).trans ((talks_modHall _ _ rfl rfl rfl).local' p)) (.refl p y)
  · exact framed_idle t p s

theorem framed_mailboxStuck (t : Nat) (p : PolderId) (q : Nat) (s : State) : Framed s (Local p) (some p) (execMailboxStuck t p q s) := by
  unfold execMailboxStuck
  split
  · refine .part rfl fun now y => local_ite _ ?_ (.refl p y)
    exact local_ite _ ((local_setPol p _ y).trans (local_stuckAt _ p _)) (local_setPol p _ y)
  · exact framed_idle t p s

theorem framed_engineRestartComplete (t : Nat) (p : PolderId) (ce : Bool) (s : State) :
    Framed s (Local p) (some p) (execEngineRestartComplete t p ce s) :=
  .part rfl fun now y => local_ite _ (local_ite _ (local_modPol p _ y) (local_ite _ (local_seTakes now p _ y) (.refl p y))) (.refl p y)

theorem framed_engineRelease (t : Nat) (p : PolderId) (ce : Bool) (s : State) : Framed s (Local p) (some p) (execEngineRelease t p ce s) :=
  .part rfl fun now y => local_ite _
    (local_ite _ (local_ite _ ((local_modPol p _ y).trans (local_superviseFrom p p now _)) (.refl p y))
      (local_ite _ ((local_seTakes now p _ y).trans (local_superviseFrom p p now _)) (.refl p y))) (.refl p y)

theorem framed_seWatchdog (t : Nat) (p : PolderId) (s : State) : Framed s (Local p) (some p) (execSeWatchdog t p s) :=
  .part rfl fun now y => local_ite _ (local_seFails now p _ y) (.refl p y)

/-- An ECC error of a polder's own memories. -/
theorem framed_eccOfPolder (t : Nat) (p : PolderId) (x : MemError) (s : State) (hx : ¬(x.region = .hallPackets ∨ x.region = .watchCore)) :
    Framed s (Local p) (some p) (execEccDoubleError t p x s) := by
  unfold execEccDoubleError
  rw [if_neg hx]
  exact .part rfl fun now y => local_ite _ (local_ite _ (local_eccError now p _ y) (local_modPol p _ y)) (.refl p y)

theorem framed_fieldInputChange (t : Nat) (p : PolderId) (k : Nat) (s : State) : Framed s (Local p) (some p) (execFieldInputChange t p k s) :=
  framed_ite (.part rfl fun _ y => local_modPol p _ y) (framed_idle t p s)

theorem framed_monitorRestart (t : Nat) (p : PolderId) (s : State) : Framed s (Local p) (some p) (execMonitorRestart t p s) := by
  refine .part rfl fun now y => local_ite _ ?_ (.refl p y)
  have hz := fun q => (local_modPol p q y).trans (local_collect p now _)
  exact local_ite _ ((hz _).trans (local_restartPol now p _ _)) (hz _)

/-! ### Every row -/

/-- The polder whose absence stops a row: that of `namedPolder`, but none for a command. -/
def neededPolder (c : Instr) : Option PolderId := match polderCommand c with
  | some _ => none
  | none => namedPolder c

/-- The rows that are commands to a polder. -/
theorem exec_framed_of_command {c : Instr} {x : Nat × PolderId × Nat × Cmd} (s : State) (h : polderCommand c = some x) :
    Framed s (Local x.2.1) (neededPolder c) (exec c s) := by
  obtain ⟨t, i, op, k⟩ := x
  cases c <;> cases h <;> dsimp only [exec]
  case fwActivate =>
    refine framed_atPolder t i s k _ _ fun now y => ?_
    have hz := fun q => (local_modPol i q y).trans (local_collect i now _)
    exact local_ite _ ((hz _).trans (local_restartPol now i _ _)) (hz _)
  case sleep =>
    refine framed_atPolder t i s k _ _ fun now y => ?_
    have hz := fun q => (local_modPol i q y).trans (local_collect i now _)
    exact local_ite _ ((hz _).trans (local_sleep now i _)) (hz _)
  all_goals exact framed_onCommand t i s k _ _

/-- Every other row of one polder. -/
theorem exec_framed_of_own_row {c : Instr} {i : PolderId} (s : State) (hc : polderCommand c = none) (h : homeOf c = some i) :
    Framed s (Local i) (neededPolder c) (exec c s) := by
  cases c
  case eccDoubleError t p x =>
    dsimp only [homeOf] at h
    split at h
    · cases h
    next hx =>
      cases h
      dsimp only [exec]
      simpa only [neededPolder, polderCommand, namedPolder, homeOf, if_neg hx] using framed_eccOfPolder t _ x s hx
  all_goals cases hc
  all_goals cases h
  all_goals dsimp only [exec]
  case monitorHelp | monitorId | monitorStat | unlock | unlockResponse | lock | quit | rd | monitorLog | dumpGal | dumpCap | eng | wr |
    monitorTrip | monitorClear | monitorDo =>
    exact framed_onMonitor _ _ s rfl _ _
  case monitorRateSet | monitorSessionTimeout | monitorLockoutEnd | passwordLockoutEnd | hallLost | revert | holdoverExpiry | ppsOutput |
    ppsPulseEnd | ppsIn | ceWatchdog | engineHalt | flashEraseComplete | correctionSlew =>
    exact framed_onAwake _ _ s rfl _
  case swingUpdate | anchorBlock | anchorUnblock | coefficientSetComplete | sweepEnd | learnerAutosave | regimeEvaluation | prechargeTimeout |
    energiseTimeout | energiseComplete | syncTimeout | closeCommand | breakerCloseDelay | brkTimeout | backoffWaitEnd | collision | deadBusChange |
    rideIn | rideOut | stopTmo | fastSample | periodBoundary | centreReload | safeStateStep2 | sequencingEnd | l2WindowEnd | thermalTrip |
    comparatorSelfTestLevel | slotSample | frameRestart | settlingEnd | inputTestLevel | pathMOutput | meteringCycleComplete | sampledValueInstant |
    captureTimeTrigger | firePulseEnd | armEdge | laneMessage | laneDisagreement | laneStopped | parameterCheck | comparisonWindowEnd | wdog |
    stometTransmit | enablePathTestStart | enablePathTestStep =>
    exact framed_onRunning _ _ s rfl _
  case dwellEnd | embankmentDecision | levelChange | deadTimeEnd | timerMove | refreshPulse | refreshPulseStep | referenceStarvation |
    downlinkFrame | linkLost | trainingFrame | trainingFailure | trainingRetry | gateUnitResponse | messageTimeout | comparatorActed | blankingEnd |
    sluiceCheck | sluiceTimedCommit | sluiceIdleTimeout | readbackFault | ilim | therm | thermalRestart | testPulseStart | testPulseEnd |
    safetyInputFiltered | disc | networkDown | networkResume | timerMidpointReload | comparatorInside =>
    exact framed_onIndex _ _ s rfl _ _ _
  case refclkMissing | unlockPll | refok | pllLock | bandSearchRetry | calibrationComplete =>
    exact framed_onClocked _ _ s rfl _
  case tripiChange | fireEdge =>
    exact framed_onPin _ _ s rfl _ _ _
  case measurementGroupLatch | meterLatch | timeLatch =>
    exact framed_onRead _ _ _ _ s
  case qpop | galleryArm | galleryForce | galleryStop | captureArm | captureForce | captureStop | learnerSave | learnerRestore | learnerClear |
    learnerErase | cntclrEmb | swtrip | dikClr =>
    exact framed_onWrite _ _ _ _ _ s
  case dkhreqTrip | dkhreqStop =>
    exact framed_onWrite_dkh _ _ _ _ s
  case brownOut => exact .part rfl fun _ y => local_brownOut _ _ _ y
  case polderResetRelease => exact .part rfl fun _ y => local_resetRelease _ _ y
  case bootfail => exact .part rfl fun _ y => local_bootfail _ _ y
  case fwTrialTimeout => exact .part rfl fun _ y => local_trialTimeout _ _ y
  case heartbeatRead => exact .part rfl fun _ y => local_heartbeatRead _ _ y
  case hblost => exact .part rfl fun _ y => local_hblost _ _ y
  case guardTimeout => exact .part rfl fun _ y => local_guardTimeout _ _ y
  case actionDelayEnd => exact .part rfl fun _ y => local_delayEnd _ _ y
  case lpLoss | lpReturn => exact .part rfl fun _ y => local_modPol _ _ y
  case bootComplete => exact .part rfl fun _ y => (local_bootDoneAt _ _ y).trans (local_modPol _ _ _)
  case wakeComplete => exact .part rfl fun _ y => (local_wakeDoneAt _ _ y).trans (local_modPol _ _ _)
  case svFrameSend => exact .part rfl fun _ y => local_ite _ (local_svSend _ _ y) (.refl _ y)
  case svlost => exact .part rfl fun _ y => local_ite _ (local_svLost _ _ y) (.refl _ y)
  case extest => exact .part rfl fun _ y => local_ite _ (local_extestHeld _ _ y) (.refl _ y)
  case lockAcquire | outputOrder => exact .part rfl fun _ y => local_ite _ (local_modPol _ _ y) (.refl _ y)
  case testAgeHour => exact .part rfl fun _ y => local_ite _ (.refl _ y) (local_modPol _ _ y)
  case monitorRestart => exact framed_monitorRestart _ _ s
  case seWatchdog => exact framed_seWatchdog _ _ s
  case engineRestartComplete => exact framed_engineRestartComplete _ _ _ s
  case engineRelease => exact framed_engineRelease _ _ _ s
  case fieldInputChange => exact framed_fieldInputChange _ _ _ s
  case mailboxStuck => exact framed_mailboxStuck _ _ _ s
  case mailboxPush => exact framed_mailboxPush _ _ _ _ _ _ s
  case hallTimeStrobe => exact framed_hallTimeStrobe _ _ _ s
  case uplinkFrame | rawInputChange => exact framed_ite (framed_onPin _ _ s rfl _ _ _) (framed_idle _ _ s)
  case domainLost => exact framed_ite (framed_onAwake _ _ s rfl _) (framed_idle _ _ s)
  case mailboxPop => exact framed_ite (framed_idle _ _ s) (framed_onRead _ _ _ _ s)
  case lockRelease => exact framed_ite (framed_idle _ _ s) (framed_onWrite _ _ _ _ _ s)
  case learnerTableWrite | bufferedWrite => exact framed_ite (framed_onWrite _ _ _ _ _ s) (framed_idle _ _ s)

theorem exec_framed_of_home {c : Instr} {i : PolderId} (s : State) (h : homeOf c = some i) : Framed s (Local i) (neededPolder c) (exec c s) := by
  cases hc : polderCommand c with
  | some x =>
    have hf := exec_framed_of_command s hc
    have hi : x.2.1 = i := by
      cases c <;> cases hc <;> cases h <;> rfl
    rwa [hi] at hf
  | none => exact exec_framed_of_own_row s hc h

end Sys2Proof.Machine
end

section
/-! SUPPORT. The rows of the Hall, of the Dikehouse and of frames, and what every row leaves in the device. -/
namespace Sys2Proof.Machine
open Sys2Proof

/-! ### Rows of the device -/

section
variable {n : Option PolderId} (t : Nat) (s : State)

theorem keptFrame_idle : Framed s Keeps n (idle t s) := .device fun _ y => .refl y

theorem keptFrame_onCommand (i : PolderId) (c : Cmd) (op : Nat) (f) : Framed s Keeps n (onCommand t i c op s f) :=
  (framed_onCommand t i s c op f).mono fun _ _ => Local.keeps

theorem keptFrame_onHall (c : Cmd) (op : Nat) (f : Nat → Session → State → HallOutcome)
    (hf : ∀ m x y, x.idx ∈ sessionIdx y.hall → KeepsOutcome y (f m x y)) : Framed s Keeps n (onHall t c op s f) := by
  refine .device fun m y => ?_
  split
  next x k hx hk =>
    exact keeps_ite _ (.refl y) (keeps_hallAnswer m x.src 0 op c (by split; exacts [hf m x y (mem_sessionIdx hx), keepsOutcome_refuse _ y]))
  · exact .refl y

/-- A command of the Hall with the meaning that its opcode has in a packet. -/
theorem keptFrame_onExpert (op : Nat) (tgt : Target) (c : Cmd) : Framed s Keeps n (onExpert t op tgt c s) := by
  refine .device fun m y => ?_
  split
  next x k hx hk =>
    exact keeps_ite _ (.refl y) (keeps_hallAnswer m x.src tgt.code op c (by split; exacts [keepsOutcome_expert m op tgt c y, keepsOutcome_refuse _ y]))
  · exact .refl y

theorem keptFrame_onDkh (c : Cmd) (op : Nat) (f : Nat → State → State) (hf : ∀ m y, Keeps y (f m y)) : Framed s Keeps n (onDkh t c op s f) := by
  refine .device fun m y => ?_
  split
  · exact keeps_ite _ (.refl y) (keeps_ite _ (hf m y) (keeps_dkhReply _ _ _ _ y))
  · exact .refl y

theorem keptFrame_onApply (bit : Nat) : Framed s Keeps n (onApply t bit s) :=
  .device fun m y => keeps_ite _ (keeps_hallWrite m _ _ y) (.refl y)

theorem keptFrame_onDkhCmd (bit : Nat) : Framed s Keeps n (onDkhCmd t bit s) :=
  .device fun m y => keeps_ite _ (keeps_dkhWrite m _ _ _ y) (.refl y)

theorem keptFrame_onAwake (i : PolderId) (f) (hi : n = some i) : Framed s Keeps n (onAwake t i s f) :=
  (framed_onAwake t i s hi f).mono fun _ _ => Local.keeps

theorem keptFrame_onHeard (runs : Polder → Bool) (port : Nat) (i : PolderId) (f) (hi : n = some i) : Framed s Keeps n (onHeard runs t port i s f) :=
  framed_ite (.part hi fun m y => (keeps_portHeard m port y).trans (keeps_ite _ (keeps_modPol _ _ _) (keeps_modPol _ _ _))) (keptFrame_idle t s)

end

theorem keptFrame_hello (n : Option PolderId) (t : Nat) (a : HelloArgs) (s : State) : Framed s Keeps n (execHello t a s) := by
  refine .device fun m y => ?_
  split
  · exact keeps_ite _ (keeps_hello m a y) (.refl y)
  · exact .refl y

theorem keptFrame_readLog (n : Option PolderId) (t : Nat) (tgt : Target) (c : Cmd) (s : State) : Framed s Keeps n (execReadLog t tgt c s) := by
  unfold execReadLog
  cases tgt with
  | polder p => exact keptFrame_onCommand t s p c _ _
  | dikehouse => exact keptFrame_onDkh t s c _ _ fun _ y => keeps_dkhReply _ _ _ _ y
  | hall => exact keptFrame_onHall t s c _ _ fun _ _ y _ => keepsOutcome_refuse _ y

theorem keptFrame_peerDelay (t : Nat) (p : PolderId) (port delayNs : Nat) (s : State) :
    Framed s Keeps (some p) (execPeerDelayMeasurement t p port delayNs s) := by
  unfold execPeerDelayMeasurement
  exact framed_ite (.part rfl fun m y => ((keeps_portHeard m port y).trans (keeps_ite _ (keeps_modPol _ _ _) (keeps_modPol _ _ _))).trans
    (keeps_pdelaySend m port _)) (keptFrame_idle t s)

theorem keptFrame_nvWrite (t : Nat) (k : NvStore) (s : State) : Framed s Keeps (neededPolder (.nvWrite t k)) (execNvWrite t k s) := by
  unfold execNvWrite
  cases k with
  | polder p => exact keptFrame_onAwake t s p _ rfl
  | device => exact .device fun _ y => keeps_ite _ (keeps_modDkh _ y) (.refl y)

theorem keptFrame_nvWriteComplete (t : Nat) (k : NvStore) (good : Bool) (s : State) :
    Framed s Keeps (neededPolder (.nvWriteComplete t k good)) (execNvWriteComplete t k good s) := by
  unfold execNvWriteComplete
  cases k with
  | polder p => exact keptFrame_onAwake t s p _ rfl
  | device => exact .device fun _ y => keeps_ite _ (keeps_modDkh _ y) (.refl y)

/-- An ECC error of the Hall's packet buffers or of the Dikehouse's memory. -/
theorem keptFrame_eccOfDevice (n : Option PolderId) (t : Nat) (p : PolderId) (x : MemError) (s : State)
    (hx : x.region = .hallPackets ∨ x.region = .watchCore) : Framed s Keeps n (execEccDoubleError t p x s) := by
  unfold execEccDoubleError
  rw [if_pos hx]
  exact .device fun _ y => keeps_eccDevice _ _ y

/-! ### A direct write -/

/-- A write in the window of a polder that the part has is an event of the device. -/
theorem keptFrame_write_pol (n : Option PolderId) (t off : Nat) (p : PolderId) (m : Master) (v : Word) (s : State) (hm : ∀ j, m ≠ .mon j) :
    Framed s Keeps n (if Part.has s.part p then onWrite t p m off v s else idle t s) := by
  split
  next hp =>
    have h : onWrite t p m off v s = onDevice t s (fun now y =>
        if live y m && awake (y.pol p) then y.modPol p (fun q => polish now (busWrite now m p off v q).2) else y) := by
      cases m with
      | mon j => exact absurd rfl (hm j)
      | ce j => exact if_pos hp
      | se j => exact if_pos hp
      | hall => exact if_pos hp
      | dkh => exact if_pos hp
    rw [h]
    exact .device fun _ y => keeps_ite _ (keeps_modPol _ _ y) (.refl y)
  · exact keptFrame_idle t s

theorem keptFrame_directWrite_of_no_monitor (t : Nat) (m : Master) (addr : Nat) (v : Word) (s : State) (n : Option PolderId) (hm : ∀ j, m ≠ .mon j) :
    Framed s Keeps n (execDirectRegisterWrite t m addr v s) := by
  unfold execDirectRegisterWrite
  dsimp only
  split
  · exact absurd rfl (hm _)
  · exact keptFrame_idle t s
  · exact keptFrame_write_pol n t _ _ _ v s hm
  · exact .device fun now y => keeps_ite _ (.refl y) (keeps_ite _ (keeps_hallWrite now _ v y) (keeps_modHall _ y rfl rfl))
  · exact .device fun now y => keeps_ite _ (.refl y) (keeps_ite _ (keeps_dkhWrite now _ _ v y) (keeps_modDkh _ y))

theorem keptFrame_directWrite (t : Nat) (m : Master) (addr : Nat) (v : Word) (s : State) :
    Framed s Keeps (neededPolder (.directRegisterWrite t m addr v)) (execDirectRegisterWrite t m addr v s) := by
  cases m with
  | mon j =>
    unfold execDirectRegisterWrite
    exact (framed_onMonitor t j s rfl _ _).mono fun _ _ => Local.keeps
  | ce j => exact keptFrame_directWrite_of_no_monitor t _ addr v s _ fun k => by nofun
  | se j => exact keptFrame_directWrite_of_no_monitor t _ addr v s _ fun k => by nofun
  | hall => exact keptFrame_directWrite_of_no_monitor t _ addr v s _ fun k => by nofun
  | dkh => exact keptFrame_directWrite_of_no_monitor t _ addr v s _ fun k => by nofun

/-! ### Every row -/

theorem exec_framed_of_no_home {c : Instr} (s : State) (h : homeOf c = none) : Framed s Keeps (neededPolder c) (exec c s) := by
  cases c
  case eccDoubleError t p x =>
    dsimp only [homeOf] at h
    dsimp only [exec]
    split at h
    next hx => exact keptFrame_eccOfDevice _ t p x s hx
    · cases h
  all_goals cases h
  all_goals dsimp only [exec]
  case hello => exact keptFrame_hello _ _ _ s
  case bye => exact keptFrame_onHall _ s _ _ _ fun _ _ y _ => ⟨.refl y, keeps_closeSession _ _ none⟩
  case tokenTake => exact keptFrame_onHall _ s _ _ _ fun m x _ hx => keepsOutcome_hTake m x _ hx
  case tokenRelease => exact keptFrame_onHall _ s _ _ _ fun m x y _ => keepsOutcome_hRelease m x _ y
  case subscribe => exact keptFrame_onHall _ s _ _ _ fun _ x y _ => keepsOutcome_hSubscribe x _ y
  case getNotifications => exact keptFrame_onHall _ s _ _ _ fun _ x y _ => keepsOutcome_hNotes x _ y
  case setNetwork => exact keptFrame_onHall _ s _ _ _ fun m _ y _ => keepsOutcome_hNetwork m _ y
  case setSv => exact keptFrame_onHall _ s _ _ _ fun m _ y _ => keepsOutcome_hSv m _ y
  case setKey => exact keptFrame_onHall _ s _ _ _ fun m x y _ => keepsOutcome_hKey m x _ y
  case getHall => exact keptFrame_onHall _ s _ _ _ fun _ _ y _ => keepsOutcome_hallOk _ (.refl y)
  case readWords | writeWords => exact keptFrame_onExpert _ s _ _ _
  case polderPower => exact keptFrame_onDkh _ s _ _ _ fun _ y => keeps_polderPower _ y
  case setWatch => exact keptFrame_onDkh _ s _ _ _ fun m y => keeps_setWatch m _ y
  case setRule => exact keptFrame_onDkh _ s _ _ _ fun m y => keeps_setRule m _ y
  case setSupervision => exact keptFrame_onDkh _ s _ _ _ fun m y => keeps_setSupervision m _ y
  case getDikehouse => exact keptFrame_onDkh _ s _ _ _ fun _ y => keeps_dkhReply _ _ _ _ y
  case readLog => exact keptFrame_readLog _ _ _ _ s
  case directRegisterWrite => exact keptFrame_directWrite _ _ _ _ s
  case applyGo | applyDiscard | cntclr => exact keptFrame_onApply _ s _
  case dkhSave | wakeclr => exact keptFrame_onDkhCmd _ s _
  case pdelayReq => exact .device fun m y => keeps_pdelayReq m _ _ y
  case commandPacket => exact .device fun m y => keeps_commandPacket m _ _ _ y
  case arpRequest => exact .device fun m y => keeps_arpRequest m _ _ _ _ _ y
  case icmpEcho => exact .device fun m y => keeps_icmpEcho m _ _ _ _ y
  case ethLinkChange => exact .device fun m y => keeps_linkChange m _ _ y
  case supervisionFrame => exact .device keeps_supervisionFrame
  case spiStatus => exact .device fun _ y => keeps_spiStatus y
  case spiWrite => exact .device fun _ y => keeps_spiWrite _ _ y
  case spiRead => exact .device fun _ y => keeps_spiRead _ y
  case commandDelivery => exact .device fun m y => keeps_commandDeliver m _ y
  case targetReply => exact .device fun m y => (talks_targetReply m _ y).keeps
  case replyTimeout => exact .device fun m y => (talks_replyTimeout m _ y).keeps
  case deliveryTimeout => exact .device fun m y => (talks_deliveryTimeout m _ y).keeps
  case sessionTimeout => exact .device fun m y => keeps_sessionTimeout m _ y
  case tokenLapse => exact .device fun m y => keeps_tokenLapse m _ y
  case vaonRise => exact .device keeps_dkhStart
  case railLoss => exact .device fun m y => keeps_railLoss m _ y
  case watchSample => exact .device fun _ y => keeps_watchSample _ _ y
  case ruleEvaluation => exact .device keeps_ruleEvaluation
  case nvWrite => exact keptFrame_nvWrite _ _ s
  case nvWriteComplete => exact keptFrame_nvWriteComplete _ _ _ s
  case hallResetRelease => exact .device fun _ y => keeps_hallStart y
  case stometFrame | syncMessage | announceMessage => exact keptFrame_onHeard _ s _ _ _ _ rfl
  case peerDelayMeasurement => exact keptFrame_peerDelay _ _ _ _ s

/-- Every row is an event of the device, or of the polder that it needs, and keeps the part, the queue and the soundness of the sessions. -/
theorem exec_framed (c : Instr) (s : State) : Framed s Keeps (neededPolder c) (exec c s) := by
  cases h : homeOf c with
  | none => exact exec_framed_of_no_home s h
  | some i => exact (exec_framed_of_home s h).mono fun _ _ => Local.keeps

theorem neededPolder_eq {c : Instr} {i : PolderId} (h : neededPolder c = some i) : namedPolder c = some i ∧ polderCommand c = none := by
  unfold neededPolder at h
  split at h
  · cases h
  next hc => exact ⟨h, hc⟩

end Sys2Proof.Machine
end

section
/-! SUPPORT. What every step keeps: the queue, the part, time, the sessions, and the polders that a row does not belong to. -/
namespace Sys2Proof.Machine
open Sys2Proof

/-! ### The step and its queue -/

theorem step_cons (c : Instr) (l : List Instr) (s : State) : step { s with pending := c :: l } = exec c { s with pending := l } := rfl

theorem step_eq_of_pending_nil {s : State} (h : s.pending = []) : step s = .next s := by
  unfold step
  rw [h]

theorem step_eq_of_pending_cons {s : State} {c : Instr} {l : List Instr} (h : s.pending = c :: l) : step s = exec c { s with pending := l } := by
  unfold step
  rw [h]

/-- Settles O1: `step` takes the front of the queue by definition. -/
theorem stepRunsFront : Obligations.StepRunsFront := by
  unfold Obligations.StepRunsFront
  exact step_cons

/-! ### What every row leaves -/

/-- The device after a row: its queue, its part and the soundness of its sessions are kept, and its time is not behind. -/
theorem exec_keeps {c : Instr} {s y : State} (h : exec c s = .next y) :
    y.pending = s.pending ∧ y.part = s.part ∧ s.now ≤ y.now ∧ (s.sessionsOk → y.sessionsOk) ∧ y.outEmpty := by
  obtain ⟨t, z, hz, rfl⟩ := (exec_framed c s).next h
  have hk : Keeps (s.at' t) (collect (s.clock t) z) := hz.trans (keeps_collect _ z)
  have hn : s.now ≤ (collect (s.clock t) z).now := by
    rw [hk.now, at_now]
    exact Nat.le_max_left _ _
  exact ⟨hk.pending, hk.part, hn, hk.sound, collect_outEmpty _ z⟩

/-- Settles O3: a row runs on the state without it, and no row changes the queue, the part, or the time backwards; each ends with `collect`. -/
theorem stepKeepsQueuePartAndTime : Obligations.StepKeepsQueuePartAndTime := by
  unfold Obligations.StepKeepsQueuePartAndTime
  refine ⟨fun c l s y h => ?_, fun c s y h => ?_⟩
  · rw [step_cons] at h
    obtain ⟨hq, hp, hn, -⟩ := exec_keeps h
    exact ⟨hq, hp, hn⟩
  · obtain ⟨-, -, -, -, ho⟩ := exec_keeps h
    exact ho

/-- Settles O4: every row keeps the soundness of sessions and tokens. -/
theorem sessionsStaySound : Obligations.SessionsStaySound := by
  unfold Obligations.SessionsStaySound
  intro s y hs h
  cases hl : s.pending with
  | nil =>
    rw [step_eq_of_pending_nil hl] at h
    cases h
    exact hs
  | cons c l =>
    rw [step_eq_of_pending_cons hl] at h
    obtain ⟨-, -, -, hok, -⟩ := exec_keeps h
    exact hok hs

/-- Settles O5: the Hall of `State.reset` has no session, and its five tokens are free. -/
theorem sessionsSoundAtReset : Obligations.SessionsSoundAtReset := by
  unfold Obligations.SessionsSoundAtReset
  have hs : State.reset.hall.sessions = [] := rfl
  have ht : ∀ k, vget State.reset.hall.tokens k none = none := fun k => by
    unfold vget
    show ((Vector.replicate 5 (none : Option Lease))[k]?).getD none = none
    rw [Vector.getElem?_replicate]
    split <;> rfl
  refine ⟨⟨?_, ?_, ?_⟩, hs, ht⟩
  · rw [hs]
    exact List.nodup_nil
  · simp [hs]
  · intro k l h
    rw [ht] at h
    cases h

/-! ### Isolation -/

theorem collect_pol_of_local {i j : PolderId} {s z : State} (t : Nat) (h : Local i (s.at' t) z) (hj : j ≠ i) :
    (collect (s.clock t) z).pol j = { s.pol j with out := [] } := by
  rw [(collects _ z).pol, h.pol j hj, at_pol]
  rfl

/-- Settles O6: every row of one polder runs in a frame whose effect is local to that polder. -/
theorem onePolderLeavesTheOthersAlone : Obligations.OnePolderLeavesTheOthersAlone := by
  unfold Obligations.OnePolderLeavesTheOthersAlone
  intro c i j s y hc hj h
  obtain ⟨t, z, hz, rfl⟩ := (exec_framed_of_home s hc).next h
  exact ⟨collect_pol_of_local t hz hj, (collects _ z).tokens.trans hz.tokens⟩

/-- Settles O7: `after` replaces one polder and collects. -/
theorem eventFrame : Obligations.EventFrame := by
  unfold Obligations.EventFrame
  intro s t i q
  have hc := collects (s.clock t) ((s.at' t).setPol i (polish (s.clock t) q))
  have hl := local_setPol i (polish (s.clock t) q) (s.at' t)
  refine ⟨?_, fun j hj => collect_pol_of_local t hl hj, hc.now.trans hl.now, hc.part.trans hl.part, hc.pending.trans hl.pending, ?_,
    hc.tokens.trans hl.tokens, hc.idx.trans hl.idx, ?_⟩
  · exact (hc.pol i).trans (by rw [setPol_pol]; rfl)
  · exact hc.rails.trans (by simp)
  · exact hc.up.trans (by simp)

/-! ### Completion -/

/-- Settles O8: a row stops only as an event at a polder that the part lacks. -/
theorem everyRowCompletes : Obligations.EveryRowCompletes := by
  unfold Obligations.EveryRowCompletes
  refine ⟨fun c s => ⟨fun h => ?_, fun r => (exec_framed c s).not_refused r, fun f h => ?_⟩, fun s t i h => ?_⟩
  · exact (exec_framed c s).completes fun i hi => h i (neededPolder_eq hi).1
  · obtain ⟨i, hi, hf, hp⟩ := (exec_framed c s).fault h
    obtain ⟨hn, hc⟩ := neededPolder_eq hi
    exact ⟨i, hn, hf, hp, hc⟩
  · have habs := fun f => onPart_absent t i s f h
    exact ⟨fun x => habs _, habs _, fun n hn => (if_pos hn).trans (habs _), habs _, habs _, habs _, habs _⟩

/-! ### The start of a command, and reset -/

theorem atPolder_of_seHalted (t : Nat) (c : Cmd) (op : Nat) (f : Nat → State → State) {s : State} {i : PolderId} (hu : unavail s i = none)
    (hs : seState (s.pol i) ≠ Eng.run) : atPolder t i c op s f = .next (s.waited t) := by
  unfold atPolder
  rw [onDevice_eq]
  simp only [unavail_at, hu, at_pol, hs, if_false]
  rfl

theorem exec_of_seHalted {k : Instr} {s : State} {t : Nat} {i : PolderId} {op : Nat} {c : Cmd} (h : polderCommand k = some (t, i, op, c))
    (hu : unavail s i = none) (hs : seState (s.pol i) ≠ Eng.run) : exec k s = .next (s.waited t) := by
  obtain ⟨f, he⟩ | ⟨f, b, g, he⟩ := exec_polderCommand s h
  · exact he.trans (atPolder_of_seHalted t c op _ hu hs)
  · exact he.trans (atPolder_of_seHalted t c op _ hu hs)

theorem cardTakes_of_length {op : Nat} {c : Cmd} {p : Polder} {d : Card} (hd : cardOf op = some d) (hl : d.len.ok c.payload = false) :
    cardTakes op c p = false := by
  unfold cardTakes
  rw [hd]
  simp [hl]

theorem cardTakes_of_rescue {op : Nat} {c : Cmd} {p : Polder} {d : Card} (hd : cardOf op = some d) (hr : rescue p = true)
    (hc : d.rescue = false) : cardTakes op c p = false := by
  unfold cardTakes
  rw [hd]
  simp [hr, hc]

theorem carried_of_length {op : Nat} {c : Cmd} {p : Polder} {d : Card} (f : Polder → Polder) (hd : cardOf op = some d)
    (hl : d.len.ok c.payload = false) : carried' op c p f = answer p op c (bare Status.length) := by
  unfold carried'
  rw [hd]
  simp [hl]

theorem carried_of_rescue {op : Nat} {c : Cmd} {p : Polder} {d : Card} (f : Polder → Polder) (hd : cardOf op = some d)
    (hl : d.len.ok c.payload = true) (hr : rescue p = true) (hc : d.rescue = false) :
    carried' op c p f = answer p op c (bare Status.state) := by
  unfold carried'
  rw [hd]
  simp [hl, hr, hc]

/-- Settles O2: the frame of a command asks for the SE, then for the length, then for the rescue mode. -/
theorem idleQueueHaltedSeAndLengths : Obligations.IdleQueueHaltedSeAndLengths := by
  unfold Obligations.IdleQueueHaltedSeAndLengths
  refine ⟨fun s => step_eq_of_pending_nil, fun k s t i op c h hu => ⟨exec_of_seHalted h hu, fun d hs hd => ⟨fun hl => ?_, fun hl hr hc => ?_⟩⟩⟩
  · exact answers_of_card_refusal s h hu hs (cardTakes_of_length hd hl) fun f => carried_of_length f hd hl
  · exact answers_of_card_refusal s h hu hs (cardTakes_of_rescue hd hr hc) fun f => carried_of_rescue f hd hl hr hc

/-- Settles O9: no register has been written after reset, so each reads as its map gives it. -/
theorem registersAfterReset : Obligations.RegistersAfterReset := by
  unfold Obligations.RegistersAfterReset
  refine ⟨fun i off => ?_, fun _ => rfl, fun _ => rfl, ?_⟩
  · cases i <;> rfl
  · decide

end Sys2Proof.Machine
end

section
/-! SUPPORT. Commands at a polder, and those that write registers through a sluice of their own (R83, R274 to R283): where the sluice rules take the
entries they are committed, and where staging finds a value out of range the command is refused whole. -/
namespace Sys2Proof.Machine
open Sys2Proof

/-! ### A command that its polder takes -/

theorem does_of_onCommand {k : Instr} {s : State} {t : Nat} {i : PolderId} {op : Nat} {c : Cmd} {f : Nat → Polder → Polder} {q : Polder}
    (he : exec k s = onCommand t i c op s f) (h : s.takes i op c) (hf : f (s.clock t) (s.pol i) = q) : Does k s t i q := by
  unfold Does
  rw [he, onCommand_eq t i c op s f h, hf]

theorem answers_of_onCommand {k : Instr} {s : State} {t : Nat} {i : PolderId} {op : Nat} {c : Cmd} {f : Nat → Polder → Polder} {r : Reply}
    (he : exec k s = onCommand t i c op s f) (h : s.takes i op c) (hf : f (s.clock t) (s.pol i) = answer (s.pol i) op c r) :
    Answers k s t i op c r := does_of_onCommand he h hf

/-! ### Sluices -/

theorem vset_vset {α : Type} {n : Nat} (v : Vector α n) (k : Nat) (a b : α) : vset (vset v k a) k b = vset v k b := by
  unfold vset
  ext j hj
  simp only [Vector.getElem_setIfInBounds]
  split <;> rfl

theorem slu_setSlu_self (p : Polder) {n : Nat} (x : Sluice) (h : n < 8) : slu (setSlu p n x) n = x := vget_vset_self _ _ _ h

theorem slu_setSlu_ne (p : Polder) {n k : Nat} (x : Sluice) (h : k ≠ n) : slu (setSlu p n x) k = slu p k := vget_vset_ne _ _ _ h

theorem setSlu_setSlu (p : Polder) (n : Nat) (x y : Sluice) : setSlu (setSlu p n x) n y = setSlu p n y := by
  unfold setSlu
  rw [vset_vset]

theorem sluFree_lt {p : Polder} {n : Nat} (h : sluFree p = some n) : n < 8 := List.mem_range.mp (List.mem_of_find?_eq_some h)

/-! ### What staging and the checks read is not in the sluices -/

theorem entryStatus_sts (p : Polder) (x : StsState) (l : List Entry) (e : Entry) : entryStatus { p with sts := x } l e = entryStatus p l e := rfl

theorem stageStatus_sts (p : Polder) (x : StsState) (before l : List Entry) : stageStatus { p with sts := x } before l = stageStatus p before l := by
  induction l generalizing before with
  | nil => rfl
  | cons e l ih => simp only [stageStatus, entryStatus_sts, ih]

theorem withEntries_sts (p : Polder) (x : StsState) (l : List Entry) : withEntries { p with sts := x } l = { withEntries p l with sts := x } := by
  unfold withEntries
  induction l generalizing p with
  | nil => rfl
  | cons e l ih =>
    simp only [List.foldl_cons]
    cases polRow e.off with
    | none => exact ih p
    | some r => exact ih (wr p e.off (merge (rd p e.off) (e.mask &&& storedMask r.1) e.val))

theorem crossOk_sts (p q : Polder) (x y : StsState) : crossOk { p with sts := x } { q with sts := y } = crossOk p q := rfl

/-! ### Staging (R275 to R277) -/

/-- Staging takes no entry that the regime bars. -/
theorem not_restricted_of_staged {p : Polder} {before l : List Entry} (h : stageStatus p before l = Status.ok) : ∀ e ∈ l, restricted p e = false := by
  induction l generalizing before with
  | nil => simp
  | cons e l ih =>
    have he : entryStatus p before e = Status.ok ∧ stageStatus p (before ++ [e]) l = Status.ok := by
      unfold stageStatus at h
      split at h
      next h0 => exact ⟨h0, h⟩
      next h0 => exact absurd h h0
    have hr : restricted p e = false := by
      by_contra hr
      have hs : entryStatus p before e ≠ Status.ok := by
        unfold entryStatus
        split
        · decide
        · simp only [Bool.not_eq_false] at hr
          simp only [hr, if_true]
          split_ifs <;> decide
      exact hs he.1
    exact List.forall_mem_cons.mpr ⟨hr, ih he.2⟩

theorem mem_stampFrom {k : Nat} {l : List (Nat × Word × Word)} {e : Entry} (h : e ∈ stampFrom k l) : (e.off, e.mask, e.val) ∈ l := by
  induction l generalizing k with
  | nil => simp [stampFrom] at h
  | cons w l ih =>
    obtain ⟨o, m, v⟩ := w
    rw [stampFrom, List.mem_cons] at h
    obtain rfl | h := h
    · exact List.mem_cons_self
    · exact List.mem_cons_of_mem _ (ih h)

theorem slu_sluOpen (now owner : Nat) (p : Polder) {n : Nat} (h : n < 8) :
    slu (sluOpen now n owner p) n = { st := .opened, owner := owner, lastUse := now, reason := (slu p n).reason } := slu_setSlu_self p _ h

/-- Staging in a sluice just opened. -/
theorem sluStage_sluOpen (now owner : Nat) (p : Polder) {n : Nat} {l : List (Nat × Word × Word)} (hn : n < 8) (hl : l.length ≤ 64)
    (hs : stageStatus p [] (stampFrom p.sts.stamp l) = Status.ok) :
    sluStage now n l (sluOpen now n owner p) = (Status.ok, p.holding now owner n l) := by
  have hst : stageStatus (sluOpen now n owner p) [] (stampFrom (sluOpen now n owner p).sts.stamp l) = 0 := (stageStatus_sts p _ _ _).trans hs
  have hlen : ¬64 < l.length := by omega
  unfold sluStage
  simp only [slu_sluOpen now owner p hn, List.length_nil, Nat.zero_add, if_neg hlen, hst, List.nil_append]
  simp only [Polder.holding, sluOpen, setSlu_setSlu]
  rfl

/-! ### An immediate commit -/

section
variable {p : Polder} {now n : Nat} {l : List (Nat × Word × Word)}

theorem slu_holding_self (p : Polder) (now sess : Nat) (l : List (Nat × Word × Word)) (hn : n < 8) :
    slu (p.holding now sess n l) n =
      { st := .opened, owner := sess, lastUse := now, reason := (slu p n).reason, entries := stampFrom p.sts.stamp l } := slu_setSlu_self p _ hn

theorem slu_holding_ne (p : Polder) (now sess : Nat) (l : List (Nat × Word × Word)) {k : Nat} (h : k ≠ n) :
    slu (p.holding now sess n l) k = slu p k := slu_setSlu_ne p _ h

theorem clashStamp_of_apart {x y : Sluice} (h : ∀ e ∈ x.entries, ∀ g ∈ y.entries, g.off ≠ e.off) : clashStamp x y = none := by
  have hf : (x.entries.filter fun e => y.entries.any fun g => g.off == e.off) = [] := by
    rw [List.filter_eq_nil_iff]
    intro e he hg
    obtain ⟨g, hg, heq⟩ := List.any_eq_true.mp hg
    exact h e he g hg (by simpa using heq)
  unfold clashStamp
  rw [hf]
  rfl

/-- No other sluice commits to a register of the entries in this very cycle. -/
theorem conflicts_holding (sess : Nat) (h : p.sluiceTakes now l n) :
    conflicts (p.holding now sess n l) now n (tblAt (p.holding now sess n l).tim now / (cyc : Nat)) = [] := by
  obtain ⟨hfree, -, -, hapart, -, -⟩ := h
  have hn := sluFree_lt hfree
  unfold conflicts
  rw [List.filterMap_eq_nil_iff]
  intro k hk
  dsimp only
  split
  · rfl
  next hc =>
    simp only [not_or, not_and_or, not_not] at hc
    obtain ⟨hkn, hst, hcyc⟩ := hc
    rw [slu_holding_ne p now sess l hkn] at hst hcyc ⊢
    have hx : clashStamp (slu (p.holding now sess n l) n) (slu p k) = none := by
      refine clashStamp_of_apart fun e he g hg => ?_
      rw [slu_holding_self p now sess l hn] at he
      exact fun heq => hapart k (List.mem_range.mp hk) hst hcyc g hg _ (mem_stampFrom he) heq.symm
    rw [hx]

theorem checkReason_holding (sess : Nat) (q3 : Bool) (h : p.sluiceTakes now l n) :
    checkReason (p.holding now sess n l) (slu (p.holding now sess n l) n) [] q3 = none := by
  obtain ⟨hfree, -, hstage, -, hcross, hdo⟩ := h
  have hr := not_restricted_of_staged hstage
  rw [slu_holding_self p now sess l (sluFree_lt hfree)]
  have hw : withEntries (p.holding now sess n l) (stampFrom p.sts.stamp l) =
      { withEntries p (stampFrom p.sts.stamp l) with sts := (p.holding now sess n l).sts } := withEntries_sts p _ _
  have h1 : crossOk (withEntries (p.holding now sess n l) []) (withEntries (withEntries (p.holding now sess n l) []) (stampFrom p.sts.stamp l)) = true := by
    show crossOk (p.holding now sess n l) (withEntries (p.holding now sess n l) (stampFrom p.sts.stamp l)) = true
    rw [hw]
    exact hcross
  have h2 : (stampFrom p.sts.stamp l).any (restricted (p.holding now sess n l)) = false := by
    rw [List.any_eq_false]
    exact fun e he => Bool.eq_false_iff.mp (hr e he)
  have h3 : ((stampFrom p.sts.stamp l).any fun e => e.off == A.FIO_DOCMD && bitsOf e.mask 3 0 &&&
      assigned (rd (withEntries (withEntries (p.holding now sess n l) []) (stampFrom p.sts.stamp l)) A.PCT_REGCFG) != 0) = false := by
    rw [List.any_eq_false]
    intro e he
    show ¬(e.off == A.FIO_DOCMD && bitsOf e.mask 3 0 &&&
      assigned (rd (withEntries (p.holding now sess n l) (stampFrom p.sts.stamp l)) A.PCT_REGCFG) != 0) = true
    rw [hw]
    obtain h | h := hdo _ (mem_stampFrom he)
    · simp [show e.off ≠ A.FIO_DOCMD from h]
    · have h' : bitsOf e.mask 3 0 &&& assigned (rd { withEntries p (stampFrom p.sts.stamp l) with sts := (p.holding now sess n l).sts } A.PCT_REGCFG) = 0 := h
      simp [h']
  unfold checkReason
  simp only [h1, h2, h3, Bool.not_true, Bool.false_eq_true, if_false, Bool.or_self, Bool.and_false, Bool.false_and]

theorem sluImmediate_holding (sess : Nat) (req : Option CmdRef) (h : p.sluiceTakes now l n) :
    sluImmediate now n req (p.holding now sess n l) = (Rsn.committed, p.committed now sess n l req) := by
  unfold sluImmediate sluResolve
  simp only [conflicts_holding sess h, List.any_nil, Bool.false_eq_true, if_false, List.foldl_nil, checkReason_holding sess _ h]
  rfl

/-- A basic command whose entries the sluice rules take commits them. -/
theorem sluBasic_of_sluiceTakes (sess : Nat) (req : Option CmdRef) (h : p.sluiceTakes now l n) :
    sluBasic now sess l req p = (okWith [], p.committed now sess n l req) := by
  have ⟨hfree, hlen, hstage, _⟩ := h
  unfold sluBasic
  simp only [hfree, sluStage_sluOpen now sess p (sluFree_lt hfree) hlen hstage, sluImmediate_holding sess req h]
  rfl

end

/-! ### A setting command (R83) -/

theorem setCmd_of_admits {p : Polder} {now n : Nat} {l : List Item} (op : Nat) (c : Cmd) (h : p.admits now l n) :
    setCmd now op c true l p = answer (p.committed now c.sess n (entriesOf l)) op c (okWith []) := by
  unfold setCmd
  rw [sluBasic_of_sluiceTakes c.sess none h.2]
  simp [h.1]

theorem setCmd_of_outOfRange {p : Polder} {now : Nat} {l : List Item} (op : Nat) (c : Cmd) (h : p.outOfRange now c.sess l) :
    setCmd now op c true l p = answer p op c (bare Status.range) := by
  unfold setCmd
  split
  · rfl
  next hf =>
    obtain h | ⟨n, q, hn, hq⟩ := h
    · simp [h] at hf
    · unfold sluBasic
      simp only [hn, hq]

theorem setCmd_refused (now op : Nat) (c : Cmd) (l : List Item) (p : Polder) : setCmd now op c false l p = answer p op c (bare Status.range) := rfl

section
variable {k : Instr} {s : State} {t : Nat} {i : PolderId} {op : Nat} {c : Cmd} {f : Nat → Polder → Polder} {ok : Bool} {l : List Item}
  (he : exec k s = onCommand t i c op s f) (h : s.takes i op c)
  (hf : f (s.clock t) (s.pol i) = setCmd (s.clock t) op c ok l (s.pol i))
include he h hf

theorem commits_of_setCmd (hok : ok = true) : Commits k s t i op c l := fun _ hn =>
  does_of_onCommand he h (hf.trans (hok ▸ setCmd_of_admits op c hn))

/-- A command that stages the fields `l` commits them, or is refused whole. -/
theorem sets_of_setCmd (hok : ok = true) : Sets k s t i op c l :=
  ⟨commits_of_setCmd he h hf hok, fun hr => answers_of_onCommand he h (hf.trans (hok ▸ setCmd_of_outOfRange op c hr))⟩

theorem answers_range_of_setCmd (hok : ok = false) : Answers k s t i op c (bare Status.range) :=
  answers_of_onCommand he h (hf.trans (hok ▸ setCmd_refused _ op c l _))

end

/-- Bounds that each value meets, or that one value misses. -/
theorem within_iff (l : List (Nat × Nat × Nat)) : within l = true ↔ ∀ e ∈ l, e.1 ≤ e.2.1 ∧ e.2.1 ≤ e.2.2 := by
  unfold within
  simp

end Sys2Proof.Machine
end

section
/-! SUPPORT. Setting commands of the swing engine (O12): each is one use of the rule for setting commands. -/
namespace Sys2Proof.Machine
open Sys2Proof

theorem within_eq_false_iff (l : List (Nat × Nat × Nat)) : within l = false ↔ ∃ e ∈ l, e.2.1 < e.1 ∨ e.2.2 < e.2.1 := by
  rw [Bool.eq_false_iff, ne_eq, within_iff]
  push Not
  refine exists_congr fun e => and_congr_right fun _ => ?_
  omega

/-- The fields of SET_POINTS: the quantities that the mask selects. -/
theorem pick_eq_filter (m : Nat) (x0 x1 x2 x3 : Item) :
    (if m.testBit 0 then [x0] else []) ++ (if m.testBit 1 then [x1] else []) ++ (if m.testBit 2 then [x2] else []) ++
        (if m.testBit 3 then [x3] else []) =
      (((List.range 4).zip [x0, x1, x2, x3]).filter fun x => m.testBit x.1).map (·.2) := by
  show _ = (([(0, x0), (1, x1), (2, x2), (3, x3)] : List (Nat × Item)).filter fun x => m.testBit x.1).map (·.2)
  simp only [List.filter_cons, List.filter_nil]
  split <;> split <;> split <;> split <;> rfl

theorem bn_beq (x n : Nat) : bn (x == n) = if x = n then 1 else 0 := by
  unfold bn
  simp

/-- Settles O12: each card's fields are what its command stages, and its range check is that of the card. -/
theorem swingSettingsComplete : Obligations.SwingSettingsComplete := by
  unfold Obligations.SwingSettingsComplete
  refine ⟨fun s t i c => ⟨fun h hv => ?_, fun h h0 h1 h2 h3 => ?_, fun h h0 h1 => ?_, fun h h0 h1 h2 h3 h4 => ?_, fun h h0 h1 h2 h3 h4 => ?_,
      fun h h0 h1 h2 h3 => ?_, fun l h hm hl => ?_, fun h hm => ?_⟩,
    fun s t i c => ⟨fun h hv => ?_, fun h hv => ?_, fun h hv => ?_, fun h hv => ?_, fun h hv => ?_, fun h hv => ?_⟩⟩
  · rw [← bn_beq]
    exact sets_of_setCmd (f := fun now => cSetBases now c) rfl h rfl (by simpa using hv)
  · exact sets_of_setCmd (f := fun now => cSetInertia now c) rfl h rfl (by simp [within_iff]; omega)
  · exact sets_of_setCmd (f := fun now => cSetDroops now c) rfl h rfl (by simp [within_iff]; omega)
  · exact sets_of_setCmd (f := fun now => cSetVoltageLaw now c) rfl h rfl (by simp [within_iff]; omega)
  · exact sets_of_setCmd (f := fun now => cSetLimits now c) rfl h rfl (by simp [within_iff]; omega)
  · exact sets_of_setCmd (f := fun now => cSetAnchor now c) rfl h rfl (by simp [within_iff]; omega)
  · subst hl
    rw [← pick_eq_filter]
    exact sets_of_setCmd (f := fun now => cSetPoints now c) rfl h (if_neg hm) rfl
  · exact answers_of_onCommand (f := fun now => cSetPoints now c) rfl h (if_pos hm)
  · exact answers_range_of_setCmd (f := fun now => cSetBases now c) rfl h rfl (by simpa using hv)
  · exact answers_range_of_setCmd (f := fun now => cSetInertia now c) rfl h rfl (by simp [within_eq_false_iff]; omega)
  · exact answers_range_of_setCmd (f := fun now => cSetDroops now c) rfl h rfl (by simp [within_eq_false_iff]; omega)
  · exact answers_range_of_setCmd (f := fun now => cSetVoltageLaw now c) rfl h rfl (by simp [within_eq_false_iff]; omega)
  · exact answers_range_of_setCmd (f := fun now => cSetLimits now c) rfl h rfl (by simp [within_eq_false_iff]; omega)
  · exact answers_range_of_setCmd (f := fun now => cSetAnchor now c) rfl h rfl (by simp [within_eq_false_iff]; omega)

end Sys2Proof.Machine
end

section
/-! SUPPORT. Commands of the regime machine, the embankment controller, the modulator, the learner and the gallery (O18, O22, O23). -/
namespace Sys2Proof.Machine
open Sys2Proof

/-! ### Regime machine (R118) -/

/-- REQUEST_REGIME for now: the commit makes the request, and its evaluation answers. -/
theorem cRequestRegime_now {now n : Nat} {c : Cmd} {p : Polder} (hs : u48At c.payload 4 = 0) (hn : u32At c.payload 10 = 0)
    (ha : p.admits now (requestItem (byteAt c.payload 0) (byteAt c.payload 1)) n) :
    cRequestRegime now c p = p.committed now c.sess n (entriesOf (requestItem (byteAt c.payload 0) (byteAt c.payload 1)))
      (some (refOf Op.requestRegime c)) := by
  obtain ⟨hf, ht⟩ := ha
  unfold cRequestRegime
  simp only [hs, hn, hf, timeOk, sluBasic_of_sluiceTakes c.sess _ ht]
  simp [okWith]

theorem cBreaker_taken {now : Nat} {c : Cmd} {p : Polder} (hb : byteAt c.payload 0 ≤ 1) (he : brkEn p = true)
    (h : byteAt c.payload 0 = 1 → regime p = Rg.ready ∧ fbit p F.PCT_REGIME_DEAD = true ∧ inWait p = false) :
    cBreaker now c p = brkDo now (byteAt c.payload 0 == 1) (some (refOf Op.breaker c)) p := by
  have h1 : ¬1 < byteAt c.payload 0 := by omega
  have h2 : ¬(byteAt c.payload 0 = 1 ∧ ¬(regime p = Rg.ready ∧ fbit p F.PCT_REGIME_DEAD = true ∧ inWait p = false)) := fun hx => hx.2 (h hx.1)
  unfold cBreaker breakerCmd
  simp only [if_neg h1, if_neg h2, he, Bool.not_true, Bool.false_eq_true, if_false, if_true]

theorem cBreaker_unassigned {now : Nat} {c : Cmd} {p : Polder} (hb : byteAt c.payload 0 ≤ 1) (he : brkEn p = false) :
    cBreaker now c p = answer p Op.breaker c (bare Status.state) := by
  have h1 : ¬1 < byteAt c.payload 0 := by omega
  unfold cBreaker breakerCmd
  simp only [if_neg h1, he, Bool.not_false, if_true]
  rfl

/-- Settles O18: the settings go through the rule for setting commands, the request through its own sluice, the breaker through its order. -/
theorem regimeCommandsComplete : Obligations.RegimeCommandsComplete := by
  unfold Obligations.RegimeCommandsComplete
  intro s t i c
  refine ⟨fun h hb => ?_, fun h => ?_, fun h l hl => ?_, fun h hs hn n l hl ha => ?_, fun h hb he => ?_, fun h hb he hr hd hp => ?_,
    fun h he hb => ?_⟩
  · exact commits_of_setCmd (f := fun now => cSetEnvelope now c) rfl h rfl (by simpa using hb)
  · exact commits_of_setCmd (f := fun now => cSetRide now c) rfl h rfl rfl
  · subst hl
    exact commits_of_setCmd (f := fun now => cSetStartSync now c) rfl h rfl rfl
  · subst hl
    exact does_of_onCommand (f := fun now => cRequestRegime now c) rfl h (cRequestRegime_now hs hn ha)
  · refine does_of_onCommand (f := fun now => cBreaker now c) rfl h ((cBreaker_taken (by omega) he (by omega)).trans ?_)
    rw [hb]
    rfl
  · have hw : inWait (s.pol i) = false := by
      unfold inWait
      simp [hp]
    refine does_of_onCommand (f := fun now => cBreaker now c) rfl h ((cBreaker_taken (by omega) he fun _ => ⟨hr, hd, hw⟩).trans ?_)
    rw [hb]
    rfl
  · exact answers_of_onCommand (f := fun now => cBreaker now c) rfl h (cBreaker_unassigned hb he)

/-! ### SET_CARRIER (R169, R185) -/

theorem cSetCarrier_period {now : Nat} {c : Cmd} {p : Polder} (hm : byteAt c.payload 0 = 1) :
    cSetCarrier now c p = setCmd now Op.setCarrier c true [whole A.MOD_PER (binsOfNs (u32At c.payload 4))] p := by
  have hd : ([0, 1, 2, 3].filter fun k => (1 : Nat).testBit (1 + k)) = [] := by decide
  have ht : ([0, 1, 2].filter fun k => (1 : Nat).testBit (5 + k)) = [] := by decide
  have hp : (1 : Nat).testBit 0 = true := by decide
  unfold cSetCarrier
  dsimp only
  rw [hm]
  simp only [hd, ht, hp, List.map_nil, if_true, if_neg one_ne_zero, List.flatMap_nil, List.append_nil, List.all_nil]

theorem dutyItems_of_nonneg (p : Polder) (i per : Nat) {m : Int} (h0 : 0 ≤ m) (h1 : m ≤ 1000000) :
    dutyItems p i per m = some [part (F.MOD_CMP_SIDE i) 0, part (F.MOD_CMP_TON i) (roundDivN (m.toNat * per) 1000000)] := by
  unfold dutyItems
  rw [if_neg (by omega), if_neg (by omega)]

theorem cSetCarrier_duty {now : Nat} {c : Cmd} {p : Polder} (hm : byteAt c.payload 0 = 2) (h0 : 0 ≤ i32At c.payload 8)
    (h1 : i32At c.payload 8 ≤ 1000000) :
    cSetCarrier now c p = setCmd now Op.setCarrier c true
      [part (F.MOD_CMP_SIDE 0) 0, part (F.MOD_CMP_TON 0) (roundDivN ((i32At c.payload 8).toNat * perBuffer p) 1000000)] p := by
  have hd : ([0, 1, 2, 3].filter fun k => (2 : Nat).testBit (1 + k)) = [0] := by decide
  have ht : ([0, 1, 2].filter fun k => (2 : Nat).testBit (5 + k)) = [] := by decide
  have hp : (2 : Nat).testBit 0 = false := by decide
  unfold cSetCarrier
  dsimp only
  rw [hm]
  simp only [hd, ht, hp, List.map_cons, List.map_nil, Nat.mul_zero, Nat.add_zero, Bool.false_eq_true, if_false, dutyItems_of_nonneg p 0 _ h0 h1,
    if_neg two_ne_zero, List.flatMap_cons, List.flatMap_nil, List.append_nil, List.nil_append, List.all_cons, List.all_nil, Option.isSome_some,
    Option.getD_some, Bool.and_self]

theorem within_of_forall {l : List (Nat × Nat × Nat)} (h : ∀ e ∈ l, e.1 ≤ e.2.1 ∧ e.2.1 ≤ e.2.2) : within l = true := (within_iff l).mpr h

/-- Settles O22: each card's fields are what its command stages. -/
theorem embankmentAndModulatorSettingsComplete : Obligations.EmbankmentAndModulatorSettingsComplete := by
  unfold Obligations.EmbankmentAndModulatorSettingsComplete
  intro s t i c b p hb hp
  subst hb hp
  refine ⟨fun h h0 => ?_, fun h h0 h1 h2 => ?_, fun h h0 h1 h2 h3 => ?_, fun h h1 => ?_, fun h h0 h1 h2 => ?_,
    fun h h0 h1 h2 h3 hd h4 h5 => ?_, fun h => ?_, fun h h0 h1 => ?_, fun h hm => ?_, fun h hm hv => ?_, fun h hm => ?_⟩
  · exact commits_of_setCmd (f := fun now => cSetEmbankment now c) rfl h rfl (by simpa using h0)
  · exact commits_of_setCmd (f := fun now => cSetBand now c) rfl h rfl (by simp [within_iff]; omega)
  · refine commits_of_setCmd (f := fun now => cSetPrediction now c) (ok := true) rfl h ?_ rfl
    unfold cSetPrediction
    dsimp only
    rw [h1, within_of_forall (by simp; omega)]
    rfl
  · exact answers_range_of_setCmd (f := fun now => cSetPrediction now c) rfl h rfl (by simp [h1])
  · exact commits_of_setCmd (f := fun now => cSetNpBalance now c) rfl h rfl (by simp [within_iff]; omega)
  · have hd0 := hd 0 (by omega)
    have hd1 := hd 1 (by omega)
    have hd2 := hd 2 (by omega)
    have hd3 := hd 3 (by omega)
    exact commits_of_setCmd (f := fun now => cSetModulator now c) rfl h rfl (by simp [within_iff] at *; omega)
  · exact commits_of_setCmd (f := fun now => cSetBootstrap now c) rfl h rfl rfl
  · exact commits_of_setCmd (f := fun now => cSetPulseShape now c) rfl h rfl (by simp [within_iff]; omega)
  · exact commits_of_setCmd (f := fun now => cSetCarrier now c) rfl h (cSetCarrier_period hm) rfl
  · exact commits_of_setCmd (f := fun now => cSetCarrier now c) rfl h (cSetCarrier_duty hm hv.1 hv.2) rfl
  · exact answers_of_onCommand (f := fun now => cSetCarrier now c) rfl h (if_pos hm)

/-! ### Learner and gallery -/

theorem cLearnerStore_done {now : Nat} {c : Cmd} {p : Polder} (h : byteAt c.payload 0 = 0 ∨ byteAt c.payload 0 = 3 ∨
      byteAt c.payload 0 = 2 ∧ lrnOff p = true ∨ byteAt c.payload 0 = 1 ∧ lrnOff p = true ∧ (goodSection p).isSome = true) :
    cLearnerStore now c p = answer (lrnCmd now (wordN (2 ^ byteAt c.payload 0)) p) Op.learnerStore c
      (okWith (wBytes (rd (lrnCmd now (wordN (2 ^ byteAt c.payload 0)) p) A.LRN_STAT) ++
        wBytes (rd (lrnCmd now (wordN (2 ^ byteAt c.payload 0)) p) A.LRN_EVT))) := by
  unfold cLearnerStore
  dsimp only
  obtain h | h | ⟨h, ho⟩ | ⟨h, ho, hg⟩ := h
  · rw [h]
    rfl
  · rw [h]
    rfl
  · rw [h, ho]
    rfl
  · have hn : (goodSection p).isNone = false := by simpa using hg
    rw [h, ho, hn]
    rfl

theorem cLearnerStore_on {now : Nat} {c : Cmd} {p : Polder} (h : byteAt c.payload 0 = 1 ∨ byteAt c.payload 0 = 2) (ho : lrnOff p = false) :
    cLearnerStore now c p = answer p Op.learnerStore c (bare Status.state) := by
  unfold cLearnerStore
  dsimp only
  obtain h | h := h
  · rw [h, ho]
    rfl
  · rw [h, ho]
    rfl

theorem recActs_iff {k st : Nat} (h : k ≤ 2) : recActs k st = true ↔
    k = 0 ∧ st ≠ Rec.triggered ∨ k = 1 ∧ st = Rec.armed ∨ k = 2 ∧ (st = Rec.armed ∨ st = Rec.triggered) := by
  obtain rfl | rfl | rfl : k = 0 ∨ k = 1 ∨ k = 2 := by omega
  · simp [recActs]
  · simp [recActs]
  · simp [recActs]

theorem cGalleryControl_done {c : Cmd} {p : Polder} (hk : byteAt c.payload 0 ≤ 2)
    (h : recActs (byteAt c.payload 0) (fget p F.GAL_STAT_STATE) = true) :
    cGalleryControl c p = answer (galCmd (wordN (2 ^ byteAt c.payload 0)) p) Op.galleryControl c
      (okWith (wBytes (rd (galCmd (wordN (2 ^ byteAt c.payload 0)) p) A.GAL_STAT))) := by
  unfold cGalleryControl
  rw [if_neg (by omega), h]
  rfl

theorem cGalleryControl_ignored {c : Cmd} {p : Polder} (hk : byteAt c.payload 0 ≤ 2)
    (h : recActs (byteAt c.payload 0) (fget p F.GAL_STAT_STATE) = false) :
    cGalleryControl c p = answer p Op.galleryControl c (bare Status.state) := by
  unfold cGalleryControl
  rw [if_neg (by omega), h]
  rfl

/-- Settles O23: the settings go through the rule for setting commands, the actions through the recorders' and the learner's own conditions. -/
theorem learnerAndGalleryCommandsComplete : Obligations.LearnerAndGalleryCommandsComplete := by
  unfold Obligations.LearnerAndGalleryCommandsComplete
  intro s t i c b p hb hp
  subst hb hp
  refine ⟨fun h h0 h1 h2 h3 => ?_, fun h hk q hq => ?_, fun h hk ho => ?_, fun h => ?_, fun k q h hk hk2 ha hq => ?_, fun h hk hs => ?_⟩
  · exact commits_of_setCmd (f := fun now => cSetLearner now c) rfl h rfl (by simp [within_iff]; omega)
  · subst hq
    exact does_of_onCommand (f := fun now => cLearnerStore now c) rfl h (cLearnerStore_done hk)
  · exact answers_of_onCommand (f := fun now => cLearnerStore now c) rfl h (cLearnerStore_on hk ho)
  · exact commits_of_setCmd (f := fun now => cSetGallery now c) rfl h rfl rfl
  · subst hk hq
    exact does_of_onCommand (f := fun _ => cGalleryControl c) rfl h (cGalleryControl_done hk2 ((recActs_iff hk2).mpr ha))
  · refine answers_of_onCommand (f := fun _ => cGalleryControl c) rfl h (cGalleryControl_ignored (by omega) ?_)
    rw [hk]
    simpa [recActs] using hs

end Sys2Proof.Machine
end

section
/-! SUPPORT. Which registers an operation of the model can change, and fields that it leaves alone. -/
namespace Sys2Proof.Machine
open Sys2Proof

/-! ### Registers outside a set -/

/-- Every register whose offset `S` does not name is in `q` as it is in `p`. -/
def Within (S : Nat → Prop) (p q : Polder) : Prop := ∀ off, ¬S off → rd q off = rd p off

/-- The offsets of one block of registers. -/
def inBlock (b : Nat) (off : Nat) : Prop := off / 65536 = b

section
variable {S : Nat → Prop} {p q r : Polder}

theorem Within.refl (p : Polder) : Within S p p := fun _ _ => rfl

theorem Within.trans (h : Within S p q) (g : Within S q r) : Within S p r := fun off ho => (g off ho).trans (h off ho)

theorem Within.mono {T : Nat → Prop} (hST : ∀ o, S o → T o) (h : Within S p q) : Within T p q := fun off ho => h off fun hs => ho (hST off hs)

theorem Within.fget (h : Within S p q) {f : Fld} (hf : ¬S f.off) : fget q f = fget p f := by
  unfold Machine.fget
  rw [h _ hf]

theorem Within.fbit (h : Within S p q) {f : Fld} (hf : ¬S f.off) : fbit q f = fbit p f := by
  unfold Machine.fbit
  rw [h.fget hf]

theorem within_ite {b : Prop} [Decidable b] (h : Within S p q) (g : Within S p r) : Within S p (if b then q else r) := by
  split <;> assumption

theorem within_foldl {α : Type} (f : Polder → α → Polder) (l : List α) (p : Polder) (hf : ∀ q, ∀ a ∈ l, Within S q (f q a)) :
    Within S p (l.foldl f p) := by
  induction l generalizing p with
  | nil => exact .refl p
  | cons a l ih =>
    exact (hf p a List.mem_cons_self).trans (ih _ fun q x hx => hf q x (List.mem_cons_of_mem a hx))

theorem within_wr (p : Polder) {o : Nat} (w : Word) (h : S o) : Within S p (wr p o w) := fun _ ho => rd_wr_ne p w fun e => ho (e ▸ h)

theorem within_fput (p : Polder) {f : Fld} (v : Nat) (h : S f.off) : Within S p (fput p f v) := within_wr p _ h

theorem within_putBit (p : Polder) {f : Fld} (k : Nat) (b : Bool) (h : S f.off) : Within S p (putBit p f k b) := within_wr p _ h

theorem within_addSat (p : Polder) {o : Nat} (k : Nat) (h : S o) : Within S p (addSat p o k) := within_wr p _ h

theorem within_evt (p : Polder) {f : Fld} (h : S f.off) : Within S p (evt f p) := within_fput p 1 h

theorem within_evtIf (b : Bool) (p : Polder) {f : Fld} (h : S f.off) : Within S p (evtIf b f p) := within_ite (within_evt p h) (.refl p)

theorem within_wrTime (p : Polder) {a b c : Nat} (x : Int) (ha : S a) (hb : S b) (hc : S c) : Within S p (wrTime p a b c x) :=
  ((within_wr p _ ha).trans (within_wr _ _ hb)).trans (within_wr _ _ hc)

end

/-! ### Operations that several blocks share -/

/-- The registers of the log. -/
def logRegs (off : Nat) : Prop := off = A.PCT_LOGNEXT ∨ off = A.PCT_LOGNVLOST

theorem rd_nvTouch (now sect : Nat) (p : Polder) (r : NvRecord) (off : Nat) : rd (nvTouch now sect p r) off = rd p off := by
  unfold nvTouch
  split <;> rfl

theorem within_logRec (now source code sev : Nat) (data : List Byte) (p : Polder) : Within logRegs p (logRec now source code sev data p) := by
  intro off ho
  simp only [logRegs, not_or] at ho
  unfold logRec
  dsimp only
  split
  · exact rd_wr_ne _ _ ho.1
  · split
    · exact (rd_nvTouch _ _ _ _ _).trans (rd_wr_ne _ _ ho.1)
    · exact (rd_wr_ne _ _ ho.2).trans (rd_wr_ne _ _ ho.1)

theorem within_driveOne (now k : Nat) (p : Polder) : Within (inBlock 14) p (driveOne now k p) := by
  unfold driveOne
  exact within_ite (.refl p) (within_putBit p k _ rfl)

theorem within_drive (now : Nat) (p : Polder) : Within (inBlock 14) p (drive now p) :=
  within_foldl _ _ p fun q k _ => within_driveOne now k q

theorem within_order (now mask val : Nat) (p : Polder) : Within (inBlock 14) p (order now mask val p) := by
  unfold order
  dsimp only
  refine Within.trans ?_ (within_drive now _)
  refine Within.trans ?_ (within_foldl _ _ _ fun q k _ => within_ite (fun _ _ => rfl) (.refl q))
  exact within_fput (f := F.FIO_DOCMD_DO) p _ rfl

/-! ### The gate links -/

theorem within_setLinkState (n st : Nat) (p : Polder) (h : n < 4) : Within (inBlock 13) p (setLinkState n st p) :=
  within_fput p st (by show (0xD0010 + 0x100 * n) / 65536 = 13; omega)

theorem rd_modLink (p : Polder) (n : Nat) (f : Link → Link) (off : Nat) : rd (modLink p n f) off = rd p off := rfl

theorem within_startSearch (now n : Nat) (p : Polder) (h : n < 4) : Within (inBlock 13) p (startSearch now n p) := by
  unfold startSearch
  refine Within.trans (q := modLink p n _) (fun _ _ => rfl) (Within.trans (within_wr _ _ ?_) (within_setLinkState _ _ _ h))
  unfold inBlock A.GLK_ERR
  omega

theorem within_linkKick (now n : Nat) (p : Polder) (h : n < 4) : Within (inBlock 13) p (linkKick now n p) := by
  have hq : Within (inBlock 13) p (if (linkOf p n).failedAt.isSome then modLink p n fun l => { l with failedAt := none } else p) :=
    within_ite (fun _ _ => rfl) (.refl p)
  have hdown := fun st => within_setLinkState n st p h
  unfold linkKick
  exact within_ite (within_ite hq ((hq.trans fun _ _ => rfl).trans (within_setLinkState _ _ _ h)))
    (within_ite (.refl p) (within_ite (within_ite (hdown _) (within_ite (hdown _) (.refl p))) (within_ite (within_startSearch now n p h) (.refl p))))

theorem within_linkKicks (now : Nat) (p : Polder) : Within (inBlock 13) p (linkKicks now p) :=
  within_foldl _ _ p fun q n hn => within_linkKick now n q (by simp at hn; omega)

theorem linkKick_rgm (now n : Nat) (p : Polder) : (linkKick now n p).rgm = p.rgm := by
  unfold linkKick
  dsimp only
  split_ifs <;> rfl

theorem linkKicks_rgm (now : Nat) (p : Polder) : (linkKicks now p).rgm = p.rgm := by
  simp only [linkKicks, List.foldl_cons, List.foldl_nil, linkKick_rgm]

end Sys2Proof.Machine
end

section
/-! SUPPORT. The regime machine: what its transitions write, and the evaluation and timers of O19, O20 and O21. -/
namespace Sys2Proof.Machine
open Sys2Proof

/-! ### Events of a polder that runs -/

theorem does_of_onRunning {k : Instr} {s : State} {t now : Nat} {i : PolderId} {p q : Polder} {f : Nat → Polder → Polder}
    (he : exec k s = onRunning t i s f) (h : Runs s t i now p) (hf : f now p = q) : Does k s t i q := by
  obtain ⟨hr, rfl, rfl⟩ := h
  unfold Does
  rw [he, onRunning_eq t i s f hr, hf]

theorem does_of_onIndex {k : Instr} {s : State} {t now j n : Nat} {i : PolderId} {p q : Polder} {f : Nat → Polder → Polder}
    (he : exec k s = onIndex j n t i s f) (hj : j < n) (h : Runs s t i now p) (hf : f now p = q) : Does k s t i q := by
  obtain ⟨hr, rfl, rfl⟩ := h
  unfold Does
  rw [he, onIndex_eq j n t i s f hj hr, hf]

/-! ### Event bits -/

theorem fget_evt_ne (p : Polder) {f g : Fld} (h : f.hi < g.lo ∨ g.hi < f.lo) : fget (evt g p) f = fget p f := fget_fput_bits p 1 h

theorem fget_evt_off (p : Polder) {f g : Fld} (h : f.off ≠ g.off) : fget (evt g p) f = fget p f := fget_fput_off p 1 h

theorem fget_evt_self (p : Polder) {f : Fld} (h : f.hi < 32) (hw : f.hi = f.lo) : fget (evt f p) f = 1 := by
  refine (fget_fput_self p f 1 h).trans ?_
  rw [hw, show f.lo + 1 - f.lo = 1 by omega]
  rfl

theorem fget_evtIf_ne (b : Bool) (p : Polder) {f g : Fld} (h : f.hi < g.lo ∨ g.hi < f.lo) : fget (evtIf b g p) f = fget p f := by
  unfold evtIf
  split
  · exact fget_evt_ne p h
  · rfl

@[simp] theorem evt_rgm (f : Fld) (p : Polder) : (evt f p).rgm = p.rgm := rfl

@[simp] theorem evtIf_rgm (b : Bool) (f : Fld) (p : Polder) : (evtIf b f p).rgm = p.rgm := by
  unfold evtIf
  split <;> rfl

/-! ### Breaker and pre-charge outputs -/

theorem fget_driveBrk (now : Nat) (b : Bool) (p : Polder) {f : Fld} (h : ¬inBlock 14 f.off) : fget (driveBrk now b p) f = fget p f :=
  Within.fget (S := inBlock 14) (within_ite (within_order _ _ _ p) (.refl p)) h

theorem fget_drivePre (now : Nat) (b : Bool) (p : Polder) {f : Fld} (h : ¬inBlock 14 f.off) : fget (drivePre now b p) f = fget p f :=
  Within.fget (S := inBlock 14) (within_ite (within_order _ _ _ p) (.refl p)) h

theorem regs_brkReply (o : BrkOrder) (st : Nat) (p : Polder) : (brkReply o st p).regs = p.regs := by
  unfold brkReply
  split <;> rfl

theorem regs_brkConfirm (p : Polder) : (brkConfirm p).regs = p.regs := by
  unfold brkConfirm
  split
  · split
    · exact regs_brkReply _ _ _
    · rfl
  · rfl

theorem fget_of_regs {p q : Polder} (h : q.regs = p.regs) (f : Fld) : fget q f = fget p f := by
  unfold fget rd
  rw [h]

theorem brkConfirm_of_no_order {p : Polder} (h : p.rgm.order = none) : brkConfirm p = p := by
  unfold brkConfirm
  rw [h]

/-- An order for the breaker changes `BRK` and the field outputs only. -/
theorem fget_brkDo (now : Nat) (close : Bool) (cmd : Option CmdRef) (p : Polder) {f : Fld} (h : ¬inBlock 14 f.off) (hb : f.hi < 17 ∨ 17 < f.lo) :
    fget (brkDo now close cmd p) f = fget p f := by
  unfold brkDo
  dsimp only
  rw [fget_of_regs (regs_brkConfirm _)]
  have hreply : ∀ x : Option BrkOrder, fget (match x with
    | some o => brkReply o Status.state p
    | none => p) f = fget p f := fun x => by
    cases x with
    | none => rfl
    | some o => exact fget_of_regs (regs_brkReply _ _ _) f
  split
  · exact (fget_driveBrk _ _ _ h).trans (hreply _)
  · exact (fget_fput_bits _ 0 hb).trans ((fget_driveBrk _ _ _ h).trans (hreply _))

theorem fget_brkRelease (now : Nat) (p : Polder) {f : Fld} (h : ¬inBlock 14 f.off) (hb : f.hi < 17 ∨ 17 < f.lo) :
    fget (brkRelease now p) f = fget p f := by
  unfold brkRelease
  split
  · exact fget_brkDo _ _ _ _ h hb
  · exact fget_driveBrk _ _ _ h

/-! ### Requests that are discarded -/

theorem endReq_rgm (q : RegReq) (ok : Bool) (p : Polder) : (endReq q ok p).rgm = p.rgm := by
  unfold endReq
  dsimp only
  split
  · split
    · exact evtIf_rgm _ _ _
    · exact evtIf_rgm _ _ _
  · exact evtIf_rgm _ _ _

theorem regs_endReq (q : RegReq) (ok : Bool) (p : Polder) : (endReq q ok p).regs = (evtIf (!ok) F.PCT_REGEVT_REQ_REFUSED p).regs := by
  unfold endReq
  dsimp only
  split
  · split <;> rfl
  · rfl

theorem foldl_endReq_rgm (l : List RegReq) (p : Polder) : (l.foldl (fun q r => endReq r false q) p).rgm = p.rgm := by
  induction l generalizing p with
  | nil => rfl
  | cons r l ih => exact (ih _).trans (endReq_rgm _ _ _)

theorem refuseAll_reqs (p : Polder) : (refuseAll p).rgm.reqs = [] := by
  unfold refuseAll
  rw [foldl_endReq_rgm]
  rfl

theorem fget_refuseAll (p : Polder) {f : Fld} (h : 0 < f.lo) : fget (refuseAll p) f = fget p f := by
  have hf : ∀ (l : List RegReq) (q : Polder), fget (l.foldl (fun q r => endReq r false q) q) f = fget q f := fun l => by
    induction l with
    | nil => exact fun _ => rfl
    | cons r l ih =>
      intro q
      exact (ih _).trans ((fget_of_regs (regs_endReq _ _ _) f).trans (fget_evtIf_ne _ _ (.inr h)))
  exact hf _ _

/-! ### Transitions -/

theorem fget_logRec (now a b c : Nat) (d : List Byte) (p : Polder) {f : Fld} (h : ¬logRegs f.off) : fget (logRec now a b c d p) f = fget p f :=
  (within_logRec now a b c d p).fget h

/-- What a transition leaves in a field of the block: the logs' registers, the breaker's outputs and the registers of the transition apart, as its fields
were written. -/
theorem fget_setRegimeFrom (now old new phase : Nat) (p : Polder) {f : Fld} (hl : ¬logRegs f.off)
    (ht : f.off ≠ A.PCT_REGT_NS ∧ f.off ≠ A.PCT_REGT_SL ∧ f.off ≠ A.PCT_REGT_SH) :
    fget (setRegimeFrom now old new phase p) f =
      fget (fput (fput (fput (fput (evtIf (fbit (if old = Rg.precharge then drivePre now false p else p) F.PCT_REGIME_RIDE) F.PCT_REGEVT_RIDE_OUT
        (if old = Rg.precharge then drivePre now false p else p)) F.PCT_REGIME_CUR new) F.PCT_REGIME_PREV old) F.PCT_REGIME_PHASE phase)
        F.PCT_REGIME_RIDE 0) f := by
  unfold setRegimeFrom
  refine (fget_logRec _ _ _ _ _ _ hl).trans ?_
  exact Within.fget (S := fun o => o = A.PCT_REGT_NS ∨ o = A.PCT_REGT_SL ∨ o = A.PCT_REGT_SH)
    (within_wrTime _ _ (.inl rfl) (.inr (.inl rfl)) (.inr (.inr rfl))) (by simpa only [not_or] using ht)

theorem regime_setRegimeFrom (now old new phase : Nat) (p : Polder) (h : new < 16) : regime (setRegimeFrom now old new phase p) = new := by
  refine (fget_setRegimeFrom now old new phase p (by unfold logRegs; decide) (by decide)).trans ?_
  rw [fget_fput_bits _ _ (by decide), fget_fput_bits _ _ (by decide), fget_fput_bits _ _ (by decide), fget_fput_self _ _ _ (by decide)]
  exact Nat.mod_eq_of_lt h

/-- A transition leaves the other events of the regime machine alone. -/
theorem fget_regevt_setRegimeFrom (now old new phase : Nat) (p : Polder) {f : Fld} (h : f.off = A.PCT_REGEVT) (hb : f.hi < 8 ∨ 8 < f.lo) :
    fget (setRegimeFrom now old new phase p) f = fget p f := by
  have hne : f.off ≠ A.PCT_REGIME := by rw [h]; decide
  refine (fget_setRegimeFrom now old new phase p (by rw [h]; unfold logRegs; decide) (by rw [h]; decide)).trans ?_
  rw [fget_fput_off _ _ hne, fget_fput_off _ _ hne, fget_fput_off _ _ hne, fget_fput_off _ _ hne, fget_evtIf_ne _ _ hb]
  split
  · exact fget_drivePre _ _ _ (by rw [h]; unfold inBlock; decide)
  · rfl

theorem regime_toStandby (now : Nat) (p : Polder) : regime (toStandby now p) = Rg.standby :=
  (fget_brkRelease _ _ (by unfold inBlock; decide) (by decide)).trans (regime_setRegimeFrom now _ _ 0 p (by decide))

theorem regime_refuseAll (p : Polder) : regime (refuseAll p) = regime p := fget_refuseAll p (by decide)

theorem regime_linkKicks (now : Nat) (p : Polder) : regime (linkKicks now p) = regime p :=
  (within_linkKicks now p).fget (by unfold inBlock; decide)

/-! ### The evaluation (R86, R87) -/

theorem ownFree_of {p : Polder} (hc : ceRuns p = true) (hs : spbDemands p = false) (hl : latched p = 0) (hd : p.rgm.dkhStop = none) :
    ownFree p = true := by
  unfold ownFree
  simp [hc, hs, hl, hd]

theorem regimeEval_of_cause {now : Nat} {p q : Polder} (hc : ceRuns p = true) (ho : p.rgm.order = none) (h : causeStep now p = (true, q)) :
    regimeEval now p = linkKicks now (refuseAll q) := by
  unfold regimeEval
  rw [if_pos hc, brkConfirm_of_no_order ho, h]
  rfl

/-- Without a cause of rank 1 or 2, in a regime that it has not stopped, the machine's own conditions come behind the stop of the Dikehouse. -/
theorem causeStep_of_own {now : Nat} {p : Polder} (hs : spbDemands p = false) (hl : latched p = 0) (hg : regime p ≠ Rg.tripped ∧ regime p ≠ Rg.safe)
    (hd : p.rgm.dkhStop = none) : causeStep now p = ownRank now (modRgm (fun r => { r with dkhStop := none }) p) := by
  unfold causeStep
  simp only [hs, hl, hg, hd, Bool.false_eq_true, ne_eq, not_true_eq_false, if_false, or_self]

theorem modRgm_dkhStop_none {p : Polder} (h : p.rgm.dkhStop = none) : modRgm (fun r => { r with dkhStop := none }) p = p := by
  unfold modRgm
  rw [← h]

/-- One of the conditions that fall due, behind those before it. -/
def dueOne (now : Nat) (x : Bool × Polder) (f : Nat → Polder → Polder) : Bool × Polder :=
  if x.1 then x else (regime (f now x.2) != regime x.2, f now x.2)

theorem dueStep_eq (now : Nat) (p : Polder) :
    dueStep now p = [prechargeTimeout, energiseTimeout, energiseComplete, syncTimeout, brkTimeout, waitOver, collision].foldl (dueOne now) (false, p) := rfl

theorem dueOne_of_same {now : Nat} {p : Polder} {f : Nat → Polder → Polder} (h : f now p = p) : dueOne now (false, p) f = (false, p) := by
  unfold dueOne
  simp only [Bool.false_eq_true, if_false, h, bne_self_eq_false]

theorem dueOne_of_left {now : Nat} {p q : Polder} {f : Nat → Polder → Polder} (h : f now p = q) (hr : regime q ≠ regime p) :
    dueOne now (false, p) f = (true, q) := by
  subst h
  unfold dueOne
  simp only [Bool.false_eq_true, if_false, bne_iff_ne.mpr hr]

theorem foldl_dueOne_same {now : Nat} {p : Polder} (l : List (Nat → Polder → Polder)) (h : ∀ f ∈ l, f now p = p) :
    l.foldl (dueOne now) (false, p) = (false, p) := by
  induction l with
  | nil => rfl
  | cons f l ih =>
    rw [List.foldl_cons, dueOne_of_same (h f List.mem_cons_self)]
    exact ih fun g hg => h g (List.mem_cons_of_mem f hg)

theorem foldl_dueOne_done (now : Nat) (q : Polder) (l : List (Nat → Polder → Polder)) : l.foldl (dueOne now) (true, q) = (true, q) := by
  induction l with
  | nil => rfl
  | cons f l ih => exact ih

/-- PRECHARGE has run out: the first of what falls due decides. -/
theorem dueStep_precharge {now : Nat} {p : Polder} (hf : ownFree p = true) (hg : regime p = Rg.precharge)
    (ht : p.rgm.enteredAt + tookN p A.SWG_PRE_TMO * ms ≤ now) :
    dueStep now p = (true, refuseAll (toStandby now (evt F.PCT_REGEVT_PRE_TMO p))) := by
  have h1 : prechargeTimeout now p = refuseAll (toStandby now (evt F.PCT_REGEVT_PRE_TMO p)) := by
    unfold prechargeTimeout
    rw [hf, hg, decide_eq_true ht]
    rfl
  have h2 : regime (refuseAll (toStandby now (evt F.PCT_REGEVT_PRE_TMO p))) ≠ regime p := by
    rw [regime_refuseAll, regime_toStandby, hg]
    decide
  rw [dueStep_eq, List.foldl_cons, dueOne_of_left h1 h2, foldl_dueOne_done]

/-! What does not fall due in another regime. -/

theorem prechargeTimeout_of_regime {now : Nat} {p : Polder} (h : regime p ≠ Rg.precharge) : prechargeTimeout now p = p := by
  unfold prechargeTimeout
  simp only [beq_eq_false_iff_ne.mpr h, Bool.and_false, Bool.false_and, Bool.false_eq_true, if_false]

theorem energiseTimeout_of_regime {now : Nat} {p : Polder} (h : regime p ≠ Rg.energise) : energiseTimeout now p = p := by
  unfold energiseTimeout
  simp only [beq_eq_false_iff_ne.mpr h, Bool.and_false, Bool.false_and, Bool.false_eq_true, if_false]

theorem energiseComplete_of_regime {now : Nat} {p : Polder} (h : regime p ≠ Rg.energise) : energiseComplete now p = p := by
  unfold energiseComplete
  simp only [beq_eq_false_iff_ne.mpr h, Bool.and_false, Bool.false_and, Bool.false_eq_true, if_false]

theorem syncTimeout_of_regime {now : Nat} {p : Polder} (h : regime p ≠ Rg.sync) : syncTimeout now p = p := by
  unfold syncTimeout
  simp only [beq_eq_false_iff_ne.mpr h, Bool.and_false, Bool.false_and, Bool.false_eq_true, if_false]

theorem brkTimeout_of_no_order {now : Nat} {p : Polder} (h : p.rgm.order = none) : brkTimeout now p = p := by
  unfold brkTimeout
  rw [h]

theorem waitOver_of_regime {now : Nat} {p : Polder} (h : regime p ≠ Rg.ready) : waitOver now p = p := by
  unfold waitOver inWait
  simp only [beq_eq_false_iff_ne.mpr h, Bool.and_false, Bool.false_and, Bool.false_eq_true, if_false]

theorem collision_of_regime {now : Nat} {p : Polder} (h : regime p ≠ Rg.energise) : collision now p = p := by
  unfold collision
  simp only [beq_eq_false_iff_ne.mpr h, Bool.and_false, Bool.false_and, Bool.false_eq_true, if_false]

theorem prechargeTimeout_of_early {now : Nat} {p : Polder} (h : now < p.rgm.enteredAt + tookN p A.SWG_PRE_TMO * ms) : prechargeTimeout now p = p := by
  unfold prechargeTimeout
  rw [decide_eq_false (Nat.not_le.mpr h), Bool.and_false, if_neg Bool.false_ne_true]

/-- In STANDBY and in PRECHARGE, before the time limit of a precharge and with no order for the breaker, nothing falls due. -/
theorem dueStep_of_nothing {now : Nat} {p : Polder} (hg : regime p = Rg.standby ∨ regime p = Rg.precharge) (ho : p.rgm.order = none)
    (h1 : prechargeTimeout now p = p) : dueStep now p = (false, p) := by
  have he : regime p ≠ Rg.energise := by obtain h | h := hg <;> rw [h] <;> decide
  have hs : regime p ≠ Rg.sync := by obtain h | h := hg <;> rw [h] <;> decide
  have hr : regime p ≠ Rg.ready := by obtain h | h := hg <;> rw [h] <;> decide
  rw [dueStep_eq]
  refine foldl_dueOne_same _ ?_
  simp only [List.forall_mem_cons]
  exact ⟨h1, energiseTimeout_of_regime he, energiseComplete_of_regime he, syncTimeout_of_regime hs, brkTimeout_of_no_order ho,
    waitOver_of_regime hr, collision_of_regime he, by simp⟩

/-- In STANDBY no condition of the machine itself falls due or is found. -/
theorem ownRank_standby {now : Nat} {p : Polder} (hg : regime p = Rg.standby) (ho : p.rgm.order = none) : ownRank now p = (false, p) := by
  unfold ownRank
  rw [dueStep_of_nothing (.inl hg) ho (prechargeTimeout_of_regime (by rw [hg]; decide))]
  unfold ownStep
  simp [hg]

theorem ownRank_of_ready {now : Nat} {p : Polder} (hg : regime p = Rg.precharge) (ho : p.rgm.order = none)
    (ht : now < p.rgm.enteredAt + tookN p A.SWG_PRE_TMO * ms) (hd : fbit p F.PCT_REGIME_DCOK = true) (hr : ready p = true) :
    ownRank now p = (true, setRegime now Rg.ready 0 p) := by
  unfold ownRank
  rw [dueStep_of_nothing (.inr hg) ho (prechargeTimeout_of_early ht)]
  unfold ownStep
  simp [hg, hd, hr]

theorem regevt_setRegime_fbit (now new phase : Nat) (p : Polder) {f : Fld} (h : f.off = A.PCT_REGEVT) (hb : f.hi < 8 ∨ 8 < f.lo) :
    fbit (setRegime now new phase p) f = fbit p f := by
  unfold fbit
  rw [show fget (setRegime now new phase p) f = fget p f from fget_regevt_setRegimeFrom _ _ _ _ _ h hb]

theorem fbit_evt_self' (p : Polder) {f : Fld} (h : f.hi < 32) (hw : f.hi = f.lo) : fbit (evt f p) f = true := by
  unfold fbit
  rw [fget_evt_self p h hw]
  rfl

/-- The end of a precharge that has run out. -/
theorem prechargeOver_fields (now : Nat) (p : Polder) :
    regime (linkKicks now (refuseAll (refuseAll (toStandby now (evt F.PCT_REGEVT_PRE_TMO p))))) = Rg.standby ∧
      (linkKicks now (refuseAll (refuseAll (toStandby now (evt F.PCT_REGEVT_PRE_TMO p))))).rgm.reqs = [] ∧
      fbit (linkKicks now (refuseAll (refuseAll (toStandby now (evt F.PCT_REGEVT_PRE_TMO p))))) F.PCT_REGEVT_PRE_TMO = true := by
  refine ⟨?_, ?_, ?_⟩
  · rw [regime_linkKicks, regime_refuseAll, regime_refuseAll, regime_toStandby]
  · rw [linkKicks_rgm, refuseAll_reqs]
  · unfold fbit
    rw [(within_linkKicks now _).fget (by unfold inBlock; decide), fget_refuseAll _ (by decide), fget_refuseAll _ (by decide)]
    unfold toStandby
    rw [fget_brkRelease _ _ (by unfold inBlock; decide) (by decide)]
    exact regevt_setRegime_fbit now _ 0 _ rfl (by decide) |>.trans (fbit_evt_self' p (by decide) rfl)

/-- Settles O19: the evaluation asks for the causes in the order of R87, and takes the oldest request behind them. -/
theorem regimeEvaluationOrder : Obligations.RegimeEvaluationOrder := by
  unfold Obligations.RegimeEvaluationOrder
  intro s t i now p h hc ho
  have hdoes := fun {q} (hq : causeStep now p = (true, q)) =>
    does_of_onRunning (k := .regimeEvaluation t i) (f := regimeEval) rfl h (regimeEval_of_cause hc ho hq)
  refine ⟨fun hs hg => hdoes ?_, fun hs hl hg => hdoes ?_, fun hs hl hg => hdoes ?_, fun m hs hl hg hd => hdoes ?_, fun hs hl hd hg ht => ?_,
    fun hs hl hd hg ht hk hr => ?_, fun hs hl hd hg r l hq hrt hrm => ?_⟩
  · unfold causeStep
    simp only [hs, hg, if_true, if_false]
  · unfold causeStep
    simp [hs, hl, hg]
  · unfold causeStep
    simp [hs, hl, hg]
  · have hm : [Rg.energise, Rg.sync, Rg.forming].contains (regime (modRgm (fun r => { r with dkhStop := none }) p)) = true := by
      show [Rg.energise, Rg.sync, Rg.forming].contains (regime p) = true
      obtain hg | hg | hg := hg <;> rw [hg] <;> rfl
    have hn : ¬(regime p = Rg.tripped ∨ regime p = Rg.safe) := by
      obtain hg | hg | hg := hg <;> rw [hg] <;> decide
    unfold causeStep stopRequest
    simp only [hs, hl, hn, hd, hm, Bool.false_eq_true, ne_eq, not_true_eq_false, if_false, if_true]
    rfl
  · have hx := causeStep_of_own (now := now) hs hl (by rw [hg]; decide) hd
    rw [modRgm_dkhStop_none hd] at hx
    unfold ownRank at hx
    rw [dueStep_precharge (ownFree_of hc hs hl hd) hg ht] at hx
    exact ⟨_, hdoes hx, prechargeOver_fields now p⟩
  · have hx := causeStep_of_own (now := now) hs hl (by rw [hg]; decide) hd
    rw [modRgm_dkhStop_none hd, ownRank_of_ready hg ho ht hk hr] at hx
    refine ⟨_, hdoes hx, ?_, ?_⟩
    · rw [regime_linkKicks, regime_refuseAll]
      exact regime_setRegimeFrom now _ _ 0 p (by decide)
    · rw [linkKicks_rgm, refuseAll_reqs]
  · have hx := causeStep_of_own (now := now) hs hl (by rw [hg]; decide) hd
    rw [modRgm_dkhStop_none hd, ownRank_standby hg ho] at hx
    refine does_of_onRunning (f := regimeEval) rfl h ?_
    unfold regimeEval
    rw [if_pos hc, brkConfirm_of_no_order ho, hx]
    have hq' : request now r.target r.mode (modRgm (fun g => { g with reqs := l }) p) =
        some (toPrecharge now (modRgm (fun g => { g with reqs := l }) p)) := by
      rw [hrt, hrm]
      exact if_pos hg
    unfold requestStep
    simp only [hq, hq', Bool.false_eq_true, if_false]
    unfold modRgm
    rw [← hd]

end Sys2Proof.Machine
end

section
/-! SUPPORT. Timers of the regime machine, riding through, the breaker, black start and the dead bus (O20, O21). -/
namespace Sys2Proof.Machine
open Sys2Proof

/-! ### What holds back a condition of the machine -/

theorem ownFree_eq_false {p : Polder} (h : spbDemands p = true ∨ latched p ≠ 0 ∨ p.rgm.dkhStop.isSome = true) : ownFree p = false := by
  unfold ownFree
  obtain h | h | h := h
  · simp [h]
  · simp [h]
  · have hd : p.rgm.dkhStop.isNone = false := by simpa using h
    simp [hd]

theorem heldFor_some {now d a : Nat} (h : a + d ≤ now) : heldFor now d (some a) = true := decide_eq_true h

theorem heldFor_none (now d : Nat) : heldFor now d none = false := rfl

/-! ### Recorders: what an event that they can select changes -/

/-- The registers of the gallery and of the capture engine. -/
def recorderRegs (off : Nat) : Prop := off / 65536 = 5 ∨ off / 65536 = 10

theorem within_galTrigger (p : Polder) : Within recorderRegs p (galTrigger p) :=
  within_ite (within_fput (f := F.GAL_STAT_STATE) p _ (.inr rfl)) (.refl p)

theorem within_galSource (src : Nat) (p : Polder) : Within recorderRegs p (galSource src p) := within_ite (within_galTrigger p) (.refl p)

theorem within_capHold (p : Polder) : Within recorderRegs p (capHold p) := by
  have h1 : Within recorderRegs p (fputB { p with cap := { p.cap with driving := (capRole p == 1 && capState p != Rec.armed) || p.cap.pulseEnd.isSome } }
      F.CAP_STAT_FIREHOLD ((capRole p == 1 && capState p != Rec.armed) || p.cap.pulseEnd.isSome)) :=
    (show Within recorderRegs p { p with cap := _ } from fun _ _ => rfl).trans (within_fput _ _ (.inl rfl))
  unfold capHold
  exact within_ite ((h1.trans (within_ite (within_galSource 5 _) (.refl _))).trans (within_fput (f := F.CAP_STAT_FIREPIN) _ _ (.inl rfl))) h1

theorem within_modCap {S : Nat → Prop} (p : Polder) (c : CapState) : Within S p { p with cap := c } := fun _ _ => rfl

theorem within_capTrigger (now cause : Nat) (at' : Int) (p : Polder) : Within recorderRegs p (capTrigger now cause at' p) := by
  unfold capTrigger
  extract_lets r p1 p2 pulse
  have h1 : Within recorderRegs p p1 :=
    ((show Within recorderRegs p (setRec p _) from fun _ _ => rfl).trans (within_fput (f := F.CAP_STAT_STATE) _ _ (.inl rfl))).trans
      (within_fput (f := F.CAP_STAT_TCAUSE) _ _ (.inl rfl))
  have h2 : Within recorderRegs p p2 := (h1.trans (within_wrTime p1 _ (.inl rfl) (.inl rfl) (.inl rfl))).trans (within_wr _ _ (.inl rfl))
  clear_value p2
  have h3 : Within recorderRegs p (if pulse then { p2 with cap := { p2.cap with pulseEnd := some (now + us) } } else p2) :=
    within_ite (h2.trans (within_modCap p2 _)) h2
  exact within_ite (h3.trans (within_capHold _)) (.refl p)

theorem within_recEvent (now ev : Nat) (p : Polder) : Within recorderRegs p (recEvent now ev p) := by
  have h1 : ∀ b : Prop, [Decidable b] → Within recorderRegs p (if b then galTrigger p else p) := fun b _ => within_ite (within_galTrigger p) (.refl p)
  unfold recEvent
  exact within_ite ((h1 _).trans (within_capTrigger _ _ _ _)) (h1 _)

theorem fget_evtSel (now ev : Nat) (p : Polder) {f g : Fld} (h : ¬recorderRegs g.off) : fget (evtSel now ev f p) g = fget (evt f p) g :=
  (within_recEvent now ev _).fget h

/-! ### The timers (R90, R97, R111) -/

section
variable {now : Nat} {p : Polder}

theorem prechargeTimeout_due (ho : ownFree p = true) (hg : regime p = Rg.precharge) (ht : p.rgm.enteredAt + tookN p A.SWG_PRE_TMO * ms ≤ now) :
    prechargeTimeout now p = refuseAll (toStandby now (evt F.PCT_REGEVT_PRE_TMO p)) := by
  unfold prechargeTimeout
  rw [ho, hg, decide_eq_true ht]
  rfl

theorem energiseTimeout_due (ho : ownFree p = true) (hg : regime p = Rg.energise) (ht : p.rgm.enteredAt + tookN p A.SWG_EN_TMO * ms ≤ now) :
    energiseTimeout now p = refuseAll (toStopping now 1 (evt F.PCT_REGEVT_EN_FAIL p)) := by
  unfold energiseTimeout
  rw [ho, hg, decide_eq_true ht]
  rfl

theorem energiseComplete_due {a : Nat} (ho : ownFree p = true) (hg : regime p = Rg.energise) (ha : p.rgm.settleSince = some a)
    (ht : a + 20 * ms ≤ now) : energiseComplete now p = refuseAll (setRegime now Rg.forming 0 p) := by
  unfold energiseComplete
  rw [ho, hg, ha, heldFor_some ht]
  rfl

theorem syncTimeout_due (ho : ownFree p = true) (hg : regime p = Rg.sync) (hp : rgPhase p = 0)
    (ht : p.rgm.enteredAt + tookN p A.SWG_SYNC_TMO * ms ≤ now) :
    syncTimeout now p = refuseAll (stopSwitching now (setRegime now Rg.ready 0 (evt F.PCT_REGEVT_SYNC_TMO p))) := by
  unfold syncTimeout
  rw [ho, hg, hp, decide_eq_true ht]
  rfl

theorem closeCommand_due {a : Nat} (ho : ownFree p = true) (hg : regime p = Rg.sync) (hp : rgPhase p = 0) (ha : p.rgm.syncSince = some a)
    (ht : a + tookN p A.SWG_SYNC_DWELL * ms ≤ now) : closeCommand now p = brkDo now true none (fput p F.PCT_REGIME_PHASE 1) := by
  unfold closeCommand
  rw [ho, hg, hp, ha, heldFor_some ht]
  rfl

theorem stopTimeout_due (ho : ownFree p = true) (hg : regime p = Rg.stopping) (hp : rgPhase p = 0) (hr : p.rgm.rampEnd = none)
    (ht : p.rgm.enteredAt + tookN p A.SWG_STOP_TMO * ms ≤ now) :
    stopTimeout now p = evt F.PCT_REGEVT_STOP_TMO { p with rgm := { p.rgm with rampEnd := some now } } := by
  unfold stopTimeout
  rw [ho, hg, hp, hr, decide_eq_true ht]
  rfl

/-- R87: none of the machine's own timers acts while a cause of a higher rank stands. -/
theorem timers_held_back (ho : ownFree p = false) :
    prechargeTimeout now p = p ∧ energiseTimeout now p = p ∧ energiseComplete now p = p ∧ syncTimeout now p = p ∧ closeCommand now p = p ∧
      stopTimeout now p = p ∧ rideIn now p = p ∧ rideOut now p = p := by
  unfold prechargeTimeout energiseTimeout energiseComplete syncTimeout closeCommand stopTimeout rideIn rideOut
  simp only [ho, Bool.false_and, Bool.false_eq_true, if_false, and_self]

theorem fbit_of_fget {q : Polder} {f : Fld} (h : fget q f = 1) : fbit q f = true := by
  unfold fbit
  rw [h]
  rfl

/-- The polder in which a ride has begun. -/
theorem rideIn_due {a : Nat} (ho : ownFree p = true) (hg : regime p = Rg.forming) (hr : fbit p F.PCT_REGIME_RIDE = false)
    (ha : p.rgm.rideOutSince = some a) (ht : a + tookN p A.SWG_RIDE_TDET * us ≤ now) :
    rideIn now p = evtSel now Ev.rideIn F.PCT_REGEVT_RIDE_IN
      (wr (modRgm (fun g => { g with rideFrom := a }) (fput p F.PCT_REGIME_RIDE 1)) A.SWG_RIDE_T (wordN ((now - a) / ms))) := by
  unfold rideIn
  rw [ho, hg, hr, ha, heldFor_some ht]
  rfl

theorem rideIn_fields (a : Nat) (hg : regime p = Rg.forming) : ∀ q, q = evtSel now Ev.rideIn F.PCT_REGEVT_RIDE_IN
      (wr (modRgm (fun g => { g with rideFrom := a }) (fput p F.PCT_REGIME_RIDE 1)) A.SWG_RIDE_T (wordN ((now - a) / ms))) →
    fbit q F.PCT_REGIME_RIDE = true ∧ fbit q F.PCT_REGEVT_RIDE_IN = true ∧ rd q A.SWG_RIDE_T = wordN ((now - a) / ms) ∧ regime q = Rg.forming := by
  intro q hq
  subst hq
  have hw : ∀ {f : Fld} (x : Polder), f.off ≠ A.SWG_RIDE_T → fget (wr x A.SWG_RIDE_T (wordN ((now - a) / ms))) f = fget x f := fun x h =>
    fget_wr_ne x _ _ h
  refine ⟨fbit_of_fget ?_, fbit_of_fget ?_, ?_, ?_⟩
  · rw [fget_evtSel _ _ _ (by unfold recorderRegs; decide), fget_evt_off _ (by decide), hw _ (by decide)]
    exact fget_fput_self p F.PCT_REGIME_RIDE 1 (by decide)
  · rw [fget_evtSel _ _ _ (by unfold recorderRegs; decide), fget_evt_self _ (by decide) rfl]
  · refine ((within_recEvent now _ _) _ (by unfold recorderRegs; decide)).trans ?_
    exact (rd_evt_ne _ _ (by decide)).trans (rd_wr_self _ _ _)
  · unfold regime at *
    rw [fget_evtSel _ _ _ (by unfold recorderRegs; decide), fget_evt_off _ (by decide), hw _ (by decide)]
    exact (fget_fput_bits p 1 (by decide)).trans hg

theorem rideOut_due {a : Nat} (ho : ownFree p = true) (hr : fbit p F.PCT_REGIME_RIDE = true) (ha : p.rgm.rideInSince = some a)
    (ht : a + tookN p A.SWG_RIDE_TREC * ms ≤ now) : rideOut now p = evt F.PCT_REGEVT_RIDE_OUT (fput p F.PCT_REGIME_RIDE 0) := by
  unfold rideOut
  rw [ho, hr, ha, heldFor_some ht]
  rfl

theorem rideOut_fields (hg : regime p = Rg.forming) : fbit (evt F.PCT_REGEVT_RIDE_OUT (fput p F.PCT_REGIME_RIDE 0)) F.PCT_REGIME_RIDE = false ∧
    fbit (evt F.PCT_REGEVT_RIDE_OUT (fput p F.PCT_REGIME_RIDE 0)) F.PCT_REGEVT_RIDE_OUT = true ∧
      regime (evt F.PCT_REGEVT_RIDE_OUT (fput p F.PCT_REGIME_RIDE 0)) = Rg.forming := by
  refine ⟨?_, fbit_evt_self' _ (by decide) rfl, ?_⟩
  · unfold fbit
    rw [fget_evt_off _ (by decide), fget_fput_self _ _ _ (by decide)]
    rfl
  · unfold regime at *
    rw [fget_evt_off _ (by decide), fget_fput_bits _ _ (by decide), hg]

end

/-- Settles O20: each timer acts when its condition has held long enough, and is held back by a cause of a higher rank. -/
theorem regimeTimersAndRide : Obligations.RegimeTimersAndRide := by
  unfold Obligations.RegimeTimersAndRide
  refine ⟨fun s t i now p h hc hs hl hd => ?_, fun s t i now p h hb => ?_, fun s t i now p h hc hs hl hd => ?_⟩
  · have ho := ownFree_of hc hs hl hd
    exact ⟨fun hg ht => does_of_onRunning (f := prechargeTimeout) rfl h (prechargeTimeout_due ho hg ht),
      fun hg ht => does_of_onRunning (f := energiseTimeout) rfl h (energiseTimeout_due ho hg ht),
      fun a hg ha ht => does_of_onRunning (f := energiseComplete) rfl h (energiseComplete_due ho hg ha ht),
      fun hg hp ht => does_of_onRunning (f := syncTimeout) rfl h (syncTimeout_due ho hg hp ht),
      fun a hg hp ha ht => does_of_onRunning (f := closeCommand) rfl h (closeCommand_due ho hg hp ha ht),
      fun hg hp hr ht => does_of_onRunning (f := stopTimeout) rfl h (stopTimeout_due ho hg hp hr ht)⟩
  · obtain ⟨h1, h2, h3, h4, h5, h6, h7, h8⟩ := timers_held_back (now := now) (ownFree_eq_false hb)
    exact ⟨does_of_onRunning (f := prechargeTimeout) rfl h h1, does_of_onRunning (f := energiseTimeout) rfl h h2,
      does_of_onRunning (f := energiseComplete) rfl h h3, does_of_onRunning (f := syncTimeout) rfl h h4,
      does_of_onRunning (f := closeCommand) rfl h h5, does_of_onRunning (f := stopTimeout) rfl h h6,
      does_of_onRunning (f := rideIn) rfl h h7, does_of_onRunning (f := rideOut) rfl h h8⟩
  · have ho := ownFree_of hc hs hl hd
    exact ⟨fun a hg hr ha ht => ⟨_, does_of_onRunning (f := rideIn) rfl h (rideIn_due ho hg hr ha ht), rideIn_fields a hg _ rfl⟩,
      fun a hg hr ha ht => ⟨_, does_of_onRunning (f := rideOut) rfl h (rideOut_due ho hr ha ht), rideOut_fields hg⟩⟩

/-! ### The breaker (R93), black start (R98, R99), the dead bus (R89) -/

section
variable {now : Nat} {p : Polder}

theorem brkFollow_due {a : Nat} (ha : p.rgm.closeAt = some a) (ht : a ≤ now) (ho : p.rgm.order = none) :
    brkFollow now p = fput { p with rgm := { p.rgm with closeAt := none } } F.PCT_REGIME_BRK 1 := by
  unfold brkFollow
  rw [ha]
  dsimp only
  rw [if_pos ht]
  exact brkConfirm_of_no_order ho

/-- A failed open leaves the sequence running; the command that waits for it, if any, ends with TIMEOUT. -/
theorem brkTimeout_open {a : Nat} {x : Option CmdRef} (hc : ceRuns p = true) (ho : p.rgm.order = some ⟨false, a, x⟩)
    (ht : a + fget p F.PCT_REGCFG_BRK_TMO * ms ≤ now) :
    brkTimeout now p = match x with
      | some c => replyTo (evt F.PCT_REGEVT_BRK_FAIL { p with rgm := { p.rgm with order := none } }) c (bare Status.timeout)
      | none => evt F.PCT_REGEVT_BRK_FAIL { p with rgm := { p.rgm with order := none } } := by
  unfold brkTimeout
  split
  next o hx =>
    cases ho.symm.trans hx
    rw [hc, decide_eq_true ht]
    simp only [Bool.and_self, Bool.false_eq_true, if_true, if_false]
    cases x <;> rfl
  next hx => cases ho.symm.trans hx

theorem waitOver_due {a : Nat} (ho : ownFree p = true) (hg : regime p = Rg.ready) (hp : rgPhase p = 1) (ha : p.rgm.waitEnd = some a) (ht : a ≤ now) :
    waitOver now p = refuseAll (if fbit p F.PCT_REGIME_DEAD then toEnergise now true p else toSync now p) := by
  unfold waitOver inWait
  rw [ho, hg, hp, ha, heldFor_some (d := 0) ht]
  exact (apply_ite refuseAll _ _ _).symm

theorem collision_due {a : Nat} (ho : ownFree p = true) (hg : regime p = Rg.energise) (ha : p.rgm.collSince = some a) (ht : a + ms ≤ now) {e q : Polder}
    (he : e = evt F.PCT_REGEVT_COLLISION p) (hq : q = setRegime now Rg.ready 0 (brkDo now false none (stopSwitching now
      { e with swg := { e.swg with irefD := 0, irefQ := 0, i2refD := 0, i2refQ := 0 } }))) :
    collision now p = refuseAll (if fget p F.PCT_REGIME_TRY < tookN p A.SWG_BO_TRIES then startWait now (fget p F.PCT_REGIME_TRY + 1) q
      else evt F.PCT_REGEVT_BACKOFF_FAIL q) := by
  subst he hq
  unfold collision
  rw [ho, hg, ha, heldFor_some ht]
  rfl

theorem waitSync_of_regime (h : regime p ≠ Rg.ready) : waitSync now p = (false, p) := by
  unfold waitSync inWait
  simp only [beq_eq_false_iff_ne.mpr h, Bool.false_and, Bool.false_eq_true, if_false]

/-- Outside READY the dead bus changes `DEAD` and nothing else. -/
theorem deadChange_eq (hc : ceRuns p = true) (hg : regime p ≠ Rg.ready) :
    deadChange now p = if heldFor now (2 * ms) p.rgm.belowSince then fput p F.PCT_REGIME_DEAD 1
      else if heldFor now (2 * ms) p.rgm.aboveSince then fput p F.PCT_REGIME_DEAD 0 else p := by
  have hr : ∀ v, regime (fput p F.PCT_REGIME_DEAD v) ≠ Rg.ready := fun v => by
    unfold regime at *
    rwa [fget_fput_bits _ _ (by decide)]
  unfold deadChange
  rw [if_pos hc]
  split_ifs <;> dsimp only <;> simp only [waitSync_of_regime (hr _), waitSync_of_regime hg, Bool.false_eq_true, if_false, ite_self]

end

/-- Settles O21: each event of the breaker, of the back-off and of the bus at its instant. -/
theorem breakerAndBlackStart : Obligations.BreakerAndBlackStart := by
  unfold Obligations.BreakerAndBlackStart
  refine ⟨fun s t i now p h => ⟨fun a ha ht ho => ?_, fun a hc ho ht => ?_, fun a c hc ho ht => ?_⟩, fun s t i now p h hc hs hl hd =>
    ⟨fun a hg hp ha ht => ?_, fun a hg ha ht e q he hq => ?_, fun a hg ha ht => ?_, fun a hg hb ha ht => ?_⟩⟩
  · exact does_of_onRunning (f := brkFollow) rfl h (brkFollow_due ha ht ho)
  · exact does_of_onRunning (f := brkTimeout) rfl h (brkTimeout_open hc ho ht)
  · exact does_of_onRunning (f := brkTimeout) rfl h (brkTimeout_open hc ho ht)
  · exact does_of_onRunning (f := waitOver) rfl h (waitOver_due (ownFree_of hc hs hl hd) hg hp ha ht)
  · exact does_of_onRunning (f := collision) rfl h (collision_due (ownFree_of hc hs hl hd) hg ha ht he hq)
  · refine does_of_onRunning (f := deadChange) rfl h ((deadChange_eq hc hg).trans ?_)
    rw [ha, heldFor_some ht, if_pos rfl]
  · refine does_of_onRunning (f := deadChange) rfl h ((deadChange_eq hc hg).trans ?_)
    rw [hb, ha, heldFor_none, heldFor_some ht, if_neg Bool.false_ne_true, if_pos rfl]

end Sys2Proof.Machine
end

section
/-! SUPPORT. Setting commands of acquisition, filters, capture and stairs, and of the protection units (O28, O37). -/
namespace Sys2Proof.Machine
open Sys2Proof

/-! ### Comparators and stairs -/

section
variable {now : Nat} {c : Cmd} {p : Polder}

/-- The comparators of fixed inputs keep theirs. -/
theorem cSetComparator_fixed {k : Nat} (hk : byteAt c.payload 0 = k) (h5 : k < 5) (h1 : byteAt c.payload 3 ≤ 5) (h2 : u16At c.payload 8 ≤ 5000)
    (h3 : byteAt c.payload 10 ≤ 15) :
    cSetComparator now c p = setCmd now Op.setComparator c true
      [partI (F.AFE_CMP_THR_HI k) (thrCode (fget p (F.AFE_CMP_CFG_SRC k)) (i16At c.payload 4)),
        partI (F.AFE_CMP_THR_LO k) (thrCode (fget p (F.AFE_CMP_CFG_SRC k)) (i16At c.payload 6)), part (F.AFE_CMP_CFG_EN k) (byteAt c.payload 1 % 2),
        part (F.AFE_CMP_CFG_BREF k) (byteAt c.payload 3), part (F.AFE_CMP_CFG_FILT k) (byteAt c.payload 10),
        part (F.AFE_CMP_CFG_BLANK k) (u16At c.payload 8)] p := by
  subst hk
  have hk5 : ¬byteAt c.payload 0 = 5 := by omega
  unfold cSetComparator
  simp only [if_neg hk5]
  rw [within_of_forall (by simp; omega)]
  rfl

/-- The sixth comparator takes its input from the command. -/
theorem cSetComparator_free (hk : byteAt c.payload 0 = 5) (h0 : byteAt c.payload 2 ≤ 14) (h1 : byteAt c.payload 3 ≤ 5)
    (h2 : u16At c.payload 8 ≤ 5000) (h3 : byteAt c.payload 10 ≤ 15) :
    cSetComparator now c p = setCmd now Op.setComparator c true
      [partI (F.AFE_CMP_THR_HI 5) (thrCode (byteAt c.payload 2) (i16At c.payload 4)),
        partI (F.AFE_CMP_THR_LO 5) (thrCode (byteAt c.payload 2) (i16At c.payload 6)), part (F.AFE_CMP_CFG_EN 5) (byteAt c.payload 1 % 2),
        part (F.AFE_CMP_CFG_SRC 5) (byteAt c.payload 2), part (F.AFE_CMP_CFG_BREF 5) (byteAt c.payload 3),
        part (F.AFE_CMP_CFG_FILT 5) (byteAt c.payload 10), part (F.AFE_CMP_CFG_BLANK 5) (u16At c.payload 8)] p := by
  unfold cSetComparator
  simp only [hk, if_true]
  rw [within_of_forall (by simp; omega)]
  rfl

/-- The fields of a stair but its landing. -/
def stairItems (k : Nat) (b : List Byte) : List Item :=
  [part (F.STS_SCFG_LAND_EN k) (byteAt b 1 % 2), part (F.STS_SCFG_LAND_DIR k) (byteAt b 1 / 2 % 4), part (F.STS_SCFG_DWELL k) (u16At b 2),
    whole (A.STS_RUP k) (q28of (u32At b 4) 1000000), whole (A.STS_RDN k) (q28of (u32At b 8) 1000000)]

/-- The landing of a stair in the unit of its quantity. -/
def landItem (p : Polder) (k : Nat) (b : List Byte) : Item := match k with
  | 0 => wholeI (A.STS_LAND k) (roundDiv (i32At b 12 * 268435456) (sBase p))
  | 1 => wholeI (A.STS_LAND k) (roundDiv (i32At b 12 * 268435456) (sBase p))
  | 2 => whole (A.STS_LAND k) (vLine (vBase p) (u32At b 12))
  | _ => whole (A.STS_LAND k) (q28of (u32At b 12) (fNom p * 1000))

theorem cSetStair_eq {k : Nat} (hk : byteAt c.payload 0 = k) (h3 : k ≤ 3) (hd : u16At c.payload 2 ≤ 60000)
    (hu : 100 ≤ u32At c.payload 4 ∧ u32At c.payload 4 ≤ 7900000) (hn : 100 ≤ u32At c.payload 8 ∧ u32At c.payload 8 ≤ 7900000) :
    cSetStair now c p = setCmd now Op.setStair c true (stairItems k c.payload ++ [landItem p k c.payload]) p := by
  unfold cSetStair
  simp only [hk]
  rw [within_of_forall (by simp; omega)]
  unfold stairItems landItem
  match k, h3 with
  | 0, _ | 1, _ | 2, _ | 3, _ => rfl

end

theorem timed_fields_in_range {c : Cmd} (h0 : 1 ≤ byteAt c.payload 0 ∧ byteAt c.payload 0 ≤ 16) (h1 : u32At c.payload 58 ≤ 999999999)
    (ht : timeOk c (u48At c.payload 52) (u32At c.payload 58) = true) :
    (within [(1, byteAt c.payload 0, 16), (0, u32At c.payload 58, 999999999)] && timeOk c (u48At c.payload 52) (u32At c.payload 58)) = true := by
  rw [ht, within_of_forall (by simp; omega)]
  rfl

/-- Settles O28: each card's fields are what its command stages. -/
theorem acquisitionSettingsComplete : Obligations.AcquisitionSettingsComplete := by
  unfold Obligations.AcquisitionSettingsComplete
  intro s t i c b p hb hp
  subst hb hp
  refine ⟨fun h h0 h1 h2 => ?_, fun k h hk h5 h1 h2 h3 => ?_, fun h hk h0 h1 h2 h3 => ?_, fun h hk => ?_, fun h h0 => ?_, fun h h0 h1 ht => ?_,
    fun k h hk h1 hd hu hn => ?_, fun h hk hd hu hn => ?_, fun h hv => ?_, fun h hk hd hu hn => ?_⟩
  · exact commits_of_setCmd (f := fun now => cSetAcquisition now c) rfl h rfl (within_of_forall (by simp; omega))
  · exact commits_of_setCmd (f := fun now => cSetComparator now c) rfl h (cSetComparator_fixed hk.symm h5 h1 h2 h3) rfl
  · exact commits_of_setCmd (f := fun now => cSetComparator now c) rfl h (cSetComparator_free hk h0 h1 h2 h3) rfl
  · exact answers_range_of_setCmd (f := fun now => cSetComparator now c) rfl h rfl ((within_eq_false_iff _).mpr ⟨_, .head _, .inr hk⟩)
  · exact commits_of_setCmd (f := fun now => cSetFilters now c) rfl h rfl (within_of_forall (by simp; omega))
  · exact commits_of_setCmd (f := fun now => cSetCapture now c) rfl h rfl (timed_fields_in_range h0 h1 ht)
  · refine commits_of_setCmd (f := fun now => cSetStair now c) rfl h ((cSetStair_eq hk.symm (by omega) hd hu hn).trans ?_) rfl
    match k, h1 with
    | 0, _ | 1, _ => rfl
  · exact commits_of_setCmd (f := fun now => cSetStair now c) rfl h (cSetStair_eq hk (by omega) hd hu hn) rfl
  · refine answers_range_of_setCmd (f := fun now => cSetCapture now c) rfl h rfl ?_
    rw [(within_eq_false_iff _).mpr ⟨_, .tail _ (.head _), .inr hv⟩]
    rfl
  · exact commits_of_setCmd (f := fun now => cSetStair now c) rfl h (cSetStair_eq hk (by omega) hd hu hn) rfl

/-! ### Protection (R318, R339, R362) -/

theorem l1Fits_of {p : Polder} {n x : Nat} (h : x = 0 ∨ 1 ≤ l1Code p n x ∧ l1Code p n x ≤ 127) : l1Fits p n x = true := by
  unfold l1Fits
  simpa using h

theorem cSetGateLink_eq {now : Nat} {c : Cmd} {p : Polder} {n : Nat} (hn : byteAt c.payload 0 = n) (h3 : n ≤ 3) :
    cSetGateLink now c p = setCmd now Op.setGateLink c true
      ([part (F.GLK_CFG_EN n) (byteAt c.payload 1 % 2), part (F.GLK_CFG_VMAX n) (byteAt c.payload 2), part (F.GLK_CFG_VMIN n) (byteAt c.payload 3)] ++
        (if n = 3 then [] else [part (F.GLK_CFG_NSW n) (byteAt c.payload 1 / 2 % 2)]) ++
        [part (F.GLK_CFG_LOSSN n) (byteAt c.payload 4), whole (A.GLK_ISFS n) (u32At c.payload 8)]) p := by
  unfold cSetGateLink
  simp only [hn]
  rw [within_of_forall (by simp; omega)]

theorem cSetSafety_of_sluiceTakes {now n : Nat} {c : Cmd} {p : Polder} (h : p.sluiceTakes now (safetyWrites c.payload) n) :
    cSetSafety now c p = answer (p.committed now c.sess n (safetyWrites c.payload)) Op.setSafety c
      (okWith (wBytes (spbCrc (p.committed now c.sess n (safetyWrites c.payload))))) := by
  unfold cSetSafety
  rw [sluBasic_of_sluiceTakes c.sess none h]
  rfl

/-- Settles O37: each card's fields are what its command stages. -/
theorem protectionSettingsComplete : Obligations.ProtectionSettingsComplete := by
  unfold Obligations.ProtectionSettingsComplete
  intro s t i c b p hb hp
  subst hb hp
  refine ⟨fun h => ?_, fun n h hn h3 h1 h2 hk => ?_, fun n h hn h3 => ?_, fun h hn => ?_, fun h => ?_, fun h hk => ?_, fun n x h hx he => ?_⟩
  · exact commits_of_setCmd (f := fun now => cSetDike now c) rfl h rfl rfl
  · subst hn
    refine commits_of_setCmd (f := fun now => cSetL1 now c) rfl h rfl ?_
    rw [within_of_forall (by simp; omega)]
    simpa using ⟨l1Fits_of (hk 0 (by omega)), l1Fits_of (hk 1 (by omega)), l1Fits_of (hk 2 (by omega)), l1Fits_of (hk 3 (by omega))⟩
  · refine commits_of_setCmd (f := fun now => cSetGateLink now c) rfl h ((cSetGateLink_eq hn.symm (by omega)).trans ?_) rfl
    rw [if_neg (by omega)]
    rfl
  · exact commits_of_setCmd (f := fun now => cSetGateLink now c) rfl h (cSetGateLink_eq hn (by omega)) rfl
  · exact commits_of_setCmd (f := fun now => cSetFieldInputs now c) rfl h rfl rfl
  · have h0 := hk 0 (by omega)
    have h1 := hk 1 (by omega)
    have h2 := hk 2 (by omega)
    have h3 := hk 3 (by omega)
    exact commits_of_setCmd (f := fun now => cSetFieldOutputs now c) rfl h rfl (within_of_forall (by simp at *; omega))
  · subst he
    exact does_of_onCommand (f := fun now => cSetSafety now c) rfl h (cSetSafety_of_sluiceTakes hx)

end Sys2Proof.Machine
end

section
/-! SUPPORT. Reads: the bytes of a reply, groups of registers that are written at once, accesses of a master that reads (O14, O24). -/
namespace Sys2Proof.Machine
open Sys2Proof

/-! ### Bytes of a reply -/

@[simp] theorem length_leBytes (n v : Nat) : (leBytes n v).length = n := by
  induction n generalizing v with
  | zero => rfl
  | succ n ih => simp [leBytes, ih]

@[simp] theorem length_wBytes (w : Word) : (wBytes w).length = 4 := length_leBytes 4 _

@[simp] theorem length_iField (n : Nat) (v : Int) : (iField n v).length = n := length_leBytes n _

@[simp] theorem length_uField (n : Nat) (v : Int) : (uField n v).length = n := length_leBytes n _

@[simp] theorem length_zeros (n : Nat) : (zeros n).length = n := List.length_replicate

/-- Item `k` of a list of items of one length. -/
theorem take_drop_flatMap {α β : Type} (f : α → List β) {m : Nat} (hf : ∀ a, (f a).length = m) (l : List α) {k : Nat} (hk : k < l.length) :
    ((l.flatMap f).drop (m * k)).take m = f l[k] := by
  induction l generalizing k with
  | nil => simp at hk
  | cons a l ih =>
    rw [List.flatMap_cons]
    cases k with
    | zero => simp [← hf a]
    | succ k =>
      have hk' : m * (k + 1) = (f a).length + m * k := by
        rw [hf]
        ring
      rw [hk', List.drop_length_add_append]
      exact ih (by simpa using hk)

theorem length_flatMap_of {α β : Type} (f : α → List β) {m : Nat} (hf : ∀ a, (f a).length = m) (l : List α) :
    (l.flatMap f).length = m * l.length := by
  rw [List.length_flatMap, List.map_congr_left (g := fun _ => m) fun a _ => hf a]
  simp [mul_comm]

/-- Word `k` behind a head of `n` bytes. -/
theorem take_drop_words {α : Type} (head : List Byte) (f : α → Word) (l : List α) {n k : Nat} (hn : head.length = n) (hk : k < l.length) :
    ((head ++ l.flatMap fun a => wBytes (f a)).drop (n + 4 * k)).take 4 = wBytes (f l[k]) := by
  subst hn
  rw [List.drop_length_add_append]
  exact take_drop_flatMap (fun a => wBytes (f a)) (fun _ => length_wBytes _) l hk

/-! ### Groups of registers that are written at once -/

theorem within_wrAll {S : Nat → Prop} (l : List (Nat × Word)) (p : Polder) (h : ∀ e ∈ l, S e.1) : Within S p (wrAll p l) :=
  within_foldl _ l p fun q e he => within_wr q e.2 (h e he)

theorem rd_wrAll_of_mem {l : List (Nat × Word)} (p : Polder) (hn : (l.map Prod.fst).Nodup) {e : Nat × Word} (he : e ∈ l) :
    rd (wrAll p l) e.1 = e.2 := by
  induction l generalizing p with
  | nil => cases he
  | cons a l ih =>
    obtain ⟨ha, hl⟩ := List.nodup_cons.mp hn
    obtain rfl | he := List.mem_cons.mp he
    · have hw : Within (fun o => o ∈ l.map Prod.fst) (wr p e.1 e.2) (wrAll (wr p e.1 e.2) l) :=
        within_wrAll l _ fun x hx => List.mem_map_of_mem hx
      exact (hw _ ha).trans (rd_wr_self p _ _)
    · exact ih _ hl he

/-- A run of registers from an offset on. -/
theorem nodup_run (base n : Nat) (f : Nat → Word) : (((List.range n).map fun k => (base + 4 * k, f k)).map Prod.fst).Nodup := by
  rw [List.map_map]
  exact (List.nodup_range).map fun a b h => by simpa using h

theorem rd_wrAll_run (p : Polder) (base n : Nat) (f : Nat → Word) {k : Nat} (hk : k < n) :
    rd (wrAll p ((List.range n).map fun k => (base + 4 * k, f k))) (base + 4 * k) = f k :=
  rd_wrAll_of_mem p (nodup_run base n f) (e := (base + 4 * k, f k)) (List.mem_map.mpr ⟨k, List.mem_range.mpr hk, rfl⟩)

/-! ### The latch of the measurement group (R82) -/

theorem rd_latchGroup (p : Polder) {k : Nat} (hk : k < 11) : rd (latchGroup p) (A.SWG_P + 4 * k) = vget p.swg.meas k 0 :=
  rd_wrAll_run p A.SWG_P 11 (fun k => vget p.swg.meas k 0) hk

/-- The registers of the measurement group. -/
def measRegs (off : Nat) : Prop := ∃ k < 11, off = A.SWG_P + 4 * k

theorem within_latchGroup (p : Polder) : Within measRegs p (latchGroup p) := by
  refine (within_wrAll _ p fun e he => ?_).trans fun _ _ => rfl
  obtain ⟨k, hk, rfl⟩ := List.mem_map.mp he
  exact ⟨k, List.mem_range.mp hk, rfl⟩

theorem not_measRegs {off : Nat} (h : off < A.SWG_P ∨ A.SWG_P + 44 ≤ off) : ¬measRegs off := by
  rintro ⟨k, hk, rfl⟩
  omega

theorem vaOf_latchGroup (p : Polder) (x : Int) : vaOf (latchGroup p) x = vaOf p x := by
  have hb : sBase (latchGroup p) = sBase p := by
    unfold sBase rdN
    rw [within_latchGroup p _ (not_measRegs (.inl (by decide)))]
  unfold vaOf
  rw [hb]

/-! ### A direct read -/

/-- The frame of a direct read of every master but a monitor. -/
theorem onRead_of_accesses {s : State} {t : Nat} {i : PolderId} {m : Master} {now : Nat} {p : Polder} (off : Nat)
    (h : Accesses s t i m now p) : onRead t i m off s = .next (s.after t i (busRead s.part now m i off p).2) := by
  obtain ⟨hp, ha, hl, hm, rfl, rfl⟩ := h
  have hdev : onRead t i m off s = onPart t i s fun now y =>
      if live y m && awake (y.pol i) then y.modPol i (fun q => polish now (busRead s.part now m i off q).2) else y := by
    cases m with
    | mon j => exact absurd rfl (hm j)
    | ce j => rfl
    | se j => rfl
    | hall => rfl
    | dkh => rfl
  rw [hdev, onPart_eq _ _ _ _ hp]
  simp only [live_at, hl, at_pol, ha, Bool.and_self, if_true]
  rw [leaves_modPol]

theorem busRead_SWG_P {part : Part} {now : Nat} {m : Master} {i : PolderId} {p : Polder} (hr : reaches m i A.SWG_P = true) :
    (busRead part now m i A.SWG_P p).2 = latchGroup p := by
  unfold busRead
  rw [hr]
  rfl

/-- Settles O14: the reply is the card's, and the latch writes the run of eleven registers. -/
theorem swingReadsComplete : Obligations.SwingReadsComplete := by
  unfold Obligations.SwingReadsComplete
  refine ⟨fun s t i c => ⟨fun h => ⟨_, ?_, ?_, ?_, ?_, does_of_onCommand (f := fun _ => cGetSwing c) rfl h rfl⟩,
    fun h => ⟨_, ?_, answers_of_onCommand (f := fun _ => cGetRegime c) rfl h rfl⟩⟩, fun p k => rd_latchGroup p,
    fun p off h => within_latchGroup p off ?_, fun s t i m hp ha hl hr hm => ?_⟩
  · simp
  · show iField 4 (vaOf (latchGroup (s.pol i)) (rd (latchGroup (s.pol i)) (A.SWG_P + 4 * 0)).toInt) ++
      iField 4 (vaOf (latchGroup (s.pol i)) (rd (latchGroup (s.pol i)) (A.SWG_P + 4 * 1)).toInt) = _
    rw [rd_latchGroup _ (by omega), rd_latchGroup _ (by omega), vaOf_latchGroup, vaOf_latchGroup]
  · exact congrArg wBytes (rd_latchGroup (s.pol i) (k := 4) (by omega))
  · rfl
  · simp
  · rintro ⟨k, hk, he⟩
    exact h k hk he
  · unfold Does
    have hacc : Accesses s t i m (s.clock t) (s.pol i) := ⟨hp, ha, hl, hm, rfl, rfl⟩
    exact (onRead_of_accesses A.SWG_P hacc).trans (by rw [busRead_SWG_P hr])

end Sys2Proof.Machine
end

section
/-! SUPPORT. Reads of the embankment controller, the modulator, the learner and the gallery, of the protection units, and the commands of clocks and
time (O24, O39). -/
namespace Sys2Proof.Machine
open Sys2Proof

/-! ### Replies of spec/04 to spec/06 -/

theorem length_flatMap_buffers {α : Type} {n : Nat} (v : Vector α n) (f : α → Nat) : (v.toList.flatMap fun x => leBytes 4 (f x)).length = 4 * n := by
  rw [length_flatMap_of (m := 4) _ fun _ => length_leBytes 4 _]
  simp

theorem length_galRow (p : Polder) (k : Nat) : (galRow p k).length = cfgGet p.gal F.GAL_CTRL_NPROBE := by simp [galRow]

theorem length_flatMap_wBytes (l : List Word) : (l.flatMap wBytes).length = 4 * l.length := length_flatMap_of wBytes length_wBytes l

theorem length_galRows (p : Polder) (first rows : Nat) :
    ((List.range rows).flatMap fun k => (galRow p (first + k)).flatMap wBytes).length = 4 * rows * cfgGet p.gal F.GAL_CTRL_NPROBE := by
  rw [length_flatMap_of (m := 4 * cfgGet p.gal F.GAL_CTRL_NPROBE) _ fun k => by rw [length_flatMap_wBytes, length_galRow]]
  rw [List.length_range]
  ring

theorem cReadGallery_done {c : Cmd} {p : Polder} (hd : fget p F.GAL_STAT_STATE = Rec.done)
    (h1 : 4 * u16At c.payload 4 * cfgGet p.gal F.GAL_CTRL_NPROBE ≤ 1000) (h2 : u32At c.payload 0 + u16At c.payload 4 ≤ rdN p A.GAL_ROWS) :
    cReadGallery c p = answer p Op.readGallery c (okWith (wBytes (rd p A.GAL_STAT) ++ wBytes (rd p A.GAL_ROWS) ++ leBytes 4 (galTrigRow p) ++
      leBytes 6 (rdN p A.GAL_TSL + 4294967296 * (rdN p A.GAL_TSH % 65536)) ++ wBytes (rd p A.GAL_TNS) ++
      leBytes 2 (cfgGet p.gal F.GAL_CTRL_NPROBE) ++
      (List.range (u16At c.payload 4)).flatMap fun k => (galRow p (u32At c.payload 0 + k)).flatMap wBytes)) := by
  unfold cReadGallery
  dsimp only
  rw [if_neg (not_not.mpr hd), if_neg (by omega)]

/-- Settles O24: the replies are those of the cards, and a read changes nothing. -/
theorem embankmentToGalleryReadsComplete : Obligations.EmbankmentToGalleryReadsComplete := by
  unfold Obligations.EmbankmentToGalleryReadsComplete
  intro s t i c b p hb hp
  subst hb hp
  refine ⟨fun h => ⟨_, ?_, ?_, ?_, answers_of_onCommand (f := fun _ => cGetEmbankment c) rfl h rfl⟩,
    fun h => ⟨_, ?_, ?_, ?_, answers_of_onCommand (f := fun _ => cGetModulator c) rfl h rfl⟩,
    fun h hk => ⟨_, ?_, ?_, ?_, answers_of_onCommand (f := fun _ => cGetLearner c) rfl h (if_neg (by omega))⟩,
    fun n rows h hn hr hd h1 h2 => ?_, fun h hd => answers_of_onCommand (f := fun _ => cReadGallery c) rfl h (if_pos hd)⟩
  · simp
  · rfl
  · rfl
  · simp only [List.length_append, length_flatMap_buffers, length_wBytes, length_leBytes]
  · rfl
  · rfl
  · rw [List.length_append, length_flatMap_of (m := 4) _ fun _ => length_wBytes _]
    simp
  · rfl
  · intro k hk
    have hh : (wBytes (rd (s.pol i) A.LRN_STAT) ++ wBytes (rd (s.pol i) A.LRN_EVT) ++ wBytes (rd (s.pol i) A.LRN_CYCLES) ++
        wBytes (rd (s.pol i) A.LRN_SKIPS) ++ wBytes (rd (s.pol i) A.LRN_PEAK) ++
        uField 4 (roundDiv ((s.pol i).lrn.wl * 1000000) 1152921504606846976)).length = 24 := by simp
    exact (take_drop_words _ (fun k => rd (s.pol i) (A.LRN_COEF (128 * byteAt c.payload 0 + k))) _ hh (by simpa using hk)).trans
      (by rw [List.getElem_range])
  · subst hn hr
    refine ⟨_, ?_, ?_, ?_, answers_of_onCommand (f := fun _ => cReadGallery c) rfl h (cReadGallery_done hd h1 h2)⟩
    · rw [List.length_append, length_galRows]
      simp
    · rfl
    · rfl

end Sys2Proof.Machine
end

section
/-! SUPPORT. Reads of the protection units (O39). -/
namespace Sys2Proof.Machine
open Sys2Proof

theorem length_safetySet (p : Polder) : (safetySet p).length = 28 := rfl

theorem length_regBytes (part : Part) (now : Nat) (p : Polder) (l : List Nat) : (regBytes part now p l).length = 4 * l.length :=
  length_flatMap_of _ (fun _ => length_wBytes _) l

theorem viewWord_FIO_DICNT (part : Part) (now : Nat) (p : Polder) {k : Nat} (hk : k < 8) :
    viewWord part now p (A.FIO_DICNT k) = rd p (A.FIO_DICNT k) := by
  match k, hk with
  | 0, _ | 1, _ | 2, _ | 3, _ | 4, _ | 5, _ | 6, _ | 7, _ => rfl

/-- Word `k` of a run of registers in a reply. -/
theorem take_drop_regBytes (part : Part) (now : Nat) (p : Polder) (l : List Nat) {k : Nat} (hk : k < l.length) :
    ((regBytes part now p l).drop (4 * k)).take 4 = wBytes (viewWord part now p l[k]) :=
  take_drop_flatMap (fun o => wBytes (viewWord part now p o)) (fun _ => length_wBytes _) l hk

/-- The six registers that the reply of GET_GATE_LINKS holds of a link. -/
def linkBytes (p : Polder) (n : Nat) : List Byte :=
  [A.GLK_CFG n, A.GLK_STAT n, A.GLK_ERR n, A.GLK_MON n, A.GLK_TEMP n, A.GLK_IS n].flatMap fun o => wBytes (rd p o)

theorem length_linkBytes (p : Polder) (n : Nat) : (linkBytes p n).length = 24 := length_flatMap_of (m := 4) _ (fun _ => length_wBytes _) _

theorem take_drop_linkBytes (p : Polder) {n : Nat} (hn : n < 4) : ((([0, 1, 2, 3] : List Nat).flatMap (linkBytes p)).drop (24 * n)).take 24 = linkBytes p n := by
  have hg : ([0, 1, 2, 3] : List Nat)[n]'hn = n := by
    match n, hn with
    | 0, _ | 1, _ | 2, _ | 3, _ => rfl
  exact (take_drop_flatMap (linkBytes p) (length_linkBytes p) [0, 1, 2, 3] hn).trans (by rw [hg])

/-- The registers of GET_FIELD_IO. -/
def fieldRegs : List Nat :=
  [A.FIO_DI, A.FIO_STAT, A.FIO_EVT, A.FIO_DOCMD, A.FIO_DOSTAT, A.FIO_DODIAG] ++ (List.range 8).map A.FIO_DICNT ++ (List.range 4).map A.FIO_TPPASS

theorem take_drop_fieldRegs (part : Part) (now : Nat) (p : Polder) {k : Nat} (hk : k < 8) :
    ((regBytes part now p fieldRegs).drop (24 + 4 * k)).take 4 = wBytes (rd p (A.FIO_DICNT k)) := by
  have hg : fieldRegs[6 + k]? = some (A.FIO_DICNT k) := by
    match k, hk with
    | 0, _ | 1, _ | 2, _ | 3, _ | 4, _ | 5, _ | 6, _ | 7, _ => rfl
  obtain ⟨hlt, hg⟩ := List.getElem?_eq_some_iff.mp hg
  have h := take_drop_regBytes part now p fieldRegs hlt
  rw [hg, viewWord_FIO_DICNT part now p hk, Nat.mul_add] at h
  exact h

/-- Settles O39: the replies are those of the cards; only GET_FIELD_EVENTS takes something. -/
theorem protectionReadsComplete : Obligations.ProtectionReadsComplete := by
  unfold Obligations.ProtectionReadsComplete
  intro s t i c b p hb hp
  subst hb hp
  refine ⟨fun h => ⟨_, ?_, ?_, ?_, answers_of_onCommand (f := fun now => cGetDike s.part now c) rfl h rfl⟩,
    fun h => ⟨_, ?_, fun n hn => take_drop_linkBytes _ hn, answers_of_onCommand (f := fun _ => cGetGateLinks c) rfl h rfl⟩,
    fun h => ⟨_, ?_, ?_, fun k hk => take_drop_fieldRegs _ _ _ hk, answers_of_onCommand (f := fun now => cGetFieldIo s.part now c) rfl h rfl⟩,
    fun n h hn hv => ?_, fun h => ⟨_, ?_, ?_, ?_, answers_of_onCommand (f := fun now => cGetSafety s.part now c) rfl h rfl⟩,
    fun l h h0 h1 hl => ?_⟩
  · simp only [List.length_append, length_regBytes, length_leBytes, length_wBytes, List.length_cons, List.length_nil]
  · rfl
  · rfl
  · rfl
  · rfl
  · rfl
  · subst hn
    exact does_of_onCommand (f := fun _ => cGetFieldEvents c) rfl h (if_neg (by omega))
  · simp only [List.length_append, length_regBytes, length_safetySet, List.length_cons, List.length_nil]
  · rfl
  · rfl
  · subst hl
    exact answers_of_onCommand (f := fun _ => cReadSafetyLog c) rfl h (if_neg (by omega))

end Sys2Proof.Machine
end

section
/-! SUPPORT. Fields that an operation can change, and what it leaves of presented time (R384 to R386). -/
namespace Sys2Proof.Machine
open Sys2Proof

/-! ### Fields that share no bit -/

/-- The fields share no bit. -/
def apart (f g : Fld) : Prop := f.off ≠ g.off ∨ f.hi < g.lo ∨ g.hi < f.lo

theorem apart_def (f g : Fld) : apart f g ↔ f.off ≠ g.off ∨ f.hi < g.lo ∨ g.hi < f.lo := Iff.rfl

/-- Decides that no field of `fs` shares a bit with one of `l`. -/
def apartAll (fs l : List Fld) : Bool := fs.all fun f => l.all fun g => f.off != g.off || decide (f.hi < g.lo) || decide (g.hi < f.lo)

theorem apartAll_iff (fs l : List Fld) : apartAll fs l = true ↔ ∀ f ∈ fs, ∀ g ∈ l, apart f g := by
  simp [apartAll, apart, or_assoc]

/-- A whole register as a field. -/
def regFld (o : Nat) : Fld := ⟨o, 31, 0⟩

/-- Every field that shares no bit with those of `l` is in `q` as it is in `p`. -/
def Spares (l : List Fld) (p q : Polder) : Prop := ∀ f, (∀ g ∈ l, apart f g) → fget q f = fget p f

theorem bitsOf_high (w : Word) {hi lo : Nat} (h : 31 < lo) : bitsOf w hi lo = 0 := by
  unfold bitsOf
  have hlt : w.toNat < 2 ^ lo := lt_of_lt_of_le w.isLt (Nat.pow_le_pow_right (by omega) (by omega))
  rw [Nat.div_eq_of_lt hlt, Nat.zero_mod]

theorem fget_regFld (p : Polder) (o : Nat) : fget p (regFld o) = rdN p o := by
  show (rd p o).toNat / 2 ^ 0 % 2 ^ 32 = (rd p o).toNat
  have := (rd p o).isLt
  omega

section
variable {l : List Fld} {p q r : Polder}

theorem Spares.refl (p : Polder) : Spares l p p := fun _ _ => rfl

theorem Spares.trans (h : Spares l p q) (g : Spares l q r) : Spares l p r := fun f hf => (g f hf).trans (h f hf)

theorem Spares.mono {m : List Fld} (hl : ∀ g ∈ l, g ∈ m) (h : Spares l p q) : Spares m p q := fun f hf => h f fun g hg => hf g (hl g hg)

theorem Spares.fget (h : Spares l p q) {f : Fld} (hf : apartAll [f] l = true) : fget q f = fget p f :=
  h f ((apartAll_iff [f] l).mp hf f List.mem_cons_self)

theorem Spares.fbit (h : Spares l p q) {f : Fld} (hf : apartAll [f] l = true) : fbit q f = fbit p f := by
  unfold Machine.fbit
  rw [h.fget hf]

theorem Spares.rd (h : Spares l p q) {o : Nat} (ho : ∀ g ∈ l, g.off ≠ o) : rd q o = rd p o := by
  have hf := h (regFld o) fun g hg => .inl (ho g hg).symm
  rw [fget_regFld, fget_regFld] at hf
  exact BitVec.eq_of_toNat_eq hf

theorem spares_of_within {S : Nat → Prop} (h : Within S p q) (hl : ∀ o, S o → regFld o ∈ l) : Spares l p q := by
  intro f hf
  by_cases hs : S f.off
  · obtain hne | hlt | hlt := hf _ (hl _ hs)
    · exact absurd rfl hne
    · exact absurd hlt (Nat.not_lt_zero _)
    · unfold Machine.fget
      rw [bitsOf_high _ hlt, bitsOf_high _ hlt]
  · exact h.fget hs

theorem spares_ite {b : Prop} [Decidable b] (h : Spares l p q) (g : Spares l p r) : Spares l p (if b then q else r) := by
  split <;> assumption

theorem spares_wr (p : Polder) {o : Nat} (w : Word) (h : regFld o ∈ l) : Spares l p (wr p o w) :=
  spares_of_within (S := (· = o)) (within_wr p w rfl) fun _ e => e ▸ h

theorem spares_addSat (p : Polder) {o : Nat} (k : Nat) (h : regFld o ∈ l) : Spares l p (addSat p o k) := spares_wr p _ h

theorem spares_fput (p : Polder) {f : Fld} (v : Nat) (h : f ∈ l) : Spares l p (fput p f v) := by
  intro g hg
  obtain hne | hb := hg f h
  · exact fget_fput_off p v hne
  · exact fget_fput_bits p v hb

theorem spares_fputB (p : Polder) {f : Fld} (b : Bool) (h : f ∈ l) : Spares l p (fputB p f b) := spares_fput p _ h

theorem spares_evt (p : Polder) {f : Fld} (h : f ∈ l) : Spares l p (evt f p) := spares_fput p 1 h

theorem spares_evtIf (b : Bool) (p : Polder) {f : Fld} (h : f ∈ l) : Spares l p (evtIf b f p) := spares_ite (spares_evt p h) (.refl p)

theorem spares_foldl {α : Type} (f : Polder → α → Polder) (as : List α) (p : Polder) (hf : ∀ q, ∀ a ∈ as, Spares l q (f q a)) :
    Spares l p (as.foldl f p) := by
  induction as generalizing p with
  | nil => exact .refl p
  | cons a as ih => exact (hf p a List.mem_cons_self).trans (ih _ fun q x hx => hf q x (List.mem_cons_of_mem a hx))

/-- What keeps the registers keeps every field. -/
theorem spares_of_regs (h : q.regs = p.regs) : Spares l p q := fun f _ => fget_of_regs h f

end

/-! ### The event log -/

/-- The registers of the log, as fields. -/
def logFlds : List Fld := [regFld A.PCT_LOGNEXT, regFld A.PCT_LOGNVLOST]

theorem spares_logRec (now source code sev : Nat) (data : List Byte) (p : Polder) : Spares logFlds p (logRec now source code sev data p) :=
  spares_of_within (within_logRec now source code sev data p) fun o h => by
    obtain rfl | rfl := h
    · exact .head _
    · exact .tail _ (.head _)

theorem nvTouch_shape (now sect : Nat) (p : Polder) (r : NvRecord) : ∃ n, nvTouch now sect p r = { p with nv := n } := by
  unfold nvTouch
  split
  · exact ⟨_, rfl⟩
  · exact ⟨_, rfl⟩

/-- A record changes registers, the log and the store, and nothing else. -/
theorem logRec_shape (now source code sev : Nat) (data : List Byte) (p : Polder) :
    ∃ r l n, logRec now source code sev data p = { p with regs := r, log := l, nv := n } := by
  unfold logRec
  extract_lets x r src p1
  split
  · exact ⟨_, _, _, rfl⟩
  · split
    · obtain ⟨n, hn⟩ := nvTouch_shape now 6 { p1 with log := { p1.log with burstAt := if now - p.log.burstAt < sec then p.log.burstAt else now, burst := burstNow p now + 1 } }
        { p1.nv.image with events := some ((r :: p1.nv.image.events.getD []).take 384) }
      exact ⟨_, _, _, hn⟩
    · exact ⟨_, _, _, rfl⟩

@[simp] theorem logRec_tim (now source code sev : Nat) (data : List Byte) (p : Polder) : (logRec now source code sev data p).tim = p.tim := by
  obtain ⟨r, l, n, h⟩ := logRec_shape now source code sev data p
  rw [h]

@[simp] theorem logRec_clk (now source code sev : Nat) (data : List Byte) (p : Polder) : (logRec now source code sev data p).clk = p.clk := by
  obtain ⟨r, l, n, h⟩ := logRec_shape now source code sev data p
  rw [h]

/-! ### Records of the time unit -/

theorem spares_timNote (now : Nat) (f : Fld) (step : Int) (p : Polder) : Spares (f :: logFlds) p (timNote now f step p) := by
  have h1 : Spares (f :: logFlds) p (evt f p) := spares_evt p (.head _)
  have h2 : Spares (f :: logFlds) p (if f = F.TIM_EVT_PPS_IN then evt f p
      else logRec now 5 (2 ^ f.lo) Sev.warn (wBytes (rd (evt f p) A.TIM_STAT) ++ iField 6 step) (evt f p)) :=
    spares_ite h1 (h1.trans ((spares_logRec _ _ _ _ _ _).mono fun _ hg => .tail _ hg))
  exact h2.trans (spares_of_regs rfl)

@[simp] theorem timNote_tim (now : Nat) (f : Fld) (step : Int) (p : Polder) : (timNote now f step p).tim = p.tim := by
  have h : (if f = F.TIM_EVT_PPS_IN then evt f p
      else logRec now 5 (2 ^ f.lo) Sev.warn (wBytes (rd (evt f p) A.TIM_STAT) ++ iField 6 step) (evt f p)).tim = p.tim := by
    split
    · rfl
    · exact (logRec_tim ..).trans rfl
  exact h

@[simp] theorem timNote_clk (now : Nat) (f : Fld) (step : Int) (p : Polder) : (timNote now f step p).clk = p.clk := by
  have h : (if f = F.TIM_EVT_PPS_IN then evt f p
      else logRec now 5 (2 ^ f.lo) Sev.warn (wBytes (rd (evt f p) A.TIM_STAT) ++ iField 6 step) (evt f p)).clk = p.clk := by
    split
    · rfl
    · exact (logRec_clk ..).trans rfl
  exact h

/-- The event itself is set. -/
theorem fbit_timNote_self (now : Nat) {f : Fld} (step : Int) (p : Polder) (ho : f.off = A.TIM_EVT) (hw : f.hi = f.lo) (h : f.hi < 32) :
    fbit (timNote now f step p) f = true := by
  have h1 : fbit (evt f p) f = true := fbit_evt_self' p h hw
  have hk : ∀ a b c d, fbit (logRec now a b c d (evt f p)) f = true := fun a b c d =>
    ((within_logRec now a b c d (evt f p)).fbit (by rw [ho]; unfold logRegs; decide)).trans h1
  show fbit (notifyTime (if f = F.TIM_EVT_PPS_IN then evt f p
    else logRec now 5 (2 ^ f.lo) Sev.warn (wBytes (rd (evt f p) A.TIM_STAT) ++ iField 6 step) (evt f p))) f = true
  split
  · exact h1
  · exact hk _ _ _ _

/-! ### Presented time -/

/-- The fields that presented time depends on. -/
def timeInputs : List Fld := [F.TIM_STAT_ACT, F.TIM_CFG_SLEW, F.CLK_STAT_SRC, regFld (A.TIM_RATE 0), regFld (A.TIM_RATE 1)]

section
variable {p q : Polder}

/-- Presented time runs in `q` as it does in `p`. -/
structure TimeSame (p q : Polder) : Prop where
  tim : q.tim = p.tim
  act : fget q F.TIM_STAT_ACT = fget p F.TIM_STAT_ACT
  slew : fget q F.TIM_CFG_SLEW = fget p F.TIM_CFG_SLEW
  src : fget q F.CLK_STAT_SRC = fget p F.CLK_STAT_SRC
  rate0 : rd q (A.TIM_RATE 0) = rd p (A.TIM_RATE 0)
  rate1 : rd q (A.TIM_RATE 1) = rd p (A.TIM_RATE 1)

theorem timeSame_of_spares {l : List Fld} (ht : q.tim = p.tim) (h : Spares l p q) (hl : apartAll timeInputs l = true) : TimeSame p q := by
  have hf : ∀ f ∈ timeInputs, fget q f = fget p f := fun f hf => h f ((apartAll_iff timeInputs l).mp hl f hf)
  have hr : ∀ o, regFld o ∈ timeInputs → rd q o = rd p o := fun o ho => BitVec.eq_of_toNat_eq (by
    have := hf _ ho
    rwa [fget_regFld, fget_regFld] at this)
  exact ⟨ht, hf _ (by simp [timeInputs]), hf _ (by simp [timeInputs]), hf _ (by simp [timeInputs]), hr _ (by simp [timeInputs]),
    hr _ (by simp [timeInputs])⟩

theorem TimeSame.activeAt (h : TimeSame p q) (x : Int) : activeAt q x = activeAt p x := by
  unfold Machine.activeAt tb0At tb1At rdI
  rw [h.act, h.tim, h.rate0, h.rate1]

theorem TimeSame.corrAt (h : TimeSame p q) (x : Int) : corrAt q x = corrAt p x := by
  unfold Machine.corrAt
  rw [h.tim, h.slew]

theorem TimeSame.onPll (h : TimeSame p q) : onPll q = onPll p := by
  unfold Machine.onPll
  rw [h.src]

theorem TimeSame.presented (h : TimeSame p q) (now : Nat) : presented q now = presented p now := by
  unfold Machine.presented
  dsimp only
  rw [h.tim, h.activeAt, h.corrAt, h.onPll]

theorem TimeSame.corrNow (h : TimeSame p q) (now : Nat) : corrNow now q = corrNow now p := by
  unfold Machine.corrNow
  rw [h.tim, h.corrAt]

theorem timeSame_timNote (now : Nat) {f : Fld} (step : Int) (p : Polder) (h : apartAll timeInputs (f :: logFlds) = true) :
    TimeSame p (timNote now f step p) := timeSame_of_spares (timNote_tim ..) (spares_timNote now f step p) h

end

/-- C read at the instant at which it was set. -/
theorem corrAt_at_set (p : Polder) : corrAt p p.tim.corrAt = p.tim.corr := by
  unfold corrAt
  simp only [Int.sub_self, Int.zero_mul, Int.zero_ediv, Int.add_zero, Int.sub_zero]
  split <;> omega

theorem corrAt_setCorr (now : Nat) (c : Int) (p : Polder) : corrAt (setCorr now c p) (tblAt p.tim now) = c := corrAt_at_set (setCorr now c p)

/-- Settles O47: C is set to the difference of the two bases at the instant of the change. -/
theorem presentedTimeIsContinuous : Obligations.PresentedTimeIsContinuous := by
  unfold Obligations.PresentedTimeIsContinuous
  intro p now n hn
  unfold baseSwitch
  extract_lets x was p1
  have hs := timeSame_timNote now (f := F.TIM_EVT_SWITCH) 0 (setCorr now (was - activeAt p1 x) p1) (by decide)
  have hk : Spares [F.TIM_STAT_ACT, regFld A.TIM_SWITCHES] p p1 := (spares_fput p n (.head _)).trans (spares_addSat _ 1 (.tail _ (.head _)))
  have hsrc : onPll p1 = onPll p := by
    unfold onPll
    rw [hk.fget (by decide)]
  refine ⟨?_, ?_⟩
  · rw [hs.presented]
    unfold presented
    have hv : activeAt (setCorr now (was - activeAt p1 x) p1) x + corrAt (setCorr now (was - activeAt p1 x) p1) x = was := by
      rw [show corrAt (setCorr now (was - activeAt p1 x) p1) x = was - activeAt p1 x from corrAt_setCorr now _ p1]
      show activeAt p1 x + (was - activeAt p1 x) = was
      omega
    show (if onPll p1 then activeAt (setCorr now (was - activeAt p1 x) p1) x + corrAt (setCorr now (was - activeAt p1 x) p1) x else
      activeAt (setCorr now (was - activeAt p1 x) p1) x + corrAt (setCorr now (was - activeAt p1 x) p1) x -
        (activeAt (setCorr now (was - activeAt p1 x) p1) x + corrAt (setCorr now (was - activeAt p1 x) p1) x) % (cyc : Nat)) = _
    rw [hv, hsrc]
  · rw [hs.act]
    refine ((fget_wr_ne _ F.TIM_STAT_ACT _ (by decide)).trans (fget_fput_self p F.TIM_STAT_ACT n (by decide))).trans ?_
    show n % 4 = n
    omega

end Sys2Proof.Machine
end

section
/-! SUPPORT. Frames of events that are not those of a polder's functions, and what an update of presented time writes. -/
namespace Sys2Proof.Machine
open Sys2Proof

/-! ### Frames -/

section
variable {k : Instr} {s : State} {t now : Nat} {i : PolderId} {p q : Polder}

theorem does_of_onAwake {f : Nat → Polder → Polder} (he : exec k s = onAwake t i s f) (hp : Part.has s.part i = true)
    (ha : awake (s.pol i) = true) (hf : f (s.clock t) (s.pol i) = q) : Does k s t i q := by
  unfold Does
  rw [he, onAwake_eq t i s f hp ha, hf]

/-- A polder that runs is awake. -/
theorem does_of_runs_onAwake {f : Nat → Polder → Polder} (he : exec k s = onAwake t i s f) (h : Runs s t i now p) (hf : f now p = q) :
    Does k s t i q := by
  obtain ⟨⟨hp, ha, -⟩, rfl, rfl⟩ := h
  exact does_of_onAwake he hp ha hf

theorem does_of_onClocked {f : Nat → Polder → Polder} (he : exec k s = onClocked t i s f) (h : Runs s t i now p) (hf : f now p = q) :
    Does k s t i q := by
  obtain ⟨⟨hp, ha, -⟩, rfl, rfl⟩ := h
  have hw : (s.pol i).power = .awake := by simpa [awake] using ha
  unfold Does
  rw [he]
  unfold onClocked
  rw [onPart_eq _ _ _ _ hp]
  simp only [at_pol, hw]
  rw [← hf, ← leaves_modPol]
  rfl

theorem does_of_onPin {runs : Polder → Bool} {f g : Nat → Polder → Polder} (he : exec k s = onPin runs t i s f g) (h : Runs s t i now p)
    (hr : runs p = true) (hf : f now p = q) : Does k s t i q := by
  obtain ⟨⟨hp, -, -⟩, rfl, rfl⟩ := h
  unfold Does
  rw [he]
  unfold onPin
  rw [onPart_eq _ _ _ _ hp, ← hf, ← leaves_modPol]
  unfold State.modPol
  simp only [at_pol, hr, if_true]

theorem inService_of_runs (h : Runs s t i now p) : inService p = true := by
  obtain ⟨⟨-, ha, hr⟩, -, rfl⟩ := h
  unfold inService
  rw [ha, hr]
  rfl

end

/-! ### What the Hall hears at a port -/

theorem pol_modPol_self (s : State) (i : PolderId) (f : Polder → Polder) : (s.modPol i f).pol i = f (s.pol i) := setPol_pol _ _ _

theorem pol_modPol_ne (s : State) {i j : PolderId} (f : Polder → Polder) (h : j ≠ i) : (s.modPol i f).pol j = s.pol j := setPol_pol_ne _ _ h

/-- A row of polders that each hear the port once. -/
theorem pol_foldl_heard (now port : Nat) (l : List PolderId) (s : State) (i : PolderId) (hl : l.Nodup) :
    (l.foldl (fun y i => if awake (y.pol i) then y.modPol i (netHeard now port) else y) s).pol i =
      if i ∈ l ∧ awake (s.pol i) = true then netHeard now port (s.pol i) else s.pol i := by
  induction l generalizing s with
  | nil => simp
  | cons a l ih =>
    obtain ⟨ha, hl⟩ := List.nodup_cons.mp hl
    rw [List.foldl_cons, ih _ hl]
    by_cases hi : i = a
    · subst hi
      rw [if_neg fun h => ha h.1]
      split
      next hw => rw [pol_modPol_self, if_pos ⟨List.mem_cons_self, hw⟩]
      next hw => rw [if_neg fun h => hw h.2]
    · have hs : (if awake (s.pol a) then s.modPol a (netHeard now port) else s).pol i = s.pol i := by
        split
        · exact pol_modPol_ne _ _ hi
        · rfl
      rw [hs]
      simp [hi]

theorem mem_presentPolders {s : State} {i : PolderId} : i ∈ presentPolders s ↔ Part.has s.part i = true := by
  unfold presentPolders
  cases i <;> simp

theorem nodup_presentPolders (s : State) : (presentPolders s).Nodup := List.Nodup.filter _ (by decide)

theorem pol_portHeard {s : State} {i : PolderId} (now port : Nat) (hp : Part.has s.part i = true) (ha : awake (s.pol i) = true) :
    (portHeard now port s).pol i = netHeard now port (s.pol i) := by
  unfold portHeard
  rw [pol_foldl_heard now port _ s i (nodup_presentPolders s), if_pos ⟨mem_presentPolders.mpr hp, ha⟩]

theorem power_netHeard (now port : Nat) (p : Polder) : (netHeard now port p).power = p.power := rfl

/-- The frame of what reaches a polder through a port of the Hall. -/
theorem doesHeard_of_onHeard {k : Instr} {s : State} {t now port : Nat} {i : PolderId} {p q : Polder} {runs : Polder → Bool} {f : Nat → Polder → Polder}
    (he : exec k s = onHeard runs t port i s f) (hup : s.hall.up = true) (hport : port < 2) (h : Runs s t i now p)
    (hr : runs (netHeard now port p) = true) (hf : f now (netHeard now port p) = q) : DoesHeard k s t port i q := by
  obtain ⟨⟨hp, ha, -⟩, rfl, rfl⟩ := h
  have hpol : (portHeard (s.clock t) port (s.at' t)).pol i = netHeard (s.clock t) port (s.pol i) := by
    rw [pol_portHeard (s := s.at' t) (s.clock t) port hp (by rw [at_pol]; exact ha), at_pol]
  unfold DoesHeard DoesAll
  rw [he]
  unfold onHeard
  rw [hup, decide_eq_true hport, if_pos (by rfl), onPart_eq _ _ _ _ hp]
  dsimp only
  rw [hpol, if_pos hr]
  unfold State.modPol
  rw [hpol, ← hf]

/-! ### An update of presented time -/

/-- `TIM_STAT` as an update leaves it. -/
def timeMarked (now : Nat) (p : Polder) : Polder := fputB (fput p F.TIM_STAT_QUAL (qualityAt p now)) F.TIM_STAT_SLEW (corrNow now p != 0)

/-- Behind the step of presented time, where one is due. -/
def timeStepped (now : Nat) (b : Option Nat) (p : Polder) : Polder := if stepDue now (b.getD (qualityAt p now)) p then stepCorr now p else p

theorem timeUpdate_eq (now : Nat) (b : Option Nat) (p : Polder) : timeUpdate now b p =
    if quality p = 3 ∧ qualityAt (timeStepped now b p) now ≠ 3 then timNote now F.TIM_EVT_QUAL_DOWN 0 (timeMarked now (timeStepped now b p))
    else timeMarked now (timeStepped now b p) := rfl

theorem timeStepped_of_not_due {now : Nat} {b : Option Nat} {p : Polder} (h : stepDue now (b.getD (qualityAt p now)) p = false) :
    timeStepped now b p = p := by
  unfold timeStepped
  rw [h]
  rfl

theorem qualityAt_le (p : Polder) (now : Nat) : qualityAt p now ≤ 3 := by
  unfold qualityAt
  dsimp only
  split_ifs <;> first | omega | skip
  split
  · split <;> omega
  · omega

/-- The fields that an update of presented time writes. -/
def timeUpdateFlds : List Fld := [F.TIM_STAT_QUAL, F.TIM_STAT_SLEW, F.TIM_EVT_STEP, F.TIM_EVT_QUAL_DOWN] ++ logFlds

theorem spares_timeMarked (now : Nat) (p : Polder) : Spares [F.TIM_STAT_QUAL, F.TIM_STAT_SLEW] p (timeMarked now p) :=
  (spares_fput p _ (.head _)).trans (spares_fputB _ _ (.tail _ (.head _)))

theorem spares_stepCorr (now : Nat) (p : Polder) : Spares (F.TIM_EVT_STEP :: logFlds) p (stepCorr now p) := by
  unfold stepCorr
  refine Spares.trans ?_ (spares_timNote now F.TIM_EVT_STEP _ _)
  exact spares_of_regs rfl

theorem spares_timeStepped (now : Nat) (b : Option Nat) (p : Polder) : Spares timeUpdateFlds p (timeStepped now b p) :=
  spares_ite ((spares_stepCorr now p).mono (by decide)) (.refl p)

theorem spares_timeUpdate (now : Nat) (b : Option Nat) (p : Polder) : Spares timeUpdateFlds p (timeUpdate now b p) := by
  have hm := (spares_timeStepped now b p).trans ((spares_timeMarked now _).mono (m := timeUpdateFlds) (by decide))
  rw [timeUpdate_eq]
  exact spares_ite (hm.trans ((spares_timNote now F.TIM_EVT_QUAL_DOWN 0 _).mono (by decide))) hm

theorem timeStepped_tim (now : Nat) (b : Option Nat) (p : Polder) :
    ∃ c a k, (timeStepped now b p).tim = { p.tim with corr := c, corrAt := a, stepCyc := k } := by
  unfold timeStepped
  split
  · exact ⟨_, _, _, timNote_tim ..⟩
  · exact ⟨_, _, _, rfl⟩

theorem timeStepped_clk (now : Nat) (b : Option Nat) (p : Polder) : (timeStepped now b p).clk = p.clk := by
  unfold timeStepped
  split
  · exact timNote_clk ..
  · rfl

/-- The end of an update, behind the step, leaves the state of the time unit. -/
theorem timeUpdate_tim_stepped (now : Nat) (b : Option Nat) (p : Polder) : (timeUpdate now b p).tim = (timeStepped now b p).tim := by
  rw [timeUpdate_eq]
  split
  · exact timNote_tim ..
  · rfl

/-- Of the state of the time unit, an update changes C and the cycle of its step alone. -/
theorem timeUpdate_tim (now : Nat) (b : Option Nat) (p : Polder) :
    ∃ c a k, (timeUpdate now b p).tim = { p.tim with corr := c, corrAt := a, stepCyc := k } := by
  rw [timeUpdate_tim_stepped]
  exact timeStepped_tim now b p

@[simp] theorem timeUpdate_clk (now : Nat) (b : Option Nat) (p : Polder) : (timeUpdate now b p).clk = p.clk := by
  refine Eq.trans ?_ (timeStepped_clk now b p)
  rw [timeUpdate_eq]
  split
  · exact timNote_clk ..
  · rfl

/-- Where no step is due, an update leaves presented time as it runs. -/
theorem timeSame_timeUpdate {now : Nat} {b : Option Nat} {p : Polder} (h : stepDue now (b.getD (qualityAt p now)) p = false) :
    TimeSame p (timeUpdate now b p) := by
  refine timeSame_of_spares ?_ (spares_timeUpdate now b p) (by decide)
  rw [timeUpdate_tim_stepped, timeStepped_of_not_due h]

theorem quality_timeUpdate {now : Nat} {b : Option Nat} {p : Polder} (h : stepDue now (b.getD (qualityAt p now)) p = false) :
    quality (timeUpdate now b p) = qualityAt p now := by
  have hm : quality (timeMarked now p) = qualityAt p now := by
    have h1 : quality (timeMarked now p) = qualityAt p now % 4 :=
      (fget_fput_bits _ _ (by decide)).trans (fget_fput_self p F.TIM_STAT_QUAL _ (by decide))
    have := qualityAt_le p now
    omega
  rw [timeUpdate_eq, timeStepped_of_not_due h]
  split
  · exact ((spares_timNote now F.TIM_EVT_QUAL_DOWN 0 _).fget (by decide)).trans hm
  · exact hm

theorem slew_timeUpdate {now : Nat} {b : Option Nat} {p : Polder} (h : stepDue now (b.getD (qualityAt p now)) p = false) (hc : corrNow now p = 0) :
    fbit (timeUpdate now b p) F.TIM_STAT_SLEW = false := by
  have hm : fbit (timeMarked now p) F.TIM_STAT_SLEW = false := by
    unfold timeMarked fputB fbit
    rw [hc, fget_fput_self _ _ _ (by decide)]
    rfl
  rw [timeUpdate_eq, timeStepped_of_not_due h]
  split
  · exact ((spares_timNote now F.TIM_EVT_QUAL_DOWN 0 _).fbit (by decide)).trans hm
  · exact hm

theorem stepDue_of_corr_zero {now q : Nat} {p : Polder} (h : corrNow now p = 0) : stepDue now q p = false := by
  have hlt : ¬((rdN p A.TIM_STEPTHR * ns : Nat) : Int) < absI 0 := by
    show ¬_ < (0 : Int)
    omega
  unfold stepDue
  rw [h, decide_eq_false hlt, Bool.and_false]

end Sys2Proof.Machine
end

section
/-! SUPPORT. The commands of clocks and time (O45). -/
namespace Sys2Proof.Machine
open Sys2Proof

/-! ### SET_TIME (R386, R393) -/

section
variable {p : Polder} {now : Nat} {x : Int}

/-- The time unit as SET_TIME sets it. -/
def timeSet (now : Nat) (x : Int) (p : Polder) : Polder :=
  let l := tblAt p.tim now
  let d := x - activeAt p l
  let carry := fun (n : Nat) (b : BaseState) =>
    { b with val := baseAt b (rdI p (A.TIM_RATE n)) l + (if fget p F.TIM_STAT_ACT = n then d else 0), atTbl := l + d }
  modTim (fun t =>
    { t with
      tbl := l + d
      tblAt := now
      tb0 := carry 0 t.tb0
      tb1 := carry 1 t.tb1
      corr := 0
      corrAt := l + d
      everSet := true
      stepCyc := some ((l + d) / (cyc : Nat))
      strobes := t.strobes.map (fun e => (e.1, e.2 + d)) }) p

theorem setTime_eq (now : Nat) (x : Int) (p : Polder) : setTime now x p =
    timeUpdate now none (timNote now F.TIM_EVT_STEP ((x - presented p now) / (ns : Nat)) (timeSet now x p)) := rfl

theorem tblAt_timeSet (now : Nat) (x : Int) (p : Polder) :
    tblAt (timeSet now x p).tim now = tblAt p.tim now + (x - activeAt p (tblAt p.tim now)) := by
  show _ + (((now - now) * _ / _ : Nat) : Int) = _
  rw [Nat.sub_self, Nat.zero_mul, Nat.zero_div]
  exact Int.add_zero _

theorem corrNow_timeSet (now : Nat) (x : Int) (p : Polder) : corrNow now (timeSet now x p) = 0 := by
  unfold corrNow
  rw [tblAt_timeSet]
  exact corrAt_at_set (timeSet now x p)

theorem baseAt_at_set (b : BaseState) (r : Int) : baseAt b r b.atTbl = b.val := by
  unfold baseAt
  simp

theorem activeAt_of_act0 (h : fget p F.TIM_STAT_ACT = 0) (y : Int) : activeAt p y = tb0At p y := by
  unfold activeAt
  rw [h]
  rfl

theorem activeAt_of_act1 (h : fget p F.TIM_STAT_ACT = 1) (y : Int) : activeAt p y = tb1At p y := by
  unfold activeAt
  rw [h]
  rfl

theorem activeAt_of_free (h0 : fget p F.TIM_STAT_ACT ≠ 0) (h1 : fget p F.TIM_STAT_ACT ≠ 1) (y : Int) : activeAt p y = y := by
  unfold activeAt
  split
  next h => exact absurd h h0
  next h => exact absurd h h1
  next => rfl

/-- Whichever base is active, it stands at the time set. -/
theorem activeAt_timeSet (now : Nat) (x : Int) (p : Polder) : activeAt (timeSet now x p) (tblAt (timeSet now x p).tim now) = x := by
  have hact : fget (timeSet now x p) F.TIM_STAT_ACT = fget p F.TIM_STAT_ACT := rfl
  rw [tblAt_timeSet]
  by_cases h0 : fget p F.TIM_STAT_ACT = 0
  · rw [activeAt_of_act0 (hact.trans h0)]
    refine (baseAt_at_set (timeSet now x p).tim.tb0 _).trans ?_
    show tb0At p (tblAt p.tim now) + (if fget p F.TIM_STAT_ACT = 0 then x - activeAt p (tblAt p.tim now) else 0) = x
    rw [if_pos h0, activeAt_of_act0 h0]
    omega
  · by_cases h1 : fget p F.TIM_STAT_ACT = 1
    · rw [activeAt_of_act1 (hact.trans h1)]
      refine (baseAt_at_set (timeSet now x p).tim.tb1 _).trans ?_
      show tb1At p (tblAt p.tim now) + (if fget p F.TIM_STAT_ACT = 1 then x - activeAt p (tblAt p.tim now) else 0) = x
      rw [if_pos h1, activeAt_of_act1 h1]
      omega
    · rw [activeAt_of_free (fun h => h0 (hact.symm.trans h)) (fun h => h1 (hact.symm.trans h)), activeAt_of_free h0 h1]
      omega

theorem presented_timeSet (hp : onPll p = true) : presented (timeSet now x p) now = x := by
  have ho : onPll (timeSet now x p) = true := hp
  unfold presented
  dsimp only
  rw [ho, if_pos rfl, activeAt_timeSet]
  have hc : corrAt (timeSet now x p) (tblAt (timeSet now x p).tim now) = 0 := corrNow_timeSet now x p
  omega

theorem presented_setTime (hp : onPll p = true) : presented (setTime now x p) now = x := by
  have h1 := timeSame_timNote now (f := F.TIM_EVT_STEP) ((x - presented p now) / (ns : Nat)) (timeSet now x p) (by decide)
  have hc := (h1.corrNow now).trans (corrNow_timeSet now x p)
  rw [setTime_eq, (timeSame_timeUpdate (stepDue_of_corr_zero hc)).presented, h1.presented, presented_timeSet hp]

end

/-! ### The commands -/

/-- A command that answers with registers once its entries are committed. -/
theorem cSetClock_of_sluiceTakes {now n : Nat} {c : Cmd} {p : Polder} {l : List Item} (k : Nat × Nat)
    (hf : 10000000 ≤ u32At c.payload 0 ∧ u32At c.payload 0 ≤ 50000000) (ht : -500000 ≤ i32At c.payload 4 ∧ i32At c.payload 4 ≤ 500000)
    (hk : k = clkCodes (u32At c.payload 0) (i32At c.payload 4) ((byteAt c.payload 8).testBit 1))
    (hl : l = (if k.1 = fget p F.CLK_CFG_NINT ∧ byteAt c.payload 8 % 2 = fget p F.CLK_CFG_SEARCH then []
        else [part F.CLK_CFG_SEARCH (byteAt c.payload 8 % 2), part F.CLK_CFG_NINT k.1]) ++
      (if k.2 = fget p F.CLK_FRAC_FRAC then [] else [part F.CLK_FRAC_FRAC k.2]) ++
      (if u32At c.payload 0 = rdN p A.CLK_FREF then [] else [whole A.CLK_FREF (u32At c.payload 0)])) (h : p.admits now l n) :
    cSetClock now c p = answer (p.committed now c.sess n (entriesOf l)) Op.setClock c
      (okWith (wBytes (rd (p.committed now c.sess n (entriesOf l)) A.CLK_CFG) ++ wBytes (rd (p.committed now c.sess n (entriesOf l)) A.CLK_FRAC))) := by
  obtain ⟨hfit, htk⟩ := h
  unfold cSetClock
  dsimp only
  rw [← hk, ← hl, if_neg (by rw [hfit]; simp; omega), sluBasic_of_sluiceTakes c.sess none htk]
  rfl

theorem cSetTime_taken {now : Nat} {c : Cmd} {p : Polder} (hn : u32At c.payload 6 ≤ 999999999)
    (ht : timeOk c (u48At c.payload 0) (u32At c.payload 6) = true) (hq : qualityAt p now ≤ 1) :
    cSetTime now c p = answer (setTime now (fsOf (u48At c.payload 0) (u32At c.payload 6)) p) Op.setTime c
      (okWith (wBytes (rd (setTime now (fsOf (u48At c.payload 0) (u32At c.payload 6)) p) A.TIM_STAT))) := by
  unfold cSetTime
  dsimp only
  rw [ht, if_neg (by simp; omega), if_neg (by omega)]

theorem cSetTime_refused {now : Nat} {c : Cmd} {p : Polder} (hn : u32At c.payload 6 ≤ 999999999)
    (ht : timeOk c (u48At c.payload 0) (u32At c.payload 6) = true) (hq : 1 < qualityAt p now) :
    cSetTime now c p = answer p Op.setTime c (bare Status.state) := by
  unfold cSetTime
  dsimp only
  rw [ht, if_neg (by simp; omega), if_pos hq]

/-- Settles O45: the settings go through the rule for setting commands, and SET_TIME sets the active base and C. -/
theorem clockAndTimeCommandsComplete : Obligations.ClockAndTimeCommandsComplete := by
  unfold Obligations.ClockAndTimeCommandsComplete
  intro s t i c b now p hb hn hp
  subst hb hn hp
  refine ⟨fun l n x k h hf ht hk hl ha hx => ?_, fun h => ⟨_, ?_, ?_, answers_of_onCommand (f := fun now => cGetClock s.part now c) rfl h rfl⟩,
    fun h => ?_, fun h => ⟨_, ?_, ?_, ?_, answers_of_onCommand (f := fun now => cGetTime s.part now c) rfl h rfl⟩, fun h h0 h1 => ?_,
    fun h h0 h1 h2 h3 => ⟨_, presented_setTime h3, ?_⟩, fun h h0 h1 h2 => ?_⟩
  · subst hx
    exact does_of_onCommand (f := fun now => cSetClock now c) rfl h (cSetClock_of_sluiceTakes k hf ht hk hl ha)
  · rfl
  · rfl
  · exact commits_of_setCmd (f := fun now => cSetTimeSources now c) rfl h rfl rfl
  · simp only [List.length_append, length_regBytes, length_leBytes, gmBytes, List.length_reverse, length_wBytes, List.length_cons, List.length_nil]
  · rfl
  · rfl
  · exact commits_of_setCmd (f := fun now => cSetPps now c) rfl h rfl (within_of_forall (by simp; omega))
  · exact does_of_onCommand (f := fun now => cSetTime now c) rfl h (cSetTime_taken h0 h1 h2)
  · exact answers_of_onCommand (f := fun now => cSetTime now c) rfl h (cSetTime_refused h0 h1 h2)

end Sys2Proof.Machine
end

section
/-! SUPPORT. The clock generator: what a loss of lock, a lock and an attempt write (R371, R374, R376). -/
namespace Sys2Proof.Machine
open Sys2Proof

/-! ### Aborted sluices -/

/-- The fields that the abort of a sluice writes. -/
def sluAbortFlds : List Fld := [F.STS_EVT_CONFLICT, F.STS_EVT_ABORT, regFld A.STS_ABORTS] ++ logFlds

theorem sluClose_shape (n reason : Nat) (tell : Bool) (st : Option Nat) (x : Int) (p : Polder) :
    ∃ y o, sluClose n reason tell st x p = { p with sts := y, out := o } := by
  have h2 : ∃ y o, (if tell then notifySluice (slu p n).owner n reason (slu p n).entries.length x (setSlu p n { reason := reason })
      else setSlu p n { reason := reason }) = { p with sts := y, out := o } := by
    split
    · exact ⟨_, _, rfl⟩
    · exact ⟨_, _, rfl⟩
  obtain ⟨y, o, h2⟩ := h2
  unfold sluClose
  dsimp only
  rw [h2]
  split
  · exact ⟨_, _, rfl⟩
  · exact ⟨_, _, rfl⟩

/-- An abort changes registers, the log, the store, the sluices and what is handed over. -/
theorem sluAbort_shape (now n reason : Nat) (asked : Bool) (p : Polder) :
    ∃ q y o, sluAbort now n reason asked p = { q with sts := y, out := o } ∧ Spares sluAbortFlds p q ∧ q.clk = p.clk ∧ q.tim = p.tim := by
  unfold sluAbort
  extract_lets x p0 p1
  have h0 : Spares sluAbortFlds p p0 := (spares_logRec _ _ _ _ _ _).mono (by decide)
  have h1 : Spares sluAbortFlds p p1 := ((h0.trans (spares_addSat _ 1 (by decide))).trans (spares_evt _ (by decide))).trans (spares_evtIf _ _ (by decide))
  have hc : p1.clk = p.clk := by
    have : p1.clk = p0.clk := by
      show (evtIf _ _ _).clk = _
      unfold evtIf
      split <;> rfl
    exact this.trans (logRec_clk ..)
  have ht : p1.tim = p.tim := by
    have : p1.tim = p0.tim := by
      show (evtIf _ _ _).tim = _
      unfold evtIf
      split <;> rfl
    exact this.trans (logRec_tim ..)
  split
  · exact ⟨p, p.sts, p.out, rfl, .refl p, rfl, rfl⟩
  · obtain ⟨y, o, h⟩ := sluClose_shape n reason (x.timed || !asked) (some (rsnStatus reason)) (presented p1 now) p1
    exact ⟨p1, y, o, h, h1, hc, ht⟩

theorem spares_sluAbort (now n reason : Nat) (asked : Bool) (p : Polder) : Spares sluAbortFlds p (sluAbort now n reason asked p) := by
  obtain ⟨q, y, o, h, hs, -, -⟩ := sluAbort_shape now n reason asked p
  rw [h]
  exact hs.trans (spares_of_regs rfl)

theorem sluAbort_clk (now n reason : Nat) (asked : Bool) (p : Polder) : (sluAbort now n reason asked p).clk = p.clk := by
  obtain ⟨q, y, o, h, -, hc, -⟩ := sluAbort_shape now n reason asked p
  rw [h]
  exact hc

theorem spares_sluAbortAll (now reason : Nat) (p : Polder) : Spares sluAbortFlds p (sluAbortAll now reason p) :=
  spares_foldl _ _ p fun q n _ => spares_ite (spares_sluAbort now n reason false q) (.refl q)

theorem sluAbortAll_clk (now reason : Nat) (p : Polder) : (sluAbortAll now reason p).clk = p.clk := by
  unfold sluAbortAll sluAbortWhere
  generalize List.range 8 = l
  induction l generalizing p with
  | nil => rfl
  | cons n l ih =>
    rw [List.foldl_cons, ih]
    split
    · exact sluAbort_clk ..
    · rfl

/-! ### Records of the clock generator -/

theorem spares_clkNote (now : Nat) (f : Fld) (p : Polder) : Spares (f :: logFlds) p (clkNote now f p) :=
  (spares_evt p (.head _)).trans ((spares_logRec _ _ _ _ _ _).mono fun _ h => .tail _ h)

@[simp] theorem clkNote_clk (now : Nat) (f : Fld) (p : Polder) : (clkNote now f p).clk = p.clk := (logRec_clk ..).trans rfl

theorem fbit_clkNote_self (now : Nat) {f : Fld} (p : Polder) (ho : apartAll [f] logFlds = true) (hw : f.hi = f.lo) (h : f.hi < 32) :
    fbit (clkNote now f p) f = true :=
  ((spares_logRec _ _ _ _ _ _).fbit ho).trans (fbit_evt_self' p h hw)

/-! ### A loss of lock -/

theorem rdN_addSat (p : Polder) (o k : Nat) : rdN (addSat p o k) o = min 4294967295 (rdN p o + k) := by
  unfold addSat rdN satAdd wordN
  rw [rd_wr_self, BitVec.toNat_ofNat]
  omega

section
variable (now : Nat) (keep : Bool) (p : Polder)

/-- `CLK_STAT` as a loss of lock leaves it. -/
def clockDropped : Polder :=
  let p2 := fputB (fput (fput (fput p F.CLK_STAT_LOCK 0) F.CLK_STAT_SRC 1) F.CLK_STAT_STATE 4) F.CLK_STAT_REFOK (keep && fbit p F.CLK_STAT_REFOK)
  if fbit p F.CLK_STAT_LOCK then fput p2 F.CLK_STAT_TRIES 0 else p2

/-- The fields that a loss of lock writes beside `CLK_STAT`. -/
def clockLossFlds : List Fld := regFld A.CLK_LOSSES :: (sluAbortFlds ++ timeUpdateFlds)

theorem spares_clockLoss : Spares clockLossFlds (clockDropped keep p) (clockLoss now keep p) := by
  unfold clockLoss
  extract_lets wasLocked p1 p2 p3 p4 p5
  have h4 : Spares clockLossFlds (clockDropped keep p) p4 := (spares_addSat (clockDropped keep p) 1 (.head _)).trans (spares_of_regs rfl)
  have h5 : Spares clockLossFlds p4 p5 := spares_of_regs rfl
  exact ((h4.trans h5).trans ((spares_sluAbortAll now _ p5).mono (by decide))).trans ((spares_timeUpdate now none _).mono (by decide))

theorem spares_refok_clockDropped (f : Fld) (hf : f ∈ [F.CLK_STAT_LOCK, F.CLK_STAT_SRC, F.CLK_STAT_STATE, F.CLK_STAT_REFOK]) :
    fget (clockDropped keep p) f =
      fget (fputB (fput (fput (fput p F.CLK_STAT_LOCK 0) F.CLK_STAT_SRC 1) F.CLK_STAT_STATE 4) F.CLK_STAT_REFOK (keep && fbit p F.CLK_STAT_REFOK)) f := by
  unfold clockDropped
  dsimp only
  split
  · refine (spares_fput (l := [F.CLK_STAT_TRIES]) _ 0 (.head _)) f ?_
    have : apartAll [F.CLK_STAT_LOCK, F.CLK_STAT_SRC, F.CLK_STAT_STATE, F.CLK_STAT_REFOK] [F.CLK_STAT_TRIES] = true := by decide
    exact (apartAll_iff _ _).mp this f hf
  · rfl

theorem lock_clockDropped : fget (clockDropped keep p) F.CLK_STAT_LOCK = 0 := by
  rw [spares_refok_clockDropped _ _ _ (by decide)]
  simp (disch := decide) only [fputB, fget_fput_bits, fget_fput_self, Nat.zero_mod]

theorem src_clockDropped : fget (clockDropped keep p) F.CLK_STAT_SRC = 1 := by
  rw [spares_refok_clockDropped _ _ _ (by decide)]
  simp (disch := decide) only [fputB, fget_fput_bits, fget_fput_self]
  rfl

theorem state_clockDropped : fget (clockDropped keep p) F.CLK_STAT_STATE = 4 := by
  rw [spares_refok_clockDropped _ _ _ (by decide)]
  simp (disch := decide) only [fputB, fget_fput_bits, fget_fput_self]
  rfl

theorem refok_clockDropped : fget (clockDropped false p) F.CLK_STAT_REFOK = 0 := by
  rw [spares_refok_clockDropped _ _ _ (by decide)]
  exact fget_fput_self _ F.CLK_STAT_REFOK 0 (by decide)

theorem losses_clockLoss : rdN (clockLoss now keep p) A.CLK_LOSSES = min 4294967295 (rdN p A.CLK_LOSSES + 1) := by
  have hd : rd (clockDropped keep p) A.CLK_LOSSES = rd p A.CLK_LOSSES := by
    refine Spares.rd (l := [F.CLK_STAT_LOCK, F.CLK_STAT_SRC, F.CLK_STAT_STATE, F.CLK_STAT_REFOK, F.CLK_STAT_TRIES]) ?_ (by decide)
    have h2 := (((spares_fput (f := F.CLK_STAT_LOCK) (l := [F.CLK_STAT_LOCK, F.CLK_STAT_SRC, F.CLK_STAT_STATE, F.CLK_STAT_REFOK, F.CLK_STAT_TRIES]) p 0 (by decide)).trans
      (spares_fput (f := F.CLK_STAT_SRC) _ 1 (by decide))).trans (spares_fput (f := F.CLK_STAT_STATE) _ 4 (by decide))).trans
      (spares_fputB (f := F.CLK_STAT_REFOK) _ (keep && fbit p F.CLK_STAT_REFOK) (by decide))
    exact spares_ite (h2.trans (spares_fput (f := F.CLK_STAT_TRIES) _ 0 (by decide))) h2
  have h4 : rdN (addSat (clockDropped keep p) A.CLK_LOSSES 1) A.CLK_LOSSES = min 4294967295 (rdN p A.CLK_LOSSES + 1) := by
    rw [rdN_addSat]
    unfold rdN
    rw [hd]
  refine Eq.trans ?_ h4
  unfold clockLoss
  extract_lets wasLocked p1 p2 p3 p4 p5
  exact congrArg BitVec.toNat ((((spares_sluAbortAll now _ p5).mono (m := sluAbortFlds ++ timeUpdateFlds) (by decide)).trans
    ((spares_timeUpdate now none _).mono (by decide))).rd (by decide))

/-- What every loss of lock that the generator finds leaves behind. -/
theorem clkNote_clockLoss {f : Fld} (hf : f = F.CLK_EVT_REFLOSS ∨ f = F.CLK_EVT_UNLOCK) :
    fbit (clkNote now f (clockLoss now false p)) f = true ∧ fget (clkNote now f (clockLoss now false p)) F.CLK_STAT_SRC = 1 ∧
      fget (clkNote now f (clockLoss now false p)) F.CLK_STAT_STATE = 4 ∧ fbit (clkNote now f (clockLoss now false p)) F.CLK_STAT_LOCK = false ∧
      fbit (clkNote now f (clockLoss now false p)) F.CLK_STAT_REFOK = false ∧
      rdN (clkNote now f (clockLoss now false p)) A.CLK_LOSSES = min 4294967295 (rdN p A.CLK_LOSSES + 1) := by
  have hn : Spares ([F.CLK_EVT_REFLOSS, F.CLK_EVT_UNLOCK] ++ logFlds) (clockLoss now false p) (clkNote now f (clockLoss now false p)) :=
    (spares_clkNote now f _).mono (by
      obtain rfl | rfl := hf
      · decide
      · decide)
  have hk : ∀ g, apartAll [g] ([F.CLK_EVT_REFLOSS, F.CLK_EVT_UNLOCK] ++ logFlds) = true → apartAll [g] clockLossFlds = true →
      fget (clkNote now f (clockLoss now false p)) g = fget (clockDropped false p) g := fun g h1 h2 =>
    (hn.fget h1).trans ((spares_clockLoss now false p).fget h2)
  refine ⟨?_, (hk _ (by decide) (by decide)).trans (src_clockDropped false p), (hk _ (by decide) (by decide)).trans (state_clockDropped false p),
    ?_, ?_, ?_⟩
  · obtain rfl | rfl := hf
    · exact fbit_clkNote_self now _ (by decide) rfl (by decide)
    · exact fbit_clkNote_self now _ (by decide) rfl (by decide)
  · unfold fbit
    rw [hk _ (by decide) (by decide), lock_clockDropped]
    rfl
  · unfold fbit
    rw [hk _ (by decide) (by decide), refok_clockDropped]
    rfl
  · unfold rdN
    rw [hn.rd (by decide)]
    exact losses_clockLoss now false p

end

/-! ### Attempts and locks -/

section
variable {now : Nat} {p : Polder}

/-- An attempt runs with the stored band or searches. -/
theorem state_lockAttempt (now : Nat) (p : Polder) : fget (lockAttempt now p) F.CLK_STAT_STATE =
    if !fbit p F.CLK_CFG_SEARCH && bandValid now p && decide (p.clk.storedTries < 3) then 1 else 2 := by
  unfold lockAttempt
  extract_lets p0 useStored p1
  have hu : useStored = (!fbit p F.CLK_CFG_SEARCH && bandValid now p && decide (p.clk.storedTries < 3)) := rfl
  rw [(spares_fput (l := [F.CLK_STAT_TRIES]) _ _ (.head _)).fget (by decide), fget_fput_self _ _ _ (by decide), hu]
  split <;> rfl

theorem spares_lockAttempt (now : Nat) (p : Polder) :
    Spares [F.CLK_STAT_BANDOK, F.CLK_STAT_STATE, F.CLK_STAT_TRIES] p (lockAttempt now p) := by
  unfold lockAttempt
  extract_lets p0 useStored p1
  have h0 : Spares [F.CLK_STAT_BANDOK, F.CLK_STAT_STATE, F.CLK_STAT_TRIES] p p0 := spares_fputB p _ (by decide)
  have h1 : Spares [F.CLK_STAT_BANDOK, F.CLK_STAT_STATE, F.CLK_STAT_TRIES] p p1 := h0.trans (spares_of_regs rfl)
  exact (h1.trans (spares_fput _ _ (by decide))).trans (spares_fput _ _ (by decide))

theorem since_lockAttempt (now : Nat) (p : Polder) : (lockAttempt now p).clk.since = now ∧ (lockAttempt now p).clk.temp = p.clk.temp := ⟨rfl, rfl⟩

theorem onPll_of_src {q : Polder} (h : fget q F.CLK_STAT_SRC = 0) : onPll q = true := by
  unfold onPll
  rw [h]
  rfl

/-- The registers of a lock, before what it records. -/
def lockMarked (now used : Nat) (p : Polder) : Polder :=
  wr (wr (fput (fput (fput p F.CLK_STAT_SRC 0) F.CLK_STAT_STATE 3) F.CLK_STAT_BAND used) A.CLK_LOCKUS (wordN ((now - p.clk.since) / us)))
    A.CLK_BKFREQ (wordN (365000 + (Config.backupAbove p.id).val))

theorem src_lockMarked (now used : Nat) (p : Polder) : fget (lockMarked now used p) F.CLK_STAT_SRC = 0 := by
  unfold lockMarked
  rw [fget_wr_ne _ _ _ (by decide), fget_wr_ne _ _ _ (by decide), fget_fput_bits _ _ (by decide), fget_fput_bits _ _ (by decide),
    fget_fput_self _ _ _ (by decide)]
  rfl

theorem state_lockMarked (now used : Nat) (p : Polder) : fget (lockMarked now used p) F.CLK_STAT_STATE = 3 := by
  unfold lockMarked
  rw [fget_wr_ne _ _ _ (by decide), fget_wr_ne _ _ _ (by decide), fget_fput_bits _ _ (by decide), fget_fput_self _ _ _ (by decide)]
  rfl

theorem band_lockMarked (now used : Nat) (p : Polder) : fget (lockMarked now used p) F.CLK_STAT_BAND = used % 64 := by
  unfold lockMarked
  rw [fget_wr_ne _ _ _ (by decide), fget_wr_ne _ _ _ (by decide), fget_fput_self _ _ _ (by decide)]
  rfl

/-- The fields that the records behind a lock write. -/
def lockNoteFlds : List Fld := [F.CLK_EVT_SEARCHED, F.CLK_STAT_BANDOK] ++ timeUpdateFlds

theorem spares_clkSave (now : Nat) (p : Polder) : Spares [] p (clkSave now p) := fun _ _ => by
  unfold fget clkSave
  rw [rd_nvTouch]

theorem clkSave_clk (now : Nat) (p : Polder) : (clkSave now p).clk = p.clk := by
  obtain ⟨n, h⟩ := nvTouch_shape now 2 p { p.nv.image with clock := some ⟨rd p A.CLK_CFG, rd p A.CLK_FRAC, rd p A.CLK_FREF, p.clk.stored⟩ }
  unfold clkSave
  rw [h]

/-- A lock writes the registers of `lockMarked` and calibrates from then on. -/
theorem pllLocked_spec (now band : Nat) (p : Polder) :
    ∃ used, Spares lockNoteFlds (lockMarked now used p) (pllLocked now band p) ∧ (fget p F.CLK_STAT_STATE = 2 → used = band) ∧
      (pllLocked now band p).clk.calibrating = true := by
  unfold pllLocked
  extract_lets bySearch used p1 p2 p3 p4 p5
  have h3 : Spares lockNoteFlds (lockMarked now used p) p3 := spares_of_regs rfl
  have c3 : p3.clk.calibrating = true := rfl
  have h4 : Spares lockNoteFlds (lockMarked now used p) p4 :=
    h3.trans (spares_ite ((spares_clkNote now _ p3).mono (by decide)) (.refl p3))
  have c4 : p4.clk.calibrating = true := by
    show (if bySearch then clkNote now F.CLK_EVT_SEARCHED p3 else p3).clk.calibrating = true
    split
    · rw [clkNote_clk]
      exact c3
    · exact c3
  have h5 : Spares lockNoteFlds p4 p5 := spares_ite
    ((spares_of_regs (l := lockNoteFlds) (p := p4) (q := modClk (fun c => { c with stored := some (band % 64, fget p F.CLK_CFG_NINT, c.temp) }) p4) rfl).trans
      ((spares_clkSave now _).mono (by simp))) (.refl p4)
  have c5 : p5.clk.calibrating = true := by
    show (if bySearch && !fbit p F.CLK_CFG_SEARCH then
      clkSave now (modClk (fun c => { c with stored := some (band % 64, fget p F.CLK_CFG_NINT, c.temp) }) p4) else p4).clk.calibrating = true
    split
    · rw [clkSave_clk]
      exact c4
    · exact c4
  have h6 : Spares lockNoteFlds p5 (fputB p5 F.CLK_STAT_BANDOK (bandValid now p5)) := spares_fputB p5 _ (by decide)
  refine ⟨used, ((h4.trans h5).trans h6).trans ((spares_timeUpdate now none _).mono (by decide)), fun hs => ?_, ?_⟩
  · show (if (fget p F.CLK_STAT_STATE == 2) = true then band else _) = band
    rw [hs]
    rfl
  · rw [timeUpdate_clk]
    exact c5

theorem calibrationComplete_eq (h : p.clk.calibrating = true) : calibrationComplete now p = timeUpdate now none
    ((fun p2 => if p.clk.everLocked then clkNote now F.CLK_EVT_RELOCK p2 else p2)
      (modClk (fun c => { c with calibrating := false, everLocked := true }) (fput p F.CLK_STAT_LOCK 1))) := if_pos h

end

end Sys2Proof.Machine
end

section
/-! SUPPORT. Events of the clock generator and of the time unit (O46). -/
namespace Sys2Proof.Machine
open Sys2Proof

/-! ### Domains and bases -/

section
variable {now n : Nat} {p : Polder}

theorem fget_lt (p : Polder) {f : Fld} {m : Nat} (h : 2 ^ (f.hi + 1 - f.lo) = m) : fget p f < m := h ▸ Nat.mod_lt _ (Nat.two_pow_pos _)

theorem domState_of_spares {q : Polder} {l : List Fld} (h : Spares l p q) (hl : apartAll [F.TIM_STAT_DOM0, F.TIM_STAT_DOM1] l = true) (n : Nat) :
    domState q n = domState p n := by
  have hf := (apartAll_iff _ _).mp hl
  unfold domState
  rw [h F.TIM_STAT_DOM0 (hf _ (by decide)), h F.TIM_STAT_DOM1 (hf _ (by decide))]

theorem domPort_of_spares {q : Polder} {l : List Fld} (h : Spares l p q) (hl : apartAll [F.TIM_STAT_PORT0, F.TIM_STAT_PORT1] l = true) (n : Nat) :
    domPort q n = domPort p n := by
  have hf := (apartAll_iff _ _).mp hl
  unfold domPort
  rw [h F.TIM_STAT_PORT0 (hf _ (by decide)), h F.TIM_STAT_PORT1 (hf _ (by decide))]

/-- The state of a domain as a field. -/
def domFld (n : Nat) : Fld := if n = 0 then F.TIM_STAT_DOM0 else F.TIM_STAT_DOM1

/-- The port of a domain as a field. -/
def portFld (n : Nat) : Fld := if n = 0 then F.TIM_STAT_PORT0 else F.TIM_STAT_PORT1

theorem domState_eq (p : Polder) (n : Nat) : domState p n = fget p (domFld n) := by
  unfold domState domFld
  split <;> rfl

theorem domPort_eq (p : Polder) (n : Nat) : domPort p n = fget p (portFld n) := by
  unfold domPort portFld
  split <;> rfl

theorem setDom_eq (n st : Nat) (p : Polder) : setDom n st p = fput p (domFld n) st := by
  unfold setDom domFld
  split <;> rfl

theorem setPort_eq (n v : Nat) (p : Polder) : setPort n v p = fput p (portFld n) v := by
  unfold setPort portFld
  split <;> rfl

theorem domState_setDom (st : Nat) (p : Polder) : domState (setDom n st p) n = st % 8 := by
  rw [domState_eq, setDom_eq]
  unfold domFld
  split <;> exact fget_fput_self _ _ _ (by decide)

theorem domPort_setPort (v : Nat) (p : Polder) : domPort (setPort n v p) n = v % 4 := by
  rw [domPort_eq, setPort_eq]
  unfold portFld
  split <;> exact fget_fput_self _ _ _ (by decide)

theorem spares_setBase (n : Nat) (b : BaseState) (p : Polder) {l : List Fld} : Spares l p (setBase n b p) := by
  unfold setBase
  split <;> exact spares_of_regs rfl

theorem baseOf_setBase (b : BaseState) (p : Polder) : baseOf (setBase n b p) n = b := by
  unfold baseOf setBase
  split <;> rfl

theorem baseOf_of_tim {q : Polder} (h : ∃ c a k, q.tim = { p.tim with corr := c, corrAt := a, stepCyc := k }) (n : Nat) : baseOf q n = baseOf p n := by
  obtain ⟨c, a, k, h⟩ := h
  unfold baseOf
  rw [h]

theorem baseOf_setDom (st : Nat) (p : Polder) (m : Nat) : baseOf (setDom n st p) m = baseOf p m := by
  rw [setDom_eq]
  rfl

theorem baseOf_setPort (v : Nat) (p : Polder) (m : Nat) : baseOf (setPort n v p) m = baseOf p m := by
  rw [setPort_eq]
  rfl

/-- A change of state, and the time of leaving LOCKED. -/
theorem spares_domTo (now n st : Nat) (p : Polder) : Spares [domFld n] p (domTo now n st p) := by
  unfold domTo
  dsimp only
  rw [setDom_eq]
  exact (spares_ite (spares_setBase _ _ _) (.refl p)).trans (spares_fput _ _ (.head _))

theorem domState_domTo (st : Nat) (p : Polder) : domState (domTo now n st p) n = st % 8 := domState_setDom st _

theorem domTo_of_not_locked {st : Nat} (h : domState p n ≠ 3) : domTo now n st p = setDom n st p := by
  unfold domTo
  dsimp only
  rw [if_neg fun hx => h hx.1]

/-- A change of state keeps what its domain has heard. -/
theorem lastSync_domTo (st : Nat) (p : Polder) : (baseOf (domTo now n st p) n).lastSync = (baseOf p n).lastSync := by
  unfold domTo
  dsimp only
  rw [baseOf_setDom]
  split
  · rw [baseOf_setBase]
  · rfl

end

/-! ### Choice of the active base -/

/-- The fields that the choice of the active base writes. -/
def timeSelectFlds : List Fld := [F.TIM_STAT_ACT, regFld A.TIM_SWITCHES, F.TIM_EVT_SWITCH] ++ timeUpdateFlds

section
variable {now n : Nat} {p : Polder}

theorem spares_baseSwitch (now n : Nat) (p : Polder) : Spares timeSelectFlds p (baseSwitch now n p) := by
  unfold baseSwitch
  extract_lets x was p1
  have h1 : Spares timeSelectFlds p p1 := (spares_fput p n (by decide)).trans (spares_addSat _ 1 (by decide))
  have h2 : Spares timeSelectFlds p1 (setCorr now (was - activeAt p1 x) p1) := spares_of_regs rfl
  exact (h1.trans h2).trans ((spares_timNote now F.TIM_EVT_SWITCH 0 _).mono (by decide))

theorem baseSwitch_tim (now n : Nat) (p : Polder) : ∃ c a k, (baseSwitch now n p).tim = { p.tim with corr := c, corrAt := a, stepCyc := k } :=
  ⟨_, _, _, timNote_tim ..⟩

theorem spares_timeSelect (now q : Nat) (moved : Bool) (p : Polder) : Spares timeSelectFlds p (timeSelect now q moved p) := by
  unfold timeSelect
  split
  · exact (spares_baseSwitch now _ p).trans ((spares_timeUpdate now _ _).mono (by decide))
  · exact (spares_timeUpdate now _ _).mono (by decide)

theorem timeSelect_tim (now q : Nat) (moved : Bool) (p : Polder) :
    ∃ c a k, (timeSelect now q moved p).tim = { p.tim with corr := c, corrAt := a, stepCyc := k } := by
  unfold timeSelect
  split
  next m hm =>
    obtain ⟨c, a, k, h1⟩ := baseSwitch_tim now m p
    obtain ⟨c', a', k', h2⟩ := timeUpdate_tim now (some q) (baseSwitch now m p)
    exact ⟨c', a', k', by rw [h2, h1]⟩
  next => exact timeUpdate_tim ..

theorem domState_timeSelect (q : Nat) (moved : Bool) (p : Polder) (n : Nat) : domState (timeSelect now q moved p) n = domState p n :=
  domState_of_spares (spares_timeSelect now q moved p) (by decide) n

theorem domPort_timeSelect (q : Nat) (moved : Bool) (p : Polder) (n : Nat) : domPort (timeSelect now q moved p) n = domPort p n :=
  domPort_of_spares (spares_timeSelect now q moved p) (by decide) n

theorem baseOf_timeSelect (q : Nat) (moved : Bool) (p : Polder) (n : Nat) : baseOf (timeSelect now q moved p) n = baseOf p n :=
  baseOf_of_tim (timeSelect_tim now q moved p) n

theorem newActive_lt {k : Nat} (h : newActive now p = some k) : k < 4 := by
  have ha : fget p F.TIM_STAT_ACT < 4 := fget_lt p rfl
  unfold newActive at h
  obtain ⟨-, h⟩ := Option.ite_none_left_eq_some.mp h
  rw [← Option.some.inj h]
  split_ifs <;> omega

/-- The change of the active base shows, and sets its event. -/
theorem timeTick_switch {k : Nat} (h : newActive now p = some k) :
    fget (timeTick now p) F.TIM_STAT_ACT = k ∧ fbit (timeTick now p) F.TIM_EVT_SWITCH = true := by
  have he : timeTick now p = timeUpdate now (some (qualityAt p now)) (baseSwitch now k p) := by
    unfold timeTick timeSelect
    rw [h]
  have hs := spares_timeUpdate now (some (qualityAt p now)) (baseSwitch now k p)
  rw [he, hs.fget (by decide), hs.fbit (by decide)]
  refine ⟨?_, fbit_timNote_self now 0 _ rfl rfl (by decide)⟩
  have hk := newActive_lt h
  unfold baseSwitch
  rw [(spares_timNote now F.TIM_EVT_SWITCH 0 _).fget (by decide)]
  refine ((fget_wr_ne _ F.TIM_STAT_ACT _ (by decide)).trans (fget_fput_self p F.TIM_STAT_ACT k (by decide))).trans ?_
  show k % 4 = k
  omega

theorem timeTick_of_none (h : newActive now p = none) : timeTick now p = timeUpdate now none p := by
  unfold timeTick timeSelect
  rw [h]
  rfl

/-! ### Loss of a domain -/

/-- The event of a domain that goes LOST. -/
def lostFld (n : Nat) : Fld := if n = 0 then F.TIM_EVT_DOM0_LOST else F.TIM_EVT_DOM1_LOST

/-- The fields that the loss of a domain writes. -/
def domLoseFlds (n : Nat) : List Fld := [domFld n, portFld n, lostFld n] ++ logFlds

theorem spares_domLose (now n : Nat) (p : Polder) : Spares (domLoseFlds n) p (domLose now n p) := by
  unfold domLose
  rw [setPort_eq]
  have h1 : Spares (domLoseFlds n) p (domTo now n 4 p) := (spares_domTo now n 4 p).mono (by simp [domLoseFlds])
  have h2 := h1.trans (spares_fput (l := domLoseFlds n) (domTo now n 4 p) (f := portFld n) 0 (by simp [domLoseFlds]))
  exact h2.trans ((spares_timNote now (lostFld n) 0 _).mono fun g hg => List.mem_append.mpr ((List.mem_cons.mp hg).imp (by simp +contextual) id))

theorem domState_domLose (now n : Nat) (p : Polder) : domState (domLose now n p) n = 4 := by
  unfold domLose
  have h1 : domState (setPort n 0 (domTo now n 4 p)) n = 4 := by
    rw [setPort_eq, domState_of_spares (spares_fput (l := [portFld n]) _ 0 (.head _))
      (by unfold portFld; split <;> decide), domState_domTo]
  refine (domState_of_spares (spares_timNote now _ 0 _) ?_ n).trans h1
  split <;> decide

theorem domPort_domLose (now n : Nat) (p : Polder) : domPort (domLose now n p) n = 0 := by
  unfold domLose
  refine (domPort_of_spares (spares_timNote now _ 0 _) ?_ n).trans (domPort_setPort 0 _)
  split <;> decide

theorem lost_domLose (now n : Nat) (p : Polder) : fbit (domLose now n p) (lostFld n) = true := by
  unfold domLose lostFld
  split <;> exact fbit_timNote_self now 0 _ rfl rfl (by decide)

/-- The two domains share no field. -/
theorem apart_domLoseFlds (h : n < 2) : apartAll [domFld n, portFld n, lostFld n] (domLoseFlds (1 - n)) = true := by
  match n, h with
  | 0, _ | 1, _ => decide

theorem domainLost_spec (hn : n < 2) (hs : domState p n = 2 ∨ domState p n = 3) (ht : 3 * sec ≤ now - (baseOf p n).lastHeard) :
    domState (domainLost now n p) n = 4 ∧ domPort (domainLost now n p) n = 0 ∧ fbit (domainLost now n p) (lostFld n) = true := by
  have hsil : domSilent now n p = true := by
    unfold domSilent
    rw [decide_eq_true ht]
    obtain h | h := hs <;> rw [h] <;> rfl
  have hapart := (apartAll_iff _ _).mp (apart_domLoseFlds hn)
  have hq : ∀ q, q = domLose now (1 - n) (domLose now n p) ∨ q = domLose now n p →
      domState q n = 4 ∧ domPort q n = 0 ∧ fbit q (lostFld n) = true := by
    rintro q (rfl | rfl)
    · have hk := fun f hf => spares_domLose now (1 - n) (domLose now n p) f (hapart f hf)
      have hl := lost_domLose now n p
      unfold fbit at hl ⊢
      rw [domState_eq, domPort_eq, hk _ (by simp), hk _ (by simp), hk _ (by simp), ← domState_eq, ← domPort_eq]
      exact ⟨domState_domLose now n p, domPort_domLose now n p, hl⟩
    · exact ⟨domState_domLose now n p, domPort_domLose now n p, lost_domLose now n p⟩
  unfold domainLost
  rw [if_pos hsil]
  dsimp only
  have hb : apartAll [lostFld n] timeSelectFlds = true := by
    unfold lostFld
    split <;> decide
  rw [domState_timeSelect, domPort_timeSelect, (spares_timeSelect now _ _ _).fbit hb]
  exact hq _ (by split <;> simp)

/-! ### Loss of the Hall's strobes -/

theorem domState_domLose_ne (now : Nat) {n m : Nat} (p : Polder) (hn : n < 2) (hm : m < 2) (h : n ≠ m) : domState (domLose now m p) n = domState p n := by
  obtain rfl : m = 1 - n := by omega
  rw [domState_eq, domState_eq]
  exact spares_domLose now (1 - n) p _ ((apartAll_iff _ _).mp (apart_domLoseFlds hn) _ (by simp))

/-- The domains that run go LOST. -/
def loseRunning (now : Nat) (p : Polder) (n : Nat) : Polder := if [1, 2, 3].contains (domState p n) then domLose now n p else p

theorem domState_loseRunning_self (now n : Nat) (p : Polder) (h : 1 ≤ domState p n ∧ domState p n ≤ 3) : domState (loseRunning now p n) n = 4 := by
  have hc : [1, 2, 3].contains (domState p n) = true := by
    obtain h | h | h : domState p n = 1 ∨ domState p n = 2 ∨ domState p n = 3 := by omega
    all_goals rw [h]; rfl
  unfold loseRunning
  rw [hc]
  exact domState_domLose now n p

theorem domState_loseRunning_ne (now : Nat) {n m : Nat} (p : Polder) (hn : n < 2) (hm : m < 2) (h : n ≠ m) :
    domState (loseRunning now p m) n = domState p n := by
  unfold loseRunning
  split
  · exact domState_domLose_ne now p hn hm h
  · rfl

theorem spares_loseRunning (now : Nat) (p : Polder) (n : Nat) : Spares (domLoseFlds n) p (loseRunning now p n) :=
  spares_ite (spares_domLose now n p) (.refl p)

/-- Strobes missing, before the domains follow. -/
def strobesMissing (now : Nat) (p : Polder) : Polder :=
  let p1 := fput (modTim (fun t => { t with hallGone := true }) p) F.TIM_STAT_HALLOK 0
  if p.tim.hallGone then p1 else timNote now F.TIM_EVT_HALL_LOST 0 p1

theorem hallLost_due (h : 3 * sec ≤ now - strobeSince p) :
    hallLost now p = timeSelect now (qualityAt p now) false (loseRunning now (loseRunning now (strobesMissing now p) 0) 1) := if_pos h

theorem hallLost_spec (h : 3 * sec ≤ now - strobeSince p) :
    fbit (hallLost now p) F.TIM_STAT_HALLOK = false ∧ (p.tim.hallGone = false → fbit (hallLost now p) F.TIM_EVT_HALL_LOST = true) ∧
      ∀ n < 2, 1 ≤ domState p n ∧ domState p n ≤ 3 → domState (hallLost now p) n = 4 := by
  have hs : Spares (domLoseFlds 0 ++ domLoseFlds 1 ++ timeSelectFlds) (strobesMissing now p) (hallLost now p) := by
    rw [hallLost_due h]
    exact (((spares_loseRunning now _ 0).mono (by decide)).trans ((spares_loseRunning now _ 1).mono (by decide))).trans
      ((spares_timeSelect now _ _ _).mono (by decide))
  have hm : Spares ([F.TIM_STAT_HALLOK, F.TIM_EVT_HALL_LOST] ++ logFlds) p (strobesMissing now p) := by
    have h1 : Spares ([F.TIM_STAT_HALLOK, F.TIM_EVT_HALL_LOST] ++ logFlds) p
        (fput (modTim (fun t => { t with hallGone := true }) p) F.TIM_STAT_HALLOK 0) :=
      Spares.trans (spares_of_regs (q := modTim (fun t => { t with hallGone := true }) p) rfl) (spares_fput _ 0 (by decide))
    exact spares_ite h1 (h1.trans ((spares_timNote now F.TIM_EVT_HALL_LOST 0 _).mono (by decide)))
  have hok : fbit (strobesMissing now p) F.TIM_STAT_HALLOK = false := by
    have h1 : fbit (fput (modTim (fun t => { t with hallGone := true }) p) F.TIM_STAT_HALLOK 0) F.TIM_STAT_HALLOK = false := by
      unfold fbit
      rw [fget_fput_self _ _ _ (by decide)]
      rfl
    unfold strobesMissing
    dsimp only
    split
    · exact h1
    · exact ((spares_timNote now F.TIM_EVT_HALL_LOST 0 _).fbit (by decide)).trans h1
  refine ⟨(hs.fbit (by decide)).trans hok, fun hg => (hs.fbit (by decide)).trans ?_, fun n hn hd => ?_⟩
  · unfold strobesMissing
    rw [hg]
    exact fbit_timNote_self now 0 _ rfl rfl (by decide)
  · have hd' : 1 ≤ domState (strobesMissing now p) n ∧ domState (strobesMissing now p) n ≤ 3 := by
      rw [domState_of_spares hm (by decide)]
      exact hd
    rw [hallLost_due h, domState_timeSelect]
    match n, hn with
    | 0, _ =>
      rw [domState_loseRunning_ne now _ (by omega) (by omega) (by omega)]
      exact domState_loseRunning_self now 0 _ hd'
    | 1, _ =>
      refine domState_loseRunning_self now 1 _ ?_
      rw [domState_loseRunning_ne now _ (by omega) (by omega) (by omega)]
      exact hd'

end

end Sys2Proof.Machine
end

section
/-! SUPPORT. PTP messages and the PPS pin, and the settlement of O46. -/
namespace Sys2Proof.Machine
open Sys2Proof

/-! ### SYNC_MESSAGE (R382) -/

section
variable {now n : Nat} {p : Polder}

theorem domOf_lt {num : Nat} (h : domOf p num = some n) : n < 2 := by
  have hm := List.mem_of_find?_eq_some h
  simp only [List.mem_cons, List.not_mem_nil, or_false] at hm
  omega

theorem regFld_TIM_OFS_apart (n : Nat) (h : n < 2) : ∀ g ∈ domFld n :: timeSelectFlds, g.off ≠ A.TIM_OFS n := by
  match n, h with
  | 0, _ | 1, _ => decide

/-- The states of a domain after a Sync keep what it has heard. -/
theorem lastSync_syncLock (o : Int) (p : Polder) : (baseOf (syncLock now n o p) n).lastSync = (baseOf p n).lastSync := by
  have hb : ∀ b : BaseState, b.lastSync = (baseOf p n).lastSync → (baseOf (setBase n b p) n).lastSync = (baseOf p n).lastSync := fun b h => by
    rw [baseOf_setBase]
    exact h
  unfold syncLock
  extract_lets b thr
  split
  · split
    · have hm : ∀ q : Polder, baseOf (modTim (fun t => { t with everLocked := true }) q) n = baseOf q n := fun q => rfl
      rw [hm, baseOf_setDom]
      exact hb _ rfl
    · exact hb _ rfl
  · split
    · rw [lastSync_domTo]
      exact hb _ rfl
    · exact hb _ rfl

theorem spares_syncLock (now n : Nat) (o : Int) (p : Polder) : Spares [domFld n] p (syncLock now n o p) := by
  unfold syncLock
  extract_lets b thr
  refine spares_ite (spares_ite ?_ (spares_setBase _ _ _)) ?_
  · rw [setDom_eq]
    have h1 : Spares [domFld n] p (fput (setBase n { b with good := 0, bad := 0, lockedAt := now, leftAt := none } p) (domFld n) 3) :=
      (spares_setBase _ _ _).trans (spares_fput _ _ (.head _))
    exact h1.trans (spares_of_regs rfl)
  · exact spares_ite ((spares_setBase _ _ _).trans (spares_domTo _ _ _ _)) (spares_setBase _ _ _)

/-- A Sync that its domain uses: what it has heard and the offset stand before the states and the active base follow. -/
theorem syncMessage_used {x : SyncIn} {tl : Int} (hd : domOf p x.domain = some n) (hs : domState p n = 2 ∨ domState p n = 3)
    (hg : (baseOf p n).gm = some x.gm) (hp : domPort p n = x.port + 1) (hi : -3 ≤ x.interval ∧ x.interval ≤ 0)
    (ht : hallToTbl p.tim.strobes x.rx = some tl) :
    ∃ q act o p3, syncMessage now x p = timeSelect now q act (syncLock now n o p3) ∧ (baseOf p3 n).lastSync = some now ∧
      rd p3 (A.TIM_OFS n) = wordFit (A.TIM_OFS n)
        (roundDiv (baseAt (baseOf p n) (rdI p (A.TIM_RATE n)) tl - (x.origin + ((rdN p (A.TIM_PDLY x.port) * ns : Nat) : Int))) ns) := by
  unfold syncMessage
  split
  next h => exact absurd (hd.symm.trans h) (by simp)
  next m hm =>
    obtain rfl : n = m := Option.some.inj (hd.symm.trans hm)
    extract_lets b q delay rate dt bw act c
    split
    next hno =>
      have hc : [2, 3].contains (domState p n) = true := by
        obtain h | h := hs
        all_goals rw [h]; rfl
      have hz : decide (x.interval < -3 ∨ 0 < x.interval) = false := decide_eq_false (by omega)
      rw [hc, show (b.gm != some x.gm) = false by simp [b, hg], show (domPort p n != x.port + 1) = false by simp [hp], hz] at hno
      exact absurd hno (by decide)
    next =>
      split
      next h => exact absurd (ht.symm.trans h) (by simp)
      next tl' htl =>
        obtain rfl : tl = tl' := Option.some.inj (ht.symm.trans htl)
        extract_lets ofs w big d r p1 src p2 p3
        refine ⟨q, act, w.toInt, p3, rfl, ?_, ?_⟩
        · have h2 : (baseOf p2 n).lastSync = some now := by
            rw [baseOf_setBase]
          show (baseOf (if act then setCorr now (c - d) p2 else p2) n).lastSync = some now
          split
          · exact h2
          · exact h2
        · have h1 : rd p1 (A.TIM_OFS n) = w := rd_wr_self _ _ _
          have h2 : rd p2 (A.TIM_OFS n) = w := ((spares_setBase (l := []) n _ p1).rd (by simp)).trans h1
          show rd (if act then setCorr now (c - d) p2 else p2) (A.TIM_OFS n) = w
          split
          · exact h2
          · exact h2

theorem syncMessage_spec {x : SyncIn} {tl : Int} (hd : domOf p x.domain = some n) (hs : domState p n = 2 ∨ domState p n = 3)
    (hg : (baseOf p n).gm = some x.gm) (hp : domPort p n = x.port + 1) (hi : -3 ≤ x.interval ∧ x.interval ≤ 0)
    (ht : hallToTbl p.tim.strobes x.rx = some tl) :
    (baseOf (syncMessage now x p) n).lastSync = some now ∧
      rd (syncMessage now x p) (A.TIM_OFS n) = wordFit (A.TIM_OFS n)
        (roundDiv (baseAt (baseOf p n) (rdI p (A.TIM_RATE n)) tl - (x.origin + ((rdN p (A.TIM_PDLY x.port) * ns : Nat) : Int))) ns) := by
  obtain ⟨q, act, o, p3, he, hsync, hofs⟩ := syncMessage_used (now := now) hd hs hg hp hi ht
  have hk : Spares (domFld n :: timeSelectFlds) p3 (timeSelect now q act (syncLock now n o p3)) :=
    ((spares_syncLock now n o p3).mono (by simp)).trans ((spares_timeSelect now q act _).mono fun g h => .tail _ h)
  rw [he, baseOf_timeSelect, lastSync_syncLock, hk.rd (regFld_TIM_OFS_apart n (domOf_lt hd))]
  exact ⟨hsync, hofs⟩

/-! ### ANNOUNCE_MESSAGE (R379 to R381) -/

/-- Where one port alone has announced, and its Announce is accepted, it is the best. -/
theorem bestPort_one {cmax port : Nat} {a : AnnSeen} {b : BaseState} (hport : port < 2) (ha : annValid now cmax a = true)
    (hb : ∀ k < 2, vget b.seen k none = if k = port then some a else none) : bestPort now cmax b = some (port, a) := by
  have h0 := hb 0 (by omega)
  have h1 := hb 1 (by omega)
  unfold bestPort
  dsimp only
  match port, hport with
  | 0, _ | 1, _ =>
    simp only [if_true, zero_ne_one, one_ne_zero, if_false] at h0 h1
    rw [h0, h1]
    simp only [ha, if_true]

theorem vget_vset_of_none {α : Type} {m : Nat} (v : Vector (Option α) m) {j : Nat} (x : α) (hj : j < m) (hv : ∀ k < m, vget v k none = none) :
    ∀ k < m, vget (vset v j (some x)) k none = if k = j then some x else none := by
  intro k hk
  split
  next h =>
    subst h
    exact vget_vset_self _ _ _ hj
  next h => exact (vget_vset_ne _ _ _ h).trans (hv k hk)

/-- What an Announce of an accepted grandmaster selects where its domain listens. -/
theorem domSelect_listening {port : Nat} (a : AnnSeen) (hd : domState p n = 1) (hport : port < 2) :
    domState (domSelect now n port a p) n = 2 ∧ domPort (domSelect now n port a p) n = port + 1 ∧
      (baseOf (domSelect now n port a p) n).gm = some a.gm := by
  unfold domSelect
  extract_lets b same p1 p2 src p3 p4
  have hd1 : domState p1 n = 1 := by
    show domState (setPort n (port + 1) p) n = 1
    rw [setPort_eq, domState_of_spares (spares_fput (l := [portFld n]) p _ (.head _)) (by unfold portFld; split <;> decide), hd]
  have hc : (same && [2, 3].contains (domState p n)) = false := by
    rw [hd]
    exact Bool.and_false _
  have h2 : p2 = setDom n 2 p1 := domTo_of_not_locked (by omega)
  have hp1 : domPort p1 n = port + 1 := (domPort_setPort (port + 1) p).trans (by omega)
  have hk3 : Spares [] p2 p3 := spares_setBase _ _ _
  have hs3 : domState p3 n = 2 := by
    rw [domState_of_spares hk3 (by decide), h2]
    exact domState_setDom 2 p1
  have hp3 : domPort p3 n = port + 1 := by
    rw [domPort_of_spares hk3 (by decide), h2, setDom_eq,
      domPort_of_spares (spares_fput (l := [domFld n]) p1 _ (.head _)) (by unfold domFld; split <;> decide), hp1]
  have hg3 : (baseOf p3 n).gm = some a.gm := by
    show (baseOf (setBase n _ p2) n).gm = some a.gm
    rw [baseOf_setBase]
  have hk4 : Spares [regFld A.TIM_GM0H, regFld A.TIM_GM1H, regFld A.TIM_GM0L, regFld A.TIM_GM1L] p3 p4 := by
    refine Spares.trans (spares_wr p3 _ ?_) (spares_wr _ _ ?_)
    · split <;> simp
    · split <;> simp
  have hs4 : domState p4 n = 2 := (domState_of_spares hk4 (by decide) n).trans hs3
  have hp4 : domPort p4 n = port + 1 := (domPort_of_spares hk4 (by decide) n).trans hp3
  have hg4 : (baseOf p4 n).gm = some a.gm := hg3
  rw [hc, if_neg Bool.false_ne_true]
  split
  · have hf : ∃ f, f = (if n = 0 then F.TIM_EVT_GMCHG0 else F.TIM_EVT_GMCHG1) := ⟨_, rfl⟩
    obtain ⟨f, hf⟩ := hf
    rw [← hf]
    have hk := spares_timNote now f 0 p4
    have hfa : apartAll [F.TIM_STAT_DOM0, F.TIM_STAT_DOM1] (f :: logFlds) = true ∧ apartAll [F.TIM_STAT_PORT0, F.TIM_STAT_PORT1] (f :: logFlds) = true := by
      rw [hf]
      split <;> decide
    refine ⟨(domState_of_spares hk hfa.1 n).trans hs4, (domPort_of_spares hk hfa.2 n).trans hp4, ?_⟩
    unfold baseOf
    rw [timNote_tim]
    exact hg4
  · exact ⟨hs4, hp4, hg4⟩

/-- What is kept of an Announce. -/
def seenOf (now : Nat) (x : AnnounceIn) : AnnSeen := ⟨annRank x, x.gm.toNat, x.cls.toNat, now, x.steps.toNat, x.sender.toNat⟩

/-- A domain that has seen an Announce at a port. -/
def announced (now n : Nat) (x : AnnounceIn) (p : Polder) : Polder :=
  setBase n { baseOf p n with seen := vset (baseOf p n).seen x.port (some (seenOf now x)) } p

/-- The grandmaster of the first Announce that its domain accepts is selected. -/
theorem announce_first {x : AnnounceIn} (hd : domOf p x.domain = some n) (hport : x.port < 2) (hs : domState p n = 1) (hi : x.interval = 0)
    (hv : ∀ k < 2, vget (baseOf p n).seen k none = none) (hc : x.cls.toNat ≤ fget p (F.TIM_DOMCFG_CLASSMAX n)) :
    ∃ q, announce now x p = timeSelect now q false
      (setBase n { baseOf (domSelect now n x.port (seenOf now x) (announced now n x p)) n with lastHeard := now }
        (domSelect now n x.port (seenOf now x) (announced now n x p))) := by
  have hd1 : domState (announced now n x p) n = 1 := (domState_of_spares (spares_setBase (l := []) n _ p) (by decide) n).trans hs
  have hval : annValid now (fget p (F.TIM_DOMCFG_CLASSMAX n)) (seenOf now x) = true := by
    refine decide_eq_true ⟨?_, hc⟩
    show now - now < 3 * sec
    rw [Nat.sub_self]
    decide
  have hbest : bestPort now (fget p (F.TIM_DOMCFG_CLASSMAX n)) (baseOf (announced now n x p) n) = some (x.port, seenOf now x) := by
    unfold announced
    rw [baseOf_setBase]
    exact bestPort_one hport hval (vget_vset_of_none _ _ hport hv)
  unfold announce
  split
  next h => exact absurd (hd.symm.trans h) (by simp)
  next m hm =>
    obtain rfl : n = m := Option.some.inj (hd.symm.trans hm)
    rw [if_neg (not_not.mpr hi)]
    extract_lets q b a p1 p2
    have h2 : p2 = announced now n x p := if_neg (by
      show ¬domState (announced now n x p) n = 4
      omega)
    rw [h2, hbest]
    refine ⟨q, ?_⟩
    dsimp only
    rw [if_pos (show x.gm.toNat = (seenOf now x).gm from rfl)]

theorem announce_spec {x : AnnounceIn} (hd : domOf p x.domain = some n) (hport : x.port < 2) (hs : domState p n = 1) (hi : x.interval = 0)
    (hv : ∀ k < 2, vget (baseOf p n).seen k none = none) (hc : x.cls.toNat ≤ fget p (F.TIM_DOMCFG_CLASSMAX n)) :
    domState (announce now x p) n = 2 ∧ (baseOf (announce now x p) n).gm = some x.gm.toNat ∧ domPort (announce now x p) n = x.port + 1 := by
  have hd1 : domState (announced now n x p) n = 1 := (domState_of_spares (spares_setBase (l := []) n _ p) (by decide) n).trans hs
  obtain ⟨h1, h3, h4⟩ := domSelect_listening (now := now) (seenOf now x) hd1 hport
  obtain ⟨q, he⟩ := announce_first (now := now) hd hport hs hi hv hc
  have hk : Spares [] (domSelect now n x.port (seenOf now x) (announced now n x p))
      (setBase n { baseOf (domSelect now n x.port (seenOf now x) (announced now n x p)) n with lastHeard := now }
        (domSelect now n x.port (seenOf now x) (announced now n x p))) := spares_setBase _ _ _
  rw [he, domState_timeSelect, domPort_timeSelect, baseOf_timeSelect, domState_of_spares hk (by decide), domPort_of_spares hk (by decide),
    baseOf_setBase]
  exact ⟨h1, h4, h3⟩

/-! ### PPS (R389, R390) -/

theorem ppsIn_spec (h : fbit p F.TIM_PPSCFG_DIR = false) : fbit (ppsIn now p) F.TIM_EVT_PPS_IN = true ∧
    rd (ppsIn now p) A.TIM_PPS_FR = wordN (fracOf (tdcStamp p now)) ∧ rd (ppsIn now p) A.TIM_PPS_NS = wordN (nanosOf (tdcStamp p now)) := by
  unfold ppsIn
  rw [h, if_neg Bool.false_ne_true]
  extract_lets x r e p1 fits p2
  have h2 : Spares [regFld A.TIM_PPS_ERR] p1 p2 :=
    spares_ite (spares_wr p1 _ (.head _)) (Spares.trans (spares_of_regs (q := drawn p1) rfl) (spares_wr _ _ (.head _)))
  have hn : Spares [F.TIM_EVT_PPS_IN, regFld A.PCT_LOGNEXT, regFld A.PCT_LOGNVLOST] p2 (timNote now F.TIM_EVT_PPS_IN 0 p2) := spares_timNote now _ 0 p2
  refine ⟨fbit_timNote_self now 0 p2 rfl rfl (by decide), ?_, ?_⟩
  · rw [hn.rd (by decide), h2.rd (by decide)]
    have h1 : rd p1 A.TIM_PPS_FR = rd (wr p A.TIM_PPS_FR (wordN (fracOf x))) A.TIM_PPS_FR :=
      within_wrTime (S := fun o => o ≠ A.TIM_PPS_FR) _ x (by decide) (by decide) (by decide) _ (by simp)
    rw [h1, rd_wr_self]
  · rw [hn.rd (by decide), h2.rd (by decide)]
    show rd (wr (wr (wr _ A.TIM_PPS_NS _) A.TIM_PPS_SL _) A.TIM_PPS_SH _) A.TIM_PPS_NS = _
    rw [rd_wr_ne _ _ (by decide), rd_wr_ne _ _ (by decide), rd_wr_self]

end

theorem seState_netHeard (now port : Nat) (p : Polder) : seState (netHeard now port p) = seState p := by
  have hk : Spares [regFld A.SPB_STAT] p (netHeard now port p) :=
    Spares.trans (spares_wr (l := [regFld A.SPB_STAT]) p (o := A.SPB_STAT) _ (.head _)) (spares_of_regs rfl)
  unfold seState
  rw [hk.fget (by decide)]

/-- Settles O46: each event of the clock generator and of the time unit has the effect of its rule. -/
theorem clockAndTimeEvents : Obligations.ClockAndTimeEvents := by
  unfold Obligations.ClockAndTimeEvents
  refine ⟨fun s t i now p h => ⟨?_, fun ho => ?_, fun v hr ho => ?_, fun band v hs => ?_, fun band v hs => ?_, fun hs hr ht => ?_, fun hc => ?_⟩,
    fun s t i now p h => ⟨fun x hup => ?_, fun ht => ?_, fun x p1 n tl hup hse hport h1 hd hs hg hp hi hl => ?_,
      fun x p1 n hup hse hport h1 hd hs hi hv hc => ?_, fun n hn hs ht => ?_, fun k hk => ?_, fun hn hs => ?_, fun hn hs hc => ?_,
      fun k v hk hup => ⟨?_, fun hnone => ?_⟩, fun hdir ho hq hw hp hs => ?_, fun hs => ?_, fun t0 hp ht => ?_, fun hdir => ?_⟩⟩
  · obtain ⟨he, hsrc, -, hlock, hrefok, hloss⟩ := clkNote_clockLoss now p (f := F.CLK_EVT_REFLOSS) (.inl rfl)
    exact ⟨_, does_of_onClocked (f := refclkMissing) rfl h rfl, he, hsrc, hlock, hrefok, hloss⟩
  · obtain ⟨he, hsrc, hstate, hlock, -, hloss⟩ := clkNote_clockLoss now p (f := F.CLK_EVT_UNLOCK) (.inr rfl)
    exact ⟨_, does_of_onClocked (f := unlockPll) rfl h (if_pos ho), he, hsrc, hstate, hlock, hloss⟩
  · have hcond : ¬(fbit p F.CLK_STAT_REFOK || onPll p) = true := by
      rw [hr, ho]
      decide
    refine ⟨_, does_of_onClocked (f := fun now q => refok now v q) rfl h (if_neg hcond), ?_, ?_, rfl⟩
    · rw [(spares_lockAttempt now _).fbit (by decide)]
      exact fbit_of_fget (fget_fput_self p F.CLK_STAT_REFOK 1 (by decide))
    · rw [state_lockAttempt]
      split
      · exact .inl rfl
      · exact .inr rfl
  · have hc : [1, 2].contains (fget p F.CLK_STAT_STATE) = true := by
      obtain hs | hs := hs
      all_goals rw [hs]; rfl
    obtain ⟨used, hk, hu, hcal⟩ := pllLocked_spec now band (tempSeen now v p)
    refine ⟨pllLocked now band (tempSeen now v p), does_of_onClocked (f := fun now q => pllLock now true band v q) rfl h ?_, ?_, ?_, hcal, fun h2 => ?_⟩
    · unfold pllLock
      rw [hc]
      rfl
    · refine onPll_of_src ?_
      rw [hk.fget (by decide), src_lockMarked]
    · rw [hk.fget (by decide), state_lockMarked]
    · rw [hk.fget (by decide), band_lockMarked, hu h2]
  · refine ⟨fput (tempSeen now v p) F.CLK_STAT_STATE 4, does_of_onClocked (f := fun now q => pllLock now false band v q) rfl h ?_,
      fget_fput_self _ F.CLK_STAT_STATE 4 (by decide)⟩
    unfold pllLock
    rw [hs]
    rfl
  · refine ⟨_, does_of_onClocked (f := bandSearchRetry) rfl h (if_pos ⟨hs, hr, ht⟩), ?_, rfl⟩
    rw [state_lockAttempt, show decide ((modClk (fun c => { c with storedTries := 3 }) p).clk.storedTries < 3) = false from rfl, Bool.and_false]
    rfl
  · refine ⟨_, does_of_onClocked (f := calibrationComplete) rfl h (calibrationComplete_eq hc), ?_, ?_, fun he => ?_⟩
    · rw [(spares_timeUpdate now none _).fbit (by decide)]
      have h1 : fbit (modClk (fun c => { c with calibrating := false, everLocked := true }) (fput p F.CLK_STAT_LOCK 1)) F.CLK_STAT_LOCK = true :=
        fbit_of_fget (fget_fput_self p F.CLK_STAT_LOCK 1 (by decide))
      dsimp only
      split
      · exact ((spares_clkNote now F.CLK_EVT_RELOCK _).fbit (by decide)).trans h1
      · exact h1
    · rw [timeUpdate_clk]
      dsimp only
      split
      · rw [clkNote_clk]
        rfl
      · rfl
    · rw [(spares_timeUpdate now none _).fbit (by decide), he]
      exact fbit_clkNote_self now _ (by decide) rfl (by decide)
  · refine ⟨strobe now x p, ?_, rfl, fbit_of_fget (fget_fput_self _ F.TIM_STAT_HALLOK 1 (by decide)), rfl⟩
    obtain ⟨⟨hp, ha, -⟩, rfl, rfl⟩ := h
    have he : exec (.hallTimeStrobe t i x) s = onPart t i s fun now y =>
        if awake (y.pol i) then modHall (fun h => { h with timeRef := some (x, now) }) (y.modPol i fun q => polish now (strobe now x q)) else y := if_pos hup
    unfold DoesAll
    rw [he, onPart_eq _ _ _ _ hp]
    simp only [at_pol, ha, if_true, State.modPol]
  · exact ⟨_, does_of_runs_onAwake (f := hallLost) rfl h rfl, hallLost_spec ht⟩
  · subst h1
    obtain ⟨hsync, hofs⟩ := syncMessage_spec (now := now) hd hs hg hp hi hl
    have hse' : seState (netHeard now x.port p) = Eng.run := (seState_netHeard now x.port p).trans hse
    have haw : awake (netHeard now x.port p) = true := by
      obtain ⟨⟨-, ha, -⟩, -, rfl⟩ := h
      exact ha
    exact ⟨_, doesHeard_of_onHeard (f := ifSe fun now q => syncMessage now x q) rfl hup hport h haw (if_pos hse'), hsync, hofs⟩
  · subst h1
    have hse' : seState (netHeard now x.port p) = Eng.run := (seState_netHeard now x.port p).trans hse
    have haw : awake (netHeard now x.port p) = true := by
      obtain ⟨⟨-, ha, -⟩, -, rfl⟩ := h
      exact ha
    exact ⟨_, doesHeard_of_onHeard (f := ifSe fun now q => announce now x q) rfl hup hport h haw (if_pos hse'),
      announce_spec hd hport hs hi hv hc⟩
  · have he : exec (.domainLost t i n) s = onAwake t i s fun now q => domainLost now n q := if_pos hn
    exact ⟨_, does_of_runs_onAwake (f := fun now q => domainLost now n q) he h rfl, domainLost_spec hn hs ht⟩
  · exact ⟨_, does_of_runs_onAwake (f := timeTick) rfl h rfl, timeTick_switch hk⟩
  · have hd : stepDue now ((none : Option Nat).getD (qualityAt p now)) p = false := hs
    exact ⟨_, does_of_runs_onAwake (f := timeTick) rfl h (timeTick_of_none hn), quality_timeUpdate hd, (timeSame_timeUpdate hd).presented now⟩
  · have hd : stepDue now ((none : Option Nat).getD (qualityAt p now)) p = false := hs
    exact ⟨_, does_of_runs_onAwake (f := timeTick) rfl h (timeTick_of_none hn), slew_timeUpdate hd hc⟩
  · obtain ⟨⟨hp, ha, -⟩, rfl, rfl⟩ := h
    have hpol : (portHeard (s.clock t) k (s.at' t)).pol i = netHeard (s.clock t) k (s.pol i) := by
      rw [pol_portHeard (s := s.at' t) (s.clock t) k hp (by rw [at_pol]; exact ha), at_pol]
    have haw : awake (netHeard (s.clock t) k (s.pol i)) = true := ha
    have he : exec (.peerDelayMeasurement t i k v) s = onPart t i s fun now y =>
        pdelaySend now k (if awake ((portHeard now k y).pol i) then (portHeard now k y).modPol i (fun q => polish now (peerDelay k v q))
          else (portHeard now k y).modPol i clockStood) := if_pos (by rw [hup, decide_eq_true hk]; rfl)
    unfold DoesAll
    rw [he, onPart_eq _ _ _ _ hp, hpol, if_pos haw]
    unfold State.modPol
    rw [hpol]
    rfl
  · refine ⟨_, ?_, rfl⟩
    unfold pdelaySend
    rw [hnone]
    rfl
  · refine does_of_runs_onAwake (f := ppsOutput) rfl h (if_pos ?_)
    rw [hdir, ho, decide_eq_true hq, decide_eq_true hw, hp, hs]
    rfl
  · refine does_of_runs_onAwake (f := ppsOutput) rfl h (if_neg ?_)
    rw [hs]
    simp
  · refine does_of_runs_onAwake (f := ppsPulseEnd) rfl h ?_
    unfold ppsPulseEnd
    rw [hp]
    exact if_pos ht
  · exact ⟨_, does_of_runs_onAwake (f := ppsIn) rfl h rfl, ppsIn_spec hdir⟩

end Sys2Proof.Machine
end

section
/-! SUPPORT. What the commit of settings of the swing engine writes (O13). -/
namespace Sys2Proof.Machine
open Sys2Proof

/-! ### Fields of one register joined into entries -/

/-- The entry that an item alone makes. -/
def itemEntry (x : Item) : Nat × Word × Word := (x.off, maskBits x.hi x.lo, withBits 0 x.hi x.lo (codeOf (x.hi + 1 - x.lo) x.code))

theorem joinItem_cases (l : List (Nat × Word × Word)) (x : Item) :
    joinItem l x = itemEntry x :: l ∨ ∃ e e' t, l = e :: t ∧ e.1 = x.off ∧ e'.1 = x.off ∧ joinItem l x = e' :: t := by
  unfold joinItem
  dsimp only
  split
  next o m0 v0 t =>
    split
    next h => exact .inr ⟨_, _, _, rfl, h, h, rfl⟩
    next h => exact .inl rfl
  next => exact .inl rfl

/-- Items of other registers leave the entries of a register alone. -/
theorem filter_joinItem_ne {o : Nat} (l : List (Nat × Word × Word)) {x : Item} (h : x.off ≠ o) :
    (joinItem l x).filter (·.1 == o) = l.filter (·.1 == o) := by
  obtain he | ⟨e, e', t, rfl, h1, h2, he⟩ := joinItem_cases l x
  · rw [he, List.filter_cons_of_neg (by simpa [itemEntry] using h)]
  · rw [he, List.filter_cons_of_neg (by simpa [h2] using h), List.filter_cons_of_neg (by simpa [h1] using h)]

theorem filter_foldl_joinItem_ne {o : Nat} (xs : List Item) (l : List (Nat × Word × Word)) (h : ∀ x ∈ xs, x.off ≠ o) :
    (xs.foldl joinItem l).filter (·.1 == o) = l.filter (·.1 == o) := by
  induction xs generalizing l with
  | nil => rfl
  | cons x xs ih =>
    rw [List.foldl_cons, ih _ fun y hy => h y (List.mem_cons_of_mem x hy), filter_joinItem_ne l (h x List.mem_cons_self)]

/-- The first item of a register begins an entry. -/
theorem filter_joinItem_first {l : List (Nat × Word × Word)} {x : Item} (h : l.filter (·.1 == x.off) = []) :
    (joinItem l x).filter (·.1 == x.off) = [itemEntry x] := by
  obtain he | ⟨e, e', t, rfl, h1, -, -⟩ := joinItem_cases l x
  · rw [he, List.filter_cons_of_pos (by simp [itemEntry]), h]
  · rw [List.filter_cons_of_pos (by simp [h1])] at h
    cases h

/-- An item that is alone for its register makes the one entry of it. -/
theorem filter_entriesOf {l : List Item} {x : Item} (h : (l.filter fun y => y.off == x.off) = [x]) :
    (entriesOf l).filter (·.1 == x.off) = [itemEntry x] := by
  obtain ⟨l1, l2, rfl, h1, -, h2⟩ := List.filter_eq_cons_iff.mp h
  rw [List.filter_eq_nil_iff] at h2
  have h1' : ∀ y ∈ l1, y.off ≠ x.off := fun y hy => by simpa using h1 y hy
  have h2' : ∀ y ∈ l2, y.off ≠ x.off := fun y hy => by simpa using h2 y hy
  have hnil : (l1.foldl joinItem []).filter (·.1 == x.off) = [] := filter_foldl_joinItem_ne l1 [] h1'
  unfold entriesOf
  rw [List.filter_reverse, List.foldl_append, List.foldl_cons, filter_foldl_joinItem_ne l2 _ h2', filter_joinItem_first hnil, List.reverse_singleton]

theorem off_mem_of_joinItem {l : List (Nat × Word × Word)} {x : Item} {e : Nat × Word × Word} (h : e ∈ joinItem l x) : e.1 = x.off ∨ e ∈ l := by
  obtain he | ⟨a, a', t, rfl, -, h2, he⟩ := joinItem_cases l x
  · rw [he] at h
    obtain rfl | h := List.mem_cons.mp h
    · exact .inl rfl
    · exact .inr h
  · rw [he] at h
    obtain rfl | h := List.mem_cons.mp h
    · exact .inl h2
    · exact .inr (List.mem_cons_of_mem a h)

/-- Every entry belongs to an item. -/
theorem off_mem_of_entriesOf {l : List Item} {e : Nat × Word × Word} (h : e ∈ entriesOf l) : ∃ x ∈ l, x.off = e.1 := by
  have key : ∀ (xs : List Item) (a : List (Nat × Word × Word)), e ∈ xs.foldl joinItem a → (∃ x ∈ xs, x.off = e.1) ∨ e ∈ a := by
    intro xs
    induction xs with
    | nil => exact fun a ha => .inr ha
    | cons x xs ih =>
      intro a ha
      obtain ⟨y, hy, he⟩ | ha := ih _ ha
      · exact .inl ⟨y, List.mem_cons_of_mem x hy, he⟩
      · obtain he | ha := off_mem_of_joinItem ha
        · exact .inl ⟨x, List.mem_cons_self, he.symm⟩
        · exact .inr ha
  exact (key l [] (List.mem_reverse.mp h)).resolve_right (by simp)

theorem filter_stampFrom {o : Nat} {m v : Word} (l : List (Nat × Word × Word)) (k : Nat) (h : l.filter (·.1 == o) = [(o, m, v)]) :
    ∃ j, (stampFrom k l).filter (·.off == o) = [⟨o, m, v, j⟩] := by
  have hnil : ∀ (l : List (Nat × Word × Word)) k, l.filter (·.1 == o) = [] → (stampFrom k l).filter (·.off == o) = [] := by
    intro l k hl
    rw [List.filter_eq_nil_iff] at hl ⊢
    exact fun e he => hl _ (mem_stampFrom he)
  induction l generalizing k with
  | nil => cases h
  | cons w l ih =>
    obtain ⟨o', m', v'⟩ := w
    by_cases ho : o' = o
    · subst ho
      rw [List.filter_cons_of_pos (by simp)] at h
      obtain ⟨he, hl⟩ := List.cons.inj h
      cases he
      exact ⟨k, by rw [stampFrom, List.filter_cons_of_pos (by simp), hnil l (k + 1) hl]⟩
    · rw [List.filter_cons_of_neg (by simpa using ho)] at h
      obtain ⟨j, hj⟩ := ih (k + 1) h
      exact ⟨j, by rw [stampFrom, List.filter_cons_of_neg (by simpa using ho), hj]⟩

/-! ### The stored fields -/

/-- One entry stored. -/
def storeEntry (q : Polder) (e : Entry) : Polder := match polRow e.off with
  | some (r, _) => if plainReg e.off && e.off != A.PCT_HBEAT then wr q e.off (merge (rd q e.off) (e.mask &&& storedMask r) e.val) else q
  | none => q

theorem storeEntries_eq (l : List Entry) (p : Polder) : storeEntries l p = l.foldl storeEntry p := rfl

theorem within_storeEntry {S : Nat → Prop} (q : Polder) (e : Entry) (h : S e.off) : Within S q (storeEntry q e) := by
  unfold storeEntry
  split
  · exact within_ite (within_wr q _ h) (.refl q)
  · exact .refl q

theorem within_storeEntries {S : Nat → Prop} (l : List Entry) (p : Polder) (h : ∀ e ∈ l, S e.off) : Within S p (storeEntries l p) :=
  within_foldl storeEntry l p fun q e he => within_storeEntry q e (h e he)

/-- A register that one entry names takes its bits. -/
theorem rd_storeEntries_one {l : List Entry} {p : Polder} {e : Entry} {r : RegRow} {k : Nat} (h : (l.filter fun x => x.off == e.off) = [e])
    (hr : polRow e.off = some (r, k)) (hp : plainReg e.off = true) (hb : e.off ≠ A.PCT_HBEAT) :
    rd (storeEntries l p) e.off = merge (rd p e.off) (e.mask &&& storedMask r) e.val := by
  obtain ⟨l1, l2, rfl, h1, -, h2⟩ := List.filter_eq_cons_iff.mp h
  rw [List.filter_eq_nil_iff] at h2
  have hw1 : rd (storeEntries l1 p) e.off = rd p e.off :=
    within_storeEntries (S := (· ≠ e.off)) l1 p (fun x hx => by simpa using h1 x hx) _ (by simp)
  have he : storeEntry (storeEntries l1 p) e = wr (storeEntries l1 p) e.off (merge (rd p e.off) (e.mask &&& storedMask r) e.val) := by
    unfold storeEntry
    rw [hr]
    dsimp only
    rw [hp, show (e.off != A.PCT_HBEAT) = true by simpa using hb, hw1]
    rfl
  have hw2 : rd (storeEntries l2 (storeEntry (storeEntries l1 p) e)) e.off = rd (storeEntry (storeEntries l1 p) e) e.off :=
    within_storeEntries (S := (· ≠ e.off)) l2 _ (fun x hx => by simpa using h2 x hx) _ (by simp)
  rw [storeEntries_eq, List.foldl_append, List.foldl_cons]
  exact hw2.trans (by rw [he, rd_wr_self])

/-! ### What a commit brings about elsewhere -/

/-- The settings of the swing engine that the statement is about. -/
def swingSettings (off : Nat) : Prop := 0x60010 ≤ off ∧ off < 0x600A0 ∨ off = A.SWG_ANCHOR_CTRL

/-- What a commit of such settings may change of itself: the session of the monitor, the state of publication, the log, the sluice unit. -/
def commitAside (off : Nat) : Prop :=
  off = A.PCT_MONSTAT ∨ off = A.MBX_EVT ∨ off = A.FLT_STAT ∨ off = A.STS_COMMITS ∨ off = A.STS_EVT ∨ logRegs off

/-- What stands during a commit of settings of the swing engine. -/
def commitTouched (off : Nat) : Prop := swingSettings off ∨ commitAside off

theorem within_monLock (now : Nat) (p : Polder) : Within commitAside p (monLock now p) := by
  have h1 : Within commitAside p (modMon (fun m => { m with challenge := none, admin := false }) (fput p F.PCT_MONSTAT_LEVEL 0)) :=
    (within_fput p 0 (.inl rfl)).trans fun _ _ => rfl
  unfold monLock
  exact within_ite h1 (h1.trans ((within_logRec _ _ _ _ _ _).mono fun o h => .inr (.inr (.inr (.inr (.inr h))))))

theorem within_lockAuto (m : Nat) (p : Polder) : Within commitAside p (lockAuto m p) :=
  within_ite (Within.trans (q := modEng (fun e => { e with locks := e.locks.map fun o => if o = m then 0 else o }) p) (fun _ _ => rfl)
    (within_evt _ (.inr (.inl rfl)))) (.refl p)

theorem within_monEnd (now : Nat) (p : Polder) : Within commitAside p (monEnd now p) :=
  within_ite (((within_monLock now p).trans (within_fput (f := F.PCT_MONSTAT_ACTIVE) _ 0 (.inl rfl))).trans (within_lockAuto 5 _)) (.refl p)

/-- An effect whose registers have not changed does not come about. -/
theorem onChange_of_within {S : Nat → Prop} {old p : Polder} {offs : List Nat} (f : Polder → Polder) (h : Within S old p) (hs : ∀ o ∈ offs, ¬S o) :
    onChange old offs f p = p := by
  have hn : offs.any (fun o => rd p o != rd old o) = false := by
    rw [List.any_eq_false]
    intro o ho
    simp [h o (hs o ho)]
  unfold onChange
  rw [hn]
  rfl

theorem foldl_onChange_of_within {S : Nat → Prop} {old : Polder} (l : List Nat) (off : Nat → Nat) (f : Nat → Polder → Polder) (p : Polder)
    (h : Within S old p) (hs : ∀ k ∈ l, ¬S (off k)) : l.foldl (fun q k => onChange old [off k] (f k) q) p = p := by
  induction l with
  | nil => rfl
  | cons k l ih =>
    rw [List.foldl_cons, onChange_of_within (f k) h (by simpa using hs k List.mem_cons_self)]
    exact ih fun j hj => hs j (List.mem_cons_of_mem k hj)

theorem not_commitTouched {off : Nat} (h : (off < A.SWG_ANCHOR_CTRL ∨ 0x600A0 ≤ off) ∧ off ≠ A.PCT_MONSTAT ∧ off ≠ A.MBX_EVT ∧ off ≠ A.FLT_STAT ∧
    off ≠ A.STS_COMMITS ∧ off ≠ A.STS_EVT ∧ off ≠ A.PCT_LOGNEXT ∧ off ≠ A.PCT_LOGNVLOST) : ¬commitTouched off := by
  unfold commitTouched swingSettings commitAside logRegs A.SWG_ANCHOR_CTRL at *
  omega

/-- The effects of a commit of settings of the swing engine: publication that is off stays stopped, and no session of the monitor is left open. -/
theorem within_commitFx {now : Nat} {old p : Polder} (h : Within swingSettings old p) : Within commitAside p (commitFx now old p) := by
  have ht : ∀ q, Within commitAside p q → Within commitTouched old q := fun q hq =>
    (h.mono fun _ => .inl).trans (hq.mono fun _ => .inr)
  have one : ∀ {q : Polder} (o : Nat) (f : Polder → Polder), Within commitAside p q → ¬commitTouched o → onChange old [o] f q = q := fun o f hq ho =>
    onChange_of_within f (ht _ hq) (by simpa using ho)
  have h0 := Within.refl (S := commitAside) p
  unfold commitFx
  rw [one A.AFE_CTRL afeShow h0 (not_commitTouched (by decide)), one A.AFE_TEST (testCommit old) h0 (not_commitTouched (by decide))]
  extract_lets p1 p2 p4 p5 p6 p7 p8 p9 p11 p12 p13 p14 p15 p16 p17
  have e2 : p2 = p := foldl_onChange_of_within _ A.AFE_CMP_THR (fun k => cmpMask now k) p (ht _ h0) fun k hk => by
    have hk := List.mem_range.mp hk
    match k, hk with
    | 0, _ | 1, _ | 2, _ | 3, _ | 4, _ | 5, _ => exact not_commitTouched (by decide)
  have e4 : p4 = p := by
    show [0, 1, 2, 3].foldl _ p2 = p
    rw [e2]
    refine foldl_onChange_of_within _ A.GLK_CFG (fun n => linkKick now n) p (ht _ h0) fun k hk => ?_
    simp only [List.mem_cons, List.not_mem_nil, or_false] at hk
    obtain rfl | rfl | rfl | rfl := hk <;> exact not_commitTouched (by decide)
  have e5 : p5 = p := by
    show onChange old [A.PCT_REGCFG] _ p4 = p
    rw [e4]
    exact one _ _ h0 (not_commitTouched (by decide))
  have e6 : p6 = p := by
    have hh : fget p F.FLT_CTRL_HSEL = fget old F.FLT_CTRL_HSEL := (ht _ h0).fget (not_commitTouched (by decide))
    have hm : rd p A.FLT_MAVG = rd old A.FLT_MAVG := ht _ h0 _ (not_commitTouched (by decide))
    show (if fget p5 F.FLT_CTRL_HSEL != fget old F.FLT_CTRL_HSEL || rd p5 A.FLT_MAVG != rd old A.FLT_MAVG then blockNow p5 else p5) = p
    rw [e5, hh, hm, bne_self_eq_false, bne_self_eq_false]
    rfl
  have h7 : Within commitAside p p7 := by
    show Within commitAside p (if fbit p6 F.FLT_CTRL_SV_EN then p6 else _)
    rw [e6]
    exact within_ite h0 (Within.trans (q := modLane (fun l => { l with sv := Vector.replicate 6 [] }) p) (fun _ _ => rfl)
      (within_fput _ 0 (.inr (.inr (.inl rfl)))))
  have e8 : p8 = p7 := by
    have ha : fbit p7 F.SWG_CTRL_ANCHOR_EN = fbit old F.SWG_CTRL_ANCHOR_EN := (ht _ h7).fbit (not_commitTouched (by decide))
    show (if fbit p7 F.SWG_CTRL_ANCHOR_EN && !fbit old F.SWG_CTRL_ANCHOR_EN then _ else p7) = p7
    rw [ha, Bool.and_not_self]
    rfl
  have e9 : p9 = p7 := by
    show onChange old [A.CAP_CTRL] capHold p8 = p7
    rw [e8]
    exact one _ _ h7 (not_commitTouched (by decide))
  have e11 : p11 = p7 := by
    show onChange old [A.TIM_CFG] _ p9 = p7
    rw [e9]
    exact one _ _ h7 (not_commitTouched (by decide))
  have e12 : p12 = p7 := by
    show [0, 1].foldl _ p11 = p7
    rw [e11]
    refine foldl_onChange_of_within _ A.TIM_DOMCFG (fun n => domCommit now n old) p7 (ht _ h7) fun k hk => ?_
    simp only [List.mem_cons, List.not_mem_nil, or_false] at hk
    obtain rfl | rfl := hk <;> exact not_commitTouched (by decide)
  have e13 : p13 = p7 := by
    show onChange old [A.TIM_CFG, A.TIM_GOODTHR, A.TIM_HOLDTMO, A.TIM_REVERTT, A.TIM_STEPTHR] (timeTick now) p12 = p7
    rw [e12]
    refine onChange_of_within _ (ht _ h7) fun o ho => ?_
    simp only [List.mem_cons, List.not_mem_nil, or_false] at ho
    obtain rfl | rfl | rfl | rfl | rfl := ho <;> exact not_commitTouched (by decide)
  have h14 : Within commitAside p p14 := by
    show Within commitAside p (if fbit p13 F.TIM_PPSCFG_DIR then p13 else _)
    rw [e13]
    exact within_ite h7 (h7.trans (r := modTim (fun t => { t with ppsHigh := none }) p7) fun _ _ => rfl)
  have h15 : Within commitAside p p15 := within_ite h14 (h14.trans (within_monEnd now p14))
  have e16 : p16 = p15 := by
    refine onChange_of_within _ (ht _ h15) fun o ho => ?_
    simp only [List.mem_cons, List.not_mem_nil, or_false] at ho
    obtain rfl | rfl | rfl := ho <;> exact not_commitTouched (by decide)
  have e17 : p17 = p15 := by
    show onChange old [A.SPB_CONN] _ ((List.range 8).foldl _ p16) = p15
    rw [e16, foldl_onChange_of_within (List.range 8) A.FIO_DICFG (fun k => dinRefilter now k old) p15 (ht _ h15)]
    · exact one _ _ h15 (not_commitTouched (by decide))
    · intro k hk
      have hk := List.mem_range.mp hk
      match k, hk with
      | 0, _ | 1, _ | 2, _ | 3, _ | 4, _ | 5, _ | 6, _ | 7, _ => exact not_commitTouched (by decide)
  rw [e17, one A.MOD_CTRL (auxCommit now old) h15 (not_commitTouched (by decide))]
  exact h15

/-! ### The commit -/

theorem of_swingSettings {f : Nat → Bool} {off : Nat} (h : ((List.range 148).all fun k => f (0x6000C + k)) = true) (ho : swingSettings off) : f off = true := by
  unfold swingSettings A.SWG_ANCHOR_CTRL at ho
  have hk := List.all_eq_true.mp h (off - 0x6000C) (List.mem_range.mpr (by omega))
  rwa [show 0x6000C + (off - 0x6000C) = off by omega] at hk

/-- A register that only holds its value: a write of it orders nothing. -/
def holdsOnly (off : Nat) : Bool :=
  plainReg off && !([A.PCT_HBEAT, A.PCT_REGREQ, A.EMB_CNTCLR, A.LRN_CMD, A.GAL_CMD, A.CAP_CMD, A.DIK_SWTRIP, A.DIK_CLR, A.FIO_QPOP, A.PCT_DKHREQ,
    A.FIO_DOCMD].contains off) && !isSafetyReg off

/-- A register of which staging takes some bits takes all of them. -/
def takesWhole (off : Nat) : Bool := (polRow off).all fun x => accMask x.1 [.rws, .rw, .wo] == 0 || storedMask x.1 == BitVec.allOnes 32

theorem holdsOnly_of_swing {off : Nat} (h : swingSettings off) : holdsOnly off = true := of_swingSettings (by decide +kernel) h

theorem takesWhole_of_swing {off : Nat} (h : swingSettings off) : takesWhole off = true := of_swingSettings (by decide +kernel) h

/-- An entry for a register that only holds its value orders nothing. -/
theorem entryAction_of_holdsOnly (now c : Nat) (p : Polder) {e : Entry} (h : holdsOnly e.off = true) : entryAction now c p e = p := by
  simp only [holdsOnly, plainReg, Bool.and_eq_true, Bool.not_eq_true', Option.isNone_iff_eq_none, List.contains_eq_mem, decide_eq_false_iff_not,
    List.mem_cons, List.not_mem_nil, or_false, not_or] at h
  obtain ⟨⟨⟨⟨⟨hb, -⟩, hq⟩, hl⟩, -, -, h1, h2, h3, h4, h5, h6, h7, h8, h9⟩, -⟩ := h
  unfold entryAction writeAction
  simp only [hb, hq, hl, Bool.false_eq_true, if_false, Option.isSome_none, if_neg h1, if_neg h2, if_neg h3, if_neg h4, if_neg h5, if_neg h6, if_neg h7,
    if_neg h8, if_neg h9]

theorem foldl_entryAction (now c : Nat) (p : Polder) (l : List Entry) (h : ∀ e ∈ l, holdsOnly e.off = true) : l.foldl (entryAction now c) p = p := by
  induction l with
  | nil => rfl
  | cons e l ih =>
    rw [List.foldl_cons, entryAction_of_holdsOnly now c p (h e List.mem_cons_self)]
    exact ih fun g hg => h g (List.mem_cons_of_mem e hg)

theorem within_monBeaten (now c : Nat) (l : List Entry) (old p : Polder) : Within commitAside p (monBeaten now c l old p) :=
  within_foldl _ _ p fun q _ _ =>
    within_ite ((within_logRec _ _ _ _ _ q).mono fun _ h => .inr (.inr (.inr (.inr (.inr h))))) (.refl q)

theorem storeEntries_sts (p : Polder) (x : StsState) (l : List Entry) : storeEntries l { p with sts := x } = { storeEntries l p with sts := x } := by
  induction l generalizing p with
  | nil => rfl
  | cons e l ih =>
    have he : storeEntry { p with sts := x } e = { storeEntry p e with sts := x } := by
      unfold storeEntry
      split
      · split <;> rfl
      · rfl
    rw [storeEntries_eq, List.foldl_cons, he, ← storeEntries_eq, ih, storeEntries_eq, storeEntries_eq, List.foldl_cons]

theorem within_sts {S : Nat → Prop} (p : Polder) (x : StsState) : Within S p { p with sts := x } := fun _ _ => rfl

theorem slu_sluClose (n reason : Nat) (tell : Bool) (st : Option Nat) (x : Int) (p : Polder) (hn : n < 8) :
    slu (sluClose n reason tell st x p) n = { reason := reason } := by
  have h2 : (sluClose n reason tell st x p).sts = (setSlu p n { reason := reason }).sts := by
    unfold sluClose
    dsimp only
    cases tell
    all_goals
      split
      · rfl
      · rfl
  unfold slu
  rw [h2]
  exact slu_setSlu_self p _ hn

/-- An immediate commit of entries for registers that only hold their values: they are stored, and the sluice is free. -/
theorem sluCommit_of_swing {now n : Nat} {req : Option CmdRef} {p : Polder} (hn : n < 8) (hs : p.cyc.standing (now / cyc) = [])
    (h : ∀ e ∈ (slu p n).entries, swingSettings e.off) :
    Within commitAside (storeEntries (slu p n).entries p) (sluCommit now n (presented p now) req p) ∧
      slu (sluCommit now n (presented p now) req p) n = { reason := Rsn.committed } := by
  have hh : ∀ e ∈ (slu p n).entries, holdsOnly e.off = true := fun e he => holdsOnly_of_swing (h e he)
  have hno : ∀ f : Nat → Bool, (∀ off, holdsOnly off = true → f off = false) → (slu p n).entries.any (fun e => f e.off) = false := fun f hf => by
    rw [List.any_eq_false]
    intro e he
    simp [hf _ (hh e he)]
  have hreq : (slu p n).entries.any (fun e => e.off == A.PCT_REGREQ) = false := hno (· == A.PCT_REGREQ) fun off ho => by
    by_contra hb
    have hb : off = A.PCT_REGREQ := by simpa using hb
    rw [hb] at ho
    exact absurd ho (by decide)
  have hsafe : (slu p n).entries.any (fun e => isSafetyReg e.off) = false := hno isSafetyReg fun off ho => by
    simpa [holdsOnly] using (Bool.and_eq_true_iff.mp ho).2
  unfold sluCommit
  extract_lets x ago c p0 p1 p1' p2 asks waits from' p3 st
  have hago : ago = 0 := by
    show (tblAt p.tim now / (cyc : Nat) - (presented p now - (presented p now - tblAt p.tim now)) / (cyc : Nat)).toNat = 0
    rw [sub_sub_cancel, sub_self]
    rfl
  have hc : p.cyc.standing c = [] := by
    show p.cyc.standing (now / cyc - ago) = []
    rw [hago]
    exact hs
  have h0 : Within commitAside (storeEntries x.entries p) p0 := by
    have he : ceStands c x.entries p (storeEntries x.entries (setSlu p n { x with st := .free })) =
        { storeEntries x.entries p with sts := (setSlu p n { x with st := .free }).sts } := by
      unfold ceStands
      rw [hc]
      exact storeEntries_sts p _ _
    have hw : Within swingSettings p { storeEntries x.entries p with sts := (setSlu p n { x with st := .free }).sts } :=
      (within_storeEntries x.entries p h).trans fun _ _ => rfl
    show Within commitAside _ (commitFx now p (ceStands c x.entries p _))
    rw [he]
    exact (within_sts _ _).trans (within_commitFx hw)
  clear_value p0
  have h1 : Within commitAside (storeEntries x.entries p) p1 :=
    (h0.trans (within_sts p0 _)).trans (within_monBeaten now c x.entries p _)
  clear_value p1
  have e1 : p1' = p1 := by show (if x.entries.any _ then _ else p1) = p1; rw [hsafe]; rfl
  have e2 : p2 = p1 := by show x.entries.foldl _ p1' = p1; rw [e1]; exact foldl_entryAction now c p1 x.entries hh
  have e3 : p3 = p1 := by show (if asks then _ else p2) = p1; rw [show asks = false from hreq, e2]; rfl
  refine ⟨?_, slu_sluClose _ _ _ _ _ _ hn⟩
  rw [e3]
  obtain ⟨y, o, hy⟩ := sluClose_shape n Rsn.committed x.timed st (presented p now)
    (committedIn c (x.entries.map (·.off)) (evt F.STS_EVT_COMMIT (addSat p1 A.STS_COMMITS 1)))
  rw [hy]
  exact (((h1.trans (within_addSat _ 1 (.inr (.inr (.inr (.inl rfl)))))).trans
    (within_evt _ (.inr (.inr (.inr (.inr (.inl rfl)))))))).trans fun _ _ => rfl

/-! ### The words stored -/

/-- Staging takes an entry only for a register with fields that can be staged. -/
theorem entryStatus_of_staged {p : Polder} {before l : List Entry} (h : stageStatus p before l = Status.ok) :
    ∀ e ∈ l, ∃ b, entryStatus p b e = Status.ok := by
  induction l generalizing before with
  | nil => simp
  | cons e l ih =>
    have he : entryStatus p before e = Status.ok ∧ stageStatus p (before ++ [e]) l = Status.ok := by
      unfold stageStatus at h
      split at h
      next h0 => exact ⟨h0, h⟩
      next h0 => exact absurd h h0
    exact List.forall_mem_cons.mpr ⟨⟨before, he.1⟩, ih he.2⟩

theorem storedMask_of_staged {p : Polder} {b : List Entry} {e : Entry} (h : entryStatus p b e = Status.ok) (hw : takesWhole e.off = true) :
    ∃ x, polRow e.off = some x ∧ storedMask x.1 = BitVec.allOnes 32 := by
  unfold entryStatus at h
  unfold takesWhole at hw
  split at h
  next => exact absurd h (by decide)
  next r k hr =>
    rw [hr] at hw
    have h0 : accMask r [.rws, .rw, .wo] ≠ 0 := fun h0 => by
      dsimp only at h
      rw [if_pos h0] at h
      exact absurd h (by decide)
    simp only [Option.all_some, Bool.or_eq_true, beq_iff_eq] at hw
    exact ⟨(r, k), hr, hw.resolve_left h0⟩

theorem maskBits_whole : maskBits 31 0 = BitVec.allOnes 32 := by decide

theorem withBits_whole (x : Int) : withBits 0 31 0 (codeOf 32 x) = wordI x := by
  unfold withBits codeOf wordI
  rw [maskBits_whole, BitVec.not_allOnes, BitVec.and_zero, BitVec.zero_or, BitVec.and_allOnes, BitVec.shiftLeft_zero]
  refine BitVec.eq_of_toNat_eq ?_
  simp only [BitVec.toNat_ofNat, BitVec.toNat_ofInt]
  exact Nat.mod_eq_of_lt (by omega)

theorem merge_allOnes (w v : Word) : merge w (maskBits 31 0 &&& BitVec.allOnes 32) v = v := by
  unfold merge
  rw [maskBits_whole, BitVec.and_self, BitVec.not_allOnes, BitVec.and_zero, BitVec.zero_or, BitVec.and_allOnes]

/-- Settles O13: the effects of a commit leave the registers that the entries have not named, and each entry fills its register. -/
theorem committedSwingRegisters : Obligations.CommittedSwingRegisters := by
  unfold Obligations.CommittedSwingRegisters
  intro p q now sess n l ha hs hq hl hone
  obtain ⟨-, ht⟩ := ha
  obtain ⟨hfree, -, hstage, -, -, -⟩ := ht
  have hn : n < 8 := sluFree_lt hfree
  have hes : (slu (p.holding now sess n (entriesOf l)) n).entries = stampFrom p.sts.stamp (entriesOf l) := by rw [slu_holding_self p now sess _ hn]
  have hoff : ∀ e ∈ stampFrom p.sts.stamp (entriesOf l), ∃ x ∈ l, x.off = e.off := fun e he => off_mem_of_entriesOf (mem_stampFrom he)
  have hsw : ∀ e ∈ stampFrom p.sts.stamp (entriesOf l), swingSettings e.off := fun e he => by
    obtain ⟨x, hx, hxe⟩ := hoff e he
    exact hxe ▸ hl x hx
  obtain ⟨hw, hf⟩ := sluCommit_of_swing (req := none) (p := p.holding now sess n (entriesOf l)) hn hs (by rw [hes]; exact hsw)
  rw [hes] at hw
  have hq' : q = sluCommit now n (presented (p.holding now sess n (entriesOf l)) now) none (p.holding now sess n (entriesOf l)) := hq
  rw [← hq'] at hw hf
  have haside : ∀ off, 0x6000C ≤ off → off < 0x60100 → ¬commitAside off := fun off h1 h2 => by
    unfold commitAside logRegs A.PCT_MONSTAT A.MBX_EVT A.FLT_STAT A.STS_COMMITS A.STS_EVT A.PCT_LOGNEXT A.PCT_LOGNVLOST
    omega
  refine ⟨fun x hx hhi hlo => ?_, fun off h1 h2 hno => ?_, by rw [hf], by rw [hf]⟩
  · obtain ⟨j, hj⟩ := filter_stampFrom (entriesOf l) p.sts.stamp (filter_entriesOf (hone x hx))
    have hmem : (⟨x.off, maskBits x.hi x.lo, withBits 0 x.hi x.lo (codeOf (x.hi + 1 - x.lo) x.code), j⟩ : Entry) ∈ stampFrom p.sts.stamp (entriesOf l) :=
      (List.mem_filter.mp (hj ▸ List.mem_singleton_self _)).1
    have hx' : swingSettings x.off := hl x hx
    obtain ⟨b, hb⟩ := entryStatus_of_staged hstage _ hmem
    obtain ⟨r, hr, hm⟩ := storedMask_of_staged hb (takesWhole_of_swing hx')
    have hold := holdsOnly_of_swing hx'
    simp only [holdsOnly, Bool.and_eq_true] at hold
    have hbeat : x.off ≠ A.PCT_HBEAT := by rintro he; rw [he] at hx'; exact absurd hx' (by unfold swingSettings; decide)
    rw [hw x.off (haside _ (by unfold swingSettings A.SWG_ANCHOR_CTRL at hx'; omega) (by unfold swingSettings A.SWG_ANCHOR_CTRL at hx'; omega)),
      rd_storeEntries_one (k := r.2) hj hr hold.1.1 hbeat, hm, hhi, hlo, merge_allOnes]
    exact withBits_whole x.code
  · rw [hw off (haside off (by omega) h2)]
    refine (within_storeEntries (S := (· ≠ off)) _ _ fun e he => ?_) off (by simp)
    obtain ⟨x, hx, hxe⟩ := hoff e he
    exact hxe ▸ hno x hx

end Sys2Proof.Machine
end

section
/-! SUPPORT. The commands and the events of a sluice (O34, O36). -/
namespace Sys2Proof.Machine
open Sys2Proof

section
variable {p : Polder} {now n : Nat}

/-- Staging that every check passes. -/
theorem sluStage_of_staged {l : List (Nat × Word × Word)} (hl : (slu p n).entries.length + l.length ≤ 64)
    (hs : stageStatus p (slu p n).entries (stampFrom p.sts.stamp l) = Status.ok) :
    ∃ q, sluStage now n l p = (Status.ok, q) ∧
      (n < 8 → (slu q n).entries = (slu p n).entries ++ stampFrom p.sts.stamp l) := by
  unfold sluStage
  simp only [if_neg (show ¬64 < (slu p n).entries.length + l.length by omega), hs]
  exact ⟨_, rfl, fun hn => congrArg Sluice.entries (slu_setSlu_self p _ hn)⟩

/-- No conflict: the polder stays, with its own entries checked. -/
theorem sluResolve_of_none {c : Int} (h : conflicts p now n c = []) : sluResolve now n c p = some p := by
  unfold sluResolve
  rw [h]
  rfl

theorem sluImmediate_of_good {req : Option CmdRef} (h : conflicts p now n (tblAt p.tim now / (cyc : Nat)) = [])
    (hc : checkReason p (slu p n) [] (quality p == 3) = none) :
    sluImmediate now n req p = (Rsn.committed, sluCommit now n (presented p now) req p) := by
  unfold sluImmediate
  rw [sluResolve_of_none h]
  dsimp only
  rw [hc]

theorem ownOpen_of {sess : Nat} (h : (slu p n).st = .opened) (ho : (slu p n).owner = sess) : ownOpen p n sess = true := by
  unfold ownOpen
  rw [h, ho, beq_self_eq_true, beq_self_eq_true]
  rfl

theorem sluSchedule_of_good {T : Nat} {good : Bool} {cmd : CmdRef} (hon : onPll p = true)
    (h1 : presented p now + (20 * us : Nat) ≤ ((T * ns : Nat) : Int)) (h2 : ((T * ns : Nat) : Int) ≤ presented p now + (86400 * sec : Nat))
    (hc : conflicts p now n (commitCycle p now T) = []) :
    sluSchedule now n T good cmd p =
      (bare Status.pending, setSlu p n { slu p n with st := .scheduled, timed := true, reqGood := good, commitAt := T, cmd := some cmd }) := by
  unfold sluSchedule
  dsimp only
  rw [hon, if_neg (by decide), if_neg (by omega), sluResolve_of_none hc]

end

/-- Settles O34: each command of a sluice is the operation that its conditions name. -/
theorem sluiceCommandsComplete : Obligations.SluiceCommandsComplete := by
  unfold Obligations.SluiceCommandsComplete
  rintro s t i c b p now n rfl rfl rfl
  refine ⟨fun h hn => ?_, fun h hn => ?_, fun q l h hb hn hk hst how hl hlen hs hq => ?_, fun h hb hn h1 h2 hst how hc hr => ?_,
    fun T h hb hn hnan hT hT0 hst how hon h1 h2 hc => ?_, fun h hb hn hnan hsec hst how hon => ?_, fun h hb hn hst how => ?_,
    fun h hb hn hst how => ?_, fun h hb hn hst how => ?_, fun h hb hst => ?_⟩
  · refine does_of_onCommand (f := fun now => cSluiceOpen now c) rfl h ?_
    unfold cSluiceOpen
    rw [hn]
    rfl
  · refine answers_of_onCommand (f := fun now => cSluiceOpen now c) rfl h ?_
    unfold cSluiceOpen
    rw [hn]
  · subst hl
    obtain ⟨q', he, hent⟩ := sluStage_of_staged (now := s.clock t) hlen hs
    rw [he] at hq
    subst hq
    refine ⟨hent (by omega), does_of_onCommand (f := fun now => cSluiceStage now c) rfl h ?_⟩
    unfold cSluiceStage
    dsimp only
    rw [← hb, if_neg (by omega), ownOpen_of hst how, he]
    rfl
  · refine does_of_onCommand (f := fun now => cSluiceCommit now c) rfl h ?_
    unfold cSluiceCommit
    dsimp only
    rw [← hb, if_neg (by omega), ownOpen_of hst how, if_neg (by decide), if_pos ⟨h1, h2⟩, sluImmediate_of_good hc hr]
    rfl
  · refine does_of_onCommand (f := fun now => cSluiceCommit now c) rfl h ?_
    unfold cSluiceCommit
    dsimp only
    rw [← hb, if_neg (by omega), ownOpen_of hst how, if_neg (by decide), if_neg (by omega), ← hT, sluSchedule_of_good hon h1 h2 hc]
    rfl
  · refine does_of_onCommand (f := fun now => cSluiceCommit now c) rfl h ?_
    unfold cSluiceCommit sluSchedule
    dsimp only
    rw [← hb, if_neg (by omega), ownOpen_of hst how, if_neg (by decide), if_neg (by omega), hon, if_pos (by decide)]
  · refine does_of_onCommand (f := fun now => cSluiceAbort now c) rfl h ?_
    unfold cSluiceAbort
    dsimp only
    rw [← hb, if_neg (by rintro (h | h); omega; exact hst h), if_pos how]
  · refine does_of_onCommand (f := fun now => cSluiceAbort now c) rfl h ?_
    unfold cSluiceAbort
    dsimp only
    rw [← hb, if_neg (by rw [hst]; rintro (h | h); omega; exact nomatch h), if_neg how, if_pos hst]
  · refine answers_of_onCommand (f := fun now => cSluiceAbort now c) rfl h ?_
    unfold cSluiceAbort
    dsimp only
    rw [← hb, if_neg (by rw [hst]; rintro (h | h); omega; exact nomatch h), if_neg how, if_neg (by rw [hst]; exact nofun)]
  · refine answers_of_onCommand (f := fun now => cSluiceAbort now c) rfl h ?_
    unfold cSluiceAbort
    dsimp only
    rw [← hb, if_pos (.inr hst)]

/-- A sluice that is not due to be checked stays. -/
theorem sluCheck_of_ne {p : Polder} {now n : Nat} (h : (slu p n).st ≠ .scheduled) : sluCheck now n p = p := if_neg fun hc => h hc.1

theorem sluCheck_of_due {p : Polder} {now n : Nat} (hst : (slu p n).st = .scheduled)
    (hd : (((slu p n).commitAt * ns : Nat) : Int) ≤ presented p now + (2 * us : Nat)) :
    sluCheck now n p = match checkReason (setSlu p n { slu p n with st := .check }) (slu p n)
        (earlierEntries (setSlu p n { slu p n with st := .check }) n (slu p n).commitAt) (quality p == 3) with
      | some r => sluAbort now n r false (setSlu p n { slu p n with st := .check })
      | none => setSlu p n { slu p n with st := .check } := by
  unfold sluCheck
  exact if_pos ⟨hst, hd⟩

/-- Settles O36: each event of a sluice at its condition. -/
theorem sluiceEvents : Obligations.SluiceEvents := by
  unfold Obligations.SluiceEvents
  intro s t i now p n h hn
  refine ⟨fun hst hd hr => ?_, fun f k hf hst hk hlt hc => ?_, fun hst hd => ?_, fun r hst hd hr => ?_⟩
  · exact does_of_onIndex (f := fun now q => sluCheck now n q) rfl hn h (by rw [sluCheck_of_due hst hd, hr])
  · subst hf hk
    refine does_of_onIndex (f := fun now q => sluTimed now n (follow now q)) rfl hn h ?_
    unfold sluTimed
    rw [sluCheck_of_ne (by rw [hst]; exact nofun)]
    dsimp only
    rw [if_pos ⟨hst, hlt⟩, sluResolve_of_none hc]
  · exact does_of_onIndex (f := fun now q => sluIdle now n q) rfl hn h (if_pos ⟨hst, by omega⟩)
  · exact does_of_onIndex (f := fun now q => sluCheck now n q) rfl hn h (by rw [sluCheck_of_due hst hd, hr])

end Sys2Proof.Machine
end

section
/-! SUPPORT. Input tests, capture control and reads of acquisition, filters, capture and stairs (O29); the clear of the Dike (O41). -/
namespace Sys2Proof.Machine
open Sys2Proof

/-! ### The metering block (R249, R263) -/

theorem rd_meterLatch (p : Polder) {k : Nat} (hk : k < 64) : rd (meterLatch p) (A.FLT_MTR k) = vget p.flt.block k 0 := by
  unfold meterLatch
  extract_lets b p1 p2
  have h1 : rd p1 (A.FLT_MTR k) = vget p.flt.block k 0 := rd_wrAll_run p (A.FLT_MTR 0) 64 (fun k => vget p.flt.block k 0) hk
  have h2 : Within (fun o => o = A.FLT_MT_NS ∨ o = A.FLT_MT_SL ∨ o = A.FLT_MT_SH) p1 p2 :=
    ((within_wr p1 _ (.inl rfl)).trans (within_wr _ _ (.inr (.inl rfl)))).trans (within_wr _ _ (.inr (.inr rfl)))
  clear_value p2 p1
  refine (h2 _ ?_).trans h1
  match k, hk with
  | k, hk =>
    unfold A.FLT_MTR A.FLT_MT_NS A.FLT_MT_SL A.FLT_MT_SH
    omega

/-! ### Stairs (R291) -/

theorem length_stairUnit (p : Polder) (k : Nat) (x : Int) : (stairUnit p k x).length = 4 := by
  unfold stairUnit
  split <;> simp

/-! ### Capture control (R262) -/

section
variable {now : Nat} {c : Cmd} {p : Polder}

/-- An order of CAPTURE_CONTROL for now that the recorder's state takes. -/
theorem cCaptureControl_now {k : Nat} (hk : byteAt c.payload 0 = k) (hk2 : k ≤ 2) (hs : u48At c.payload 4 = 0) (hn : u32At c.payload 10 = 0)
    (ha : recActs k (capState p) = true) (ht : (k == 0 && capTapOff p) = false) :
    cCaptureControl now c p =
      answer (capCmd now (wordN (2 ^ k)) p) Op.captureControl c (okWith (wBytes (rd (capCmd now (wordN (2 ^ k)) p) A.CAP_STAT))) := by
  have hok : timeOk c 0 0 = true := by simp [timeOk]
  unfold cCaptureControl
  dsimp only
  rw [hk, hs, hn, hok, if_neg (by simp; omega), ha, ht]
  rfl

theorem cCaptureControl_idle (hk : byteAt c.payload 0 = 2) (hs : u48At c.payload 4 = 0) (hn : u32At c.payload 10 = 0) (hi : capState p = Rec.idle) :
    cCaptureControl now c p = answer p Op.captureControl c (bare Status.state) := by
  have hok : timeOk c 0 0 = true := by simp [timeOk]
  unfold cCaptureControl
  dsimp only
  rw [hk, hs, hn, hok, hi]
  rfl

end

/-- READ_CAPTURE of words that are there. -/
theorem cReadCapture_done {c : Cmd} {p : Polder} (hd : capState p = Rec.done) (hn : 1 ≤ u16At c.payload 4 ∧ u16At c.payload 4 ≤ 248)
    (hr : u32At c.payload 0 + u16At c.payload 4 ≤ rdN p A.CAP_ROWS * capRowWords p) :
    cReadCapture c p = answer p Op.readCapture c (okWith (wBytes (rd p A.CAP_STAT) ++ wBytes (rd p A.CAP_ROWS) ++ leBytes 4 (capTrigRow p) ++
      leBytes 6 (rdN p A.CAP_TRG_SL + 4294967296 * (rdN p A.CAP_TRG_SH % 65536)) ++ wBytes (rd p A.CAP_TRG_NS) ++
      leBytes 2 (rdN p A.CAP_TRG_FR) ++ wBytes (rd p A.CAP_PER) ++ leBytes 2 (capRowWords p) ++ zeros 2 ++
      (List.range (u16At c.payload 4)).flatMap fun k => wBytes (capWord p (u32At c.payload 0 + k)))) := by
  unfold cReadCapture
  dsimp only
  rw [if_neg (by simp [hd]), if_neg (by omega)]

/-- Settles O29: each command is the answer that its card names. -/
theorem acquisitionControlsAndReadsComplete : Obligations.AcquisitionControlsAndReadsComplete := by
  unfold Obligations.AcquisitionControlsAndReadsComplete
  rintro s t i c b p rfl rfl
  refine ⟨fun m k l x q n h hb hm hl hx ht hq => ?_, fun h hb hm => ?_, fun h hb => ?_, fun h => ?_, fun h => ?_, fun q h h0 hs hn hst hoff hq => ?_,
    fun q h h0 hs hn hst hq => ?_, fun q h h0 hs hn hst hq => ?_, fun h h0 hs hn hst => ?_, fun n h hn hd hn2 hr => ?_, fun h => ?_, fun h hn => ?_⟩
  · refine does_of_onCommand (f := fun now => cRunInputTest now c) rfl h ?_
    unfold cRunInputTest inputTestStart
    dsimp only
    rw [if_neg (by omega), ← hm, hl]
    have ha : ∀ y : InputTest, y.inputs = k :: l → y.level = 0 → y.cmd.sess = c.sess → applyLevel (s.clock t) y (s.pol i) = (okWith [], q) := by
      intro y h1 h2 h3
      unfold applyLevel
      rw [h1]
      dsimp only
      rw [h2, h3, sluBasic_of_sluiceTakes c.sess none ht, hq]
    dsimp only
    rw [ha _ rfl rfl rfl, hx]
    rfl
  · refine answers_of_onCommand (f := fun now => cRunInputTest now c) rfl h ?_
    unfold cRunInputTest inputTestStart
    dsimp only
    rw [if_neg (by omega), hm, show ((List.range 15).filter fun k => Nat.testBit 0 k) = [] by decide]
    rfl
  · refine answers_of_onCommand (f := fun now => cRunInputTest now c) rfl h ?_
    unfold cRunInputTest
    dsimp only
    rw [if_pos (by omega)]
  · refine ⟨_, length_flatMap_of _ (fun _ => length_wBytes _) _, fun k hk => ?_, rfl, answers_of_onCommand (f := fun _ => cGetAcquisition c) rfl h rfl⟩
    rw [take_drop_flatMap (fun o => wBytes (rd (s.pol i) o)) (fun _ => length_wBytes _) _ (by simp; omega)]
    rw [List.getElem_append_left (by simpa using hk), List.getElem_map, List.getElem_range]
  · refine ⟨_, ?_, fun k hk => ?_, does_of_onCommand (f := fun _ => cGetMetering c) rfl h rfl⟩
    · simp
    · rw [take_drop_words (n := 16) _ _ _ (by simp) (by simpa using hk), List.getElem_range, rd_meterLatch _ hk]
  · refine does_of_onCommand (f := fun now => cCaptureControl now c) rfl h ?_
    rw [cCaptureControl_now h0 (by decide) hs hn (by simpa [recActs] using hst) (by rw [hoff]; rfl), hq]
    rfl
  · refine does_of_onCommand (f := fun now => cCaptureControl now c) rfl h ?_
    rw [cCaptureControl_now h0 (by decide) hs hn (by rw [hst]; rfl) rfl, hq]
    rfl
  · refine does_of_onCommand (f := fun now => cCaptureControl now c) rfl h ?_
    rw [cCaptureControl_now h0 (by decide) hs hn (by simpa [recActs] using hst) rfl, hq]
    rfl
  · exact answers_of_onCommand (f := fun now => cCaptureControl now c) rfl h (cCaptureControl_idle h0 hs hn hst)
  · subst hn
    refine ⟨_, ?_, rfl, ?_, answers_of_onCommand (f := fun _ => cReadCapture c) rfl h (cReadCapture_done hd hn2 hr)⟩
    · simp; omega
    · rw [List.drop_left' (by simp)]
  · refine ⟨_, ?_, rfl, fun k hk => ?_, answers_of_onCommand (f := fun _ => cGetStairs c) rfl h rfl⟩
    · simp [length_stairUnit]
    · match k, hk with
      | 0, _ | 1, _ | 2, _ | 3, _ => rfl
  · refine ⟨_, ?_, rfl, ?_, answers_of_onCommand (f := fun _ => cGetSluice c) rfl h (if_neg (by omega))⟩
    · simp only [List.length_append, length_wBytes, length_leBytes, length_zeros]
      rw [length_flatMap_of (m := 12) _ fun _ => by simp]
    · rw [List.drop_left' (by simp)]

/-! ### A clear (R309) -/

section
variable {p : Polder} {now m : Nat}

/-- The bits of a sum of distinct powers. -/
def bitsWhere (f : Nat → Bool) (n : Nat) : Nat := (List.range n).foldl (fun m k => if f k then m + 2 ^ k else m) 0

theorem bitsWhere_succ (f : Nat → Bool) (n : Nat) : bitsWhere f (n + 1) = if f n then bitsWhere f n + 2 ^ n else bitsWhere f n := by
  unfold bitsWhere
  rw [List.range_succ, List.foldl_append]
  rfl

theorem bitsWhere_lt (f : Nat → Bool) (n : Nat) : bitsWhere f n < 2 ^ n := by
  induction n with
  | zero => exact Nat.one_pos
  | succ n ih =>
    rw [bitsWhere_succ, Nat.pow_succ]
    split <;> omega

theorem bitsWhere_eq_zero_iff (f : Nat → Bool) (n : Nat) : bitsWhere f n = 0 ↔ ∀ k < n, f k = false := by
  induction n with
  | zero => simp [bitsWhere]
  | succ n ih =>
    have hp := Nat.two_pow_pos n
    rw [bitsWhere_succ]
    constructor
    · intro h k hk
      split at h
      · omega
      next hn => 
        obtain hk | rfl := Nat.lt_succ_iff_lt_or_eq.mp hk
        · exact ih.mp h k hk
        · simpa using hn
    · intro h
      rw [h n (Nat.lt_succ_self n), if_neg Bool.false_ne_true]
      exact ih.mpr fun k hk => h k (Nat.lt_succ_of_lt hk)

theorem testBit_bitsWhere (f : Nat → Bool) {n k : Nat} (hk : k < n) : (bitsWhere f n).testBit k = f k := by
  induction n with
  | zero => exact absurd hk (Nat.not_lt_zero k)
  | succ n ih =>
    rw [bitsWhere_succ]
    obtain hk | rfl := Nat.lt_succ_iff_lt_or_eq.mp hk
    · split
      · rw [Nat.add_comm, Nat.testBit_two_pow_add_gt hk, ih hk]
      · exact ih hk
    · have h0 := Nat.testBit_lt_two_pow (bitsWhere_lt f k)
      split
      next hf => rw [Nat.add_comm, Nat.testBit_two_pow_add_eq, h0, hf]; rfl
      next hf => rw [h0, Bool.eq_false_iff.mpr hf]

/-- What keeps latched bit `k` from clearing. -/
def clearBarred (now m : Nat) (p : Polder) (k : Nat) : Bool :=
  (latched p &&& m).testBit k && ((activeMask p).testBit k || (k != Src.spb && decide (now < vget p.dike.inactiveAt k 0 + rdN p A.DIK_SETTLE * ms)))

theorem clearBarred_iff {k : Nat} (hk : k < 14) : clearBarred now m p k = true ↔
    m.testBit k = true ∧ (latched p).testBit k = true ∧
      (sourceActive p k = true ∨ (k ≠ Src.spb ∧ now < vget p.dike.inactiveAt k 0 + rdN p A.DIK_SETTLE * ms)) := by
  have ha : (activeMask p).testBit k = sourceActive p k := testBit_bitsWhere (sourceActive p) hk
  unfold clearBarred
  rw [Nat.testBit_and, ha]
  simp only [Bool.and_eq_true, Bool.or_eq_true, bne_iff_ne, decide_eq_true_eq]
  tauto

theorem clearFails_lt : clearFails now m p < 16384 := bitsWhere_lt (clearBarred now m p) 14

theorem clearFails_eq_zero_iff : clearFails now m p = 0 ↔ ∀ k < 14, clearBarred now m p k = false := bitsWhere_eq_zero_iff _ 14

theorem dikClear_of_none (hm : m < 16384) (h : clearFails now m p = 0) :
    dikClear now m p = (true, wr (wr p A.DIK_TRIPSRC (rd p A.DIK_TRIPSRC &&& ~~~ (wordN m &&& ~~~ 0x80#32))) A.DIK_CLRRES 0) := by
  unfold dikClear
  rw [Nat.mod_eq_of_lt hm]
  exact if_pos h

theorem dikClear_of_some (hm : m < 16384) (h : clearFails now m p ≠ 0) :
    dikClear now m p = (false, evt F.DIK_EVT_CLR_REFUSED (wr p A.DIK_CLRRES (wordN (clearFails now m p)))) := by
  unfold dikClear
  rw [Nat.mod_eq_of_lt hm]
  exact if_neg h

end

/-- Settles O41: no bit of the mask is barred, or the clear is refused. -/
theorem clearsAreAllOrNothing : Obligations.ClearsAreAllOrNothing := by
  unfold Obligations.ClearsAreAllOrNothing
  intro p now m hm
  refine ⟨fun h => ?_, fun ⟨k, hk, hb⟩ => ?_⟩
  · have h0 : clearFails now m p = 0 := clearFails_eq_zero_iff.mpr fun k hk => by
      rw [Bool.eq_false_iff]
      intro hb
      obtain ⟨h1, h2, h3⟩ := (clearBarred_iff hk).mp hb
      obtain ⟨h4, h5⟩ := h k hk h1 h2
      obtain h3 | ⟨h6, h7⟩ := h3
      · exact absurd h3 (by rw [h4]; exact Bool.false_ne_true)
      · exact absurd h7 (Nat.not_lt.mpr (h5 h6))
    rw [dikClear_of_none hm h0]
    exact ⟨rfl, rd_wr_self .., (rd_wr_ne _ _ (by decide)).trans (rd_wr_self ..)⟩
  · have h0 : clearFails now m p ≠ 0 := fun h0 => by
      have := clearFails_eq_zero_iff.mp h0 k hk
      rw [(clearBarred_iff hk).mpr hb] at this
      exact Bool.false_ne_true this.symm
    have hw : Within (· = A.DIK_EVT) (wr p A.DIK_CLRRES (wordN (clearFails now m p)))
        (evt F.DIK_EVT_CLR_REFUSED (wr p A.DIK_CLRRES (wordN (clearFails now m p)))) := within_evt _ rfl
    rw [dikClear_of_some hm h0]
    refine ⟨rfl, (hw _ (by decide)).trans (rd_wr_ne _ _ (by decide)), ?_, fbit_evt_self' _ (by decide) rfl⟩
    rw [hw _ (by decide), rd_wr_self]
    intro he
    have := congrArg BitVec.toNat he
    rw [show (wordN (clearFails now m p)).toNat = clearFails now m p from Nat.mod_eq_of_lt (by have := clearFails_lt (p := p) (now := now) (m := m); omega)] at this
    exact h0 this

end Sys2Proof.Machine
end

section
/-! SUPPORT. What leaves the state of the swing engine alone (O15, O16). -/
namespace Sys2Proof.Machine
open Sys2Proof

/-! ### Ways to leave it alone -/

section
variable {p q r : Polder}

theorem swg_ite {b : Prop} [Decidable b] (h : q.swg = p.swg) (g : r.swg = p.swg) : (if b then q else r).swg = p.swg := by
  split
  · exact h
  · exact g

theorem swg_foldl {α : Type} (f : Polder → α → Polder) (l : List α) (p : Polder) (h : ∀ q a, (f q a).swg = q.swg) : (l.foldl f p).swg = p.swg := by
  induction l generalizing p with
  | nil => rfl
  | cons a l ih => exact (ih _).trans (h p a)

theorem swg_evtIf (b : Bool) (f : Fld) (p : Polder) : (evtIf b f p).swg = p.swg := swg_ite rfl rfl

theorem swg_wrAll (p : Polder) (l : List (Nat × Word)) : (wrAll p l).swg = p.swg := swg_foldl _ l p fun _ _ => rfl

end

theorem swg_evt (f : Fld) (p : Polder) : (evt f p).swg = p.swg := rfl

theorem swg_wrTime (a b c : Nat) (x : Int) (p : Polder) : (wrTime p a b c x).swg = p.swg := rfl

/-! ### Recorders -/

theorem swg_galTrigger (p : Polder) : (galTrigger p).swg = p.swg := swg_ite rfl rfl

theorem swg_galSource (src : Nat) (p : Polder) : (galSource src p).swg = p.swg := swg_ite (swg_galTrigger p) rfl

theorem swg_capHold (p : Polder) : (capHold p).swg = p.swg := by
  unfold capHold
  exact swg_ite (swg_ite (swg_galSource 5 _) rfl) rfl

theorem swg_capTrigger (now cause : Nat) (x : Int) (p : Polder) : (capTrigger now cause x p).swg = p.swg := by
  unfold capTrigger
  extract_lets r p1 p2 pulse
  have h1 : p1.swg = p.swg := (fput_swg _ _ _).trans (fput_swg _ _ _)
  clear_value p1
  have h2 : p2.swg = p.swg := (wr_swg _ _ _).trans ((swg_wrTime _ _ _ _ p1).trans h1)
  clear_value p2
  exact swg_ite ((swg_capHold _).trans (swg_ite h2 h2)) rfl

theorem swg_recEvent (now ev : Nat) (p : Polder) : (recEvent now ev p).swg = p.swg := by
  have h1 : ∀ b : Prop, [Decidable b] → (if b then galTrigger p else p).swg = p.swg := fun b _ => swg_ite (swg_galTrigger p) rfl
  unfold recEvent
  exact swg_ite ((swg_capTrigger _ _ _ _).trans (h1 _)) (h1 _)

theorem swg_evtSel (now ev : Nat) (f : Fld) (p : Polder) : (evtSel now ev f p).swg = p.swg := swg_recEvent now ev _

theorem swg_capFinish (p : Polder) : (capFinish p).swg = p.swg := by
  unfold capFinish
  extract_lets r len valid p1 p2 p3 p4 p5
  have h4 : p4.swg = p.swg := (wr_swg _ _ _).trans ((wr_swg _ _ _).trans ((wr_swg _ _ _).trans (fput_swg p _ _)))
  have h5 : p5.swg = p.swg := (swg_wrTime _ _ _ _ p4).trans h4
  clear_value p5
  exact (swg_capHold _).trans ((wr_swg _ _ _).trans h5)

theorem swg_capWrite (x : Int) (ws : List Word) (p : Polder) : (capWrite x ws p).swg = p.swg := by
  unfold capWrite
  extract_lets r len base p1 row p2
  have h2 : p2.swg = p.swg := swg_wrAll p _
  clear_value p2 row
  cases row with
  | some x => exact swg_ite ((swg_capFinish p2).trans h2) h2
  | none => exact h2

theorem swg_capSample (now tap : Nat) (x : Int) (val : Nat → Int × Nat) (p : Polder) : (capSample now tap x val p).swg = p.swg := by
  unfold capSample
  extract_lets r n v p1 r1 rdy acc r2 p2
  have h1 : p1.swg = p.swg := by
    refine swg_ite ?_ rfl
    split
    · exact swg_capTrigger _ _ _ _
    · rfl
  have h2 : p2.swg = p.swg := h1
  clear_value p2
  exact swg_ite (swg_ite h2 ((swg_capWrite _ _ _).trans h2)) rfl

theorem swg_galRowTrigger (p : Polder) (ws : List Word) : (galRowTrigger p ws).swg = p.swg := by
  unfold galRowTrigger
  dsimp only
  split
  · exact swg_galTrigger p
  · split
    · exact swg_ite (swg_galTrigger p) rfl
    · rfl
  · rfl

theorem swg_galWrite (x : Int) (p : Polder) (ws : List Word) : (galWrite x p ws).swg = p.swg := by
  unfold galWrite
  extract_lets r len n base p1 p2 trig first row p3 p4
  have h3 : p3.swg = p.swg := (swg_galRowTrigger p1 ws).trans (swg_wrAll p _)
  have h4 : p4.swg = p.swg := swg_ite h3 h3
  clear_value p4 row
  cases row with
  | some x => exact swg_ite h4 h4
  | none => exact h4

theorem swg_galUpdate (x : Int) (node : Nat → Int × Nat) (p : Polder) : (galUpdate x node p).swg = p.swg :=
  swg_ite (swg_ite rfl (swg_galWrite _ _ _)) rfl

/-! ### The embankment controller -/

theorem swg_setSector (now i : Nat) (u : Bool) (p : Polder) : (setSector now i u p).swg = p.swg := swg_ite rfl (swg_ite rfl rfl)

theorem swg_movesDone (now i : Nat) (p : Polder) : (movesDone now i p).swg = p.swg :=
  swg_foldl (fun q c => changeDone i c q) _ _ fun _ _ => swg_setSector _ _ _ _

theorem swg_sectorOf (now i : Nat) (p : Polder) : (sectorOf now i p).swg = p.swg := swg_ite (swg_setSector _ _ _ _) rfl

theorem swg_embPhaseUpdate (now : Nat) (r : Nat → Bool) (i : Nat) (v : Int) (p : Polder) : (embPhaseUpdate now r i v p).swg = p.swg :=
  (swg_sectorOf _ _ _).trans (swg_movesDone _ _ _)

theorem swg_embShow (r : Nat → Bool) (i : Nat) (p : Polder) : (embShow r i p).swg = p.swg := by
  unfold embShow
  split <;> rfl

theorem swg_trimPhase (r : Nat → Bool) (i : Nat) (p : Polder) : (trimPhase r i p).swg = p.swg := swg_ite (swg_evtIf _ _ _) rfl

theorem swg_npOffset (r : Nat → Bool) (a b : Int) (p : Polder) : (npOffset r a b p).swg = p.swg := swg_evtIf _ _ _

theorem swg_embStat (now : Nat) (p : Polder) : (embStat now p).swg = p.swg := rfl

theorem swg_embUpdate (now : Nat) (va vb vc vdp vdn : Int) (wrap : Bool) (p : Polder) : (embUpdate now va vb vc vdp vdn wrap p).swg = p.swg := by
  unfold embUpdate
  extract_lets r e0 p0 p1 half up lo cm e1 p2 e2 p3 p4
  have h1 : p1.swg = p.swg := swg_ite (swg_foldl (fun q i => trimPhase r i q) _ p0 fun q i => swg_trimPhase r i q) rfl
  have h2 : p2.swg = p.swg := h1
  clear_value p2
  have h3 : p3.swg = p.swg := swg_ite ((swg_npOffset _ _ _ _).trans h2) h2
  have h4 : p4.swg = p.swg := ((swg_embPhaseUpdate ..).trans ((swg_embPhaseUpdate ..).trans (swg_embPhaseUpdate ..))).trans h3
  clear_value p4
  exact (swg_embStat now _).trans (((swg_embShow r 2 _).trans ((swg_embShow r 1 _).trans (swg_embShow r 0 p4))).trans h4)

/-! ### The learner -/

theorem swg_endCycle (r : Nat → Bool) (p : Polder) : (endCycle r p).swg = p.swg := swg_ite (swg_ite rfl rfl) rfl

theorem swg_sweepStart (now : Nat) (counts : Bool) (lim : Int) (p : Polder) : (sweepStart now counts lim p).swg = p.swg := fput_swg _ _ _

theorem swg_evt_sweepStart (now : Nat) (lim : Int) (f : Fld) (l : LrnState) (p : Polder) :
    (evt f (sweepStart now false lim { p with lrn := l })).swg = p.swg :=
  (swg_evt _ _).trans (swg_sweepStart _ _ _ _)

theorem swg_wr_wrAll (p : Polder) (ws : List (Nat × Word)) (o : Nat) (w : Word) : (wr (wrAll p ws) o w).swg = p.swg :=
  (wr_swg _ _ _).trans (swg_wrAll p ws)

theorem swg_lrnLoad (now : Nat) (x : LrnSave) (p : Polder) : (lrnLoad now x p).swg = p.swg := by
  unfold lrnLoad
  exact (swg_evt_sweepStart _ _ _ _ _).trans (swg_wr_wrAll p _ _ _)

theorem swg_lrnZero (now : Nat) (p : Polder) : (lrnZero now p).swg = p.swg := by
  unfold lrnZero
  exact (swg_sweepStart _ _ _ _).trans (swg_wr_wrAll p _ _ _)

theorem swg_warmStart (now : Nat) (p : Polder) : (warmStart now p).swg = p.swg := by
  unfold warmStart
  refine swg_ite ?_ rfl
  split
  · exact swg_lrnLoad _ _ _
  · exact (swg_lrnZero _ _).trans (swg_evtIf _ _ _)

theorem swg_sweepOn (p : Polder) : (sweepOn p).swg = p.swg := by
  unfold sweepOn
  split
  · exact swg_ite (swg_wrAll _ _) rfl
  · rfl

theorem swg_lrnUpdate (now : Nat) (x : LrnIn) (p : Polder) : (lrnUpdate now x p).swg = p.swg := by
  have h0 : (if x.wrap then { endCycle (rounding p) p with lrn := { (endCycle (rounding p) p).lrn with inForce := lrnCells p } } else p).swg = p.swg :=
    swg_ite (swg_endCycle _ p) rfl
  unfold lrnUpdate
  exact (swg_sweepOn _).trans (swg_ite ((swg_warmStart _ _).trans h0) h0)

/-! ### The modulator -/

theorem swg_reloadPer (now : Nat) (p : Polder) : (reloadPer now p).swg = p.swg := swg_evtIf _ _ _

theorem swg_reloadCmp (now i : Nat) (p : Polder) : (reloadCmp now i p).swg = p.swg := swg_evtIf _ _ _

theorem swg_reloadTtmr (now i : Nat) (p : Polder) : (reloadTtmr now i p).swg = p.swg := swg_evtIf _ _ _

theorem swg_reloadTon (now i : Nat) (p : Polder) : (reloadTon now i p).swg = p.swg := swg_evtIf _ _ _

theorem swg_legPeriod (b i : Nat) (p : Polder) : (legPeriod b i p).swg = p.swg := by
  unfold legPeriod
  extract_lets per ton least dropH dropL hold p1
  have h1 : p1.swg = p.swg := swg_ite (swg_evtSel _ _ _ _) rfl
  clear_value p1
  exact swg_ite h1 rfl

theorem swg_armRestart (e : Nat) (centre : Bool) (p : Polder) : (armRestart e centre p).swg = p.swg := swg_ite rfl rfl

theorem swg_startPeriod (b : Nat) (p : Polder) : (startPeriod b p).swg = p.swg := by
  unfold startPeriod
  extract_lets p0 p1
  have h0 : p0.swg = p.swg := swg_ite (swg_foldl (fun q i => reloadTtmr b i q) _ p fun q i => swg_reloadTtmr b i q) rfl
  have h1 : p1.swg = p.swg :=
    (swg_foldl (fun q i => sideChange b i p q) _ _ fun q i => swg_ite rfl rfl).trans
      ((swg_foldl (fun q i => reloadCmp b i q) _ _ fun q i => swg_reloadCmp b i q).trans ((swg_reloadPer b p0).trans h0))
  exact (swg_foldl (fun q i => legPeriod b i q) _ _ fun q i => swg_legPeriod b i q).trans ((swg_armRestart _ _ _).trans h1)

theorem swg_carrierStart (now : Nat) (p : Polder) : (carrierStart now p).swg = p.swg := swg_ite (swg_startPeriod now p) rfl

theorem swg_chopperTest (now : Nat) (p : Polder) : (chopperTest now p).swg = p.swg := by
  unfold chopperTest
  exact swg_ite (swg_ite (swg_ite rfl rfl) (swg_ite (swg_ite rfl rfl) rfl)) rfl

/-! ### Filters and meters -/

theorem swg_laneAdvance (now : Nat) (p : Polder) : (laneAdvance now p).swg = p.swg := by
  unfold laneAdvance
  dsimp only
  split
  · rfl
  · split <;> rfl

theorem swg_laneFeed (now : Nat) (delay : Nat → Nat) (val : Nat → Int × Nat) (p : Polder) : (laneFeed now delay val p).swg = p.swg := by
  unfold laneFeed modLane
  exact modFlt_swg _ p

theorem swg_lanesUpdate (now : Nat) (v : Int) (p : Polder) : (lanesUpdate now v p).swg = p.swg := by
  unfold lanesUpdate
  extract_lets p1 p2
  have h1 : p1.swg = p.swg := swg_laneAdvance now p
  clear_value p1
  exact (modFlt_swg _ p2).trans (swg_ite ((swg_laneFeed _ _ _ _).trans h1) h1)

theorem swg_showRegime (now : Nat) (x : SwingIn) (a b : Int) (p : Polder) : (showRegime now x a b p).swg = p.swg := swg_ite rfl rfl

theorem swg_refsArrive (now : Nat) (p : Polder) : (refsArrive now p).swg = p.swg :=
  swg_foldl (fun q i => modLeg q i fun l => { l with refsUntil := now + tsFs q }) _ p fun _ _ => rfl

end Sys2Proof.Machine
end

section
/-! SUPPORT. An update of the swing engine without the law (O15, O16). -/
namespace Sys2Proof.Machine
open Sys2Proof

/-! ### The state that an update leaves -/

/-- The polder as an update finds it when the law is due: the modulator's buffers, the responses and the stairs have been worked off. -/
def swingReady (now : Nat) (x : SwingIn) (p : Polder) : Polder :=
  let r := rounding p
  let pc := { drawn p with swg := { (drawn p).swg with cfg := swingCells p.regs } }
  let p1 := linesUpdate now x p.swg.w (modUpdate now ((List.range 15).foldl (fun q k => respUpdate now k q) (rateUpdate pc)))
  let p2 := { p1 with flt := { p1.flt with lastC := Vector.ofFn fun (k : Fin 15) => (x.vals.getD k.val 0, flagC p1 now k.val) } }
  lawInit now r x (stairsStep now p.swg.cfg r p2)

/-- The swing engine stands without the law: it did not run, nothing has moved and no current is asked for. -/
structure LawIdle (p q : Polder) : Prop where
  ran : q.swg.ran = false
  acc : q.swg.acc = p.swg.acc
  w : q.swg.w = p.swg.w
  e : q.swg.e = p.swg.e
  irefD : q.swg.irefD = 0
  irefQ : q.swg.irefQ = 0
  i2refD : q.swg.i2refD = 0
  i2refQ : q.swg.i2refQ = 0

section
variable {p q r : Polder}

theorem LawIdle.of_swg (h : LawIdle p q) (hs : r.swg = q.swg) : LawIdle p r := by
  obtain ⟨h1, h2, h3, h4, h5, h6, h7, h8⟩ := h
  constructor <;> rw [hs] <;> assumption

theorem lawIdle_ite {b : Prop} [Decidable b] (h : LawIdle p q) (g : LawIdle p r) : LawIdle p (if b then q else r) := by
  split
  · exact h
  · exact g

end

theorem lawIdle_lawStore (now : Nat) (x : SwingIn) {l : Law} (ea vdp vdn : Int) (p : Polder) (hl : l.iD = 0 ∧ l.iQ = 0 ∧ l.i2D = 0 ∧ l.i2Q = 0) :
    LawIdle p (lawStore now x l ea false vdp vdn p) := by
  obtain ⟨h1', h2', h3', h4'⟩ := hl
  unfold lawStore
  extract_lets w acc th e om im pr meas s p1 p2 p3 p4 p5
  have h2 : p2.swg = p1.swg := swg_ite (swg_evtSel _ _ _ _) rfl
  have h3 : p3.swg = p1.swg := (swg_evtIf _ _ p2).trans h2
  have h4 : p4.swg = p1.swg := swg_ite ((swg_evtSel _ _ _ p3).trans h3) h3
  have h5 : p5.swg = s := (swg_evtIf _ _ p4).trans h4
  have hr : p5.swg.ran = false := congrArg SwgState.ran h5
  have ha : p5.swg.acc = s.acc := congrArg SwgState.acc h5
  have hw : p5.swg.w = s.w := congrArg SwgState.w h5
  have he : p5.swg.e = s.e := congrArg SwgState.e h5
  exact ⟨hr, ha, hw, he, (congrArg SwgState.irefD h5).trans h1', (congrArg SwgState.irefQ h5).trans h2', (congrArg SwgState.i2refD h5).trans h3',
    (congrArg SwgState.i2refQ h5).trans h4'⟩

theorem lawIdle_jumpCheck (now : Nat) (r : Nat → Bool) (x : SwingIn) (l : Law) {p q : Polder} (h : LawIdle p q) :
    LawIdle p (jumpCheck now r x l q) := by
  obtain ⟨h1, h2, h3, h4, h5, h6, h7, h8⟩ := h
  have hr : ∀ (b : Bool) (a : Polder), LawIdle p a → LawIdle p (rocofSat now b a) := fun b a ha => by
    refine lawIdle_ite ?_ ha
    obtain ⟨g1, g2, g3, g4, g5, g6, g7, g8⟩ := ha.of_swg (swg_evtSel now Ev.sat F.SWG_EVT_SAT (fput a F.SWG_STAT_SAT 1))
    exact ⟨g1, g2, g3, g4, g5, g6, g7, g8⟩
  have hq : ∀ (m : Nat) (a : List SwgPast), LawIdle p { q with swg := { q.swg with predAcc := m, past := a } } := fun _ _ =>
    ⟨h1, h2, h3, h4, h5, h6, h7, h8⟩
  unfold jumpCheck
  extract_lets w win pred me p1 cycle p2
  have g1 : LawIdle p p1 := hq _ _
  clear_value p1
  have g2 : LawIdle p p2 := by
    show LawIdle p (match pastAt w.past (now - cycle) with
      | some _ => _
      | none => p1)
    split
    · exact lawIdle_ite (g1.of_swg (swg_evtSel _ _ _ _)) g1
    · exact g1
  clear_value p2
  refine lawIdle_ite ?_ g1
  split
  · exact hr _ _ (g2.of_swg (swg_evtIf _ _ _))
  · exact g2

theorem lawIdle_of_anchor (now : Nat) (r : Nat → Bool) (e : Int) {p q : Polder} (h : LawIdle (anchor now r e p).2 q) : LawIdle p q := by
  obtain ⟨h1, h2, h3, h4, h5, h6, h7, h8⟩ := h
  have hs : ∃ w c d, (anchor now r e p).2.swg = { p.swg with anchorW := w, clampSince := c, errSince := d } := ⟨_, _, _, swg_evtIf _ _ _⟩
  obtain ⟨w, c, d, hs⟩ := hs
  rw [hs] at h2 h3 h4
  exact ⟨h1, h2, h3, h4, h5, h6, h7, h8⟩

/-- An update in whose ready state the law is not due leaves it idle. -/
theorem lawIdle_swingUpdate (now : Nat) (x : SwingIn) (p : Polder) (h : lawRegime (swingReady now x p) = false) :
    LawIdle (swingReady now x p) (swingUpdate now x p) := by
  unfold swingUpdate
  extract_lets r d0 s0 pc p1 f0 p2 p3 law th vdp vdn ea a m sw th1 l wrap p4 p5 eps p6 p7 p8 p9 p10 at' p11
  have hlaw : law = false := h
  clear_value law
  subst hlaw
  refine lawIdle_of_anchor now r ea ?_
  have h4 : LawIdle a.2 p4 := (lawIdle_lawStore now x ea vdp vdn a.2 ⟨rfl, rfl, rfl, rfl⟩).of_swg (swg_refsArrive now _)
  clear_value p4
  have h5 : LawIdle a.2 p5 := h4.of_swg (swg_embUpdate ..)
  clear_value p5
  have h6 : LawIdle a.2 p6 := h5.of_swg (swg_lrnUpdate ..)
  clear_value p6
  have h7 : LawIdle a.2 p7 := lawIdle_jumpCheck _ _ _ _ (h6.of_swg (swg_showRegime now x vdp vdn p6))
  clear_value p7
  have h8 : LawIdle a.2 p8 := h7.of_swg rfl
  clear_value p8
  have h9 : LawIdle a.2 p9 := h8.of_swg ((swg_lanesUpdate ..).trans ((swg_carrierStart ..).trans (swg_chopperTest ..)))
  clear_value p9
  have h10 : LawIdle a.2 p10 := lawIdle_ite (h9.of_swg (swg_galSource ..)) h9
  clear_value p10
  have h11 : LawIdle a.2 p11 := h10.of_swg (swg_galUpdate ..)
  clear_value p11
  exact h11.of_swg (swg_capSample ..)

end Sys2Proof.Machine
end

section
/-! SUPPORT. The regime and the swing engine's state before the law of an update (O15, O16). -/
namespace Sys2Proof.Machine
open Sys2Proof

/-- Every register but `PCT_REGIME`. -/
def notRegime (off : Nat) : Prop := off ≠ A.PCT_REGIME

/-- The regime stays, unless a write has put 0 there. -/
def RegimeHeld (p q : Polder) : Prop := regime q = regime p ∨ regime q = 0

theorem regimeHeld_of_within {p q : Polder} (h : Within notRegime p q) : RegimeHeld p q := .inl (h.fget (by unfold notRegime; decide))

theorem RegimeHeld.trans {p q r : Polder} (h : RegimeHeld p q) (g : RegimeHeld q r) : RegimeHeld p r := by
  obtain g | g := g
  · obtain h | h := h
    · exact .inl (g.trans h)
    · exact .inr (g.trans h)
  · exact .inr g

theorem regimeHeld_foldl {α : Type} (f : Polder → α → Polder) (l : List α) (p : Polder) (h : ∀ q a, RegimeHeld q (f q a)) : RegimeHeld p (l.foldl f p) := by
  induction l generalizing p with
  | nil => exact .inl rfl
  | cons a l ih => exact (h p a).trans (ih _)

/-! ### The modulator's buffers -/

/-- The words of the buffers but those of `MOD_CMPi` are below 2^24. -/
theorem bufClamp_le {off : Nat} (h : ¬(A.MOD_CMP 0 ≤ off ∧ off ≤ A.MOD_CMP 3)) (v : Nat) : bufClamp off v ≤ 25600000 := by
  unfold bufClamp
  rw [if_neg h]
  split <;> omega

theorem regime_eq_zero {p : Polder} {x : Nat} (h : rd p A.PCT_REGIME = wordN x) (hx : x < 268435456) : regime p = 0 := by
  have hw : (rd p A.PCT_REGIME).toNat = x := by
    rw [h]
    exact Nat.mod_eq_of_lt (by omega)
  unfold regime fget bitsOf
  rw [hw, Nat.div_eq_of_lt (by simpa using hx), Nat.zero_mod]

/-- A buffered write, whatever it is addressed to, leaves the regime or puts 0 there. -/
theorem regimeHeld_bufferedWrite (now off : Nat) (v : Word) (p : Polder) : RegimeHeld p (bufferedWrite now off v p) := by
  unfold bufferedWrite
  extract_lets x p1 m1
  have h0 : RegimeHeld p (wr p off (wordN x)) := by
    by_cases ho : off = A.PCT_REGIME
    · have hb : x ≤ 25600000 := bufClamp_le (by rw [ho]; decide) _
      clear_value x
      exact .inr (regime_eq_zero (x := x) (by rw [ho]; exact rd_wr_self p A.PCT_REGIME _) (by omega))
    · exact regimeHeld_of_within (within_wr _ _ ho)
  have h1 : RegimeHeld p p1 := h0.trans (regimeHeld_of_within (within_evtIf _ _ (by unfold notRegime; decide)))
  clear_value p1
  have h2 : ∀ m, RegimeHeld p { p1 with mdl := m } := fun m => h1.trans (.inl rfl)
  split
  · exact h2 _
  · split
    · exact h2 _
    · exact h2 _

theorem swg_bufferedWrite (now off : Nat) (v : Word) (p : Polder) : (bufferedWrite now off v p).swg = p.swg := by
  unfold bufferedWrite
  dsimp only
  split
  · exact swg_evtIf _ _ _
  · split
    · exact swg_evtIf _ _ _
    · exact swg_evtIf _ _ _

/-- One write of a commit reaches its buffer. -/
def takeOne (now : Nat) (p a : Polder) (e : Nat × Word × Word) : Polder :=
  if ceWrote p (now / cyc) e.1 then a else bufferedWrite now e.1 (merge (rd a e.1) e.2.1 e.2.2) a

theorem takeCommitted_eq (now : Nat) (p : Polder) : takeCommitted now p =
    { p.mdl.committed.foldl (takeOne now p) p with mdl := { (p.mdl.committed.foldl (takeOne now p) p).mdl with committed := [] } } := rfl

theorem regimeHeld_takeCommitted (now : Nat) (p : Polder) : RegimeHeld p (takeCommitted now p) := by
  rw [takeCommitted_eq]
  refine regimeHeld_foldl (takeOne now p) _ p fun q e => ?_
  unfold takeOne
  split
  · exact .inl rfl
  · exact regimeHeld_bufferedWrite _ _ _ _

theorem swg_takeCommitted (now : Nat) (p : Polder) : (takeCommitted now p).swg = p.swg := by
  rw [takeCommitted_eq]
  exact swg_foldl (takeOne now p) _ p fun _ _ => swg_ite rfl (swg_bufferedWrite _ _ _ _)

section
variable {S : Nat → Prop} (hS : S A.MOD_STAT)
include hS

theorem within_lateIf (b : Bool) (p : Polder) : Within S p (lateIf b p) := within_evtIf b p hS

theorem within_reloadPer (now : Nat) (p : Polder) : Within S p (reloadPer now p) :=
  Within.trans (q := { p with mdl := { p.mdl with per := (reloadBuf now p.mdl.per).1 } }) (fun _ _ => rfl) (within_lateIf hS _ _)

theorem within_reloadCmp (now i : Nat) (p : Polder) : Within S p (reloadCmp now i p) :=
  Within.trans (q := { p with mdl := { p.mdl with cmp := vset p.mdl.cmp i (reloadBuf now (vget p.mdl.cmp i {})).1 } }) (fun _ _ => rfl)
    (within_lateIf hS _ _)

theorem within_reloadTtmr (now i : Nat) (p : Polder) : Within S p (reloadTtmr now i p) :=
  Within.trans (q := { p with mdl := { p.mdl with ttmr := vset p.mdl.ttmr i (reloadBuf now (vget p.mdl.ttmr i {})).1 } }) (fun _ _ => rfl)
    (within_lateIf hS _ _)

theorem within_reloadTon (now i : Nat) (p : Polder) : Within S p (reloadTon now i p) := by
  unfold reloadTon
  extract_lets b r side keep
  exact Within.trans (q := { p with mdl := { p.mdl with cmp := vset p.mdl.cmp i _ } }) (fun _ _ => rfl) (within_lateIf hS _ _)

end

/-- What an update makes of the modulator behind the committed buffers. -/
theorem within_modUpdate (now : Nat) (p : Polder) : Within notRegime (takeCommitted now p) (modUpdate now p) := by
  have hS : notRegime A.MOD_STAT := by unfold notRegime; decide
  unfold modUpdate
  extract_lets q m q0
  have h0 : Within notRegime q q0 := fun _ _ => rfl
  have hc : ∀ a : Polder, Within notRegime a ([0, 1, 2, 3].foldl (fun q i => reloadCmp now i q) a) := fun a =>
    within_foldl _ _ a fun b i _ => within_reloadCmp hS now i b
  have ht : ∀ a : Polder, Within notRegime a ([0, 1, 2].foldl (fun q i => reloadTtmr now i q) a) := fun a =>
    within_foldl _ _ a fun b i _ => within_reloadTtmr hS now i b
  refine within_ite (((h0.trans (within_reloadPer hS now q0)).trans (ht _)).trans (hc _)) (within_ite ?_ h0)
  exact within_ite ((h0.trans (ht _)).trans (within_foldl _ _ _ fun b i _ => within_reloadTon hS now i b))
    (((h0.trans (ht _)).trans (within_reloadPer hS now _)).trans (hc _))

theorem swg_modUpdate (now : Nat) (p : Polder) : (modUpdate now p).swg = p.swg := by
  unfold modUpdate
  extract_lets q m q0
  have h0 : q0.swg = p.swg := swg_takeCommitted now p
  clear_value q0
  have hc : ∀ a : Polder, ([0, 1, 2, 3].foldl (fun q i => reloadCmp now i q) a).swg = a.swg := fun a => swg_foldl _ _ a fun b i => swg_reloadCmp now i b
  have ht : ∀ a : Polder, ([0, 1, 2].foldl (fun q i => reloadTtmr now i q) a).swg = a.swg := fun a => swg_foldl _ _ a fun b i => swg_reloadTtmr now i b
  refine swg_ite ((hc _).trans ((ht _).trans ((swg_reloadPer now q0).trans h0))) (swg_ite ?_ h0)
  exact swg_ite ((swg_foldl _ _ _ fun b i => swg_reloadTon now i b).trans ((ht _).trans h0)) ((hc _).trans ((swg_reloadPer now _).trans ((ht _).trans h0)))

/-! ### The performance mode and the responses -/

theorem within_capFinish (p : Polder) : Within recorderRegs p (capFinish p) := by
  unfold capFinish
  extract_lets r len valid p1 p2 p3 p4 p5
  have h1 : Within recorderRegs p p1 := within_fput (f := F.CAP_STAT_STATE) p _ (.inl rfl)
  have h5 : Within recorderRegs p p5 :=
    (((h1.trans (within_wr _ _ (.inl rfl))).trans (within_wr _ _ (.inl rfl))).trans (within_wr _ _ (.inl rfl))).trans
      (within_wrTime p4 _ (.inl rfl) (.inl rfl) (.inl rfl))
  exact (h5.trans (within_wr _ _ (.inl rfl))).trans (within_capHold _)

theorem within_recRate (old new : Nat) (p : Polder) : Within recorderRegs p (recRate old new p) := by
  unfold recRate
  extract_lets g p1 r changes
  have h1 : Within recorderRegs p p1 := within_ite (within_fput (f := F.GAL_STAT_RATECHG) p _ (.inr rfl)) (.refl p)
  clear_value p1
  refine within_ite ?_ h1
  split
  · exact h1.trans fun _ _ => rfl
  · exact (h1.trans (within_capFinish p1)).trans (within_fput (f := F.CAP_STAT_TRUNC) _ _ (.inl rfl))
  · exact h1

theorem within_blockNow (p : Polder) : Within (fun o => o = A.FLT_STAT ∨ o = A.FLT_EVT) p (blockNow p) := by
  unfold blockNow
  refine within_ite (.refl p) ?_
  unfold blockEnd
  extract_lets at' b p1
  clear_value at' b
  have h1 : Within (fun o => o = A.FLT_STAT ∨ o = A.FLT_EVT) p p1 := fun _ _ => rfl
  clear_value p1
  exact ((h1.trans (within_fput (f := F.FLT_STAT_BLKCYC) p1 0 (.inl rfl))).trans (within_evtIf _ _ (.inr rfl))).trans (within_evtIf _ _ (.inr rfl))

theorem within_rateUpdate (p : Polder) : Within notRegime p (rateUpdate p) := by
  unfold rateUpdate
  extract_lets new old p1 mp
  have h1 : Within notRegime p p1 := by
    have h0 : Within notRegime p (embRate (fput p F.SWG_STAT_RATE new)) := (within_fput (f := F.SWG_STAT_RATE) p _ (by unfold notRegime; decide)).trans fun _ _ => rfl
    exact h0.trans ((within_recRate _ _ _).mono fun o ho he => by subst he; revert ho; unfold recorderRegs; decide)
  clear_value p1
  refine within_ite (.refl p) (within_ite h1 ?_)
  refine (h1.trans ((within_blockNow p1).mono fun o ho he => ?_)).trans (within_fput (f := F.FLT_STAT_MPATH) _ _ (by unfold notRegime; decide))
  subst he
  revert ho
  decide

theorem swg_recRate (old new : Nat) (p : Polder) : (recRate old new p).swg = p.swg := by
  unfold recRate
  extract_lets g p1 r changes
  have h1 : p1.swg = p.swg := swg_ite rfl rfl
  clear_value p1
  refine swg_ite ?_ h1
  split
  · exact h1
  · exact (swg_capFinish p1).trans h1
  · exact h1

theorem swg_blockNow (p : Polder) : (blockNow p).swg = p.swg := by
  unfold blockNow
  refine swg_ite rfl ?_
  unfold blockEnd
  extract_lets at' b p1
  clear_value at' b
  have h1 : p1.swg = p.swg := modFlt_swg _ _
  clear_value p1
  exact ((swg_evtIf _ _ _).trans (swg_evtIf _ _ _)).trans h1

theorem swg_rateUpdate (p : Polder) : (rateUpdate p).swg = p.swg := by
  unfold rateUpdate
  extract_lets new old p1 mp
  have h1 : p1.swg = p.swg := (swg_recRate _ _ _).trans rfl
  clear_value p1
  exact swg_ite rfl (swg_ite h1 ((fput_swg _ _ _).trans ((swg_blockNow p1).trans h1)))

/-! ### Stairs -/

theorem within_evtBit {S : Nat → Prop} (f : Fld) (k : Nat) (p : Polder) (h : S f.off) : Within S p (evtBit f k p) := within_wr p _ h

theorem within_stairShow (now k : Nat) (p : Polder) : Within notRegime p (stairShow now k p) := by
  have ho : notRegime (A.STS_OUT k) := by unfold notRegime A.STS_OUT A.PCT_REGIME; omega
  have hd : notRegime (A.STS_DWL k) := by unfold notRegime A.STS_DWL A.PCT_REGIME; omega
  have hs : notRegime A.STS_STAT := by unfold notRegime; decide
  unfold stairShow
  extract_lets x left p1
  have h1 : Within notRegime p p1 := (within_wr p _ ho).trans (within_wr _ _ hd)
  clear_value p1
  exact ((h1.trans (within_putBit (f := F.STS_STAT_STAIR_ACTIVE) _ _ _ hs)).trans (within_putBit (f := F.STS_STAT_DWELL) _ _ _ hs)).trans
    (within_putBit (f := F.STS_STAT_HELD) _ _ _ hs)

theorem swg_stairShow (now k : Nat) (p : Polder) : (stairShow now k p).swg = p.swg := by
  simp only [stairShow, putBit, wr_swg]

theorem within_setStair {S : Nat → Prop} (p : Polder) (k : Nat) (x : Stair) : Within S p (setStair p k x) := fun _ _ => rfl

theorem within_stairRamp (now k : Nat) (r : Nat → Bool) (x : Stair) (p : Polder) : Within notRegime p (stairRamp now k r x p) := by
  have he : notRegime A.STS_EVT := by unfold notRegime; decide
  unfold stairRamp
  extract_lets tgt up rate d dir next p1
  have h1 : Within notRegime p p1 := within_ite (within_evtBit F.STS_EVT_REVERSED k p he) (.refl p)
  clear_value p1
  exact within_ite (within_setStair p _ _) (within_ite ((h1.trans (within_setStair _ _ _)).trans (within_evtBit F.STS_EVT_LANDED k _ he))
    (h1.trans (within_setStair _ _ _)))

theorem swg_stairRamp (now k : Nat) (r : Nat → Bool) (x : Stair) (p : Polder) : (stairRamp now k r x p).swg = p.swg := by
  unfold stairRamp
  extract_lets tgt up rate d dir next p1
  have h1 : p1.swg = p.swg := swg_ite rfl rfl
  clear_value p1
  exact swg_ite rfl (swg_ite h1 h1)

theorem within_stairStep (now k : Nat) (r : Nat → Bool) (p : Polder) : Within notRegime p (stairStep now k r p) := by
  unfold stairStep
  extract_lets x p1
  have h1 : Within notRegime p p1 := within_ite (within_setStair _ _ _) (within_ite (within_setStair _ _ _) (within_stairRamp _ _ _ _ _))
  clear_value p1
  exact (h1.trans (within_setStair _ _ _)).trans (within_stairShow _ _ _)

theorem swg_stairStep (now k : Nat) (r : Nat → Bool) (p : Polder) : (stairStep now k r p).swg = p.swg := by
  unfold stairStep
  extract_lets x p1
  have h1 : p1.swg = p.swg := swg_ite rfl (swg_ite rfl (swg_stairRamp _ _ _ _ _))
  clear_value p1
  exact h1

theorem within_dwellCut {S : Nat → Prop} (k : Nat) (before : Cells) (p : Polder) : Within S p (dwellCut k before p) :=
  within_ite (within_setStair _ _ _) (.refl p)

theorem within_stairsStep (now : Nat) (before : Cells) (r : Nat → Bool) (p : Polder) : Within notRegime p (stairsStep now before r p) := by
  unfold stairsStep stairsShown
  exact Within.trans (within_foldl _ _ p fun q k _ => (within_dwellCut k before q).trans (within_stairStep now k r _)) (fun _ _ => rfl)

theorem swg_stairsStep (now : Nat) (before : Cells) (r : Nat → Bool) (p : Polder) : (stairsStep now before r p).swg = p.swg := by
  have hd : ∀ (q : Polder) (k : Nat), (dwellCut k before q).swg = q.swg := fun q k => swg_ite rfl rfl
  unfold stairsStep stairsShown
  exact swg_foldl (fun q k => stairStep now k r (dwellCut k before q)) _ p fun q k => (swg_stairStep now k r _).trans (hd q k)

/-! ### The ready state -/

/-- The polder before the stairs of an update step. -/
def swingBefore (now : Nat) (x : SwingIn) (p : Polder) : Polder :=
  let pc := { drawn p with swg := { (drawn p).swg with cfg := swingCells p.regs } }
  let p1 := linesUpdate now x p.swg.w (modUpdate now ((List.range 15).foldl (fun q k => respUpdate now k q) (rateUpdate pc)))
  { p1 with flt := { p1.flt with lastC := Vector.ofFn fun (k : Fin 15) => (x.vals.getD k.val 0, flagC p1 now k.val) } }

theorem swingReady_eq (now : Nat) (x : SwingIn) (p : Polder) :
    swingReady now x p = lawInit now (rounding p) x (stairsStep now p.swg.cfg (rounding p) (swingBefore now x p)) := rfl

theorem regimeHeld_swingBefore (now : Nat) (x : SwingIn) (p : Polder) : RegimeHeld p (swingBefore now x p) := by
  unfold swingBefore
  extract_lets d s pc p1
  have h0 : RegimeHeld p pc := .inl rfl
  have hf : RegimeHeld (rateUpdate pc) ((List.range 15).foldl (fun q k => respUpdate now k q) (rateUpdate pc)) :=
    regimeHeld_foldl (fun q k => respUpdate now k q) _ _ fun q k => .inl rfl
  have hm : ∀ q, RegimeHeld q (modUpdate now q) := fun q => (regimeHeld_takeCommitted now q).trans (regimeHeld_of_within (within_modUpdate now q))
  have h1 := ((h0.trans (regimeHeld_of_within (within_rateUpdate pc))).trans hf).trans (hm _)
  have h2 : RegimeHeld p p1 := h1.trans (.inl rfl)
  clear_value p1
  exact h2.trans (.inl rfl)

theorem swg_linesUpdate (now : Nat) (x : SwingIn) (w : Int) (p : Polder) : ∃ l, (linesUpdate now x w p).swg = { p.swg with lines := l } := ⟨_, rfl⟩

/-- Nothing before the law changes the swing engine's state but the settings it reads and the samples of the line voltages. -/
theorem swg_swingBefore (now : Nat) (x : SwingIn) (p : Polder) :
    ∃ c l, (swingBefore now x p).swg = { p.swg with cfg := c, lines := l } := by
  unfold swingBefore
  extract_lets d s pc p1
  have h1 : (modUpdate now ((List.range 15).foldl (fun q k => respUpdate now k q) (rateUpdate pc))).swg = pc.swg :=
    (swg_modUpdate now _).trans ((swg_foldl (fun q k => respUpdate now k q) _ _ fun q k => rfl).trans (swg_rateUpdate pc))
  obtain ⟨l, hl⟩ := swg_linesUpdate now x p.swg.w (modUpdate now ((List.range 15).foldl (fun q k => respUpdate now k q) (rateUpdate pc)))
  have h2 : p1.swg = { pc.swg with lines := l } := by
    rw [← h1]
    exact hl
  clear_value p1
  exact ⟨swingCells p.regs, l, h2⟩

theorem lawRegime_of_held {p q : Polder} (h : RegimeHeld p q) (hl : lawRegime p = false) : lawRegime q = false := by
  unfold lawRegime at hl ⊢
  obtain h | h := h
  · rw [h, hl]
  · rw [h]
    rfl

/-- Where the law is not due before an update, it is not due in its ready state, and the state of the swing engine stands. -/
theorem swingReady_of_not_law (now : Nat) (x : SwingIn) {p : Polder} (h : lawRegime p = false) :
    lawRegime (swingReady now x p) = false ∧ (swingReady now x p).swg.acc = p.swg.acc ∧ (swingReady now x p).swg.w = p.swg.w ∧
      (swingReady now x p).swg.e = p.swg.e := by
  have hr : lawRegime (stairsStep now p.swg.cfg (rounding p) (swingBefore now x p)) = false :=
    lawRegime_of_held ((regimeHeld_swingBefore now x p).trans (regimeHeld_of_within (within_stairsStep _ _ _ _))) h
  obtain ⟨c, l, hs⟩ := swg_swingBefore now x p
  have hi : swingReady now x p = stairsStep now p.swg.cfg (rounding p) (swingBefore now x p) := by
    rw [swingReady_eq]
    unfold lawInit
    rw [hr, Bool.and_false]
    rfl
  rw [hi, swg_stairsStep, hs]
  exact ⟨hr, rfl, rfl, rfl⟩

end Sys2Proof.Machine
end

section
/-! SUPPORT. The end of the law on entry to TRIPPED or SAFE (O16), and an update that is not one of the law (O15). -/
namespace Sys2Proof.Machine
open Sys2Proof

/-! ### Outputs, replies and records -/

theorem swg_order (now mask val : Nat) (p : Polder) : (order now mask val p).swg = p.swg := by
  unfold order
  extract_lets m cmd p1 p2
  have h2 : p2.swg = p1.swg := swg_foldl _ _ p1 fun q k => swg_ite rfl rfl
  clear_value p2
  exact (swg_foldl (fun q k => driveOne now k q) _ p2 fun q k => swg_ite rfl rfl).trans h2

theorem swg_driveBrk (now : Nat) (b : Bool) (p : Polder) : (driveBrk now b p).swg = p.swg := swg_ite (swg_order _ _ _ _) rfl

theorem swg_drivePre (now : Nat) (b : Bool) (p : Polder) : (drivePre now b p).swg = p.swg := swg_ite (swg_order _ _ _ _) rfl

theorem swg_logRec (now source code sev : Nat) (data : List Byte) (p : Polder) : (logRec now source code sev data p).swg = p.swg := by
  obtain ⟨r, l, n, h⟩ := logRec_shape now source code sev data p
  rw [h]

theorem swg_brkReply (o : BrkOrder) (st : Nat) (p : Polder) : (brkReply o st p).swg = p.swg := by
  unfold brkReply
  split <;> rfl

theorem swg_brkConfirm (p : Polder) : (brkConfirm p).swg = p.swg := by
  unfold brkConfirm
  split
  · exact swg_ite (swg_brkReply _ _ _) rfl
  · rfl

theorem swg_endReq (q : RegReq) (ok : Bool) (p : Polder) : (endReq q ok p).swg = p.swg := by
  unfold endReq
  dsimp only
  split
  · exact swg_ite (swg_evtIf _ _ _) (swg_evtIf _ _ _)
  · exact swg_evtIf _ _ _

theorem swg_refuseAll (p : Polder) : (refuseAll p).swg = p.swg := swg_foldl (fun q r => endReq r false q) _ _ fun q r => swg_endReq r false q

theorem within_refuseAll {S : Nat → Prop} (h : S A.PCT_REGEVT) (p : Polder) : Within S p (refuseAll p) := by
  unfold refuseAll
  exact Within.trans (q := modRgm (fun g => { g with reqs := [] }) p) (fun _ _ => rfl)
    (within_foldl _ _ _ fun q r _ off ho => by
      have hr : rd (endReq r false q) off = rd (evtIf (!false) F.PCT_REGEVT_REQ_REFUSED q) off := by
        unfold rd
        rw [regs_endReq]
      exact hr.trans (within_evtIf (S := S) (f := F.PCT_REGEVT_REQ_REFUSED) _ q h off ho))

/-! ### The breaker -/

theorem swg_brkDo (now : Nat) (close : Bool) (cmd : Option CmdRef) (p : Polder) : (brkDo now close cmd p).swg = p.swg := by
  unfold brkDo
  extract_lets p1 shut p2
  have h1 : p1.swg = p.swg := by
    show (match p.rgm.order with
      | some o => brkReply o Status.state p
      | none => p).swg = p.swg
    split
    · exact swg_brkReply _ _ _
    · rfl
  clear_value p1
  have h2 : p2.swg = p.swg := (swg_driveBrk _ _ _).trans h1
  clear_value p2
  exact (swg_brkConfirm _).trans (swg_ite h2 h2)

theorem swg_brkRelease (now : Nat) (p : Polder) : (brkRelease now p).swg = p.swg := swg_ite (swg_brkDo _ _ _ _) (swg_driveBrk _ _ _)

/-! ### A transition -/

theorem swg_setRegimeFrom (now old new phase : Nat) (p : Polder) : (setRegimeFrom now old new phase p).swg = p.swg := by
  unfold setRegimeFrom
  extract_lets p1 p2 p3 p4 p5
  have h1 : p1.swg = p.swg := swg_ite (swg_drivePre _ _ _) rfl
  have h2 : p2.swg = p.swg := (swg_evtIf _ _ p1).trans h1
  clear_value p2
  have h5 : p5.swg = p.swg := h2
  clear_value p5
  exact (swg_logRec ..).trans h5

/-! ### The sequenced safe state -/

theorem swg_dropChange (now i : Nat) (p : Polder) : (dropChange now i p).swg = p.swg := by
  unfold dropChange
  split
  · exact swg_ite rfl rfl
  · rfl

theorem swg_seqLeg (now i : Nat) (p : Polder) : (seqLeg now i p).swg = p.swg := by
  unfold seqLeg
  extract_lets q l aborted p1 g three new p2 p3
  have h1 : p1.swg = p.swg := (swg_evtIf _ _ q).trans (swg_dropChange now i p)
  have h2 : p2.swg = p.swg := h1
  clear_value p2
  exact (swg_ite h2 h2 : p3.swg = p.swg)

theorem swg_enterSafe (now : Nat) (p : Polder) : (enterSafe now p).swg = p.swg := by
  unfold enterSafe
  extract_lets p1 p2 m p3 p4
  have h1 : p1.swg = p.swg := swg_foldl _ _ p fun q i => swg_ite rfl (swg_seqLeg now i q)
  have h2 : p2.swg = p.swg := (swg_foldl (fun q i => embOff i q) _ p1 fun q i => rfl).trans h1
  clear_value p2
  have h3 : p3.swg = p.swg := h2
  clear_value p3
  exact swg_ite rfl h3

/-- The registers of the modulator, and the state of the analogue front end. -/
def safeRegs (off : Nat) : Prop := off = A.MOD_SW ∨ off = A.MOD_EVT ∨ off = A.MOD_STAT ∨ off = A.AFE_STAT

theorem within_seqLeg (now i : Nat) (p : Polder) : Within safeRegs p (seqLeg now i p) := by
  unfold seqLeg
  extract_lets q l aborted p1 g three new p2 p3
  have hq : Within safeRegs p q := by
    show Within safeRegs p (dropChange now i p)
    unfold dropChange
    split
    · exact within_ite ((within_wr p _ (.inl rfl)).trans fun _ _ => rfl) (.refl p)
    · exact .refl p
  have h1 : Within safeRegs p p1 := hq.trans (within_evtIf (f := F.MOD_EVT_DT_ABORT) _ q (.inr (.inl rfl)))
  clear_value p1
  have h2 : Within safeRegs p p2 := (h1.trans (within_wr p1 _ (.inl rfl))).trans fun _ _ => rfl
  clear_value p2
  have h3 : Within safeRegs p p3 := within_ite (h2.trans fun _ _ => rfl) h2
  clear_value p3
  exact h3.trans fun _ _ => rfl

theorem within_carrierStop (p : Polder) : Within safeRegs p (carrierStop p) :=
  Within.trans (q := modAfe (fun a => { a with restart := none }) { p with mdl := { p.mdl with carrier := none } }) (fun _ _ => rfl)
    (within_fput (f := F.AFE_STAT_CARRIER) _ _ (.inr (.inr (.inr rfl))))

theorem within_enterSafe (now : Nat) (p : Polder) : Within safeRegs p (enterSafe now p) := by
  have hm : safeRegs A.MOD_STAT := .inr (.inr (.inl rfl))
  unfold enterSafe
  extract_lets p1 p2 m p3 p4
  have h1 : Within safeRegs p p1 := within_foldl _ _ p fun q i _ => within_ite (.refl q) (within_seqLeg now i q)
  have h2 : Within safeRegs p p2 := h1.trans (within_foldl (fun q i => embOff i q) _ p1 fun q i _ => fun _ _ => rfl)
  clear_value p2
  have h3 : Within safeRegs p p3 := (h2.trans (r := { p2 with mdl := { m with sequencing := true } }) fun _ _ => rfl).trans (within_carrierStop _)
  clear_value p3
  have h4 : Within safeRegs p p4 :=
    (((h3.trans (within_fput (f := F.MOD_STAT_SEQ) p3 1 hm)).trans (within_fput (f := F.MOD_STAT_SAFE) _ 0 hm)).trans
      (within_fput (f := F.MOD_STAT_RUN) _ 0 hm)).trans (within_fput (f := F.MOD_STAT_LEGS) _ 0 hm)
  exact within_ite (.refl p) (h4.trans (within_evt (f := F.MOD_EVT_SAFE) p4 (.inr (.inl rfl))))

/-! ### Entry to TRIPPED or SAFE (R79, R113) -/

/-- Every register but the events of the swing engine. -/
def notSwingEvents (off : Nat) : Prop := off ≠ A.SWG_EVT

theorem within_driveBrk {S : Nat → Prop} (hS : ∀ o, inBlock 14 o → S o) (now : Nat) (b : Bool) (p : Polder) : Within S p (driveBrk now b p) :=
  within_ite ((within_order _ _ _ p).mono hS) (.refl p)

theorem within_drivePre {S : Nat → Prop} (hS : ∀ o, inBlock 14 o → S o) (now : Nat) (b : Bool) (p : Polder) : Within S p (drivePre now b p) :=
  within_ite ((within_order _ _ _ p).mono hS) (.refl p)

theorem within_of_regs {S : Nat → Prop} {p q : Polder} (h : q.regs = p.regs) : Within S p q := fun off _ => by
  unfold rd
  rw [h]

/-- A transition, and the order for the breaker that goes with it, concern no event of the swing engine. -/
theorem within_setRegimeFrom (now old new phase : Nat) (p : Polder) : Within notSwingEvents p (setRegimeFrom now old new phase p) := by
  have hb : ∀ o, inBlock 14 o → notSwingEvents o := fun o ho he => by subst he; revert ho; unfold inBlock; decide
  have hr : notSwingEvents A.PCT_REGIME := by unfold notSwingEvents; decide
  unfold setRegimeFrom
  extract_lets p1 p2 p3 p4 p5
  have h1 : Within notSwingEvents p p1 := within_ite (within_drivePre hb _ _ _) (.refl p)
  have h2 : Within notSwingEvents p p2 := h1.trans (within_evtIf (f := F.PCT_REGEVT_RIDE_OUT) _ p1 (by unfold notSwingEvents; decide))
  clear_value p2
  have h3 : Within notSwingEvents p p3 :=
    (((h2.trans (within_fput (f := F.PCT_REGIME_CUR) p2 new hr)).trans (within_fput (f := F.PCT_REGIME_PREV) _ old hr)).trans
      (within_fput (f := F.PCT_REGIME_PHASE) _ phase hr)).trans (within_fput (f := F.PCT_REGIME_RIDE) _ 0 hr)
  clear_value p3
  have h4 : Within notSwingEvents p p4 := h3.trans (within_wrTime p3 _ (by unfold notSwingEvents; decide) (by unfold notSwingEvents; decide)
    (by unfold notSwingEvents; decide))
  clear_value p4
  have h5 : Within notSwingEvents p p5 := h4.trans fun _ _ => rfl
  clear_value p5
  refine (h5.trans ((within_logRec _ _ _ _ _ p5).mono fun o ho he => ?_)).trans (within_of_regs rfl)
  subst he
  revert ho
  unfold logRegs
  decide

theorem within_brkRelease (now : Nat) (p : Polder) : Within notSwingEvents p (brkRelease now p) := by
  have hb : ∀ o, inBlock 14 o → notSwingEvents o := fun o ho he => by subst he; revert ho; unfold inBlock; decide
  unfold brkRelease
  refine within_ite ?_ (within_driveBrk hb _ _ _)
  unfold brkDo
  extract_lets p1 shut p2
  have h1 : Within notSwingEvents p p1 := by
    show Within notSwingEvents p (match p.rgm.order with
      | some o => brkReply o Status.state p
      | none => p)
    split
    · exact within_of_regs (regs_brkReply _ _ _)
    · exact .refl p
  clear_value p1
  have h2 : Within notSwingEvents p p2 :=
    (h1.trans (r := modRgm (fun g => { g with
      brkCmd := false, byCmd := false && (none : Option CmdRef).isSome, order := some ⟨false, now, none⟩,
      closeAt := if shut then some (now + tookN p A.SWG_BRK_TCLOSE * ms) else none }) p1) fun _ _ => rfl).trans (within_driveBrk hb _ _ _)
  clear_value p2
  exact (within_ite h2 (h2.trans (within_fput (f := F.PCT_REGIME_BRK) p2 0 (by unfold notSwingEvents; decide)))).trans (within_of_regs (regs_brkConfirm _))

theorem within_stopSwitching (now : Nat) (p : Polder) : Within notSwingEvents p (stopSwitching now p) :=
  within_ite ((within_enterSafe now p).mono fun o ho he => by subst he; revert ho; unfold safeRegs; decide) (.refl p)

theorem toStopped_events (now new : Nat) (p : Polder) :
    Within notSwingEvents (evtIf (fbit p F.SWG_STAT_RUN) F.SWG_EVT_TRIPSTOP p) (toStopped now new p) := by
  have h2 : ∀ q, Within notSwingEvents q (stopSwitching now (setRegime now new 0 q)) := fun q =>
    (within_setRegimeFrom _ _ _ _ q).trans (within_stopSwitching _ _)
  unfold toStopped
  exact (within_ite ((h2 _).trans (within_brkRelease _ _)) (h2 _)).trans (within_refuseAll (by unfold notSwingEvents; decide) _)

theorem swg_toStopped (now new : Nat) (p : Polder) : (toStopped now new p).swg = p.swg := by
  have h2 : ∀ q, (stopSwitching now (setRegime now new 0 q)).swg = q.swg := fun q =>
    (swg_ite (swg_enterSafe _ _) rfl : (stopSwitching now (setRegime now new 0 q)).swg = _).trans (swg_setRegimeFrom _ _ _ _ q)
  unfold toStopped
  exact (swg_refuseAll _).trans ((swg_ite ((swg_brkRelease _ _).trans (h2 _)) (h2 _)).trans (swg_evtIf _ _ p))

/-- Settles O16: nothing but an update of the law moves ω, θ and E, and entry to TRIPPED or SAFE marks a law that ran. -/
theorem lawStopsAndHolds : Obligations.LawStopsAndHolds := by
  unfold Obligations.LawStopsAndHolds
  refine ⟨fun now new p _ => ⟨by rw [swg_toStopped], by rw [swg_toStopped], by rw [swg_toStopped], fun hr => ?_, fun hr => ?_⟩,
    fun s t i now p x h hl => ⟨_, does_of_onRunning (f := fun now q => swingUpdate now x q) rfl h rfl, rfl, ?_⟩⟩
  · refine ((toStopped_events now new p).fbit (by unfold notSwingEvents; decide)).trans ?_
    rw [hr]
    exact fbit_evt_self' p (by decide) rfl
  · refine (toStopped_events now new p _ (by unfold notSwingEvents; decide)).trans ?_
    rw [hr]
    rfl
  · obtain ⟨hready, ha, hw, he⟩ := swingReady_of_not_law now x hl
    obtain ⟨-, h2, h3, h4, h5, h6, h7, h8⟩ := lawIdle_swingUpdate now x p hready
    exact ⟨h2.trans ha, h3.trans hw, h4.trans he, h5, h6, h7, h8⟩

/-! ### An update that a write of the modulator's buffers takes out of the law

`takeCommitted` writes whatever register an entry of `mdl.committed` names, before the update reads the regime. The commits of the model put only buffered
registers there, but the statement speaks of every state, and of the regime before the update. -/

/-- Polder A in FORMING, with a word for `PCT_REGIME` among the committed buffers of the modulator. -/
def strayBuffer : Polder :=
  { fput (resetPolder .A) F.PCT_REGIME_CUR Rg.forming with
    power := .awake, mdl := { (resetPolder .A).mdl with committed := [(A.PCT_REGIME, BitVec.allOnes 32, 0)] } }

/-- An update without samples. -/
def noInputs : SwingIn := ⟨[], 0, 0, 0, 0, 0, 0, 0, 0, 0⟩

theorem lawRegime_strayBuffer : lawRegime strayBuffer = true := by decide +kernel

theorem swingReady_strayBuffer : lawRegime (swingReady 0 noInputs strayBuffer) = false := by decide +kernel

/-- Refutes O15: in a state whose committed buffers name `PCT_REGIME` the update itself leaves the regime in which the law was due, and the law does not
run. -/
theorem not_updatesOfTheLaw : ¬ Obligations.UpdatesOfTheLaw := by
  unfold Obligations.UpdatesOfTheLaw
  intro h
  have hr : Runs { State.reset with polA := strayBuffer } 0 .A 0 strayBuffer := ⟨⟨by decide +kernel, by decide +kernel, by decide +kernel⟩, by decide +kernel, rfl⟩
  obtain ⟨q, -, hq, hran, -⟩ := h _ 0 .A 0 strayBuffer noInputs hr lawRegime_strayBuffer
  have hidle : q.swg.ran = false := hq ▸ (lawIdle_swingUpdate 0 noInputs strayBuffer swingReady_strayBuffer).ran
  exact Bool.false_ne_true (hidle.symm.trans hran)

end Sys2Proof.Machine
end

section
/-! SUPPORT. Dwell ends, the block of the anchor, and the sets and sweeps of the learner (O17). -/
namespace Sys2Proof.Machine
open Sys2Proof

/-! ### What a recorder's event changes -/

theorem galTrigger_shape (p : Polder) : ∃ r, galTrigger p = { p with regs := r } := by
  unfold galTrigger
  split
  · exact ⟨_, rfl⟩
  · exact ⟨_, rfl⟩

theorem galSource_shape (src : Nat) (p : Polder) : ∃ r, galSource src p = { p with regs := r } := by
  unfold galSource
  split
  · exact galTrigger_shape p
  · exact ⟨_, rfl⟩

theorem capHold_shape (p : Polder) : ∃ r c, capHold p = { p with regs := r, cap := c } := by
  unfold capHold
  dsimp only
  split
  · split
    · obtain ⟨r, h⟩ := galSource_shape 5 (fputB { p with cap := { p.cap with driving := (capRole p == 1 && capState p != Rec.armed) || p.cap.pulseEnd.isSome } }
        F.CAP_STAT_FIREHOLD ((capRole p == 1 && capState p != Rec.armed) || p.cap.pulseEnd.isSome))
      rw [h]
      exact ⟨_, _, rfl⟩
    · exact ⟨_, _, rfl⟩
  · exact ⟨_, _, rfl⟩

theorem capTrigger_shape (now cause : Nat) (x : Int) (p : Polder) : ∃ r c, capTrigger now cause x p = { p with regs := r, cap := c } := by
  unfold capTrigger
  extract_lets r p1 p2 pulse
  have h1 : ∃ r c, p1 = { p with regs := r, cap := c } := ⟨_, _, rfl⟩
  clear_value p1
  obtain ⟨r1, c1, rfl⟩ := h1
  have h2 : ∃ r c, p2 = { p with regs := r, cap := c } := ⟨_, _, rfl⟩
  clear_value p2 pulse
  obtain ⟨r2, c2, rfl⟩ := h2
  split
  · obtain ⟨r3, c3, h⟩ := capHold_shape { p with regs := r2, cap := if pulse then { c2 with pulseEnd := some (now + us) } else c2 }
    refine ⟨r3, c3, ?_⟩
    cases pulse
    · exact h
    · exact h
  · exact ⟨_, _, rfl⟩

/-- An event that the recorders can select changes registers and the capture engine, and counts as set in the cycle. -/
theorem evtSel_shape (now ev : Nat) (f : Fld) (p : Polder) : ∃ r c y, evtSel now ev f p = { p with regs := r, cap := c, cyc := y } := by
  have hg : ∀ b : Prop, [Decidable b] → ∃ r y, (if b then galTrigger (evt f p) else evt f p) = { p with regs := r, cyc := y } := fun b _ => by
    split
    · obtain ⟨r, h⟩ := galTrigger_shape (evt f p)
      exact ⟨r, _, h⟩
    · exact ⟨_, _, rfl⟩
  unfold evtSel recEvent
  dsimp only
  obtain ⟨r, y, h⟩ := hg (cfgGet (evt f p).gal F.GAL_CTRL_TSRC = 3 ∧ cfgGet (evt f p).gal F.GAL_CTRL_EVSEL / 2 ^ ev % 2 = 1)
  rw [h]
  split
  · obtain ⟨r', c, h'⟩ := capTrigger_shape now 0 (cycleStamp { p with regs := r, cyc := y } now) { p with regs := r, cyc := y }
    exact ⟨r', c, y, h'⟩
  · exact ⟨r, _, y, rfl⟩

/-! ### Dwells (R269) -/

theorem stair_setStair_self (p : Polder) {k : Nat} (x : Stair) (h : k < 4) : stair (setStair p k x) k = x := vget_vset_self _ _ _ h

theorem stairDwell_of_due {now a : Nat} {p : Polder} {x : Stair} (h : x.dwellEnd = some a) (ha : a ≤ now) :
    stairDwell now p x = { x with dwellEnd := none } := by
  unfold stairDwell
  rw [h]
  exact if_pos (.inl ha)

theorem sts_stairShow (now k : Nat) (p : Polder) : (stairShow now k p).sts = p.sts := by
  simp only [stairShow, putBit, wr_sts]

/-- The registers of a stair without a dwell in progress. -/
theorem rd_stairShow_DWL {now k : Nat} {p : Polder} (hk : k < 4) (h : (stair p k).dwellEnd = none) : rd (stairShow now k p) (A.STS_DWL k) = 0 := by
  have hw : ∀ q a b c, Within (· = A.STS_STAT) q (putBit (putBit (putBit q F.STS_STAT_STAIR_ACTIVE k a) F.STS_STAT_DWELL k b) F.STS_STAT_HELD k c) :=
    fun q a b c => ((within_putBit (S := (· = A.STS_STAT)) q k a rfl).trans (within_putBit (S := (· = A.STS_STAT)) _ k b rfl)).trans
      (within_putBit (S := (· = A.STS_STAT)) _ k c rfl)
  unfold stairShow
  refine (hw _ _ _ _ _ (by unfold A.STS_DWL A.STS_STAT; omega)).trans ?_
  rw [rd_wr_self, h]
  rfl

/-! ### A coefficient set (R190) -/

theorem within_evtSel {S : Nat → Prop} (now ev : Nat) (f : Fld) (p : Polder) (hf : S f.off) (hr : ∀ o, recorderRegs o → S o) :
    Within S p (evtSel now ev f p) :=
  (within_evt p hf).trans ((within_recEvent now ev _).mono hr)

theorem newCoef_of_not_inMask {p : Polder} {c : Cells} {fk : Int} {eps : List (Int × Int × Int)} {gain : Bool} {i : Nat}
    (h : inMask c (i % 128 / 2) = false) : newCoef p c fk eps gain i = 0 := by
  unfold newCoef
  dsimp only
  rw [h]
  rfl

theorem rd_coefWords (p : Polder) (f : Nat → Int) {k : Nat} (hk : k < 384) : rd (wrAll p (coefWords f)) (A.LRN_COEF k) = toQ28 (f k) :=
  rd_wrAll_run p (A.LRN_COEF 0) 384 (fun i => toQ28 (f i)) hk

/-- The polder after COEFFICIENT_SET_COMPLETE: the words of a set that is `val` or the same without its gain, and a sweep that is due. -/
theorem coefficientSet_eq (now : Nat) {p : Polder} {c : Cells} {fk : Int} {eps : List (Int × Int × Int)} (hj : p.lrn.job = some (c, fk, eps)) :
    ∃ (gain b : Bool) (lim : Int), coefficientSet now p = sweepStart now true lim
      (if b then evtSel now Ev.lrnClamp F.LRN_EVT_CLAMP (wrAll (drawn { p with lrn := { p.lrn with job := none } }) (coefWords (newCoef p c fk eps gain)))
        else wrAll (drawn { p with lrn := { p.lrn with job := none } }) (coefWords (newCoef p c fk eps gain))) := by
  unfold coefficientSet
  rw [hj]
  dsimp only
  cases clamps _ _ with
  | true => exact ⟨false, true, _, rfl⟩
  | false => exact ⟨true, false, _, rfl⟩

theorem lrn_wrAll (p : Polder) (l : List (Nat × Word)) : (wrAll p l).lrn = p.lrn := by
  unfold wrAll
  induction l generalizing p with
  | nil => rfl
  | cons e l ih => exact ih _

theorem coefficientSet_of_job (now : Nat) {p : Polder} {c : Cells} {fk : Int} {eps : List (Int × Int × Int)} (hj : p.lrn.job = some (c, fk, eps)) :
    (coefficientSet now p).lrn.job = none ∧ (coefficientSet now p).lrn.sweepFrom = some now ∧
      fbit (coefficientSet now p) F.LRN_STAT_SWEEP = true ∧
      ∀ k, k < 384 → inMask c (k % 128 / 2) = false → rd (coefficientSet now p) (A.LRN_COEF k) = 0 := by
  obtain ⟨gain, b, lim, he⟩ := coefficientSet_eq now hj
  rw [he]
  generalize hl : coefWords (newCoef p c fk eps gain) = l
  have hq : ∀ q, (if b then evtSel now Ev.lrnClamp F.LRN_EVT_CLAMP q else q).lrn = q.lrn ∧
      Within (fun o => o < A.LRN_COEF 0 ∨ A.LRN_COEF 384 ≤ o) q (if b then evtSel now Ev.lrnClamp F.LRN_EVT_CLAMP q else q) := fun q => by
    split
    · refine ⟨?_, within_evtSel _ _ _ _ (by decide) fun o ho => ?_⟩
      · obtain ⟨r, x, y, h⟩ := evtSel_shape now Ev.lrnClamp F.LRN_EVT_CLAMP q
        rw [h]
      · unfold recorderRegs at ho
        unfold A.LRN_COEF
        omega
    · exact ⟨rfl, .refl q⟩
  obtain ⟨hlrn, hw⟩ := hq (wrAll (drawn { p with lrn := { p.lrn with job := none } }) l)
  rw [lrn_wrAll] at hlrn
  generalize (if b then evtSel now Ev.lrnClamp F.LRN_EVT_CLAMP (wrAll (drawn { p with lrn := { p.lrn with job := none } }) l)
    else wrAll (drawn { p with lrn := { p.lrn with job := none } }) l) = q at hlrn hw ⊢
  refine ⟨congrArg LrnState.job hlrn, rfl, fbit_of_fget (fget_fput_self _ _ _ (by decide)), fun k hk hm => ?_⟩
  have h1 : Within (· = A.LRN_STAT) q (sweepStart now true lim q) :=
    Within.trans (q := { q with lrn := { q.lrn with sweepFrom := some now, sweepBase := none, swept := 0, sweepCounts := true, clim := lim } }) (fun _ _ => rfl)
      (within_fput (f := F.LRN_STAT_SWEEP) _ 1 rfl)
  rw [h1 _ (by unfold A.LRN_COEF A.LRN_STAT; omega), hw _ (by unfold A.LRN_COEF; omega), ← hl, rd_coefWords _ _ hk, newCoef_of_not_inMask hm]
  rfl

/-! ### The end of a sweep (R191) -/

/-- A group in which every entry of a register has the same word. -/
theorem rd_wrAll_of_forall {l : List (Nat × Word)} (p : Polder) {o : Nat} {w : Word} (hm : o ∈ l.map Prod.fst) (h : ∀ e ∈ l, e.1 = o → e.2 = w) :
    rd (wrAll p l) o = w := by
  induction l using List.reverseRecOn generalizing p with
  | nil => simp at hm
  | append_singleton l e ih =>
    have he : wrAll p (l ++ [e]) = wr (wrAll p l) e.1 e.2 := List.foldl_append
    rw [he]
    by_cases ho : e.1 = o
    · rw [← ho, rd_wr_self]
      exact h e (by simp) ho
    · rw [rd_wr_ne _ _ (Ne.symm ho)]
      refine ih p ?_ fun x hx => h x (by simp [hx])
      simpa [Ne.symm ho] using hm

/-- The words that a sweep has still to write. -/
def sweepRest (p : Polder) (b : Nat) : List (Nat × Word) := (List.range (4096 - p.lrn.swept)).flatMap fun k => sweepEntries p ((b + p.lrn.swept + k) % 4096)

theorem mem_sweepEntries {p : Polder} {j ph : Nat} {e : Nat × Word} (h : e ∈ sweepEntries p j) (hj : j < 4096) {i : Nat} (hi : i < 4096) (hph : ph < 3)
    (ho : e.1 = 0x200000 + 0x4000 * ph + 4 * i) : e.2 = toQ28 (clampI (-p.lrn.clim) p.lrn.clim (synth (coefOf p) ph i)) := by
  unfold sweepEntries at h
  obtain ⟨ph', hph', rfl⟩ := List.mem_map.mp h
  have hp := List.mem_range.mp hph'
  dsimp only at ho ⊢
  obtain rfl : ph' = ph := by omega
  obtain rfl : j = i := by omega
  rfl

theorem rd_wrAll_sweepRest (q : Polder) {p : Polder} {b ph k : Nat} (hph : ph < 3) (hk : p.lrn.swept ≤ k) (hk2 : k < 4096) :
    rd (wrAll q (sweepRest p b)) (0x200000 + 0x4000 * ph + 4 * ((b + k) % 4096)) =
      toQ28 (clampI (-p.lrn.clim) p.lrn.clim (synth (coefOf p) ph ((b + k) % 4096))) := by
  refine rd_wrAll_of_forall q ?_ fun e he ho => ?_
  · have hm : (0x200000 + 0x4000 * ph + 4 * ((b + k) % 4096), toQ28 (clampI (-p.lrn.clim) p.lrn.clim (synth (coefOf p) ph ((b + k) % 4096)))) ∈
        sweepEntries p ((b + p.lrn.swept + (k - p.lrn.swept)) % 4096) := by
      rw [show b + p.lrn.swept + (k - p.lrn.swept) = b + k by omega]
      exact List.mem_map.mpr ⟨ph, List.mem_range.mpr hph, rfl⟩
    exact List.mem_map.mpr ⟨_, List.mem_flatMap.mpr ⟨k - p.lrn.swept, List.mem_range.mpr (by omega), hm⟩, rfl⟩
  · obtain ⟨a, -, ha⟩ := List.mem_flatMap.mp he
    exact mem_sweepEntries ha (Nat.mod_lt _ (by decide)) (Nat.mod_lt _ (by decide)) hph ho

theorem sweepEnd_of_due {a : Nat} {p : Polder} (h : p.lrn.sweepFrom = some a) :
    (sweepEnd p).lrn.sweepFrom = none ∧ fbit (sweepEnd p) F.LRN_STAT_SWEEP = false ∧
      ∀ o, 0x200000 ≤ o → rd (sweepEnd p) o = rd (wrAll p (sweepRest p (p.lrn.sweepBase.getD ((p.lrn.lastRead + 1) % 4096)))) o := by
  unfold sweepEnd
  rw [h]
  dsimp only
  have h0 : ∀ o, rd (sweepTo 4096 p) o = rd (wrAll p (sweepRest p (p.lrn.sweepBase.getD ((p.lrn.lastRead + 1) % 4096)))) o := fun _ => rfl
  generalize sweepTo 4096 p = q at h0
  generalize wordI (sweepPeak p) = w
  have h1 : fbit (wr (fput q F.LRN_STAT_SWEEP 0) A.LRN_PEAK w) F.LRN_STAT_SWEEP = false := by
    rw [(within_wr (S := (· = A.LRN_PEAK)) (fput q F.LRN_STAT_SWEEP 0) w rfl).fbit (by decide)]
    unfold fbit
    rw [fget_fput_self _ _ _ (by decide)]
    rfl
  have h2 : ∀ b : Bool, Within (· = A.LRN_CYCLES) (wr (fput q F.LRN_STAT_SWEEP 0) A.LRN_PEAK w)
      (if b then addWrap (wr (fput q F.LRN_STAT_SWEEP 0) A.LRN_PEAK w) A.LRN_CYCLES 1 else wr (fput q F.LRN_STAT_SWEEP 0) A.LRN_PEAK w) := fun b =>
    within_ite (within_wr _ _ rfl) (.refl _)
  refine ⟨rfl, ?_, fun o ho => ?_⟩
  · exact ((h2 _).fbit (by decide)).trans h1
  · have h3 : Within (fun o => o = A.LRN_STAT ∨ o = A.LRN_PEAK) q (wr (fput q F.LRN_STAT_SWEEP 0) A.LRN_PEAK w) :=
      (within_fput (f := F.LRN_STAT_SWEEP) q 0 (.inl rfl)).trans (within_wr _ _ (.inr rfl))
    exact ((h2 _ o (by unfold A.LRN_CYCLES; omega)).trans (h3 o (by unfold A.LRN_STAT A.LRN_PEAK; omega))).trans (h0 o)

/-- Settles O17: each event at its condition. -/
theorem dwellsAnchorAndLearner : Obligations.DwellsAnchorAndLearner := by
  unfold Obligations.DwellsAnchorAndLearner
  intro s t i now p h
  refine ⟨fun k a hk hd ha => ⟨_, does_of_onIndex (f := fun now q => dwellEnd' now k q) rfl hk h rfl, ?_⟩, fun a ha ht hb => ?_, fun a ha ht => ?_,
    fun c fk eps hc hj => ⟨_, does_of_onRunning (f := ifCe fun now q => if rdN q A.LRN_CYCLES = rdN p A.LRN_CYCLES then coefficientSet now q else q) rfl h rfl, ?_⟩,
    fun a b ha hb => ⟨_, does_of_onRunning (f := fun _ q => sweepEnd q) rfl h rfl, ?_⟩, fun hc ha ht => ?_⟩
  · have hs : stair (setStair p k (stairDwell now p (stair p k))) k = { stair p k with dwellEnd := none } := by
      rw [stair_setStair_self _ _ hk, stairDwell_of_due hd ha]
    have ho : stair (dwellEnd' now k p) k = stair (setStair p k (stairDwell now p (stair p k))) k := by
      unfold dwellEnd' stair
      rw [sts_stairShow]
    rw [ho, hs]
    exact ⟨rfl, rfl, rd_stairShow_DWL hk (congrArg Stair.dwellEnd hs)⟩
  · refine does_of_onRunning (f := anchorBlock) rfl h ?_
    unfold anchorBlock
    rw [ha]
    exact if_pos ⟨ht, hb⟩
  · refine does_of_onRunning (f := anchorUnblock) rfl h ?_
    unfold anchorUnblock
    rw [ha]
    exact if_pos ht
  · have he : ifCe (fun now q => if rdN q A.LRN_CYCLES = rdN p A.LRN_CYCLES then coefficientSet now q else q) now p = coefficientSet now p :=
      (if_pos hc).trans (if_pos rfl)
    rw [he]
    exact coefficientSet_of_job now hj
  · subst hb
    obtain ⟨h1, h2, h3⟩ := sweepEnd_of_due ha
    refine ⟨h1, h2, fun ph k j hph hk hk2 hj => ?_⟩
    subst hj
    rw [h3 _ (by omega), rd_wrAll_sweepRest p hph hk hk2]
  · refine does_of_onRunning (f := ifCe lrnAutosave) rfl h ?_
    unfold ifCe lrnAutosave
    rw [if_pos hc, ha, decide_eq_true ht]
    rfl

end Sys2Proof.Machine
end

section
/-!
SUPPORT. O25: the level change that the spacing rule delays, and the controller that hears of the delay.
-/
namespace Sys2Proof.Machine
open Sys2Proof

/-- Polder A switches in HB; a move of the controller waits on leg a, which has just moved, and is to take effect at 1 fs. -/
def delayedMove : Polder :=
  let p := fput { resetPolder .A with power := .awake, mdl := { (resetPolder .A).mdl with sequencing := true } } F.MOD_STAT_RUN 1
  setPhase (modLeg p 0 fun l => { l with sched := [⟨.pos, 0, .embankment⟩], moved := true, level := .neg }) 0 { moveEff := some 1 }

/-- The device with that polder. -/
def delayedState : State := { State.reset with polA := delayedMove }

/-- The polder that the statement's clause gives: the move waits, and the controller has not heard. -/
def unheard : Polder :=
  modLeg (evt F.MOD_EVT_MINP delayedMove) 0 fun x =>
    { x with sched := [⟨.pos, earliest delayedMove 0 0, .embankment⟩] }

theorem heard_of_levelChange : (phaseOf ((delayedState.after 0 .A (levelChange 0 0 delayedMove)).pol .A) 0).moveEff ≠ some 1 := by decide +kernel

theorem moveEff_of_unheard : (phaseOf ((delayedState.after 0 .A unheard).pol .A) 0).moveEff = some 1 := by decide +kernel

/-- Refutes O25: a move of the controller that the spacing rule delays takes effect that much later, of which the controller hears (`retimeMove`, R131,
R159); the clause for a change that comes too early leaves the controller's phase as it was. -/
theorem not_decisionsAndLevelChanges : ¬ Obligations.DecisionsAndLevelChanges := by
  unfold Obligations.DecisionsAndLevelChanges
  rintro ⟨-, h⟩
  have hr : Runs delayedState 0 .A 0 delayedMove := ⟨⟨by decide +kernel, by decide +kernel, by decide +kernel⟩, by decide +kernel, rfl⟩
  have hwaits : exec (.levelChange 0 .A 0) delayedState = .next (delayedState.after 0 .A unheard) :=
    ((h delayedState 0 .A 0 delayedMove 0 hr (by decide)).1 ⟨.pos, 0, .embankment⟩ [] (by decide +kernel) (by decide) (by decide +kernel)
      (by decide +kernel) (by decide +kernel) (by decide +kernel)).2 (by decide +kernel)
  have hmodel : exec (.levelChange 0 .A 0) delayedState = .next (delayedState.after 0 .A (levelChange 0 0 delayedMove)) :=
    does_of_onIndex (f := fun now q => levelChange now 0 q) (n := 4) (j := 0) rfl (by decide) hr rfl
  injection hwaits.symm.trans hmodel with hsame
  exact heard_of_levelChange (hsame ▸ moveEff_of_unheard)

end Sys2Proof.Machine
end

section
/-!
SUPPORT. Legs and switches of the modulator (R154 to R157, R163): what a new switch state and a level change write, and what they leave of the other
legs. With O26.
-/
namespace Sys2Proof.Machine
open Sys2Proof

variable {p q : Polder} {i j k : Nat}

/-! ### Legs and links -/

theorem leg_modLeg_self (p : Polder) (h : k < 4) (f : Leg → Leg) : leg (modLeg p k f) k = f (leg p k) := vget_vset_self _ _ _ h

theorem leg_modLeg_ne (p : Polder) (h : j ≠ k) (f : Leg → Leg) : leg (modLeg p k f) j = leg p j := vget_vset_ne _ _ _ h

theorem linkOf_modLink_self (p : Polder) (h : k < 4) (f : Link → Link) : linkOf (modLink p k f) k = f (linkOf p k) := vget_vset_self _ _ _ h

theorem linkOf_modLink_ne (p : Polder) (h : j ≠ k) (f : Link → Link) : linkOf (modLink p k f) j = linkOf p j := vget_vset_ne _ _ _ h

theorem leg_of_mdl (h : q.mdl = p.mdl) (j : Nat) : leg q j = leg p j := by unfold leg; rw [h]

theorem leg_evtIf (b : Bool) (f : Fld) (p : Polder) (j : Nat) : leg (evtIf b f p) j = leg p j := by
  cases b <;> rfl

/-! ### Switch states -/

theorem swOf_of_within {S : Nat → Prop} (h : Within S p q) (hS : ¬S A.MOD_SW) (k : Nat) : swOf q k = swOf p k := by
  unfold swOf
  rw [h A.MOD_SW hS]

theorem swOf_wr_self (p : Polder) (h : k < 4) {v : Nat} (hv : v < 16) :
    swOf (wr p A.MOD_SW (withBits (rd p A.MOD_SW) (4 * k + 3) (4 * k) v)) k = v := by
  have hb := bitsOf_withBits_self (rd p A.MOD_SW) (4 * k + 3) (4 * k) v (by omega)
  unfold swOf
  rw [rd_wr_self, hb, show 4 * k + 3 + 1 - 4 * k = 4 by omega]
  exact Nat.mod_eq_of_lt hv

theorem swOf_wr_ne (p : Polder) (h : j ≠ k) (v : Nat) : swOf (wr p A.MOD_SW (withBits (rd p A.MOD_SW) (4 * k + 3) (4 * k) v)) j = swOf p j := by
  unfold swOf
  rw [rd_wr_self, bitsOf_withBits_ne _ v (by omega)]

theorem interlock_mod (three : Bool) (s : Nat) : interlock three s = interlock three (s % 16) := by
  unfold interlock
  rw [Nat.mod_mod]

theorem interlock_lt (three : Bool) (s : Nat) : interlock three s < 16 := by
  rw [interlock_mod]
  have : ∀ b, ∀ v < 16, interlock b v < 16 := by decide
  exact this three _ (Nat.mod_lt _ (by decide))

/-- R156 in a 3-level leg: S1 with S2 on and S3, S4 off; S4 with S3 on and S1, S2 off. -/
theorem interlock_three (s : Nat) :
    ((interlock true s).testBit 0 = true →
      (interlock true s).testBit 1 = true ∧ (interlock true s).testBit 2 = false ∧ (interlock true s).testBit 3 = false) ∧
    ((interlock true s).testBit 3 = true →
      (interlock true s).testBit 2 = true ∧ (interlock true s).testBit 1 = false ∧ (interlock true s).testBit 0 = false) := by
  rw [interlock_mod]
  have : ∀ v < 16, ((interlock true v).testBit 0 = true →
      (interlock true v).testBit 1 = true ∧ (interlock true v).testBit 2 = false ∧ (interlock true v).testBit 3 = false) ∧
    ((interlock true v).testBit 3 = true →
      (interlock true v).testBit 2 = true ∧ (interlock true v).testBit 1 = false ∧ (interlock true v).testBit 0 = false) := by decide
  exact this _ (Nat.mod_lt _ (by decide))

/-- R156 in a 2-level leg: S1 and S4 are not on together. -/
theorem interlock_two (s : Nat) : (interlock false s).testBit 0 = true → (interlock false s).testBit 3 = false := by
  rw [interlock_mod]
  have : ∀ v < 16, (interlock false v).testBit 0 = true → (interlock false v).testBit 3 = false := by decide
  exact this _ (Nat.mod_lt _ (by decide))

/-- The states of a level pass the interlock: those of a 3-level leg are 0, 3, 6 and 12, those of a 2-level leg 0, 1, 6 and 8. -/
theorem interlock_levelSw (p : Polder) (k : Nat) (l : LegLevel) : interlock (threeLevel p k) (levelSw p k l) = levelSw p k l := by
  unfold levelSw
  cases threeLevel p k with
  | true => cases l <;> simp [interlock]
  | false => cases l with
    | neg =>
      cases decide (k = 3) && fbit p F.MOD_CTRL_AUX_CFG <;> simp [interlock]
    | off | pos | zero => simp [interlock]

/-- What new switch states do: `MOD_SW` shows them behind the interlock, and the link gets an edge when they differ. -/
theorem putEdge_eq (p : Polder) (k t want sink source : Nat) :
    (swOf p k = interlock (threeLevel p k) want ∧ putEdge k t want sink source p = p) ∨
    (swOf p k ≠ interlock (threeLevel p k) want ∧ putEdge k t want sink source p =
      modLink (wr p A.MOD_SW (withBits (rd p A.MOD_SW) (4 * k + 3) (4 * k) (interlock (threeLevel p k) want))) k
        fun l => { l with edgeTimes := edgeSeen t l.edgeTimes, edges := l.edges ++ [⟨t, interlock (threeLevel p k) want, sink, source⟩] }) := by
  unfold putEdge
  by_cases h : swOf p k = interlock (threeLevel p k) want
  · exact .inl ⟨h, if_pos h⟩
  · exact .inr ⟨h, if_neg h⟩

theorem swOf_putEdge (p : Polder) (h : k < 4) (t want sink source : Nat) :
    swOf (putEdge k t want sink source p) k = interlock (threeLevel p k) want := by
  obtain ⟨hs, he⟩ | ⟨-, he⟩ := putEdge_eq p k t want sink source
  · rw [he, hs]
  · rw [he]
    exact swOf_wr_self p h (interlock_lt _ _)

theorem mdl_putEdge (p : Polder) (k t want sink source : Nat) : (putEdge k t want sink source p).mdl = p.mdl := by
  obtain ⟨-, he⟩ | ⟨-, he⟩ := putEdge_eq p k t want sink source <;> rw [he]
  rfl

theorem mdl_switchTo (p : Polder) (k t want : Nat) (r : Bool) : (switchTo k t want r p).mdl = p.mdl := mdl_putEdge _ _ _ _ _ _

theorem swOf_switchTo (p : Polder) (h : k < 4) (t want : Nat) (r : Bool) :
    swOf (switchTo k t want r p) k = interlock (threeLevel p k) want := swOf_putEdge p h _ _ _ _

/-! ### Level changes -/

theorem leg_reloadPer (now : Nat) (p : Polder) (j : Nat) : leg (reloadPer now p) j = leg p j := leg_evtIf _ _ _ _

theorem leg_reloadCmp (now i : Nat) (p : Polder) (j : Nat) : leg (reloadCmp now i p) j = leg p j := leg_evtIf _ _ _ _

theorem leg_reloadTtmr (now i : Nat) (p : Polder) (j : Nat) : leg (reloadTtmr now i p) j = leg p j := leg_evtIf _ _ _ _

theorem leg_reloadTon (now i : Nat) (p : Polder) (j : Nat) : leg (reloadTon now i p) j = leg p j := leg_evtIf _ _ _ _

theorem leg_reloadLeg (now i : Nat) (p : Polder) (j : Nat) : leg (reloadLeg now i p) j = leg p j := by
  unfold reloadLeg
  split
  · rw [leg_reloadTon, leg_reloadTtmr]
  · rw [leg_reloadCmp, leg_reloadPer, leg_reloadTtmr]

theorem within_reloadLeg {S : Nat → Prop} (hS : S A.MOD_STAT) (now i : Nat) (p : Polder) : Within S p (reloadLeg now i p) := by
  unfold reloadLeg
  split
  · exact (within_reloadTtmr hS _ _ _).trans (within_reloadTon hS _ _ _)
  · exact ((within_reloadTtmr hS _ _ _).trans (within_reloadPer hS _ _)).trans (within_reloadCmp hS _ _ _)

/-- A timer starts with the leg's registers reloaded, or does not start. -/
theorem startTimer_cases (i a : Nat) (m : Move) (p : Polder) :
    startTimer i a m p = p ∨ ∃ x, startTimer i a m p = modLeg (reloadLeg a i p) i fun l => { l with timer := some x } := by
  unfold startTimer
  dsimp only
  split
  · exact .inr ⟨_, rfl⟩
  · exact .inl rfl

theorem leg_startTimer_ne (h : j ≠ i) (a : Nat) (m : Move) (p : Polder) : leg (startTimer i a m p) j = leg p j := by
  obtain he | ⟨x, he⟩ := startTimer_cases i a m p <;> rw [he]
  rw [leg_modLeg_ne _ h, leg_reloadLeg]

theorem leg_startTimer_self (h : i < 4) (a : Nat) (m : Move) (p : Polder) :
    (leg (startTimer i a m p) i).trans = (leg p i).trans ∧ (leg (startTimer i a m p) i).level = (leg p i).level := by
  obtain he | ⟨x, he⟩ := startTimer_cases i a m p <;> rw [he]
  · exact ⟨rfl, rfl⟩
  · rw [leg_modLeg_self _ h, leg_reloadLeg]
    exact ⟨rfl, rfl⟩

theorem swOf_startTimer (i a : Nat) (m : Move) (p : Polder) (k : Nat) : swOf (startTimer i a m p) k = swOf p k := by
  obtain he | ⟨x, he⟩ := startTimer_cases i a m p <;> rw [he]
  exact swOf_of_within (within_reloadLeg (S := fun o => o = A.MOD_STAT) rfl a i p) (by decide) k

theorem regs_heard (i eff dead : Nat) (m : Move) (p : Polder) : (heard i eff dead m p).regs = p.regs := by
  unfold heard
  split
  · rfl
  · split <;> rfl

theorem mdl_heard (i eff dead : Nat) (m : Move) (p : Polder) : (heard i eff dead m p).mdl = p.mdl := by
  unfold heard
  split
  · rfl
  · split <;> rfl

theorem leg_heard (i eff dead : Nat) (m : Move) (p : Polder) (j : Nat) : leg (heard i eff dead m p) j = leg p j := leg_of_mdl (mdl_heard _ _ _ _ _) j

theorem swOf_heard (i eff dead : Nat) (m : Move) (p : Polder) (k : Nat) : swOf (heard i eff dead m p) k = swOf p k := by
  unfold swOf rd
  rw [regs_heard]

/-- A change that has switches to turn off and others to turn on takes the dead time: its outgoing edge, then what waits in the leg. -/
theorem doMove_of_wait (p : Polder) (h : k < 4) (eff : Nat) (m : Move) (hoff : (swOf p k ^^^ levelSw p k m.level) &&& swOf p k ≠ 0)
    (hon : (swOf p k ^^^ levelSw p k m.level) &&& levelSw p k m.level ≠ 0) :
    swOf (doMove k eff m p) k = interlock (threeLevel p k) (swOf p k &&& levelSw p k m.level) ∧
      (leg (doMove k eff m p) k).trans = some ((swOf p k ^^^ levelSw p k m.level) &&& levelSw p k m.level, eff + deadFs p k) ∧
      (leg (doMove k eff m p) k).level = m.level ∧ ∀ j, j ≠ k → leg (doMove k eff m p) j = leg p j := by
  unfold doMove
  extract_lets old new off on dt wait p1 p2 p3
  have hw : wait = true := by simp [wait, off, on, old, new, hoff, hon]
  have hp1 : p1 = switchTo k (edgeAt p k eff) (old &&& new) false p := if_pos hw
  refine ⟨?_, ?_, ?_, fun j hj => ?_⟩
  · rw [swOf_startTimer, swOf_heard]
    show swOf p1 k = _
    rw [hp1, swOf_switchTo p h]
  · rw [(leg_startTimer_self h _ _ _).1, leg_heard, leg_modLeg_self _ h, leg_modLeg_self _ h]
    exact if_pos hw
  · rw [(leg_startTimer_self h _ _ _).2, leg_heard, leg_modLeg_self _ h, leg_modLeg_self _ h]
  · rw [leg_startTimer_ne hj, leg_heard, leg_modLeg_ne _ hj, leg_modLeg_ne _ hj, hp1]
    exact leg_of_mdl (mdl_switchTo _ _ _ _ _) j

/-- What a new switch state leaves: nothing changes unless the states differ, and then one edge joins the link's. -/
theorem putEdge_frame (p : Polder) (h : k < 4) (t want sink source : Nat) :
    (interlock (threeLevel p k) want = swOf p k → putEdge k t want sink source p = p) ∧
    (interlock (threeLevel p k) want ≠ swOf p k →
      (linkOf (putEdge k t want sink source p) k).edges = (linkOf p k).edges ++ [⟨t, interlock (threeLevel p k) want, sink, source⟩]) ∧
    ∀ j, j ≠ k → swOf (putEdge k t want sink source p) j = swOf p j ∧ linkOf (putEdge k t want sink source p) j = linkOf p j := by
  obtain ⟨hs, he⟩ | ⟨hs, he⟩ := putEdge_eq p k t want sink source
  · exact ⟨fun _ => he, fun hn => absurd hs.symm hn, fun j _ => he.symm ▸ ⟨rfl, rfl⟩⟩
  · refine ⟨fun hn => absurd hn.symm hs, fun _ => ?_, fun j hj => ?_⟩ <;> rw [he]
    · rw [linkOf_modLink_self _ h]
      rfl
    · exact ⟨swOf_wr_ne p hj _, linkOf_modLink_ne _ hj _⟩

/-- Settles O26: the dead time by the case of `doMove` that takes it, the interlock over its sixteen states. -/
theorem deadTimeSeparatesSwitches : Obligations.DeadTimeSeparatesSwitches := by
  unfold Obligations.DeadTimeSeparatesSwitches
  refine ⟨fun p k eff m hk hoff hon => ?_, ?_⟩
  · obtain ⟨hsw, htrans, hlevel, hframe⟩ := doMove_of_wait p hk eff m hoff hon
    exact ⟨hsw, htrans, hlevel, fun j hj _ => hframe j hj⟩
  · rintro p q k t want sink source w hk rfl rfl
    obtain ⟨hsame, hedge, hframe⟩ := putEdge_frame p hk t want sink source
    rw [swOf_putEdge p hk]
    refine ⟨fun h3 => h3 ▸ (interlock_three want).1, fun h3 => h3 ▸ (interlock_three want).2, fun h3 => h3 ▸ interlock_two want, ?_, hsame, hedge,
      fun j _ hj => hframe j hj⟩
    rintro l rfl
    exact interlock_levelSw p k l

end Sys2Proof.Machine
end

section
/-!
SUPPORT. O27: timers, carrier, refresh pulses and the sequenced safe state (R163, R164, R167, R172, R177 to R181).
-/
namespace Sys2Proof.Machine
open Sys2Proof

variable {p q : Polder} {now k : Nat}

/-! ### Timers and the carrier -/

/-- A fold over the legs in which one leg alone acts. -/
theorem foldl_legs_of_only {f : Polder → Nat → Polder} (hk : k < 4) (ha : f p k = q) (hp : ∀ j < 4, j ≠ k → f p j = p)
    (hq : ∀ j < 4, j ≠ k → f q j = q) : [0, 1, 2, 3].foldl f p = q := by
  match k, hk with
  | 0, _ => simp [ha, hq]
  | 1, _ => simp [ha, hp, hq]
  | 2, _ => simp [ha, hp, hq]
  | 3, _ => simp [ha, hp]

theorem timerMove_of_due {x : LegTimer} (h : (leg p k).timer = some x) (ht : x.ends ≤ now) (hl : (leg p k).level ≠ timerLevel p k)
    (hs : (leg p k).sched = []) :
    timerMove now k p = levelChange now k (askMove k ⟨timerLevel p k, max x.ends (holdBound p k (linkLead p k + deadFs p k)), .timer⟩
      (modLeg p k fun l => { l with timer := none })) := by
  unfold timerMove
  rw [h]
  dsimp only
  rw [if_pos ht, if_neg (not_or.mpr ⟨hl, not_not_intro hs⟩)]

theorem within_armRestart {S : Nat → Prop} (hS : S A.AFE_STAT) (e : Nat) (c : Bool) (p : Polder) : Within S p (armRestart e c p) := by
  unfold armRestart carrierShow
  extract_lets x
  refine Within.trans (q := if x = 3 ∨ x = (if c then 2 else 1) then modAfe (fun a => { a with restart := some (restartAt p e) }) p else p) ?_
    (within_fput _ _ hS)
  exact within_ite (fun _ _ => rfl) (.refl p)

theorem modMode_armRestart (e : Nat) (c : Bool) (p : Polder) : modMode (armRestart e c p) = modMode p :=
  (within_armRestart (S := fun o => o = A.AFE_STAT) rfl e c p).fget (by decide)

theorem legCentre_of_idle (b c : Nat) (hc : carrierLeg p k = false) (hm : modMode p ≠ Mode.cpwm) : legCentre b c k p = p := by
  unfold legCentre
  rw [hc, beq_false_of_ne hm]
  rfl

theorem carrierLeg_of_phase (hk : k < 3) (hm : modMode p ≠ Mode.cpwm) : carrierLeg p k = false := by
  unfold carrierLeg
  rw [if_neg (by omega)]
  exact beq_false_of_ne hm

theorem modMode_legCentre (b c i : Nat) (p : Polder) : modMode (legCentre b c i p) = modMode p := by
  have hton : modMode (reloadTon c i p) = modMode p := (within_reloadTon (S := fun o => o = A.MOD_STAT) rfl c i p).fget (by decide)
  unfold legCentre
  split
  · exact hton
  · rfl

/-- Outside CPWM the centre with `UPD` at 1 concerns GL3 alone. -/
theorem centreReload_of_aux {b : Nat} (hb : p.mdl.carrier = some b) (ht : b + p.mdl.per.inForce * bin / 2 ≤ now) (hd : p.mdl.centreDue = true)
    (hu : fbit p F.MOD_CTRL_UPD = true) (hm : modMode p ≠ Mode.cpwm) :
    centreReload now p = legCentre b (b + p.mdl.per.inForce * bin / 2) 3
      (armRestart (b + p.mdl.per.inForce * bin / 2) true { p with mdl := { p.mdl with centreDue := false } }) := by
  have hdue : (decide (b + p.mdl.per.inForce * bin / 2 ≤ now) && p.mdl.centreDue) = true := by rw [decide_eq_true ht, hd]; rfl
  unfold centreReload
  rw [hb]
  dsimp only
  rw [if_pos hdue, if_pos hu, if_neg hm]
  have hidle : ∀ q, modMode q = modMode p → ∀ j < 4, j ≠ 3 → legCentre b (b + p.mdl.per.inForce * bin / 2) j q = q := fun q hq j _ _ =>
    legCentre_of_idle b _ (carrierLeg_of_phase (by omega) (hq ▸ hm)) (hq ▸ hm)
  have harm := modMode_armRestart (b + p.mdl.per.inForce * bin / 2) true { p with mdl := { p.mdl with centreDue := false } }
  exact foldl_legs_of_only (by decide) rfl (hidle _ harm) (hidle _ ((modMode_legCentre _ _ _ _).trans harm))

/-! ### Refresh pulses -/

theorem refreshStep_of_due {r : Refresh} (h : (leg p k).refresh = some r) (ht : r.next ≤ now) : refreshStep now k p =
    (match r.step with
      | 1 => modLeg (switchTo k (edgeAt p k r.next) (swOf p k ||| r.low) true p) k fun l =>
          { l with refresh := some { r with step := 2, next := r.next + rdN p A.MOD_BS_TRF * ns } }
      | 2 => modLeg (switchTo k (edgeAt p k r.next) (swOf p k &&& (15 ^^^ r.low)) true p) k fun l =>
          { l with refresh := some { r with step := 3, next := r.next + deadFs p k } }
      | _ => refreshEnd k r.next r p) := by
  unfold refreshStep
  rw [h]
  exact if_pos ht

theorem refreshPulse_of_due {h : Nat} (hh : (leg p k).highSince = some h) (ht : h + rdN p A.MOD_BS_TMAX * us ≤ now)
    (he : getBit p F.MOD_CTRL_BS_EN k = true) (htr : (leg p k).trans = none) (hrf : (leg p k).refresh = none) (hsq : (leg p k).seq = none)
    (hd : downBy p k now = false) : refreshPulse now k p = refreshStart k now p := by
  have hdue : decide (h + rdN p A.MOD_BS_TMAX * us ≤ now) = true := decide_eq_true ht
  unfold refreshPulse
  dsimp only
  rw [hh, htr, hrf, hsq, hd]
  exact if_pos (by rw [Option.any_some, hdue, he]; rfl)

theorem starvation_of_due (hk : k < 3) (hm : modMode p ≠ Mode.cpwm) (hrun : fbit p F.MOD_STAT_RUN = true) (ht : (leg p k).taken = false)
    (hq : (leg p k).seq = none) (hu : (leg p k).refsUntil + 5 * us ≤ now) :
    starvation now k p = { p with dike := { p.dike with starved := true } } := by
  unfold starvation
  simp [hk, hm, hrun, ht, hq, hu]

theorem refreshEnd_fields (hk : k < 4) (a : Nat) (r : Refresh) (p : Polder) :
    (leg (refreshEnd k a r p) k).refresh = none ∧ (leg (refreshEnd k a r p) k).lastMove = a ∧
      swOf (refreshEnd k a r p) k = interlock (threeLevel p k) (swOf p k ||| r.high) := by
  have hsw := swOf_switchTo p hk (edgeAt p k a) (swOf p k ||| r.high) true
  unfold refreshEnd
  extract_lets p1 p2
  have hleg : (leg p2 k).refresh = none ∧ (leg p2 k).lastMove = a := by
    rw [show leg p2 k = _ from leg_modLeg_self p1 hk _]
    exact ⟨rfl, rfl⟩
  split
  · exact ⟨hleg.1, hleg.2, hsw⟩
  · exact ⟨hleg.1, hleg.2, hsw⟩

/-! ### The sequenced safe state -/

theorem leg_safeLast_ne {j : Nat} (h : j ≠ k) (a e : Nat) (p : Polder) : leg (safeLast k a e p) j = leg p j := by
  unfold safeLast
  extract_lets p1
  rw [leg_modLeg_ne _ h]
  show leg p1 j = _
  exact leg_of_mdl (by unfold p1; split <;> rfl) j

theorem safeStep2_of_one {a e : Nat} (hk : k < 4) (h : (leg p k).seq = some ⟨some a, e⟩) (ha : a ≤ now) (ho : ∀ j < 4, j ≠ k → (leg p j).seq = none) :
    safeStep2 now p = safeLast k a e p := by
  refine foldl_legs_of_only hk ?_ (fun j hj hne => ?_) fun j hj hne => ?_
  · rw [h]
    exact if_pos ha
  · rw [ho j hj hne]
  · rw [leg_safeLast_ne hne, ho j hj hne]

/-- The legs once none is sequenced any more. -/
theorem seq_unsequenced (hk : k < 4) (p : Polder) : (leg ([0, 1, 2, 3].foldl (fun q i => modLeg q i fun l => { l with seq := none }) p) k).seq = none := by
  match k, hk with
  | 0, _ | 1, _ | 2, _ | 3, _ => simp [leg_modLeg_self, leg_modLeg_ne]

theorem seqEnd_of_over (h : p.mdl.sequencing = true) (ho : ∀ k < 4, seqOver now (leg p k) = true) :
    (seqEnd now p).mdl.sequencing = false ∧ fget (seqEnd now p) F.MOD_STAT_SEQ = 0 ∧ fget (seqEnd now p) F.MOD_STAT_SAFE = 1 ∧
      ∀ k < 4, (leg (seqEnd now p) k).seq = none := by
  have hall : (p.mdl.sequencing && [0, 1, 2, 3].all fun i => seqOver now (leg p i)) = true := by simp [h, ho]
  unfold seqEnd
  rw [if_pos hall]
  refine ⟨rfl, ?_, ?_, fun k hk => seq_unsequenced hk p⟩
  · rw [fget_fput_bits _ _ (by decide)]
    exact fget_fput_self _ _ _ (by decide)
  · exact fget_fput_self _ _ _ (by decide)

/-- Settles O27: each event by the branch of its handler. -/
theorem modulatorTimersAndSafeState : Obligations.ModulatorTimersAndSafeState := by
  unfold Obligations.ModulatorTimersAndSafeState
  refine ⟨fun s t i now p k hr hk => ⟨?_, ?_, ?_, ?_, ?_, ?_, ?_, ?_, ?_⟩, fun s t i now p hr => ⟨?_, ?_, ?_⟩⟩
  · intro x hx ht hm hl hs
    refine does_of_onIndex (f := fun now q => timerMove now k q) rfl hk hr ?_
    have hlevel : timerLevel p k = lowLevel p k := if_pos hm
    rw [timerMove_of_due hx ht (hlevel ▸ hl) hs, hlevel]
  · intro x hx ht hm hl hs
    refine does_of_onIndex (f := fun now q => timerMove now k q) rfl hk hr ?_
    have hlevel : timerLevel p k = highLevel p k := if_neg (by rw [hm]; decide)
    rw [timerMove_of_due hx ht (hlevel ▸ hl) hs, hlevel]
  · rintro t0 e m q hx ht hu rfl
    refine does_of_onIndex (f := fun now q => timerMidpoint now k q) rfl hk hr ?_
    unfold timerMidpoint
    rw [hx]
    dsimp only
    rw [if_pos ht, if_pos hu]
  · intro b hb ht
    refine does_of_onRunning (f := periodBoundary) rfl hr ?_
    unfold periodBoundary
    rw [hb]
    exact if_pos ht
  · rintro b e hb rfl ht hd hu hm hx
    refine does_of_onRunning (f := centreReload) rfl hr ?_
    exact centreReload_of_aux hb ht hd hu hm
  · intro h hh ht he htr hrf hsq hd
    refine does_of_onIndex (f := fun now q => refreshPulse now k q) rfl hk hr ?_
    exact refreshPulse_of_due hh ht he htr hrf hsq hd
  · intro r hx hs ht
    refine does_of_onIndex (f := fun now q => refreshStep now k q) rfl hk hr ?_
    rw [refreshStep_of_due hx ht, hs]
    rfl
  · intro r hx hs ht
    refine does_of_onIndex (f := fun now q => refreshStep now k q) rfl hk hr ?_
    rw [refreshStep_of_due hx ht, hs]
    rfl
  · intro r hx hs ht
    refine ⟨_, does_of_onIndex (f := fun now q => refreshStep now k q) rfl hk hr ?_, refreshEnd_fields hk r.next r p⟩
    rw [refreshStep_of_due hx ht, hs]
    rfl
  · intro k a e hk hq ha ho
    exact does_of_onRunning (f := safeStep2) rfl hr (safeStep2_of_one hk hq ha ho)
  · intro hs ho hl
    refine ⟨_, does_of_onRunning (f := fun now q => l2LegEnd now (seqEnd now q)) rfl hr ?_, seqEnd_of_over hs ho⟩
    have hd : (seqEnd now p).dike.l2Leg = none := by
      unfold seqEnd
      split <;> exact hl
    unfold l2LegEnd
    rw [hd]
  · intro k hk hm hrun ht hq hu
    exact does_of_onIndex (f := fun now q => starvation now k q) (n := 4) rfl (by omega) hr (starvation_of_due hk hm hrun ht hq hu)

end Sys2Proof.Machine
end

section
/-!
SUPPORT. Bits of a field, the slot frame and its samples (R214 to R220). With O30.
-/
namespace Sys2Proof.Machine
open Sys2Proof

variable {p q : Polder} {now k : Nat}

/-! ### Bits of a field -/

theorem getBit_of_rd {f : Fld} (h : rd q f.off = rd p f.off) (k : Nat) : getBit q f k = getBit p f k := by
  unfold getBit
  rw [h]

theorem getBit_wr_bit (p : Polder) {f : Fld} (h : f.lo + k < 32) (b : Bool) :
    getBit (wr p f.off (withBits (rd p f.off) (f.lo + k) (f.lo + k) (bn b))) f k = b := by
  unfold getBit
  rw [rd_wr_self, withBits_getLsbD, decide_eq_true h, if_pos ⟨le_rfl, le_rfl⟩, Nat.sub_self]
  cases b <;> rfl

theorem getBit_putBit_self (p : Polder) {f : Fld} (h : f.lo + k < 32) (b : Bool) : getBit (putBit p f k b) f k = b := getBit_wr_bit p h b

theorem getBit_evtBit_self (p : Polder) {f : Fld} (h : f.lo + k < 32) : getBit (evtBit f k p) f k = true := getBit_wr_bit p h true

/-- A write of one bit leaves the other bits of every field alone. -/
theorem getBit_putBit_ne (p : Polder) {f g : Fld} {j : Nat} (b : Bool) (h : f.lo + k ≠ g.lo + j) : getBit (putBit p f k b) g j = getBit p g j := by
  unfold getBit putBit
  by_cases ho : g.off = f.off
  · rw [ho, rd_wr_self, withBits_getLsbD, if_neg (by omega)]
    by_cases h32 : g.lo + j < 32
    · rw [decide_eq_true h32, Bool.true_and]
    · rw [decide_eq_false h32, Bool.false_and, BitVec.getLsbD_of_ge _ _ (by omega)]
  · rw [rd_wr_ne p _ ho]

theorem fget_putBit (p : Polder) {f g : Fld} (k : Nat) (b : Bool) (h : g.hi < f.lo + k ∨ f.lo + k < g.lo) : fget (putBit p f k b) g = fget p g :=
  fget_fput_bits (f := ⟨f.off, f.lo + k, f.lo + k⟩) p (bn b) h

theorem codeOf_lt (n : Nat) (x : Int) : codeOf n x < 2 ^ n := by
  unfold codeOf
  have hpos : (0 : Int) < ((2 ^ n : Nat) : Int) := by exact_mod_cast Nat.pos_of_neZero (2 ^ n)
  have h0 := Int.emod_nonneg x hpos.ne'
  have h1 := Int.emod_lt_of_pos x hpos
  omega

/-! ### What the recorders leave -/

/-- A tap sample of the capture engine changes registers, the engine's own state and the free word alone. -/
theorem capFinish_shape (p : Polder) : ∃ r c, capFinish p = { p with regs := r, cap := c } := by
  unfold capFinish
  extract_lets r len valid p1 p2 p3 p4 p5
  obtain ⟨a, b, h⟩ := capHold_shape (wr p5 A.CAP_PER (wordN (r.period / ns)))
  exact ⟨a, b, by rw [h]; simp only [p5, p4, p3, p2, p1, wrTime]; simp⟩

theorem wrAll_shape (p : Polder) (l : List (Nat × Word)) : ∃ r, wrAll p l = { p with regs := r } := by
  refine ⟨(wrAll p l).regs, ?_⟩
  unfold wrAll
  induction l generalizing p with
  | nil => rfl
  | cons e l ih => exact ih (wr p e.1 e.2)

theorem capWrite_shape (x : Int) (ws : List Word) (p : Polder) : ∃ r c, capWrite x ws p = { p with regs := r, cap := c } := by
  unfold capWrite
  extract_lets r len base p1 row p2
  obtain ⟨r1, h1⟩ : ∃ r, p1 = { p with regs := r } := wrAll_shape _ _
  have h2 : p2 = { p with regs := r1, cap := p2.cap } := by
    simp only [p2, h1, setRec]
  clear_value row p2
  cases row with
  | none => exact ⟨_, _, h2⟩
  | some a =>
    dsimp only
    split
    · obtain ⟨r3, c3, h3⟩ := capFinish_shape p2
      exact ⟨r3, c3, by rw [h3, h2]⟩
    · exact ⟨_, _, h2⟩

theorem capSample_shape (now tap : Nat) (x : Int) (val : Nat → Int × Nat) (p : Polder) :
    ∃ r c f, capSample now tap x val p = { p with regs := r, cap := c, free := f } := by
  unfold capSample
  extract_lets r n v p1 r1 rdy acc r2 p2
  obtain ⟨a, b, h1⟩ : ∃ a b, p1 = { p with regs := a, cap := b } := by
    simp only [p1]
    split
    · split
      · exact capTrigger_shape _ _ _ _
      · exact ⟨_, _, rfl⟩
    · exact ⟨_, _, rfl⟩
  have h2 : p2 = { p with regs := a, cap := p2.cap } := by
    simp only [p2, h1, setRec]
  clear_value p2
  split
  · split
    · exact ⟨_, _, _, h2⟩
    · obtain ⟨a3, b3, h3⟩ := capWrite_shape x (capWords p2 r2 acc r2.count) (drawn p2)
      exact ⟨a3, b3, _, by rw [h3, h2]; rfl⟩
  · exact ⟨_, _, _, rfl⟩

/-! ### Samples (R220) -/

theorem regs_testSample (now k : Nat) (code : Int) (flag : Nat) (p : Polder) : (testSample now k code flag p).regs = p.regs := by
  unfold testSample
  split
  · split <;> rfl
  · rfl

theorem showSample_fields (now : Nat) (code : Int) {flag : Nat} (p : Polder) (hk : k < 15) (hf : flag < 4) :
    fget (showSample now k code flag p) (F.AFE_RAW_CODE k) = codeOf 16 code ∧ fget (showSample now k code flag p) (F.AFE_RAW_FLAG k) = flag ∧
      (flag = 2 → getBit (showSample now k code flag p) F.AFE_OVR_AIN k = true ∧ fbit (showSample now k code flag p) F.AFE_EVT_OVR = true) := by
  unfold showSample
  extract_lets p0 p1
  have hcode : fget p1 (F.AFE_RAW_CODE k) = codeOf 16 code := by
    rw [fget_fput_bits _ _ (.inl (by show 15 < 16; decide)), fget_fput_self _ _ _ (by show 15 < 32; decide)]
    exact Nat.mod_eq_of_lt (codeOf_lt 16 code)
  have hflag : fget p1 (F.AFE_RAW_FLAG k) = flag := by
    rw [fget_fput_self _ _ _ (by show 17 < 32; decide)]
    exact Nat.mod_eq_of_lt hf
  clear_value p1
  split
  · have hraw : ∀ f : Fld, f.off = A.AFE_RAW k → fget (evt F.AFE_EVT_OVR (evtBit F.AFE_OVR_AIN k p1)) f = fget p1 f := fun f ho =>
      ((within_evtBit (S := fun o => o = A.AFE_OVR ∨ o = A.AFE_EVT) F.AFE_OVR_AIN k p1 (.inl rfl)).trans (within_evt _ (.inr rfl))).fget
        (by rw [ho]; unfold A.AFE_RAW A.AFE_OVR A.AFE_EVT; omega)
    refine ⟨(hraw _ rfl).trans hcode, (hraw _ rfl).trans hflag, fun _ => ⟨?_, fbit_evt_self' _ (by decide) rfl⟩⟩
    rw [getBit_of_rd (p := evtBit F.AFE_OVR_AIN k p1) (within_evt (S := fun o => o = A.AFE_EVT) _ rfl _ (by decide))]
    exact getBit_evtBit_self _ (by show 0 + k < 32; omega)
  · next h => exact ⟨hcode, hflag, fun h2 => absurd h2 h⟩

end Sys2Proof.Machine
end

section
/-!
SUPPORT. O30: the slot frame with its restarts (R215 to R219) and the fast samples (R214, R222).
-/
namespace Sys2Proof.Machine
open Sys2Proof

variable {p q : Polder} {now k : Nat}

/-! ### The slot frame -/

theorem frameRestart_of_later {t : Nat} (h : ∀ r, p.afe.restart = some r → t < r) : frameRestart t p = p := by
  unfold frameRestart
  split
  · next r hr => exact if_neg fun hd => absurd hd.1 (Nat.not_le.mpr (h r hr))
  · rfl

theorem frameRestart_of_due {r t : Nat} (hr : p.afe.restart = some r) (ht : r ≤ t) (hc : carrierOn p = true) (he : eventDue p r = false)
    (h0 : p.afe.frameAt ≠ r) (h1 : p.afe.frameAt + 1600 * ns ≠ r) :
    frameRestart t p = { p with afe := { p.afe with restart := none, frameAt := r, slot := 0 } } := by
  unfold frameRestart
  rw [hr]
  dsimp only
  rw [if_pos ⟨ht, he⟩, if_neg]
  · rfl
  · rw [hc, beq_false_of_ne h0, beq_false_of_ne h1]
    decide

/-- The place of the next slot, from the slot that has passed. -/
def slotAfter (slot : Nat) (f : AfeState) : AfeState :=
  if slot = 15 then { f with frameAt := f.frameAt + 1600 * ns, slot := 0 } else { f with slot := slot + 1 }

/-- A due slot, on the polder that the restart before it has left: it converts unless it is abandoned, and the frame moves on. -/
theorem slotSample_of_due (x : SlotIn) (hq : frameRestart (min now (p.afe.frameAt + p.afe.slot * 100 * ns)) p = q)
    (hd : q.afe.frameAt + q.afe.slot * 100 * ns ≤ now) :
    slotSample now x p = afeShow (modAfe (slotAfter q.afe.slot)
      (if abandoned q (q.afe.frameAt + q.afe.slot * 100 * ns) then evt F.AFE_EVT_ABORT (if q.afe.slot = 0 then frameCount q else q)
        else slotConvert (q.afe.frameAt + q.afe.slot * 100 * ns) x q)) := by
  unfold slotSample
  rw [hq]
  exact if_pos hd

/-! ### Fast samples -/

theorem afe_showSample (now k : Nat) (code : Int) (flag : Nat) (p : Polder) : ∃ t, (showSample now k code flag p).afe = { p.afe with test := t } := by
  have h : ∃ t, (testSample now k code flag p).afe = { p.afe with test := t } := by
    unfold testSample
    split
    · split
      · exact ⟨_, rfl⟩
      · exact ⟨_, rfl⟩
    · exact ⟨_, rfl⟩
  obtain ⟨t, ht⟩ := h
  unfold showSample
  extract_lets p0 p1
  have h1 : p1.afe = { p.afe with test := t } := ht
  clear_value p1
  exact ⟨t, by split <;> exact h1⟩

theorem afe_fastOne (now k : Nat) (raw : Int) (ovr : Bool) (p : Polder) :
    ∃ t, (fastOne now k raw ovr p).afe = { p.afe with
      test := t,
      fast := vset p.afe.fast k ((((convert p k 128 raw ovr).1, if (convert p k 128 raw ovr).2 then 2 else bn (inputSus p k)) ::
        vget p.afe.fast k []).take 3) } := by
  unfold fastOne
  extract_lets c flag
  obtain ⟨t, ht⟩ := afe_showSample now k c.1 flag p
  refine ⟨t, ?_⟩
  unfold modAfe
  dsimp only
  rw [ht]

theorem shadowLate_of_none (now : Nat) (h : p.afe.shadow = none) : shadowLate now p = p := by
  unfold shadowLate
  rw [h]

theorem releaseStep_of_none (fast mc0 : Bool) (h : p.afe.released = none) : releaseStep fast mc0 p = p := by
  unfold releaseStep
  rw [h]

theorem afe_markStream (now k flag : Nat) (p : Polder) : (markStream now k flag p).afe = p.afe := by
  unfold markStream
  dsimp only
  split <;> rfl

theorem afe_embSample (now : Nat) (med : List (Int × Nat)) (p : Polder) : (embSample now med p).afe = p.afe := by
  simp only [embSample, List.foldl, embSamplePhase, modPhase, setPhase]
  rfl

/-- A fast sample without a shadow sample to check and an input to release: the history of input 0 takes the sample, and the grid moves on. -/
theorem fastConvert_afe (a : Nat) (x : FastIn) (p : Polder) (hs : p.afe.shadow = none) (hr : p.afe.released = none) :
    (fastConvert a x p).afe.fastAt = a ∧ (fastConvert a x p).afe.fastNext = a + smpFs p ∧
      vget (fastConvert a x p).afe.fast 0 [] = (((convert p 0 128 x.codes.1 (x.ovr.testBit 0)).1,
        if (convert p 0 128 x.codes.1 (x.ovr.testBit 0)).2 then 2 else bn (inputSus p 0)) :: vget p.afe.fast 0 []).take 3 := by
  obtain ⟨t0, h0⟩ := afe_fastOne a 0 x.codes.1 (x.ovr.testBit 0) p
  obtain ⟨t1, h1⟩ := afe_fastOne a 1 x.codes.2.1 (x.ovr.testBit 1) (fastOne a 0 x.codes.1 (x.ovr.testBit 0) p)
  obtain ⟨t2, h2⟩ := afe_fastOne a 2 x.codes.2.2 (x.ovr.testBit 2) (fastOne a 1 x.codes.2.1 (x.ovr.testBit 1) (fastOne a 0 x.codes.1 (x.ovr.testBit 0) p))
  unfold fastConvert
  extract_lets p1 p2 med peak
  have hp1 : p1.afe.shadow = none ∧ p1.afe.released = none ∧ vget p1.afe.fast 0 [] = (((convert p 0 128 x.codes.1 (x.ovr.testBit 0)).1,
        if (convert p 0 128 x.codes.1 (x.ovr.testBit 0)).2 then 2 else bn (inputSus p 0)) :: vget p.afe.fast 0 []).take 3 := by
    refine ⟨?_, ?_, ?_⟩
    · rw [show p1.afe = _ from h2, h1, h0]
      exact hs
    · rw [show p1.afe = _ from h2, h1, h0]
      exact hr
    · rw [show p1.afe = _ from h2]
      dsimp only
      rw [vget_vset_ne _ _ _ (by decide), h1]
      dsimp only
      rw [vget_vset_ne _ _ _ (by decide), h0]
      exact vget_vset_self _ _ _ (by decide)
  clear_value p1
  have hp2 : p2.afe = { p1.afe with fastAt := a, fastNext := a + smpFs p } := by
    simp only [p2, shadowLate_of_none a hp1.1, releaseStep_of_none true false hp1.2.1]
    rfl
  clear_value p2
  have hq : (embSample a [med 0, med 1, med 2] (modFlt (fun f => { f with peak := peak })
      ([0, 1, 2].foldl (fun q k => markStream a k (med k).2 q) p2))).afe = p2.afe := by
    rw [afe_embSample, modFlt_afe]
    simp only [List.foldl, afe_markStream]
  rw [hq, hp2]
  exact ⟨rfl, rfl, hp1.2.2⟩

theorem afe_capSample (now tap : Nat) (x : Int) (val : Nat → Int × Nat) (p : Polder) : (capSample now tap x val p).afe = p.afe := by
  obtain ⟨r, c, f, h⟩ := capSample_shape now tap x val p
  rw [h]

theorem afe_fastSample (x : FastIn) (h : p.afe.fastNext ≤ now) : (fastSample now x p).afe = (fastConvert p.afe.fastNext x p).afe := by
  unfold fastSample
  rw [if_neg (Nat.not_lt.mpr h)]
  exact afe_capSample _ _ _ _ _

/-- Settles O30: a slot by what the restart before it leaves, a sample by the registers it shows. -/
theorem slotsAndSamples : Obligations.SlotsAndSamples := by
  unfold Obligations.SlotsAndSamples
  refine ⟨fun s t i now p hr => ⟨?_, ?_, ?_⟩, fun p now k code flag hk hf => showSample_fields now code p hk hf, ?_⟩
  · rintro x a next rfl ha rfl
    refine ⟨fun hlater hab => ?_, ?_, ?_⟩
    · refine does_of_onRunning (f := fun now q => slotSample now x q) rfl hr ?_
      rw [slotSample_of_due x (frameRestart_of_later fun r h => by rw [Nat.min_eq_right ha]; exact hlater r h) ha, hab]
      rfl
    · rintro e hlater hab rfl
      refine does_of_onRunning (f := fun now q => slotSample now x q) rfl hr ?_
      rw [slotSample_of_due x (frameRestart_of_later fun r h => by rw [Nat.min_eq_right ha]; exact hlater r h) ha, hab]
      rfl
    · rintro r q c hre hra hc he h0 h1 rfl hab rfl
      refine does_of_onRunning (f := fun now q => slotSample now x q) rfl hr ?_
      have hslot : ∀ y : Nat, y + 0 * 100 * ns = y := fun y => by rw [Nat.zero_mul, Nat.add_zero]
      rw [slotSample_of_due x (frameRestart_of_due hre (by rw [Nat.min_eq_right ha]; exact hra) hc he h0 h1) (by
        show r + 0 * 100 * ns ≤ now
        rw [hslot]
        exact hra.trans ha)]
      dsimp only
      rw [hslot, hab]
      rfl
  · intro a hre ha hc he h0 h1
    exact does_of_onRunning (f := frameRestart) rfl hr (frameRestart_of_due hre ha hc he h0 h1)
  · intro hse ht
    refine does_of_onRunning (f := settlingEnd) rfl hr ?_
    unfold settlingEnd settling
    rw [hse, decide_eq_true ht]
    rfl
  · intro s t i now p x hr hn hs hrel
    obtain ⟨hat, hnext, hfast⟩ := fastConvert_afe p.afe.fastNext x p hs hrel
    refine ⟨_, does_of_onRunning (f := fun now q => fastSample now x q) rfl hr rfl, ?_⟩
    rw [afe_fastSample x hn]
    exact ⟨hat, hnext, hfast⟩

end Sys2Proof.Machine
end

section
/-!
SUPPORT. O31: the window comparators (R227, R230, R231) and the levels of an input test (R228, R229).
-/
namespace Sys2Proof.Machine
open Sys2Proof

variable {p q : Polder} {now k : Nat}

/-! ### Comparators -/

theorem vset_vget {α : Type} {n : Nat} (v : Vector α n) (d : α) {j : Nat} (h : j < n) : vset v j (vget v j d) = v := by
  refine Vector.ext fun i hi => ?_
  unfold vset vget
  rw [Vector.getElem_setIfInBounds hi, Vector.getElem?_eq_getElem h]
  split
  · next e => subst e; rfl
  · rfl

/-- The masks of a comparator depend on no bit of `AFE_CMP_STAT`. -/
theorem cmpMasked_putBit {f : Fld} (ho : f.off = A.AFE_CMP_STAT) (hb : f.lo + k < 24) (j : Nat) (b : Bool) (p : Polder) :
    cmpMasked j (putBit p f k b) = cmpMasked j p := by
  have hsrc : ∀ c, cmpInput (putBit p f k b) c = cmpInput p c := fun c => fget_putBit p k b (.inr hb)
  have hset : settling (putBit p f k b) = settling p :=
    (within_putBit (S := fun o => o = A.AFE_CMP_STAT) p k b ho).fbit (by decide)
  have htest : ∀ f' : Fld, f'.off = A.AFE_TEST → fget (putBit p f k b) f' = fget p f' := fun f' h' =>
    (within_putBit (S := fun o => o = A.AFE_CMP_STAT) p k b ho).fget (by rw [h']; decide)
  have hroute : ∀ n, (testCode (putBit p f k b) n).isSome = (testCode p n).isSome := by
    intro n
    unfold testCode testRoute fbit
    rw [htest F.AFE_TEST_EN rfl, htest F.AFE_TEST_INPUT rfl, htest F.AFE_TEST_CODE rfl]
    rw [show (putBit p f k b).dike = p.dike from rfl]
    cases p.dike.cmpTest with
    | none => rfl
    | some c =>
      dsimp only
      rw [hsrc]
      split <;> rfl
  unfold cmpMasked
  rw [hsrc, hroute]
  rfl

theorem acting_cmpFollow (now : Nat) (p : Polder) (hk : k < 6) :
    (vget (cmpFollow now k p).afe.cmps k {}).acting =
      (fbit p (F.AFE_CMP_CFG_EN k) && getBit p F.AFE_CMP_STAT_OUT k && !cmpBlanked now k p && !cmpMasked k p) := by
  unfold cmpFollow
  extract_lets c on' p1
  have h : (vget p1.afe.cmps k {}).acting = on' := by
    rw [show vget p1.afe.cmps k {} = { c with acting := on' } from vget_vset_self _ _ _ hk]
  split <;> exact h

/-- A comparator that does not act and is not to act stays as it is. -/
theorem cmpFollow_of_idle (hk : k < 6) (ha : (vget p.afe.cmps k {}).acting = false)
    (hb : (fbit p (F.AFE_CMP_CFG_EN k) && getBit p F.AFE_CMP_STAT_OUT k && !cmpBlanked now k p && !cmpMasked k p) = false) :
    cmpFollow now k p = p := by
  unfold cmpFollow
  rw [hb]
  dsimp only
  rw [Bool.false_and, if_neg Bool.false_ne_true]
  have hc : ∀ c : CmpState, c.acting = false → { c with acting := false } = c := fun c h => by rw [← h]
  unfold modAfe
  dsimp only
  rw [hc _ ha, vset_vget _ _ hk]

theorem cmpFollow_rises (hk : k < 6) (ha : (vget p.afe.cmps k {}).acting = false)
    (hb : (fbit p (F.AFE_CMP_CFG_EN k) && getBit p F.AFE_CMP_STAT_OUT k && !cmpBlanked now k p && !cmpMasked k p) = true) :
    getBit (cmpFollow now k p) ⟨A.AFE_EVT, 31, 0⟩ (8 + k) = true := by
  unfold cmpFollow
  rw [hb]
  dsimp only
  rw [ha]
  exact getBit_evtBit_self (f := F.AFE_EVT_OVR) _ (by show 0 + (8 + k) < 32; omega)

/-- A comparator writes no register but `AFE_EVT`. -/
theorem rd_cmpFollow (now k : Nat) (p : Polder) {o : Nat} (h : o ≠ A.AFE_EVT) : rd (cmpFollow now k p) o = rd p o := by
  unfold cmpFollow
  dsimp only
  split
  · exact within_evtBit (S := fun o => o = A.AFE_EVT) _ _ _ rfl o h
  · rfl

/-! ### The input test -/

theorem inputTestLevel_of_full {x : InputTest} {l : List Nat} (hx : p.afe.test = some x) (hi : x.inputs = k :: l) (hn : 64 ≤ x.count) :
    inputTestLevel now k x.level p =
      (let bad := x.failing || levelBad k x.level x.sum x.ovrs
      if x.level + 1 < (testLevels k).length then inputTestGo now { x with level := x.level + 1, sums := x.sums ++ [x.sum], failing := bad } p
      else
        let y := { x with
          inputs := l, level := 0, sums := [], failing := false,
          results := x.results ++ [(k, judgeInput k (x.sums ++ [x.sum]) bad x.offTol x.gainTol)] }
        if l.isEmpty then inputTestDone now y p else inputTestGo now y p) := by
  unfold inputTestLevel
  rw [hx]
  dsimp only
  rw [hi]
  exact if_neg (by rintro (h | h | h); exacts [absurd h (Nat.not_lt.mpr hn), h rfl, h rfl])

/-- Settles O31: a comparator by the bits that its input drives, a level of the test by the branch of its handler. -/
theorem comparatorsAndInputTest : Obligations.ComparatorsAndInputTest := by
  unfold Obligations.ComparatorsAndInputTest
  refine ⟨?_, ?_⟩
  · rintro s t i now p k uv v n hr hk rfl
    refine ⟨fun hn => ?_, fun hn hv => ⟨fun hm => ?_, ?_⟩, fun ho he hb hm ha => ?_, fun hhi hlo => ?_⟩
    · refine does_of_onIndex (f := fun now q => cmpOutside now k uv n q) rfl hk hr ?_
      exact if_neg fun h => absurd h.1 (Nat.not_le.mpr hn)
    · refine does_of_onIndex (f := fun now q => cmpOutside now k uv n q) rfl hk hr ?_
      exact (if_pos ⟨hn, hv⟩).trans (if_pos hm)
    · rintro hm q rfl
      have hact : cmpOutside now k uv n p = cmpFollow now k (putBit p F.AFE_CMP_STAT_OUT k true) := (if_pos ⟨hn, hv⟩).trans (if_neg (by rw [hm]; decide))
      have hmask : cmpMasked k (putBit p F.AFE_CMP_STAT_OUT k true) = false := (cmpMasked_putBit rfl (by show 0 + k < 24; omega) _ _ _).trans hm
      refine ⟨fun hb ha => ?_, fun hb he ha => ?_⟩
      · refine does_of_onIndex (f := fun now q => cmpOutside now k uv n q) rfl hk hr (hact.trans ?_)
        exact cmpFollow_of_idle hk ha (by rw [hb, Bool.not_true, Bool.and_false, Bool.false_and])
      · have hout : getBit (putBit p F.AFE_CMP_STAT_OUT k true) F.AFE_CMP_STAT_OUT k = true := getBit_putBit_self _ (by show 0 + k < 32; omega) _
        have hon : (fbit (putBit p F.AFE_CMP_STAT_OUT k true) (F.AFE_CMP_CFG_EN k) && getBit (putBit p F.AFE_CMP_STAT_OUT k true) F.AFE_CMP_STAT_OUT k &&
            !cmpBlanked now k (putBit p F.AFE_CMP_STAT_OUT k true) && !cmpMasked k (putBit p F.AFE_CMP_STAT_OUT k true)) = true := by
          rw [he, hout, hb, hmask]
          rfl
        exact ⟨_, does_of_onIndex (f := fun now q => cmpOutside now k uv n q) rfl hk hr hact, (acting_cmpFollow now _ hk).trans hon,
          cmpFollow_rises hk ha hon⟩
    · refine ⟨_, does_of_onIndex (f := fun now q => cmpFollow now k q) rfl hk hr rfl, (acting_cmpFollow now _ hk).trans ?_⟩
      rw [he, ho, hb, hm]
      rfl
    · have hin : cmpInside now k uv p = cmpFollow now k (putBit (putBit p F.AFE_CMP_STAT_OUT k false) F.AFE_CMP_STAT_TEST_OUT k false) :=
        if_pos ⟨hhi, hlo⟩
      have hout : getBit (putBit (putBit p F.AFE_CMP_STAT_OUT k false) F.AFE_CMP_STAT_TEST_OUT k false) F.AFE_CMP_STAT_OUT k = false := by
        rw [getBit_putBit_ne _ _ (by show 8 + k ≠ 0 + k; omega)]
        exact getBit_putBit_self _ (by show 0 + k < 32; omega) _
      refine ⟨_, does_of_onIndex (f := fun now q => cmpInside now k uv q) rfl hk hr hin, ?_, ?_, (acting_cmpFollow now _ hk).trans ?_⟩
      · rw [getBit_of_rd (rd_cmpFollow _ _ _ (by decide)), hout]
      · rw [getBit_of_rd (rd_cmpFollow _ _ _ (by decide))]
        exact getBit_putBit_self _ (by show 8 + k < 32; omega) _
      · rw [hout, Bool.and_false, Bool.false_and, Bool.false_and]
  · rintro s t i now p x y k l bad hr hx hi hn rfl rfl
    have hlevel := inputTestLevel_of_full (now := now) hx hi hn
    refine ⟨fun h => ?_, fun h hl => ?_, ?_⟩
    · exact does_of_onRunning (f := fun now q => inputTestLevel now k x.level q) rfl hr (hlevel.trans (if_pos h))
    · refine does_of_onRunning (f := fun now q => inputTestLevel now k x.level q) rfl hr (hlevel.trans ((if_neg (Nat.not_lt.mpr h)).trans ?_))
      exact if_neg (by rwa [List.isEmpty_iff])
    · rintro h rfl
      exact does_of_onRunning (f := fun now q => inputTestLevel now k x.level q) rfl hr (hlevel.trans (if_neg (Nat.not_lt.mpr h)))

end Sys2Proof.Machine
end

section
/-!
SUPPORT. O33: the line x_FIRE at an arming (R207, R256, R259).
-/
namespace Sys2Proof.Machine
open Sys2Proof

/-- A polder whose pulse on x_FIRE has not ended, while the line is not driven and shows high; its gallery is armed on an assertion of the line. -/
def loosePulse : Polder :=
  let p := fput (fput (resetPolder .A) F.CAP_STAT_FIREPIN 1) F.GAL_STAT_STATE Rec.armed
  { p with cap := { p.cap with pulseEnd := some 0, driving := false }, gal := { p.gal with cfg := [(A.GAL_CTRL, withBits 0 F.GAL_CTRL_TSRC.hi F.GAL_CTRL_TSRC.lo 5)] } }

/-- Refutes O33: where a pulse still runs on a line that is not driven, arming pulls x_FIRE low, and that assertion triggers an armed gallery, which
`GAL_STAT` shows. -/
theorem not_capturePinsTimeAndArming : ¬ Obligations.CapturePinsTimeAndArming := by
  unfold Obligations.CapturePinsTimeAndArming
  rintro ⟨-, h⟩
  obtain ⟨-, -, harm⟩ := h loosePulse
  obtain ⟨-, -, -, hframe⟩ := harm (by decide +kernel) (.inl (by decide +kernel))
  exact absurd (hframe A.GAL_STAT (by decide)) (by decide +kernel)

end Sys2Proof.Machine
end

section
/-!
SUPPORT. O32: path M, metering blocks and sampled values (R245 to R253).
-/
namespace Sys2Proof.Machine
open Sys2Proof

variable {p q : Polder} {now k : Nat}

theorem pathM_of_full (now : Nat) (x : PathIn) (h : fbit p F.FLT_STAT_MPATH = false) :
    pathM now x p = capSample now 2 (tapInstant p now 4) (fun k => (x.vals.getD k 0, flagM p now k))
      (laneFeed now (streamDelay p 4) (fun k => (x.vals.getD k 0, flagM p now k)) p) :=
  if_neg (by unfold mPath; rw [h]; decide)

/-! ### Metering blocks -/

theorem cycleFold_regs (c : LaneCycle) (p : Polder) : (cycleFold c p).regs = (fput p F.FLT_STAT_BLKCYC (fget p F.FLT_STAT_BLKCYC + 1)).regs := by
  unfold cycleFold
  extract_lets l n s val d
  clear_value val
  rfl

/-- What a cycle adds to the block in progress. -/
theorem cycleFold_flt {c : LaneCycle} {l : List LaneCycle} (hc : p.flt.lane.cycles = c :: l) :
    (cycleFold c p).flt.metered = p.flt.metered + 1 ∧ (cycleFold c p).flt.durSum = p.flt.durSum + (c.wrap - c.first) ∧
      (cycleFold c p).flt.block = p.flt.block ∧ (cycleFold c p).flt.lane.cycles = l := by
  unfold cycleFold
  extract_lets l' n s val d
  clear_value val
  refine ⟨rfl, rfl, by simp only [modFlt, fput_flt], ?_⟩
  show p.flt.lane.cycles.drop 1 = l
  rw [hc]
  rfl

theorem fget_blkcyc_cycleFold (c : LaneCycle) {n : Nat} (hn : n = fget p F.FLT_STAT_BLKCYC + 1) (h12 : n < 4096) :
    fget (cycleFold c p) F.FLT_STAT_BLKCYC = n := by
  rw [fget_of_regs (cycleFold_regs c p), ← hn, fget_fput_self _ _ _ (by decide)]
  exact Nat.mod_eq_of_lt (by show n < 65536; omega)

theorem rdN_mavg_cycleFold (c : LaneCycle) (p : Polder) : rdN (cycleFold c p) A.FLT_MAVG = rdN p A.FLT_MAVG := by
  unfold rdN rd
  rw [cycleFold_regs]
  exact congrArg BitVec.toNat (rd_fput_ne p F.FLT_STAT_BLKCYC (fget p F.FLT_STAT_BLKCYC + 1) (by decide))

theorem meterVal_count (p : Polder) (n : Nat) (short : Bool) : meterVal p n short 61 = wordN p.flt.metered := rfl

/-- What the end of a block leaves. -/
theorem blockEnd_fields (n : Nat) (short : Bool) (q : Polder) :
    fget (blockEnd n short q) F.FLT_STAT_BLKCYC = 0 ∧ (blockEnd n short q).flt.metered = q.flt.metered ∧ (blockEnd n short q).flt.blockN = n ∧
      vget (blockEnd n short q).flt.block 61 0 = wordN q.flt.metered ∧ (blockEnd n short q).flt.lane = q.flt.lane := by
  unfold blockEnd
  extract_lets a b p1
  have hb : vget b 61 0 = wordN q.flt.metered := by
    unfold b vget
    rw [Vector.getElem?_eq_getElem (by decide), Vector.getElem_ofFn]
    exact meterVal_count q n short
  clear_value b
  have hflt : ∀ r, (evtIf short F.FLT_EVT_SHORTBLK (evtIf (harmPoor q) F.FLT_EVT_HARM_ACC r)).flt = r.flt := fun r => by
    cases short <;> cases harmPoor q <;> rfl
  refine ⟨?_, ?_, ?_, ?_, ?_⟩
  · rw [fget_evtIf_ne _ _ (.inr (by decide)), fget_evtIf_ne _ _ (.inr (by decide))]
    exact fget_fput_self _ _ _ (by decide)
  all_goals rw [hflt]
  · rfl
  · rfl
  · exact hb
  · rfl

/-- A metered cycle joins the block, which ends with it at the set number of cycles or where the reference changes. -/
theorem meterCycle_of_ready {c : LaneCycle} {l : List LaneCycle} (hc : p.flt.lane.cycles = c :: l) (hr : cycleReady p.flt.lane = true) :
    meterCycle c.wrap p =
      (let n := fget (cycleFold c p) F.FLT_STAT_BLKCYC
      let full := decide (rdN (cycleFold c p) A.FLT_MAVG ≤ n)
      if full || c.changes then blockEnd n (!full) (cycleFold c p) else cycleFold c p) := by
  unfold meterCycle
  rw [hc]
  exact if_pos (by rw [hr, beq_self_eq_true]; rfl)

/-! ### Sampled values -/

theorem svInstant_of_complete (he : fbit p F.FLT_CTRL_SV_EN = true) (ha : ∀ j < 6, vget (svAligned p.flt.lane) j [] ≠ []) :
    ∃ o, (svInstant now (svNumber p (svAligned p.flt.lane)) p).flt.svOut = p.flt.svOut ++ [o] ∧ o.at' = now ∧
      o.k = svNumber p (svAligned p.flt.lane) ∧ fbit (svInstant now (svNumber p (svAligned p.flt.lane)) p) F.FLT_STAT_SVRUN = true := by
  have hall : ((svAligned p.flt.lane).toList.all fun x => !x.isEmpty) = true := by
    refine List.all_eq_true.mpr fun x hx => ?_
    obtain ⟨j, hj, rfl⟩ := List.mem_iff_getElem.mp hx
    have hj6 : j < 6 := by simpa using hj
    have := ha j hj6
    unfold vget at this
    rw [Vector.getElem?_eq_getElem hj6] at this
    simpa using this
  unfold svInstant
  extract_lets l h s v fl te one sum o
  rw [if_pos (by rw [he, beq_self_eq_true, show (l.toList.all fun x => !x.isEmpty) = true from hall]; rfl)]
  have ho : o.at' = now ∧ o.k = svNumber p (svAligned p.flt.lane) := ⟨rfl, rfl⟩
  clear_value o
  refine ⟨o, ?_, ho.1, ho.2, ?_⟩
  · rfl
  · exact fbit_of_fget (fget_fput_self p F.FLT_STAT_SVRUN 1 (by decide))

theorem svSend_of_fresh {s : State} {i : PolderId} {v : SvOut} {l : List SvOut} (hv : (s.pol i).flt.svOut = v :: l) (hu : s.hall.up = true)
    (hl : listening s = false) (ht : now ≤ v.at' + 250 * us) :
    svSend now i s = modHall (fun h => hallTx (fun n =>
        .frame n (hapF h F.HAL_CFG_PCP_SV) (0x010CCD040000 + hapF h (F.HAL_SVCFG_MAC (i.num - 1))) 0x88BA (svFrame h (i.num - 1) v)) h)
      (s.modPol i fun p => { p with flt := { p.flt with svOut := l } }) := by
  unfold svSend
  rw [hv]
  exact if_pos (by rw [hu, hl, decide_eq_true ht]; rfl)

theorem svLost_of_stale {s : State} {i : PolderId} {v : SvOut} {l : List SvOut} (hv : (s.pol i).flt.svOut = v :: l) (hu : s.hall.up = true)
    (ht : v.at' + 250 * us < now) :
    svLost now i s = hallNote now F.HAL_EVT_SVLOST none
      (hallCount A.HAL_SVLOST (s.modPol i fun p => { p with flt := { p.flt with svOut := l } })) := by
  unfold svLost
  rw [hv]
  exact if_pos (by rw [hu, decide_eq_true ht]; rfl)

/-- An event of the Hall at a polder that runs. -/
theorem doesAll_of_onPart {c : Instr} {s y : State} {t : Nat} {i : PolderId} {f : Nat → State → State}
    (he : exec c s = onPart t i s fun now y => if awake (y.pol i) && !rescue (y.pol i) then f now y else y) (hr : s.runs i)
    (hf : f (s.clock t) (s.at' t) = y) : DoesAll c s t y := by
  obtain ⟨hp, ha, hrs⟩ := hr
  unfold DoesAll
  rw [he, onPart_eq _ _ _ _ hp, at_pol, ha, hrs]
  rw [← hf]
  rfl

/-- Settles O32: a cycle by what it adds and what the end of its block leaves, the Hall's part by the branches of its handlers. -/
theorem meteringAndSampledValues : Obligations.MeteringAndSampledValues := by
  unfold Obligations.MeteringAndSampledValues
  refine ⟨fun s t i now p hr => ⟨?_, ?_, ?_⟩, fun s t i v l hr hu hv => ⟨?_, ?_⟩⟩
  · rintro x val hm rfl
    exact does_of_onRunning (f := fun now q => pathM now x q) rfl hr (pathM_of_full now x hm)
  · intro c l n hce hc hready hn h12
    obtain ⟨hmet, hdur, hblk, hlane⟩ := cycleFold_flt hc
    have hcyc := fget_blkcyc_cycleFold c hn h12
    have hcycle := meterCycle_of_ready hc hready
    rw [hcyc, rdN_mavg_cycleFold] at hcycle
    have hdo : ∀ q, meterCycle c.wrap p = q → Does (.meteringCycleComplete t i c.wrap) s t i q := fun q hq =>
      does_of_onRunning (f := ifCe fun _ q => meterCycle c.wrap q) rfl hr ((if_pos hce).trans hq)
    refine ⟨fun hlt hch => ?_, fun hend => ?_⟩
    · refine ⟨_, hdo (cycleFold c p) (hcycle.trans (if_neg ?_)), hcyc, hmet, hdur, hblk, hlane⟩
      rw [hch, decide_eq_false (Nat.not_le.mpr hlt)]
      decide
    · obtain ⟨h0, hm, hN, h61, hl⟩ := blockEnd_fields n (!decide (rdN p A.FLT_MAVG ≤ n)) (cycleFold c p)
      refine ⟨_, hdo _ (hcycle.trans (if_pos ?_)), h0, hm.trans hmet, hN, by rw [h61, hmet], by rw [hl, hlane]⟩
      rw [Bool.or_eq_true, decide_eq_true_iff]
      exact hend
  · intro he ha
    obtain ⟨o, hout, hat, hk, hrun⟩ := svInstant_of_complete (now := now) he ha
    exact ⟨_, o, does_of_onRunning (f := fun now q => svInstant now (svNumber p (svAligned p.flt.lane)) q) rfl hr rfl, hout, hat, hk, hrun⟩
  · intro hl ht
    exact doesAll_of_onPart (f := fun now y => svSend now i y) rfl hr (svSend_of_fresh (by rw [at_pol]; exact hv) hu hl ht)
  · intro ht
    exact doesAll_of_onPart (f := fun now y => svLost now i y) rfl hr (svLost_of_stale (by rw [at_pol]; exact hv) hu ht)

end Sys2Proof.Machine
end

section
/-!
SUPPORT. The safe pulse block's settling and confirmation (R342 to R348, R363), and the links' training (R299). With O38.
-/
namespace Sys2Proof.Machine
open Sys2Proof

variable {S : Nat → Prop} {p q : Polder} {now n k : Nat}

/-! ### Replies -/

theorem replyTo_refOf (p : Polder) (op : Nat) (c : Cmd) (r : Reply) : replyTo p (refOf op c) r = answer p op c r := rfl

/-! ### The safe pulse block -/

/-- The registers that the settling of the safe pulse block writes: its state, its events and those of the log. -/
def spbRegs (off : Nat) : Prop := off = A.SPB_STAT ∨ off = A.SPB_EVT ∨ logRegs off

theorem notifySafety_shape (w : Word) (p : Polder) : ∃ o, notifySafety w p = { p with out := o } :=
  ⟨_, rfl⟩

theorem within_spbReport (hS : ∀ o, logRegs o → S o) (now : Nat) (log : Bool) (p : Polder) : Within S p (spbReport now log p) := by
  unfold spbReport
  extract_lets p1
  obtain ⟨o, ho⟩ := notifySafety_shape (spbStatWord p1) p1
  rw [ho]
  have h1 : Within S p p1 := within_ite ((within_logRec _ _ _ _ _ _).mono hS) (.refl p)
  exact h1.trans fun _ _ => rfl

theorem spb_spbReport (now : Nat) (log : Bool) (p : Polder) : (spbReport now log p).spb = p.spb := by
  unfold spbReport
  extract_lets p1
  obtain ⟨o, ho⟩ := notifySafety_shape (spbStatWord p1) p1
  rw [ho]
  show p1.spb = p.spb
  unfold p1
  split
  · obtain ⟨r, l, nv, h⟩ := logRec_shape now 0x06 (rdN p A.SPB_EVT) Sev.trip (wBytes (spbStatWord p) ++ wBytes (rd p A.SPB_FAULT)) p
    rw [h]
  · rfl

theorem answerAcks_shape (status : Nat) (p : Polder) : ∃ o, answerAcks status p = { p with spb := { p.spb with waiting := [] }, out := o } := by
  have h : ∀ (l : List CmdRef) (q : Polder), ∃ o, answerAll status l q = { q with out := o } := by
    intro l
    induction l with
    | nil => exact fun q => ⟨_, rfl⟩
    | cons c l ih =>
      intro q
      obtain ⟨o, ho⟩ := ih (replyTo q c ⟨status, 0, wBytes (spbStatWord q)⟩)
      exact ⟨o, ho⟩
  exact h _ _

/-- The block after any change: what is confirmed stays, and so do all registers but its own state and events. -/
theorem spbSettle_frame (now : Nat) (p : Polder) : Within spbRegs p (spbSettle now p) ∧ (spbSettle now p).spb.confirmed = p.spb.confirmed := by
  have hlog : ∀ o, logRegs o → spbRegs o := fun o h => .inr (.inr h)
  unfold spbSettle
  extract_lets d st p1 p2 p3 auto q1
  split
  · have h2 : Within spbRegs p p2 ∧ p2.spb.confirmed = p.spb.confirmed := by
      have hfields : Within spbRegs p (modSpb (fun s => { s with acked := false, test := none, testWanted := false, demand2 := true }) p1) :=
        Within.trans (q := p1) (.trans (within_fput p d (.inl rfl)) (within_fput _ _ (.inl rfl))) fun _ _ => rfl
      refine ⟨hfields.trans (within_evtIf _ _ (.inr (.inl rfl))), ?_⟩
      unfold p2 evtIf
      split <;> rfl
    clear_value p2
    obtain ⟨o, ho⟩ := answerAcks_shape Status.state p2
    have h3 : Within spbRegs p p3 ∧ p3.spb.confirmed = p.spb.confirmed := by
      unfold p3
      rw [ho]
      exact ⟨h2.1.trans fun _ _ => rfl, h2.2⟩
    clear_value p3
    split
    · exact ⟨h3.1.trans (within_spbReport hlog _ _ _), by rw [spb_spbReport, h3.2]⟩
    · exact h3
  · split
    · have h1 : Within spbRegs p q1 := Within.trans (q := fput (fput p F.SPB_STAT_SRC 256) F.SPB_STAT_STATE 1)
        (.trans (within_fput p 256 (.inl rfl)) (within_fput _ _ (.inl rfl))) fun _ _ => rfl
      have hc : q1.spb.confirmed = p.spb.confirmed := rfl
      clear_value q1
      exact ⟨h1.trans (within_spbReport hlog _ _ _), by rw [spb_spbReport, hc]⟩
    · exact ⟨within_fput p _ (.inl rfl), rfl⟩

theorem changeLog_frame (now code sess : Nat) (a b : Word) (p : Polder) :
    rd (changeLog now code sess a b p) A.SPB_CRC_OK = rd p A.SPB_CRC_OK ∧ (changeLog now code sess a b p).spb.confirmed = p.spb.confirmed := by
  unfold changeLog
  extract_lets e p1
  have h1 : rd p1 A.SPB_CRC_OK = rd p A.SPB_CRC_OK := rd_wr_ne _ _ (by decide)
  have hc : p1.spb.confirmed = p.spb.confirmed := rfl
  clear_value p1
  obtain ⟨v, hv⟩ := nvTouch_shape now 4 p1 { p1.nv.image with changeLog := some (rdN p1 A.SPB_LOGCNT, p1.spb.log) }
  rw [hv]
  exact ⟨h1, hc⟩

/-- A confirmation stores the parameter set and its check value. -/
theorem confirmSet_fields (now code sess : Nat) (p : Polder) :
    rd (confirmSet now code sess p) A.SPB_CRC_OK = spbCrc p ∧ (confirmSet now code sess p).spb.confirmed = some (safetySet p) := by
  unfold confirmSet storeSafety
  extract_lets p1
  obtain ⟨hcrc, hconf⟩ := changeLog_frame now code sess (spbCrc p) (spbCrc p) p1
  have h1 : rd p1 A.SPB_CRC_OK = spbCrc p := rd_wr_self p _ _
  have hc : p1.spb.confirmed = some (safetySet p) := rfl
  clear_value p1
  obtain ⟨v, hv⟩ := nvTouch_shape now 3 (changeLog now code sess (spbCrc p) (spbCrc p) p1)
    { (changeLog now code sess (spbCrc p) (spbCrc p) p1).nv.image with
      safety := some ⟨(changeLog now code sess (spbCrc p) (spbCrc p) p1).spb.confirmed.getD [], rd (changeLog now code sess (spbCrc p) (spbCrc p) p1) A.SPB_CRC_OK,
        (changeLog now code sess (spbCrc p) (spbCrc p) p1).spb.password, rdN (changeLog now code sess (spbCrc p) (spbCrc p) p1) A.SPB_TESTAGE⟩ }
  rw [hv]
  exact ⟨hcrc.trans h1, hconf.trans hc⟩

theorem confirmed_fields (now sess : Nat) (p : Polder) :
    rd (spbSettle now (confirmSet now 1 sess p)) A.SPB_CRC_OK = spbCrc p ∧
      (spbSettle now (confirmSet now 1 sess p)).spb.confirmed = some (safetySet p) := by
  obtain ⟨hrd, hconf⟩ := spbSettle_frame now (confirmSet now 1 sess p)
  obtain ⟨h1, h2⟩ := confirmSet_fields now 1 sess p
  exact ⟨(hrd A.SPB_CRC_OK (by unfold spbRegs logRegs; decide)).trans h1, hconf.trans h2⟩

/-! ### The links -/

theorem linkState_setLinkState (n : Nat) {st : Nat} (h : st < 16) (p : Polder) : linkState (setLinkState n st p) n = st := by
  refine (fget_fput_self p (F.GLK_STAT_STATE n) st (by show 31 < 32; decide)).trans (Nat.mod_eq_of_lt ?_)
  exact h

theorem rd_setLinkState_ERR (n st : Nat) (p : Polder) : rd (setLinkState n st p) (A.GLK_ERR n) = rd p (A.GLK_ERR n) :=
  rd_fput_ne _ _ _ (by unfold A.GLK_ERR F.GLK_STAT_STATE; show 0xD0014 + 0x100 * n ≠ 0xD0010 + 0x100 * n; omega)

/-- A link that starts to train: its state, its errors, and the instant. -/
theorem startSearch_fields (now : Nat) (p : Polder) (h : n < 4) :
    linkState (startSearch now n p) n = LinkSt.search ∧ rd (startSearch now n p) (A.GLK_ERR n) = 0 ∧
      (linkOf (startSearch now n p) n).trainSince = now := by
  unfold startSearch
  generalize hg : (fun l => { dropReadId now l with
    trainSince := now, failedAt := none, trainFrames := 0, checkErr := false, holdExpired := false, missing := 0, rxSeq := none,
    l1 := Vector.replicate 4 0 }) = g
  have hsince : ∀ l, (g l).trainSince = now := fun l => by rw [← hg]
  refine ⟨linkState_setLinkState n (by decide) _, ?_, ?_⟩
  · rw [rd_setLinkState_ERR]
    exact rd_wr_self _ _ _
  · show (linkOf (modLink p n g) n).trainSince = now
    rw [linkOf_modLink_self _ h]
    exact hsince _

/-! ### Commands -/

theorem cClearTrips_of_takes (c : Cmd) (h : p.sluiceTakes now (entriesOf [part F.DIK_CLR_BITS (u16At c.payload 0 % 16384)]) n) :
    cClearTrips now c p =
      (let x := p.committed now c.sess n (entriesOf [part F.DIK_CLR_BITS (u16At c.payload 0 % 16384)])
      answer x Op.clearTrips c
        ⟨if rd x A.DIK_CLRRES = 0 then Status.ok else Status.tripActive, 0, wBytes (rd x A.DIK_TRIPSRC) ++ wBytes (rd x A.DIK_CLRRES)⟩) := by
  unfold cClearTrips tripsReply
  rw [sluBasic_of_sluiceTakes c.sess none h]
  generalize p.committed now c.sess n (entriesOf [part F.DIK_CLR_BITS (u16At c.payload 0 % 16384)]) = x
  by_cases h0 : rd x A.DIK_CLRRES = 0
  · have hn : rdN x A.DIK_CLRRES = 0 := congrArg BitVec.toNat h0
    simp only [h0, hn, ne_eq, not_true, and_false, if_false, if_true, okWith]
  · have hn : rdN x A.DIK_CLRRES ≠ 0 := fun e => h0 (BitVec.eq_of_toNat_eq e)
    simp only [h0, hn, ne_eq, not_false_eq_true, and_true, if_true, if_false, okWith]

theorem cGateLinkControl_retrain {c : Cmd} (now : Nat) (hn : byteAt c.payload 0 ≤ 3) (ha : byteAt c.payload 1 = 0)
    (hen : linkEn p (byteAt c.payload 0) = true) (hal : trainAllowed p = true) :
    cGateLinkControl now c p = modLink (startSearch now (byteAt c.payload 0) (endRetrain (byteAt c.payload 0) Status.timeout p)) (byteAt c.payload 0)
      fun l => { l with retrain := some (refOf Op.gateLinkControl c) } := by
  unfold cGateLinkControl
  dsimp only
  rw [if_neg (by omega), if_pos ha]
  unfold retrain
  rw [hen, hal]
  rfl

theorem cGateLinkControl_message {c : Cmd} (now : Nat) (hn : byteAt c.payload 0 ≤ 3) (ha : byteAt c.payload 1 = 1 ∨ byteAt c.payload 1 = 4)
    (hup : linkUp p (byteAt c.payload 0) = true) (hout : (linkOf p (byteAt c.payload 0)).out = none) :
    cGateLinkControl now c p = setLink p (byteAt c.payload 0)
      (startMsg now (linkOf p (byteAt c.payload 0)) ⟨byteAt c.payload 1, [], now, 0, some (refOf Op.gateLinkControl c)⟩) := by
  unfold cGateLinkControl sendMsg modLink
  dsimp only
  rw [if_neg (by omega), if_neg (by omega), hup, hout, if_neg (show ¬(byteAt c.payload 1 = Msg.selfTest ∨ byteAt c.payload 1 = Msg.clrL2) by
    unfold Msg.selfTest Msg.clrL2; omega)]
  rfl

theorem testBit_of_mod_four {a : Nat} : a.testBit 0 = decide (a % 4 % 2 = 1) ∧ a.testBit 1 = decide (a % 4 / 2 = 1) := by
  have h0 : a.testBit 0 = (a % 4).testBit 0 := by rw [show (4 : Nat) = 2 ^ 2 from rfl, Nat.testBit_mod_two_pow]; rfl
  have h1 : a.testBit 1 = (a % 4).testBit 1 := by rw [show (4 : Nat) = 2 ^ 2 from rfl, Nat.testBit_mod_two_pow]; rfl
  have : ∀ x < 4, x.testBit 0 = decide (x % 2 = 1) ∧ x.testBit 1 = decide (x / 2 = 1) := by decide
  rw [h0, h1]
  exact this _ (Nat.mod_lt _ (by decide))

/-- A self-test command with nothing left to run is answered. -/
theorem endSelfTest_of_idle {r : CmdRef} (h1 : p.dike.stestCmd = some r) (h2 : p.dike.cmpTest = none) (h3 : p.dike.guPending = []) :
    endSelfTest p = replyTo { p with dike := { p.dike with stestCmd := none } } r (okWith (wBytes (rd p A.DIK_STEST))) := by
  unfold endSelfTest
  rw [h1]
  exact if_pos (by rw [h2, h3]; rfl)

/-- It waits while the comparator test runs. -/
theorem endSelfTest_of_test {x : CmpTest} (h : p.dike.cmpTest = some x) : endSelfTest p = p := by
  unfold endSelfTest
  split
  · exact if_neg (by rw [h]; exact Bool.false_ne_true)
  · rfl

/-- A self-test of nothing is answered at once. -/
theorem cRunSelfTest_none {c : Cmd} (now : Nat) (h1 : p.dike.stestCmd = none) (h2 : p.dike.cmpTest = none) (h3 : p.dike.guPending = [])
    (hb : byteAt c.payload 0 % 4 = 0) : cRunSelfTest now c p = answer p Op.runSelfTest c (okWith (wBytes (rd p A.DIK_STEST))) := by
  obtain ⟨b0, b1⟩ := testBit_of_mod_four (a := byteAt c.payload 0)
  rw [hb] at b0 b1
  unfold cRunSelfTest
  dsimp only
  rw [h1, h2, h3, b0, b1]
  have hsame : ∀ d : DikeState, d.stestCmd = none → { d with stestCmd := none } = d := fun d h => by rw [← h]
  refine (endSelfTest_of_idle (p := { p with dike := { p.dike with stestCmd := some (refOf Op.runSelfTest c) } }) rfl h2 h3).trans ?_
  show replyTo { p with dike := { p.dike with stestCmd := none } } _ _ = _
  rw [hsame _ h1]
  rfl

/-- The comparator test starts at the first comparator in use and its first level. -/
theorem cRunSelfTest_cmp {c : Cmd} (now : Nat) {v : Nat} (h1 : p.dike.stestCmd = none) (h2 : p.dike.cmpTest = none) (h3 : p.dike.guPending = [])
    (h4 : p.afe.test = none) (h5 : fbit p F.AFE_TEST_EN = false) (hb : byteAt c.payload 0 % 4 = 1) (hk : nextCmp p 0 = some k)
    (hv : nextLevel p k 0 = some v) :
    cRunSelfTest now c p = { p with dike := { p.dike with
      cmpTest := some ⟨k, v, now, false, false, 0, 0, 0⟩, stestCmd := some (refOf Op.runSelfTest c) } } := by
  obtain ⟨b0, b1⟩ := testBit_of_mod_four (a := byteAt c.payload 0)
  rw [hb] at b0 b1
  have hgo : cmpTestStart now p = { p with dike := { p.dike with cmpTest := some ⟨k, v, now, false, false, 0, 0, 0⟩ } } := by
    unfold cmpTestStart
    rw [hk]
    unfold cmpTestGo
    dsimp only
    rw [hv]
  unfold cRunSelfTest
  dsimp only
  refine (if_neg (by rw [h1, h2, h3, h4, h5, b0]; decide)).trans ?_
  rw [b0, b1]
  show endSelfTest { cmpTestStart now p with dike := { (cmpTestStart now p).dike with stestCmd := some (refOf Op.runSelfTest c) } } = _
  rw [hgo]
  exact endSelfTest_of_test (x := ⟨k, v, now, false, false, 0, 0, 0⟩) rfl

/-- Settles O38: each command by the branch of its handler; a confirmation by what the settling of the block leaves. -/
theorem protectionControlsComplete : Obligations.ProtectionControlsComplete := by
  unfold Obligations.ProtectionControlsComplete
  rintro s t i c b now p rfl rfl rfl
  refine ⟨?_, ?_, ?_, ?_, ?_, ?_, ?_, ?_, ?_, ?_, ?_, ?_, ?_, ?_, ?_⟩
  · rintro n x h hs rfl
    refine does_of_onCommand (f := fun now => cClearTrips now c) rfl h ?_
    exact cClearTrips_of_takes c hs
  · rintro q h rfl
    exact does_of_onCommand (f := fun now => cTrip now c) rfl h rfl
  · intro h hn ha hen hal
    refine ⟨_, does_of_onCommand (f := fun now => cGateLinkControl now c) rfl h (cGateLinkControl_retrain _ hn ha hen hal), ?_⟩
    obtain ⟨hstate, herr, hsince⟩ := startSearch_fields (s.clock t) (endRetrain (byteAt c.payload 0) Status.timeout (s.pol i))
      (show byteAt c.payload 0 < 4 by omega)
    refine ⟨hstate, herr, ?_, ?_⟩ <;> rw [linkOf_modLink_self _ (by omega)]
    exact hsince
  · rintro n h rfl hn ha hup hout
    refine does_of_onCommand (f := fun now => cGateLinkControl now c) rfl h ?_
    exact cGateLinkControl_message _ hn ha hup hout
  · intro h hn ha hup
    refine answers_of_onCommand (f := fun now => cGateLinkControl now c) rfl h ?_
    unfold cGateLinkControl
    dsimp only
    rw [if_neg (by omega), if_neg (by omega), hup]
    rfl
  · intro h h1 h2 h3 hb
    exact answers_of_onCommand (f := fun now => cRunSelfTest now c) rfl h (cRunSelfTest_none _ h1 h2 h3 hb)
  · intro k v h h1 h2 h3 h4 h5 hb hk hv
    exact does_of_onCommand (f := fun now => cRunSelfTest now c) rfl h (cRunSelfTest_cmp _ h1 h2 h3 h4 h5 hb hk hv)
  · rintro n x h hm hs rfl
    refine does_of_onCommand (f := fun now => cSetOutputs now c) rfl h ?_
    unfold cSetOutputs
    dsimp only
    rw [if_neg hm, sluBasic_of_sluiceTakes c.sess none hs]
    rfl
  · intro h hm
    refine answers_of_onCommand (f := fun now => cSetOutputs now c) rfl h ?_
    exact if_pos hm
  · rintro q h rfl
    exact does_of_onCommand (f := fun now => cClearFieldDiag now c) rfl h rfl
  · rintro q h h0 h1 hcrc rfl
    refine ⟨does_of_onCommand (f := fun now => cConfirmSafety now c) rfl h ?_, confirmed_fields _ _ _⟩
    unfold cConfirmSafety
    dsimp only
    rw [h0, h1]
    exact (if_neg (by decide)).trans (if_neg (not_not_intro hcrc))
  · intro h h0 h1 hcrc
    refine answers_of_onCommand (f := fun now => cConfirmSafety now c) rfl h ?_
    unfold cConfirmSafety
    dsimp only
    rw [h0, h1]
    exact (if_neg (by decide)).trans (if_pos hcrc)
  · intro h hst
    refine answers_of_onCommand (f := fun now => cSafetyAck now c) rfl h ?_
    exact if_pos hst
  · rintro q h hst hd hack rfl hg
    refine does_of_onCommand (f := fun now => cSafetyAck now c) rfl h ?_
    have hok : (acknowledge (s.clock t) (s.pol i)).1 = true := by
      unfold acknowledge
      rw [hd, hack]
      rfl
    unfold cSafetyAck
    rw [if_neg (by rw [hst]; decide)]
    dsimp only
    rw [hok]
    exact if_neg (not_not_intro hg)
  · rintro q h h4 h5 hok hl hp hd hcrc rfl
    refine does_of_onCommand (f := fun now => cSetSafetyPassword now c) rfl h ?_
    unfold cSetSafetyPassword oldMatches
    dsimp only
    rw [hl, h4, hp, hd, if_neg Bool.false_ne_true, if_neg, if_neg Bool.false_ne_true, if_neg (not_not_intro hcrc)]
    · rfl
    · rintro (hx | hx | hx | hx | hx)
      · exact hx.1 rfl
      · exact hx.2 rfl
      · omega
      · omega
      · exact Bool.false_ne_true (hx.symm.trans hok)

end Sys2Proof.Machine
end

section
/-!
SUPPORT. The gate links (R293 to R301): what each frame and each message does with the link, by state. The other events of the Dike (R303, R308, R311, R312).
-/
namespace Sys2Proof.Machine
open Sys2Proof

variable {p q : Polder} {now n k : Nat}

/-! ### Links -/

theorem setLink_setLink (p : Polder) (n : Nat) (a b : Link) : setLink (setLink p n a) n b = setLink p n b := by
  unfold setLink
  rw [vset_vset]

theorem linkOf_setLink_self (p : Polder) (h : n < 4) (x : Link) : linkOf (setLink p n x) n = x := vget_vset_self _ _ _ h

theorem linkOf_replyTo (p : Polder) (c : CmdRef) (r : Reply) (n : Nat) : linkOf (replyTo p c r) n = linkOf p n := rfl

theorem fget_GLK_CFG_setLinkState (st : Nat) (p : Polder) {f : Fld} (h : f.hi < 28) (n : Nat) : fget (setLinkState n st p) f = fget p f :=
  fget_fput_bits _ _ (.inl h)

/-! ### Downlink frames -/

theorem frameTx_edge {e : Edge} {rest : List Edge} {f tf : Nat} (hc : carried p n = true) (he : (linkOf p n).edges = e :: rest)
    (hf : fineOf p n tf e = some f) : frameTx n tf p = { edgeTx (linkOf p n) e rest f with txSeq := ((linkOf p n).txSeq + 1) % 8 } := by
  unfold frameTx
  dsimp only
  rw [he]
  dsimp only
  rw [hc, hf]

theorem frameTx_plain {tf : Nat} (hc : carried p n = true) (he : ∀ e ∈ (linkOf p n).edges.head?, fineOf p n tf e = none) :
    frameTx n tf p = { plainTx true (linkOf p n) with txSeq := ((linkOf p n).txSeq + 1) % 8 } := by
  unfold frameTx
  dsimp only
  rw [hc]
  cases hl : (linkOf p n).edges with
  | nil => rfl
  | cons e rest =>
    dsimp only
    rw [he e (by rw [hl]; rfl)]

theorem plainTx_idle {l : Link} (h : l.txBytes = []) : plainTx true l = { l with lastTx := plainFrame l.sentStates 0 0 l.txSeq } := by
  unfold plainTx
  dsimp only
  split
  · next b rest hb => exact absurd (h.symm.trans hb) (List.cons_ne_nil b rest).symm
  · rfl

theorem plainTx_byte {l : Link} {b : Byte} {rest : List Byte} (h : l.txBytes = b :: rest) :
    plainTx true l = { l with
      txBytes := rest, txStarted := true, lastTx := plainFrame l.sentStates (if l.txStarted then 2 else 1) b.toNat l.txSeq } := by
  unfold plainTx
  dsimp only
  split
  · next c more hb =>
    obtain ⟨rfl, rfl⟩ := List.cons.inj (h.symm.trans hb)
    rfl
  · next hb => exact absurd (h.symm.trans hb) (List.cons_ne_nil b rest)

/-- From CHECK on a complete window sends the link's next frame. -/
theorem downlinkFrame_of_check (hs : LinkSt.check ≤ linkState p n)
    (hw : (linkOf p n).txEnd + framePeriod p n ≤ now / framePeriod p n * framePeriod p n) {x : Link}
    (hx : frameTx n (now / framePeriod p n * framePeriod p n - framePeriod p n) p = x) :
    downlinkFrame now n p = setLink p n (onLine (now / framePeriod p n * framePeriod p n) (frameSymbols x.lastTx) x) := by
  have h5 : 5 ≤ linkState p n := hs
  unfold downlinkFrame
  dsimp only
  rw [if_neg (by unfold LinkSt.search; omega), if_neg (Nat.not_lt.mpr hs), hx]

theorem downlinkFrame_early (hw : now / framePeriod p n * framePeriod p n < (linkOf p n).txEnd + framePeriod p n) : downlinkFrame now n p = p :=
  if_pos (.inr hw)

theorem negotiated_of_ne (h : linkState p n ≠ LinkSt.negotiate) : negotiated now n p = p := if_neg fun hn => h hn.1

theorem downlinkFrame_of_search (hs : linkState p n = LinkSt.search)
    (hw : (linkOf p n).txEnd + framePeriod p n ≤ now / framePeriod p n * framePeriod p n) :
    downlinkFrame now n p = setLink p n (onLine (now / framePeriod p n * framePeriod p n)
      [.k285, .data (BitVec.ofNat 8 (trainCaps p n)), .data 1, .data (BitVec.ofNat 8 (trainCaps p n ^^^ 1))] { linkOf p n with trainSent := 0 }) := by
  have hstate : trainState p n = 1 := if_pos hs
  have hsent : (if linkState p n = LinkSt.negotiate then (linkOf p n).trainSent + 1 else 0) = 0 := if_neg (by rw [hs]; decide)
  unfold downlinkFrame
  dsimp only
  rw [hstate, hsent, if_neg (by rw [hs]; unfold LinkSt.search; omega), if_pos (by rw [hs]; decide)]
  exact negotiated_of_ne (by show linkState p n ≠ _; rw [hs]; decide)

/-! ### Uplink frames -/

theorem uplinkFrame_of_next {w : Word} (hs : LinkSt.check ≤ linkState p n) (hc : bitsOf w 5 0 = crc6 w)
    (hq : (linkOf p n).rxSeq = some ((bitsOf w 8 6 + 7) % 8)) :
    uplinkFrame now n false w p =
      useFrame now n w (setLink p n { linkOf p n with rxSeq := some (bitsOf w 8 6), lastRx := w, missing := 0 }) := by
  have hlt : bitsOf w 8 6 < 8 := Nat.mod_lt _ (by decide)
  have hgap : (bitsOf w 8 6 + 15 - (bitsOf w 8 6 + 7) % 8) % 8 = 0 := by omega
  unfold uplinkFrame
  dsimp only
  rw [if_neg (Nat.not_lt.mpr hs), hc, bne_self_eq_false, hq]
  simp only [hgap, Bool.or_self, Bool.false_eq_true, ne_eq, not_true, if_false, if_true]
  rfl

theorem uplinkFrame_of_bad {w : Word} (hs : LinkSt.check ≤ linkState p n) (hc : bitsOf w 5 0 ≠ crc6 w) :
    uplinkFrame now n false w p = modLink (errHi n 1 p) n fun x => { x with
      rxSeq := (linkOf p n).rxSeq.map (fun s => (s + 1) % 8), missing := (linkOf p n).missing + 1,
      checkErr := (linkOf p n).checkErr || bitsOf w 5 0 != crc6 w, lastRx := w } := by
  unfold uplinkFrame
  dsimp only
  rw [if_neg (Nat.not_lt.mpr hs), if_pos (by rw [bne_iff_ne.mpr hc]; rfl)]

/-- The upper count of link errors advances, and the lower stays. -/
theorem bitsOf_errHi (n k : Nat) (p : Polder) :
    bitsOf (rd (errHi n k p) (A.GLK_ERR n)) 31 16 = min (bitsOf (rd p (A.GLK_ERR n)) 31 16 + k) 65535 ∧
      bitsOf (rd (errHi n k p) (A.GLK_ERR n)) 15 0 = bitsOf (rd p (A.GLK_ERR n)) 15 0 := by
  unfold errHi
  dsimp only
  rw [rd_wr_self, bitsOf_withBits_self _ _ _ _ (by decide), bitsOf_withBits_ne _ _ (.inl (by decide))]
  refine ⟨Nat.mod_eq_of_lt ?_, rfl⟩
  exact Nat.lt_of_le_of_lt (Nat.min_le_right _ _) (by decide)

/-! ### Training -/

theorem trainingFrame_of_search {x : TrainIn} (hs : linkState p n = LinkSt.search) (hv : trainValid x = true)
    (hm : fget p (F.GLK_CFG_VMIN n) ≤ min (fget p (F.GLK_CFG_VMAX n)) (x.caps / 16)) :
    trainingFrame now n x p = fput (setLinkState n LinkSt.negotiate
      (setLink (fput p (F.GLK_STAT_GUVER n) (capsVer x)) n { linkOf p n with trainSince := now, trainFrames := 0, trainSent := 0 })) (F.GLK_STAT_VER n)
        (min (fget p (F.GLK_CFG_VMAX n)) (x.caps / 16)) := by
  unfold trainingFrame
  dsimp only
  rw [show linkState p n = 2 from hs]
  rw [if_pos hv, if_neg (Nat.not_lt.mpr hm)]
  rfl

theorem fget_VMAX_lt (p : Polder) (n : Nat) : fget p (F.GLK_CFG_VMAX n) < 4 := by
  unfold fget bitsOf
  exact Nat.mod_lt _ (by show 0 < 4; omega)

theorem linkState_fput_VER (v : Nat) (p : Polder) (n : Nat) : linkState (fput p (F.GLK_STAT_VER n) v) n = linkState p n :=
  fget_fput_bits (f := F.GLK_STAT_VER n) (g := F.GLK_STAT_STATE n) p v (.inr (by show 27 < 28; omega))

theorem fget_fput_VER {v : Nat} (h : v < 4) (p : Polder) (n : Nat) : fget (fput p (F.GLK_STAT_VER n) v) (F.GLK_STAT_VER n) = v :=
  (fget_fput_self p (F.GLK_STAT_VER n) v (by show 27 < 32; omega)).trans (Nat.mod_eq_of_lt h)

theorem trainingFrame_of_negotiate {x : TrainIn} (hn : n < 4) (hs : linkState p n = LinkSt.negotiate) (hv : trainValid x = true)
    (hx : x.state = 16 + fget p (F.GLK_STAT_VER n)) (hf : 7 ≤ (linkOf p n).trainFrames) (ht : 8 ≤ (linkOf p n).trainSent) :
    trainingFrame now n x p = setLinkState n LinkSt.align (setLink p n { linkOf p n with trainSince := now, trainFrames := 0 }) := by
  unfold trainingFrame
  dsimp only
  rw [show linkState p n = 3 from hs]
  refine (if_pos (show (trainValid x && x.state == 16 + fget p (F.GLK_STAT_VER n)) = true by rw [hv, hx, beq_self_eq_true]; rfl)).trans ?_
  unfold negotiated
  dsimp only
  rw [linkOf_setLink_self _ hn, setLink_setLink]
  exact if_pos (And.intro hs (And.intro (Nat.succ_le_succ hf) ht))

/-- A training failure: down, with its reason and instant. -/
theorem trainFail_fields (hn : n < 4) (now : Nat) {r : Nat} (hr : r < 16) (p : Polder) :
    linkState (trainFail now n r p) n = LinkSt.down ∧ fget (trainFail now n r p) (F.GLK_STAT_FAILRSN n) = r ∧
      (linkOf (trainFail now n r p) n).failedAt = some now := by
  unfold trainFail
  extract_lets p1
  have hreg : ∀ f, fget (endRetrain n Status.timeout p1) f = fget (setLinkState n LinkSt.down (fput p (F.GLK_STAT_FAILRSN n) r)) f := fun f =>
    fget_of_regs (by unfold endRetrain; split <;> rfl) f
  have h1 : (linkOf p1 n).failedAt = some now := by
    rw [show linkOf p1 n = _ from linkOf_modLink_self _ hn _]
  refine ⟨(hreg _).trans (linkState_setLinkState n (by decide) _), (hreg _).trans ?_, ?_⟩
  · exact (fget_fput_bits _ _ (.inl (by show 23 < 28; omega))).trans
      ((fget_fput_self p (F.GLK_STAT_FAILRSN n) r (by show 23 < 32; omega)).trans (Nat.mod_eq_of_lt hr))
  · clear_value p1
    unfold endRetrain
    split
    · next r hr =>
      rw [linkOf_replyTo, linkOf_modLink_self _ hn]
      exact h1
    · exact h1

/-! ### Messages -/

theorem gateUnitResponse_of_readId {m : LinkMsg} {c : CmdRef} {b : List Byte} (ho : (linkOf p n).out = some m) (hm : m.code = Msg.readId)
    (hp : m.purpose = 0) (hc : m.cmd = some c) :
    gateUnitResponse now n 129 b p = replyTo (wr (nextMsg now n p) (A.GLK_ID n) (wordN (u32At b 0))) c
      ⟨Status.ok, 0, glcPayload (wr (nextMsg now n p) (A.GLK_ID n) (wordN (u32At b 0))) n b⟩ := by
  unfold gateUnitResponse
  rw [ho]
  dsimp only
  rw [if_pos (.inl (by rw [hm]))]
  unfold useResponse
  dsimp only
  rw [hp, hm, hc]
  rfl

theorem messageTimeout_of_readId {m : LinkMsg} {c : CmdRef} (ho : (linkOf p n).out = some m) (hm : m.code = Msg.readId) (hp : m.purpose = 0)
    (hc : m.cmd = some c) (ht : m.sentAt + 50 * us ≤ now) :
    messageTimeout now n p = replyTo (errLo n 1 (nextMsg now n p)) c ⟨Status.timeout, 0, glcPayload (errLo n 1 (nextMsg now n p)) n []⟩ := by
  unfold messageTimeout
  rw [ho]
  dsimp only
  rw [if_pos ht, hp, hm, hc]
  rfl

/-! ### The Dike -/

theorem thermalTrip_of_held {since : Nat} (hk : k < 2) (h : vget p.dike.thermSince k none = some since) (ht : since + ms ≤ now) :
    thermalTrip now p = { p with dike := { p.dike with therm := true } } := by
  have hheld : thermHeld now p = true := by
    unfold thermHeld
    rw [List.any_eq_true]
    unfold vget at h
    rw [Vector.getElem?_eq_getElem hk] at h
    exact ⟨p.dike.thermSince[k], by simp, by rw [show p.dike.thermSince[k] = some since from h]; exact decide_eq_true ht⟩
  unfold thermalTrip
  rw [hheld, Bool.or_true]

/-- A level of the comparator test is judged, and the next one that is tested starts. -/
theorem cmpTestLevel_of_next {x : CmpTest} {v : Nat} (outside : Bool) (hx : p.dike.cmpTest = some x) (ht : x.since + 15 * us ≤ now)
    (hv : nextLevel p x.cmp (x.level + 1) = some v) :
    cmpTestLevel now outside p = { p with dike := { p.dike with
      cmpTest := some { x with level := v, since := now, failed := x.failed || outside != (x.level % 2 == 1) } } } := by
  unfold cmpTestLevel
  rw [hx]
  dsimp only
  rw [if_pos ht]
  unfold cmpTestGo
  dsimp only
  rw [hv]

end Sys2Proof.Machine
end

section
/-!
SUPPORT. O42: the events of the gate links and of the Dike.
-/
namespace Sys2Proof.Machine
open Sys2Proof

theorem does_uplinkFrame {s : State} {t n now : Nat} {i : PolderId} {p q : Polder} {w : Word} (hn : n < 4) (h : Runs s t i now p)
    (hf : uplinkFrame now n false w p = q) : Does (.uplinkFrame t i n false w) s t i q :=
  does_of_onPin (runs := inService) (f := fun now q => uplinkFrame now n false w q) (g := fun _ q => uplinkLost n q) (if_pos hn) h (inService_of_runs h) hf

theorem does_tripiChange {s : State} {t now : Nat} {i : PolderId} {p q : Polder} {x : PinHeld} (h : Runs s t i now p)
    (hf : tripiChange now x p = q) : Does (.tripiChange t i x) s t i q :=
  does_of_onPin (runs := inService) (f := fun now q => tripiChange now x q) (g := fun now q => tripiLevel now x.low q) rfl h (inService_of_runs h) hf

/-- A link that has found its version: the state, the link's record and the version. -/
theorem negotiating_fields {n v : Nat} (hn : n < 4) (hv : v < 4) (x : Link) (p : Polder) :
    linkState (fput (setLinkState n LinkSt.negotiate (setLink p n x)) (F.GLK_STAT_VER n) v) n = LinkSt.negotiate ∧
      (linkOf (fput (setLinkState n LinkSt.negotiate (setLink p n x)) (F.GLK_STAT_VER n) v) n).trainSince = x.trainSince ∧
      fget (fput (setLinkState n LinkSt.negotiate (setLink p n x)) (F.GLK_STAT_VER n) v) (F.GLK_STAT_VER n) = v := by
  refine ⟨(linkState_fput_VER v _ n).trans (linkState_setLinkState n (by decide) _), ?_, fget_fput_VER hv _ n⟩
  exact congrArg Link.trainSince (linkOf_setLink_self p hn x)

theorem trainingFailure_of_search {p : Polder} {n now : Nat} (hs : linkState p n = LinkSt.search) (ht : (linkOf p n).trainSince + 100 * us ≤ now) :
    trainingFailure now n p = trainFail now n 1 p := by
  have hb : trainBound p n = some (100 * us, 1) := by
    unfold trainBound
    rw [show linkState p n = 2 from hs]
    rfl
  unfold trainingFailure
  rw [hb]
  exact if_pos ht

theorem trainingRetry_of_due {p : Polder} {n now f : Nat} (hf : (linkOf p n).failedAt = some f) (ht : f + 10 * ms ≤ now) (hen : linkEn p n = true)
    (hal : trainAllowed p = true) (hs : linkState p n = LinkSt.down) : trainingRetry now n p = startSearch now n p := by
  unfold trainingRetry
  rw [hf]
  exact if_pos (by rw [decide_eq_true ht, hen, hal, hs]; rfl)

theorem l2WindowEnd_of_due {p : Polder} {t0 k now : Nat} (hw : p.dike.l2Window = some (t0, k)) (ht : t0 + 10 * us ≤ now) :
    l2WindowEnd now p = { p with dike := { p.dike with l2Window := none } } := by
  unfold l2WindowEnd
  rw [hw]
  exact if_pos ht

/-- Settles O42: each event by its state's lemma. -/
theorem gateLinkAndDikeEvents : Obligations.GateLinkAndDikeEvents := by
  unfold Obligations.GateLinkAndDikeEvents
  refine ⟨?_, fun s t i now p hr => ⟨?_, ?_, ?_, ?_, ?_, ?_, ?_⟩⟩
  · rintro s t i now p n l g w hr hn rfl rfl rfl
    refine ⟨?_, ?_, ?_, ?_, ?_, ?_, ?_, ?_, ?_, ?_, ?_, ?_, ?_, ?_⟩
    · rintro e rest f x hw hs hc he hf rfl
      exact does_of_onIndex (f := fun now q => downlinkFrame now n q) rfl hn hr (downlinkFrame_of_check hs hw (frameTx_edge hc he hf))
    · rintro x hw hs hc he hb rfl
      exact does_of_onIndex (f := fun now q => downlinkFrame now n q) rfl hn hr
        (downlinkFrame_of_check hs hw ((frameTx_plain hc he).trans (by rw [plainTx_idle hb])))
    · rintro b rest x hw hs hc he hb rfl
      exact does_of_onIndex (f := fun now q => downlinkFrame now n q) rfl hn hr
        (downlinkFrame_of_check hs hw ((frameTx_plain hc (by rw [he]; exact fun _ h => nomatch h)).trans (by rw [plainTx_byte hb])))
    · intro hw hs
      exact does_of_onIndex (f := fun now q => downlinkFrame now n q) rfl hn hr (downlinkFrame_of_search hs hw)
    · intro hw
      exact does_of_onIndex (f := fun now q => downlinkFrame now n q) rfl hn hr (downlinkFrame_early hw)
    · intro w hs hc hq
      exact does_uplinkFrame hn hr (uplinkFrame_of_next hs hc hq)
    · intro w hs hc
      obtain ⟨hhi, hlo⟩ := bitsOf_errHi n 1 p
      refine ⟨_, does_uplinkFrame hn hr (uplinkFrame_of_bad hs hc), ?_, ?_, ?_, hlo⟩
      · rw [linkOf_modLink_self _ hn]
      · rw [linkOf_modLink_self _ hn]
      · rw [Nat.min_comm]
        exact hhi
    · intro hu hl
      refine does_of_onIndex (f := fun _ q => linkLost n q) rfl hn hr (if_pos ?_)
      rw [hu, Bool.true_and, Bool.or_eq_true, decide_eq_true_iff]
      exact hl
    · intro x hs hv hm
      have hver : min (fget p (F.GLK_CFG_VMAX n)) (x.caps / 16) < 4 := Nat.lt_of_le_of_lt (Nat.min_le_left _ _) (fget_VMAX_lt p n)
      exact ⟨_, does_of_onIndex (f := fun now q => trainingFrame now n x q) rfl hn hr (trainingFrame_of_search hs hv hm),
        negotiating_fields hn hver _ _⟩
    · intro x hs hv hx hf ht
      exact does_of_onIndex (f := fun now q => trainingFrame now n x q) rfl hn hr (trainingFrame_of_negotiate hn hs hv hx hf ht)
    · intro hs ht
      exact ⟨_, does_of_onIndex (f := fun now q => trainingFailure now n q) rfl hn hr (trainingFailure_of_search hs ht),
        trainFail_fields hn now (by decide) p⟩
    · intro f hf ht hen hal hs
      exact ⟨_, does_of_onIndex (f := fun now q => trainingRetry now n q) rfl hn hr (trainingRetry_of_due hf ht hen hal hs), startSearch_fields now p hn⟩
    · rintro m c b q ho hm hp hc rfl
      exact does_of_onIndex (f := fun now q => gateUnitResponse now n 129 b q) rfl hn hr (gateUnitResponse_of_readId ho hm hp hc)
    · rintro m c q ho hm hp hc ht rfl
      exact does_of_onIndex (f := fun now q => messageTimeout now n q) rfl hn hr (messageTimeout_of_readId ho hm hp hc ht)
  · intro t0 k hw ht
    exact does_of_onRunning (f := l2WindowEnd) rfl hr (l2WindowEnd_of_due hw ht)
  · intro k hk hlow
    refine does_tripiChange hr ((if_pos hk).trans ?_)
    rw [hlow]
    rfl
  · intro k hk
    exact does_tripiChange hr (if_pos hk)
  · intro k low hk
    exact does_tripiChange hr (if_neg (Nat.not_le.mpr hk))
  · intro k since hk h ht
    exact does_of_onRunning (f := thermalTrip) rfl hr (thermalTrip_of_held hk h ht)
  · intro x v hx ht hv
    refine does_of_onRunning (f := fun now q => cmpTestLevel now (x.level % 2 == 1) q) rfl hr ((cmpTestLevel_of_next _ hx ht hv).trans ?_)
    rw [bne_self_eq_false, Bool.or_false]
  · intro x v hx ht hv
    refine does_of_onRunning (f := fun now q => cmpTestLevel now (x.level % 2 != 1) q) rfl hr ((cmpTestLevel_of_next _ hx ht hv).trans ?_)
    have hbad : ((x.level % 2 != 1) != (x.level % 2 == 1)) = true := by cases h : x.level % 2 == 1 <;> simp [bne, h]
    rw [hbad, Bool.or_true]

end Sys2Proof.Machine
end

section
/-!
SUPPORT. Field inputs and outputs (R320 to R336): what driving the outputs and the flags of `FIO_DODIAG` leave, and the field supply.
-/
namespace Sys2Proof.Machine
open Sys2Proof

variable {S : Nat → Prop} {p q : Polder} {now j k : Nat}

/-! ### Outputs -/

theorem vget_vmod_self {α : Type} {n : Nat} (v : Vector α n) (f : α → α) (d : α) (h : k < n) : vget (vmod v k f) k d = f (vget v k d) := by
  unfold vget vmod
  rw [Vector.getElem?_eq_getElem (xs := v) h]
  dsimp only
  rw [Vector.getElem?_setIfInBounds_self_of_lt h]
  rfl

theorem vget_vmod_ne {α : Type} {n : Nat} (v : Vector α n) (f : α → α) (d : α) (h : j ≠ k) : vget (vmod v k f) j d = vget v j d := by
  unfold vmod
  split
  · exact vget_vset_ne v _ d h
  · rfl

/-- A change that leaves a part of the entry leaves that part of every entry. -/
theorem vget_vmod_of {α β : Type} {n : Nat} (v : Vector α n) (f : α → α) (d : α) (g : α → β) (h : ∀ x, g (f x) = g x) (j k : Nat) :
    g (vget (vmod v k f) j d) = g (vget v j d) := by
  by_cases hj : j = k
  · subst hj
    by_cases hn : j < n
    · rw [vget_vmod_self v f d hn, h]
    · unfold vmod
      rw [Vector.getElem?_eq_none (by omega)]
  · rw [vget_vmod_ne v f d hj]

theorem dout_modDout_self (f : FieldOut → FieldOut) (p : Polder) (h : k < 4) : dout (modDout k f p) k = f (dout p k) := vget_vmod_self _ _ _ h

theorem dout_modDout_ne (f : FieldOut → FieldOut) (p : Polder) (h : j ≠ k) : dout (modDout k f p) j = dout p j := vget_vmod_ne _ _ _ h

theorem dout_modDout_of {β : Type} (g : FieldOut → β) {f : FieldOut → FieldOut} (h : ∀ x, g (f x) = g x) (p : Polder) (j k : Nat) :
    g (dout (modDout k f p) j) = g (dout p j) := vget_vmod_of _ f _ g h j k

theorem dout_of_fio (h : q.fio = p.fio) (j : Nat) : dout q j = dout p j := by
  unfold dout
  rw [h]

theorem din_setDin_self (x : FieldIn) (p : Polder) (h : k < 8) : din (setDin k x p) k = x := vget_vset_self _ _ _ h

/-- The orders, the supply and what holds an output off are the same. -/
def SameOrders (p q : Polder) : Prop :=
  docmd q = docmd p ∧ lpOk q = lpOk p ∧ ∀ j, (dout q j).pulse = (dout p j).pulse ∧ (dout q j).shut = (dout p j).shut

theorem SameOrders.trans {r : Polder} (h : SameOrders p q) (g : SameOrders q r) : SameOrders p r :=
  ⟨g.1.trans h.1, g.2.1.trans h.2.1, fun j => ⟨((g.2.2 j).1).trans (h.2.2 j).1, ((g.2.2 j).2).trans (h.2.2 j).2⟩⟩

theorem SameOrders.drivenNow (h : SameOrders p q) (j : Nat) : drivenNow q j = drivenNow p j := by
  obtain ⟨hcmd, hlp, hout⟩ := h
  unfold Machine.drivenNow
  rw [hcmd, hlp, (hout j).1, (hout j).2]

theorem within_driveOne_DOSTAT (now k : Nat) (p : Polder) : Within (fun o => o = A.FIO_DOSTAT) p (driveOne now k p) := by
  unfold driveOne
  exact within_ite (.refl p) (within_putBit p k _ rfl)

theorem sameOrders_driveOne (now k : Nat) (p : Polder) : SameOrders p (driveOne now k p) := by
  have hw := within_driveOne_DOSTAT now k p
  refine ⟨hw.fget (by decide), hw.fbit (by decide), fun j => ?_⟩
  unfold driveOne
  dsimp only
  split
  · exact ⟨rfl, rfl⟩
  · constructor
    · exact (dout_modDout_of FieldOut.pulse (by exact fun _ => rfl) _ j k).trans
        (dout_modDout_of FieldOut.pulse (by exact fun _ => rfl) (putBit p F.FIO_DOSTAT_DRIVEN k (drivenNow p k)) j k)
    · exact (dout_modDout_of FieldOut.shut (by exact fun _ => rfl) _ j k).trans
        (dout_modDout_of FieldOut.shut (by exact fun _ => rfl) (putBit p F.FIO_DOSTAT_DRIVEN k (drivenNow p k)) j k)

theorem driven_driveOne_self (now : Nat) (p : Polder) (h : k < 4) : getBit (driveOne now k p) F.FIO_DOSTAT_DRIVEN k = drivenNow p k := by
  unfold driveOne
  dsimp only
  split
  · next hd => exact hd.symm
  · exact getBit_putBit_self p (by show 4 + k < 32; omega) _

/-- Driving an output leaves every other bit of `FIO_DOSTAT`. -/
theorem getBit_driveOne_ne (now : Nat) (p : Polder) {f : Fld} (h : f.lo + j ≠ 4 + k) : getBit (driveOne now k p) f j = getBit p f j := by
  unfold driveOne
  dsimp only
  split
  · rfl
  · exact getBit_putBit_ne p _ fun e => h e.symm

theorem within_drive_DOSTAT (now : Nat) (p : Polder) : Within (fun o => o = A.FIO_DOSTAT) p (drive now p) :=
  within_foldl _ _ p fun q k _ => within_driveOne_DOSTAT now k q

theorem sameOrders_drive (now : Nat) (p : Polder) : SameOrders p (drive now p) :=
  (((sameOrders_driveOne now 0 p).trans (sameOrders_driveOne now 1 _)).trans (sameOrders_driveOne now 2 _)).trans (sameOrders_driveOne now 3 _)

/-- After driving, `FIO_DOSTAT` shows what the orders and what holds an output off give. -/
theorem driven_drive (now : Nat) (p : Polder) (h : k < 4) : getBit (drive now p) F.FIO_DOSTAT_DRIVEN k = drivenNow p k := by
  have hne : ∀ {a b : Nat} (q : Polder), a ≠ b → getBit (driveOne now b q) F.FIO_DOSTAT_DRIVEN a = getBit q F.FIO_DOSTAT_DRIVEN a := fun q hab =>
    getBit_driveOne_ne now q (by show 4 + _ ≠ 4 + _; omega)
  have hd := fun m q => (sameOrders_driveOne now m q).drivenNow k
  unfold drive
  simp only [List.foldl]
  match k, h with
  | 0, _ => rw [hne _ (by decide), hne _ (by decide), hne _ (by decide), driven_driveOne_self now _ (by decide)]
  | 1, _ => rw [hne _ (by decide), hne _ (by decide), driven_driveOne_self now _ (by decide), hd]
  | 2, _ => rw [hne _ (by decide), driven_driveOne_self now _ (by decide), hd, hd]
  | 3, _ => rw [driven_driveOne_self now _ (by decide), hd, hd, hd]

theorem getBit_drive_ne (now : Nat) (p : Polder) {f : Fld} (h : f.lo + j < 4 ∨ 8 ≤ f.lo + j) : getBit (drive now p) f j = getBit p f j := by
  unfold drive
  simp only [List.foldl]
  rw [getBit_driveOne_ne _ _ (by omega), getBit_driveOne_ne _ _ (by omega), getBit_driveOne_ne _ _ (by omega), getBit_driveOne_ne _ _ (by omega)]

theorem drivenNow_of_shut {a : Nat} (h : (dout p k).shut = some a) : drivenNow p k = false := by
  unfold drivenNow
  rw [h]
  exact Bool.and_false _

theorem drivenNow_of_pulse {a : Nat} (h : (dout p k).pulse = some a) : drivenNow p k = false := by
  unfold drivenNow
  rw [h]
  exact congrArg (· && (dout p k).shut.isNone) (Bool.and_false _)

/-! ### Flags of `FIO_DODIAG` -/

theorem bitOf_wordN_pow {a n : Nat} (ha : a < 32) : bitOf (wordN (2 ^ a)) n = decide (n = a) := by
  unfold bitOf wordN
  rw [BitVec.getLsbD_ofNat, Nat.testBit_two_pow]
  by_cases h : n = a
  · subst h
    rw [decide_eq_true ha, decide_eq_true rfl]
    rfl
  · rw [decide_eq_false h, decide_eq_false (p := a = n) fun e => h e.symm, Bool.and_false]

theorem within_diagSet (h : S A.FIO_DODIAG) (k f : Nat) (p : Polder) : Within S p (diagSet k f p) := within_wr p _ h

theorem diagGet_diagSet {f g : Nat} (p : Polder) (h : 8 * k + f < 32) :
    diagGet (diagSet k f p) j g = (diagGet p j g || decide (8 * j + g = 8 * k + f)) := by
  unfold diagGet diagSet
  rw [← bitOf_wordN_pow h, ← bitOf_or]
  exact congrArg (bitOf · (8 * j + g)) (rd_wr_self p _ _)

/-- The crossing check sets flags alone. -/
theorem crossing_frame (k : Nat) (hk : k < 4) (p : Polder) (g : Nat) :
    Within (fun o => o = A.FIO_DODIAG) p ([0, 1, 2, 3].foldl (fun q j => if crossed q k j then diagSet k Diag.xwire (diagSet j Diag.xwire q) else q) p) ∧
      (diagGet p k g = true →
        diagGet ([0, 1, 2, 3].foldl (fun q j => if crossed q k j then diagSet k Diag.xwire (diagSet j Diag.xwire q) else q) p) k g = true) := by
  have h : ∀ (l : List Nat), (∀ j ∈ l, j < 4) → ∀ q : Polder,
      Within (fun o => o = A.FIO_DODIAG) q (l.foldl (fun q j => if crossed q k j then diagSet k Diag.xwire (diagSet j Diag.xwire q) else q) q) ∧
        (diagGet q k g = true → diagGet (l.foldl (fun q j => if crossed q k j then diagSet k Diag.xwire (diagSet j Diag.xwire q) else q) q) k g = true) := by
    intro l
    induction l with
    | nil => exact fun _ q => ⟨.refl q, id⟩
    | cons j l ih =>
      intro hl q
      have hj : j < 4 := hl j (.head _)
      obtain ⟨hw, hg⟩ := ih (fun i hi => hl i (.tail _ hi)) (if crossed q k j then diagSet k Diag.xwire (diagSet j Diag.xwire q) else q)
      refine ⟨(within_ite (S := fun o => o = A.FIO_DODIAG) ((within_diagSet (S := fun o => o = A.FIO_DODIAG) rfl _ _ _).trans (within_diagSet (S := fun o => o = A.FIO_DODIAG) rfl _ _ _)) (.refl q)).trans hw, fun hq => hg ?_⟩
      split
      · rw [diagGet_diagSet _ (by unfold Diag.xwire; omega), diagGet_diagSet _ (by unfold Diag.xwire; omega), hq]
        rfl
      · exact hq
  exact h _ (by decide) p

/-! ### Pulses -/

/-- Holding the pulses that fell due changes no register and no pulse. -/
theorem pulsesHeld_frame (t now : Nat) (p : Polder) :
    (pulsesHeld t now p).regs = p.regs ∧ ∀ j, (dout (pulsesHeld t now p) j).pulse = (dout p j).pulse := by
  have h : ∀ (l : List Nat) (q : Polder),
      (l.foldl (fun q k => if (pulseDue q k).any (fun due => decide (t ≤ due ∧ due < now)) then modDout k (fun o => { o with notBefore := now + ms }) q else q) q).regs =
        q.regs ∧ ∀ j, (dout (l.foldl (fun q k => if (pulseDue q k).any (fun due => decide (t ≤ due ∧ due < now)) then
          modDout k (fun o => { o with notBefore := now + ms }) q else q) q) j).pulse = (dout q j).pulse := by
    intro l
    induction l with
    | nil => exact fun q => ⟨rfl, fun _ => rfl⟩
    | cons k l ih =>
      intro q
      obtain ⟨hr, hp⟩ := ih (if (pulseDue q k).any (fun due => decide (t ≤ due ∧ due < now)) then modDout k (fun o => { o with notBefore := now + ms }) q else q)
      refine ⟨hr.trans ?_, fun j => (hp j).trans ?_⟩
      · split <;> rfl
      · split
        · exact dout_modDout_of FieldOut.pulse (by exact fun _ => rfl) q j k
        · rfl
  exact h _ p

end Sys2Proof.Machine
end

section
/-!
SUPPORT. O43: the events of field I/O (R320 to R336).
-/
namespace Sys2Proof.Machine
open Sys2Proof

variable {S : Nat → Prop} {p q : Polder} {now j k : Nat}

/-! ### Inputs -/

theorem rawState_of_raw (h : (din q k).raw = true) : rawState q k = lpOk q := by
  unfold rawState
  rw [h, Bool.true_and]

theorem rawChange_rise (hk : k < 8) (hr : (din p k).raw = false) (hc : diCount p k now = 0) :
    rawChange now k true p =
      putBit (setDin k { din p k with raw := true, rawAt := now, count := 0, countAt := now, left := cycleStamp p now } p) F.FIO_DI_RAW k (lpOk p) := by
  unfold rawChange
  rw [hc]
  dsimp only
  rw [if_neg (by rw [hr]; decide), rawState_of_raw (by rw [din_setDin_self _ _ hk])]
  rfl

theorem filteredChange_rise {a : Int} (hf : (din p k).filt = false) (hraw : rawState p k = true) (h0 : 0 < diTicks p k)
    (hc : diCount p k now = diTicks p k) (ha : a = (din p k).left) (he : fget p (F.FIO_DICFG_EDGE k) % 2 = 1) (hq : p.fio.queue.length < 64) :
    filteredChange now k p = (true,
      (let p1 := addSat (putBit (setDin k { din p k with filt := true, count := diTicks p k, countAt := now } p) F.FIO_DI_FILT k true) (A.FIO_DICNT k) 1
      { p1 with fio := { p1.fio with queue := p.fio.queue ++ [⟨k, true, fracOf a, nanosOf a, secsOf a⟩] } })) := by
  subst ha
  have ht : (diTicks p k != 0) = true := bne_iff_ne.mpr h0.ne'
  unfold filteredChange
  rw [hraw, hc]
  dsimp only
  rw [hf, ht, beq_self_eq_true, he, beq_self_eq_true]
  refine congrArg (Prod.mk true) ?_
  unfold queueEvent
  exact if_neg (Nat.not_le.mpr hq)

/-! ### Outputs -/

theorem readbackSample_masked {x : RbSeen} (hl : lpOk p = true) (h : now < (dout p x.k).maskEnd) :
    readbackSample now x p = putBit p F.FIO_DOSTAT_RB x.k x.high := by
  unfold readbackSample
  rw [hl]
  dsimp only
  rw [if_neg (by decide), if_pos (by rw [decide_eq_true (by omega), Bool.or_true])]

/-- A read-back that has disagreed for five ticks: `RB` shows it, and the flag of its direction sets. -/
theorem readbackSample_disagree {n : Nat} (hk : k < 4) (hl : lpOk p = true) (hp : (dout p k).pulse = none) (hm : (dout p k).maskEnd + 4 * us ≤ now)
    (hn : 5 ≤ n) :
    getBit (readbackSample now ⟨k, !getBit p F.FIO_DOSTAT_DRIVEN k, n⟩ p) F.FIO_DOSTAT_RB k = !getBit p F.FIO_DOSTAT_DRIVEN k ∧
      diagGet (readbackSample now ⟨k, !getBit p F.FIO_DOSTAT_DRIVEN k, n⟩ p) k
        (if getBit p F.FIO_DOSTAT_DRIVEN k then Diag.noDrive else Diag.extDrive) = true := by
  have hdiff : ((!getBit p F.FIO_DOSTAT_DRIVEN k) != getBit p F.FIO_DOSTAT_DRIVEN k) = true := by cases getBit p F.FIO_DOSTAT_DRIVEN k <;> rfl
  have hflag : (if getBit p F.FIO_DOSTAT_DRIVEN k then Diag.noDrive else Diag.extDrive) < 8 := by split <;> decide
  unfold readbackSample
  rw [hl]
  dsimp only
  rw [if_neg (by decide), hp, decide_eq_false (Nat.not_lt.mpr hm), if_neg (by decide), hdiff, decide_eq_true hn, if_pos (by decide)]
  generalize (if getBit p F.FIO_DOSTAT_DRIVEN k then Diag.noDrive else Diag.extDrive) = f at hflag
  obtain ⟨hw, hg⟩ := crossing_frame k hk (diagSet k f (putBit p F.FIO_DOSTAT_RB k !getBit p F.FIO_DOSTAT_DRIVEN k)) f
  refine ⟨?_, hg ?_⟩
  · rw [getBit_of_rd (hw A.FIO_DOSTAT (by decide)), getBit_of_rd (within_diagSet (S := fun o => o = A.FIO_DODIAG) rfl k f _ A.FIO_DOSTAT (by decide))]
    exact getBit_putBit_self _ (by show 8 + k < 32; omega) _
  · rw [diagGet_diagSet _ (by omega), decide_eq_true rfl, Bool.or_true]

/-- A thermal shutdown: its flag, its instant, and the output off. -/
theorem thermShut_fields {part : Part} (hk : k < 4) (hl : lpOk p = true) (hs : stageOn part p k = true) :
    diagGet (thermShut part now k p) k Diag.therm = true ∧ (dout (thermShut part now k p) k).shut = some now ∧
      getBit (thermShut part now k p) F.FIO_DOSTAT_DRIVEN k = false := by
  unfold thermShut
  rw [hl, hs, if_pos (by decide)]
  generalize hq : diagSet k Diag.therm (modDout k (fun o => { o with shut := some now, hot := true }) p) = q
  have hshut : (dout q k).shut = some now := by
    rw [← hq]
    exact congrArg FieldOut.shut (dout_modDout_self _ p hk)
  have hdiag : diagGet q k Diag.therm = true := by
    rw [← hq, diagGet_diagSet _ (by unfold Diag.therm; omega), decide_eq_true rfl, Bool.or_true]
  refine ⟨?_, ((sameOrders_drive now q).2.2 k).2.trans hshut, (driven_drive now q hk).trans (drivenNow_of_shut hshut)⟩
  unfold diagGet
  rw [within_drive_DOSTAT now q A.FIO_DODIAG (by decide)]
  exact hdiag

theorem pulseStart_of_due {t0 : Nat} (hon : (dout p k).onSince = some t0) (ht : t0 + fget p (F.FIO_DOCFG_TP_INT k) * sec ≤ now)
    (he : fbit p (F.FIO_DOCFG_TP_EN k) = true) (hd : drivenNow p k = true) (hn : ∀ j < 4, (dout p j).pulse = none) (hb : (dout p k).notBefore ≤ now) :
    pulseStart now k p = drive now (putBit (modDout k (fun o => { o with pulse := some now, discard := false }) p) F.FIO_DOSTAT_TP k true) := by
  have hdue : pulseDue p k = some (max (t0 + fget p (F.FIO_DOCFG_TP_INT k) * sec) (dout p k).notBefore) := by
    unfold pulseDue
    rw [hon]
    rfl
  have hnone : ([0, 1, 2, 3].all fun j => (dout p j).pulse.isNone) = true := by simp [hn]
  unfold pulseStart
  rw [hdue]
  exact if_pos (by rw [he, hd, decide_eq_true (Nat.max_le.mpr ⟨ht, hb⟩), hnone]; rfl)

/-- A test pulse that starts: the output is off, while its order stands. -/
theorem pulseStart_fields (hk : k < 4) (p : Polder) :
    (dout (drive now (putBit (modDout k (fun o => { o with pulse := some now, discard := false }) p) F.FIO_DOSTAT_TP k true)) k).pulse = some now ∧
      getBit (drive now (putBit (modDout k (fun o => { o with pulse := some now, discard := false }) p) F.FIO_DOSTAT_TP k true)) F.FIO_DOSTAT_TP k = true ∧
      getBit (drive now (putBit (modDout k (fun o => { o with pulse := some now, discard := false }) p) F.FIO_DOSTAT_TP k true)) F.FIO_DOSTAT_DRIVEN k = false ∧
      docmd (drive now (putBit (modDout k (fun o => { o with pulse := some now, discard := false }) p) F.FIO_DOSTAT_TP k true)) = docmd p := by
  generalize hq : putBit (modDout k (fun o => { o with pulse := some now, discard := false }) p) F.FIO_DOSTAT_TP k true = q
  have hpulse : (dout q k).pulse = some now := by
    rw [← hq]
    exact congrArg FieldOut.pulse (dout_modDout_self _ p hk)
  obtain ⟨hcmd, -, hout⟩ := sameOrders_drive now q
  refine ⟨(hout k).1.trans hpulse, ?_, (driven_drive now q hk).trans (drivenNow_of_pulse hpulse), hcmd.trans ?_⟩
  · rw [getBit_drive_ne _ _ (.inl (by show 0 + k < 4; omega)), ← hq]
    exact getBit_putBit_self _ (by show 0 + k < 32; omega) _
  · rw [← hq]
    exact (within_putBit (S := fun o => o = A.FIO_DOSTAT) _ k true rfl).fget (by decide)

theorem regs_freshMask (now k : Nat) (p : Polder) : (freshMask now k p).regs = p.regs := rfl

/-- A test pulse that has passed. -/
theorem pulseEnd_fields {t0 : Nat} (hk : k < 4) (hp : (dout p k).pulse = some t0) (ht : t0 + fget p (F.FIO_DOCFG_TP_W k) * us ≤ now)
    (hd : (dout p k).discard = false) :
    rdN (pulseEnd now k true p) (A.FIO_TPPASS k) = min 4294967295 (rdN p (A.FIO_TPPASS k) + 1) ∧ (dout (pulseEnd now k true p) k).pulse = none ∧
      rd (pulseEnd now k true p) A.FIO_DODIAG = rd p A.FIO_DODIAG := by
  unfold pulseEnd
  rw [hp]
  dsimp only
  rw [if_pos ht, hd, if_neg Bool.false_ne_true, if_pos rfl]
  generalize hq : putBit (modDout k (fun o => { o with pulse := none, discard := false }) (addSat p (A.FIO_TPPASS k) 1)) F.FIO_DOSTAT_TP k false = q
  obtain ⟨hregs, hpulse⟩ := pulsesHeld_frame t0 now q
  have hfresh : (freshMask now k (pulsesHeld t0 now q)).regs = q.regs := (regs_freshMask now k _).trans hregs
  have hrd : ∀ o, o ≠ A.FIO_DOSTAT → rd (drive now (freshMask now k (pulsesHeld t0 now q))) o = rd q o := fun o ho =>
    (within_drive_DOSTAT now _ o ho).trans (within_of_regs (S := fun _ => False) hfresh o id)
  have hq2 : ∀ o, o ≠ A.FIO_DOSTAT → rd q o = rd (addSat p (A.FIO_TPPASS k) 1) o := fun o ho => by
    rw [← hq]
    exact within_putBit (S := fun o => o = A.FIO_DOSTAT) _ k false rfl o ho
  have hne : A.FIO_TPPASS k ≠ A.FIO_DOSTAT := by unfold A.FIO_TPPASS A.FIO_DOSTAT; omega
  refine ⟨?_, ((sameOrders_drive now _).2.2 k).1.trans ?_, ?_⟩
  · rw [← rdN_addSat]
    exact congrArg BitVec.toNat ((hrd _ hne).trans (hq2 _ hne))
  · refine (dout_modDout_of FieldOut.pulse (by exact fun _ => rfl) _ k k).trans ((hpulse k).trans ?_)
    rw [← hq]
    exact congrArg FieldOut.pulse (dout_modDout_self _ (addSat p (A.FIO_TPPASS k) 1) hk)
  · exact (hrd _ (by decide)).trans ((hq2 _ (by decide)).trans (rd_wr_ne p _ (by unfold A.FIO_DODIAG A.FIO_TPPASS; omega)))

/-! ### The field supply -/

/-- The registers of the field supply's loss and return. -/
def supplyRegs (off : Nat) : Prop :=
  off = A.FIO_DOCMD ∨ off = A.FIO_DOSTAT ∨ off = A.FIO_STAT ∨ off = A.FIO_DI ∨ off = A.FIO_EVT

theorem within_queueEvent (h : S A.FIO_EVT) (src : Nat) (level : Bool) (x : Int) (p : Polder) : Within S p (queueEvent src level x p) := by
  unfold queueEvent
  exact within_ite (within_evt p h) fun _ _ => rfl

theorem fbit_queueEvent {f : Fld} (h : f.hi < F.FIO_EVT_QOVF.lo ∨ F.FIO_EVT_QOVF.hi < f.lo) (src : Nat) (level : Bool) (x : Int) (p : Polder) :
    fbit (queueEvent src level x p) f = fbit p f := by
  unfold queueEvent
  split
  · unfold fbit
    rw [fget_evt_ne _ h]
  · rfl

theorem regs_foldl {α : Type} (f : Polder → α → Polder) (l : List α) (p : Polder) (h : ∀ q a, (f q a).regs = q.regs) : (l.foldl f p).regs = p.regs := by
  induction l generalizing p with
  | nil => rfl
  | cons a l ih => exact (ih (f p a)).trans (h p a)

/-- Every output ordered off. -/
theorem orderOff_frame (now : Nat) (p : Polder) :
    Within (fun o => o = A.FIO_DOCMD ∨ o = A.FIO_DOSTAT) p (order now 15 0 p) ∧ docmd (order now 15 0 p) = 0 := by
  unfold order
  extract_lets m cmd p1 p2
  have hcmd : cmd = 0 := by unfold cmd m; simp
  have h1 : Within (fun o => o = A.FIO_DOCMD ∨ o = A.FIO_DOSTAT) p p1 := within_fput p cmd (.inl rfl)
  have hd1 : docmd p1 = 0 := by
    refine (fget_fput_self p F.FIO_DOCMD_DO cmd (by decide)).trans ?_
    rw [hcmd]
    rfl
  have h2 : p2.regs = p1.regs := regs_foldl _ _ _ fun q a => by split <;> rfl
  clear_value p1 p2
  refine ⟨(h1.trans (within_of_regs h2)).trans ((within_drive_DOSTAT now p2).mono fun _ ho => .inr ho), ?_⟩
  exact (sameOrders_drive now p2).1.trans ((fget_of_regs h2 _).trans hd1)

/-- The loss of the field supply: every output ordered off, the inputs low, and nothing else of the registers. -/
theorem lpLost_fields (hl : lpOk p = true) (now : Nat) :
    lpOk (lpLost now p) = false ∧ docmd (lpLost now p) = 0 ∧ rd (lpLost now p) A.FIO_DI = 0 ∧ Within supplyRegs p (lpLost now p) := by
  obtain ⟨hw1, hd1⟩ := orderOff_frame now p
  unfold lpLost
  rw [if_pos hl]
  extract_lets p1 p2 p3 p4 f p5
  have h2 : lpOk p2 = false := by
    unfold lpOk fbit
    rw [show fget p2 F.FIO_STAT_LPOK = 0 from fget_fput_self p1 F.FIO_STAT_LPOK 0 (by decide)]
    rfl
  have hd2 : docmd p2 = 0 := (fget_fput_off p1 0 (by decide)).trans hd1
  have hw2 : Within supplyRegs p p2 := (hw1.mono fun o ho => ho.elim .inl fun h => .inr (.inl h)).trans (within_fput p1 0 (.inr (.inr (.inl rfl))))
  have h3 : p3.regs = p2.regs := regs_foldl _ _ _ fun _ _ => rfl
  clear_value p2 p3
  have h5 : Within (fun o => o = A.FIO_DI ∨ o = A.FIO_DOSTAT) p2 p5 :=
    ((within_of_regs h3).trans (within_wr p3 0 (.inl rfl))).trans ((within_fput (f := F.FIO_DOSTAT_RB) (wr p3 A.FIO_DI 0) 0 (.inr rfl)).trans fun _ _ => rfl)
  have hdi : rd p5 A.FIO_DI = 0 := (rd_fput_ne (wr p3 A.FIO_DI 0) F.FIO_DOSTAT_RB 0 (by decide)).trans (rd_wr_self _ _ _)
  clear_value p5
  have h6 : Within (fun o => o = A.FIO_EVT) p5 (queueEvent 8 false (cycleStamp p5 now) (evt F.FIO_EVT_LPLOW p5)) :=
    (within_evt (S := fun o => o = A.FIO_EVT) (f := F.FIO_EVT_LPLOW) p5 rfl).trans (within_queueEvent (S := fun o => o = A.FIO_EVT) rfl _ _ _ _)
  refine ⟨?_, ?_, (h6 _ (by decide)).trans hdi, hw2.trans ((h5.mono ?_).trans (h6.mono ?_))⟩
  · exact (h6.fbit (by decide)).trans ((h5.fbit (by decide)).trans h2)
  · exact (h6.fget (by decide)).trans ((h5.fget (by decide)).trans hd2)
  · exact fun o ho => ho.elim (fun h => .inr (.inr (.inr (.inl h)))) fun h => .inr (.inl h)
  · exact fun o ho => .inr (.inr (.inr (.inr ho)))

/-- The entry and the event of the return keep the line's state. -/
theorem lpUp_fields (h : lpOk q = true) (x : Int) :
    lpOk (queueEvent 9 true x (evt F.FIO_EVT_LPUP q)) = true ∧ fbit (queueEvent 9 true x (evt F.FIO_EVT_LPUP q)) F.FIO_EVT_LPUP = true := by
  have hw : Within (fun o => o = A.FIO_EVT) q (queueEvent 9 true x (evt F.FIO_EVT_LPUP q)) :=
    (within_evt (S := fun o => o = A.FIO_EVT) (f := F.FIO_EVT_LPUP) q rfl).trans (within_queueEvent (S := fun o => o = A.FIO_EVT) rfl _ _ _ _)
  exact ⟨(hw.fbit (by decide)).trans h, (fbit_queueEvent (.inr (by decide)) _ _ _ _).trans (fbit_evt_self' _ (by decide) rfl)⟩

theorem within_rawAgain (now k : Nat) (x : Int) (q : Polder) :
    Within (fun o => o = A.FIO_DI) q
      (putBit (setDin k { din q k with count := 0, countAt := now, rawAt := now, left := x } q) F.FIO_DI_RAW k (din q k).raw) :=
  Within.trans (within_of_regs rfl) (within_putBit (S := fun o => o = A.FIO_DI) (f := F.FIO_DI_RAW) _ _ _ rfl)

/-- Every input starts to rise through its filter again. -/
def inputsAgain (now : Nat) (p : Polder) : Polder :=
  (List.range 8).foldl (fun q k =>
    putBit (setDin k { din q k with count := 0, countAt := now, rawAt := now, left := cycleStamp p now } q) F.FIO_DI_RAW k (din q k).raw) p

theorem within_inputsAgain (now : Nat) (p : Polder) : Within (fun o => o = A.FIO_DI) p (inputsAgain now p) :=
  within_foldl _ _ _ fun q k _ => within_rawAgain now k (cycleStamp p now) q

theorem lpReturned_eq (hl : lpOk p = false) (ht : p.fio.lpSince.getD 0 + 10 * ms ≤ now) :
    lpReturned now p =
      let p2 := inputsAgain now (fput p F.FIO_STAT_LPOK 1)
      queueEvent 9 true (cycleStamp p2 now) (evt F.FIO_EVT_LPUP { p2 with fio := { p2.fio with lpSince := none } }) :=
  if_pos (by rw [hl, decide_eq_true ht]; rfl)

/-- The return of the field supply. -/
theorem lpReturned_fields (hl : lpOk p = false) (ht : p.fio.lpSince.getD 0 + 10 * ms ≤ now) :
    lpOk (lpReturned now p) = true ∧ fbit (lpReturned now p) F.FIO_EVT_LPUP = true := by
  rw [lpReturned_eq hl ht]
  have h1 : lpOk (fput p F.FIO_STAT_LPOK 1) = true := fbit_of_fget (fget_fput_self p F.FIO_STAT_LPOK 1 (by decide))
  extract_lets p2
  have h2 : lpOk p2 = true := ((within_inputsAgain now _).fbit (by decide)).trans h1
  clear_value p2
  have h3 : Within (fun _ => False) p2 { p2 with fio := { p2.fio with lpSince := none } } := within_of_regs rfl
  exact lpUp_fields ((h3.fbit id).trans h2) _

theorem within_brkSee (hS : ∀ o, o = A.PCT_REGIME ∨ o = A.PCT_REGEVT → S o) (p : Polder) : Within S p (brkSee p) := by
  unfold brkSee
  refine within_ite ?_ (.refl p)
  extract_lets v lost p1
  have h1 : Within S p p1 := within_fput p _ (hS _ (.inl rfl))
  clear_value p1
  refine Within.trans ?_ (within_of_regs (regs_brkConfirm _))
  exact within_ite (h1.trans (Within.trans (q := modRgm (fun g => { g with brkLost := true }) p1) (fun _ _ => rfl) (within_evt _ (hS _ (.inr rfl))))) h1

theorem does_of_modPol {k : Instr} {s : State} {t now : Nat} {i : PolderId} {p q : Polder} {f : Nat → Polder → Polder}
    (he : exec k s = onPart t i s fun now y => y.modPol i (f now)) (h : Runs s t i now p) (hf : f now p = polish now q) : Does k s t i q := by
  obtain ⟨⟨hp, -, -⟩, rfl, rfl⟩ := h
  unfold Does
  rw [he, onPart_eq _ _ _ _ hp]
  unfold State.modPol State.after State.leaves
  rw [at_pol, hf]

theorem supplyRegs_of_brkSee {p q : Polder} (hw : Within supplyRegs p q) (off : Nat) (h : ¬(supplyRegs off ∨ off = A.PCT_REGIME ∨ off = A.PCT_REGEVT)) :
    rd (lane2Stop (brkSee q)) off = rd p off :=
  ((within_brkSee (S := fun o => o = A.PCT_REGIME ∨ o = A.PCT_REGEVT) (fun _ => id) q) off fun hs => h (.inr hs)).trans (hw off fun hs => h (.inl hs))

/-- What the loss leaves at a polder that is awake, lane 2 and the breaker's supply with it. -/
theorem lpGone_fields (hl : lpOk p = true) (now : Nat) :
    lpOk (lane2Stop (brkSee (lpLost now p))) = false ∧ docmd (lane2Stop (brkSee (lpLost now p))) = 0 ∧
      rd (lane2Stop (brkSee (lpLost now p))) A.FIO_DI = 0 ∧ (lane2Stop (brkSee (lpLost now p))).spb.lane2 = false ∧
      ∀ k < 8, rd (lane2Stop (brkSee (lpLost now p))) (A.FIO_DICNT k) = rd p (A.FIO_DICNT k) := by
  obtain ⟨h1, h2, h3, hw⟩ := lpLost_fields hl now
  have hb : Within (fun o => o = A.PCT_REGIME ∨ o = A.PCT_REGEVT) (lpLost now p) (lane2Stop (brkSee (lpLost now p))) :=
    (within_brkSee (fun _ => id) _).trans fun _ _ => rfl
  refine ⟨(hb.fbit (by decide)).trans h1, (hb.fget (by decide)).trans h2, (hb _ (by decide)).trans h3, rfl, fun k hk => ?_⟩
  refine supplyRegs_of_brkSee hw _ ?_
  unfold supplyRegs A.FIO_DICNT A.FIO_DOCMD A.FIO_DOSTAT A.FIO_STAT A.FIO_DI A.FIO_EVT A.PCT_REGIME A.PCT_REGEVT
  omega

theorem lpBack_of_awake (ha : awake p = true) (hl : lpOk p = false) (h : lpOk (lpReturned now p) = true) :
    lpBack now p = polish now (lane2Start now (lpReturned now p)) := by
  have hp : p.power = .awake := by simpa [awake] using ha
  unfold lpBack
  dsimp only
  rw [hp]
  exact congrArg (polish now) (if_pos (by rw [h, hl]; rfl))

theorem lane2Start_fields (hl : lpOk q = true) (he : fbit q F.FIO_EVT_LPUP = true) (now : Nat) :
    lpOk (lane2Start now q) = true ∧ fbit (lane2Start now q) F.FIO_EVT_LPUP = true ∧ (lane2Start now q).spb.lane2 = true := by
  have hw : Within (fun o => o = F.SPB_STAT_INP.off) q (lane2Start now q) := (within_fput (S := fun o => o = F.SPB_STAT_INP.off) (f := F.SPB_STAT_INP) q 0 rfl).trans fun _ _ => rfl
  exact ⟨(hw.fbit (by decide)).trans hl, (hw.fbit (by decide)).trans he, rfl⟩

/-- Settles O43: each event by what its handler leaves; the outputs by what driving them shows. -/
theorem fieldEvents : Obligations.FieldEvents := by
  unfold Obligations.FieldEvents
  intro s t i now p hr
  have hsvc := inService_of_runs hr
  refine ⟨?_, ?_, ?_, ?_, ?_, ?_, ?_, ?_, ?_, ?_, ?_, ?_⟩
  · rintro k p1 hk hraw hc rfl
    refine does_of_onPin (runs := fun q => awake q || sampling q) (f := fun now q => rawChange now k true q) (g := fun now q => rawLevel now k true q)
      (if_pos hk) hr ?_ (rawChange_rise hk hraw hc)
    obtain ⟨⟨-, ha, -⟩, -, rfl⟩ := hr
    exact Bool.or_eq_true_iff.mpr (.inl ha)
  · rintro k p1 a hk hf hraw h0 hc ha he hq rfl
    refine does_of_modPol (f := fun now q =>
      if inService q then polish now (let r := filteredChange now k q; if r.1 then brkSee r.2 else r.2)
      else if sampling q then polish now (filteredChange now k q).2
      else q) (if_pos hk) hr ?_
    dsimp only
    rw [if_pos hsvc, filteredChange_rise hf hraw h0 hc ha he hq]
    rfl
  · intro k n hk hl hp hm hn
    exact ⟨_, does_of_onIndex (f := fun now q => readbackSample now ⟨k, !getBit p F.FIO_DOSTAT_DRIVEN k, n⟩ q) rfl hk hr rfl,
      readbackSample_disagree hk hl hp hm hn⟩
  · intro k n high hk hl hm
    exact does_of_onIndex (f := fun now q => readbackSample now ⟨k, high, n⟩ q) rfl hk hr (readbackSample_masked hl hm)
  · rintro k m hk hl hs rfl
    exact does_of_onIndex (f := fun _ q => ilimFlag s.part k q) rfl hk hr (if_pos (by rw [hl, hs]; rfl))
  · intro k hk hs
    have hoff : ¬(lpOk p && stageOn s.part p k) = true := by rw [hs, Bool.and_false]; decide
    exact ⟨does_of_onIndex (f := fun _ q => ilimFlag s.part k q) rfl hk hr (if_neg hoff),
      does_of_onIndex (f := fun now q => thermShut s.part now k q) rfl hk hr (if_neg hoff)⟩
  · intro k hk hl hs
    exact ⟨_, does_of_onIndex (f := fun now q => thermShut s.part now k q) rfl hk hr rfl, thermShut_fields hk hl hs⟩
  · intro k t0 hk hs he ht
    refine does_of_onIndex (f := fun now q => thermCool now k q) rfl hk hr ?_
    unfold thermCool
    rw [hs]
    exact (if_pos he).trans (if_pos ht)
  · intro k t0 hk hon ht he hd hn hb
    exact ⟨_, does_of_onIndex (f := fun now q => pulseStart now k q) rfl hk hr (pulseStart_of_due hon ht he hd hn hb), pulseStart_fields hk p⟩
  · intro k t0 hk hp ht hd
    exact ⟨_, does_of_onIndex (f := fun now q => pulseEnd now k true q) rfl hk hr rfl, pulseEnd_fields hk hp ht hd⟩
  · intro hl
    refine ⟨_, does_of_modPol (f := lpGone) rfl hr ?_, lpGone_fields hl now⟩
    obtain ⟨⟨-, ha, -⟩, -, rfl⟩ := hr
    unfold lpGone
    rw [show (s.pol i).power = .awake by simpa [awake] using ha]
  · intro hl ht
    obtain ⟨h1, h2⟩ := lpReturned_fields hl ht
    refine ⟨_, does_of_modPol (f := lpBack) rfl hr ?_, lane2Start_fields h1 h2 now⟩
    obtain ⟨⟨-, ha, -⟩, -, rfl⟩ := hr
    exact lpBack_of_awake ha hl h1

end Sys2Proof.Machine
end

section
/-!
SUPPORT. O44: lanes, enable-path test, safety inputs and Stomet frames (R342 to R359).
-/
namespace Sys2Proof.Machine
open Sys2Proof

variable {S : Nat → Prop} {p q : Polder} {now j k rb port : Nat}

/-! ### Faults and events of the block -/

theorem within_spbEvt {f : Fld} (hf : S f.off) (hl : ∀ o, logRegs o → S o) (now : Nat) (p : Polder) : Within S p (spbEvt now f p) :=
  (within_evt p hf).trans (within_spbReport hl now true _)

theorem within_spbFault {f : Fld} (hf : S f.off) (hl : ∀ o, logRegs o → S o) (now : Nat) (p : Polder) : Within S p (spbFault now f p) :=
  (within_fput p 1 hf).trans (within_spbReport hl now true _)

theorem spb_spbEvt (now : Nat) (f : Fld) (p : Polder) : (spbEvt now f p).spb = p.spb := spb_spbReport now true _

theorem spb_spbFault (now : Nat) (f : Fld) (p : Polder) : (spbFault now f p).spb = p.spb := spb_spbReport now true _

theorem fbit_spbEvt {f : Fld} (hf : f.hi < 32) (hw : f.hi = f.lo) (hl : ¬logRegs f.off) (now : Nat) (p : Polder) : fbit (spbEvt now f p) f = true :=
  ((within_spbReport (S := logRegs) (fun _ => id) now true (evt f p)).fbit hl).trans (fbit_evt_self' p hf hw)

/-- Source 7 is bit 7 of the sources. -/
theorem connLatched_eq (p : Polder) : connLatched p = getBit p F.SPB_STAT_SRC 7 := by
  have h := bitsOf_testBit (rd p A.SPB_STAT) 8 0 7
  rw [Nat.testBit_eq_decide_div_mod_eq] at h
  exact h

theorem not_logRegs_evt : ¬logRegs A.SPB_EVT := by
  unfold logRegs
  decide

theorem not_logRegs_fault : ¬logRegs A.SPB_FAULT := by
  unfold logRegs
  decide

theorem connFault_fields {f : Fld} (hf : f.hi < 32) (hw : f.hi = f.lo) (ho : f.off = A.SPB_EVT) (now : Nat) (p : Polder) :
    fbit (connFault now f p) f = true ∧ connLatched (connFault now f p) = true ∧ (connFault now f p).spb.windows = p.spb.windows := by
  have hstat : Within (fun o => o = A.SPB_STAT) (spbEvt now f p) (connFault now f p) :=
    Within.trans (within_putBit (S := fun o => o = A.SPB_STAT) (f := F.SPB_STAT_SRC) _ 7 true rfl) (within_of_regs rfl)
  refine ⟨(hstat.fbit (by rw [ho]; decide)).trans (fbit_spbEvt hf hw (by rw [ho]; exact not_logRegs_evt) now p), ?_, (congrArg SpbState.windows (spb_spbEvt now f p) :)⟩
  rw [connLatched_eq]
  exact getBit_putBit_self (f := F.SPB_STAT_SRC) (spbEvt now f p) (by decide) true

/-! ### Read-back of the gate-enable lines -/

theorem rbDiffers_eq_zero (h0 : rb.testBit 0 = genHigh p 0) (h1 : rb.testBit 1 = genHigh p 1) (now : Nat) : rbDiffers now rb p = 0 := by
  unfold rbDiffers
  simp [h0, h1]

theorem rbDiffers_ne_zero (hj : j < 2) (h : rb.testBit j ≠ genHigh p j) (ht : vget p.spb.genAt j 0 + 5 * us ≤ now) : rbDiffers now rb p ≠ 0 := by
  have hb : (rb.testBit j != genHigh p j && decide (vget p.spb.genAt j 0 + 5 * us ≤ now)) = true := by
    rw [bne_iff_ne.mpr h, decide_eq_true ht]
    rfl
  unfold rbDiffers
  rw [List.foldl_cons, List.foldl_cons, List.foldl_nil]
  interval_cases j
  · rw [if_pos hb]
    split <;> omega
  · rw [if_pos hb]
    omega

theorem lineCheck_of_agreed (h : rbDiffers now rb p = 0) : lineCheck now rb p = modSpb (fun s => { s with rbOff := 0 }) p := by
  unfold lineCheck
  rw [h]
  rfl

/-- A line that differs latches its fault. -/
theorem fbit_lineCheck (h : rbDiffers now rb p ≠ 0) : fbit (lineCheck now rb p) F.SPB_FAULT_GENRB = true := by
  unfold lineCheck
  extract_lets d p1
  have hd : d ≠ 0 := h
  have h1 : fget p1 F.SPB_FAULT_GENRB = fget p F.SPB_FAULT_GENRB := rfl
  clear_value d p1
  by_cases hg : fget p F.SPB_FAULT_GENRB = 0
  · rw [if_pos (by rw [hg]; simpa using hd)]
    exact ((within_spbReport (S := logRegs) (fun _ => id) now true _).fbit not_logRegs_fault).trans (fbit_of_fget (fget_fput_self p1 F.SPB_FAULT_GENRB 1 (by decide)))
  · rw [if_neg (by simpa using fun _ => hg)]
    refine fbit_of_fget (h1.trans ?_)
    have hlt : fget p F.SPB_FAULT_GENRB < 2 := fget_lt (f := F.SPB_FAULT_GENRB) p (by decide)
    omega

/-! ### Lanes -/

theorem laneMessage_good {x : LaneIn} (hg : x.good = true) (ht : x.toLane1 = true) (h1 : p.spb.lane1 = true) (h2 : p.spb.lane2 = true) :
    laneMessage now x p = modSpb (fun s => { s with
      heard2 := now, demand2 := x.demand, inputs2 := x.inputs,
      disagree := if x.demand == (spbState p != 2) && x.inputs == fget p F.SPB_STAT_INP then none else some (s.disagree.getD now),
      loaded2 := s.loaded2 || x.check == spbCrc p, corrupt := s.loaded2 && x.check != spbCrc p }) (lineCheck now x.rb p) := by
  unfold laneMessage
  rw [hg, h1, h2, ht]
  rfl

theorem genMask_testBit (p : Polder) : (genMask p).testBit 0 = genHigh p 0 ∧ (genMask p).testBit 1 = genHigh p 1 := by
  unfold genMask
  cases genHigh p 0 <;> cases genHigh p 1 <;> decide

theorem laneMessage_fields {x : LaneIn} (hg : x.good = true) (ht : x.toLane1 = true) (h1 : p.spb.lane1 = true) (h2 : p.spb.lane2 = true)
    (hr : x.rb = genMask p) :
    (laneMessage now x p).regs = p.regs ∧ (laneMessage now x p).spb.heard2 = now ∧ (laneMessage now x p).spb.demand2 = x.demand ∧
      (laneMessage now x p).spb.inputs2 = x.inputs ∧ ((laneMessage now x p).spb.loaded2 = true ↔ p.spb.loaded2 = true ∨ x.check = spbCrc p) := by
  obtain ⟨hb0, hb1⟩ := genMask_testBit p
  rw [laneMessage_good hg ht h1 h2, lineCheck_of_agreed (rbDiffers_eq_zero (by rw [hr, hb0]) (by rw [hr, hb1]) now)]
  refine ⟨rfl, rfl, rfl, rfl, ?_⟩
  exact Bool.or_eq_true_iff.trans (or_congr Iff.rfl beq_iff_eq)

theorem late_iff {d : Option Nat} {t0 : Nat} (h : d = some t0) (ht : t0 + 500 * us ≤ now) : (d.any fun t => decide (t + 500 * us ≤ now)) = true := by
  subst h
  exact (Option.any_some ..).trans (decide_eq_true ht)

theorem laneDisagreement_of_late {t0 : Nat} (h : p.spb.disagree = some t0 ∨ p.spb.disagree2 = some t0) (ht : t0 + 500 * us ≤ now)
    (h1 : p.spb.lane1 = true) (h2 : p.spb.lane2 = true) : laneDisagreement now p = spbReport now true (fput p F.SPB_FAULT_LANE 1) := by
  unfold laneDisagreement
  extract_lets late
  have hlate : ∀ d, d = some t0 → late d = true := fun d hd => late_iff hd ht
  clear_value late
  have hor : (late p.spb.disagree || late p.spb.disagree2) = true := Bool.or_eq_true_iff.mpr (h.imp (hlate _) (hlate _))
  rw [hor, h1, h2]
  rfl

theorem laneStopped_of_late (h1 : p.spb.lane1 = true) (h2 : p.spb.lane2 = true) (ht : p.spb.heard2 + ms ≤ now) :
    laneStopped now p = spbReport now true (fput (modSpb (fun x => { x with demand2 := true }) p) F.SPB_FAULT_HB 1) := by
  unfold laneStopped
  exact if_pos (by rw [h1, h2, decide_eq_true ht, Bool.or_true]; rfl)

theorem parameterCheck_of_corrupt (h1 : p.spb.lane1 = true) (hc : p.spb.corrupt = true ∨ p.spb.corrupt1 = true) (hs : p.spb.confirmed.isSome = true) :
    parameterCheck now p = spbReport now true (fput p F.SPB_FAULT_CFGCRC 1) := by
  unfold parameterCheck
  exact if_pos (by rw [h1, hs, Bool.or_eq_true_iff.mpr hc]; rfl)

/-! ### Safety inputs -/

theorem safetyFiltered_fields (hk : k < 4) (h1 : p.spb.lane1 = true) (hr : rawState p (4 + k) ≠ getBit p F.SPB_STAT_INP k)
    (ht : (din p (4 + k)).rawAt + rdN p A.SPB_FILT * us ≤ now) (hl : p.spb.laneAt + rdN p A.SPB_FILT * us ≤ now) :
    getBit (safetyFiltered now k p) F.SPB_STAT_INP k = rawState p (4 + k) ∧
      ∀ j < 4, j ≠ k → getBit (safetyFiltered now k p) F.SPB_STAT_INP j = getBit p F.SPB_STAT_INP j := by
  have hm : max (din p (4 + k)).rawAt p.spb.laneAt + rdN p A.SPB_FILT * us ≤ now := by
    rw [Nat.max_def]
    split
    · exact hl
    · exact ht
  unfold safetyFiltered
  dsimp only
  rw [if_pos (by rw [decide_eq_true hk, h1, bne_iff_ne.mpr hr, decide_eq_true hm]; rfl)]
  generalize hq : putBit p F.SPB_STAT_INP k (rawState p (4 + k)) = q
  have hregs : ∀ (f : SpbState → SpbState) (m : Nat), rd (discTrack now m (modSpb f q)) A.SPB_STAT = rd q A.SPB_STAT := fun _ _ => rfl
  subst hq
  refine ⟨(getBit_of_rd (hregs _ _) k).trans (getBit_putBit_self p (by show 12 + k < 32; omega) _), fun j _ hjk => ?_⟩
  exact (getBit_of_rd (hregs _ _) j).trans (getBit_putBit_ne p _ (by show 12 + k ≠ 12 + j; omega))

theorem discLatch_fields {t0 : Nat} (hj : j < 2) (hd : vget p.spb.disc j none = some t0) (ht : t0 + rdN p A.SPB_DISC * ms ≤ now)
    (hn : vget p.spb.discLatched j false = false) :
    vget (discLatch now j p).spb.discLatched j false = true ∧
      fbit (discLatch now j p) (if j = 0 then F.SPB_EVT_DISC1 else F.SPB_EVT_DISC2) = true := by
  have hf : ∀ f, (f = F.SPB_EVT_DISC1 ∨ f = F.SPB_EVT_DISC2) → f.hi < 32 ∧ f.hi = f.lo ∧ ¬logRegs f.off := by
    rintro f (rfl | rfl) <;> exact ⟨by decide, rfl, not_logRegs_evt⟩
  have hfj : (if j = 0 then F.SPB_EVT_DISC1 else F.SPB_EVT_DISC2) = F.SPB_EVT_DISC1 ∨ (if j = 0 then F.SPB_EVT_DISC1 else F.SPB_EVT_DISC2) = F.SPB_EVT_DISC2 := by
    split
    · exact .inl rfl
    · exact .inr rfl
  obtain ⟨hhi, hw, hlog⟩ := hf _ hfj
  unfold discLatch
  rw [hd]
  dsimp only
  rw [if_pos (by rw [decide_eq_true hj, decide_eq_true ht, hn]; rfl)]
  refine ⟨?_, fbit_spbEvt hhi hw hlog now _⟩
  rw [spb_spbEvt]
  exact vget_vset_self _ _ _ hj

/-! ### Enable-path test -/

theorem testStart_of_wanted (hw : p.spb.testWanted = true) (ht : p.spb.test = none) (hg : p.dike.genLow = 0) (h1 : p.spb.lane1 = true) :
    testStart now p = modSpb (fun x => { x with test := some (0, now), testWanted := false }) p := by
  unfold testStart
  exact if_pos (by rw [hw, ht, hg, h1]; rfl)

theorem linesAll_of {f g : Nat → Bool} (h : ∀ n < 4, f n = true → g n = true) : ((linksWhere f).all g) = true := by
  rw [List.all_eq_true]
  intro n hn
  obtain ⟨hm, hf⟩ := List.mem_filter.mp hn
  have h4 : n < 4 := by
    simp only [List.mem_cons, List.not_mem_nil, or_false] at hm
    omega
  exact h n h4 hf

/-- A phase of the test whose lines and links show what they should: the next phase, or the end of the test. -/
theorem testStep_of_good {t0 : Nat} (ht : p.spb.test = some (k, t0)) (hd : t0 + (if k % 2 = 0 then 200 * us else 100 * us) ≤ now)
    (hl : ∀ n < 4, linkLive p n = true → linkFollows p k t0 n = true) :
    testStep now (bn (genHigh p 0) + 2 * bn (genHigh p 1)) p =
      if k = 7 then testPassed now (modSpb (fun z => { z with rbOff := 0 }) p)
      else modSpb (fun s => { s with test := some (k + 1, now) }) (modSpb (fun z => { z with rbOff := 0 }) p) := by
  obtain ⟨hb0, hb1⟩ := genMask_testBit p
  have hz : rbDiffers now (bn (genHigh p 0) + 2 * bn (genHigh p 1)) p = 0 := rbDiffers_eq_zero hb0 hb1 now
  unfold testStep
  rw [ht]
  refine (if_pos hd).trans ?_
  dsimp only
  rw [lineCheck_of_agreed hz, hz, linesAll_of hl]
  rfl

theorem storeSafety_shape (now : Nat) (p : Polder) : ∃ n, storeSafety now p = { p with nv := n } := nvTouch_shape now 3 p _

theorem spbRelease_fields (now : Nat) (p : Polder) :
    Within (fun o => o = A.SPB_STAT ∨ logRegs o) p (spbRelease now p) ∧ (spbRelease now p).spb.test = p.spb.test ∧ spbState (spbRelease now p) = 2 := by
  unfold spbRelease
  extract_lets p1
  have h1 : Within (fun o => o = A.SPB_STAT ∨ logRegs o) p p1 :=
    (within_fput (S := fun o => o = A.SPB_STAT ∨ logRegs o) (f := F.SPB_STAT_SRC) p 0 (.inl rfl)).trans
      (Within.trans (within_fput (S := fun o => o = A.SPB_STAT ∨ logRegs o) (f := F.SPB_STAT_STATE) _ 2 (.inl rfl)) (within_of_regs rfl))
  have hs : spbState p1 = 2 := fget_fput_self (fput p F.SPB_STAT_SRC 0) F.SPB_STAT_STATE 2 (by decide)
  have ht : p1.spb.test = p.spb.test := rfl
  clear_value p1
  have hr : Within logRegs p1 (spbReport now false p1) := within_spbReport (fun _ => id) now false p1
  refine ⟨h1.trans (hr.mono fun _ => .inr), (congrArg SpbState.test (spb_spbReport now false p1)).trans ht, (hr.fget ?_).trans hs⟩
  unfold logRegs
  decide

theorem testPassed_fields (now : Nat) (p : Polder) :
    rd (testPassed now p) A.SPB_TESTAGE = 0 ∧ (testPassed now p).spb.test = none ∧ (spbState p = 1 → spbState (testPassed now p) = 2) := by
  unfold testPassed
  extract_lets p1 p2
  have h1 : Within (fun o => o = A.SPB_TESTAGE ∨ o = A.SPB_STAT) p p1 :=
    Within.trans (q := wr (modSpb (fun s => { s with test := none, ageAt := now }) p) A.SPB_TESTAGE 0)
      (Within.trans (q := modSpb (fun s => { s with test := none, ageAt := now }) p) (fun _ _ => rfl) (within_wr _ 0 (.inl rfl)))
      (within_fput (S := fun o => o = A.SPB_TESTAGE ∨ o = A.SPB_STAT) (f := F.SPB_STAT_TEST_DUE) _ 0 (.inr rfl))
  have hage1 : rd p1 A.SPB_TESTAGE = 0 := (rd_fput_ne _ F.SPB_STAT_TEST_DUE 0 (by decide)).trans (rd_wr_self _ _ _)
  have hst1 : spbState p1 = spbState p := (fget_fput_bits (f := F.SPB_STAT_TEST_DUE) (g := F.SPB_STAT_STATE) _ 0 (.inr (by decide))).trans
    ((Within.trans (within_of_regs (q := modSpb (fun s => { s with test := none, ageAt := now }) p) rfl)
      (within_wr (S := fun o => o = A.SPB_TESTAGE) _ 0 rfl)).fget (f := F.SPB_STAT_STATE) (by decide))
  have ht1 : p1.spb.test = none := rfl
  clear_value p1
  have hrel : Within (fun o => o = A.SPB_STAT ∨ logRegs o) p1 p2 ∧ p2.spb.test = p1.spb.test ∧ (spbState p1 = 1 → spbState p2 = 2) := by
    unfold p2
    split
    · exact ⟨(spbRelease_fields now p1).1, (spbRelease_fields now p1).2.1, fun _ => (spbRelease_fields now p1).2.2⟩
    next h => exact ⟨.refl _, rfl, fun h' => absurd h' h⟩
  obtain ⟨hw2, ht2, hs2⟩ := hrel
  obtain ⟨v, hv⟩ := storeSafety_shape now p2
  obtain ⟨o, ho⟩ := answerAcks_shape Status.ok (storeSafety now p2)
  have hregs : (answerAcks Status.ok (storeSafety now p2)).regs = p2.regs := by rw [ho, hv]
  have hspb : (answerAcks Status.ok (storeSafety now p2)).spb.test = p2.spb.test := by rw [ho, hv]
  clear_value p2
  refine ⟨(within_of_regs (S := fun _ => False) hregs A.SPB_TESTAGE id).trans ((hw2 _ ?_).trans hage1), hspb.trans (ht2.trans ht1), fun h => ?_⟩
  · unfold logRegs
    decide
  · exact (fget_of_regs hregs _).trans (hs2 (hst1.trans h))

theorem rdN_of_rd {o : Nat} (h : rd q o = rd p o) : rdN q o = rdN p o := congrArg BitVec.toNat h

theorem testAgeHour_fields (ht : p.spb.ageAt + 3600 * sec ≤ now) :
    rd (testAgeHour now p) A.SPB_TESTAGE = rd p A.SPB_TESTAGE + 1 ∧ (testAgeHour now p).spb.ageAt = p.spb.ageAt + 3600 * sec ∧
      (rdN (testAgeHour now p) A.SPB_TESTINT ≤ rdN (testAgeHour now p) A.SPB_TESTAGE → fget (testAgeHour now p) F.SPB_STAT_TEST_DUE = 1) := by
  unfold testAgeHour
  rw [if_pos ht]
  extract_lets p1
  have h1 : rd p1 A.SPB_TESTAGE = rd p A.SPB_TESTAGE + 1 := rd_wr_self _ _ _
  have hage : p1.spb.ageAt = p.spb.ageAt + 3600 * sec := rfl
  clear_value p1
  have hdue : Within (fun o => o = A.SPB_STAT) p1 (testDue p1) := within_ite (within_fput (S := fun o => o = A.SPB_STAT) (f := F.SPB_STAT_TEST_DUE) p1 1 rfl) (.refl p1)
  have hspb : (testDue p1).spb = p1.spb := by
    unfold testDue
    split <;> rfl
  have hset : rdN p1 A.SPB_TESTINT ≤ rdN p1 A.SPB_TESTAGE → fget (testDue p1) F.SPB_STAT_TEST_DUE = 1 := fun h => by
    unfold testDue
    rw [if_pos h]
    exact fget_fput_self p1 F.SPB_STAT_TEST_DUE 1 (by decide)
  generalize testDue p1 = p2 at hdue hspb hset
  obtain ⟨v, hv⟩ := storeSafety_shape now p2
  rw [hv]
  have hr : Within (fun _ => False) p2 { p2 with nv := v } := within_of_regs rfl
  refine ⟨(hr _ id).trans ((hdue _ (by decide)).trans h1), (congrArg SpbState.ageAt hspb).trans hage, fun h => (hr.fget id).trans (hset ?_)⟩
  rw [rdN_of_rd ((hr A.SPB_TESTINT id).trans (hdue _ (by decide))), rdN_of_rd ((hr A.SPB_TESTAGE id).trans (hdue _ (by decide)))] at h
  exact h

theorem passUnlock_of_due {t0 : Nat} (h : p.spb.lockEnd = some t0) (ht : t0 ≤ now) :
    passUnlock now p = modSpb (fun x => { x with lockEnd := none, wrong := 0 }) p := by
  unfold passUnlock
  rw [h]
  exact if_pos ht

/-! ### Stomet frames -/

theorem stometFrame_of_run {ip : Nat} {l : List Byte} (hl : l.length = 40) (hp : port < 2) (h1 : p.spb.lane1 = true) :
    stometFrame now port ip l p =
      if copyValid now ip l (windowEnd now p) then useCopy now port l (windowEnd now p) else addSat (windowEnd now p) A.SPB_DISCARD 1 := by
  unfold stometFrame
  refine (if_neg ?_).trans rfl
  rw [hl, h1]
  rintro (h | h | h)
  · exact h rfl
  · omega
  · cases h

theorem useCopy_of_partner {l : List Byte} {w : StometWin} (hw : (p.spb.windows.find? fun x => x.seq == frameSeq l) = some w) (hp : w.port ≠ port) (hb : w.bytes = l) :
    useCopy now port l p = acceptFrame now l p := by
  unfold useCopy
  dsimp only
  rw [hw]
  exact (if_neg hp).trans (if_pos hb)

theorem within_connFault {f : Fld} (hf : f.off = A.SPB_EVT) (now : Nat) (p : Polder) : Within spbRegs p (connFault now f p) := by
  unfold connFault
  refine (within_spbEvt (S := spbRegs) (.inr (.inl hf)) (fun o h => .inr (.inr h)) now p).trans ?_
  exact Within.trans (within_putBit (S := spbRegs) (f := F.SPB_STAT_SRC) _ 7 true (.inl rfl)) (within_of_regs rfl)

/-- Comparison windows that end write the block's events, and count. -/
theorem within_windowEnd (now : Nat) (p : Polder) : Within (fun o => spbRegs o ∨ o = A.SPB_MISS) p (windowEnd now p) := by
  unfold windowEnd
  extract_lets ended p1
  have h1 : Within (fun o => spbRegs o ∨ o = A.SPB_MISS) p p1 := within_of_regs rfl
  clear_value p1
  refine within_ite (.refl p) (within_ite ?_ (within_ite ?_ h1))
  · exact h1.trans ((within_connFault rfl now p1).mono fun _ => .inl)
  · exact h1.trans (within_addSat p1 _ (.inr rfl))

/-- A copy counts from the same number before and after the windows that have ended. -/
theorem heardWindowEnd_ACCEPTED (now port : Nat) (p : Polder) : rd (windowEnd now (netHeard now port p)) A.SPB_ACCEPTED = rd p A.SPB_ACCEPTED := by
  have h1 : Within (fun o => o = A.SPB_STAT) p (netHeard now port p) :=
    Within.trans (within_putBit (S := fun o => o = A.SPB_STAT) (f := F.SPB_STAT_NETUP) p port true rfl) (within_of_regs rfl)
  refine (within_windowEnd now (netHeard now port p) _ ?_).trans (h1 _ (by decide))
  unfold spbRegs logRegs
  decide

theorem frameSeq_lt (l : List Byte) : frameSeq l < 4294967296 := by
  have hb : ∀ i, byteAt l i < 256 := fun i => BitVec.isLt _
  have h0 := hb 4
  have h1 := hb (4 + 1)
  have h2 := hb (4 + 2)
  have h3 := hb (4 + 2 + 1)
  unfold frameSeq u32At u16At
  omega

/-- The words of an accepted frame. -/
def rxWords (l : List Byte) : List (Nat × Word) := [0, 1, 2, 3].map fun k => (A.SPB_RXDATA k, wordN (u32At l (20 + 4 * k)))

theorem within_rxWords (l : List Byte) (p : Polder) : Within (fun o => A.SPB_RXDATA 0 ≤ o ∧ o ≤ A.SPB_RXDATA 3) p (wrAll p (rxWords l)) := by
  refine within_wrAll _ _ fun e he => ?_
  obtain ⟨k, hk, rfl⟩ := List.mem_map.mp he
  simp only [List.mem_cons, List.not_mem_nil, or_false] at hk
  show 0xF0050 ≤ 0xF0050 + 0x4 * k ∧ 0xF0050 + 0x4 * k ≤ 0xF005C
  omega

theorem rd_rxWords (l : List Byte) (p : Polder) (hk : k < 4) : rd (wrAll p (rxWords l)) (A.SPB_RXDATA k) = wordN (u32At l (20 + 4 * k)) :=
  rd_wrAll_run p 0xF0050 4 (fun k => wordN (u32At l (20 + 4 * k))) hk

theorem acceptFrame_fields (now : Nat) (l : List Byte) (p : Polder) :
    rdN (acceptFrame now l p) A.SPB_LASTSEQ = frameSeq l ∧ rdN (acceptFrame now l p) A.SPB_ACCEPTED = min 4294967295 (rdN p A.SPB_ACCEPTED + 1) ∧
      (acceptFrame now l p).spb.lastAccepted = now ∧ ∀ k < 4, rd (acceptFrame now l p) (A.SPB_RXDATA k) = wordN (u32At l (20 + 4 * k)) := by
  unfold acceptFrame
  extract_lets p1 p2
  have hseq : rd p1 A.SPB_LASTSEQ = wordN (frameSeq l) := (rd_wr_ne _ _ (by decide)).trans (rd_wr_self p A.SPB_LASTSEQ _)
  have hacc : rdN p1 A.SPB_ACCEPTED = min 4294967295 (rdN p A.SPB_ACCEPTED + 1) := by
    refine (rdN_addSat _ _ 1).trans ?_
    rw [rdN_of_rd (rd_wr_ne p (o := A.SPB_LASTSEQ) (wordN (frameSeq l)) (by decide))]
  clear_value p1
  have h2 : Within (fun o => A.SPB_RXDATA 0 ≤ o ∧ o ≤ A.SPB_RXDATA 3) p1 p2 := within_rxWords l p1
  have hdata : ∀ k < 4, rd p2 (A.SPB_RXDATA k) = wordN (u32At l (20 + 4 * k)) := fun k hk => rd_rxWords l p1 hk
  clear_value p2
  refine ⟨?_, (rdN_of_rd (h2 _ (by decide))).trans hacc, rfl, hdata⟩
  refine (congrArg BitVec.toNat ((h2 A.SPB_LASTSEQ (by decide)).trans hseq)).trans ?_
  exact (BitVec.toNat_ofNat _ _).trans (Nat.mod_eq_of_lt (frameSeq_lt l))

theorem comparisonWindowEnd_fields {w : StometWin} (hw : p.spb.windows = [w]) (ht : w.since + rdN p A.SPB_CMPWIN * us ≤ now) (hm : fbit p F.SPB_CFG_CMPMODE = false) :
    (windowEnd now p).spb.windows = [] ∧ fbit (windowEnd now p) F.SPB_EVT_MISSING = true := by
  have he : (p.spb.windows.filter fun w => w.since + rdN p A.SPB_CMPWIN * us ≤ now) = [w] := by
    rw [hw]
    exact List.filter_cons_of_pos (decide_eq_true ht)
  have hrest : (p.spb.windows.filter fun w => now < w.since + rdN p A.SPB_CMPWIN * us) = [] := by
    rw [hw]
    exact List.filter_cons_of_neg (by rw [decide_eq_false (Nat.not_lt.mpr ht)]; decide)
  unfold windowEnd
  rw [he, hm]
  extract_lets ended p1
  have h1 : p1.spb.windows = [] := hrest
  clear_value p1
  obtain ⟨hev, -, hwin⟩ := connFault_fields (f := F.SPB_EVT_MISSING) (by decide) rfl rfl now p1
  exact ⟨hwin.trans h1, hev⟩

theorem frameWatchdog_fields (hr : rxUsed p = true) (h1 : p.spb.lane1 = true) (hd : p.spb.wdogDone = false)
    (ht : p.spb.lastAccepted + rdN p A.SPB_WD * ms ≤ now) :
    fbit (frameWatchdog now p) F.SPB_EVT_WDOG = true ∧ connLatched (frameWatchdog now p) = true := by
  unfold frameWatchdog
  rw [if_pos (by rw [hr, h1, hd, decide_eq_true ht]; rfl)]
  obtain ⟨hev, hc, -⟩ := connFault_fields (f := F.SPB_EVT_WDOG) (by decide) rfl rfl now (modSpb (fun s => { s with wdogDone := true }) p)
  exact ⟨hev, hc⟩

theorem networkDown_of_quiet (hu : getBit p F.SPB_STAT_NETUP j = true) (ht : vget p.spb.heardAt j 0 + rdN p A.SPB_NETDOWN * ms ≤ now) :
    networkDown now j p = netDown j p := by
  unfold networkDown
  exact if_pos (by rw [hu, decide_eq_true ht]; rfl)

theorem networkResume_fields {t0 : Nat} (hj : j < 2) (hu : vget p.spb.upSince j none = some t0) (ht : t0 + sec ≤ now) :
    vget (networkResume now j p).spb.resumed j false = true ∧
      (netUsable (networkResume now j p) 0 = true → netUsable (networkResume now j p) 1 = true → fget (networkResume now j p) F.SPB_STAT_REDUCED = 0) := by
  unfold networkResume
  rw [hu]
  dsimp only
  rw [if_pos ht]
  generalize hq : modSpb (fun s => { s with resumed := vset s.resumed j true }) p = q
  have hres : vget q.spb.resumed j false = true := by
    rw [← hq]
    exact vget_vset_self _ _ _ hj
  split
  · exact ⟨hres, fun _ _ => fget_fput_self q F.SPB_STAT_REDUCED 0 (by decide)⟩
  next h => exact ⟨hres, fun h0 h1 => absurd (Bool.and_eq_true_iff.mpr ⟨h0, h1⟩) h⟩

theorem stometTransmit_of_due (he : fbit p F.SPB_CFG_TX_EN = true) (h1 : p.spb.lane1 = true) (ht : p.spb.txAt + rdN p A.SPB_TXPER * ms ≤ now) :
    stometTransmit now p = if !lanesAgree p then modSpb (fun x => { x with txAt := now }) p
      else emit (modSpb (fun x => { x with txSeq := p.spb.txSeq + 1, txAt := now }) p)
        (.datagram (rdN p A.SPB_PEERIP) 4403 (statusFrame now (p.spb.txSeq + 1) p)) := by
  unfold stometTransmit
  exact if_pos (by rw [he, h1, decide_eq_true ht]; rfl)

theorem does_testAgeHour {s : State} {t : Nat} {i : PolderId} (hr : Runs s t i now p) : Does (.testAgeHour t i) s t i (testAgeHour now p) := by
  obtain ⟨⟨hp, ha, -⟩, rfl, rfl⟩ := hr
  have hon : (s.pol i).power ≠ .off := by
    rw [show (s.pol i).power = .awake by simpa [awake] using ha]
    decide
  have he : exec (.testAgeHour t i) s = onPart t i s fun now y => if (y.pol i).power = .off then y else y.modPol i fun q => polish now (testAgeHour now q) := rfl
  unfold Does
  rw [he, onPart_eq _ _ _ _ hp, at_pol, if_neg hon]
  unfold State.modPol State.after State.leaves
  rw [at_pol]

theorem inService_netHeard {s : State} {t : Nat} {i : PolderId} (hr : Runs s t i now p) (port : Nat) : inService (netHeard now port p) = true := by
  have h1 : Within (fun o => o = A.SPB_STAT) p (netHeard now port p) :=
    Within.trans (within_putBit (S := fun o => o = A.SPB_STAT) (f := F.SPB_STAT_NETUP) p port true rfl) (within_of_regs rfl)
  obtain ⟨⟨-, ha, hres⟩, -, rfl⟩ := hr
  have ha' : awake (netHeard now port (s.pol i)) = true := ha
  unfold inService
  rw [ha', show rescue (netHeard now port (s.pol i)) = false from (h1.fbit (by decide)).trans hres]
  rfl

theorem does_stometFrame {s : State} {t ip : Nat} {i : PolderId} {b : List Byte} (hup : s.hall.up = true) (hp : port < 2) (hr : Runs s t i now p)
    (hf : stometFrame now port ip b (netHeard now port p) = q) : DoesHeard (.stometFrame t i port ip b) s t port i q :=
  doesHeard_of_onHeard (runs := inService) (f := fun now q => stometFrame now port ip b q) rfl hup hp hr (inService_netHeard hr port) hf

/-- Settles O44: each event by what its handler leaves. -/
theorem safePulseBlockEvents : Obligations.SafePulseBlockEvents := by
  unfold Obligations.SafePulseBlockEvents
  constructor
  · intro s t i now p hr
    refine ⟨?_, ?_, ?_, ?_, ?_, ?_, ?_, ?_, ?_, ?_, ?_, ?_⟩
    · intro x hg ht h1 h2 hrb
      exact ⟨_, does_of_onRunning (f := fun now q => laneMessage now x q) rfl hr rfl, laneMessage_fields hg ht h1 h2 hrb⟩
    · intro x j hg ht h1 h2 hj hrb hd
      refine ⟨_, does_of_onRunning (f := fun now q => laneMessage now x q) rfl hr rfl, ?_⟩
      rw [laneMessage_good hg ht h1 h2]
      exact fbit_lineCheck (rbDiffers_ne_zero hj hrb hd)
    · intro t0 h ht h1 h2
      exact does_of_onRunning (f := laneDisagreement) rfl hr (laneDisagreement_of_late h ht h1 h2)
    · intro h1 h2 ht
      exact does_of_onRunning (f := laneStopped) rfl hr (laneStopped_of_late h1 h2 ht)
    · intro h1 hc hs
      exact does_of_onRunning (f := parameterCheck) rfl hr (parameterCheck_of_corrupt h1 hc hs)
    · intro k hk h1 hraw ht hl
      exact ⟨_, does_of_onIndex (f := fun now q => safetyFiltered now k q) rfl hk hr rfl, safetyFiltered_fields hk h1 hraw ht hl⟩
    · intro j t0 hj hd ht hn
      exact ⟨_, does_of_onIndex (f := fun now q => discLatch now j q) rfl hj hr rfl, discLatch_fields hj hd ht hn⟩
    · intro hw ht hg h1
      exact does_of_onRunning (f := testStart) rfl hr (testStart_of_wanted hw ht hg h1)
    · rintro k t0 x y ht hd hk rfl rfl hl
      exact does_of_onRunning (f := fun now q => testStep now (bn (genHigh p 0) + 2 * bn (genHigh p 1)) q) rfl hr
        ((testStep_of_good ht hd hl).trans (if_neg (Nat.ne_of_lt hk)))
    · rintro t0 q ht hd hl rfl
      exact ⟨does_of_onRunning (f := fun now q => testStep now (bn (genHigh p 0) + 2 * bn (genHigh p 1)) q) rfl hr
        ((testStep_of_good ht hd hl).trans (if_pos rfl)), testPassed_fields now _⟩
    · intro ht
      exact ⟨_, does_testAgeHour hr, testAgeHour_fields ht⟩
    · intro t0 h ht
      exact does_of_runs_onAwake (f := passUnlock) rfl hr (passUnlock_of_due h ht)
  · intro s t i now p hr
    refine ⟨?_, ?_, ?_, ?_, ?_, ?_, ?_, ?_⟩
    · rintro port ip b p1 hp hup h1 hb rfl hv
      refine does_stometFrame hup hp hr ((stometFrame_of_run hb hp (p := netHeard now port p) h1).trans (if_neg ?_))
      rw [hv]
      exact Bool.false_ne_true
    · rintro port ip b p1 w hp hup h1 hb rfl hv hw hne hwb
      obtain ⟨hseq, hacc, hlast, hdata⟩ := acceptFrame_fields now b (windowEnd now (netHeard now port p))
      have hrow := (stometFrame_of_run hb hp (ip := ip) (p := netHeard now port p) h1).trans ((if_pos hv).trans (useCopy_of_partner hw hne hwb))
      refine ⟨_, does_stometFrame hup hp hr hrow, hseq, hacc.trans ?_, hlast, hdata⟩
      rw [rdN_of_rd (heardWindowEnd_ACCEPTED now port p)]
    · intro w hw ht hm
      exact ⟨_, does_of_onRunning (f := windowEnd) rfl hr rfl, comparisonWindowEnd_fields hw ht hm⟩
    · intro hu h1 hd ht
      exact ⟨_, does_of_onRunning (f := frameWatchdog) rfl hr rfl, frameWatchdog_fields hu h1 hd ht⟩
    · intro j hj hu ht
      exact does_of_onIndex (f := fun now q => networkDown now j q) rfl hj hr (networkDown_of_quiet hu ht)
    · intro j t0 hj hu ht
      exact ⟨_, does_of_onIndex (f := fun now q => networkResume now j q) rfl hj hr rfl, networkResume_fields hj hu ht⟩
    · intro he h1 ha ht
      exact does_of_onRunning (f := stometTransmit) rfl hr ((stometTransmit_of_due he h1 ht).trans (if_pos (by rw [ha]; rfl)))
    · intro he h1 ha ht
      exact does_of_onRunning (f := stometTransmit) rfl hr ((stometTransmit_of_due he h1 ht).trans (if_neg (by rw [ha]; decide)))

end Sys2Proof.Machine
end

section
/-!
SUPPORT. What the Hall's sending leaves of the Hall: everything but its packets, its counters and what its sessions keep of replies and notifications
(R402, R404, R412, R413). For O48 to O50.
-/
namespace Sys2Proof.Machine
open Sys2Proof

variable {s y z : State} {now i : Nat}

/-- A session without what it keeps of replies and notifications. -/
def Session.core (x : Session) : Session := { x with lastReply := none, repeats := [], noteSeq := 0, notes := [] }

/-- The Hall without its registers, its sessions, its tokens and what it sends. -/
def quiet (h : Hall) : Hall :=
  { h with regs := [], sessions := [], tokens := Vector.replicate 5 none, sets := [], replies := [], sent := [], spiOut := [], prpSeq := 0,
           fifoLost := Vector.replicate 4 0 }

/-- The registers that the Hall's sending writes. -/
def voiceRegs (off : Nat) : Prop := off = A.HAL_EVT ∨ off = A.HAL_SPIDROP ∨ off = A.HAL_NOTLOST

/-- `y` differs from `s`, of the Hall, in no more than what it sends and keeps for its sessions, and in its tokens. -/
structure Voices (s y : State) : Prop where
  hall : quiet y.hall = quiet s.hall
  core : y.hall.sessions.map Session.core = s.hall.sessions.map Session.core
  regs : ∀ o, ¬voiceRegs o → hrd y.hall o = hrd s.hall o

namespace Voices

theorem refl (s : State) : Voices s s := ⟨rfl, rfl, fun _ _ => rfl⟩

theorem trans (h : Voices s y) (k : Voices y z) : Voices s z :=
  ⟨k.hall.trans h.hall, k.core.trans h.core, fun o ho => (k.regs o ho).trans (h.regs o ho)⟩

theorem foldl {α : Type} (f : State → α → State) (hf : ∀ s a, Voices s (f s a)) (l : List α) (s : State) : Voices s (l.foldl f s) := by
  induction l generalizing s with
  | nil => exact .refl s
  | cons a l ih => exact (hf s a).trans (ih (f s a))

theorem keys (h : Voices s y) : y.hall.keys = s.hall.keys := (congrArg Hall.keys h.hall :)
theorem applied (h : Voices s y) : y.hall.applied = s.hall.applied := (congrArg Hall.applied h.hall :)
theorem queues (h : Voices s y) : y.hall.queues = s.hall.queues := (congrArg Hall.queues h.hall :)
theorem inFlight (h : Voices s y) : y.hall.inFlight = s.hall.inFlight := (congrArg Hall.inFlight h.hall :)
theorem svId (h : Voices s y) : y.hall.svId = s.hall.svId := (congrArg Hall.svId h.hall :)
theorem svRev (h : Voices s y) : y.hall.svRev = s.hall.svRev := (congrArg Hall.svRev h.hall :)

theorem hap (h : Voices s y) (o : Nat) : Machine.hap y.hall o = Machine.hap s.hall o := by
  unfold Machine.hap
  rw [h.applied]

end Voices

/-- A change of the Hall that leaves its registers alone too. -/
theorem voices_modHall (g : Hall → Hall) (s : State) (hq : quiet (g s.hall) = quiet s.hall)
    (hc : (g s.hall).sessions.map Session.core = s.hall.sessions.map Session.core) (hr : ∀ o, ¬voiceRegs o → hrd (g s.hall) o = hrd s.hall o) :
    Voices s (modHall g s) := ⟨hq, hc, hr⟩

theorem voices_of_hall (h : y.hall = s.hall) : Voices s y := ⟨by rw [h], by rw [h], fun _ _ => by rw [h]⟩

theorem voices_modDkh (g : Dikehouse → Dikehouse) (s : State) : Voices s (modDkh g s) := voices_of_hall rfl

theorem voices_modPol (j : PolderId) (f : Polder → Polder) (s : State) : Voices s (s.modPol j f) := voices_of_hall (modPol_hall s j f)

theorem voices_hallNote {f : Fld} (hf : f.off = A.HAL_EVT) (now : Nat) (x : Option Nat) (s : State) : Voices s (hallNote now f x s) := by
  unfold hallNote
  refine (voices_modHall _ s rfl rfl fun o ho => ?_).trans (voices_modDkh _ _)
  refine hrd_hwr_ne s.hall _ ?_
  rintro rfl
  exact ho (.inl hf)

theorem voices_hallCount {o : Nat} (ho : voiceRegs o) (s : State) : Voices s (hallCount o s) := by
  refine voices_modHall _ s rfl rfl fun a ha => hrd_hwr_ne s.hall _ ?_
  rintro rfl
  exact ha ho

theorem voices_hallTx (f : Hall → Nat → Sent) (s : State) : Voices s (modHall (fun h => hallTx (f h) h) s) := voices_modHall _ s rfl rfl fun _ _ => rfl

theorem voices_spiLost (now : Nat) (s : State) : Voices s (hallNote now F.HAL_EVT_SPI_OVF none (hallCount A.HAL_SPIDROP s)) :=
  (voices_hallCount (.inr (.inl rfl)) s).trans (voices_hallNote rfl now none _)

theorem voices_spiPush (now : Nat) (note : Bool) (b : List Byte) (s : State) : Voices s (spiPush now note b s) := by
  unfold spiPush
  split
  · exact voices_modHall _ s rfl rfl fun _ _ => rfl
  · dsimp only
    split
    · exact (voices_modHall _ s rfl rfl fun _ _ => rfl).trans (voices_spiLost now _)
    · split
      · exact (voices_spiLost now s).trans ((voices_hallCount (.inr (.inr rfl)) _).trans (voices_hallNote rfl now none _))
      · exact voices_spiLost now s

theorem voices_sendTo (now : Nat) (src : Source) (note : Bool) (b : List Byte) (s : State) : Voices s (sendTo now src note b s) := by
  unfold sendTo
  split
  · exact voices_spiPush now note b s
  · exact voices_hallTx _ s

/-- Sending a packet leaves the sessions as they are. -/
theorem sessions_sendTo (now : Nat) (src : Source) (note : Bool) (b : List Byte) (s : State) :
    (sendTo now src note b s).hall.sessions = s.hall.sessions := by
  unfold sendTo
  split
  · unfold spiPush
    split
    · rfl
    · dsimp only
      split
      · rfl
      · split <;> rfl
  · rfl

theorem voices_modSess (j : Nat) (f : Session → Session) (hf : ∀ x, (f x).core = x.core) (s : State) : Voices s (modSess j f s) := by
  refine voices_modHall _ s rfl ?_ fun _ _ => rfl
  rw [List.map_map]
  refine List.map_congr_left fun x _ => ?_
  rw [Function.comp_apply]
  split
  · exact hf x
  · rfl

theorem voices_sendReply (now : Nat) (src : Source) (a : Answer) (s : State) : Voices s (sendReply now src a s) := by
  unfold sendReply
  split
  · exact .refl s
  next x _ =>
    dsimp only
    have h1 := voices_sendTo now src false (replyPacket x src a) s
    split
    · exact (h1.trans (voices_modSess x.idx _ (by exact fun _ => rfl) _)).trans (.foldl _ (fun y r => voices_sendTo now r false _ y) _ _)
    · exact h1

theorem voices_notify (now j t st k f : Nat) (b : List Byte) (s : State) : Voices s (notify now j t st k f b s) := by
  unfold notify
  split
  · exact .refl s
  · split
    · exact .refl s
    · dsimp only
      have h1 := fun (g : Session → Session) (hg : ∀ x, (g x).core = x.core) => voices_modSess j g hg s
      split
      · exact h1 _ fun _ => rfl
      · exact (h1 _ (by exact fun _ => rfl)).trans (voices_sendTo _ _ _ _ _)

theorem voices_notifySubs (now c t k : Nat) (b : List Byte) (s : State) : Voices s (notifySubs now c t k b s) := by
  unfold notifySubs
  refine .foldl _ (fun y x => ?_) _ _
  generalize (if t = 0 ∨ t = 15 then 0 else t) = bit
  split
  · exact voices_notify _ _ _ _ _ _ _ y
  · exact .refl y

theorem voices_notifyDone (now : Nat) (a : Answer) (s : State) : Voices s (notifyDone now a s) := by
  unfold notifyDone
  dsimp only
  have h1 : ∀ y, Voices y (modSess a.sess (fun x => if x.lastSeq = a.seq then { x with lastReply := some a, repeats := [] } else x) y) := fun y =>
    voices_modSess _ _ (fun x => by split <;> rfl) y
  split
  · exact (voices_notify _ _ _ _ _ _ _ s).trans (h1 _)
  · exact (voices_notify _ _ _ _ _ _ _ s).trans (h1 _)

theorem voices_takeOut (now : Nat) (o : Out) (s : State) : Voices s (takeOut now o s) := by
  unfold takeOut
  split
  · exact .refl s
  · split
    · exact voices_modHall _ s rfl rfl fun _ _ => rfl
    · exact voices_modHall _ s rfl rfl fun _ _ => rfl
    · exact voices_notify _ _ _ _ _ _ _ s
    · exact voices_notifySubs _ _ _ _ _ s
    · exact voices_hallTx _ s

theorem voices_takePolder (now : Nat) (s : State) (j : PolderId) : Voices s (takePolder now s j) := by
  unfold takePolder
  refine Voices.trans ?_ (.foldl _ (fun y o => voices_takeOut now o y) _ _)
  have hc : ∀ y n, Voices y (fifoCount j y n) := fun y n => by
    unfold fifoCount
    split
    · exact .refl y
    · exact voices_modHall _ y rfl rfl fun _ _ => rfl
  exact (voices_modPol j (fun p => { p with out := [] }) s).trans (hc _ _)

/-- What the targets hand over the Hall sends or keeps. -/
theorem voices_collect (now : Nat) (s : State) : Voices s (collect now s) := by
  unfold collect
  refine Voices.trans ?_ (.foldl _ (fun y j => voices_takePolder now y j) _ _)
  exact (voices_modDkh _ s).trans (.foldl _ (fun y o => voices_takeOut now o y) _ _)

/-! ### Sessions -/

theorem find?_core (l : List Session) (j : Nat) : (l.map Session.core).find? (fun x => x.idx == j) = (l.find? fun x => x.idx == j).map Session.core :=
  List.find?_map

/-- A session by its index, but for what it keeps. -/
theorem Voices.sessOf (h : Voices s y) (j : Nat) : (sessOf y.hall j).map Session.core = (sessOf s.hall j).map Session.core := by
  unfold Machine.sessOf
  rw [← find?_core, ← find?_core, h.core]

theorem Voices.mem (h : Voices s y) {e : Session} (he : e ∈ y.hall.sessions) : ∃ x ∈ s.hall.sessions, x.core = e.core := by
  have hm : e.core ∈ s.hall.sessions.map Session.core := h.core ▸ List.mem_map_of_mem he
  exact List.mem_map.mp hm

/-! ### Tokens that are freed -/

theorem voices_tokens (g : Vector (Option Lease) 5 → Vector (Option Lease) 5) (s : State) : Voices s (modHall (fun h => { h with tokens := g h.tokens }) s) :=
  voices_modHall _ s rfl rfl fun _ _ => rfl

theorem voices_freeToken (now k : Nat) (s : State) : Voices s (freeToken now k s) := by
  unfold freeToken
  split
  · exact .refl s
  · dsimp only
    have h1 := voices_tokens (fun v => vset v k none) s
    split
    · split
      · exact h1.trans (voices_modPol _ _ _)
      · exact h1
    · exact h1

theorem voices_loseToken (now k j : Nat) (s : State) : Voices s (loseToken now k j s) := by
  unfold loseToken
  dsimp only
  have h1 := voices_freeToken now k s
  split
  · split
    · exact h1.trans (voices_modPol _ _ _)
    · exact h1
  · exact h1

theorem voices_leaseTo (now k j : Nat) (s : State) : Voices s (leaseTo now k j s) :=
  voices_tokens (fun v => vset v k (some ⟨j, now + 2 * sec⟩)) s

/-! ### A session that closes -/

theorem voices_notifyClosing (now j : Nat) (cause : Option Nat) (s : State) : Voices s (match cause with
    | some c => notify now j 0 0 8 0 (leBytes 1 c ++ zeros 3) s
    | none => s) := by
  split
  · exact voices_notify _ _ _ _ _ _ _ s
  · exact .refl s

/-- A closing takes out the sessions of its index, which hold no token by then; beyond that it sends, and frees tokens. -/
theorem closeSession_of_open (now : Nat) {j : Nat} (cause : Option Nat) {s : State} (h : (sessOf s.hall j).isSome = true) :
    ∃ x, Voices s x ∧ (∀ k l, vget x.hall.tokens k none = some l → l.holder ≠ j) ∧
      closeSession now j cause s = modHall (fun h => { h with sessions := h.sessions.filter fun x => x.idx != j }) x := by
  obtain ⟨e, he⟩ := Option.isSome_iff_exists.mp h
  unfold closeSession
  rw [he]
  dsimp only
  have v1 : Voices s ((tokensOf (ownTokens s.hall j)).foldl (fun y k => loseToken now k j y) s) := .foldl _ (fun y k => voices_loseToken now k j y) _ _
  have hne := fun k l => holder_ne_of_lost now j s (k := k) (l := l)
  generalize (tokensOf (ownTokens s.hall j)).foldl (fun y k => loseToken now k j y) s = s1 at v1 hne
  have h2 : Frees s1 (if ownTokens s.hall j = 0 then s1 else
      notify now j 0 0 5 0 (leBytes 1 (ownTokens s.hall j) ++ zeros 3) (hallNote now F.HAL_EVT_TOKEN_LAPSE (some j) s1)) := by
    split
    · exact .refl _ s1
    · exact ((talks_hallNote _ _ _ _).trans (talks_notify _ _ _ _ _ _ _ _)).grants _
  have v2 : Voices s1 (if ownTokens s.hall j = 0 then s1 else
      notify now j 0 0 5 0 (leBytes 1 (ownTokens s.hall j) ++ zeros 3) (hallNote now F.HAL_EVT_TOKEN_LAPSE (some j) s1)) := by
    split
    · exact .refl s1
    · exact (voices_hallNote rfl now _ _).trans (voices_notify _ _ _ _ _ _ _ _)
  generalize (if ownTokens s.hall j = 0 then s1 else _) = s2 at h2 v2
  have h3 : Frees s2 ((presentPolders s2).foldl (fun y p => if awake (y.pol p) then y.modPol p (sluAbortOwner now j) else y) s2) :=
    Grants.foldl _ (fun y p => by split; exacts [grants_modPol _ _ _ _, .refl _ y]) _ _
  have v3 : Voices s2 ((presentPolders s2).foldl (fun y p => if awake (y.pol p) then y.modPol p (sluAbortOwner now j) else y) s2) :=
    .foldl _ (fun y p => by split; exacts [voices_modPol _ _ _, .refl y]) _ _
  generalize (presentPolders s2).foldl (fun y p => if awake (y.pol p) then y.modPol p (sluAbortOwner now j) else y) s2 = s3 at h3 v3
  have h4 : Frees s3 (collect now s3) := grants_collect _ _ _
  have v4 := voices_collect now s3
  have h14 := ((h2.trans h3).trans h4).trans (frees_notifyClosing now j cause _)
  exact ⟨_, ((v1.trans v2).trans (v3.trans v4)).trans (voices_notifyClosing now j cause _), fun k l hl => hne k l (Frees.tokens h14 hl), rfl⟩

theorem closeSession_of_none (now : Nat) {j : Nat} (cause : Option Nat) {s : State} (h : sessOf s.hall j = none) : closeSession now j cause s = s := by
  unfold closeSession
  rw [h]

theorem idx_core (x : Session) : x.core.idx = x.idx := rfl

/-- The sessions that a closing leaves. -/
theorem closeSession_sessions (now j : Nat) (cause : Option Nat) (s : State) :
    (closeSession now j cause s).hall.sessions.map Session.core = (s.hall.sessions.map Session.core).filter fun x => x.idx != j := by
  cases h : sessOf s.hall j with
  | none =>
    rw [closeSession_of_none now cause h]
    refine (List.filter_eq_self.mpr fun c hc => ?_).symm
    obtain ⟨x, hx, rfl⟩ := List.mem_map.mp hc
    have := List.find?_eq_none.mp h x hx
    simpa [idx_core] using this
  | some e =>
    obtain ⟨x, hv, -, he⟩ := closeSession_of_open now cause (s := s) (by rw [h]; rfl)
    rw [he, ← hv.core, List.filter_map]
    rfl

/-- A closing leaves keys, settings, queues and commands in flight as they are. -/
theorem closeSession_quiet (now j : Nat) (cause : Option Nat) (s : State) : quiet (closeSession now j cause s).hall = quiet s.hall := by
  cases h : sessOf s.hall j with
  | none => rw [closeSession_of_none now cause h]
  | some e =>
    obtain ⟨x, hv, -, he⟩ := closeSession_of_open now cause (s := s) (by rw [h]; rfl)
    rw [he]
    exact hv.hall

/-- A session that has closed is gone and holds nothing. -/
theorem closeSession_closed (now j : Nat) (cause : Option Nat) {s : State} (h : (sessOf s.hall j).isSome = true) :
    sessOf (closeSession now j cause s).hall j = none ∧ ∀ k, holds (closeSession now j cause s).hall k j = false := by
  obtain ⟨x, -, hn, he⟩ := closeSession_of_open now cause h
  rw [he]
  constructor
  · refine List.find?_eq_none.mpr fun e hm => ?_
    have := List.of_mem_filter hm
    simpa using this
  · intro k
    unfold holds
    show (match vget x.hall.tokens k none with | some l => l.holder == j | none => false) = false
    cases hl : vget x.hall.tokens k none with
    | none => rfl
    | some l => exact beq_eq_false_iff_ne.mpr (hn k l hl)

/-- Sessions that close one after another. -/
theorem foldl_closeSession (now : Nat) (cause : Option Nat) (l : List Session) (s : State) :
    (l.foldl (fun z e => closeSession now e.idx cause z) s).hall.sessions.map Session.core =
        (s.hall.sessions.map Session.core).filter (fun x => l.all fun e => x.idx != e.idx) ∧
      quiet (l.foldl (fun z e => closeSession now e.idx cause z) s).hall = quiet s.hall := by
  induction l generalizing s with
  | nil => exact ⟨(List.filter_eq_self.mpr fun _ _ => rfl).symm, rfl⟩
  | cons a l ih =>
    obtain ⟨h1, h2⟩ := ih (closeSession now a.idx cause s)
    refine ⟨h1.trans ?_, h2.trans (closeSession_quiet now a.idx cause s)⟩
    rw [closeSession_sessions, List.filter_filter]
    refine congrArg (fun f => List.filter f _) (funext fun x => ?_)
    rw [List.all_cons, Bool.and_comm]

end Sys2Proof.Machine
end

section
/-!
SUPPORT. O48: the commands of the Hall (R406 to R421).
-/
namespace Sys2Proof.Machine
open Sys2Proof

variable {s y : State} {t now : Nat} {c : Cmd} {x : Session} {k : Instr} {op : Nat}

/-! ### Rows of the Hall -/

theorem doesAll_of_onDevice {f : Nat → State → State} (he : exec k s = onDevice t s f) (hf : f (s.clock t) (s.at' t) = y) : DoesAll k s t y := by
  subst hf
  exact he

theorem doesAll_of_onHall {f : Nat → Session → State → HallOutcome} (he : exec k s = onHall t c op s f) (h : s.hears op c x) :
    DoesAll k s t (hallAnswer (s.clock t) x.src 0 op c (f (s.clock t) x (s.at' t))) := by
  obtain ⟨hup, hx, d, hd, hl⟩ := h
  refine doesAll_of_onDevice he ?_
  rw [show sessOf (s.at' t).hall c.sess = some x from hx, hd]
  dsimp only
  rw [show (s.at' t).hall.up = true from hup, hl]
  rfl

/-- A command that the Hall answers with `r`, with nothing to follow, leaving the device as `y`. -/
theorem hallReplies_of_onHall {f : Nat → Session → State → HallOutcome} {r : Reply} (he : exec k s = onHall t c op s f) (h : s.hears op c x)
    (hf : f (s.clock t) x (s.at' t) = (r, y, id)) : HallReplies k s t 0 op c x r y := by
  have := doesAll_of_onHall he h
  rw [hf] at this
  exact this

theorem doesAll_of_onExpert {tgt : Target} (he : exec k s = onExpert t op tgt c s) (h : s.hears op c x) :
    DoesAll k s t (hallAnswer (s.clock t) x.src tgt.code op c (expert (s.clock t) op tgt c (s.at' t))) := by
  obtain ⟨hup, hx, d, hd, hl⟩ := h
  refine doesAll_of_onDevice he ?_
  rw [show sessOf (s.at' t).hall c.sess = some x from hx, hd]
  dsimp only
  rw [show (s.at' t).hall.up = true from hup, hl]
  rfl

/-! ### HELLO -/

/-- Nine numbers cannot all be in use by eight sessions. -/
theorem exists_unused (l : List Nat) (h : l.length ≤ 8) : ∃ k ∈ (List.range 9).map (· + 1), k ∉ l := by
  by_contra hc
  push Not at hc
  have hn : ((List.range 9).map (· + 1)).Nodup := by decide
  have := (List.subperm_of_subset hn hc).length_le
  simp at this
  omega

theorem freshId_unused (h : Hall) (n : Nat) (hl : h.sessions.length ≤ 8) : ∀ e ∈ h.sessions, e.id ≠ freshId h n := by
  intro e he heq
  have hused : (h.sessions.any fun x => x.id == freshId h n) = true := List.any_eq_true.mpr ⟨e, he, beq_iff_eq.mpr heq⟩
  have hfree : (h.sessions.any fun x => x.id == freshId h n) = false := by
    unfold freshId
    dsimp only
    split
    next k hk => simpa using List.find?_some hk
    next =>
      obtain ⟨k, hk, hn⟩ := exists_unused (h.sessions.map (·.id)) (by rwa [List.length_map])
      cases hf : ((List.range 9).map (· + 1)).find? fun k => !h.sessions.any fun x => x.id == k with
      | some v => simpa using List.find?_some hf
      | none =>
        have := List.find?_eq_none.mp hf k hk
        simp only [Bool.not_eq_true', Bool.not_eq_false, List.any_eq_true, beq_iff_eq] at this
        exact absurd (List.mem_map.mpr this) hn
  rw [hused] at hfree
  cases hfree

theorem sessions_length (h : s.sessionsOk) : s.hall.sessions.length ≤ 8 := by
  obtain ⟨hn, h8, -⟩ := h
  have hsub : s.hall.sessions.map (·.idx) ⊆ List.range 8 := fun i hi => by
    obtain ⟨e, he, rfl⟩ := List.mem_map.mp hi
    exact List.mem_range.mpr (h8 e he)
  have := (List.subperm_of_subset hn hsub).length_le
  rwa [List.length_map, List.length_range] at this

/-- A HELLO that is taken without a key opens a session at the lowest free index. -/
theorem helloOpen_of_taken {a : HelloArgs} {v i : Nat} (hv : chooseVersion (u16At a.payload 0) = some v) (hne : v ≠ 0x10) (hb : byteAt a.payload 2 = 255)
    (hs : a.src = .spi) (hi : ((List.range 8).find? fun k => (sessOf s.hall k).isNone) = some i) :
    ∃ r e, helloOpen now a s = (r, v, { modHall (fun h => { h with sessions := h.sessions ++ [e] }) s with free := s.free + 8 }) ∧ e.idx = i ∧ e.ver = v ∧
      (noKeys s.hall = true → e.role = 2 ∧ e.mask = 31) ∧ e.id = freshId s.hall s.free := by
  unfold helloOpen
  dsimp only
  rw [hv, hb]
  dsimp only
  rw [if_neg (by rw [hs]; simp [isEth]), if_neg (by simp [hne]), hi]
  refine ⟨_, _, rfl, rfl, rfl, fun hk => ?_, rfl⟩
  unfold slotRights
  rw [if_pos rfl, if_pos hk]
  exact ⟨rfl, rfl⟩

theorem hello_fields {a : HelloArgs} {v i : Nat} (hok : s.sessionsOk) (hv : chooseVersion (u16At a.payload 0) = some v) (hne : v ≠ 0x10)
    (hb : byteAt a.payload 2 = 255) (hs : a.src = .spi) (hi : ((List.range 8).find? fun k => (sessOf s.hall k).isNone) = some i) :
    ∃ e, sessOf (hello now a s).hall i = some e ∧ e.idx = i ∧ e.ver = v ∧ (noKeys s.hall = true → e.role = 2 ∧ e.mask = 31) ∧
      (∀ d ∈ s.hall.sessions, d.id ≠ e.id) ∧ (∀ k, k ≠ i → sessOf (hello now a s).hall k = sessOf s.hall k) ∧ (hello now a s).hall.tokens = s.hall.tokens := by
  obtain ⟨r, e, he, hidx, hver, hrole, hid⟩ := helloOpen_of_taken (now := now) hv hne hb hs hi
  have hnone : sessOf s.hall i = none := by simpa using List.find?_some hi
  unfold hello
  dsimp only
  rw [he]
  dsimp only
  generalize packetBytes v 0 Op.hello a.seq 0 (r.status + 256 * r.detail) r.payload _ _ = b
  have hsess := sessions_sendTo now a.src false b { modHall (fun h => { h with sessions := h.sessions ++ [e] }) s with free := s.free + 8 }
  have htok := (talks_sendTo now a.src false b { modHall (fun h => { h with sessions := h.sessions ++ [e] }) s with free := s.free + 8 }).tokens
  generalize sendTo now a.src false b _ = y at hsess htok
  have hof : ∀ k, sessOf y.hall k = (s.hall.sessions ++ [e]).find? fun d => d.idx == k := fun k => by
    unfold sessOf
    rw [hsess]
    rfl
  refine ⟨e, ?_, hidx, hver, hrole, fun d hd => by rw [hid]; exact freshId_unused _ _ (sessions_length hok) d hd, fun k hk => ?_, htok⟩
  · rw [hof, List.find?_append, show (s.hall.sessions.find? fun d => d.idx == i) = none from hnone, Option.none_or]
    exact List.find?_cons_of_pos (beq_iff_eq.mpr hidx)
  · rw [hof, List.find?_append, List.find?_cons_of_neg (by rw [hidx]; simpa using Ne.symm hk), List.find?_nil, Option.or_none]
    rfl

/-! ### Tokens -/

theorem tokensOf_lt {m k : Nat} (h : k ∈ tokensOf m) : k < 5 := by
  have hm := List.mem_of_mem_filter h
  simp only [List.mem_cons, List.not_mem_nil, or_false] at hm
  omega

theorem leaseTo_token (now k i : Nat) (s : State) (j : Nat) (hj : j < 5) :
    vget (leaseTo now k i s).hall.tokens j none = if j = k then some ⟨i, now + 2 * sec⟩ else vget s.hall.tokens j none := by
  split
  next h =>
    subst h
    exact vget_vset_self _ _ _ hj
  next h =>
    show vget (vset s.hall.tokens k (some ⟨i, now + 2 * sec⟩)) j none = _
    unfold vget vset
    rw [Vector.getElem?_setIfInBounds_ne (Ne.symm h)]

/-- Tokens taken in turn. -/
theorem foldl_leaseTo_token (now i : Nat) (l : List Nat) (s : State) {k : Nat} (hk : k < 5)
    (h : k ∈ l ∨ vget s.hall.tokens k none = some ⟨i, now + 2 * sec⟩) :
    vget (l.foldl (fun z j => leaseTo now j i z) s).hall.tokens k none = some ⟨i, now + 2 * sec⟩ := by
  induction l generalizing s with
  | nil => exact h.resolve_left (by simp)
  | cons a l ih =>
    refine ih _ ?_
    rw [leaseTo_token now a i s k hk]
    rcases h with h | h
    · rcases List.mem_cons.mp h with rfl | h
      · exact .inr (if_pos rfl)
      · exact .inl h
    · right
      rw [h, ite_self]

theorem foldl_freeToken_token (now : Nat) (l : List Nat) (s : State) {k : Nat} (h : k ∈ l) :
    vget (l.foldl (fun y j => freeToken now j y) s).hall.tokens k none = none := by
  induction l generalizing s with
  | nil => cases h
  | cons a l ih =>
    by_cases hl : k ∈ l
    · exact ih _ hl
    · obtain rfl : k = a := (List.mem_cons.mp h).resolve_right hl
      have hf : Frees (freeToken now k s) (l.foldl (fun y j => freeToken now j y) (freeToken now k s)) :=
        Grants.foldl _ (fun y j => frees_freeToken now j y) l _
      by_contra hne
      obtain ⟨z, hz⟩ := Option.ne_none_iff_exists'.mp hne
      have := hf.tokens hz
      rw [freeToken_token] at this
      cases this

/-- Tokens released in turn: a session holds none of those it has named. -/
theorem holds_of_released (now i : Nat) (m : List Nat) (s : State) {k : Nat} (hk : k ∈ m) :
    holds ((m.filter fun k => holds s.hall k i).foldl (fun y k => freeToken now k y) s).hall k i = false := by
  cases hh : holds s.hall k i with
  | true =>
    unfold holds
    rw [foldl_freeToken_token now _ s (List.mem_filter.mpr ⟨hk, hh⟩)]
  | false =>
    have hf : Frees s ((m.filter fun k => holds s.hall k i).foldl (fun y k => freeToken now k y) s) :=
      Grants.foldl _ (fun y j => frees_freeToken now j y) _ s
    generalize (m.filter fun k => holds s.hall k i).foldl (fun y k => freeToken now k y) s = y at hf
    unfold holds at hh ⊢
    cases hl : vget y.hall.tokens k none with
    | none => rfl
    | some l =>
      rw [hf.tokens hl] at hh
      exact hh

theorem hTake_of_free (hpol : ∀ k ∈ tokensOf (byteAt c.payload 0 % 32), ∀ i, polderNo k = some i → Part.has s.part i = true)
    (hmask : ∀ k ∈ tokensOf (byteAt c.payload 0 % 32), (maskOf s.hall x).testBit k = true)
    (hfree : ∀ k ∈ tokensOf (byteAt c.payload 0 % 32), vget s.hall.tokens k none = none ∨ holds s.hall k x.idx = true)
    (hrole : roleOf s.hall x ≠ 0) (hforce : (byteAt c.payload 1).testBit 0 = false) :
    hTake now x c s =
      (let y := (tokensOf (byteAt c.payload 0 % 32)).foldl (fun z k => leaseTo now k x.idx z) s
      hallOk (leBytes 1 (ownTokens y.hall x.idx) ++ leBytes 1 (otherTokens y.hall x.idx) ++ leBytes 2 2000) y) := by
  have h1 : ((tokensOf (byteAt c.payload 0 % 32)).any fun k => match polderNo k with
      | some i => !Part.has s.part i
      | none => false) = false := by
    rw [List.any_eq_false]
    intro k hk
    split
    next i hi => rw [hpol k hk i hi]; decide
    · decide
  have h2 : ((tokensOf (byteAt c.payload 0 % 32)).any fun k => !(maskOf s.hall x).testBit k) = false := by
    rw [List.any_eq_false]
    intro k hk
    rw [hmask k hk]
    decide
  have h3 : ((tokensOf (byteAt c.payload 0 % 32)).filter fun k => (vget s.hall.tokens k none).isSome && !holds s.hall k x.idx) = [] := by
    rw [List.filter_eq_nil_iff]
    intro k hk
    rcases hfree k hk with h | h
    · rw [h]
      exact Bool.false_ne_true
    · rw [h, Bool.not_true, Bool.and_false]
      decide
  unfold hTake
  dsimp only
  refine (if_neg (Bool.eq_false_iff.mp h1)).trans ?_
  rw [h2, hforce, if_neg (by simp [hrole]), h3, if_neg (by simp)]
  simp only [List.foldl_nil, List.isEmpty_nil, if_true, List.any_nil, List.filter_false]

theorem hTake_of_held {k : Nat} (hm : byteAt c.payload 0 % 32 = 2 ^ k) (hk : k < 5) (hpol : ∀ i, polderNo k = some i → Part.has s.part i = true)
    (hmask : (maskOf s.hall x).testBit k = true) (hrole : roleOf s.hall x ≠ 0) (hforce : (byteAt c.payload 1).testBit 0 = false)
    (hheld : ∃ l, vget s.hall.tokens k none = some l ∧ l.holder ≠ x.idx) : hTake now x c s = hallBad (bare Status.conflict) s := by
  have hl : tokensOf (2 ^ k) = [k] := by
    interval_cases k <;> decide
  obtain ⟨l, ht, hne⟩ := hheld
  have hnot : holds s.hall k x.idx = false := by
    unfold holds
    rw [ht]
    exact beq_eq_false_iff_ne.mpr hne
  have h1 : ([k].any fun k => match polderNo k with
      | some i => !Part.has s.part i
      | none => false) = false := by
    rw [List.any_cons, List.any_nil, Bool.or_false]
    split
    next i hi => rw [hpol i hi]; rfl
    · rfl
  unfold hTake
  dsimp only
  rw [hm, hl]
  refine (if_neg (Bool.eq_false_iff.mp h1)).trans ?_
  rw [hforce, if_neg (by simp [hrole, hmask]), if_pos (by simp [ht, hnot])]

/-! ### Settings -/

theorem cellGet_foldl_cellSet (r : Nat → Word) (f : Nat → Word) (l : List Nat) (m : Cells) {o : Nat} (h : o ∈ l ∨ cellGet r m o = f o) :
    cellGet r (l.foldl (fun m o => cellSet r m o (f o)) m) o = f o := by
  induction l generalizing m with
  | nil => exact h.resolve_left (by simp)
  | cons a l ih =>
    refine ih _ ?_
    by_cases ha : o = a
    · subst ha
      exact .inr (cellGet_set_self _ _ _ _)
    · rw [cellGet_set_ne _ _ _ ha]
      exact h.imp_left fun h => (List.mem_cons.mp h).resolve_left ha

/-- What is held comes into force. -/
theorem hap_applyHeld (now : Nat) (s : State) {o : Nat} (ho : o ∈ heldOffs) : hap (applyHeld now s).hall o = hrd s.hall o :=
  cellGet_foldl_cellSet hallReset (fun o => hrd s.hall o) heldOffs s.hall.applied (.inl ho)

theorem staged_applyHeld (now : Nat) (s : State) : hallStaged (applyHeld now s).hall = false := by
  unfold hallStaged
  rw [List.any_eq_false]
  intro o ho
  rw [hap_applyHeld now s ho]
  show ¬(hrd s.hall o != hrd s.hall o) = true
  rw [bne_self_eq_false]
  exact Bool.false_ne_true

theorem not_voiceRegs_of_held {o : Nat} (ho : o ∈ heldOffs) : ¬voiceRegs o := by
  revert o
  unfold voiceRegs
  decide

/-- A setting that is staged, answered, and comes into force. -/
theorem hap_applied (now : Nat) (h : Voices s y) {o : Nat} (ho : o ∈ heldOffs) : hap (applyHeld now y).hall o = hrd s.hall o :=
  (hap_applyHeld now y ho).trans (h.regs o (not_voiceRegs_of_held ho))

theorem hrd_foldl_hwr_of_not_mem (l : List (Nat × Word)) (h : Hall) {o : Nat} (ho : o ∉ l.map Prod.fst) :
    hrd (l.foldl (fun y e => hwr y e.1 e.2) h) o = hrd h o := by
  induction l generalizing h with
  | nil => rfl
  | cons a l ih =>
    rw [List.map_cons, List.mem_cons, not_or] at ho
    exact (ih _ ho.2).trans (hrd_hwr_ne h a.2 ho.1)

theorem hrd_foldl_hwr (l : List (Nat × Word)) (h : Hall) (hn : (l.map Prod.fst).Nodup) {e : Nat × Word} (he : e ∈ l) :
    hrd (l.foldl (fun y e => hwr y e.1 e.2) h) e.1 = e.2 := by
  induction l generalizing h with
  | nil => cases he
  | cons a l ih =>
    rw [List.map_cons, List.nodup_cons] at hn
    rcases List.mem_cons.mp he with rfl | he
    · exact (hrd_foldl_hwr_of_not_mem l _ hn.1).trans (hrd_hwr_self _ _ _)
    · exact ih _ hn.2 he

/-- The registers that SET_NETWORK writes. -/
def networkWords (b : List Byte) : List (Nat × Word) :=
  let mac := beNat (b.take 6)
  let w := macWords (if mac = 0 then Config.factoryMac.toNat else mac)
  let cfg := wordN (byteAt b 20 % 2 * 2 ^ 31 + byteAt b 25 * 2 ^ 29 + byteAt b 26 * 2 ^ 24 + byteAt b 23 * 2 ^ 21 + byteAt b 24 * 2 ^ 18 +
    byteAt b 22 * 2 ^ 15 + byteAt b 21 * 2 ^ 12)
  [(A.HAL_CFG, cfg), (A.HAL_MACH, w.1), (A.HAL_MACL, w.2), (A.HAL_IPADDR, wordN (u32At b 6)), (A.HAL_NETMASK, wordN (u32At b 10)),
    (A.HAL_GW, wordN (u32At b 14)), (A.HAL_SESSTMO, wordN (u16At b 18))]

theorem hNetwork_of_taken (h0 : byteAt c.payload 0 % 2 = 0) (hm : rngOk 32 .ipmask (u32At c.payload 10) = true)
    (ht : 3 ≤ u16At c.payload 18 ∧ u16At c.payload 18 ≤ 600) (h7 : ∀ k, 21 ≤ k → k ≤ 24 → byteAt c.payload k ≤ 7)
    (h25 : byteAt c.payload 25 ≤ 2) (h26 : byteAt c.payload 26 ≤ 31) :
    hNetwork now c s = (okWith [], modHall (fun h => (networkWords c.payload).foldl (fun y e => hwr y e.1 e.2) h) s, applyHeld now) := by
  have hb : (byteAt c.payload 0).testBit 0 = false := by
    rw [Nat.testBit_zero, h0]
    rfl
  unfold hNetwork
  dsimp only
  rw [hb, hm, decide_eq_false (by omega : ¬u16At c.payload 18 < 3), decide_eq_false (by omega : ¬600 < u16At c.payload 18),
    decide_eq_false (Nat.not_lt.mpr (h7 21 (by omega) (by omega))), decide_eq_false (Nat.not_lt.mpr (h7 22 (by omega) (by omega))),
    decide_eq_false (Nat.not_lt.mpr (h7 23 (by omega) (by omega))), decide_eq_false (Nat.not_lt.mpr (h7 24 (by omega) (by omega))),
    decide_eq_false (Nat.not_lt.mpr h25), decide_eq_false (Nat.not_lt.mpr h26)]
  rfl

theorem network_fields (b : List Byte) (h : Voices (modHall (fun h => (networkWords b).foldl (fun y e => hwr y e.1 e.2) h) s) y) (now : Nat) :
    hap (applyHeld now y).hall A.HAL_IPADDR = wordN (u32At b 6) ∧ hap (applyHeld now y).hall A.HAL_NETMASK = wordN (u32At b 10) ∧
      hap (applyHeld now y).hall A.HAL_GW = wordN (u32At b 14) ∧ hap (applyHeld now y).hall A.HAL_SESSTMO = wordN (u16At b 18) := by
  have hn : ((networkWords b).map Prod.fst).Nodup := by
    show [A.HAL_CFG, A.HAL_MACH, A.HAL_MACL, A.HAL_IPADDR, A.HAL_NETMASK, A.HAL_GW, A.HAL_SESSTMO].Nodup
    decide
  have hw : ∀ e ∈ networkWords b, e.1 ∈ heldOffs → hap (applyHeld now y).hall e.1 = e.2 := fun e he ho =>
    (hap_applied now h ho).trans (hrd_foldl_hwr _ s.hall hn he)
  refine ⟨hw (A.HAL_IPADDR, wordN (u32At b 6)) ?_ (show A.HAL_IPADDR ∈ heldOffs by decide), hw (A.HAL_NETMASK, wordN (u32At b 10)) ?_ (show A.HAL_NETMASK ∈ heldOffs by decide),
    hw (A.HAL_GW, wordN (u32At b 14)) ?_ (show A.HAL_GW ∈ heldOffs by decide), hw (A.HAL_SESSTMO, wordN (u16At b 18)) ?_ (show A.HAL_SESSTMO ∈ heldOffs by decide)⟩ <;> simp [networkWords]

theorem polderNo_range {k : Nat} {i : PolderId} (h : polderNo k = some i) : 1 ≤ k ∧ k ≤ 4 := by
  unfold polderNo at h
  split at h <;> first | omega | cases h

theorem hSv_of_taken {i : PolderId} (hp : polderNo (byteAt c.payload 0) = some i) (hh : Part.has s.part i = true)
    (h1 : 1 ≤ byteAt c.payload 1 ∧ byteAt c.payload 1 ≤ 34) (h2 : 0x4000 ≤ u16At c.payload 2 ∧ u16At c.payload 2 ≤ 0x7FFF) (h4 : u16At c.payload 4 ≤ 511)
    (ha : ((c.payload.drop 12).take (byteAt c.payload 1)).all printable = true) :
    ∃ z, hSv now c s = (okWith [], z, applyHeld now) ∧ hrd z.hall (A.HAL_SVCFG (byteAt c.payload 0 - 1)) = wordN (u16At c.payload 2 * 65536 + u16At c.payload 4) ∧
      z.hall.svId = vset s.hall.svId (byteAt c.payload 0 - 1) ((c.payload.drop 12).take (byteAt c.payload 1)) ∧
      z.hall.svRev = vset s.hall.svRev (byteAt c.payload 0 - 1) (u32At c.payload 8) := by
  unfold hSv
  dsimp only
  rw [hp]
  dsimp only
  rw [hh, if_neg (by decide), if_neg (by rw [ha]; simp; omega)]
  refine ⟨_, rfl, ?_, rfl, rfl⟩
  exact hrd_hwr_self s.hall (A.HAL_SVCFG (byteAt c.payload 0 - 1)) _

/-! ### Keys -/

theorem vset_isSome {α : Type} {n : Nat} (v : Vector α n) (a : α) {k : Nat} (hk : k < n) : a ∈ (vset v k a).toList := by
  refine List.mem_of_getElem? (i := k) ?_
  rw [Vector.getElem?_toList]
  unfold vset
  exact Vector.getElem?_setIfInBounds_self_of_lt hk

theorem hKey_of_taken (hs : byteAt c.payload 0 ≤ 7) (hr : byteAt c.payload 1 = 2) (hk : x.key = []) :
    ∃ z, hKey now x c s = (okWith [], z, fun y =>
        (y.hall.sessions.filter fun e => e.slot == byteAt c.payload 0).foldl (fun z e => closeSession now e.idx (some 1) z) y) ∧
      z.hall.keys = vset s.hall.keys (byteAt c.payload 0) (some ⟨(c.payload.drop 4).take 32, 2, byteAt c.payload 2 % 32⟩) := by
  unfold hKey
  dsimp only
  rw [hr, hk, if_neg (by omega), if_neg (by decide : ¬(2 : Nat) = 255), List.isEmpty_nil, if_pos rfl]
  have hmem := vset_isSome s.hall.keys (some (⟨(c.payload.drop 4).take 32, 2, byteAt c.payload 2 % 32⟩ : KeySlot)) (k := byteAt c.payload 0) (by omega)
  rw [if_neg]
  · exact ⟨_, rfl, rfl⟩
  · rintro ⟨-, hn⟩
    have : (vset s.hall.keys (byteAt c.payload 0) (some (⟨(c.payload.drop 4).take 32, 2, byteAt c.payload 2 % 32⟩ : KeySlot))).toList.any
        (fun k => (k.map (·.role)) == some 2) = true := List.any_eq_true.mpr ⟨_, hmem, rfl⟩
    rw [this] at hn
    cases hn

/-- When the sessions on a slot have closed, none is left on it. -/
theorem slot_ne_of_closed (now slot : Nat) (y : State) :
    ∀ e ∈ ((y.hall.sessions.filter fun e => e.slot == slot).foldl (fun z e => closeSession now e.idx (some 1) z) y).hall.sessions, e.slot ≠ slot := by
  intro e he hslot
  obtain ⟨hsess, -⟩ := foldl_closeSession now (some 1) (y.hall.sessions.filter fun e => e.slot == slot) y
  have hm : e.core ∈ (y.hall.sessions.map Session.core).filter fun x => (y.hall.sessions.filter fun e => e.slot == slot).all fun e => x.idx != e.idx :=
    hsess ▸ List.mem_map_of_mem he
  obtain ⟨hin, hall⟩ := List.mem_filter.mp hm
  obtain ⟨d, hd, hde⟩ := List.mem_map.mp hin
  have hds : d.slot = slot := (congrArg Session.slot hde :).trans hslot
  have := List.all_eq_true.mp hall d (List.mem_filter.mpr ⟨hd, beq_iff_eq.mpr hds⟩)
  rw [show e.core.idx = d.idx from (congrArg Session.idx hde :).symm, bne_self_eq_false] at this
  cases this

/-! ### Expert access -/

/-- What READ_WORDS and WRITE_WORDS do at a target that is there. -/
theorem expert_of_there {tgt : Target} (hp : ∀ i, tgt = .polder i → unavail s i = none ∧ rescue (s.pol i) = false) :
    expert now op tgt c s = if op = Op.readWords then hReadWords now tgt c s else hWriteWords now tgt c s := by
  unfold expert
  dsimp only
  cases tgt with
  | hall => rfl
  | dikehouse => rfl
  | polder i =>
    obtain ⟨hu, hr⟩ := hp i rfl
    dsimp only
    rw [hu, hr]
    rfl

theorem wordLimit_ge (v : Nat) : 64 ≤ wordLimit v := by
  unfold wordLimit
  split <;> omega

theorem hReadWords_of_good {tgt : Target} {r : (List Word × Bool) × State} (hn : 1 ≤ u16At c.payload 4 ∧ u16At c.payload 4 ≤ 64)
    (ha : absentWindow s.part (u32At c.payload 0) (u16At c.payload 4) = false) (hr : r = readRun now tgt (u16At c.payload 4) (u32At c.payload 0) s)
    (hg : r.1.2 = false) : hReadWords now tgt c s = hallOk (c.payload.take 4 ++ r.1.1.flatMap wBytes) r.2 := by
  subst hr
  have hl := wordLimit_ge c.ver
  unfold hReadWords
  dsimp only
  rw [if_neg (by omega), ha, if_neg Bool.false_ne_true, hg, if_neg Bool.false_ne_true]

theorem readRun_length (now : Nat) (tgt : Target) (n a : Nat) (s : State) : (readRun now tgt n a s).1.1.length = n := by
  induction n generalizing a s with
  | zero => rfl
  | succ n ih => exact congrArg (· + 1) (ih _ _)

/-- Words that were all written were written in full. -/
theorem writeRun_count (now : Nat) (tgt : Target) (l : List Word) (a n : Nat) (s : State) (h : (writeRun now tgt l a n s).1.2 = true) :
    (writeRun now tgt l a n s).1.1 = n + l.length := by
  induction l generalizing a n s with
  | nil => rfl
  | cons w l ih =>
    unfold writeRun at h ⊢
    split at h
    next s1 hw =>
      rw [ih _ _ _ h, List.length_cons]
      omega
    · cases h

theorem hWriteWords_of_taken {tgt : Target} (hn : 1 ≤ u16At c.payload 4 ∧ u16At c.payload 4 ≤ 64)
    (ha : absentWindow s.part (u32At c.payload 0) (u16At c.payload 4) = false) :
    hWriteWords now tgt c s =
      (let r := writeRun now tgt (wordsAt c.payload 8 (u16At c.payload 4)) (u32At c.payload 0) 0 s
      (⟨if r.1.2 then Status.ok else Status.range, 0, leBytes 2 r.1.1 ++ zeros 2⟩, modHall (fun h => { h with applied := s.hall.applied }) r.2,
        modHall fun h => { h with applied := r.2.hall.applied })) := by
  have hl := wordLimit_ge c.ver
  unfold hWriteWords
  dsimp only
  rw [if_neg (by omega), ha, if_neg Bool.false_ne_true]

theorem pols_hallAnswer {src : Source} {tgt : Nat} {o : HallOutcome} (hf : ∀ z j, (o.2.2 z).pol j = z.pol j) (j : PolderId) :
    (hallAnswer now src tgt op c o).pol j = o.2.1.pol j :=
  (hf _ j).trans ((talks_sendReply _ _ _ _).pol j)

/-- Settles O48: each command by what it leaves, and what its reply leaves of that. -/
theorem hallCommandsComplete : Obligations.HallCommandsComplete := by
  unfold Obligations.HallCommandsComplete
  constructor
  · intro s t h v i hup hok hl hv hne hb hs hi
    obtain ⟨e, he⟩ := hello_fields (s := s.at' t) (now := s.clock t) hok hv hne hb hs hi
    refine ⟨hello (s.clock t) h (s.at' t), e, doesAll_of_onDevice (f := fun now y => match cardOf Op.hello with
      | some k => if y.hall.up && k.len.ok h.payload then hello now h y else y
      | none => y) rfl ?_, he⟩
    have hd : cardOf Op.hello = some ⟨Op.hello, .hall, .fixed 24, false, false, [], false⟩ := by decide
    rw [hd]
    refine if_pos ?_
    rw [show (s.at' t).hall.up = true from hup]
    exact decide_eq_true hl
  rintro s t c x b now rfl rfl hx
  refine ⟨?_, ?_, ?_, ?_, ?_, ?_, ?_, ?_, ?_, ?_, ?_, ?_⟩
  · intro hh
    have hd : DoesAll (.bye t c) s t (closeSession (s.clock t) c.sess none (sendReply (s.clock t) x.src ⟨0, c.sess, Op.bye, c.seq, Status.ok, 0, []⟩ (s.at' t))) :=
      doesAll_of_onHall (f := fun now _ => hBye now c) rfl hh
    obtain ⟨-, hs, -⟩ := hh
    have hv := (voices_sendReply (s.clock t) x.src ⟨0, c.sess, Op.bye, c.seq, Status.ok, 0, []⟩ (s.at' t)).sessOf c.sess
    rw [show sessOf (s.at' t).hall c.sess = some x from hs] at hv
    refine ⟨_, hd, closeSession_closed (s.clock t) c.sess none ?_⟩
    rw [← Option.isSome_map, hv]
    rfl
  · rintro y hh hk hrole hf rfl
    refine ⟨hallReplies_of_onHall (f := fun now x => hTake now x c) rfl hh ?_, ?_⟩
    · exact hTake_of_free (s := s.at' t) (fun k h => (hk k h).1) (fun k h => (hk k h).2.1) (fun k h => (hk k h).2.2) hrole hf
    · exact fun k hk => foldl_leaseTo_token _ _ _ _ (tokensOf_lt hk) (.inl hk)
  · intro k hh hm hk hp hmask hrole hf hheld
    refine hallReplies_of_onHall (f := fun now x => hTake now x c) rfl hh ?_
    exact hTake_of_held (s := s.at' t) hm hk hp hmask hrole hf hheld
  · intro hh
    refine ⟨_, ?_, hallReplies_of_onHall (f := fun now x => hRelease now x c) rfl hh rfl⟩
    exact fun k hk => holds_of_released _ _ _ _ hk
  · intro hh
    exact hallReplies_of_onHall (f := fun _ x => hSubscribe x c) rfl hh rfl
  · intro n hh hn
    refine hallReplies_of_onHall (f := fun _ x => hNotes x c) rfl hh ?_
    unfold hNotes
    rw [hn]
    rfl
  · intro hh h0 hm ht h7 h25 h26
    have hd := doesAll_of_onHall (k := .setNetwork t c) (f := fun now _ => hNetwork now c) rfl hh
    rw [hNetwork_of_taken h0 hm ht h7 h25 h26] at hd
    obtain ⟨hip, hmask, hgw, htmo⟩ := network_fields c.payload (s := s.at' t)
      (voices_sendReply (s.clock t) x.src ⟨0, c.sess, Op.setNetwork, c.seq, Status.ok, 0, []⟩ _) (s.clock t)
    exact ⟨_, hd, hip, hmask, hgw, htmo, staged_applyHeld _ _⟩
  · intro i hh hp hpart h1 h2 h4 ha
    obtain ⟨z, hz, hcfg, hid, hrev⟩ := hSv_of_taken (s := s.at' t) (now := s.clock t) hp hpart h1 h2 h4 ha
    have hd := doesAll_of_onHall (k := .setSv t c) (f := fun now _ => hSv now c) rfl hh
    rw [hz] at hd
    have hv := voices_sendReply (s.clock t) x.src ⟨0, c.sess, Op.setSv, c.seq, Status.ok, 0, []⟩ z
    have hk := polderNo_range hp
    refine ⟨_, hd, (hap_applied _ hv ?_).trans hcfg, ?_, ?_⟩
    · refine List.mem_append_right _ (List.mem_map_of_mem ?_)
      simp only [List.mem_cons, List.not_mem_nil, or_false]
      omega
    · refine (congrArg (fun v => vget v (byteAt c.payload 0 - 1) []) (hv.svId.trans hid)).trans (vget_vset_self _ _ _ (by omega))
    · refine (congrArg (fun v => vget v (byteAt c.payload 0 - 1) 0) (hv.svRev.trans hrev)).trans (vget_vset_self _ _ _ (by omega))
  · intro hh h7 h2 hk
    obtain ⟨z, hz, hkeys⟩ := hKey_of_taken (s := s.at' t) (now := s.clock t) h7 h2 hk
    have hd := doesAll_of_onHall (k := .setKey t c) (f := fun now x => hKey now x c) rfl hh
    rw [hz] at hd
    have hv := voices_sendReply (s.clock t) x.src ⟨0, c.sess, Op.setKey, c.seq, Status.ok, 0, []⟩ z
    refine ⟨_, hd, ?_, slot_ne_of_closed _ _ _⟩
    have hq := (foldl_closeSession (s.clock t) (some 1) ((sendReply (s.clock t) x.src ⟨0, c.sess, Op.setKey, c.seq, Status.ok, 0, []⟩ z).hall.sessions.filter
      fun e => e.slot == byteAt c.payload 0) (sendReply (s.clock t) x.src ⟨0, c.sess, Op.setKey, c.seq, Status.ok, 0, []⟩ z)).2
    refine (congrArg (fun v => vget v (byteAt c.payload 0) none) ((congrArg Hall.keys hq :).trans (hv.keys.trans hkeys))).trans ?_
    exact vget_vset_self _ _ _ (by omega)
  · intro hh
    refine ⟨_, ?_, ?_, hallReplies_of_onHall (f := fun _ _ => hGetHall) rfl hh rfl⟩
    · simp only [List.length_append, length_flatMap_of (m := 4) _ fun _ => length_wBytes _, length_wBytes, List.length_range]
      rfl
    · rfl
  · intro tgt r hh hn ha hp hr hg
    refine ⟨?_, ?_⟩
    · have hd := doesAll_of_onExpert (k := .readWords t tgt c) rfl hh
      rw [expert_of_there (fun i hi => ⟨(unavail_at s t i).trans (hp i hi).1, by rw [at_pol]; exact (hp i hi).2⟩), if_pos rfl,
        hReadWords_of_good (s := s.at' t) hn ha hr hg] at hd
      exact hd
    · rw [hr]
      exact readRun_length _ _ _ _ _
  · intro i r hh hn ha hu hres hr hg
    have hd := doesAll_of_onExpert (k := .writeWords t (.polder i) c) rfl hh
    rw [expert_of_there (fun j hj => by cases hj; exact ⟨(unavail_at s t i).trans hu, by rw [at_pol]; exact hres⟩), if_neg (by decide),
      hWriteWords_of_taken (s := s.at' t) hn ha, ← hr] at hd
    have hp := fun j => pols_hallAnswer (now := s.clock t) (src := x.src) (tgt := (Target.polder i).code) (op := Op.writeWords) (c := c)
      (o := (⟨if r.1.2 then Status.ok else Status.range, 0, leBytes 2 r.1.1 ++ zeros 2⟩, modHall (fun h => { h with applied := (s.at' t).hall.applied }) r.2,
        modHall fun h => { h with applied := r.2.hall.applied })) (fun z j => modHall_pol _ z j) j
    refine ⟨_, hd, hp .A, hp .B, hp .C, hp .D, ?_⟩
    subst hr
    rw [writeRun_count _ _ _ _ _ _ hg, Nat.zero_add]
    unfold wordsAt
    rw [List.length_map, List.length_range]

end Sys2Proof.Machine
end

section
/-!
SUPPORT. O49: what arrives at the Hall's ports (R387, R394 to R400, R403).
-/
namespace Sys2Proof.Machine
open Sys2Proof

variable {s y : State} {t now port : Nat} {h : Hall}

/-! ### Fields of the Hall's registers -/

theorem hget_hput_self (h : Hall) (f : Fld) (v : Nat) (hf : f.hi < 32) : hget (hput h f v) f = v % 2 ^ (f.hi + 1 - f.lo) := by
  unfold hget hput
  rw [hrd_hwr_self, bitsOf_withBits_self _ _ _ _ hf]

theorem hbit_hput_self (h : Hall) {f : Fld} (b : Bool) (hf : f.hi < 32) (hw : f.hi = f.lo) : hbit (hput h f (bn b)) f = b := by
  unfold hbit
  rw [hget_hput_self h f _ hf, hw, Nat.add_sub_cancel_left]
  cases b <;> rfl

theorem hbit_of_hrd {h k : Hall} {f : Fld} (e : hrd h f.off = hrd k f.off) : hbit h f = hbit k f := by
  unfold hbit hget
  rw [e]

/-! ### What the ports hear -/

theorem portHeard_hall (now port : Nat) (s : State) : (portHeard now port s).hall = s.hall := by
  unfold portHeard
  generalize presentPolders s = l
  induction l generalizing s with
  | nil => rfl
  | cons a l ih =>
    refine (ih _).trans ?_
    dsimp only
    split
    · exact modPol_hall _ _ _
    · rfl

/-- A frame that is no duplicate. -/
theorem received_of_new {prp : Option (Nat × Nat)} (f : State → State) (hup : s.hall.up = true) (hd : isDuplicate now s.hall prp = false) :
    received now port prp f s = f (modHall (remember now prp) (portHeard now port s)) := by
  unfold received
  rw [hup, hd]
  rfl

/-- The Hall after a frame that is no duplicate. -/
theorem remember_shape (now : Nat) (prp : Option (Nat × Nat)) (h : Hall) : ∃ l, remember now prp h = { h with prpSeen := l } := by
  unfold remember
  split
  · exact ⟨_, rfl⟩
  · exact ⟨_, rfl⟩

theorem pdelayReq_sent (b : List Byte) (hup : s.hall.up = true) (hl : listening (portHeard now port s) = false) :
    (pdelayReq now port b s).hall.sent = s.hall.sent ++
      [.frame s.hall.prpSeq (hapF s.hall F.HAL_CFG_PCP_PTP) 0x0180C200000E 0x88F7 (pdelayBytes false now port b s.hall),
        .frame ((s.hall.prpSeq + 1) % 65536) (hapF s.hall F.HAL_CFG_PCP_PTP) 0x0180C200000E 0x88F7 (pdelayBytes true now port b s.hall)] := by
  have hh := portHeard_hall now port s
  unfold pdelayReq
  dsimp only
  rw [hup, hl, if_neg (by decide), if_neg (by decide)]
  generalize portHeard now port s = y at hh
  rw [← hh]
  exact List.append_assoc _ _ _

/-! ### Command packets -/

theorem commandPacket_spi {b : List Byte} (prp : Option (Nat × Nat)) (hup : s.hall.up = true) (hr : s.hall.spiRx = some b) :
    commandPacket now .spi prp b s = checkPacket (entryAt now .spi s.hall) .spi b
      (modHall (fun g => { g with spiRx := none, entered := (entryAt now .spi s.hall / hallCyc, 0) }) s) := by
  unfold commandPacket
  exact if_pos (by rw [hup, hr, beq_self_eq_true]; rfl)

theorem checkPacket_short {b : List Byte} (src : Source) (hb : b.length < 20) : checkPacket now src b s = hallCount A.HAL_BADLEN s := by
  unfold checkPacket
  exact if_pos (.inl (by omega))

theorem hallCount_value (o : Nat) (s : State) : (hrd (hallCount o s).hall o).toNat = min 4294967295 ((hrd s.hall o).toNat + 1) := by
  have h : hrd (hallCount o s).hall o = wordN (satAdd 32 (hrd s.hall o).toNat 1) := hrd_hwr_self _ _ _
  rw [h]
  unfold wordN satAdd
  rw [BitVec.toNat_ofNat]
  omega

/-- A packet of a session without a key, which passes the checks of R403. -/
theorem checkPacket_plain {b : List Byte} {x : Session} (hl : (headOf b).len ≤ 1024) (ha : (headOf b).auth = false) (hb : b.length = 20 + (headOf b).len)
    (hc : u32At b (16 + (headOf b).len) = (crc32 (b.take (16 + (headOf b).len))).toNat) (hop : (headOf b).op ≠ Op.hello)
    (hs : sessById s.hall (headOf b).id = some x) (hk : x.key = []) :
    checkPacket now .spi b s = sequenced now .spi (headOf b) { x with lastSeen := now } ((b.drop 16).take (headOf b).len)
      (modSess x.idx (fun e => { e with lastSeen := now }) s) := by
  unfold checkPacket
  dsimp only
  rw [ha, show (isEth .spi || false) = false from rfl, if_neg (by simp; omega), if_neg (by rw [hb]; simp; omega), if_neg (by rw [hc]; simp), if_neg hop, hs]
  refine if_pos ?_
  unfold tagOk
  rw [hk, ha]
  rfl

/-! ### Other frames -/

theorem arpRequest_fields {prp : Option (Nat × Nat)} (ip mac : Nat) (hup : s.hall.up = true) (hd : isDuplicate now s.hall prp = false) (hip : ownIp s.hall ≠ 0) :
    (arpRequest now port prp (ownIp s.hall) ip mac s).hall.sent =
        s.hall.sent ++ [.frame s.hall.prpSeq Config.otherPcp.val mac 0x0806 (arpBytes 2 (ownMac s.hall) (ownIp s.hall) mac ip)] ∧
      (arpRequest now port prp (ownIp s.hall) ip mac s).hall.arp.head? = some (ip, mac, now) := by
  obtain ⟨l, hl⟩ := remember_shape now prp s.hall
  unfold arpRequest
  rw [received_of_new _ hup hd]
  have hh : (modHall (remember now prp) (portHeard now port s)).hall = { s.hall with prpSeen := l } := by
    rw [← hl, ← portHeard_hall now port s]
    rfl
  generalize modHall (remember now prp) (portHeard now port s) = y at hh
  rw [if_neg (by rw [hh]; exact fun h => h.elim hip fun h => h rfl)]
  constructor
  · show y.hall.sent ++ [.frame y.hall.prpSeq _ mac 0x0806 (arpBytes 2 (ownMac y.hall) (ownIp y.hall) mac ip)] = _
    rw [hh]
    rfl
  · rfl

theorem icmpEcho_sent {prp : Option (Nat × Nat)} (ip : Nat) {l : List Byte} (hup : s.hall.up = true) (hd : isDuplicate now s.hall prp = false)
    (hip : ownIp s.hall ≠ 0) (hl : l.length ≤ 1472) (ht : s.hall.icmpTimes.length < 100) :
    (icmpEcho now port prp ip l s).hall.sent = s.hall.sent ++ [.echo s.hall.prpSeq Config.otherPcp.val (resolved now s.hall ip) ip l] := by
  obtain ⟨m, hm⟩ := remember_shape now prp s.hall
  unfold icmpEcho
  rw [received_of_new _ hup hd]
  have hh : (modHall (remember now prp) (portHeard now port s)).hall = { s.hall with prpSeen := m } := by
    rw [← hm, ← portHeard_hall now port s]
    rfl
  generalize modHall (remember now prp) (portHeard now port s) = y at hh
  dsimp only
  have hf := List.length_filter_le (fun t => decide (now < t + sec)) y.hall.icmpTimes
  have ht' : y.hall.icmpTimes.length < 100 := by rw [hh]; exact ht
  have hip' : ownIp y.hall ≠ 0 := by rw [hh]; exact hip
  rw [if_neg (by omega)]
  show y.hall.sent ++ [.echo y.hall.prpSeq _ (resolved now y.hall ip) ip l] = _
  rw [hh]
  rfl

theorem hall_foldl_pols (f : Polder → Polder) (l : List PolderId) (s : State) :
    (l.foldl (fun y i => if awake (y.pol i) then y.modPol i f else y) s).hall = s.hall := by
  induction l generalizing s with
  | nil => rfl
  | cons a l ih =>
    refine (ih _).trans ?_
    dsimp only
    split
    · exact modPol_hall _ _ _
    · rfl

theorem hbit_hallNote_self {f : Fld} (hf : f.hi < 32) (hw : f.hi = f.lo) (now : Nat) (x : Option Nat) (s : State) : hbit (hallNote now f x s).hall f = true :=
  hbit_hput_self s.hall true hf hw

theorem hbit_hallNote_ne {f g : Fld} (h : g.off ≠ f.off) (now : Nat) (x : Option Nat) (s : State) : hbit (hallNote now f x s).hall g = hbit s.hall g :=
  hbit_of_hrd (hrd_hwr_ne s.hall _ h)

/-- The loss of link A. -/
theorem linkChange_down (hup : s.hall.up = true) (hb : hbit s.hall F.HAL_STAT_LINKA = true) :
    hbit (linkChange now 0 false s).hall F.HAL_STAT_LINKA = false ∧ hbit (linkChange now 0 false s).hall F.HAL_EVT_LINKA_DOWN = true := by
  unfold linkChange
  rw [hup, if_neg (by decide)]
  dsimp only
  rw [if_neg Bool.false_ne_true, if_pos rfl, hb, if_pos rfl, hall_foldl_pols]
  have h1 : hbit (hput s.hall F.HAL_STAT_LINKA (bn false)) F.HAL_STAT_LINKA = false := hbit_hput_self s.hall false (by decide) rfl
  exact ⟨(hbit_hallNote_ne (by decide) _ _ _).trans h1, hbit_hallNote_self (by decide) rfl _ _ _⟩

/-- Link B comes up. -/
theorem linkChange_up (hup : s.hall.up = true) (hb : hbit s.hall F.HAL_STAT_LINKB = false) (hip : ownIp s.hall ≠ 0) :
    hbit (linkChange now 1 true s).hall F.HAL_STAT_LINKB = true ∧ (linkChange now 1 true s).hall.sent =
      s.hall.sent ++ [.frame s.hall.prpSeq Config.otherPcp.val broadcastMac 0x0806 (arpBytes 1 (ownMac s.hall) (ownIp s.hall) 0 (ownIp s.hall))] := by
  have hip : ownIp (modHall (fun h => hput h F.HAL_STAT_LINKB (bn true)) s).hall ≠ 0 := hip
  unfold linkChange
  rw [hup, if_neg (by decide)]
  dsimp only
  rw [if_pos rfl, if_neg (by decide : ¬(1 = 0)), hb, if_neg (by rw [Bool.or_false, decide_eq_false hip]; decide)]
  exact ⟨hbit_hput_self s.hall true (by decide) rfl, rfl⟩

theorem supervisionFrame_fields (hup : s.hall.up = true) (hd : s.hall.supAt = none ∨ ∃ t0, s.hall.supAt = some t0 ∧ t0 + 2 * sec ≤ now) :
    supervisionFrame now s = modHall (fun h => hallTx (fun n => .frame n Config.otherPcp.val 0x01154E000100 0x88FB (supervisionBytes h))
      { h with supAt := some now, supSeq := (h.supSeq + 1) % 65536 }) s := by
  have hdue : (match s.hall.supAt with
      | some t => decide (t + 2 * sec ≤ now)
      | none => true) = true := by
    rcases hd with hd | ⟨t0, hd, ht⟩
    · rw [hd]
    · rw [hd]
      exact decide_eq_true ht
  unfold supervisionFrame
  exact if_pos (Bool.and_eq_true_iff.mpr ⟨hup, hdue⟩)

theorem spiStatus_empty (hup : s.hall.up = true) (hq : s.hall.spiOut = []) :
    spiStatus s = spiOut ([0xFF#8, 0xFF#8, 0#8, 0#8, 0#8] ++ leBytes 1 (bn s.hall.spiRx.isNone)) s := by
  unfold spiStatus
  rw [hup, hq]
  rfl

theorem spiWrite_free {len : Nat} {b : List Byte} (hup : s.hall.up = true) (hl : len ≤ b.length) (hr : s.hall.spiRx = none) :
    spiWrite len b s = modHall (fun g => { g with spiRx := some (b.take len) }) s := by
  unfold spiWrite
  rw [hup, if_neg (by decide), if_neg (by rw [hr]; simp; omega)]

theorem spiRead_whole {b : List Byte} {note : Bool} {l : List (List Byte × Bool)} (hup : s.hall.up = true) (hq : s.hall.spiOut = (b, note) :: l) :
    spiRead b.length s = modHall (fun h => { h with spiOut := l }) (spiOut ([0xFF#8, 0xFF#8] ++ leBytes 2 b.length ++ b) s) := by
  unfold spiRead
  rw [hup, if_neg (by decide), hq]
  dsimp only
  rw [if_pos (Nat.le_refl _), List.take_length, Nat.sub_self, List.replicate_zero, List.append_nil]

/-- Settles O49: each row by what its handler leaves of the Hall. -/
theorem hallPortEvents : Obligations.HallPortEvents := by
  unfold Obligations.HallPortEvents
  rintro s t now h rfl rfl hup
  have hup' : (s.at' t).hall.up = true := hup
  refine ⟨?_, ?_, ?_, ?_, ?_, ?_, ?_, ?_, ?_, ?_, ?_⟩
  · intro port b hl
    exact ⟨_, _, _, doesAll_of_onDevice (f := fun now y => pdelayReq now port b y) rfl rfl, pdelayReq_sent b hup' hl, rfl, rfl⟩
  · intro b hr hb
    have he : commandPacket (s.clock t) .spi none b (s.at' t) = _ := commandPacket_spi none hup' hr
    rw [checkPacket_short .spi hb] at he
    exact ⟨_, doesAll_of_onDevice (f := fun now y => commandPacket now .spi none b y) rfl he, rfl, hallCount_value _ _, rfl, rfl⟩
  · rintro b x y hr hl ha hb hc hop hs hk he rfl
    refine doesAll_of_onDevice (f := fun now y => commandPacket now .spi none b y) rfl ((commandPacket_spi none hup' hr).trans ?_)
    rw [show entryAt (s.clock t) .spi (s.at' t).hall = s.clock t from he]
    exact checkPacket_plain hl ha hb hc hop hs hk
  · intro port prp ip mac hd hip
    exact ⟨_, doesAll_of_onDevice (f := fun now y => arpRequest now port prp (ownIp s.hall) ip mac y) rfl rfl,
      arpRequest_fields (s := s.at' t) ip mac hup' hd hip⟩
  · intro port prp ip l hd hip hl ht
    exact ⟨_, doesAll_of_onDevice (f := fun now y => icmpEcho now port prp ip l y) rfl rfl, icmpEcho_sent (s := s.at' t) ip hup' hd hip hl ht⟩
  · intro hb
    exact ⟨_, doesAll_of_onDevice (f := fun now y => linkChange now 0 false y) rfl rfl, linkChange_down (s := s.at' t) hup' hb⟩
  · intro hb hip
    exact ⟨_, doesAll_of_onDevice (f := fun now y => linkChange now 1 true y) rfl rfl, linkChange_up (s := s.at' t) hup' hb hip⟩
  · intro hd
    exact ⟨_, doesAll_of_onDevice (f := supervisionFrame) rfl (supervisionFrame_fields (s := s.at' t) hup' hd), rfl, rfl, rfl⟩
  · intro hq
    exact ⟨_, doesAll_of_onDevice (f := fun _ y => spiStatus y) rfl (spiStatus_empty (s := s.at' t) hup' hq), rfl⟩
  · intro len b hl hr
    exact doesAll_of_onDevice (f := fun _ y => spiWrite len b y) rfl (spiWrite_free (s := s.at' t) hup' hl hr)
  · rintro b note l n hq rfl
    exact ⟨_, doesAll_of_onDevice (f := fun _ y => spiRead b.length y) rfl (spiRead_whole (s := s.at' t) hup' hq), rfl, rfl⟩

end Sys2Proof.Machine
end

section
/-!
SUPPORT. O50: delivery of commands and replies, the ends of sessions and tokens, and `HAL_APPLY` (R404 to R417).
-/
namespace Sys2Proof.Machine
open Sys2Proof

variable {s y : State} {t now k : Nat} {h : Hall} {f : Fld}

/-! ### Delivery and replies -/

theorem queueNo_num (i : PolderId) : queueNo i.num = i.num := by cases i <;> rfl

theorem num_lt (i : PolderId) : i.num < 6 := by cases i <;> decide

theorem commandDeliver_dikehouse {q : Queued} {l : List Queued} (hup : s.hall.up = true) (hq : vget s.hall.queues 5 [] = q :: l)
    (hb : busy s.hall 15 = false) (he : isExpert q.opcode = false) :
    commandDeliver now .dikehouse s = modHall (fun g => { g with
      queues := vset g.queues 5 l, inFlight := g.inFlight ++ [⟨q, 15, false, false, false⟩] }) s := by
  unfold commandDeliver
  dsimp only
  rw [show queueNo Target.dikehouse.code = 5 from rfl, hq]
  dsimp only
  rw [hup, show busy s.hall Target.dikehouse.code = false from hb, he]
  rfl

theorem commandDeliver_expert {tgt : Target} {q : Queued} {l : List Queued} (hup : s.hall.up = true) (hq : vget s.hall.queues (queueNo tgt.code) [] = q :: l)
    (hb : busy s.hall tgt.code = false) (he : isExpert q.opcode = true) :
    commandDeliver now tgt s = hallAnswer now q.src tgt.code q.opcode q.cmd
      (expert now q.opcode tgt q.cmd (modHall (fun g => { g with queues := vset g.queues (queueNo tgt.code) l }) s)) := by
  unfold commandDeliver
  dsimp only
  rw [hq]
  dsimp only
  rw [hup, hb, he]
  rfl

theorem commandDeliver_polder {i : PolderId} {q : Queued} {l : List Queued} (hup : s.hall.up = true) (hq : vget s.hall.queues i.num [] = q :: l)
    (hb : busy s.hall i.num = false) (he : isExpert q.opcode = false) (ha : awake (s.pol i) = true) (hse : seState (s.pol i) = Eng.run) :
    commandDeliver now (.polder i) s = modHall (fun h => { h with
      queues := vset h.queues i.num l, inFlight := h.inFlight ++ [⟨q, i.num, false, false, false⟩] }) (s.modPol i (evt (F.MBX_STAT_EMPTY 0))) := by
  unfold commandDeliver
  dsimp only
  rw [show (Target.polder i).code = i.num from rfl, queueNo_num, hq]
  dsimp only
  rw [hup, hb, he, ha, hse]
  rfl

theorem targetReply_answer {tgt : Target} {a : Answer} {f : InFlight} (hr : s.hall.replies = [.answer a]) (ht : a.target = tgt.code)
    (hf : flightOf s.hall a = some f) (hl : f.late = false) (hp : f.pending = false) :
    targetReply now tgt s = endOf f (sendReply now f.q.src a (modHall (fun g => { g with replies := [] }) s)) := by
  have hfind : (s.hall.replies.find? fun o => (o.asAnswer.map (·.target)) == some tgt.code) = some (.answer a) := by
    rw [hr]
    exact List.find?_cons_of_pos (by simp [Out.asAnswer, ht])
  have herase : s.hall.replies.erase (.answer a) = [] := by
    rw [hr]
    exact List.erase_cons_head (Out.answer a) []
  unfold targetReply
  rw [hfind]
  dsimp only
  unfold forward
  rw [show flightOf (modHall (fun h => { h with replies := h.replies.erase (Out.answer a) }) s).hall a = some f from hf]
  dsimp only
  rw [hl, hp, if_neg Bool.false_ne_true, if_neg Bool.false_ne_true]
  have hs : modHall (fun h => { h with replies := h.replies.erase (Out.answer a) }) s = modHall (fun g => { g with replies := [] }) s :=
    congrArg (fun l => modHall (fun h => { h with replies := l }) s) herase
  rw [hs]

theorem replyTimeout_of_due {tgt : Target} {f : InFlight} (hi : s.hall.inFlight = [f]) (ht : f.target = tgt.code) (hl : f.late = false)
    (hp : f.pending = false) (hd : f.q.at' + 50 * ms ≤ now) (hr : s.hall.replies = []) :
    replyTimeout now tgt s = sendReply now f.q.src ⟨tgt.code, f.q.cmd.sess, f.q.opcode, f.q.cmd.seq, Status.timeout, 1, []⟩
      (modHall (fun g => { g with inFlight := [{ f with late := true }] }) s) := by
  have hno : hasReply s.hall f.target f.q.cmd.sess f.q.cmd.seq = false := by
    unfold hasReply
    rw [hr]
    rfl
  have hfilter : (s.hall.inFlight.filter fun f => f.target == tgt.code && !f.late && !f.pending && decide (f.q.at' + 50 * ms ≤ now) &&
      !hasReply s.hall f.target f.q.cmd.sess f.q.cmd.seq) = [f] := by
    rw [hi]
    exact List.filter_cons_of_pos (by rw [hno, decide_eq_true hd, hl, hp, beq_iff_eq.mpr ht]; rfl)
  have hmap : (s.hall.inFlight.map fun g => if g = f then { g with late := true } else g) = [{ f with late := true }] := by
    rw [hi, List.map_cons, List.map_nil, if_pos rfl]
  unfold replyTimeout
  rw [hfilter, List.foldl_cons, List.foldl_nil]
  have hs : modHall (fun h => { h with inFlight := h.inFlight.map fun g => if g = f then { g with late := true } else g }) s =
      modHall (fun g => { g with inFlight := [{ f with late := true }] }) s :=
    congrArg (fun l => modHall (fun h => { h with inFlight := l }) s) hmap
  rw [hs, ht]

theorem deliveryTimeout_of_due {tgt : Target} {q : Queued} (hq : vget s.hall.queues (queueNo tgt.code) [] = [q]) (hd : q.at' + 50 * ms ≤ now) :
    deliveryTimeout now tgt s = withdraw now tgt.code q s := by
  have hf : ([q].filter fun q => decide (q.at' + 50 * ms ≤ now)) = [q] := List.filter_cons_of_pos (decide_eq_true hd)
  unfold deliveryTimeout
  rw [hq, hf]
  rfl

/-! ### A session that lapses -/

theorem sessionTimeout_of_due {x : Session} (hx : sessOf s.hall k = some x) (hd : x.lastSeen + (hap s.hall A.HAL_SESSTMO).toNat * sec ≤ now) :
    sessionTimeout now k s = closeSession now k (some 0) s := by
  unfold sessionTimeout
  rw [hx]
  exact if_pos hd

/-- The other sessions stay open. -/
theorem closeSession_others (now k : Nat) (cause : Option Nat) (s : State) {j : Nat} (hj : j ≠ k) :
    (sessOf (closeSession now k cause s).hall j).isSome = (sessOf s.hall j).isSome := by
  have h : ∀ l : List Session, (l.find? fun x => x.idx == j).isSome = ((l.map Session.core).find? fun x => x.idx == j).isSome := fun l => by
    rw [find?_core, Option.isSome_map]
  unfold sessOf
  rw [h, h s.hall.sessions, closeSession_sessions, List.find?_filter]
  refine congrArg (fun f => (List.find? f (s.hall.sessions.map Session.core)).isSome) (funext fun x => ?_)
  by_cases hx : x.idx = j
  · subst hx
    simp [hj]
  · simp [hx]

/-! ### A token that lapses -/

/-- An event bit of the Hall that another event leaves set. -/
theorem hbit_hallNote_keeps {g : Fld} (hg : g.hi < f.lo ∨ f.hi < g.lo) (now : Nat) (x : Option Nat) (hs : hbit s.hall f = true) :
    hbit (hallNote now g x s).hall f = true := by
  have h : hbit (hput s.hall g 1) f = true := by
    unfold hbit hget hput at *
    by_cases ho : f.off = g.off
    · rw [ho, hrd_hwr_self, bitsOf_withBits_ne _ _ hg.symm, ← ho]
      exact hs
    · rw [hrd_hwr_ne _ _ ho]
      exact hs
  exact h

theorem hbit_hallCount_keeps {o : Nat} (ho : o ≠ f.off) (hs : hbit s.hall f = true) : hbit (hallCount o s).hall f = true :=
  (hbit_of_hrd (hrd_hwr_ne s.hall _ (Ne.symm ho))).trans hs

/-- An event bit that the Hall's own sending does not write. -/
structure Lasting (f : Fld) : Prop where
  off : f.off = A.HAL_EVT
  hi : f.hi < 7

theorem hbit_spiLost_keeps (hf : Lasting f) (now : Nat) (hs : hbit s.hall f = true) :
    hbit (hallNote now F.HAL_EVT_SPI_OVF none (hallCount A.HAL_SPIDROP s)).hall f = true := by
  have h7 := hf.hi
  refine hbit_hallNote_keeps (.inr ?_) now none (hbit_hallCount_keeps ?_ hs)
  · show f.hi < 8
    omega
  · rw [hf.off]
    decide

theorem hbit_spiPush_keeps (hf : Lasting f) (now : Nat) (note : Bool) (b : List Byte) (hs : hbit s.hall f = true) :
    hbit (spiPush now note b s).hall f = true := by
  have h7 := hf.hi
  unfold spiPush
  split
  · exact hs
  · dsimp only
    split
    next l _ => exact hbit_spiLost_keeps (s := modHall (fun h => { h with spiOut := l ++ [(b, note)] }) s) hf now hs
    · split
      · refine hbit_hallNote_keeps (.inr ?_) now none (hbit_hallCount_keeps ?_ (hbit_spiLost_keeps hf now hs))
        · exact h7
        · rw [hf.off]
          decide
      · exact hbit_spiLost_keeps hf now hs

theorem hbit_notify_keeps (hf : Lasting f) (now i target st kind flag : Nat) (body : List Byte) (hs : hbit s.hall f = true) :
    hbit (notify now i target st kind flag body s).hall f = true := by
  have hsend : ∀ (src : Source) (note : Bool) (b : List Byte) (z : State), hbit z.hall f = true → hbit (sendTo now src note b z).hall f = true := by
    intro src note b z hz
    unfold sendTo
    split
    · exact hbit_spiPush_keeps hf now note b hz
    · exact hz
  unfold notify
  split
  · exact hs
  · split
    · exact hs
    · dsimp only
      split
      · exact hs
      · exact hsend _ _ _ _ hs

theorem freeToken_others (now : Nat) (s : State) {j : Nat} (hj : j ≠ k) : vget (freeToken now k s).hall.tokens j none = vget s.hall.tokens j none := by
  have hne : vget (vset s.hall.tokens k none) j none = vget s.hall.tokens j none := by
    unfold vget vset
    rw [Vector.getElem?_setIfInBounds_ne (Ne.symm hj)]
  unfold freeToken
  split
  · rfl
  · dsimp only
    split
    · split
      · rw [modPol_hall]
        exact hne
      · exact hne
    · exact hne

theorem loseToken_others (now i : Nat) (s : State) (j : Nat) (hj : j ≠ k) : vget (loseToken now k i s).hall.tokens j none = vget s.hall.tokens j none := by
  unfold loseToken
  dsimp only
  split
  · split
    · rw [modPol_hall]
      exact freeToken_others now s hj
    · exact freeToken_others now s hj
  · exact freeToken_others now s hj

/-- A token lapses: it is free, its event sets, and every other token stays. -/
theorem tokenLapse_fields {l : Lease} (hl : vget s.hall.tokens k none = some l) (hd : l.until' / hallCyc < now / hallCyc) :
    vget (tokenLapse now k s).hall.tokens k none = none ∧ hbit (tokenLapse now k s).hall F.HAL_EVT_TOKEN_LAPSE = true ∧
      ∀ j, j ≠ k → vget (tokenLapse now k s).hall.tokens j none = vget s.hall.tokens j none := by
  have hfree : ∀ j, j ≠ k → vget (loseToken now k l.holder s).hall.tokens j none = vget s.hall.tokens j none := loseToken_others now l.holder s
  have hk := loseToken_token now k l.holder s
  unfold tokenLapse
  rw [hl]
  dsimp only
  rw [if_pos hd]
  generalize loseToken now k l.holder s = y at hfree hk
  have htok : (notify now l.holder 0 0 5 0 (leBytes 1 (2 ^ k) ++ zeros 3) (hallNote now F.HAL_EVT_TOKEN_LAPSE (some l.holder) y)).hall.tokens = y.hall.tokens :=
    ((talks_hallNote now F.HAL_EVT_TOKEN_LAPSE (some l.holder) y).trans (talks_notify now l.holder 0 0 5 0 _ _)).tokens
  rw [htok]
  exact ⟨hk, hbit_notify_keeps ⟨rfl, by decide⟩ now _ _ _ _ _ _ (hbit_hallNote_self (by decide) rfl now _ y), hfree⟩

/-! ### `HAL_APPLY` -/

theorem hallWrite_apply {bit : Nat} (hb : bit < 3) (now : Nat) (s : State) :
    (hallWrite now A.HAL_APPLY (wordN (2 ^ bit)) s).2 = applyWrite now (wordN (2 ^ bit)) s := by
  have hrow : findRow rowsHAL A.HAL_APPLY = some (⟨0x30, 0x0, 1, [0x0], [⟨2, 2, .wo, .any⟩, ⟨1, 1, .wo, .any⟩, ⟨0, 0, .wo, .any⟩]⟩, 0) := by decide
  have hw : ∀ old kept : Word, ∃ w, directWord ⟨0x30, 0x0, 1, [0x0], [⟨2, 2, .wo, .any⟩, ⟨1, 1, .wo, .any⟩, ⟨0, 0, .wo, .any⟩]⟩ old (wordN (2 ^ bit)) kept =
      .word w (wordN (2 ^ bit)) := by
    intro old kept
    unfold directWord
    interval_cases bit <;> exact ⟨_, rfl⟩
  obtain ⟨w, hw⟩ := hw (hrd s.hall A.HAL_APPLY) (setBits s.hall.sets (now / hallCyc) A.HAL_APPLY)
  unfold hallWrite
  rw [if_neg (by decide), hrow]
  dsimp only
  rw [hw]
  rfl

theorem hallStaged_of_eq (h : ∀ o ∈ heldOffs, hrd y.hall o = hap y.hall o) : hallStaged y.hall = false := by
  unfold hallStaged
  rw [List.any_eq_false]
  intro o ho
  rw [h o ho, bne_self_eq_false]
  exact Bool.false_ne_true

/-- DISCARD: what is in force is held again. -/
theorem hrd_discardHeld (s : State) {o : Nat} (ho : o ∈ heldOffs) : hrd (discardHeld s).hall o = hap s.hall o := by
  have hap' : ∀ (h : Hall) (a : Nat) (w : Word) (o : Nat), hap (hwr h a w) o = hap h o := fun _ _ _ _ => rfl
  have : ∀ (l : List Nat) (h : Hall), (o ∈ l ∨ hrd h o = hap s.hall o) → hrd (l.foldl (fun y a => hwr y a (hap s.hall a)) h) o = hap s.hall o := by
    intro l
    induction l with
    | nil => exact fun h hh => hh.resolve_left (by simp)
    | cons a l ih =>
      intro h hh
      refine ih _ ?_
      by_cases ha : o = a
      · subst ha
        exact .inr (hrd_hwr_self _ _ _)
      · rw [hrd_hwr_ne _ _ ha]
        exact hh.imp_left fun h => (List.mem_cons.mp h).resolve_left ha
  exact this heldOffs s.hall (.inl ho)

/-- CNTCLR: the counters are 0. -/
theorem hrd_clearCounters (s : State) {k : Nat} (hk : k < 10) : hrd (clearCounters s).hall (A.HAL_CMDS + 4 * k) = 0 := by
  have : ∀ (l : List Nat) (h : Hall), (k ∈ l ∨ hrd h (A.HAL_CMDS + 4 * k) = 0) → hrd (l.foldl (fun y j => hwr y (A.HAL_CMDS + 4 * j) 0) h) (A.HAL_CMDS + 4 * k) = 0 := by
    intro l
    induction l with
    | nil => exact fun h hh => hh.resolve_left (by simp)
    | cons a l ih =>
      intro h hh
      refine ih _ ?_
      by_cases ha : k = a
      · subst ha
        exact .inr (hrd_hwr_self _ _ _)
      · rw [hrd_hwr_ne _ _ (by omega)]
        exact hh.imp_left fun h => (List.mem_cons.mp h).resolve_left ha
  exact this (List.range 10) s.hall (.inl (List.mem_range.mpr hk))

theorem does_onApply {k : Instr} {bit : Nat} (he : exec k s = onApply t bit s) (hup : s.hall.up = true) (hb : bit < 3)
    (hf : applyWrite (s.clock t) (wordN (2 ^ bit)) (s.at' t) = y) : DoesAll k s t y := by
  refine doesAll_of_onDevice (f := fun now y => if y.hall.up then (hallWrite now A.HAL_APPLY (wordN (2 ^ bit)) y).2 else y) he ?_
  exact (if_pos hup).trans ((hallWrite_apply hb _ _).trans hf)

theorem applyWrite_go (now : Nat) (s : State) : applyWrite now (wordN (2 ^ 0)) s = applyHeld now s := rfl

theorem applyWrite_discard (now : Nat) (s : State) : applyWrite now (wordN (2 ^ 1)) s = discardHeld s := rfl

theorem applyWrite_clear (now : Nat) (s : State) : applyWrite now (wordN (2 ^ 2)) s = clearCounters s := rfl

theorem applied_foldl_hwr {α : Type} (o : α → Nat) (w : Hall → α → Word) (l : List α) (h : Hall) :
    (l.foldl (fun y a => hwr y (o a) (w h a)) h).applied = h.applied := by
  have : ∀ (v : α → Word) (g : Hall), (l.foldl (fun y a => hwr y (o a) (v a)) g).applied = g.applied := by
    intro v
    induction l with
    | nil => exact fun _ => rfl
    | cons a l ih => exact fun g => ih _
  exact this _ _

/-- Settles O50: delivery and replies by their rows, the ends by what a closing and a lapse leave, `HAL_APPLY` by its bits. -/
theorem hallDeliveryEvents : Obligations.HallDeliveryEvents := by
  unfold Obligations.HallDeliveryEvents
  rintro s t now h rfl rfl hup
  have hup' : (s.at' t).hall.up = true := hup
  refine ⟨?_, ?_, ?_, ?_, ?_, ?_, ?_, ?_, ?_, ?_, ?_⟩
  · intro q l hq hb he
    exact doesAll_of_onDevice (f := fun now y => commandDeliver now .dikehouse y) rfl (commandDeliver_dikehouse (s := s.at' t) hup' hq hb he)
  · intro tgt q l _ hq hb he
    exact doesAll_of_onDevice (f := fun now y => commandDeliver now tgt y) rfl (commandDeliver_expert (s := s.at' t) hup' hq hb he)
  · intro i q l hq hb he ha hse
    refine ⟨_, doesAll_of_onDevice (f := fun now y => commandDeliver now (.polder i) y) rfl
      (commandDeliver_polder (s := s.at' t) hup' hq hb he (by rw [at_pol]; exact ha) (by rw [at_pol]; exact hse)), ?_, ?_⟩
    · exact vget_vset_self _ _ _ (num_lt i)
    · show ((s.at' t).modPol i _).hall.inFlight ++ _ = _
      rw [modPol_hall]
      rfl
  · intro tgt a f hr ht hf hl hp
    exact doesAll_of_onDevice (f := fun now y => targetReply now tgt y) rfl (targetReply_answer (s := s.at' t) hr ht hf hl hp)
  · intro tgt f hi ht hl hp hd hr
    exact doesAll_of_onDevice (f := fun now y => replyTimeout now tgt y) rfl (replyTimeout_of_due (s := s.at' t) hi ht hl hp hd hr)
  · intro tgt q hq hd
    exact doesAll_of_onDevice (f := fun now y => deliveryTimeout now tgt y) rfl (deliveryTimeout_of_due (s := s.at' t) hq hd)
  · intro k x hx hd
    have hopen : (sessOf (s.at' t).hall k).isSome = true := by
      rw [show sessOf (s.at' t).hall k = some x from hx]
      rfl
    obtain ⟨hnone, hfree⟩ := closeSession_closed (s.clock t) k (some 0) hopen
    exact ⟨_, doesAll_of_onDevice (f := fun now y => sessionTimeout now k y) rfl (sessionTimeout_of_due (s := s.at' t) hx hd), hnone, hfree,
      fun j hj => closeSession_others (s.clock t) k (some 0) (s.at' t) hj⟩
  · intro k l hl hd
    exact ⟨_, doesAll_of_onDevice (f := fun now y => tokenLapse now k y) rfl rfl, tokenLapse_fields (s := s.at' t) hl hd⟩
  · exact ⟨_, does_onApply (bit := 0) rfl hup (by decide) (applyWrite_go _ _), staged_applyHeld _ _, fun o ho => hap_applyHeld _ _ ho⟩
  · have ha := applied_foldl_hwr (fun o : Nat => o) (fun h o => hap h o) heldOffs (s.at' t).hall
    refine ⟨_, does_onApply (bit := 1) rfl hup (by decide) (applyWrite_discard _ _), hallStaged_of_eq fun o ho => ?_, ha⟩
    refine (hrd_discardHeld (s.at' t) ho).trans ?_
    unfold hap
    rw [show (discardHeld (s.at' t)).hall.applied = (s.at' t).hall.applied from ha]
  · exact ⟨_, does_onApply (bit := 2) rfl hup (by decide) (applyWrite_clear _ _), fun k hk => hrd_clearCounters (s.at' t) hk,
      applied_foldl_hwr (fun k : Nat => A.HAL_CMDS + 4 * k) (fun _ _ => 0) (List.range 10) (s.at' t).hall⟩

end Sys2Proof.Machine
end

section
/-!
SUPPORT. The direct accesses of a master: the row of an access on a polder that the master reaches, and what a write of a register that orders
something hands to its action.
-/
namespace Sys2Proof.Machine
open Sys2Proof

section
variable {k : Instr} {s : State} {t now off : Nat} {i : PolderId} {m : Master} {v : Word} {p q : Polder}

/-! ### The row of an access -/

theorem does_of_access {f : Nat → State → State} {g : Nat → Polder → Polder} (h : Accesses s t i m now p) (he : exec k s = onPart t i s f)
    (hf : ∀ n y, f n y = if live y m && awake (y.pol i) then y.modPol i (fun q => polish n (g n q)) else y) (hq : g now p = q) :
    Does k s t i q := by
  obtain ⟨hp, ha, hl, -, rfl, rfl⟩ := h
  have hl' : live (s.at' t) m = true := hl
  unfold Does
  rw [he, onPart_eq _ _ _ _ hp, hf, at_pol, hl', ha, ← hq, ← leaves_modPol]
  rfl

theorem does_of_onWrite (h : Accesses s t i m now p) (he : exec k s = onWrite t i m off v s) (hq : (busWrite now m i off v p).2 = q) :
    Does k s t i q := by
  have hn := h.2.2.2.1
  cases m with
  | mon j => exact absurd rfl (hn j)
  | _ => exact does_of_access (g := fun n x => (busWrite n _ i off v x).2) h he (fun _ _ => rfl) hq

theorem does_of_onRead (h : Accesses s t i m now p) (he : exec k s = onRead t i m off s) (hq : (busRead s.part now m i off p).2 = q) :
    Does k s t i q := by
  have hn := h.2.2.2.1
  cases m with
  | mon j => exact absurd rfl (hn j)
  | _ => exact does_of_access (g := fun n x => (busRead s.part n _ i off x).2) h he (fun _ _ => rfl) hq

theorem Accesses.id_ne_mon (h : Accesses s t i m now p) : m.id ≠ 5 := by
  have hn := h.2.2.2.1
  cases m with
  | mon j => exact absurd rfl (hn j)
  | _ => simp [Master.id]

theorem Accesses.id_range (h : Accesses s t i m now p) : 1 ≤ m.id ∧ m.id ≤ 4 := by
  have hn := h.2.2.2.1
  cases m with
  | mon j => exact absurd rfl (hn j)
  | _ => simp [Master.id]

/-! ### A write of a register of the map -/

/-- A register in its row of the map: no memory, mailbox or lock stands at the offset. -/
def mapped (off : Nat) : Bool :=
  off % 4 == 0 && !inTable off && !inMemory off && (dataQueue off).isNone && (lockIndex off).isNone

theorem busWrite_of_mapped {r : RegRow} {n : Nat} (hr : reaches m i off = true) (hm : mapped off = true) (hrow : polRow off = some (r, n)) :
    busWrite now m i off v p = writeReg now m.id off v r p := by
  simp only [mapped, Bool.and_eq_true, Bool.not_eq_true', beq_iff_eq, Option.isNone_iff_eq_none] at hm
  obtain ⟨⟨⟨⟨h4, ht⟩, hi⟩, hd⟩, hl⟩ := hm
  unfold busWrite
  simp only [hr, Bool.not_true, Bool.false_eq_true, if_false, h4, ne_eq, not_true_eq_false, ht, hi, hd, hl, hrow]

/-- The polder with a word of one register written, and its cycle's record. -/
def Touched (off : Nat) (p q : Polder) : Prop := ∃ w c, q = { wr p off w with cyc := c }

theorem Touched.rd (h : Touched off p q) {o : Nat} (ho : o ≠ off) : rd q o = rd p o := by
  obtain ⟨w, c, rfl⟩ := h
  exact rd_wr_ne p w ho

theorem Touched.fget (h : Touched off p q) {f : Fld} (ho : f.off ≠ off) : fget q f = fget p f := by
  unfold Machine.fget
  rw [h.rd ho]

/-- The register orders something: a direct write of `v` reaches its action with the bits of its WO fields. -/
def ordering (off : Nat) (v : Word) : Bool :=
  mapped off && !isBuffered off && off != A.FIO_DODIAG && off != A.FIO_DOCMD && off != A.PCT_HBEAT && (statQueue off).isNone && match polRow off with
    | some (r, _) => accMask r [.rw, .w1c, .wo] != 0 && fieldsOk r [.rw, .wo] (BitVec.allOnes 32) v && accMask r [.rw] == 0
    | none => false

/-- The bits of the WO fields. -/
def orderBits (off : Nat) : Word := match polRow off with
  | some (r, _) => accMask r [.wo]
  | none => 0

theorem touched_noted (id : Nat) (bits w v : Word) : Touched off p (wr (noted now id off bits v p) off w) := by
  unfold noted directWrote
  split
  · exact ⟨w, _, rfl⟩
  · exact ⟨w, p.cyc, rfl⟩

theorem busWrite_of_ordering (h5 : m.id ≠ 5) (hr : reaches m i off = true) (ho : ordering off v = true) :
    ∃ x, Touched off p x ∧ (busWrite now m i off v p).2 = writeAction now (now / cyc) m.id off (v &&& orderBits off) v x := by
  simp only [ordering, Bool.and_eq_true, Bool.not_eq_true', bne_iff_ne, Option.isNone_iff_eq_none] at ho
  obtain ⟨⟨⟨⟨⟨⟨hm, hb⟩, hdi⟩, hdo⟩, hhb⟩, hst⟩, hrow⟩ := ho
  cases hw : polRow off with
  | none => simp [hw] at hrow
  | some x =>
    obtain ⟨r, n⟩ := x
    simp only [hw, Bool.and_eq_true, bne_iff_ne] at hrow
    obtain ⟨⟨hacc, hok⟩, -⟩ := hrow
    have hpl : plainReg off = true := by
      simp only [mapped, Bool.and_eq_true] at hm
      simp [plainReg, hb, hdo, hm.1.2, hm.2]
    have hbits : orderBits off = accMask r [.wo] := by
      unfold orderBits
      rw [hw]
    rw [busWrite_of_mapped hr hm hw]
    unfold writeReg
    simp only [h5, false_and, if_false, hb, Bool.false_eq_true, hdi, directWord, hacc, hok, Bool.not_true, hst, hpl, Bool.true_and, hhb,
      bne_iff_ne, ne_eq, not_false_eq_true, Bool.or_eq_true, true_or, if_true, hdo]
    exact ⟨_, touched_noted _ _ _ _, by rw [hbits]⟩

theorem does_of_ordering {w : Word} (h : Accesses s t i m now p) (he : exec k s = onWrite t i m off v s) (hr : reaches m i off = true)
    (ho : ordering off v = true) (hw : v &&& orderBits off = w) :
    ∃ x, Touched off p x ∧ Does k s t i (writeAction now (now / cyc) m.id off w v x) := by
  obtain ⟨x, hx, hb⟩ := busWrite_of_ordering (p := p) (now := now) h.id_ne_mon hr ho
  exact ⟨x, hx, does_of_onWrite h he (hw ▸ hb)⟩

/-! ### A read of a register of the map -/

/-- What a read of a register latches. -/
def readLatch (now off : Nat) (p : Polder) : Polder :=
  if off = A.SWG_P then latchGroup p else if off = A.FLT_MTR 0 then meterLatch p else if off = A.TIM_NOW_FR then timLatch now p else p

theorem busRead_of_mapped {part : Part} (hr : reaches m i off = true) (hm : mapped off = true) (hrow : (polRow off).isSome = true) :
    (busRead part now m i off p).2 = readLatch now off p := by
  simp only [mapped, Bool.and_eq_true, Bool.not_eq_true', beq_iff_eq, Option.isNone_iff_eq_none] at hm
  obtain ⟨⟨⟨⟨h4, -⟩, hi⟩, hd⟩, hl⟩ := hm
  obtain ⟨⟨r, n⟩, hw⟩ := Option.isSome_iff_exists.mp hrow
  unfold busRead
  simp only [hr, Bool.not_true, Bool.false_eq_true, if_false, h4, ne_eq, not_true_eq_false, hi, hd, hl, hw]
  rfl

end

end Sys2Proof.Machine
end

section
/-!
SUPPORT. Mailbox queues and locks (R428 to R436): a push into a queue with room, a pop in a cycle of its own, the acquisition of a free lock.
-/
namespace Sys2Proof.Machine
open Sys2Proof

section
variable {now k j id : Nat} {p : Polder} {w : Word}

/-! ### A push -/

/-- The queues of a polder with one of them set. -/
theorem mbxQueue_set_self {q : Polder} (l : List MbxWord) (hk : k < 6) (h : q.eng.queues = vset p.eng.queues k l) : mbxQueue q k = l := by
  unfold mbxQueue
  rw [h]
  exact vget_vset_self _ _ _ hk

theorem mbxQueue_set_ne {q : Polder} (l : List MbxWord) (hj : j ≠ k) (h : q.eng.queues = vset p.eng.queues k l) : mbxQueue q j = mbxQueue p j := by
  unfold mbxQueue
  rw [h]
  exact vget_vset_ne _ _ _ hj

/-- The word of a push with its tag. -/
def taggedWord (p : Polder) (id : Nat) (w : Word) : MbxWord := ⟨w, BitVec.ofNat 8 (epochOf p id % 16 * 16 + id % 16)⟩

theorem mbxPush_of_room (hl : (mbxQueue p k).length < 8) (hr : (mbxCycle now k p).reset = false) :
    (mbxPush now k id w p).eng.queues = vset p.eng.queues k (mbxQueue p k ++ [taggedWord p id w]) ∧
      ∀ o, o ≠ A.MBX_STAT k → rd (mbxPush now k id w p) o = rd p o := by
  unfold mbxPush
  extract_lets l x m p1
  have hp1 : p1.eng = p.eng ∧ ∀ o, o ≠ A.MBX_STAT k → rd p1 o = rd p o := by
    unfold p1
    split
    · exact ⟨rfl, fun o ho => rd_fput_ne _ (F.MBX_STAT_EMPTY k) _ ho⟩
    · exact ⟨rfl, fun _ _ => rfl⟩
  obtain ⟨he, hrd⟩ := hp1
  rw [if_neg (by rw [show x.reset = false from hr]; exact Bool.false_ne_true), if_neg (show ¬8 ≤ l.length from Nat.not_le.mpr hl)]
  refine ⟨?_, fun o ho => (hrd o ho : _)⟩
  show vset p1.eng.queues k _ = _
  rw [he]
  rfl

theorem busWrite_mailbox {m : Master} {i : PolderId} (hk : k < 6) (hr : reaches m i (A.MBX_DATA k) = true) (hs : mbxSender k = m.id) :
    (busWrite now m i (A.MBX_DATA k) w p).2 = mbxPush now k m.id w p := by
  have hq : A.MBX_DATA k % 4 = 0 ∧ inTable (A.MBX_DATA k) = false ∧ inMemory (A.MBX_DATA k) = false ∧ dataQueue (A.MBX_DATA k) = some k := by
    have hall : ∀ k < 6, A.MBX_DATA k % 4 = 0 ∧ inTable (A.MBX_DATA k) = false ∧ inMemory (A.MBX_DATA k) = false ∧
        dataQueue (A.MBX_DATA k) = some k := by decide
    exact hall k hk
  obtain ⟨h4, ht, hi, hd⟩ := hq
  unfold busWrite
  simp only [hr, Bool.not_true, Bool.false_eq_true, if_false, h4, ne_eq, not_true_eq_false, ht, hi, hd, hs, if_true]

theorem busRead_mailbox {part : Part} {m : Master} {i : PolderId} (hk : k < 6) (hr : reaches m i (A.MBX_DATA k) = true)
    (hs : mbxReceiver k = m.id) : (busRead part now m i (A.MBX_DATA k) p).2 = (mbxPop now k p).2 := by
  have hq : A.MBX_DATA k % 4 = 0 ∧ inMemory (A.MBX_DATA k) = false ∧ dataQueue (A.MBX_DATA k) = some k := by
    have hall : ∀ k < 6, A.MBX_DATA k % 4 = 0 ∧ inMemory (A.MBX_DATA k) = false ∧ dataQueue (A.MBX_DATA k) = some k := by decide
    exact hall k hk
  obtain ⟨h4, hi, hd⟩ := hq
  unfold busRead
  simp only [hr, Bool.not_true, Bool.false_eq_true, if_false, h4, ne_eq, not_true_eq_false, hi, hd, hs, if_true]

/-! ### A pop -/

theorem queues_staleCount (p : Polder) : (staleCount k p).eng.queues = p.eng.queues := by
  unfold staleCount
  split <;> rfl

theorem eng_logRec (now source code sev : Nat) (data : List Byte) (p : Polder) : (logRec now source code sev data p).eng = p.eng := by
  obtain ⟨r, l, n, h⟩ := logRec_shape now source code sev data p
  rw [h]

theorem queues_staleLog (p : Polder) : (staleLog now k p).eng.queues = p.eng.queues := by
  unfold staleLog
  extract_lets n
  split
  · rfl
  · rw [eng_logRec]
    rfl

/-- A word at the head of a queue that its own cycle has brought nothing is taken off. -/
theorem mbxPop_of_head {x : MbxWord} {l : List MbxWord} (hq : mbxQueue p k = x :: l) (hf : (mbxCycle now k p).fresh = false)
    (hr : (mbxCycle now k p).refused = none) :
    (mbxPop now k p).2.eng.queues = vset p.eng.queues k l ∧ (l = [] → fbit (mbxPop now k p).2 (F.MBX_STAT_EMPTY k) = true) := by
  unfold mbxPop
  simp only [hq, hf, hr, Bool.false_and, Bool.false_eq_true, if_false, Option.map_none, Option.toList_none, List.isEmpty_nil, Bool.and_true,
    if_true, List.append_nil, Option.any_none]
  constructor
  · have hx (b : Bool) (f : Fld) (y : Polder) : (evtIf b f y).eng = y.eng := by cases b <;> rfl
    rw [hx]
    show (staleLog now k _).eng.queues = _
    rw [queues_staleLog]
    show vset (staleCount k p).eng.queues k l = _
    rw [queues_staleCount]
  · rintro rfl
    exact fbit_evt_self' _ (by show 29 < 32; decide) rfl

/-! ### Locks -/

/-- One master alone reads a free lock, and takes it. -/
theorem lockReads_of_free {m : Nat} (hm : 1 ≤ m ∧ m ≤ 4) (h : lockOwner p k = 0) : lockReads now [m] k p = lockTake now m k p := by
  have hf : ∀ m, 1 ≤ m → m ≤ 4 → lockFirst [m] = m := by decide +revert
  obtain ⟨h1, h4⟩ := hm
  unfold lockReads
  extract_lets first
  have hfirst : first = m := hf m h1 h4
  rw [hfirst, if_neg (by omega), List.filter_singleton]
  simp [lockRead_of_free now m h]

end

end Sys2Proof.Machine
end

section
/-!
SUPPORT. The actions of a direct write (R25, R205, R210, R262, R309, R310, R326): what a trip latches, what a clear reads, what the commands of the
learner and of the recorders leave, and the one order of a cycle.
-/
namespace Sys2Proof.Machine
open Sys2Proof

section
variable {now off : Nat} {p x : Polder}

/-! ### A latch keeps its bits (R305) -/

theorem within_sluAbortAll_TRIPSRC (now reason : Nat) (p : Polder) : rd (sluAbortAll now reason p) A.DIK_TRIPSRC = rd p A.DIK_TRIPSRC := by
  have h := (spares_sluAbortAll now reason p).fget (f := regFld A.DIK_TRIPSRC) (by decide)
  have hb : ∀ q : Polder, fget q (regFld A.DIK_TRIPSRC) = (rd q A.DIK_TRIPSRC).toNat := fun q => by
    show bitsOf (rd q A.DIK_TRIPSRC) 31 0 = _
    unfold bitsOf
    have := (rd q A.DIK_TRIPSRC).isLt
    omega
  rw [hb, hb] at h
  exact BitVec.eq_of_toNat_eq h

theorem rd_notifyTrip (p : Polder) (o : Nat) : rd (notifyTrip p) o = rd p o := by
  unfold notifyTrip notifyClass
  rfl

theorem rd_recTrip (now : Nat) (at' : Int) (p : Polder) : rd (recTrip now at' p) A.DIK_TRIPSRC = rd p A.DIK_TRIPSRC := by
  have h : Within recorderRegs p (recTrip now at' p) :=
    (within_galSource 4 p).trans (within_ite (within_capTrigger _ _ _ _) (.refl _))
  exact h _ (by unfold recorderRegs; decide)

theorem rd_latchBits_TRIPSRC {m : Nat} (hm : m ≠ 0) : rd (latchBits now m p) A.DIK_TRIPSRC = rd p A.DIK_TRIPSRC ||| wordN m := by
  unfold latchBits
  rw [if_neg hm]
  extract_lets first at' p1 q p2 p3 p4 p5
  have h1 : rd p1 A.DIK_TRIPSRC = rd p A.DIK_TRIPSRC ||| wordN m :=
    (rd_wr_ne _ _ (by decide)).trans (rd_wr_self ..)
  have h2 : rd p2 A.DIK_TRIPSRC = rd p1 A.DIK_TRIPSRC := by
    have hw : Within (fun o => o ≠ A.DIK_TRIPSRC) p1 p2 := by
      have hq : Within (fun o => o ≠ A.DIK_TRIPSRC) p1 q := within_wr p1 _ (by decide)
      clear_value q
      exact within_ite ((hq.trans (within_wrTime q _ (by decide) (by decide) (by decide))).trans (within_wr _ _ (by decide))) (.refl _)
    exact hw _ (by simp)
  clear_value p1 p2
  have h3 : rd p3 A.DIK_TRIPSRC = rd p2 A.DIK_TRIPSRC := by
    unfold p3
    split
    · exact within_enterSafe now p2 _ (by unfold safeRegs; decide)
    · rfl
  clear_value p3
  have h4 : rd p4 A.DIK_TRIPSRC = rd p3 A.DIK_TRIPSRC := by
    unfold p4
    split
    · exact within_sluAbortAll_TRIPSRC ..
    · rfl
  clear_value p4
  rw [rd_notifyTrip, within_logRec _ _ _ _ _ _ _ (by unfold logRegs; decide), rd_recTrip, h4, h3, h2, h1]

theorem latched_testBit (p : Polder) {k : Nat} (hk : k < 14) : (latched p).testBit k = (rd p A.DIK_TRIPSRC).getLsbD k := by
  unfold latched bitsOf
  rw [Nat.testBit_mod_two_pow, Nat.testBit_div_two_pow, Nat.add_zero]
  simp [hk, BitVec.getLsbD]

theorem latched_swTrip (he : (enabledMask p).testBit 8 = true) : (latched (swTrip now p)).testBit 8 = true := by
  unfold swTrip
  extract_lets p1
  split
  · rw [latched_testBit _ (by decide), rd_latchBits_TRIPSRC (by decide), BitVec.getLsbD_or]
    simp [wordN]
  · next h =>
    have hl : (latched p).testBit 8 = true := by
      simpa [he] using h
    exact hl

/-! ### A clear reads neither its own register nor the cycle's record -/

theorem sourceActive_of_touched (h : Touched A.DIK_CLR p x) {k : Nat} : sourceActive x k = sourceActive p k := by
  have hrd : ∀ o, o ≠ A.DIK_CLR → rd x o = rd p o := fun o ho => h.rd ho
  have hf : ∀ f : Fld, f.off ≠ A.DIK_CLR → fget x f = fget p f := fun f hf => h.fget hf
  have hb : ∀ f : Fld, f.off ≠ A.DIK_CLR → fbit x f = fbit p f := fun f hb => by
    unfold fbit
    rw [hf f hb]
  have hl : ∀ n, linkOf x n = linkOf p n ∧ linkEn x n = linkEn p n ∧ linkUp x n = linkUp p n ∧ linkFault x n = linkFault p n ∧
      linkL2 x n = linkL2 p n ∧ (∀ s, l1Thr x n s = l1Thr p n s) ∧ rd x (A.GLK_TEMP n) = rd p (A.GLK_TEMP n) := fun n => by
    have hcfg : A.GLK_CFG n ≠ A.DIK_CLR := by unfold A.GLK_CFG A.DIK_CLR; omega
    have hstat : A.GLK_STAT n ≠ A.DIK_CLR := by unfold A.GLK_STAT A.DIK_CLR; omega
    have htemp : A.GLK_TEMP n ≠ A.DIK_CLR := by unfold A.GLK_TEMP A.DIK_CLR; omega
    have hthr : A.DIK_L1THR n ≠ A.DIK_CLR := by unfold A.DIK_L1THR A.DIK_CLR; omega
    refine ⟨?_, hb _ hcfg, ?_, hf _ hstat, hf _ hstat, fun s => ?_, hrd _ htemp⟩
    · obtain ⟨w, c, rfl⟩ := h
      rfl
    · unfold linkUp linkState
      rw [hf _ hstat]
    · unfold l1Thr
      rw [hrd _ hthr]
  have hlinks : ∀ k, sourceLinks x k = sourceLinks p k := fun k => by
    unfold sourceLinks
    have hreg : regime x = regime p := hf _ (by decide)
    have hover : ∀ n, l1Over x n = l1Over p n := fun n => by
      unfold l1Over
      simp only [(hl n).1, (hl n).2.2.2.2.2.1, hf F.DIK_L1CFG_N (by decide)]
    have hhot : ∀ n, linkHot x n = linkHot p n := fun n => by
      unfold linkHot rdN
      rw [(hl n).2.2.2.1, (hl n).2.2.2.2.2.2, hrd A.DIK_GUTMAX (by decide)]
    simp only [linkLive, hover, hhot, hreg, fun n => (hl n).2.1, fun n => (hl n).2.2.1, fun n => (hl n).2.2.2.1, fun n => (hl n).2.2.2.2.1]
  have hcmp : ((List.range 6).any fun c => fbit x (F.AFE_CMP_CFG_EN c) && (vget x.afe.cmps c {}).acting) =
      (List.range 6).any fun c => fbit p (F.AFE_CMP_CFG_EN c) && (vget p.afe.cmps c {}).acting := by
    have ha : x.afe = p.afe := by
      obtain ⟨w, c, rfl⟩ := h
      rfl
    rw [ha]
    have hc : ∀ c ∈ List.range 6, fbit x (F.AFE_CMP_CFG_EN c) = fbit p (F.AFE_CMP_CFG_EN c) := fun c hc => by
      refine hb _ ?_
      have := List.mem_range.mp hc
      show A.AFE_CMP_CFG c ≠ A.DIK_CLR
      unfold A.AFE_CMP_CFG A.DIK_CLR
      omega
    rw [Bool.eq_iff_iff, List.any_eq_true, List.any_eq_true]
    exact exists_congr fun c => and_congr_right fun hm => by rw [hc c hm]
  have hd : x.dike = p.dike := by
    obtain ⟨w, c, rfl⟩ := h
    rfl
  unfold sourceActive spbDemands
  simp only [hlinks, hcmp, hd,
    hf F.DIK_STEST_CMP_FAIL (by decide), hf F.DIK_STEST_GU_FAIL (by decide), hb F.CLK_STAT_LOCK (by decide),
    hb F.CLK_STAT_REFOK (by decide), hf F.SPB_STAT_STATE (by decide), hb F.MOD_STAT_RUN (by decide), hb F.AFE_CTRL_PLS_TRIP (by decide),
    hb F.AFE_STAT_PLS_FAULT (by decide), hb F.AFE_STAT_SHD_FAULT (by decide), hf F.PCT_ENG_CE_STATE (by decide)]

theorem clearFails_of_touched (h : Touched A.DIK_CLR p x) (m : Nat) : clearFails now m x = clearFails now m p := by
  have ha : activeMask x = activeMask p := by
    unfold activeMask
    simp only [sourceActive_of_touched h]
  have hl : latched x = latched p := by
    unfold latched
    rw [h.rd (by decide)]
  have hs : rdN x A.DIK_SETTLE = rdN p A.DIK_SETTLE := by
    unfold rdN
    rw [h.rd (by decide)]
  have hd : x.dike = p.dike := by
    obtain ⟨w, c, rfl⟩ := h
    rfl
  unfold clearFails
  simp only [ha, hl, hs, hd]

/-- A clear shows the same result and leaves the same latches, whatever its own register holds. -/
theorem dikClear_of_touched (h : Touched A.DIK_CLR p x) {m : Nat} (hm : m < 16384) :
    rd (dikClear now m x).2 A.DIK_CLRRES = rd (dikClear now m p).2 A.DIK_CLRRES ∧
      rd (dikClear now m x).2 A.DIK_TRIPSRC = rd (dikClear now m p).2 A.DIK_TRIPSRC := by
  by_cases hf : clearFails now m p = 0
  · rw [dikClear_of_none hm hf, dikClear_of_none hm ((clearFails_of_touched h m).trans hf)]
    refine ⟨(rd_wr_self ..).trans (rd_wr_self ..).symm, ?_⟩
    rw [rd_wr_ne _ _ (by decide), rd_wr_self, rd_wr_ne _ _ (by decide), rd_wr_self, h.rd (by decide)]
  · rw [dikClear_of_some hm hf, dikClear_of_some hm (by rw [clearFails_of_touched h]; exact hf), clearFails_of_touched h]
    rw [rd_evt_ne _ _ (by decide), rd_evt_ne _ _ (by decide), rd_evt_ne _ _ (by decide), rd_evt_ne _ _ (by decide), rd_wr_self, rd_wr_self,
      rd_wr_ne _ _ (by decide), rd_wr_ne _ _ (by decide), h.rd (by decide)]
    exact ⟨rfl, rfl⟩

/-! ### The recorders -/

theorem galState_galArm (h : fget p F.GAL_STAT_STATE ≠ Rec.triggered) : fget (galArm p) F.GAL_STAT_STATE = Rec.armed := by
  unfold galArm
  rw [if_neg h, fget_fput_bits _ _ (by decide), fget_fput_self _ _ _ (by decide)]
  decide

theorem galState_galTrigger (h : fget p F.GAL_STAT_STATE = Rec.armed) : fget (galTrigger p) F.GAL_STAT_STATE = Rec.triggered := by
  unfold galTrigger
  rw [if_pos h, fget_fput_self _ _ _ (by decide)]
  decide

theorem galState_galStop (h : fget p F.GAL_STAT_STATE = Rec.armed) : fget (galStop p) F.GAL_STAT_STATE = Rec.idle := by
  unfold galStop
  rw [h]
  exact (fget_fput_self _ _ _ (by decide)).trans (by decide)

/-- What drives x_FIRE shows in two bits of `CAP_STAT`, and may trigger the gallery. -/
theorem fget_capHold (p : Polder) {f : Fld} (h1 : f.hi < F.CAP_STAT_FIREPIN.lo ∨ F.CAP_STAT_FIREPIN.hi < f.lo)
    (h2 : f.hi < F.CAP_STAT_FIREHOLD.lo ∨ F.CAP_STAT_FIREHOLD.hi < f.lo) (ho : f.off ≠ A.GAL_STAT) : fget (capHold p) f = fget p f := by
  unfold capHold
  extract_lets master low c p1
  have hp1 : fget p1 f = fget p f := fget_fput_bits { p with cap := { p.cap with driving := low } } _ h2
  clear_value p1
  have hg : fget (galSource 5 p1) f = fget p1 f := by
    have hw : Within (fun o => o = A.GAL_STAT) p1 (galSource 5 p1) :=
      within_ite (within_ite (within_fput (f := F.GAL_STAT_STATE) p1 _ rfl) (.refl _)) (.refl _)
    exact hw.fget ho
  split
  · refine (fget_fput_bits _ _ h1).trans ?_
    split
    · exact hg.trans hp1
    · exact hp1
  · exact hp1

theorem capState_capHold (p : Polder) : capState (capHold p) = capState p := fget_capHold p (by decide) (by decide) (by decide)

theorem capState_capArm (h : capState p ≠ Rec.triggered) (ht : capTapOff p = false) : capState (capArm p) = Rec.armed := by
  unfold capArm
  rw [if_neg (by rw [ht]; exact fun h' => h'.elim h Bool.false_ne_true)]
  extract_lets r r1
  rw [capState_capHold]
  unfold capState
  rw [fget_fput_bits _ _ (by decide), fget_fput_self _ _ _ (by decide)]
  decide

theorem capState_capStop (h : capState p = Rec.armed) : capState (capStop p) = Rec.idle := by
  unfold capStop
  rw [h]
  show capState (capHold _) = _
  rw [capState_capHold]
  exact (fget_fput_self _ _ _ (by decide)).trans (by decide)

theorem capTrigger_of_armed {cause : Nat} (at' : Int) (h : capState p = Rec.armed) (hc : cause < 4) :
    capState (capTrigger now cause at' p) = Rec.triggered ∧ fget (capTrigger now cause at' p) F.CAP_STAT_TCAUSE = cause := by
  unfold capTrigger
  have ho : capOpen now cause p = true := by
    unfold capOpen
    rw [h]
    rfl
  rw [if_pos ho]
  extract_lets r p1 p2 pulse
  have hr : rd p2 A.CAP_STAT = rd p1 A.CAP_STAT := by
    have hw : Within (fun o => o ≠ A.CAP_STAT) p1 p2 := (within_wrTime p1 _ (by decide) (by decide) (by decide)).trans (within_wr _ _ (by decide))
    exact hw _ (by simp)
  have h1 : fget p1 F.CAP_STAT_STATE = Rec.triggered ∧ fget p1 F.CAP_STAT_TCAUSE = cause := by
    unfold p1
    constructor
    · rw [fget_fput_bits _ _ (by decide), fget_fput_self _ _ _ (by decide)]
      decide
    · rw [fget_fput_self _ _ _ (by decide)]
      exact Nat.mod_eq_of_lt hc
  have h2 : fget p2 F.CAP_STAT_STATE = Rec.triggered ∧ fget p2 F.CAP_STAT_TCAUSE = cause :=
    ⟨(congrArg (bitsOf · _ _) hr).trans h1.1, (congrArg (bitsOf · _ _) hr).trans h1.2⟩
  clear_value p2
  rw [capState_capHold, fget_capHold _ (by decide) (by decide) (by decide)]
  split <;> exact h2

/-! ### The learner -/

theorem nv_nvTouch (now sect : Nat) (p : Polder) (r : NvRecord) : (nvTouch now sect p r).nv.image = r ∧ (nvTouch now sect p r).lrn = p.lrn := by
  unfold nvTouch
  split <;> exact ⟨rfl, rfl⟩

theorem rd_sweepStart (now : Nat) (b : Bool) (lim : Int) (p : Polder) {o : Nat} (h : o ≠ A.LRN_STAT) : rd (sweepStart now b lim p) o = rd p o :=
  rd_fput_ne _ F.LRN_STAT_SWEEP 1 h

theorem lrnZero_set (now : Nat) (p : Polder) : rd (lrnZero now p) A.LRN_CYCLES = 0 ∧ ∀ k < 384, rd (lrnZero now p) (A.LRN_COEF k) = 0 := by
  unfold lrnZero
  refine ⟨(rd_sweepStart _ _ _ _ (by decide)).trans (rd_wr_self ..), fun k hk => ?_⟩
  have hs : A.LRN_COEF k ≠ A.LRN_STAT := by unfold A.LRN_COEF A.LRN_STAT; omega
  have hc : A.LRN_COEF k ≠ A.LRN_CYCLES := by unfold A.LRN_COEF A.LRN_CYCLES; omega
  rw [rd_sweepStart _ _ _ _ hs, rd_wr_ne _ _ hc]
  exact rd_wrAll_run p (A.LRN_COEF 0) 384 (fun _ => 0) hk

theorem sweepOfLoad_set (now : Nat) (lim : Int) {w : Word} (h : rd p A.LRN_CYCLES = w) :
    fbit (evt F.LRN_EVT_WARM_OK (sweepStart now false lim { p with lrn := { p.lrn with restoring := true } })) F.LRN_EVT_WARM_OK = true ∧
      rd (evt F.LRN_EVT_WARM_OK (sweepStart now false lim { p with lrn := { p.lrn with restoring := true } })) A.LRN_CYCLES = w := by
  refine ⟨fbit_evt_self' _ (by decide) rfl, ?_⟩
  rw [rd_evt_ne _ _ (by decide), rd_sweepStart _ _ _ _ (by decide)]
  exact h

theorem lrnLoad_set (now : Nat) (s : LrnSave) (p : Polder) :
    fbit (lrnLoad now s p) F.LRN_EVT_WARM_OK = true ∧ rd (lrnLoad now s p) A.LRN_CYCLES = wordN s.cycles :=
  sweepOfLoad_set now _ (rd_wr_self ..)

/-- What the learner's checks read is none of its command register. -/
theorem lrnChecks_of_touched (h : Touched A.LRN_CMD p x) : lrnOff x = lrnOff p ∧ goodSection x = goodSection p := by
  have hl : x.lrn = p.lrn := by
    obtain ⟨w, c, rfl⟩ := h
    rfl
  have hfit : ∀ s, sectionFits x s = sectionFits p s := fun s => by
    unfold sectionFits
    rw [h.rd (by decide), h.rd (by decide), h.fget (by decide), h.fget (by decide)]
  constructor
  · unfold lrnOff
    rw [h.fget (by decide)]
  · unfold goodSection
    simp only [hl, hfit]

/-! ### One order alone in its cycle (R326) -/

theorem orders_of_one {c id mask v : Nat} (hid : id ≠ 3 ∧ id ≠ 5) (h : p.cyc.ordersIn c = []) :
    orders now c [(id, mask, v)] p = ordered c id (mask % 16) (order now (mask % 16) v p) := by
  obtain ⟨h3, h5⟩ := hid
  have hm : mask % 16 &&& 15 = mask % 16 := (Nat.and_two_pow_sub_one_eq_mod (mask % 16) 4).trans (Nat.mod_mod _ _)
  have hx : mask % 16 &&& (15 ^^^ 0) = mask % 16 := hm
  unfold orders orderOne
  simp only [List.foldl_cons, List.foldl_nil, h3, h5, or_self, if_false, h, List.filter_nil, List.map_nil, List.isEmpty_nil, if_true,
    List.append_nil, ite_self, hm, hx]

theorem docmd_order (mask v : Nat) : docmd (order now mask v p) = ((docmd p &&& (15 ^^^ mask % 16)) ||| (v % 16 &&& mask % 16)) := by
  have h16 : ((docmd p &&& (15 ^^^ mask % 16)) ||| (v % 16 &&& mask % 16)) < 16 := by
    refine Nat.or_lt_two_pow (n := 4) (lt_of_le_of_lt Nat.and_le_right (Nat.xor_lt_two_pow (n := 4) (by decide) ?_)) ?_
    · exact Nat.mod_lt _ (by decide)
    · exact lt_of_le_of_lt Nat.and_le_left (Nat.mod_lt _ (by decide))
  unfold order
  extract_lets m cmd p1 p2
  have h1 : docmd p1 = cmd := (fget_fput_self _ _ _ (by decide)).trans (Nat.mod_eq_of_lt h16)
  have h2 : docmd p2 = docmd p1 := by
    have hw : Within (fun _ => False) p1 p2 := within_foldl _ _ p1 fun q k _ => within_ite (within_of_regs rfl) (.refl q)
    exact hw.fget (fun h => h)
  rw [(sameOrders_drive now p2).1, h2, h1]

end

end Sys2Proof.Machine
end

section
/-!
SUPPORT. The direct accesses of a master: each row with the effect of its register.
-/
namespace Sys2Proof.Machine
open Sys2Proof

section
variable {s : State} {t now off : Nat} {i : PolderId} {m : Master} {v : Word} {p : Polder}

theorem directRegisterWrite_does (h : Accesses s t i m now p) {addr : Nat} (ha : addr / 16777216 = 0x40 + (i.num - 1)) :
    Does (.directRegisterWrite t m addr v) s t i (busWrite now m i (addr % 16777216) v p).2 := by
  have hw : windowAt addr = some (.polder i) := by
    unfold windowAt
    rw [ha]
    cases i <;> rfl
  refine does_of_onWrite (off := addr % 16777216) (v := v) h ?_ rfl
  show execDirectRegisterWrite t m addr v s = _
  obtain ⟨hp, -, -, hn, -, -⟩ := h
  cases m with
  | mon j => exact absurd rfl (hn j)
  | _ =>
    unfold execDirectRegisterWrite
    simp only [hw, hp, if_true]

theorem meterLatch_does (h : Accesses s t i m now p) (hr : reaches m i (A.FLT_MTR 0) = true) : Does (.meterLatch t i m) s t i (meterLatch p) :=
  does_of_onRead (off := A.FLT_MTR 0) h rfl (busRead_of_mapped hr (by decide +kernel) (by decide +kernel))

theorem timLatch_now (now : Nat) (p : Polder) : rd (timLatch now p) A.TIM_NOW_FR = wordN (fracOf (presented p now)) ∧
    rd (timLatch now p) A.TIM_NOW_NS = wordN (nanosOf (presented p now)) ∧
    rd (timLatch now p) A.TIM_NOW_SL = wordN (secsOf (presented p now) % 4294967296) := by
  unfold timLatch wrTime
  refine ⟨?_, ?_, ?_⟩
  · rw [rd_wr_ne _ _ (by decide), rd_wr_ne _ _ (by decide), rd_wr_ne _ _ (by decide), rd_wr_self]
  · rw [rd_wr_ne _ _ (by decide), rd_wr_ne _ _ (by decide), rd_wr_self]
  · rw [rd_wr_ne _ _ (by decide), rd_wr_self]

theorem timeLatch_does (h : Accesses s t i m now p) (hr : reaches m i A.TIM_NOW_FR = true) : Does (.timeLatch t i m) s t i (timLatch now p) :=
  does_of_onRead (off := A.TIM_NOW_FR) h rfl (busRead_of_mapped hr (by decide +kernel) (by decide +kernel))

theorem mailboxPush_does {k : Nat} (h : Accesses s t i m now p) (hk : k < 6) (hr : reaches m i (A.MBX_DATA k) = true) (hs : mbxSender k = m.id) :
    Does (.mailboxPush t i m false k v) s t i (mbxPush now k m.id v p) := by
  refine does_of_onWrite (off := A.MBX_DATA k) (v := v) h ?_ (busWrite_mailbox hk hr hs)
  show execMailboxPush t i m false k v s = _
  unfold execMailboxPush
  rw [if_neg (by omega)]
  rfl

theorem mailboxPop_does {k : Nat} (h : Accesses s t i m now p) (hk : k < 6) (hr : reaches m i (A.MBX_DATA k) = true) (hs : mbxReceiver k = m.id) :
    Does (.mailboxPop t i m k) s t i (mbxPop now k p).2 := by
  refine does_of_onRead (off := A.MBX_DATA k) h ?_ (busRead_mailbox hk hr hs)
  show execMailboxPop t i m k s = _
  unfold execMailboxPop
  rw [if_neg (by omega)]

theorem lockAcquire_does {k : Nat} (h : Accesses s t i m now p) (hk : k < 16) (hr : reaches m i (A.MBX_LOCK k) = true) (ho : lockOwner p k = 0) :
    DoesAll (.lockAcquire t i [m] k) s t ((s.at' t).setPol i (lockTake now m.id k p)) := by
  have hid := h.id_range
  obtain ⟨hp, ha, hl, hn, rfl, rfl⟩ := h
  have hl' : live (s.at' t) m = true := hl
  have hreads : execLockAcquire.reads i k (s.at' t) m = true := by
    unfold execLockAcquire.reads
    rw [hl', hr]
    cases m with
    | mon j => exact absurd rfl (hn j)
    | _ => rfl
  unfold DoesAll
  show execLockAcquire t i [m] k s = _
  unfold execLockAcquire
  rw [onPart_eq _ _ _ _ hp, at_pol, ha]
  simp only [hk, decide_true, Bool.and_self, if_true, List.filter_cons, hreads, List.filter_nil, List.map_cons, List.map_nil]
  unfold State.modPol
  rw [at_pol, lockReads_of_free hid ho]

/-- The double-buffered registers (R184). -/
def bufferedRegs : List Nat := [A.MOD_PER, A.MOD_CMP 0, A.MOD_CMP 1, A.MOD_CMP 2, A.MOD_CMP 3, A.MOD_TTMR 0, A.MOD_TTMR 1, A.MOD_TTMR 2]

theorem bufferedRegs_of_isBuffered (hb : isBuffered off = true) : off ∈ bufferedRegs := by
  simp only [isBuffered, Bool.or_eq_true, Bool.and_eq_true, beq_iff_eq, decide_eq_true_eq, A.MOD_PER, A.MOD_CMP, A.MOD_TTMR] at hb
  simp only [bufferedRegs, List.mem_cons, List.not_mem_nil, or_false, A.MOD_PER, A.MOD_CMP, A.MOD_TTMR]
  omega

theorem bufferedWrite_does (h : Accesses s t i m now p) (hb : isBuffered off = true) (hr : reaches m i off = true) :
    Does (.bufferedWrite t i m off v) s t i (bufferedWrite now off v (noted now m.id off (BitVec.allOnes 32) v p)) := by
  have hmap : mapped off = true ∧ (polRow off).isSome = true := by
    have hall : ∀ o ∈ bufferedRegs, mapped o = true ∧ (polRow o).isSome = true := by decide +kernel
    exact hall off (bufferedRegs_of_isBuffered hb)
  obtain ⟨⟨r, n⟩, hw⟩ := Option.isSome_iff_exists.mp hmap.2
  refine does_of_onWrite (off := off) (v := v) h ?_ ?_
  · show execBufferedWrite t i m off v s = _
    unfold execBufferedWrite
    rw [if_pos hb]
  · rw [busWrite_of_mapped hr hmap.1 hw]
    unfold writeReg
    rw [if_neg (fun hc => h.id_ne_mon hc.1), if_pos hb]

theorem learnerTableWrite_does (h : Accesses s t i m now p) (h4 : off % 4 = 0) (ht : inTable off = true) (hr : reaches m i off = true)
    (ho : lrnOff p = true) :
    Does (.learnerTableWrite t i m off v) s t i { wr p off v with lrn := { p.lrn with bad := p.lrn.bad.filter (· != off) } } := by
  refine does_of_onWrite (off := off) (v := v) h ?_ ?_
  · show execLearnerTableWrite t i m off v s = _
    unfold execLearnerTableWrite
    rw [if_pos ht]
  · unfold busWrite
    simp only [hr, Bool.not_true, Bool.false_eq_true, if_false, h4, ne_eq, not_true_eq_false, ht, if_true, ho]

theorem outputOrder_does {mask w : Nat} (h : Accesses s t i m now p) (hr : reaches m i A.FIO_DOCMD = true) :
    Does (.outputOrder t i [(m, mask, w)]) s t i (orders now (now / cyc) [(m.id, mask, w)] p) := by
  obtain ⟨hp, ha, hl, hn, rfl, rfl⟩ := h
  have hl' : live (s.at' t) m = true := hl
  have hlist : ([1, 2, 3, 4, 5].flatMap fun id => execOutputOrder.of i [(m, mask, w)] (s.at' t) id) = [(m.id, mask, w)] := by
    cases m with
    | mon j => exact absurd rfl (hn j)
    | _ => simp [execOutputOrder.of, execOutputOrder.may, hl', hr, Master.id]
  unfold Does
  show execOutputOrder t i [(m, mask, w)] s = _
  unfold execOutputOrder
  rw [onPart_eq _ _ _ _ hp, at_pol, ha, ← leaves_modPol, hlist]
  rfl

end

end Sys2Proof.Machine
end

section
/-!
SUPPORT. The orders of a direct write by their registers: the action of each bit, and the rows that write it.
-/
namespace Sys2Proof.Machine
open Sys2Proof

section
variable {s : State} {t now : Nat} {i : PolderId} {m : Master} {p x : Polder}

/-! ### Actions of a bit -/

theorem action_galleryArm (c id : Nat) : writeAction now c id A.GAL_CMD 1#32 1#32 x = galArm x := rfl
theorem action_galleryForce (c id : Nat) : writeAction now c id A.GAL_CMD 2#32 2#32 x = galTrigger x := rfl
theorem action_galleryStop (c id : Nat) : writeAction now c id A.GAL_CMD 4#32 4#32 x = galStop x := rfl
theorem action_captureArm (c id : Nat) : writeAction now c id A.CAP_CMD 1#32 1#32 x = capArm x := rfl
theorem action_captureForce (c id : Nat) : writeAction now c id A.CAP_CMD 2#32 2#32 x = capTrigger now 2 (cycleStamp x now) x := rfl
theorem action_captureStop (c id : Nat) : writeAction now c id A.CAP_CMD 4#32 4#32 x = capStop x := rfl
theorem action_learnerSave (c id : Nat) : writeAction now c id A.LRN_CMD 1#32 1#32 x = lrnSave now x := rfl
theorem action_learnerRestore (c id : Nat) : writeAction now c id A.LRN_CMD 2#32 2#32 x = lrnRestore now x := rfl
theorem action_learnerClear (c id : Nat) : writeAction now c id A.LRN_CMD 4#32 4#32 x = lrnClear now x := rfl
theorem action_learnerErase (c id : Nat) : writeAction now c id A.LRN_CMD 8#32 8#32 x = lrnErase now x := rfl
theorem action_cntclrEmb (c id : Nat) : writeAction now c id A.EMB_CNTCLR 1#32 1#32 x = embClear now x := rfl
theorem action_swtrip (c id : Nat) : writeAction now c id A.DIK_SWTRIP 1#32 1#32 x = swTrip now x := rfl
theorem action_qpop (c id : Nat) : writeAction now c id A.FIO_QPOP 1#32 1#32 x = queuePop x := rfl
theorem action_dikClr (c id : Nat) (w v : Word) : writeAction now c id A.DIK_CLR w v x = (dikClear now (bitsOf (v &&& w) 13 0) x).2 := rfl
theorem action_dkhreqTrip (c : Nat) : writeAction now c 4 A.PCT_DKHREQ 4#32 4#32 x = swTrip now x := rfl
theorem action_dkhreqStop (c : Nat) {mode : Nat} (h : mode < 2) :
    writeAction now c 4 A.PCT_DKHREQ (wordN (2 + mode)) (wordN (2 + mode)) x = modRgm (fun r => { r with dkhStop := some mode }) x := by
  interval_cases mode <;> rfl

/-! ### A register of which every word is allowed -/

/-- Every code of the directly written fields is in range. -/
def freeFields (off : Nat) : Bool := match polRow off with
  | some (r, _) => r.fields.all fun f => match f.rng with
    | .any => true
    | _ => false
  | none => false

theorem ordering_of_freeFields {off : Nat} (v : Word) (hf : freeFields off = true) (h : ordering off 0 = true) : ordering off v = true := by
  unfold freeFields at hf
  unfold ordering at h ⊢
  cases hr : polRow off with
  | none => simp [hr] at hf
  | some e =>
    obtain ⟨r, n⟩ := e
    have hok : fieldsOk r [.rw, .wo] (BitVec.allOnes 32) v = true := by
      simp only [hr, List.all_eq_true] at hf
      unfold fieldsOk
      rw [List.all_eq_true]
      intro f hm
      have ha := hf f hm
      have hrng : f.rng = .any := by
        cases hg : f.rng <;> simp_all
      rw [hrng]
      simp [rngOk]
    rw [hr] at h
    simp only [Bool.and_eq_true] at h ⊢
    obtain ⟨h1, ⟨h2, -⟩, h3⟩ := h
    exact ⟨h1, ⟨h2, hok⟩, h3⟩

end

end Sys2Proof.Machine
end

section
/-!
SUPPORT. The rows that a master carries out directly, each with its effect (spec/01, spec/15).
-/
namespace Sys2Proof.Machine
open Sys2Proof

section
variable {s : State} {t now : Nat} {i : PolderId} {m : Master} {p : Polder}

theorem gallery_orders (h : Accesses s t i m now p) (hr : reaches m i A.GAL_CMD = true) :
    (fget p F.GAL_STAT_STATE ≠ Rec.triggered → ∃ q, Does (.galleryArm t i m) s t i q ∧ fget q F.GAL_STAT_STATE = Rec.armed) ∧
    (fget p F.GAL_STAT_STATE = Rec.armed → (∃ q, Does (.galleryForce t i m) s t i q ∧ fget q F.GAL_STAT_STATE = Rec.triggered) ∧
      ∃ q, Does (.galleryStop t i m) s t i q ∧ fget q F.GAL_STAT_STATE = Rec.idle) := by
  refine ⟨fun hs => ?_, fun hs => ⟨?_, ?_⟩⟩
  · obtain ⟨x, hx, hd⟩ := does_of_ordering (k := .galleryArm t i m) (v := 1#32) (w := 1#32) h rfl hr (by decide +kernel) (by decide +kernel)
    exact ⟨galArm x, hd, galState_galArm ((hx.fget (by decide)).trans_ne hs)⟩
  · obtain ⟨x, hx, hd⟩ := does_of_ordering (k := .galleryForce t i m) (v := 2#32) (w := 2#32) h rfl hr (by decide +kernel) (by decide +kernel)
    exact ⟨galTrigger x, hd, galState_galTrigger ((hx.fget (by decide)).trans hs)⟩
  · obtain ⟨x, hx, hd⟩ := does_of_ordering (k := .galleryStop t i m) (v := 4#32) (w := 4#32) h rfl hr (by decide +kernel) (by decide +kernel)
    exact ⟨galStop x, hd, galState_galStop ((hx.fget (by decide)).trans hs)⟩

theorem capture_orders (h : Accesses s t i m now p) (hr : reaches m i A.CAP_CMD = true) :
    (capState p ≠ Rec.triggered → capTapOff p = false → ∃ q, Does (.captureArm t i m) s t i q ∧ capState q = Rec.armed) ∧
    (capState p = Rec.armed → (∃ q, Does (.captureForce t i m) s t i q ∧ capState q = Rec.triggered ∧ fget q F.CAP_STAT_TCAUSE = 2) ∧
      ∃ q, Does (.captureStop t i m) s t i q ∧ capState q = Rec.idle) := by
  have hst : ∀ x, Touched A.CAP_CMD p x → capState x = capState p := fun x hx => hx.fget (by decide)
  refine ⟨fun hs ht => ?_, fun hs => ⟨?_, ?_⟩⟩
  · obtain ⟨x, hx, hd⟩ := does_of_ordering (k := .captureArm t i m) (v := 1#32) (w := 1#32) h rfl hr (by decide +kernel) (by decide +kernel)
    have htx : capTapOff x = false := by
      unfold capTapOff at ht ⊢
      rw [hx.fget (by decide), hx.fget (by decide)]
      exact ht
    exact ⟨capArm x, hd, capState_capArm ((hst x hx).trans_ne hs) htx⟩
  · obtain ⟨x, hx, hd⟩ := does_of_ordering (k := .captureForce t i m) (v := 2#32) (w := 2#32) h rfl hr (by decide +kernel) (by decide +kernel)
    exact ⟨capTrigger now 2 (cycleStamp x now) x, hd, capTrigger_of_armed _ ((hst x hx).trans hs) (by decide)⟩
  · obtain ⟨x, hx, hd⟩ := does_of_ordering (k := .captureStop t i m) (v := 4#32) (w := 4#32) h rfl hr (by decide +kernel) (by decide +kernel)
    exact ⟨capStop x, hd, capState_capStop ((hst x hx).trans hs)⟩

theorem learner_orders (h : Accesses s t i m now p) (hr : reaches m i A.LRN_CMD = true) :
    ((∃ q, Does (.learnerSave t i m) s t i q ∧ q.lrn.saving = true ∧ q.nv.image.learner.isSome = true) ∧
      ∃ q, Does (.learnerErase t i m) s t i q ∧ q.nv.image.learner = none) ∧
    (lrnOff p = true → ∃ q, Does (.learnerClear t i m) s t i q ∧ rd q A.LRN_CYCLES = 0 ∧ ∀ k < 384, rd q (A.LRN_COEF k) = 0) ∧
    (∀ x, lrnOff p = true → goodSection p = some x →
      ∃ q, Does (.learnerRestore t i m) s t i q ∧ fbit q F.LRN_EVT_WARM_OK = true ∧ rd q A.LRN_CYCLES = wordN x.cycles) := by
  refine ⟨⟨?_, ?_⟩, fun ho => ?_, fun y ho hg => ?_⟩
  · obtain ⟨x, -, hd⟩ := does_of_ordering (k := .learnerSave t i m) (v := 1#32) (w := 1#32) h rfl hr (by decide +kernel) (by decide +kernel)
    obtain ⟨hi, hl⟩ := nv_nvTouch now 5 { x with lrn := { x.lrn with saving := true } } { x.nv.image with learner := some (learnerSection now x) }
    exact ⟨lrnSave now x, hd, congrArg LrnState.saving hl, by rw [show (lrnSave now x).nv.image = _ from hi]; rfl⟩
  · obtain ⟨x, -, hd⟩ := does_of_ordering (k := .learnerErase t i m) (v := 8#32) (w := 8#32) h rfl hr (by decide +kernel) (by decide +kernel)
    obtain ⟨hi, -⟩ := nv_nvTouch now 5 x { x.nv.image with learner := none }
    exact ⟨lrnErase now x, hd, congrArg NvRecord.learner hi⟩
  · obtain ⟨x, hx, hd⟩ := does_of_ordering (k := .learnerClear t i m) (v := 4#32) (w := 4#32) h rfl hr (by decide +kernel) (by decide +kernel)
    refine ⟨lrnClear now x, hd, ?_⟩
    unfold lrnClear
    rw [(lrnChecks_of_touched hx).1, ho]
    exact lrnZero_set now x
  · obtain ⟨x, hx, hd⟩ := does_of_ordering (k := .learnerRestore t i m) (v := 2#32) (w := 2#32) h rfl hr (by decide +kernel) (by decide +kernel)
    refine ⟨lrnRestore now x, hd, ?_⟩
    obtain ⟨hoff, hgood⟩ := lrnChecks_of_touched hx
    unfold lrnRestore
    rw [hoff, ho, hgood, hg]
    exact lrnLoad_set now y x

theorem dike_orders (h : Accesses s t i m now p) :
    (reaches m i A.DIK_SWTRIP = true → (enabledMask p).testBit 8 = true → ∃ q, Does (.swtrip t i m) s t i q ∧ (latched q).testBit 8 = true) ∧
    (∀ mask, mask < 16384 → reaches m i A.DIK_CLR = true → ∃ q, Does (.dikClr t i m mask) s t i q ∧
      rd q A.DIK_CLRRES = rd (dikClear now mask p).2 A.DIK_CLRRES ∧ rd q A.DIK_TRIPSRC = rd (dikClear now mask p).2 A.DIK_TRIPSRC) ∧
    (m = .dkh → (enabledMask p).testBit 8 = true → ∃ q, Does (.dkhreqTrip t i) s t i q ∧ (latched q).testBit 8 = true) := by
  have hen : ∀ {off : Nat} {x : Polder}, off ≠ A.DIK_TRIPEN → Touched off p x → enabledMask x = enabledMask p := fun ho hx => by
    unfold enabledMask
    rw [hx.rd ho.symm]
  refine ⟨fun hr he => ?_, fun mask hm hr => ?_, fun hd he => ?_⟩
  · obtain ⟨x, hx, hd⟩ := does_of_ordering (k := .swtrip t i m) (v := 1#32) (w := 1#32) h rfl hr (by decide +kernel) (by decide +kernel)
    exact ⟨swTrip now x, hd, latched_swTrip (by rw [hen (by decide) hx]; exact he)⟩
  · have hmask : (wordN (mask % 16384) &&& orderBits A.DIK_CLR) = wordN (mask % 16384) := by
      have hb : orderBits A.DIK_CLR = 0x3FFF#32 := by decide +kernel
      rw [hb, Nat.mod_eq_of_lt hm]
      refine BitVec.eq_of_toNat_eq ?_
      rw [BitVec.toNat_and]
      show (mask % 2 ^ 32) &&& (2 ^ 14 - 1) = mask % 2 ^ 32
      rw [Nat.and_two_pow_sub_one_eq_mod]
      omega
    obtain ⟨x, hx, hd⟩ := does_of_ordering (k := .dikClr t i m mask) h rfl hr
      (ordering_of_freeFields (wordN (mask % 16384)) (by decide +kernel) (by decide +kernel)) hmask
    have hbits : bitsOf (wordN (mask % 16384) &&& wordN (mask % 16384)) 13 0 = mask := by
      rw [BitVec.and_self, Nat.mod_eq_of_lt hm]
      show mask % 2 ^ 32 / 2 ^ 0 % 2 ^ 14 = mask
      omega
    rw [action_dikClr, hbits] at hd
    exact ⟨_, hd, dikClear_of_touched hx hm⟩
  · subst hd
    obtain ⟨x, hx, hd⟩ := does_of_ordering (k := .dkhreqTrip t i) (v := 4#32) (w := 4#32) h rfl rfl (by decide +kernel) (by decide +kernel)
    exact ⟨swTrip now x, hd, latched_swTrip (by rw [hen (by decide) hx]; exact he)⟩

theorem dkhreqStop_does (mode : Nat) (h : Accesses s t i .dkh now p) :
    ∃ q, Does (.dkhreqStop t i mode) s t i q ∧ q.rgm.dkhStop = some (mode % 2) := by
  have hm : mode % 2 < 2 := Nat.mod_lt _ (by decide)
  have hv : ordering A.PCT_DKHREQ (wordN (2 + mode % 2)) = true ∧ wordN (2 + mode % 2) &&& orderBits A.PCT_DKHREQ = wordN (2 + mode % 2) := by
    have hall : ∀ k < 2, ordering A.PCT_DKHREQ (wordN (2 + k)) = true ∧ wordN (2 + k) &&& orderBits A.PCT_DKHREQ = wordN (2 + k) := by decide +kernel
    exact hall _ hm
  obtain ⟨x, -, hd⟩ := does_of_ordering (k := .dkhreqStop t i mode) (v := wordN (2 + mode % 2)) h rfl rfl hv.1 hv.2
  rw [show Master.id .dkh = 4 from rfl, action_dkhreqStop _ hm] at hd
  exact ⟨_, hd, rfl⟩

end

/-- Settles O51: a mailbox, a lock, a memory, or a register whose action is that of the bit written. -/
theorem directAccessesComplete : Obligations.DirectAccessesComplete := by
  unfold Obligations.DirectAccessesComplete
  intro s t i m now p h
  refine ⟨fun addr v ha => directRegisterWrite_does h ha, fun hr => meterLatch_does h hr, fun hr => ⟨_, timeLatch_does h hr, timLatch_now now p⟩,
    ?_, ?_, ?_, ?_, fun hr => (gallery_orders h hr).1, fun hr => (gallery_orders h hr).2, fun hr => (capture_orders h hr).1,
    fun hr => (capture_orders h hr).2, fun hr => (learner_orders h hr).1, fun hr => (learner_orders h hr).2.1,
    fun x hr => (learner_orders h hr).2.2 x, fun off v h4 ht hr ho => learnerTableWrite_does h h4 ht hr ho, ?_, (dike_orders h).1,
    (dike_orders h).2.1, fun off v hb hr => bufferedWrite_does h hb hr, ?_, (dike_orders h).2.2, ?_⟩
  · intro k w hk hr hs hl hreset
    obtain ⟨hq, hrd⟩ := mbxPush_of_room (now := now) (id := m.id) (w := w) hl hreset
    exact ⟨_, mailboxPush_does h hk hr hs, mbxQueue_set_self _ hk hq, hrd, fun j hj => mbxQueue_set_ne _ hj hq⟩
  · intro k x l hk hr hs hq hf hrf
    obtain ⟨hl, he⟩ := mbxPop_of_head hq hf hrf
    exact ⟨_, mailboxPop_does h hk hr hs, mbxQueue_set_self _ hk hl, he, fun j hj => mbxQueue_set_ne _ hj hl⟩
  · intro k hk hr ho
    exact ⟨_, lockAcquire_does h hk hr ho, lockOwner_lockTake_self now _ p hk, fun j hj => lockOwner_lockTake_ne now _ p hj, rfl⟩
  · intro hr
    obtain ⟨x, ⟨w, c, rfl⟩, hd⟩ := does_of_ordering (k := .qpop t i m 1) (v := 1#32) (w := 1#32) h rfl hr (by decide +kernel) (by decide +kernel)
    exact ⟨_, hd, rfl⟩
  · intro hr
    obtain ⟨x, -, hd⟩ := does_of_ordering (k := .cntclrEmb t i m) (v := 1#32) (w := 1#32) h rfl hr (by decide +kernel) (by decide +kernel)
    refine ⟨embClear now x, hd, fun k hk => ?_⟩
    unfold embClear
    interval_cases k
    · rw [rd_wr_ne _ _ (by decide), rd_wr_ne _ _ (by decide), rd_wr_self]
    · rw [rd_wr_ne _ _ (by decide), rd_wr_self]
    · rw [rd_wr_self]
  · intro mask v hr h3 ho
    refine ⟨outputOrder_does h hr, ?_⟩
    rw [orders_of_one ⟨h3, h.id_ne_mon⟩ ho]
    show docmd (order now (mask % 16) v p) = _
    rw [docmd_order, Nat.mod_mod]
  · rintro mode rfl
    exact dkhreqStop_does mode h

end Sys2Proof.Machine
end

section
/-!
SUPPORT. What a direct write to a register of the map does (R36 to R38, R513): a register without directly written fields, one of write-one-to-clear
flags, an access off a word boundary or out of reach.
-/
namespace Sys2Proof.Machine
open Sys2Proof

section
variable {now off : Nat} {m : Master} {i : PolderId} {v : Word} {p : Polder} {r : RegRow} {n : Nat}

/-! ### The registers that order something -/

/-- The registers of which a write orders something. -/
def orderRegs : List Nat :=
  [A.EMB_CNTCLR, A.LRN_CMD, A.GAL_CMD, A.CAP_CMD, A.DIK_SWTRIP, A.DIK_CLR, A.FIO_QPOP, A.PCT_DKHREQ, A.FIO_DOCMD]

/-- A register that is buffered or orders something has a field that takes a direct write. -/
theorem accMask_of_acting (h : off ∈ bufferedRegs ++ orderRegs) (hr : polRow off = some (r, n)) : accMask r [.rw, .wo] ≠ 0 := by
  have hall : ∀ o ∈ bufferedRegs ++ orderRegs, (polRow o).all (fun x => accMask x.1 [.rw, .wo] != 0) = true := by decide +kernel
  have := hall off h
  rw [hr] at this
  simpa using this

theorem accMask_hbeat (h : off = A.PCT_HBEAT) (hr : polRow off = some (r, n)) : accMask r [.w1c] = 0 := by
  have hall : (polRow A.PCT_HBEAT).all (fun x => accMask x.1 [.w1c] == 0) = true := by decide +kernel
  rw [h] at hr
  rw [hr] at hall
  simpa using hall

theorem writeAction_of_plain (c id : Nat) (w : Word) (h : off ∉ orderRegs) : writeAction now c id off w v p = p := by
  simp only [orderRegs, List.mem_cons, List.not_mem_nil, or_false, not_or] at h
  obtain ⟨h1, h2, h3, h4, h5, h6, h7, h8, h9⟩ := h
  unfold writeAction
  simp only [h1, h2, h3, h4, h5, h6, h7, h8, h9, if_false]

/-! ### Masks of access types -/

theorem foldl_mask_eq_zero_iff (l : List Acc) (fs : List FieldRow) (w : Word) :
    fs.foldl (fun m f => if l.contains f.acc then m ||| maskBits f.hi f.lo else m) w = 0 ↔
      w = 0 ∧ ∀ f ∈ fs, l.contains f.acc = true → maskBits f.hi f.lo = 0 := by
  induction fs generalizing w with
  | nil => simp
  | cons f fs ih =>
    rw [List.foldl_cons, ih, List.forall_mem_cons]
    split
    · next h =>
      rw [show (w ||| maskBits f.hi f.lo = 0 ↔ w = 0 ∧ maskBits f.hi f.lo = 0) from BitVec.or_eq_zero_iff]
      rw [and_assoc, forall_prop_of_true h]
    · next h => rw [forall_prop_of_false h, true_and]

theorem accMask_eq_zero_iff (r : RegRow) (l : List Acc) : accMask r l = 0 ↔ ∀ f ∈ r.fields, l.contains f.acc = true → maskBits f.hi f.lo = 0 :=
  (foldl_mask_eq_zero_iff l r.fields 0).trans (and_iff_right rfl)

theorem accMask_eq_zero_of_subset {l l' : List Acc} (h : accMask r l' = 0) (hl : ∀ a ∈ l, a ∈ l') : accMask r l = 0 := by
  rw [accMask_eq_zero_iff] at h ⊢
  exact fun f hf hc => h f hf (List.contains_iff_mem.mpr (hl _ (List.contains_iff_mem.mp hc)))

theorem fieldsOk_of_accMask {l : List Acc} {mask w : Word} (h : accMask r l = 0) : fieldsOk r l mask w = true := by
  unfold fieldsOk
  rw [List.all_eq_true]
  intro f hf
  cases hc : l.contains f.acc with
  | false => rfl
  | true =>
    rw [(accMask_eq_zero_iff r l).mp h f hf hc]
    simp

/-! ### Writes of a register -/

theorem busWrite_of_reg (hr : reaches m i off = true) (hm : inMemory off = false) (hd : dataQueue off = none) (hl : lockIndex off = none)
    (hrow : polRow off = some (r, n)) : busWrite now m i off v p = writeReg now m.id off v r p := by
  have h4 : off % 4 = 0 := by
    by_contra h
    unfold polRow at hrow
    rw [if_neg h] at hrow
    cases hrow
  have ht : inTable off = false := by
    unfold inMemory at hm
    simp only [Bool.or_eq_false_iff] at hm
    exact hm.1.1
  exact busWrite_of_mapped hr (by unfold mapped; simp [h4, ht, hm, hd, hl]) hrow

theorem accMask_noDirect (h : accMask r [.rw, .wo] = 0) (hrow : polRow off = some (r, n)) : off ∉ orderRegs ∧ isBuffered off = false := by
  constructor
  · exact fun hm => accMask_of_acting (List.mem_append_right _ hm) hrow h
  · by_contra hb
    exact accMask_of_acting (List.mem_append_left _ (bufferedRegs_of_isBuffered (Bool.not_eq_false _ ▸ hb))) hrow h

/-- R513: no field of the register takes a direct write. -/
theorem writeReg_of_noFields {id : Nat} (hrow : polRow off = some (r, n)) (h : accMask r [.rw, .w1c, .wo] = 0) :
    ∃ k, writeReg now id off v r p = (.error, accErr now k id off p) := by
  have hrw : accMask r [.rw] = 0 := accMask_eq_zero_of_subset h (by simp)
  obtain ⟨-, hb⟩ := accMask_noDirect (accMask_eq_zero_of_subset h (by simp)) hrow
  have hdiag : off ≠ A.FIO_DODIAG := by
    rintro rfl
    have hall : (polRow A.FIO_DODIAG).all (fun x => accMask x.1 [.rw, .w1c, .wo] != 0) = true := by decide +kernel
    rw [hrow] at hall
    simp [h] at hall
  unfold writeReg directWord
  simp only [hrw, ne_eq, not_true_eq_false, and_false, if_false, hb, Bool.false_eq_true, hdiag, h, if_true]
  exact ⟨_, rfl⟩

theorem merge_zero (w v : Word) : merge w 0 v = w := by
  unfold merge
  show w &&& ~~~(0#32) ||| v &&& 0#32 = w
  rw [BitVec.and_zero, BitVec.or_zero, BitVec.not_zero, BitVec.and_allOnes]

/-- R37, R38: flags that clear on a 1. -/
theorem writeReg_of_flags {id : Nat} (hrow : polRow off = some (r, n)) (h : accMask r [.rw, .wo] = 0) (hc : accMask r [.w1c] ≠ 0)
    (hdiag : off ≠ A.FIO_DODIAG) (hst : statQueue off = none) (hd : dataQueue off = none) (hl : lockIndex off = none) :
    ∃ x, Touched off p x ∧ rd x off = rd p off &&& ~~~ (v &&& accMask r [.w1c] &&& ~~~ setInCycle p (now / cyc) off) ∧
      writeReg now id off v r p = (.ok, x) := by
  have hrw : accMask r [.rw] = 0 := accMask_eq_zero_of_subset h (by simp)
  have hall : accMask r [.rw, .w1c, .wo] ≠ 0 := fun h0 => hc (accMask_eq_zero_of_subset h0 (by simp))
  obtain ⟨hact, hb⟩ := accMask_noDirect h hrow
  have hdo : off ≠ A.FIO_DOCMD := fun h0 => hact (h0 ▸ by decide)
  have hpl : (plainReg off && (off != A.PCT_HBEAT || id == 2)) = true := by
    have hhb : off ≠ A.PCT_HBEAT := fun h0 => hc (accMask_hbeat h0 hrow)
    unfold plainReg
    simp [hb, hdo, hd, hl, hhb]
  refine ⟨_, touched_noted (p := p) (now := now) id (accMask r [.rw]) _ v, rd_wr_self _ _ _, ?_⟩
  unfold writeReg directWord
  simp only [hrw, ne_eq, not_true_eq_false, and_false, if_false, hb, Bool.false_eq_true, hdiag, hall, fieldsOk_of_accMask h, Bool.not_true, hst,
    hpl, if_true, writeAction_of_plain _ _ _ hact]
  rw [merge_zero]

theorem fbit_of_width_one (y : Polder) {f : Fld} (h : f.hi = f.lo) : fbit y f = (rd y f.off).getLsbD f.lo := by
  have hb : fget y f = (rd y f.off).toNat / 2 ^ f.lo % 2 := by
    unfold fget bitsOf
    rw [h, Nat.add_sub_cancel_left, pow_one]
  unfold fbit
  rw [hb, BitVec.getLsbD, Nat.testBit_eq_decide_div_mod_eq]
  rfl

theorem rd_outOfReach (now : Nat) (m : Master) (off : Nat) (p : Polder) {o : Nat} (h : o ≠ A.PCT_ACCERR) : rd (outOfReach now m off p) o = rd p o := by
  cases m with
  | ce _ => rfl
  | se _ => rfl
  | mon _ => rfl
  | hall => exact rd_accErr_ne _ _ _ _ _ h
  | dkh => exact rd_accErr_ne _ _ _ _ _ h

end

/-- Settles O52: a write off a word boundary, of no field, of flags alone, and out of reach. -/
theorem directWriteRules : Obligations.DirectWriteRules := by
  unfold Obligations.DirectWriteRules
  intro now m i off v p
  refine ⟨fun hr h4 => ?_, fun hr => ?_, fun r k hr hrow hm hd hl => ⟨fun h => ?_, fun h hc hdiag hst => ?_⟩, fun hr _ => ?_, fun j hj => ?_⟩
  · have hb : busWrite now m i off v p = (.error, accErr now Kind.unaligned m.id off p) := by
      unfold busWrite
      simp only [hr, Bool.not_true, Bool.false_eq_true, if_false, ne_eq, h4, not_false_eq_true, if_true]
    rw [hb]
    refine ⟨rfl, fun hv => ?_, fun o ho => rd_accErr_ne _ _ _ _ _ ho⟩
    rw [rd_accErr_self, accNext_of_free _ _ _ _ _ hv]
    exact ⟨accWord_kind _ _ _ (by decide), accWord_valid _ _ _ _⟩
  · have hrow : ∃ r n, polRow A.DIK_EVT = some (r, n) ∧ accMask r [.rw, .wo] = 0 ∧ accMask r [.w1c] ≠ 0 ∧ (accMask r [.w1c]).getLsbD 1 = true := by
      have hs : (polRow A.DIK_EVT).any (fun x => accMask x.1 [.rw, .wo] == 0 && accMask x.1 [.w1c] != 0 && (accMask x.1 [.w1c]).getLsbD 1) = true := by
        decide +kernel
      obtain ⟨⟨r, n⟩, he, hx⟩ := (Option.any_eq_true _ _).mp hs
      simp only [Bool.and_eq_true, beq_iff_eq, bne_iff_ne] at hx
      exact ⟨r, n, he, hx.1.1, hx.1.2, hx.2⟩
    obtain ⟨r, n, he, h1, h2, h3⟩ := hrow
    rw [busWrite_of_reg hr (by decide) (by decide) (by decide) he]
    obtain ⟨x, hx, hrd, hw⟩ := writeReg_of_flags (now := now) (v := v) (p := p) (id := m.id) he h1 h2 (by decide) (by decide) (by decide) (by decide)
    rw [hw]
    refine ⟨rfl, ?_, fun o ho => hx.rd ho⟩
    have hbit : ∀ y : Polder, fbit y F.DIK_EVT_CLR_REFUSED = (rd y A.DIK_EVT).getLsbD 1 := fun y => fbit_of_width_one y rfl
    rw [hbit, hbit, hrd, BitVec.getLsbD_and, BitVec.getLsbD_not, BitVec.getLsbD_and, BitVec.getLsbD_and, BitVec.getLsbD_not, h3]
    simp
  · obtain ⟨e, hw⟩ := writeReg_of_noFields (now := now) (v := v) (p := p) (id := m.id) hrow h
    rw [busWrite_of_reg hr hm hd hl hrow, hw]
    exact ⟨rfl, fun o ho => rd_accErr_ne _ _ _ _ _ ho⟩
  · obtain ⟨x, hx, hrd, hw⟩ := writeReg_of_flags (now := now) (v := v) (p := p) (id := m.id) hrow h hc hdiag hst hd hl
    rw [busWrite_of_reg hr hm hd hl hrow, hw]
    exact ⟨rfl, hrd, fun o ho => hx.rd ho⟩
  · unfold busWrite
    rw [hr]
    exact ⟨rfl, fun o ho => rd_outOfReach now m off p ho⟩
  · have hne : (j == i) = false := beq_false_of_ne hj
    unfold busWrite
    simp only [reaches, BEq.comm (a := i), hne, Bool.not_false, if_true, outOfReach, and_self]

end Sys2Proof.Machine
end

section
/-!
SUPPORT. What follows at once from a change of a polder (R299, R304, R343): it leaves the engines, the boot, the power state, the monitor and the
lanes' supply as they are, and of the PCT block the counters of the log alone.
-/
namespace Sys2Proof.Machine
open Sys2Proof

/-- What of a polder no following change concerns. -/
def aside (p : Polder) : EngState × BootState × Power × MonState × Bool := (p.eng, p.boot, p.power, p.mon, p.spb.lane1)

/-- Registers outside the PCT block, and the counters of the log. -/
def followRegs (off : Nat) : Prop := off / 65536 ≠ 0 ∨ logRegs off

structure Settles (p q : Polder) : Prop where
  kept : aside q = aside p
  regs : Within followRegs p q

section
variable {p q r : Polder}

namespace Settles

theorem refl (p : Polder) : Settles p p := ⟨rfl, .refl p⟩

theorem trans (h : Settles p q) (g : Settles q r) : Settles p r := ⟨g.kept.trans h.kept, h.regs.trans g.regs⟩

theorem of_eq (h : aside q = aside p) (hr : q.regs = p.regs) : Settles p q := ⟨h, within_of_regs hr⟩

theorem of_within {S : Nat → Prop} (h : aside q = aside p) (hw : Within S p q) (hS : ∀ o, S o → followRegs o) : Settles p q := ⟨h, hw.mono hS⟩

theorem ite {b : Prop} [Decidable b] (h : Settles p q) (g : Settles p r) : Settles p (if b then q else r) := by
  split
  · exact h
  · exact g

theorem foldl {α : Type} (f : Polder → α → Polder) (l : List α) (p : Polder) (h : ∀ q, ∀ a ∈ l, Settles q (f q a)) : Settles p (l.foldl f p) := by
  induction l generalizing p with
  | nil => exact .refl p
  | cons a l ih => exact (h p a List.mem_cons_self).trans (ih _ fun q b hb => h q b (List.mem_cons_of_mem _ hb))

theorem wr (p : Polder) {off : Nat} (w : Word) (h : off / 65536 ≠ 0) : Settles p (wr p off w) := ⟨rfl, within_wr p w (.inl h)⟩

theorem fput (p : Polder) {f : Fld} (v : Nat) (h : f.off / 65536 ≠ 0) : Settles p (fput p f v) := wr p _ h

theorem evt (p : Polder) {f : Fld} (h : f.off / 65536 ≠ 0) : Settles p (evt f p) := ⟨rfl, within_evt p (.inl h)⟩

theorem evtIf (b : Bool) (p : Polder) {f : Fld} (h : f.off / 65536 ≠ 0) : Settles p (evtIf b f p) := ite (evt p h) (refl p)

theorem eng (h : Settles p q) : q.eng = p.eng := congrArg (fun x => x.1) h.kept
theorem boot (h : Settles p q) : q.boot = p.boot := congrArg (fun x => x.2.1) h.kept
theorem power (h : Settles p q) : q.power = p.power := congrArg (fun x => x.2.2.1) h.kept
theorem mon (h : Settles p q) : q.mon = p.mon := congrArg (fun x => x.2.2.2.1) h.kept
theorem lane1 (h : Settles p q) : q.spb.lane1 = p.spb.lane1 := congrArg (fun x => x.2.2.2.2) h.kept

theorem rd_pct (h : Settles p q) {off : Nat} (ho : ¬followRegs off) : rd q off = rd p off := h.regs off ho

end Settles

/-! ### Records and recorders -/

theorem settles_logRec (now source code sev : Nat) (data : List Byte) (p : Polder) : Settles p (logRec now source code sev data p) := by
  refine .of_within ?_ (within_logRec now source code sev data p) fun o ho => .inr ho
  obtain ⟨x, l, n, h⟩ := logRec_shape now source code sev data p
  rw [h]
  rfl

theorem recorderRegs_follow (o : Nat) (h : recorderRegs o) : followRegs o := by
  left
  unfold recorderRegs at h
  omega

theorem settles_galSource (src : Nat) (p : Polder) : Settles p (galSource src p) := by
  refine .of_within ?_ (within_galSource src p) recorderRegs_follow
  obtain ⟨x, h⟩ := galSource_shape src p
  rw [h]
  rfl

theorem settles_capTrigger (now cause : Nat) (at' : Int) (p : Polder) : Settles p (capTrigger now cause at' p) := by
  refine .of_within ?_ (within_capTrigger now cause at' p) recorderRegs_follow
  obtain ⟨x, c, h⟩ := capTrigger_shape now cause at' p
  rw [h]
  rfl

theorem settles_recTrip (now : Nat) (at' : Int) (p : Polder) : Settles p (recTrip now at' p) :=
  (settles_galSource 4 p).trans (.ite (settles_capTrigger _ _ _ _) (.refl _))

theorem settles_wrTime (p : Polder) {a b c : Nat} (x : Int) (ha : a / 65536 ≠ 0) (hb : b / 65536 ≠ 0) (hc : c / 65536 ≠ 0) :
    Settles p (wrTime p a b c x) := ⟨rfl, within_wrTime p x (.inl ha) (.inl hb) (.inl hc)⟩

/-! ### The sequenced safe state -/

theorem settles_dropChange (now i : Nat) (p : Polder) : Settles p (dropChange now i p) := by
  unfold dropChange
  split
  · exact .ite ((Settles.wr p _ (by decide)).trans (.of_eq rfl rfl)) (.refl p)
  · exact .refl p

theorem settles_seqLeg (now i : Nat) (p : Polder) : Settles p (seqLeg now i p) := by
  unfold seqLeg
  extract_lets q l aborted p1 g three new p2 p3
  have h1 : Settles p p1 := (settles_dropChange now i p).trans (.evtIf _ q (by decide))
  clear_value p1
  have h2 : Settles p p2 := (h1.trans (.wr p1 _ (by decide))).trans (.of_eq rfl rfl)
  clear_value p2
  have h3 : Settles p p3 := .ite (h2.trans (.of_eq rfl rfl)) h2
  clear_value p3
  exact h3.trans (.of_eq rfl rfl)

theorem settles_enterSafe (now : Nat) (p : Polder) : Settles p (enterSafe now p) := by
  unfold enterSafe
  extract_lets p1 p2 m p3 p4
  have h1 : Settles p p1 := .foldl _ _ p fun q i _ => .ite (.refl q) (settles_seqLeg now i q)
  have h2 : Settles p p2 := h1.trans (.foldl (fun q i => embOff i q) _ p1 fun q i _ => .of_eq rfl rfl)
  clear_value p2
  have h3 : Settles p p3 :=
    (h2.trans (r := modAfe (fun a => { a with restart := none }) { p2 with mdl := { { p2.mdl with sequencing := true } with carrier := none } })
      (.of_eq rfl rfl)).trans (.fput (f := F.AFE_STAT_CARRIER) _ _ (by decide))
  clear_value p3
  have h4 : Settles p p4 :=
    (((h3.trans (.fput p3 1 (by decide))).trans (.fput _ 0 (by decide))).trans (.fput _ 0 (by decide))).trans (.fput _ 0 (by decide))
  clear_value p4
  exact .ite (.refl p) (h4.trans (.evt p4 (by decide)))

/-! ### Sluices -/

theorem settles_sluAbort (now n reason : Nat) (asked : Bool) (p : Polder) : Settles p (sluAbort now n reason asked p) := by
  unfold sluAbort
  extract_lets x p0 p1
  have h0 : Settles p p0 := settles_logRec _ _ _ _ _ _
  clear_value p0
  have h1 : Settles p p1 := ((h0.trans (.wr p0 _ (by decide))).trans (.evt _ (by decide))).trans (.evtIf _ _ (by decide))
  clear_value p1
  obtain ⟨y, o, h⟩ := sluClose_shape n reason (x.timed || !asked) (some (rsnStatus reason)) (presented p1 now) p1
  rw [h]
  exact .ite (.refl p) (h1.trans (.of_eq rfl rfl))

theorem settles_sluAbortAll (now reason : Nat) (p : Polder) : Settles p (sluAbortAll now reason p) :=
  .foldl _ _ p fun q n _ => .ite (settles_sluAbort now n reason false q) (.refl q)

/-! ### The Dike -/

theorem settles_latchBits (now m : Nat) (p : Polder) : Settles p (latchBits now m p) := by
  unfold latchBits
  extract_lets first at' p1 q p2 p3 p4 p5
  have h1 : Settles p p1 := (Settles.wr p _ (by decide)).trans (.wr _ _ (by decide))
  clear_value p1
  have hq : Settles p q := h1.trans (.wr p1 _ (by decide))
  clear_value q
  have h2 : Settles p p2 := .ite ((hq.trans (settles_wrTime q _ (by decide) (by decide) (by decide))).trans (.wr _ _ (by decide))) h1
  clear_value p2
  have h3 : Settles p p3 := .ite (h2.trans (settles_enterSafe now p2)) h2
  clear_value p3
  have h4 : Settles p p4 := .ite (h3.trans (settles_sluAbortAll _ _ p3)) h3
  clear_value p4
  have h5 : Settles p p5 := h4.trans (settles_recTrip now at' p4)
  clear_value p5
  exact .ite (.refl p) ((h5.trans (settles_logRec _ _ _ _ _ p5)).trans (.of_eq rfl rfl))

theorem settles_settleDike (now : Nat) (p : Polder) : Settles p (settleDike now p) := by
  unfold settleDike
  extract_lets p1 a p2 wait new p3
  have h1 : Settles p p1 :=
    Settles.trans (q := { p with dike := { p.dike with
      activeAt := _, inactiveAt := _, stampAt := _, enabled := enabledMask p } }) (.of_eq rfl rfl) (.wr _ _ (by decide))
  clear_value p1
  have h2 : Settles p p2 := .ite h1 (h1.trans (.wr p1 _ (by decide)))
  clear_value p2
  have h3 : Settles p p3 := h2.trans (settles_latchBits now new p2)
  clear_value p3
  exact h3.trans (.of_eq rfl rfl)

theorem settles_swTrip (now : Nat) (p : Polder) : Settles p (swTrip now p) := by
  unfold swTrip
  extract_lets d p1
  have h1 : Settles p p1 := .of_eq rfl rfl
  clear_value p1
  exact .ite (h1.trans (settles_latchBits now 256 p1)) h1

/-! ### The safe pulse block -/

theorem settles_spbReport (now : Nat) (log : Bool) (p : Polder) : Settles p (spbReport now log p) := by
  unfold spbReport
  extract_lets p1
  have h1 : Settles p p1 := .ite (settles_logRec _ _ _ _ _ p) (.refl p)
  clear_value p1
  exact h1.trans (.of_eq rfl rfl)

theorem settles_answerAcks (status : Nat) (p : Polder) : Settles p (answerAcks status p) := by
  obtain ⟨o, h⟩ := answerAcks_shape status p
  rw [h]
  exact .of_eq rfl rfl

theorem settles_spbSettle (now : Nat) (p : Polder) : Settles p (spbSettle now p) := by
  unfold spbSettle
  extract_lets d st p1 p2 p3 auto q1
  have h1 : Settles p p1 := (Settles.fput p d (f := F.SPB_STAT_SRC) (by decide)).trans (.fput _ 0 (by decide))
  clear_value p1
  have h2 : Settles p p2 :=
    (h1.trans (r := modSpb (fun s => { s with acked := false, test := none, testWanted := false, demand2 := true }) p1) (.of_eq rfl rfl)).trans
      (.evtIf _ _ (by decide))
  clear_value p2
  have h3 : Settles p p3 := h2.trans (settles_answerAcks _ p2)
  clear_value p3
  have hq : Settles p q1 :=
    ((Settles.fput p 256 (f := F.SPB_STAT_SRC) (by decide)).trans (.fput _ 1 (f := F.SPB_STAT_STATE) (by decide))).trans (.of_eq rfl rfl)
  clear_value q1
  exact .ite (.ite (h3.trans (settles_spbReport now true p3)) h3)
    (.ite (hq.trans (settles_spbReport now false q1)) (.fput p _ (by decide)))

/-! ### Comparators and links -/

theorem settles_cmpFollow (now k : Nat) (p : Polder) : Settles p (cmpFollow now k p) := by
  unfold cmpFollow
  extract_lets c on' p1
  have h1 : Settles p p1 := .of_eq rfl rfl
  clear_value p1
  exact .ite (h1.trans ⟨rfl, within_evtBit (S := followRegs) F.AFE_EVT_OVR (8 + k) p1 (.inl (by decide))⟩) h1

theorem aside_linkKick (now n : Nat) (p : Polder) : aside (linkKick now n p) = aside p := by
  unfold linkKick
  dsimp only
  split
  · split <;> split <;> rfl
  · split
    · rfl
    · split
      · split
        · rfl
        · split <;> rfl
      · split <;> rfl

theorem settles_linkKicks (now : Nat) (p : Polder) : Settles p (linkKicks now p) :=
  .foldl _ _ p fun q n hn => .of_within (aside_linkKick now n q) (within_linkKick now n q (by simp at hn; omega)) fun o ho => .inl (by
    unfold inBlock at ho
    omega)

/-! ### All that follows -/

theorem settles_settleAll (now : Nat) (p : Polder) : Settles p (settleAll now p) := by
  have h1 : Settles p (if awake p && p.spb.lane1 then spbSettle now p else p) := .ite (settles_spbSettle now p) (.refl p)
  have h2 : ∀ x, Settles x (settle now x) := fun x => .ite (settles_settleDike now x) (.of_eq rfl rfl)
  have h3 : ∀ x, Settles x (testHold x) := fun x => .ite (.of_eq rfl rfl) (.refl x)
  have h4 : ∀ x, Settles x (genTrack now x) := fun x => .foldl _ _ x fun q j _ => .ite (.refl q) (.of_eq rfl rfl)
  exact ((h1.trans (h2 _)).trans (h3 _)).trans (h4 _)

theorem settles_follow (now : Nat) (p : Polder) : Settles p (follow now p) := by
  have hc : Settles p (cmpSettle now p) := .foldl _ _ p fun q k _ => settles_cmpFollow now k q
  exact .ite ((hc.trans (settles_settleAll now _)).trans (settles_linkKicks now _)) (.refl p)

theorem settles_polish (now : Nat) (p : Polder) : Settles p (polish now p) := by
  have hm : ∀ x, Settles x (mapKept now x) := fun x => by
    unfold mapKept
    dsimp only
    split
    · exact .of_eq rfl rfl
    · exact .ite (.refl x) (.of_eq rfl rfl)
  unfold polish
  exact ((settles_follow now p).trans (hm _)).trans (.of_eq rfl rfl)

end

end Sys2Proof.Machine
end

section
/-!
SUPPORT. Resets of the engines (R424, R425, R427): what a reset of the CE or the SE leaves in the PCT block, the queues and the epochs.
-/
namespace Sys2Proof.Machine
open Sys2Proof

/-- What a reset writes beside its counter: the engine's state and event, what ends with it, and the mailboxes. -/
def resetRegs (off : Nat) : Prop := commitAside off ∨ logRegs off ∨ off = A.PCT_ENGEVT ∨ off = A.PCT_ENG ∨ off / 65536 = 16

section
variable {now : Nat} {p q : Polder}

/-! ### Queues and locks -/

theorem within_mbxDiscard (now id : Nat) (p : Polder) : Within resetRegs p (mbxDiscard now id p) := by
  unfold mbxDiscard
  refine within_foldl _ _ p fun x k hk => ?_
  extract_lets n y
  have hb : A.MBX_STAT k / 65536 = 16 := by
    have := List.mem_range.mp (List.mem_of_mem_filter hk)
    unfold A.MBX_STAT
    omega
  have hy : Within resetRegs x y :=
    Within.trans (q := modEng _ x) (within_of_regs rfl) (within_fput (f := F.MBX_STAT_DCOUNT k) _ _ (.inr (.inr (.inr (.inr hb)))))
  clear_value y
  exact (hy.trans (within_of_regs rfl)).trans (within_evtIf (f := F.MBX_STAT_DISC k) _ _ (.inr (.inr (.inr (.inr hb)))))

theorem queues_mbxDiscard_ce (now : Nat) (p : Polder) : (mbxDiscard now 1 p).eng.queues = vset p.eng.queues 2 [] := by
  have hl : ((List.range 6).filter fun q => mbxReceiver q == 1) = [2] := by decide
  unfold mbxDiscard
  rw [hl]
  show (evtIf _ _ _).eng.queues = _
  unfold evtIf
  split <;> rfl

theorem lockAuto_shape (m : Nat) (p : Polder) : ∃ x, (lockAuto m p).eng = { p.eng with locks := x } := by
  unfold lockAuto
  split
  · exact ⟨_, rfl⟩
  · exact ⟨_, rfl⟩

/-! ### The record of an engine event -/

theorem within_engEvent (now bit region words : Nat) (p : Polder) : Within resetRegs p (engEvent now bit region words p) := by
  have h1 : ∀ w : Word, Within resetRegs p (wr p A.PCT_ENGEVT w) := fun w => within_wr p w (.inr (.inr (.inl rfl)))
  have h2 : ∀ (b : Word) (x : Polder), Within resetRegs x (marked A.PCT_ENGEVT b x) := fun b x => within_of_regs rfl
  unfold engEvent
  exact ((h1 _).trans (h2 _ _)).trans ((within_logRec now 0x03 (2 ^ bit) Sev.fault _ _).mono fun o h => .inr (.inl h))

theorem eng_engEvent (now bit region words : Nat) (p : Polder) : (engEvent now bit region words p).eng = p.eng := eng_logRec ..

/-! ### Reset of the CE -/

/-- The polder at a reset of the CE, before its trip bit latches. -/
theorem ceReset_eq (now bit region : Nat) (reload : Bool) (p : Polder) : ∃ x, ceReset now bit region reload p = swTrip now x ∧
    ceState x = (if reload || ceState p == Eng.loading then Eng.loading else Eng.reset) ∧ x.eng.queues = vset p.eng.queues 2 [] ∧
    x.eng.epochCE = (p.eng.epochCE + 1) % 16 ∧ Within resetRegs (addSat p A.PCT_CE_RESETS 1) x := by
  unfold ceReset
  extract_lets p1 p2 ep p3 st
  have hw1 : Within resetRegs (addSat p A.PCT_CE_RESETS 1) p1 := within_engEvent _ _ _ _ _
  have he1 : p1.eng = p.eng := eng_engEvent _ _ _ _ _
  clear_value p1
  have hw2 : Within resetRegs (addSat p A.PCT_CE_RESETS 1) p2 :=
    (hw1.trans (within_mbxDiscard now 1 p1)).trans ((within_lockAuto 1 _).mono fun o h => .inl h)
  obtain ⟨l, he2⟩ := lockAuto_shape 1 (mbxDiscard now 1 p1)
  have hq2 : p2.eng.queues = vset p.eng.queues 2 [] := by
    rw [show p2.eng = _ from he2]
    show (mbxDiscard now 1 p1).eng.queues = _
    rw [queues_mbxDiscard_ce, he1]
  clear_value p2
  have hw3 : Within resetRegs (addSat p A.PCT_CE_RESETS 1) p3 := hw2.trans (within_of_regs rfl)
  have hq3 : p3.eng.queues = vset p.eng.queues 2 [] := hq2
  have he3 : p3.eng.epochCE = (p.eng.epochCE + 1) % 16 := rfl
  clear_value p3
  refine ⟨_, rfl, ?_, hq3, he3, ?_⟩
  · have hst : st < 4 := by
      unfold st
      split <;> decide
    unfold ceState
    rw [fget_fput_bits _ _ (by decide), fget_fput_self _ _ _ (by decide)]
    exact Nat.mod_eq_of_lt (show st < 2 ^ 4 by omega)
  · exact (hw3.trans (within_fput (f := F.PCT_ENG_CE_STATE) p3 _ (.inr (.inr (.inr (.inl rfl)))))).trans
      (within_fput (f := F.PCT_ENG_CE_EPOCH) _ _ (.inr (.inr (.inr (.inl rfl)))))

theorem not_followRegs_pct {off : Nat} (h : off / 65536 = 0) (hl : ¬logRegs off) : ¬followRegs off := fun hf => hf.elim (· h) hl

theorem not_logRegs_pct : ¬followRegs A.PCT_ENG ∧ ¬followRegs A.PCT_CE_RESETS ∧ ¬followRegs A.PCT_SE_RESETS := by
  unfold followRegs logRegs
  decide

theorem Settles.ceState (h : Settles p q) : Machine.ceState q = Machine.ceState p := by
  unfold Machine.ceState fget
  rw [h.rd_pct not_logRegs_pct.1]

theorem Settles.seState (h : Settles p q) : Machine.seState q = Machine.seState p := by
  unfold Machine.seState fget
  rw [h.rd_pct not_logRegs_pct.1]

theorem not_resetRegs : ¬resetRegs A.PCT_CE_RESETS ∧ ¬resetRegs A.PCT_SE_RESETS ∧ ¬resetRegs A.DIK_TRIPEN := by
  unfold resetRegs commitAside logRegs
  decide

/-- Settled facts of a reset of the CE. -/
theorem ceReset_facts (now bit region : Nat) (reload : Bool) (p : Polder) :
    ceState (ceReset now bit region reload p) = (if reload || ceState p == Eng.loading then Eng.loading else Eng.reset) ∧
    mbxQueue (ceReset now bit region reload p) 2 = [] ∧
    rdN (ceReset now bit region reload p) A.PCT_CE_RESETS = min 4294967295 (rdN p A.PCT_CE_RESETS + 1) ∧
    (ceReset now bit region reload p).eng.epochCE = (p.eng.epochCE + 1) % 16 ∧
    ((enabledMask p).testBit 8 = true → (latched (ceReset now bit region reload p)).testBit 8 = true) := by
  obtain ⟨x, he, hst, hq, hep, hw⟩ := ceReset_eq now bit region reload p
  have hs := settles_swTrip now x
  obtain ⟨n1, n2, n3⟩ := not_resetRegs
  rw [he]
  refine ⟨hs.ceState.trans hst, ?_, ?_, ?_, fun hen => latched_swTrip ?_⟩
  · exact mbxQueue_set_self (p := p) [] (by decide) (by rw [hs.eng, hq])
  · rw [rdN_of_rd (hs.rd_pct not_logRegs_pct.2.1), rdN_of_rd (hw _ n1), rdN_addSat]
  · rw [hs.eng, hep]
  · have h2 : rd x A.DIK_TRIPEN = rd p A.DIK_TRIPEN := (hw _ n3).trans (rd_wr_ne _ _ (by decide))
    unfold enabledMask at hen ⊢
    rw [h2]
    exact hen

/-! ### Reset of the SE -/

theorem dropRefs_shape (p : Polder) : (dropRefs p).eng = p.eng ∧ (dropRefs p).regs = p.regs := ⟨rfl, rfl⟩

theorem foldl_replyTo (l : List CmdRef) (a : Reply) (p : Polder) :
    (l.foldl (fun q r => replyTo q r a) p).eng = p.eng ∧ (l.foldl (fun q r => replyTo q r a) p).regs = p.regs := by
  induction l generalizing p with
  | nil => exact ⟨rfl, rfl⟩
  | cons c l ih => exact ih _

theorem seReset_facts (now bit region : Nat) (p : Polder) :
    seState (seReset now bit region p) = Eng.reset ∧ (seReset now bit region p).eng.epochSE = (p.eng.epochSE + 1) % 16 ∧
      rdN (seReset now bit region p) A.PCT_SE_RESETS = min 4294967295 (rdN p A.PCT_SE_RESETS + 1) := by
  unfold seReset
  extract_lets p1 p2 refs p3 ep p4
  have hw1 : Within resetRegs (addSat p A.PCT_SE_RESETS 1) p1 := within_engEvent _ _ _ _ _
  have he1 : p1.eng = p.eng := eng_engEvent _ _ _ _ _
  clear_value p1
  have hs2 : Settles (lockAuto 2 (mbxDiscard now 2 (monEnd now p1))) p2 := settles_sluAbortAll _ _ _
  have hw2 : Within resetRegs (addSat p A.PCT_SE_RESETS 1) (lockAuto 2 (mbxDiscard now 2 (monEnd now p1))) :=
    ((hw1.trans ((within_monEnd now p1).mono fun o h => .inl h)).trans (within_mbxDiscard now 2 _)).trans ((within_lockAuto 2 _).mono fun o h => .inl h)
  have hc2 : rdN p2 A.PCT_SE_RESETS = min 4294967295 (rdN p A.PCT_SE_RESETS + 1) := by
    rw [rdN_of_rd (hs2.rd_pct not_logRegs_pct.2.2), rdN_of_rd (hw2 _ not_resetRegs.2.1), rdN_addSat]
  clear_value p2
  have h3 := foldl_replyTo refs ⟨Status.internal, 1, []⟩ (dropRefs p2)
  have he3 : p3.eng = p2.eng := h3.1
  have hr3 : p3.regs = p2.regs := h3.2
  clear_value p3
  have hr4 : p4.regs = p2.regs := hr3
  have he4 : p4.eng.epochSE = (p.eng.epochSE + 1) % 16 := rfl
  clear_value p4
  refine ⟨?_, he4, ?_⟩
  · unfold seState
    rw [fget_fput_bits _ _ (by decide), fget_fput_self _ _ _ (by decide)]
    decide
  · have hrd : rd p4 A.PCT_SE_RESETS = rd p2 A.PCT_SE_RESETS := by
      unfold rd
      rw [hr4]
    exact (rdN_of_rd ((rd_fput_ne _ _ _ (by decide)).trans ((rd_fput_ne _ _ _ (by decide)).trans hrd))).trans hc2

end

end Sys2Proof.Machine
end

section
/-!
SUPPORT. The engines' events (R44, R423 to R427, R430, R504): a reset of the SE at the Hall, memory errors, an SE that runs again.
-/
namespace Sys2Proof.Machine
open Sys2Proof

section
variable {k : Instr} {s y : State} {t now : Nat} {i : PolderId} {p q : Polder}

/-! ### Rows that leave the device as a whole -/

theorem doesAll_of_part {f : Nat → State → State} (he : exec k s = onPart t i s f) (hp : Part.has s.part i = true)
    (hf : f (s.clock t) (s.at' t) = y) : DoesAll k s t y := by
  unfold DoesAll
  rw [he, onPart_eq _ _ _ _ hp, hf]

/-- Events of a polder that is awake, whatever its mode. -/
theorem does_of_onPart {f : Nat → State → State} {g : Nat → Polder → Polder} (he : exec k s = onPart t i s f) (h : Runs s t i now p)
    (hf : f now (s.at' t) = (s.at' t).modPol i fun x => polish now (g now x)) (hq : g now p = q) : Does k s t i q := by
  obtain ⟨⟨hp, -, -⟩, rfl, rfl⟩ := h
  unfold Does
  rw [he, onPart_eq _ _ _ _ hp, hf, ← hq, ← leaves_modPol]

/-! ### A polder that owes replies (R427) -/

/-- The polder differs at most in the replies that it owes. -/
def OwesAtMost (i : PolderId) (s y : State) : Prop := ∃ o, y.pol i = modEng (fun e => { e with owed := o }) (s.pol i)

namespace OwesAtMost

theorem of_pol (h : y.pol i = s.pol i) : OwesAtMost i s y := ⟨(s.pol i).eng.owed, h⟩

theorem trans {z : State} (h : OwesAtMost i s y) (g : OwesAtMost i y z) : OwesAtMost i s z := by
  obtain ⟨a, ha⟩ := h
  obtain ⟨b, hb⟩ := g
  exact ⟨b, by rw [hb, ha]; rfl⟩

theorem facts (h : OwesAtMost i s y) :
    (y.pol i).regs = (s.pol i).regs ∧ (y.pol i).eng.epochSE = (s.pol i).eng.epochSE := by
  obtain ⟨o, ho⟩ := h
  rw [ho]
  exact ⟨rfl, rfl⟩

end OwesAtMost

theorem owesAtMost_owes (i : PolderId) (r : CmdRef) (s : State) : OwesAtMost i s (owes i r s) := by
  unfold owes OwesAtMost
  rw [pol_modPol_self]
  split
  · exact ⟨_, rfl⟩
  · exact ⟨_, rfl⟩

theorem owesAtMost_seLostOne (now : Nat) (i : PolderId) (s : State) (f : InFlight) : OwesAtMost i s (seLostOne now i s f) := by
  have hend : ∀ st d, OwesAtMost i s (endFlight now st d s f) := fun st d => .of_pol ((talks_endFlight now st d s f).pol i)
  unfold seLostOne
  extract_lets ref lost s1
  have h1 : OwesAtMost i s s1 := .of_pol (modHall_pol _ s i)
  clear_value s1
  split
  · exact hend _ _
  · split
    · split
      · exact h1
      · exact h1.trans (owesAtMost_owes i ref s1)
    · split
      · exact .of_pol rfl
      · exact (hend _ _).trans (owesAtMost_owes i ref _)

theorem owesAtMost_seLost (now : Nat) (i : PolderId) (s : State) : OwesAtMost i s (seLost now i s) := by
  unfold seLost
  generalize s.hall.inFlight.filter _ = l
  induction l generalizing s with
  | nil => exact .of_pol rfl
  | cons f l ih => exact (owesAtMost_seLostOne now i s f).trans (ih _)

/-- What the polder shows after a reset of its SE. -/
theorem seFails_facts (now : Nat) (f : Polder → Polder) (s : State) :
    seState ((seFails now i f s).pol i) = seState (f (s.pol i)) ∧ ((seFails now i f s).pol i).eng.epochSE = (f (s.pol i)).eng.epochSE ∧
      rdN ((seFails now i f s).pol i) A.PCT_SE_RESETS = rdN (f (s.pol i)) A.PCT_SE_RESETS := by
  have hc : (collect now (s.modPol i fun p => polish now (f p))).pol i = handed (polish now (f (s.pol i))) := by
    rw [(collects now _).pol, pol_modPol_self]
  obtain ⟨hr, he⟩ := (owesAtMost_seLost now i (collect now (s.modPol i fun p => polish now (f p)))).facts
  have hs := settles_polish now (f (s.pol i))
  have hrd : ∀ o, rd ((seFails now i f s).pol i) o = rd (polish now (f (s.pol i))) o := fun o => by
    unfold seFails rd
    rw [hr, hc]
    rfl
  refine ⟨?_, ?_, (rdN_of_rd (hrd _)).trans (rdN_of_rd (hs.rd_pct not_logRegs_pct.2.2))⟩
  · rw [← hs.seState]
    unfold seState fget
    rw [hrd]
  · unfold seFails
    rw [he, hc]
    show (polish now (f (s.pol i))).eng.epochSE = _
    rw [hs.eng]

/-! ### An SE that runs again (R426, R427) -/

theorem drainSe_facts (p : Polder) : seState (drainSe p) = seState p ∧ (mbxQueue p 0 ≠ [] → mbxQueue (drainSe p) 0 = []) ∧
    (drainSe p).eng.owed = p.eng.owed := by
  unfold drainSe
  split
  · next h => exact ⟨rfl, fun hn => absurd (List.isEmpty_iff.mp h) hn, rfl⟩
  · refine ⟨?_, fun _ => mbxQueue_set_self (p := p) [] (by decide) rfl, rfl⟩
    exact (fget_evt_off (f := F.PCT_ENG_SE_STATE) (g := F.MBX_STAT_EMPTY 0) _ (by decide) :)

theorem foldl_done (l : List CmdRef) (a : Reply) (p : Polder) :
    (l.foldl (fun q r => done q r a) p).eng = p.eng ∧ (l.foldl (fun q r => done q r a) p).regs = p.regs := by
  induction l generalizing p with
  | nil => exact ⟨rfl, rfl⟩
  | cons c l ih => exact ih _

theorem seState_fput (p : Polder) {v : Nat} (h : v < 16) : seState (fput p F.PCT_ENG_SE_STATE v) = v :=
  (fget_fput_self _ _ _ (by decide)).trans (Nat.mod_eq_of_lt h)

theorem ceState_fput (p : Polder) {v : Nat} (h : v < 16) : ceState (fput p F.PCT_ENG_CE_STATE v) = v :=
  (fget_fput_self _ _ _ (by decide)).trans (Nat.mod_eq_of_lt h)

theorem seRestarted_facts (h : seState p = Eng.reset) :
    seState (seRestarted p) = Eng.run ∧ (seRestarted p).eng = { p.eng with owed := [] } := by
  unfold seRestarted
  rw [if_pos h]
  obtain ⟨he, hr⟩ := foldl_done p.eng.owed ⟨Status.internal, 1, []⟩ (modEng (fun e => { e with owed := [] }) (fput p F.PCT_ENG_SE_STATE Eng.run))
  refine ⟨?_, he⟩
  exact (fget_of_regs hr _).trans (seState_fput p (by decide))

theorem pol_seTakes (now : Nat) (f : Polder → Polder) (s : State) : (seTakes now i f s).pol i = polish now (f (drainSe (s.pol i))) :=
  pol_modPol_self s i fun q => polish now (f (drainSe q))

/-- What the polder shows once its SE runs again. -/
theorem seTakes_facts (now : Nat) {f : Polder → Polder} (s : State) (h : seState (f (drainSe (s.pol i))) = Eng.run)
    (hq : (f (drainSe (s.pol i))).eng.queues = (drainSe (s.pol i)).eng.queues) :
    seState ((seTakes now i f s).pol i) = Eng.run ∧ ((seTakes now i f s).pol i).eng = (f (drainSe (s.pol i))).eng ∧
      (mbxQueue (s.pol i) 0 ≠ [] → mbxQueue ((seTakes now i f s).pol i) 0 = []) := by
  have hs := settles_polish now (f (drainSe (s.pol i)))
  rw [pol_seTakes]
  refine ⟨hs.seState.trans h, hs.eng, fun hn => ?_⟩
  have hd := (drainSe_facts (s.pol i)).2.1 hn
  unfold mbxQueue at hd ⊢
  rw [hs.eng, hq, hd]

/-! ### Memory errors (R44, R423) -/

theorem exec_eccPolder {r : EccRegion} {d : Bool} (h1 : r ≠ .hallPackets) (h2 : r ≠ .watchCore) :
    exec (.eccDoubleError t i ⟨r, d⟩) s = onPart t i s fun now y =>
      if awake (y.pol i) then (if d then eccError now i r y else y.modPol i fun q => polish now (eccCorrected q r)) else y := by
  show execEccDoubleError t i ⟨r, d⟩ s = _
  unfold execEccDoubleError
  rw [if_neg (not_or.mpr ⟨h1, h2⟩)]

/-- A single-bit error is corrected and counted. -/
theorem eccCorrected_does (h : Runs s t i now p) {r : EccRegion} (h1 : r ≠ .hallPackets) (h2 : r ≠ .watchCore) (hq : eccCorrected p r = q) :
    Does (.eccDoubleError t i ⟨r, false⟩) s t i q := by
  refine does_of_onPart (g := fun _ x => eccCorrected x r) (exec_eccPolder h1 h2) h ?_ hq
  obtain ⟨⟨-, ha, -⟩, -, -⟩ := h
  rw [at_pol, ha]
  rfl

/-- A double-bit error that the polder's own logic handles. -/
theorem eccLocal_does (h : Runs s t i now p) {r : EccRegion} (h1 : r ≠ .hallPackets) (h2 : r ≠ .watchCore)
    (hl : ∀ n y, eccError n i r y = y.modPol i fun x => polish n (eccLocal n x r)) (hq : eccLocal now p r = q) :
    Does (.eccDoubleError t i ⟨r, true⟩) s t i q := by
  refine does_of_onPart (g := fun n x => eccLocal n x r) (exec_eccPolder h1 h2) h ?_ hq
  obtain ⟨⟨-, ha, -⟩, -, -⟩ := h
  rw [at_pol, ha]
  exact hl _ _

/-! ### The heartbeat after a halt (R426, R463) -/

theorem hbAt_superviseFrom (now : Nat) (i : PolderId) (s : State) : (vget (superviseFrom now i s).dkh.pols (i.num - 1) {}).hbAt = now := by
  have hi : i.num - 1 < 4 := by cases i <;> decide
  exact congrArg DkhPolder.hbAt (vget_vmod_self s.dkh.pols _ {} hi)

end

/-- Settles O55: the resets by what they write before the trip or the Hall's share, the rest by the branches of their handlers. -/
theorem engineEvents : Obligations.EngineEvents := by
  unfold Obligations.EngineEvents
  intro s t i now p h
  have hr := h
  obtain ⟨⟨hp, ha, hrs⟩, rfl, rfl⟩ := h
  refine ⟨fun hc => ?_, fun hc => ?_, fun off ht h4 => ?_, fun off => ⟨?_, ?_, ?_⟩, ?_, fun hu => ?_, fun hu => ?_, ?_, fun hc => ?_,
    fun hc => ⟨fun l hse hl => ?_, fun hl => ?_⟩, fun hc => ?_, fun b => ?_, fun hc => ?_, fun hc => ?_, fun hc => ?_, fun hc => ?_,
    fun k t0 h1 h6 hf ht => ?_⟩
  · obtain ⟨h1, h2, h3, h4, h5⟩ := ceReset_facts (s.clock t) 0 0 false (s.pol i)
    refine ⟨ceReset (s.clock t) 0 0 false (s.pol i), does_of_runs_onAwake (f := ceWatchdog) rfl hr (if_pos hc), ?_, h2, h3, h4, h5⟩
    rw [h1, hc]
    rfl
  · have hrow : DoesAll (.seWatchdog t i) s t (seFails (s.clock t) i (seWatchdog (s.clock t)) (s.at' t)) := by
      refine doesAll_of_part (f := fun now y => if awake (y.pol i) && seState (y.pol i) == Eng.run then seFails now i (seWatchdog now) y else y) rfl hp ?_
      rw [at_pol, ha, hc]
      rfl
    obtain ⟨h1, h2, h3⟩ := seFails_facts (i := i) (s.clock t) (seWatchdog (s.clock t)) (s.at' t)
    have hw : seWatchdog (s.clock t) (s.pol i) = seReset (s.clock t) 1 0 (s.pol i) := if_pos hc
    rw [at_pol, hw] at h1 h2 h3
    obtain ⟨g1, g2, g3⟩ := seReset_facts (s.clock t) 1 0 (s.pol i)
    exact ⟨_, hrow, h1.trans g1, h2.trans g2, h3.trans g3⟩
  · refine ⟨eccTable off (s.pol i), eccLocal_does hr (r := .table off) (by simp) (by simp) (fun _ _ => rfl) rfl, ?_⟩
    unfold eccTable
    rw [ht, h4]
    exact ⟨rd_wr_self _ _ _, fun o ho => rd_wr_ne _ _ ho, rfl⟩
  · exact eccCorrected_does hr (by simp) (by simp) rfl
  · exact eccCorrected_does hr (by simp) (by simp) rfl
  · exact eccCorrected_does hr (by simp) (by simp) rfl
  · exact eccCorrected_does hr (by simp) (by simp) rfl
  · exact doesAll_of_onDevice (f := fun _ y => eccDevice false .hallPackets y) rfl (by unfold eccDevice; exact if_pos hu)
  · exact doesAll_of_onDevice (f := fun _ y => eccDevice false .watchCore y) rfl (by unfold eccDevice; exact if_pos hu)
  · obtain ⟨h1, -, h3, -, -⟩ := ceReset_facts (s.clock t) 2 1 true (s.pol i)
    exact ⟨_, eccLocal_does hr (r := .ceCode) (by simp) (by simp) (fun _ _ => rfl) rfl, h1, h3⟩
  · refine does_of_onPart (g := fun _ x => ceRestarted (reloadCode s.part x) x) rfl hr ?_ (if_pos hc)
    rw [at_pol, ha]
    rfl
  · refine ⟨_, does_of_onPart (g := fun _ x => ceRestarted (reloadCode s.part x) x) rfl hr (by rw [at_pol, ha]; rfl) rfl, ?_⟩
    have hnr : ceState (s.pol i) ≠ Eng.reset := by rw [hc]; decide
    unfold ceRestarted
    rw [if_neg hnr, if_pos ⟨hc, hse⟩, hl]
    exact ⟨ceState_fput _ (by decide), rfl⟩
  · refine does_of_onPart (g := fun _ x => ceRestarted (reloadCode s.part x) x) rfl hr (by rw [at_pol, ha]; rfl) ?_
    have hnr : ceState (s.pol i) ≠ Eng.reset := by rw [hc]; decide
    unfold ceRestarted
    rw [if_neg hnr, hl]
    exact ite_self _
  · have hrow : DoesAll (.engineRestartComplete t i false) s t (seTakes (s.clock t) i seRestarted (s.at' t)) := by
      refine doesAll_of_part (f := fun now y => if awake (y.pol i) then
        (if seState (y.pol i) = Eng.reset then seTakes now i seRestarted y else y) else y) rfl hp ?_
      rw [at_pol, ha]
      exact if_pos hc
    have hd := drainSe_facts (s.pol i)
    obtain ⟨g1, g2⟩ := seRestarted_facts (p := drainSe (s.pol i)) (hd.1.trans hc)
    obtain ⟨h1, h2, h3⟩ := seTakes_facts (i := i) (s.clock t) (f := seRestarted) (s.at' t) (by rw [at_pol]; exact g1) (by rw [at_pol, g2])
    rw [at_pol] at h2 h3
    exact ⟨_, hrow, h1, by rw [h2, g2], h3⟩
  · exact does_of_runs_onAwake (f := fun now q => if false then engHalt now b q else q) rfl hr rfl
  · exact does_of_runs_onAwake (f := fun now q => if true then engHalt now true q else q) rfl hr (if_pos hc)
  · exact does_of_runs_onAwake (f := fun now q => if true then engHalt now false q else q) rfl hr (if_pos hc)
  · have hrow : DoesAll (.engineRelease t i true) s t
        (superviseFrom (s.clock t) i ((s.at' t).modPol i fun q => polish (s.clock t) (engRelease true q))) := by
      refine doesAll_of_part (f := fun now y => if awake (y.pol i) then
        (if ceState (y.pol i) = Eng.halt then superviseFrom now i (y.modPol i fun q => polish now (engRelease true q)) else y) else y) rfl hp ?_
      rw [at_pol, ha]
      exact if_pos hc
    refine ⟨_, hrow, ?_, hbAt_superviseFrom _ _ _⟩
    show ceState (((s.at' t).modPol i _).pol i) = _
    rw [pol_modPol_self, at_pol, (settles_polish _ _).ceState]
    exact (congrArg ceState (if_pos hc)).trans (ceState_fput _ (by decide))
  · have hrow : DoesAll (.engineRelease t i false) s t (superviseFrom (s.clock t) i (seTakes (s.clock t) i (engRelease false) (s.at' t))) := by
      refine doesAll_of_part (f := fun now y => if awake (y.pol i) then
        (if seState (y.pol i) = Eng.halt then superviseFrom now i (seTakes now i (engRelease false) y) else y) else y) rfl hp ?_
      rw [at_pol, ha]
      exact if_pos hc
    have hd := drainSe_facts (s.pol i)
    have he : engRelease false (drainSe (s.pol i)) = fput (drainSe (s.pol i)) F.PCT_ENG_SE_STATE Eng.run := if_pos (hd.1.trans hc)
    obtain ⟨h1, -, h3⟩ := seTakes_facts (i := i) (s.clock t) (f := engRelease false) (s.at' t)
      (by rw [at_pol, he]; exact seState_fput _ (by decide)) (by rw [at_pol, he]; rfl)
    rw [at_pol] at h3
    exact ⟨_, hrow, h1, h3⟩
  · refine does_of_onPart (g := fun _ x => evt (F.MBX_STAT_STUCK k) x) (f := fun now y => if awake (y.pol i) then
        (if (mbxStuck now k (y.pol i)).1 && k == 0 then stuckAt now i (y.setPol i (polish now (mbxStuck now k (y.pol i)).2))
          else y.setPol i (polish now (mbxStuck now k (y.pol i)).2)) else y) (if_pos h6) hr ?_ rfl
    have hk : (k == 0) = false := beq_false_of_ne (by omega)
    have hm : (mbxStuck (s.clock t) k (s.pol i)).2 = evt (F.MBX_STAT_STUCK k) (s.pol i) := by
      unfold mbxStuck
      rw [hf]
      exact congrArg Prod.snd (if_pos ht)
    rw [at_pol, ha, hk, Bool.and_false, hm]
    unfold State.modPol
    rw [at_pol]
    rfl

end Sys2Proof.Machine
end

section
/-!
SUPPORT. The stores of a polder (R448, R450, R454, R466 to R470): what a write of the NV image that is carried out at once leaves alone.
-/
namespace Sys2Proof.Machine
open Sys2Proof

/-- Registers of the store, of the learner's section, and the counters of the log. -/
def nvRegs (off : Nat) : Prop := off / 65536 = 17 ∨ off = A.LRN_STAT ∨ off = A.LRN_EVT ∨ logRegs off

/-- What of a polder no write of its store concerns. -/
def besideStore (p : Polder) : BootState × Power × EngState × Option BootSec := (p.boot, p.power, p.eng, p.nv.image.boot)

structure Stores (p q : Polder) : Prop where
  kept : besideStore q = besideStore p
  regs : Within nvRegs p q

section
variable {p q r : Polder}

namespace Stores

theorem refl (p : Polder) : Stores p p := ⟨rfl, .refl p⟩

theorem trans (h : Stores p q) (g : Stores q r) : Stores p r := ⟨g.kept.trans h.kept, h.regs.trans g.regs⟩

theorem of_eq (h : besideStore q = besideStore p) (hr : q.regs = p.regs) : Stores p q := ⟨h, within_of_regs hr⟩

theorem ite {b : Prop} [Decidable b] (h : Stores p q) (g : Stores p r) : Stores p (if b then q else r) := by
  split
  · exact h
  · exact g

theorem wr (p : Polder) {off : Nat} (w : Word) (h : nvRegs off) : Stores p (wr p off w) := ⟨rfl, within_wr p w h⟩

theorem fput (p : Polder) {f : Fld} (v : Nat) (h : nvRegs f.off) : Stores p (fput p f v) := wr p _ h

theorem evt (p : Polder) {f : Fld} (h : nvRegs f.off) : Stores p (evt f p) := ⟨rfl, within_evt p h⟩

theorem boot (h : Stores p q) : q.boot = p.boot := congrArg (fun x => x.1) h.kept
theorem power (h : Stores p q) : q.power = p.power := congrArg (fun x => x.2.1) h.kept
theorem eng (h : Stores p q) : q.eng = p.eng := congrArg (fun x => x.2.2.1) h.kept
theorem bootSec (h : Stores p q) : Machine.bootSec q = Machine.bootSec p :=
  congrArg (fun x => x.2.2.2.getD ⟨0, 1, .confirmed, 0, 600⟩) h.kept

end Stores

theorem stores_nvTouch (now sect : Nat) (p : Polder) {x : NvRecord} (h : x.boot = p.nv.image.boot) : Stores p (nvTouch now sect p x) := by
  refine .of_eq ?_ ?_
  · unfold nvTouch besideStore
    split <;> simp only [h]
  · unfold nvTouch
    split <;> rfl

theorem stores_logRec (now source code sev : Nat) (data : List Byte) (p : Polder) : Stores p (logRec now source code sev data p) := by
  refine ⟨?_, (within_logRec now source code sev data p).mono fun o h => .inr (.inr (.inr h))⟩
  unfold logRec
  extract_lets x r l1 p1 l2 p2
  have h1 : besideStore p1 = besideStore p := rfl
  have h2 : besideStore p2 = besideStore p := rfl
  clear_value p1 p2
  split
  · exact h1
  · split
    · exact ((stores_nvTouch now 6 p2 (x := { p2.nv.image with events := some ((r :: p2.nv.image.events.getD []).take 384) }) rfl).kept).trans h2
    · exact h1

/-! ### A write of the store -/

theorem nvRegs_store {off : Nat} (h : off / 65536 = 17) : nvRegs off := .inl h

theorem stores_nvShow (p : Polder) : Stores p (nvShow p) := by
  have hs : nvRegs A.NVS_STAT := .inl (by decide)
  unfold nvShow
  extract_lets p1 cur p2
  have h1 : Stores p p1 := (Stores.fput p _ (f := F.NVS_STAT_VALID0) hs).trans (.fput _ _ (f := F.NVS_STAT_VALID1) hs)
  clear_value p1
  have h2 : Stores p p2 := h1.trans (.fput p1 _ (f := F.NVS_STAT_SECT) hs)
  clear_value p2
  exact ((h2.trans (.fput p2 _ (f := F.NVS_STAT_BUSY) hs)).trans (.wr _ _ (.inl (by decide)))).trans (.wr _ _ (.inl (by decide)))

theorem stores_setBank (k : Nat) (b : NvBank) (p : Polder) : Stores p (setBank k b p) := .ite (.of_eq rfl rfl) (.of_eq rfl rfl)

theorem stores_nvBegin (now : Nat) (p : Polder) : Stores p (nvBegin now p) := by
  unfold nvBegin
  extract_lets n
  have h1 : Stores p (nvTake p) := .of_eq rfl rfl
  have h2 : ∀ x, Stores x (modNv (fun v => { v with writing := some (n.1, now, false) }) x) := fun x => .of_eq rfl rfl
  exact ((h1.trans (h2 _)).trans (stores_setBank _ _ _)).trans (stores_nvShow _)

theorem stores_nvOwners (ok : Bool) (p : Polder) : Stores p (nvOwners ok p) := by
  unfold nvOwners
  extract_lets l l1 p1
  have h1 : Stores p p1 := by
    unfold p1
    split
    · exact Stores.trans (q := { p with lrn := { p.lrn with stored := l } }) (.of_eq rfl rfl) (.fput (f := F.LRN_STAT_NVVALID) _ _ (.inr (.inl rfl)))
    · exact .refl p
  clear_value p1
  have h2 : Stores p { p1 with lrn := { p1.lrn with storing := false } } := h1.trans (.of_eq rfl rfl)
  refine .ite (h2.trans (.evt _ ?_)) h1
  cases ok <;> exact .inr (.inr (.inl rfl))

theorem stores_nvGood (now k : Nat) (p : Polder) : Stores p (nvGood now k p) := by
  unfold nvGood
  extract_lets seq p1 p2
  have h1 : Stores p p1 := stores_setBank _ _ p
  clear_value p1
  have h2 : Stores p p2 :=
    ((h1.trans (.wr p1 _ (.inl (by decide)))).trans (.fput _ _ (f := F.NVS_STAT_BANK) (.inl (by decide)))).trans (.of_eq rfl rfl)
  clear_value p2
  exact (h2.trans (stores_nvOwners true p2)).trans (stores_nvShow _)

theorem stores_nvComplete (now : Nat) (good : Bool) (p : Polder) : Stores p (nvComplete now good p) := by
  unfold nvComplete
  split
  · exact .refl p
  · extract_lets p1 p2 p3
    have h1 : Stores p p1 := .wr p _ (.inl (by decide))
    clear_value p1
    have h2 : Stores p p2 := by
      refine h1.trans (.fput p1 1 ?_)
      split <;> exact .inl (by decide)
    clear_value p2
    have hm : Stores p2 (modNv (fun v => { v with writing := none, lastEnd := now }) p2) := .of_eq rfl rfl
    have h3 : Stores p p3 := ((h2.trans hm).trans (stores_nvOwners false _)).trans (stores_nvShow _)
    clear_value p3
    exact .ite (stores_nvGood now _ p) (.ite (h1.trans (.of_eq rfl rfl)) (h3.trans (stores_logRec _ _ _ _ _ p3)))

theorem stores_nvSettle (now : Nat) (p : Polder) : Stores p (nvSettle now p) := by
  have hd : ∀ x, Stores x (drawn x) := fun x => .of_eq rfl rfl
  unfold nvSettle
  extract_lets p1
  have h1 : Stores p p1 := (hd p).trans (stores_nvComplete now _ _)
  clear_value p1
  exact .ite (.refl p) (.ite ((h1.trans (hd p1)).trans (stores_nvComplete now _ _)) h1)

theorem stores_nvFlush (now : Nat) (p : Polder) : Stores p (nvFlush now p) := by
  unfold nvFlush
  extract_lets p1
  have h1 : Stores p p1 := stores_nvSettle now p
  clear_value p1
  exact .ite ((h1.trans (stores_nvBegin now p1)).trans (stores_nvSettle now _)) h1

/-! ### The boot section (R448, R450) -/

theorem bootSec_putBootSec (now : Nat) (b : BootSec) (p : Polder) : bootSec (putBootSec now b p) = b := by
  have h := (stores_nvFlush now (setBootSec now b p)).bootSec
  refine h.trans ?_
  have hi := (nv_nvTouch now 1 p { p.nv.image with boot := some b }).1
  show (nvTouch now 1 p { p.nv.image with boot := some b }).nv.image.boot.getD _ = b
  rw [hi]
  rfl

theorem boot_putBootSec (now : Nat) (b : BootSec) (p : Polder) : (putBootSec now b p).boot = p.boot := by
  refine (stores_nvFlush now (setBootSec now b p)).boot.trans ?_
  show (nvTouch now 1 p { p.nv.image with boot := some b }).boot = _
  unfold nvTouch
  split <;> rfl

end

end Sys2Proof.Machine
end

section
/-!
SUPPORT. Presented time after a change, and SLEEP (R454): the outputs are off, the regime is SLEEP, and the polder's clock stands.
-/
namespace Sys2Proof.Machine
open Sys2Proof

section
variable {now : Nat} {p q : Polder}

/-! ### Presented time -/

theorem settles_timNote (now : Nat) {f : Fld} (step : Int) (p : Polder) (h : f.off / 65536 ≠ 0) : Settles p (timNote now f step p) := by
  unfold timNote
  extract_lets p1 p2
  have h1 : Settles p p1 := .evt p h
  clear_value p1
  have h2 : Settles p p2 := .ite h1 (h1.trans (settles_logRec _ _ _ _ _ p1))
  clear_value p2
  exact h2.trans (.of_eq rfl rfl)

theorem settles_timeUpdate (now : Nat) (b : Option Nat) (p : Polder) : Settles p (timeUpdate now b p) := by
  have hs : ∀ x, Settles x (stepCorr now x) := fun x => Settles.trans (q := setCorr now 0 (modTim _ x)) (.of_eq rfl rfl) (settles_timNote now _ _ (by decide))
  unfold timeUpdate
  extract_lets p1 q1 p2
  have h1 : Settles p p1 := .ite (hs p) (.refl p)
  clear_value p1
  have h2 : Settles p p2 := (h1.trans (.fput p1 _ (f := F.TIM_STAT_QUAL) (by decide))).trans (.fput _ _ (f := F.TIM_STAT_SLEW) (by decide))
  clear_value p2
  exact .ite (h2.trans (settles_timNote now 0 p2 (by decide))) h2

/-! ### The steps of SLEEP -/

/-- Every register but the field outputs' commands. -/
def notDocmd (off : Nat) : Prop := off ≠ A.FIO_DOCMD

theorem notDocmd_of_recorder (o : Nat) (h : recorderRegs o) : notDocmd o := by
  rintro rfl
  unfold recorderRegs at h
  revert h
  decide

theorem within_galStop (p : Polder) : Within recorderRegs p (galStop p) := by
  unfold galStop
  split
  · exact within_fput (f := F.GAL_STAT_STATE) p _ (.inr rfl)
  · unfold galFinish
    exact (((within_fput (f := F.GAL_STAT_STATE) p _ (.inr rfl)).trans (within_wr _ _ (.inr rfl))).trans (within_wr _ _ (.inr rfl))).trans
      (within_wr _ _ (.inr rfl))
  · exact .refl p

theorem within_recSleep (p : Polder) : Within recorderRegs p (recSleep p) := by
  have h1 := within_galStop p
  unfold recSleep
  dsimp only
  split
  · exact (h1.trans (within_fput (f := F.CAP_STAT_STATE) _ _ (.inl rfl))).trans (within_capHold _)
  · exact (h1.trans (within_capFinish _)).trans (within_fput (f := F.CAP_STAT_TRUNC) _ _ (.inl rfl))
  · exact h1

theorem within_brkRest (p : Polder) : Within notDocmd p (brkRest p) := by
  unfold brkRest
  extract_lets p0 p1
  have h0 : Within notDocmd p p0 := by
    unfold p0
    split
    · exact within_of_regs (regs_brkReply _ _ _)
    · exact .refl p
  clear_value p0
  have h1 : Within notDocmd p p1 := h0.trans (within_of_regs rfl)
  clear_value p1
  exact within_ite h1 (h1.trans (within_fput (f := F.PCT_REGIME_BRK) p1 0 (by unfold notDocmd; decide)))

theorem docmd_of_within (h : Within notDocmd p q) : docmd q = docmd p := h.fget (by unfold notDocmd; decide)

theorem docmd_order_none (now mask : Nat) (h : docmd p = 0 ∨ mask = 15) : docmd (order now mask 0 p) = 0 := by
  rw [docmd_order, Nat.zero_mod, Nat.zero_and, Nat.or_zero]
  rcases h with h | rfl
  · rw [h, Nat.zero_and]
  · exact Nat.and_zero _

theorem within_endRetrain (n status : Nat) (p : Polder) : Within (fun _ => False) p (endRetrain n status p) := by
  unfold endRetrain
  split
  · exact within_of_regs rfl
  · exact .refl p

theorem docmd_setRegime_sleep (now : Nat) (h : docmd p = 0) : docmd (setRegime now Rg.sleep 0 p) = 0 := by
  have hd : docmd (if regime p = Rg.precharge then drivePre now false p else p) = 0 := by
    split
    · show docmd (if fbit p F.PCT_REGCFG_PRE_EN then order now (2 ^ fget p F.PCT_REGCFG_PRE_DO) 0 p else p) = 0
      split
      · exact docmd_order_none now _ (.inl h)
      · exact h
    · exact h
  have he : ∀ (b : Bool) (x : Polder), docmd (evtIf b F.PCT_REGEVT_RIDE_OUT x) = docmd x := fun b x => by
    unfold evtIf
    split
    · exact fget_evt_off (f := F.FIO_DOCMD_DO) (g := F.PCT_REGEVT_RIDE_OUT) x (by decide)
    · rfl
  have hf : ∀ (f : Fld) (v : Nat) (x : Polder), f.off = A.PCT_REGIME → docmd (fput x f v) = docmd x := fun f v x ho =>
    fget_fput_off (g := F.FIO_DOCMD_DO) (f := f) x v (by rw [ho]; decide)
  refine (fget_setRegimeFrom now (regime p) Rg.sleep 0 p (f := F.FIO_DOCMD_DO) (by unfold logRegs; decide) (by decide)).trans ?_
  exact (hf F.PCT_REGIME_RIDE _ _ rfl).trans ((hf F.PCT_REGIME_PHASE _ _ rfl).trans ((hf F.PCT_REGIME_PREV _ _ rfl).trans
    ((hf F.PCT_REGIME_CUR _ _ rfl).trans ((he _ _).trans hd))))

/-- The polder that sleeps, before presented time follows. -/
theorem goSleep_facts (now : Nat) (p : Polder) :
    (goSleep now p).power = .asleep ∧ regime (goSleep now p) = Rg.sleep ∧ docmd (goSleep now p) = 0 := by
  unfold goSleep
  extract_lets p1 p2 p3 p4 p5 p6
  have h2 : docmd p2 = 0 := by
    have hr : docmd (recSleep (order now 15 0 p1)) = 0 :=
      (docmd_of_within ((within_recSleep _).mono notDocmd_of_recorder)).trans (docmd_order_none now 15 (.inr rfl))
    have hb : docmd (brkRest (recSleep (order now 15 0 p1))) = 0 := (docmd_of_within (within_brkRest _)).trans hr
    have hw : Within notDocmd (brkRest (recSleep (order now 15 0 p1))) p2 :=
      (Within.trans (q := laneStop (brkRest (recSleep (order now 15 0 p1))))
        ((Within.trans (q := modFlt _ (brkRest (recSleep (order now 15 0 p1)))) (within_of_regs rfl)
          (within_fput (f := F.FLT_STAT_SVRUN) _ 0 (by unfold notDocmd; decide))).trans
            (within_fput (f := F.FLT_STAT_BLKCYC) _ 0 (by unfold notDocmd; decide)))
        (within_fput (f := F.SWG_STAT_RUN) _ 0 (by unfold notDocmd; decide)))
    exact (docmd_of_within hw).trans hb
  clear_value p2
  have h3 : docmd p3 = 0 := by
    have hs := (within_fput (S := notDocmd) (f := F.SPB_STAT_STATE) p2 0 (by unfold notDocmd; decide))
    obtain ⟨o, ho⟩ := answerAcks_shape Status.state (fput p2 F.SPB_STAT_STATE 0)
    have ha : Within notDocmd p2 (answerAcks Status.state (fput p2 F.SPB_STAT_STATE 0)) := hs.trans (within_of_regs (by rw [ho]))
    exact (docmd_of_within (ha.trans (within_of_regs rfl))).trans h2
  clear_value p3
  have h4 : docmd p4 = 0 := by
    have hw : Within notDocmd p3 p4 := within_foldl _ _ p3 fun q n hn => within_ite (.refl q)
      (((within_endRetrain n Status.state q).mono fun _ h => h.elim).trans ((within_setLinkState n LinkSt.down _ (by simp at hn; omega)).mono fun o ho => by
        rintro rfl
        revert ho
        unfold inBlock
        decide))
    exact (docmd_of_within hw).trans h3
  clear_value p4
  have hn : docmd (nvFlush now p4) = 0 := by
    have hw : Within notDocmd p4 (nvFlush now p4) := (stores_nvFlush now p4).regs.mono fun o ho => by
      rintro rfl
      revert ho
      unfold nvRegs logRegs
      decide
    exact (docmd_of_within hw).trans h4
  have h5 : docmd p5 = 0 ∧ regime p5 = Rg.sleep := ⟨docmd_setRegime_sleep now hn, regime_setRegimeFrom now _ _ _ _ (by decide)⟩
  clear_value p5
  have hc : ∀ (f : Fld) (v : Nat) (x : Polder), f.off = A.CLK_STAT → docmd (fput x f v) = docmd x ∧ regime (fput x f v) = regime x := fun f v x hf =>
    ⟨fget_fput_off _ _ (by rw [hf]; decide), fget_fput_off _ _ (by rw [hf]; decide)⟩
  have h6 : docmd p6 = 0 ∧ regime p6 = Rg.sleep := by
    show docmd (fput (fput (fput p5 F.CLK_STAT_LOCK 0) F.CLK_STAT_SRC 1) F.CLK_STAT_STATE 4) = 0 ∧
      regime (fput (fput (fput p5 F.CLK_STAT_LOCK 0) F.CLK_STAT_SRC 1) F.CLK_STAT_STATE 4) = Rg.sleep
    rw [(hc _ _ _ rfl).1, (hc _ _ _ rfl).1, (hc _ _ _ rfl).1, (hc _ _ _ rfl).2, (hc _ _ _ rfl).2, (hc _ _ _ rfl).2]
    exact h5
  clear_value p6
  have hs := spares_timeUpdate now none (modClk (fun c => { c with calibrating := false }) { p6 with power := .asleep })
  exact ⟨(settles_timeUpdate now none _).power, (hs.fget (f := F.PCT_REGIME_CUR) (by decide)).trans h6.2,
    (hs.fget (f := F.FIO_DOCMD_DO) (by decide)).trans h6.1⟩

end

end Sys2Proof.Machine
end

section
/-!
SUPPORT. The commands of spec/16 and spec/17 to a polder: a command whose effect goes beyond its polder, a restart, the firmware slots and the logs.
-/
namespace Sys2Proof.Machine
open Sys2Proof

section
variable {k : Instr} {s : State} {t now : Nat} {i : PolderId} {op : Nat} {c : Cmd} {p : Polder}

/-! ### A command whose effect goes beyond its polder -/

theorem cardTakes_of_takes (h : s.takes i op c) : cardTakes op c (s.pol i) = true := by
  obtain ⟨-, -, d, hd, hl, hr, hg⟩ := h
  unfold cardTakes
  rw [hd]
  cases hres : rescue (s.pol i) with
  | false => simp only [hl, hg, Bool.not_false, Bool.true_or, Bool.and_self]
  | true => simp only [hl, hg, hr hres, Bool.or_true, Bool.and_self]

theorem doesAll_of_onCommandThen {f : Nat → Polder → Polder} {b : State → Bool} {g : Nat → State → State}
    (he : exec k s = onCommandThen t i c op s f b g) (h : s.takes i op c) (hb : b (s.at' t) = true) :
    ∃ z, DoesAll k s t (g (s.clock t) z) := by
  have hc := cardTakes_of_takes h
  obtain ⟨hu, hs, -⟩ := h
  refine ⟨collect (s.clock t) ((s.at' t).modPol i fun p => polish (s.clock t) (carried' op c p (f (s.clock t)))), ?_⟩
  unfold DoesAll
  rw [he]
  unfold onCommandThen atPolder
  rw [onDevice_eq]
  simp only [unavail_at, hu, at_pol, hs, hc, hb, Bool.and_self, if_true]

/-! ### Reset -/

theorem enterReset_power (cause : Nat) (sram : Bool) (p : Polder) :
    (enterReset cause sram p).power = .off ∧ (enterReset cause sram p).boot.cause = cause := ⟨rfl, rfl⟩

theorem pol_resetPol (now cause : Nat) (sram : Bool) (s : State) : (resetPol now i cause sram s).pol i = enterReset cause sram (s.pol i) := by
  unfold resetPol
  rw [(talks_hallDrop _ _ _ _).pol, pol_modPol_self]

theorem pol_restartPol (now cause : Nat) (s : State) :
    ((restartPol now i cause s).pol i).power = .off ∧ ((restartPol now i cause s).pol i).boot.cause = cause := by
  unfold restartPol
  rw [pol_resetPol]
  exact enterReset_power _ _ _

/-! ### SLEEP -/

theorem pol_toSleep (now : Nat) (s : State) : ((toSleep now i s).pol i).power = .asleep ∧ regime ((toSleep now i s).pol i) = Rg.sleep ∧
    docmd ((toSleep now i s).pol i) = 0 := by
  have h : (toSleep now i s).pol i = handed (goSleep now (s.pol i)) := by
    unfold toSleep
    show (hallDrop now i 4 (collect now (s.modPol i (goSleep now)))).pol i = _
    rw [(talks_hallDrop _ _ _ _).pol, (collects _ _).pol, pol_modPol_self]
  rw [h]
  exact goSleep_facts now (s.pol i)

/-! ### Firmware -/

theorem fwConfirm_facts (now : Nat) (p : Polder) : (bootSec (fwConfirm now p)).state = .confirmed ∧
    (bootSec (fwConfirm now p)).active = (bootSec p).trial ∧ (fwConfirm now p).boot.trialEnd = none := by
  unfold fwConfirm
  extract_lets b h p1 p2 p3
  have h2 : p2.boot.trialEnd = none := rfl
  clear_value p2
  have h3 : p3.boot.trialEnd = none := by
    unfold p3
    split
    · exact h2
    · rw [(stores_logRec _ _ _ _ _ _).boot]
      exact h2
  clear_value p3
  rw [bootSec_putBootSec, boot_putBootSec]
  exact ⟨rfl, rfl, h3⟩

theorem viewWord_MBX_STAT (part : Part) (now : Nat) (p : Polder) {k : Nat} (hk : k < 6) :
    viewWord part now p (A.MBX_STAT k) = mbxStat p k := by
  match k, hk with
  | 0, _ | 1, _ | 2, _ | 3, _ | 4, _ | 5, _ => rfl

/-- The registers of GET_ENGINES. -/
def engineRegs : List Nat :=
  [A.PCT_ENG, A.PCT_ENGEVT, A.PCT_CE_RESETS, A.PCT_SE_RESETS, A.PCT_CE_ECC1, A.PCT_SE_ECC1] ++ (List.range 6).map A.MBX_STAT ++
    [A.MBX_EPOCH, A.MBX_LOCKOWN0, A.MBX_LOCKOWN1]

theorem take_drop_engineRegs (part : Part) (now : Nat) (p : Polder) {k : Nat} (hk : k < 6) :
    ((regBytes part now p engineRegs).drop (24 + 4 * k)).take 4 = wBytes (mbxStat p k) := by
  have hlt : 6 + k < engineRegs.length := by
    show 6 + k < 15
    omega
  have hg : engineRegs[6 + k] = A.MBX_STAT k := by
    match k, hk with
    | 0, _ | 1, _ | 2, _ | 3, _ | 4, _ | 5, _ => rfl
  have h := take_drop_regBytes part now p engineRegs hlt
  rw [hg, viewWord_MBX_STAT part now p hk, Nat.mul_add] at h
  exact h

theorem length_slotBytes (p : Polder) (slot off n : Nat) : (slotBytes p slot off n).length = n := by
  unfold slotBytes
  rw [List.length_map, List.length_range]

/-- What precedes the two headers in the reply of GET_FIRMWARE has 16 bytes, and each header 64. -/
theorem take_drop_headers {a h0 h1 r : List Byte} (ha : a.length = 16) (h : (h0 ++ h1).length = 128) : ((a ++ h0 ++ h1 ++ r).drop 16).take 128 = h0 ++ h1 := by
  rw [List.append_assoc a, List.append_assoc a, List.drop_left' ha, List.take_left' h]

/-! ### Activation -/

theorem activateStatus_ok {part : Part} (h1 : byteAt c.payload 0 ≤ 1) (h2 : u32At c.payload 4 = 0 ∨ 10 ≤ u32At c.payload 4 ∧ u32At c.payload 4 ≤ 86400)
    (h3 : p.boot.erase = none) (h4 : slotResult part p (byteAt c.payload 0) = 0) (h5 : byteAt c.payload 0 ≠ (bootSec p).active) :
    (activateStatus part c p).1 = Status.ok := by
  unfold activateStatus
  extract_lets slot tmo r
  have hr : r = 0 := h4
  have hs : (slot == (bootSec p).active) = false := beq_false_of_ne h5
  rw [if_neg (by show ¬(1 < byteAt c.payload 0 ∨ (u32At c.payload 4 ≠ 0 ∧ (u32At c.payload 4 < 10 ∨ 86400 < u32At c.payload 4))); omega), h3, hr, hs]
  rfl

theorem cFwSlot_of_free {part : Part} {q : Polder} (hl : c.payload.length = 12 + u16At c.payload 2)
    (hr : ¬(2 < byteAt c.payload 0 ∨ 1 < byteAt c.payload 1 ∨ slotSize < u32At c.payload 4 + u16At c.payload 2 ∨
      (byteAt c.payload 0 = 1 ∧ u16At c.payload 2 = 0) ∨ (byteAt c.payload 0 ≠ 1 ∧ u16At c.payload 2 ≠ 0)))
    (he : p.boot.erase = none) (hs : (byteAt c.payload 0 != 2 && slotHeld p (byteAt c.payload 1)) = false)
    (hq : (match byteAt c.payload 0 with
      | 0 => answer (modBoot (fun x => { x with erase := some (byteAt c.payload 1, now, some (refOf Op.fwSlot c)) }) p) Op.fwSlot c (bare Status.pending)
      | 1 => answer (slotWrite (byteAt c.payload 1) (u32At c.payload 4) (c.payload.drop 12) p).2 Op.fwSlot c
          (if (slotWrite (byteAt c.payload 1) (u32At c.payload 4) (c.payload.drop 12) p).1 then okWith [] else bare Status.state)
      | _ => answer p Op.fwSlot c
          (okWith (leBytes 1 (slotResult part p (byteAt c.payload 1)) ++ zeros 3 ++ slotBytes p (byteAt c.payload 1) 0 64))) = q) :
    cFwSlot part now c p = q := by
  have hb : (p.boot.erase.isSome || (byteAt c.payload 0 != 2 && slotHeld p (byteAt c.payload 1))) = false := by
    rw [he, hs]
    rfl
  unfold cFwSlot
  dsimp only
  rw [if_neg (not_not.mpr hl)]
  refine (if_neg hr).trans ((if_neg (Bool.eq_false_iff.mp hb)).trans ?_)
  exact hq

end

/-- Settles O56: each card by its own rules, FW_ACTIVATE and SLEEP by the state in which they leave the polder. -/
theorem systemCommandsComplete : Obligations.SystemCommandsComplete := by
  unfold Obligations.SystemCommandsComplete
  intro s t i c b now p hb hn hp
  subst hb hn hp
  refine ⟨fun h => ⟨_, ?_, ?_, answers_of_onCommand (f := fun now => cGetNv s.part now c) rfl h rfl⟩,
    fun h => ⟨_, ?_, ?_, fun k hk => take_drop_engineRegs _ _ _ hk, answers_of_onCommand (f := fun now => cGetEngines s.part now c) rfl h rfl⟩,
    fun h => ⟨_, ?_, ?_, ?_, answers_of_onCommand (f := fun now => cGetFirmware s.part now c) rfl h rfl⟩,
    fun h hl h0 h1 h2 h4 he hs => ?_, fun q h hl h0 h1 h2 h4 he hs hq => ?_, fun h hl h0 h1 h2 h4 he => ?_, fun h h0 h4 he hr hs => ?_,
    fun q h hs ht hq => ⟨?_, ?_⟩, fun h h0 => ?_, fun h hs => ?_, fun h h0 h1 => ?_, fun out h h0 h4 h5 ho => ?_, fun l n x h h1 h0 hl ha hx => ?_⟩
  · simp only [length_regBytes, List.length_cons, List.length_nil]
  · rfl
  · exact length_regBytes _ _ _ engineRegs
  · rfl
  · simp only [List.length_append, length_regBytes, length_slotBytes, length_leBytes, List.length_cons, List.length_nil]
    rfl
  · rfl
  · have h : ∀ part now p l (h0 h1 x y z : List Byte), l.length = 4 → (h0 ++ h1).length = 128 →
        ((regBytes part now p l ++ h0 ++ h1 ++ x ++ y ++ z).drop 16).take 128 = h0 ++ h1 := fun part now p l h0 h1 x y z hl h => by
      rw [List.append_assoc _ y z, List.append_assoc _ x (y ++ z)]
      exact take_drop_headers (by rw [length_regBytes, hl]) h
    exact h _ _ _ _ _ _ _ _ _ rfl (by rw [List.length_append, length_slotBytes, length_slotBytes])
  · refine does_of_onCommand (f := fun now => cFwSlot s.part now c) rfl h (cFwSlot_of_free (by omega) (by omega) he (by rw [hs, Bool.and_false]) ?_)
    rw [h0]
    rfl
  · refine does_of_onCommand (f := fun now => cFwSlot s.part now c) rfl h (cFwSlot_of_free hl (by omega) he (by rw [hs, Bool.and_false]) ?_)
    rw [h0]
    show answer (slotWrite _ _ _ _).2 _ _ (if (slotWrite _ _ _ _).1 then _ else _) = _
    rw [hq]
    rfl
  · refine answers_of_onCommand (f := fun now => cFwSlot s.part now c) rfl h (cFwSlot_of_free (by omega) (by omega) he (by rw [h0]; rfl) ?_)
    rw [h0]
    rfl
  · obtain ⟨z, hz⟩ := doesAll_of_onCommandThen (k := .fwActivate t i c) (execFwActivate_eq t i c s) h (by
      rw [at_pol, activateStatus_ok h0 h4 he hr hs]
      rfl)
    exact ⟨_, hz, pol_restartPol _ _ _⟩
  · subst hq
    exact does_of_onCommand (f := fun now => cFwConfirm now c) rfl h (if_neg (by rw [hs, ht]; simp))
  · subst hq
    exact fwConfirm_facts _ _
  · exact commits_of_setCmd (f := fun now => cSetPerformance now c) rfl h rfl (within_of_forall (by simp; omega))
  · obtain ⟨z, hz⟩ := doesAll_of_onCommandThen (k := .sleep t i c) (execSleep_eq t i c s) h hs
    exact ⟨_, hz, pol_toSleep _ _⟩
  · exact commits_of_setCmd (f := fun now => cSetLog now c) rfl h rfl (within_of_forall (by
      have : byteAt c.payload 1 < 256 := (c.payload.getD 1 0).isLt
      simp
      omega))
  · subst ho
    refine answers_of_onCommand (f := fun _ => cReadLog c) rfl h ?_
    unfold cReadLog logReply polLog
    rw [h5]
    exact congrArg (answer _ _ _) (if_neg (by omega))
  · subst hl hx
    refine does_of_onCommand (f := fun now => cSetMonitor now c) rfl h ?_
    unfold cSetMonitor
    dsimp only
    rw [if_neg (by omega), sluBasic_of_sluiceTakes c.sess none ha.2, h0]
    rfl

end Sys2Proof.Machine
end

section
/-!
SUPPORT. O57: the commands of the Dikehouse (R457 to R472).
-/
namespace Sys2Proof.Machine
open Sys2Proof

variable {s y : State} {t now : Nat} {c : Cmd} {k : Instr} {op : Nat}

/-! ### Commands of the Dikehouse -/

theorem doesAll_of_onDkh {f : Nat → State → State} (he : exec k s = onDkh t c op s f) (h : s.dkhTakes op c) (hf : f (s.clock t) (s.at' t) = y) :
    DoesAll k s t y := by
  obtain ⟨hup, d, hd, hl⟩ := h
  refine doesAll_of_onDevice he ?_
  rw [hd]
  dsimp only
  rw [show (s.at' t).dkh.up = true from hup, hl]
  exact hf

theorem not_absent_of_present {part : Part} {m : Nat} (h : ∀ i : PolderId, m.testBit (i.num - 1) = true → Part.has part i = true) :
    ([PolderId.A, .B, .C, .D].any fun i => m.testBit (i.num - 1) && !Part.has part i) = false := by
  refine List.any_eq_false.mpr fun i _ => ?_
  cases hb : m.testBit (i.num - 1) with
  | false => simp
  | true => simp [h i hb]

theorem polderPower_of_requestable {a : Nat} (ha : byteAt c.payload 1 = a) (h : 1 ≤ a ∧ a ≤ 5)
    (hp : ∀ i : PolderId, (byteAt c.payload 0 % 16).testBit (i.num - 1) = true → Part.has s.part i = true)
    (hr : powerRefused s (byteAt c.payload 0 % 16) a = false) :
    polderPower c s = modDkh (fun d => { d with requests := d.requests ++ [(byteAt c.payload 0 % 16, a, refOf Op.polderPower c)] }) s := by
  subst ha
  unfold polderPower
  dsimp only
  rw [if_neg (by omega)]
  exact (if_neg (Bool.eq_false_iff.mp (not_absent_of_present hp))).trans (if_neg (Bool.eq_false_iff.mp hr))

/-! ### SET_WATCH -/

theorem watchCode_le (mv : Nat) : watchCode mv ≤ 4095 := Nat.min_le_left _ _

/-- The word of DKH_WINCFG that SET_WATCH makes of its fields. -/
def watchWord (en f hys hi lo : Nat) : Word := wordN (en % 2 * 2147483648 + f * 134217728 + hys * 16777216 + hi * 4096 + lo)

theorem bitsOf_wordN (n hi lo : Nat) : bitsOf (wordN n) hi lo = n % 2 ^ 32 / 2 ^ lo % 2 ^ (hi + 1 - lo) := by
  unfold bitsOf wordN
  rw [BitVec.toNat_ofNat]

theorem fields_watchWord {f hys hi lo : Nat} (en : Nat) (hf : f ≤ 10) (hh : hys ≤ 7) (hhi : hi ≤ 4095) (hlo : lo ≤ 4095) :
    bitsOf (watchWord en f hys hi lo) 30 27 = f ∧ bitsOf (watchWord en f hys hi lo) 23 12 = hi ∧ bitsOf (watchWord en f hys hi lo) 11 0 = lo := by
  unfold watchWord
  simp only [bitsOf_wordN]
  norm_num
  omega

/-- The row of DKH_WINCFG. -/
def watchRow : RegRow := ⟨0x40, 0x4, 8, [0x22FFF000],
    [⟨31, 31, .rw, .any⟩, ⟨30, 27, .rw, .nat 0 10⟩, ⟨26, 24, .rw, .any⟩, ⟨23, 12, .rw, .any⟩, ⟨11, 0, .rw, .any⟩]⟩

theorem findRow_WINCFG {k : Nat} (hk : k ≤ 7) : findRow rowsDKH (A.DKH_WINCFG k) = some (watchRow, k) := by
  match k, hk with
  | 0, _ | 1, _ | 2, _ | 3, _ | 4, _ | 5, _ | 6, _ | 7, _ => rfl

theorem directWord_WINCFG {w : Word} (old kept : Word) (h : bitsOf w 30 27 ≤ 10) :
    directWord watchRow old w kept = .word w 0 := by
  unfold directWord
  rw [if_neg (by decide)]
  have hok : fieldsOk watchRow [.rw, .wo] (BitVec.allOnes 32) w
      = true := by
    refine List.all_eq_true.mpr fun f hf => ?_
    unfold watchRow at hf
    simp only [List.mem_cons, List.not_mem_nil, or_false] at hf
    rcases hf with rfl | rfl | rfl | rfl | rfl
    · rfl
    · exact Bool.or_eq_true_iff.mpr (.inr (by simp [rngOk, h]))
    · rfl
    · rfl
    · rfl
  rw [hok]
  dsimp only
  rw [show accMask watchRow [.rw] = BitVec.allOnes 32 by decide,
    show accMask watchRow [.w1c] = 0 by decide,
    show accMask watchRow [.wo] = 0 by decide]
  have hw : merge old (BitVec.allOnes 32) w &&& ~~~(w &&& 0 &&& ~~~kept) = w := by
    show merge old (BitVec.allOnes 32) w &&& ~~~(w &&& 0#32 &&& ~~~kept) = w
    unfold merge
    rw [BitVec.not_allOnes, BitVec.and_zero, BitVec.zero_or, BitVec.and_allOnes, BitVec.and_zero, BitVec.zero_and, BitVec.not_zero, BitVec.and_allOnes]
  show WriteOut.word _ _ = _
  rw [hw]
  exact congrArg (WriteOut.word w) (BitVec.and_zero)

theorem dkhWordOk_WINCFG {k : Nat} {w : Word} (hk : k ≤ 7) (h : bitsOf w 11 0 < bitsOf w 23 12) : dkhWordOk (A.DKH_WINCFG k) w = true := by
  unfold dkhWordOk
  have hany : ((List.range 8).any fun j => A.DKH_WINCFG j == A.DKH_WINCFG k) = true :=
    List.any_eq_true.mpr ⟨k, List.mem_range.mpr (Nat.lt_succ_of_le hk), beq_iff_eq.mpr rfl⟩
  exact (if_pos hany).trans (decide_eq_true h)

theorem krd_kput_ne (d : Dikehouse) {f : Fld} {o : Nat} (v : Nat) (h : o ≠ f.off) : krd (kput d f v) o = krd d o := krd_kwr_ne d _ h

theorem dkhWrite_WINCFG {k : Nat} {w : Word} (hk : k ≤ 7) (hf : bitsOf w 30 27 ≤ 10) (h : bitsOf w 11 0 < bitsOf w 23 12) :
    ∃ s1, dkhWrite now 4 (A.DKH_WINCFG k) w s = (.ok, s1) ∧ krd s1.dkh (A.DKH_WINCFG k) = w ∧ s1.dkh.waiting = s.dkh.waiting := by
  have hal : ¬A.DKH_WINCFG k % 4 ≠ 0 := by
    unfold A.DKH_WINCFG
    omega
  unfold dkhWrite
  rw [if_neg hal, findRow_WINCFG hk]
  dsimp only
  rw [directWord_WINCFG _ _ hf]
  dsimp only
  rw [dkhWordOk_WINCFG hk h, if_neg (by decide), if_neg (by unfold A.DKH_WINCFG A.DKH_CMD; omega), if_neg (by unfold A.DKH_WINCFG A.DKH_RTC; omega)]
  cases hfind : (List.range 8).find? fun j => A.DKH_WINCFG j == A.DKH_WINCFG k with
  | none => exact ⟨_, rfl, krd_kwr_self _ _ _, rfl⟩
  | some j =>
    have hj : j < 8 := List.mem_range.mp (List.mem_of_find?_eq_some hfind)
    dsimp only
    split
    · exact ⟨_, rfl, krd_kwr_self _ _ _, rfl⟩
    · exact ⟨_, rfl, (krd_kput_ne _ _ (by show 0x40 + 4 * k ≠ 0x60 + 4 * j; omega)).trans (krd_kwr_self _ _ _), rfl⟩

theorem krd_devTouch (now sect : Nat) (f : DevRecord → DevRecord) (d : Dikehouse) (o : Nat) : krd (devTouch now sect f d) o = krd d o := by
  unfold devTouch
  split <;> rfl

theorem dirtySince_devTouch (now sect : Nat) (f : DevRecord → DevRecord) (d : Dikehouse) : (devTouch now sect f d).dirtySince.isSome = true := by
  unfold devTouch
  split
  next h => exact Option.isSome_iff_exists.mpr ⟨_, h⟩
  next => rfl

theorem dkhSetting_of_ok {off : Nat} {w : Word} {l : List Byte} {s1 : State} (h : dkhWrite now 4 off w s = (.ok, s1)) :
    dkhSetting now op c off w l s = modDkh (fun d => { dkhSave now d with waiting := d.waiting ++ [⟨15, c.sess, op, c.seq, 0, 0, l⟩] }) s1 := by
  unfold dkhSetting
  dsimp only
  rw [h]

theorem setWatch_fields {k : Nat} (hk : k = byteAt c.payload 0) (h7 : k ≤ 7) (hf : byteAt c.payload 2 ≤ 10) (hh : byteAt c.payload 3 ≤ 7)
    (hlo : u16At c.payload 4 ≤ 3000) (hhi : u16At c.payload 6 ≤ 3000) (hlt : watchCode (u16At c.payload 4) < watchCode (u16At c.payload 6))
    {w : Word} (hw : w = watchWord (byteAt c.payload 1) (byteAt c.payload 2) (byteAt c.payload 3) (watchCode (u16At c.payload 6)) (watchCode (u16At c.payload 4))) :
    krd (setWatch now c s).dkh (A.DKH_WINCFG k) = w ∧
      (setWatch now c s).dkh.waiting = s.dkh.waiting ++ [⟨15, c.sess, Op.setWatch, c.seq, 0, 0, wBytes w⟩] ∧
      (setWatch now c s).dkh.dirtySince.isSome = true := by
  obtain ⟨h1, h2, h3⟩ := fields_watchWord (byteAt c.payload 1) hf hh (watchCode_le (u16At c.payload 6)) (watchCode_le (u16At c.payload 4))
  rw [← hw] at h1 h2 h3
  obtain ⟨s1, hs1, hr, hwait⟩ := dkhWrite_WINCFG (now := now) (s := s) h7 (h1.trans_le hf) (by rw [h2, h3]; exact hlt)
  have he : setWatch now c s = modDkh (fun d => { dkhSave now d with waiting := d.waiting ++ [⟨15, c.sess, Op.setWatch, c.seq, 0, 0, wBytes w⟩] }) s1 := by
    unfold setWatch
    dsimp only
    rw [if_neg (by omega), ← hk]
    subst hw
    exact dkhSetting_of_ok hs1
  rw [he]
  refine ⟨?_, ?_, dirtySince_devTouch now 4 _ s1.dkh⟩
  · exact (krd_devTouch now 4 _ s1.dkh _).trans hr
  · exact congrArg (· ++ _) hwait

/-! ### SET_RULE, SET_SUPERVISION -/

theorem setRule_of_ok {s1 s2 : State} (hr : byteAt c.payload 0 ≤ 15)
    (h1 : dkhWrite now 4 (A.DKH_RULE_A (byteAt c.payload 0)) (wordN (u32At c.payload 4)) s = (.ok, s1))
    (h2 : dkhWrite now 4 (A.DKH_RULE_B (byteAt c.payload 0)) (wordN (u32At c.payload 8)) s1 = (.ok, s2)) :
    setRule now c s = modDkh (fun d => { dkhSave now d with waiting := d.waiting ++ [⟨15, c.sess, Op.setRule, c.seq, 0, 0, []⟩] }) s2 := by
  unfold setRule
  dsimp only
  rw [if_neg (by omega), h1]
  dsimp only
  rw [h2]

theorem setSupervision_of_ok {i : PolderId} {s1 : State} (hi : polderNo (byteAt c.payload 0) = some i) (hp : Part.has s.part i = true)
    (h1 : dkhWrite now 4 (A.DKH_SUP (byteAt c.payload 0 - 1)) (wordN (u32At c.payload 4)) s = (.ok, s1)) :
    setSupervision now c s = modDkh (fun d => { dkhSave now d with waiting := d.waiting ++ [⟨15, c.sess, Op.setSupervision, c.seq, 0, 0, []⟩] }) s1 := by
  unfold setSupervision
  dsimp only
  rw [hi]
  dsimp only
  rw [hp]
  exact dkhSetting_of_ok h1

/-! ### GET_DIKEHOUSE -/

/-- The registers that GET_DIKEHOUSE answers. -/
def dikehouseRegs : List Nat :=
  [A.DKH_STAT, A.DKH_EVT, A.DKH_RTC, A.DKH_ALARM] ++ (List.range 8).map A.DKH_WIN ++ (List.range 4).map A.DKH_RSTCNT ++
    [A.DKH_NVSTAT, A.DKH_NVSEQ 0, A.DKH_NVSEQ 1]

theorem getDikehouse_eq (c : Cmd) (s : State) :
    getDikehouse c s = dkhReply Op.getDikehouse c.sess c.seq (okWith (dikehouseRegs.flatMap fun o => wBytes (dkhWord s o))) s := by
  unfold getDikehouse
  refine congrArg (fun l => dkhReply Op.getDikehouse c.sess c.seq (okWith l) s) ?_
  unfold dikehouseRegs
  simp only [List.flatMap_append, List.flatMap_cons, List.flatMap_nil, List.flatMap_map, List.append_assoc, List.append_nil]

theorem take_drop_dikehouseRegs (s : State) {k : Nat} (hk : k < 8) :
    ((dikehouseRegs.flatMap fun o => wBytes (dkhWord s o)).drop (16 + 4 * k)).take 4 = wBytes (krd s.dkh (A.DKH_WIN k)) := by
  match k, hk with
  | 0, _ | 1, _ | 2, _ | 3, _ | 4, _ | 5, _ | 6, _ | 7, _ => rfl

/-! ### READ_LOG -/

theorem logReply_of_ok {l out : List LogRec} {next lost : Nat} (h1 : u32At c.payload 0 ≤ next) (h2 : 1 ≤ byteAt c.payload 4 ∧ byteAt c.payload 4 ≤ 31)
    (h3 : byteAt c.payload 5 ≤ 1) (ho : out = (l.reverse.dropWhile fun r => decide (r.number < u32At c.payload 0)).take (byteAt c.payload 4)) :
    logReply c l next lost = okWith (leBytes 4 ((l.reverse.head?.map (·.number)).getD next) ++ leBytes 4 next ++ leBytes 4 lost ++
      leBytes 1 out.length ++ zeros 3 ++ out.flatMap LogRec.bytes) := by
  subst ho
  unfold logReply
  exact if_neg (by omega)

/-- Settles O57: each card by its own rules, with the word that SET_WATCH makes of its fields. -/
theorem dikehouseCommandsComplete : Obligations.DikehouseCommandsComplete := by
  unfold Obligations.DikehouseCommandsComplete
  intro s t c b now hb hn
  subst hb hn
  refine ⟨fun h ha hp hr => ?_, fun k w h hk h7 hf hh hlo hhi hlt hw => ?_, fun r s1 s2 h hr h15 h1 h2 => ?_, fun i s1 h hi hp h1 => ?_, fun h => ?_,
    fun out h hn h4 h5 ho => ?_⟩
  · exact doesAll_of_onDkh (op := Op.polderPower) (k := .polderPower t c) (f := fun _ => polderPower c) rfl h (polderPower_of_requestable rfl ha hp hr)
  · exact ⟨setWatch (s.clock t) c (s.at' t), doesAll_of_onDkh (op := Op.setWatch) (k := .setWatch t c) (f := fun now => setWatch now c) rfl h rfl,
      setWatch_fields (s := s.at' t) hk h7 hf hh hlo hhi hlt hw⟩
  · subst hr
    exact doesAll_of_onDkh (op := Op.setRule) (k := .setRule t c) (f := fun now => setRule now c) rfl h (setRule_of_ok h15 h1 h2)
  · exact doesAll_of_onDkh (op := Op.setSupervision) (k := .setSupervision t c) (f := fun now => setSupervision now c) rfl h (setSupervision_of_ok hi hp h1)
  · refine ⟨dikehouseRegs.flatMap fun o => wBytes (dkhWord (s.at' t) o), ?_, rfl, fun k hk => take_drop_dikehouseRegs (s.at' t) hk,
      doesAll_of_onDkh (op := Op.getDikehouse) (k := .getDikehouse t c) (f := fun _ => getDikehouse c) rfl h (getDikehouse_eq c _)⟩
    rw [length_flatMap_of _ (m := 4) (fun o => length_wBytes (dkhWord (s.at' t) o))]
    rfl
  · refine doesAll_of_onDkh (op := Op.readLog) (k := .readLog t .dikehouse c) (f := fun _ y =>
      dkhReply Op.readLog c.sess c.seq (logReply c (devLogStore y.dkh (byteAt c.payload 5)) y.dkh.nextNo 0) y) rfl h ?_
    refine congrArg (fun r => dkhReply Op.readLog c.sess c.seq r (s.at' t)) ?_
    rw [h5]
    exact logReply_of_ok hn h4 (by omega) ho

end Sys2Proof.Machine
end

section
/-!
SUPPORT. The store of a polder and the device banks (R453, R466 to R470): writes and their ends.
-/
namespace Sys2Proof.Machine
open Sys2Proof

variable {p : Polder} {now : Nat}

/-! ### Records -/

theorem ne_not (w : Word) : w ≠ ~~~w := fun h => by
  have := congrArg (fun x : Word => x[0]) h
  simp at this

theorem torn_valid (b : NvBank) : b.torn.valid = false := by
  have h : (~~~(crc32 (recordBytes b.magic b.version b.seq b.length (sectionBytes b.data.sections))) ==
      crc32 (recordBytes b.magic b.version b.seq b.length (sectionBytes b.data.sections))) = false := beq_false_of_ne (ne_not _).symm
  show (_ && (_ == _)) = false
  exact Bool.and_eq_false_iff.mpr (.inr h)

theorem written_valid (seq : Nat) (r : NvRecord) (h : recordLength r.sections ≤ 16360) : (NvBank.written seq r).valid = true := by
  have hd : decide ((NvBank.written seq r).length ≤ 16360) = true := decide_eq_true h
  unfold NvBank.valid recordOk
  rw [hd]
  exact beq_iff_eq.mpr rfl

/-! ### The store of a polder -/

theorem fget_of_rd {q : Polder} {f : Fld} (h : rd q f.off = rd p f.off) : fget q f = fget p f := congrArg (bitsOf · f.hi f.lo) h

theorem nv_nvShow (p : Polder) : (nvShow p).nv = p.nv := rfl

theorem fget_nvShow_bank (p : Polder) : fget (nvShow p) F.NVS_STAT_BANK = fget p F.NVS_STAT_BANK := by
  have hb : ∀ (f : Fld) (x v), f.hi < 31 → fget (fput x f v) F.NVS_STAT_BANK = fget x F.NVS_STAT_BANK := fun f x v h =>
    fget_fput_bits x v (.inr h)
  have hw : ∀ k x w, fget (wr x (A.NVS_SEQ k) w) F.NVS_STAT_BANK = fget x F.NVS_STAT_BANK := fun k x w =>
    fget_of_rd (rd_wr_ne _ _ (by unfold A.NVS_SEQ; show 0x110000 ≠ _; omega))
  unfold nvShow
  extract_lets p1 cur p2
  have h1 : fget p1 F.NVS_STAT_BANK = fget p F.NVS_STAT_BANK := (hb F.NVS_STAT_VALID1 _ _ (by decide)).trans (hb F.NVS_STAT_VALID0 _ _ (by decide))
  clear_value p1 cur
  have h2 : fget p2 F.NVS_STAT_BANK = fget p1 F.NVS_STAT_BANK := hb F.NVS_STAT_SECT _ _ (by decide)
  clear_value p2
  exact (hw 1 _ _).trans ((hw 0 _ _).trans ((hb F.NVS_STAT_BUSY _ _ (by decide)).trans (h2.trans h1)))

theorem rd_nvShow (p : Polder) {o : Nat} (h : o ≠ A.NVS_STAT) (h0 : o ≠ A.NVS_SEQ 0) (h1 : o ≠ A.NVS_SEQ 1) : rd (nvShow p) o = rd p o := by
  have hb : ∀ (f : Fld) (x v), f.off = A.NVS_STAT → rd (fput x f v) o = rd x o := fun f x v hf => rd_fput_ne x f v (by rw [hf]; exact h)
  unfold nvShow
  extract_lets p1 cur p2
  have hp1 : rd p1 o = rd p o := (hb F.NVS_STAT_VALID1 _ _ rfl).trans (hb F.NVS_STAT_VALID0 _ _ rfl)
  clear_value p1 cur
  have hp2 : rd p2 o = rd p1 o := hb F.NVS_STAT_SECT _ _ rfl
  clear_value p2
  exact (rd_wr_ne _ _ h1).trans ((rd_wr_ne _ _ h0).trans ((hb F.NVS_STAT_BUSY _ _ rfl).trans (hp2.trans hp1)))

theorem nvBegin_fields (h : bankInUse p = some 0) : (nvBegin now p).nv.writing = some (1, now, false) ∧ (nvBegin now p).nv.writeData = p.nv.image ∧
    (nvBegin now p).nv.dirtySince = none ∧ (nvBegin now p).nv.bank0 = p.nv.bank0 ∧ (nvBegin now p).nv.bank1.valid = false := by
  have hn : nextBank p = (1, (p.nv.bank0.seq + 1) % 4294967296) := by
    unfold nextBank
    rw [h]
    rfl
  unfold nvBegin
  rw [hn]
  exact ⟨rfl, rfl, rfl, rfl, torn_valid _⟩

theorem nvWrite_of_due (h1 : p.nv.writing = none) (h2 : p.nv.dirtySince.isSome = true) (h3 : p.nv.lastEnd + 100 * ms ≤ now) : nvWrite now p = nvBegin now p := by
  unfold nvWrite
  rw [h1, h2, decide_eq_true h3]
  simp

/-- What the owners of the sections do changes no word of the store's registers, and not the store. -/
theorem nvOwners_frame (ok : Bool) (p : Polder) : (nvOwners ok p).nv = p.nv ∧ ∀ o, o ≠ A.LRN_STAT → o ≠ A.LRN_EVT → rd (nvOwners ok p) o = rd p o := by
  unfold nvOwners
  extract_lets l x p1
  have h1 : p1.nv = p.nv ∧ ∀ o, o ≠ A.LRN_STAT → rd p1 o = rd p o := by
    unfold p1
    split
    · exact ⟨rfl, fun o ho => rd_fput_ne _ _ _ ho⟩
    · exact ⟨rfl, fun _ _ => rfl⟩
  clear_value p1
  obtain ⟨hn, hr⟩ := h1
  split
  · exact ⟨hn, fun o h2 h3 => (rd_evt_ne _ _ (by cases ok <;> exact h3)).trans (hr o h2)⟩
  · exact ⟨hn, fun o h2 _ => hr o h2⟩

theorem setBank_bank (k : Nat) (b : NvBank) (p : Polder) : (if k = 0 then (setBank k b p).nv.bank0 else (setBank k b p).nv.bank1) = b := by
  unfold setBank
  split <;> rfl

theorem nvGood_fields {k : Nat} (hk : k < 2) (now : Nat) (p : Polder) : (nvGood now k p).nv.writing = none ∧
    (if k = 0 then (nvGood now k p).nv.bank0 else (nvGood now k p).nv.bank1) =
      NvBank.written (if k = 0 then p.nv.bank0 else p.nv.bank1).seq p.nv.writeData ∧
    fget (nvGood now k p) F.NVS_STAT_BANK = k ∧ rdN (nvGood now k p) A.NVS_WRITES = min 4294967295 (rdN p A.NVS_WRITES + 1) := by
  unfold nvGood
  extract_lets seq p1 p2
  have hb := setBank_bank k (NvBank.written seq p.nv.writeData) p
  have hr : rd p1 A.NVS_WRITES = rd p A.NVS_WRITES := by
    unfold p1 setBank
    split <;> rfl
  change (if k = 0 then p1.nv.bank0 else p1.nv.bank1) = _ at hb
  clear_value p1
  have h2 : p2.nv = { p1.nv with writing := none, lastEnd := now } := rfl
  have hbank : fget p2 F.NVS_STAT_BANK = k := (fget_fput_self (addSat p1 A.NVS_WRITES 1) F.NVS_STAT_BANK k (by decide)).trans (Nat.mod_eq_of_lt hk)
  have hwr : rdN p2 A.NVS_WRITES = min 4294967295 (rdN p1 A.NVS_WRITES + 1) :=
    (rdN_of_rd (rd_fput_ne (addSat p1 A.NVS_WRITES 1) F.NVS_STAT_BANK k (by decide))).trans (rdN_addSat p1 A.NVS_WRITES 1)
  clear_value p2
  obtain ⟨hn, ho⟩ := nvOwners_frame true p2
  rw [nv_nvShow, hn, h2]
  refine ⟨rfl, hb, ?_, ?_⟩
  · rw [fget_nvShow_bank, ← hbank]
    exact fget_of_rd (ho _ (by decide) (by decide))
  · rw [← rdN_of_rd hr, ← hwr]
    exact rdN_of_rd ((rd_nvShow _ (by decide) (by decide) (by decide)).trans (ho _ (by decide) (by decide)))

theorem nvComplete_good {k t0 : Nat} {a : Bool} (h : p.nv.writing = some (k, t0, a)) : nvComplete now true p = nvGood now k p := by
  unfold nvComplete
  rw [h]
  rfl

theorem nvComplete_again {k t0 : Nat} (h : p.nv.writing = some (k, t0, false)) :
    nvComplete now false p = modNv (fun v => { v with writing := some (k, now, true) }) (addSat p A.NVS_FAILS 1) := by
  unfold nvComplete
  rw [h]
  rfl

/-! ### Flash -/

theorem flashAt_eq_erased {l : List Host.Cell} {a : Nat} (h : ∀ c ∈ l, c.1 ≠ a) : flashAt l a = 0xFF := by
  induction l with
  | nil => rfl
  | cons c l ih =>
    obtain ⟨hc, hl⟩ := List.forall_mem_cons.mp h
    exact (if_neg hc).trans (ih hl)

theorem eraseComplete_fields {k t0 : Nat} {r : CmdRef} (h : p.boot.erase = some (k, t0, some r)) : (eraseComplete p).boot.erase = none ∧
    (∀ a, k * slotSize ≤ a → a < k * slotSize + slotSize → flashAt (eraseComplete p).boot.flash a = 0xFF) ∧
    (eraseComplete p).out = p.out ++ [.done r.sess p.id.num r.opcode r.seq Status.ok 0 []] := by
  unfold eraseComplete
  rw [h]
  refine ⟨rfl, fun a h1 h2 => flashAt_eq_erased fun c hc => ?_, rfl⟩
  have hk := of_decide_eq_true (List.mem_filter.mp hc).2
  omega

/-! ### The device banks -/

theorem devWrite_of_due {d : Dikehouse} (h0 : d.up = true) (h1 : d.writing = none) (h2 : d.dirtySince.isSome = true) (h3 : d.lastEnd + 100 * ms ≤ now) :
    (devWrite now d).writing.isSome = true ∧ (devWrite now d).writeData = d.image ∧ (devWrite now d).dirtySince = none := by
  have hc : (d.up && d.writing.isNone && d.dirtySince.isSome && (d.lastEnd == 0 || decide (d.lastEnd + 100 * ms ≤ now))) = true := by
    rw [h0, h1, h2, decide_eq_true h3]
    simp
  unfold devWrite
  rw [if_pos hc]
  dsimp only [setDevBank]
  split <;> exact ⟨rfl, rfl, rfl⟩

theorem setDevBank_bank (k : Nat) (b : DevBank) (d : Dikehouse) : (if k = 0 then (setDevBank k b d).bank0 else (setDevBank k b d).bank1) = b := by
  unfold setDevBank
  split <;> rfl

theorem releaseWaiting_ok (d : Dikehouse) : releaseWaiting true d =
    { d with waiting := d.waiting.drop d.covered, covered := 0, out := d.out ++ (d.waiting.take d.covered).map Out.answer } := by
  have h : (d.waiting.take d.covered).flatMap (fun a => [Out.answer a]) = (d.waiting.take d.covered).map Out.answer := List.flatMap_pure_eq_map _ _
  rw [← h]
  rfl

end Sys2Proof.Machine
end

section
/-!
SUPPORT. Start-up, wake and reset of a polder (R444, R445, R455): what stands in the polder afterwards.
-/
namespace Sys2Proof.Machine
open Sys2Proof

variable {p q : Polder} {now : Nat} {i : PolderId} {s : State}

/-! ### Frames of field I/O -/

theorem settles_driveOne (now k : Nat) (p : Polder) : Settles p (driveOne now k p) := by
  refine .of_within ?_ (within_driveOne now k p) fun o ho => .inl (by unfold inBlock at ho; omega)
  unfold driveOne
  dsimp only
  split <;> rfl

theorem settles_order (now mask val : Nat) (p : Polder) : Settles p (order now mask val p) := by
  unfold order
  extract_lets m cmd p1 p2
  have h1 : Settles p p1 := .fput p _ (f := F.FIO_DOCMD_DO) (by decide)
  clear_value p1
  have h2 : Settles p1 p2 := .foldl _ _ p1 fun q k _ => .ite (.of_eq rfl rfl) (.refl q)
  clear_value p2
  exact (h1.trans h2).trans (.foldl _ _ p2 fun q k _ => settles_driveOne now k q)

theorem settles_rawChange (now k : Nat) (b : Bool) (p : Polder) : Settles p (rawChange now k b p) := by
  unfold rawChange
  exact .ite (.refl p) ((Settles.trans (q := setDin k _ p) (.of_eq rfl rfl) (.wr _ (off := A.FIO_DI) _ (by decide))))

theorem settles_dinResume (now : Nat) (p : Polder) : Settles p (dinResume now p) :=
  .foldl _ _ p fun q k _ => by
    have h1 : ∀ x, Settles q (setDin k x q) := fun x => .of_eq rfl rfl
    exact (h1 _).trans (settles_rawChange now k _ _)

theorem settles_settlingEnd (now : Nat) (p : Polder) : Settles p (settlingEnd now p) := by
  have h1 : Settles p (fput p F.AFE_STAT_SETTLING 0) := .fput p _ (by decide)
  exact .ite (h1.trans (.foldl _ _ _ fun q k _ => settles_cmpFollow now k q)) (.refl p)

/-! ### A transition -/

theorem aside_fput (p : Polder) (f : Fld) (v : Nat) : aside (fput p f v) = aside p := rfl

theorem aside_wrTime (p : Polder) (a b c : Nat) (x : Int) : aside (wrTime p a b c x) = aside p := rfl

/-- A transition leaves power, boot and lane 1 alone. -/
theorem aside_setRegimeFrom (now old new phase : Nat) (p : Polder) : aside (setRegimeFrom now old new phase p) = aside p := by
  have hd : aside (if old = Rg.precharge then drivePre now false p else p) = aside p := by
    split
    · exact (Settles.ite (settles_order now _ _ p) (.refl p)).kept
    · rfl
  unfold setRegimeFrom
  extract_lets p1 p2 p3 p4 p5
  change aside p1 = _ at hd
  clear_value p1
  have h2 : aside p2 = aside p1 := by
    unfold p2 evtIf
    split <;> rfl
  clear_value p2
  have h3 : aside p3 = aside p2 := ((aside_fput _ _ _).trans (aside_fput _ _ _)).trans ((aside_fput _ _ _).trans (aside_fput _ _ _))
  clear_value p3
  have h4 : aside p4 = aside p3 := aside_wrTime _ _ _ _ _
  clear_value p4
  have h5 : aside p5 = aside p2 := Eq.trans (b := aside p4) rfl (h4.trans h3)
  clear_value p5
  show aside (logRec now _ _ _ _ p5) = _
  exact (settles_logRec _ _ _ _ _ p5).kept.trans (h5.trans (h2.trans hd))

/-- A transition that ends no pre-charge leaves the registers of the engines alone. -/
theorem eng_setRegimeFrom (now new phase : Nat) (p : Polder) {f : Fld} (hf : f.off = A.PCT_ENG) :
    fget (setRegimeFrom now 0 new phase p) f = fget p f := by
  refine (fget_setRegimeFrom now 0 new phase p (by rw [hf]; unfold logRegs; decide) (by rw [hf]; decide)).trans ?_
  have hp : ∀ (g : Fld) (v : Nat) (x : Polder), g.off = A.PCT_REGIME → fget (fput x g v) f = fget x f := fun g v x hg =>
    fget_fput_off x v (by rw [hf, hg]; decide)
  rw [hp F.PCT_REGIME_RIDE _ _ rfl, hp F.PCT_REGIME_PHASE _ _ rfl, hp F.PCT_REGIME_PREV _ _ rfl, hp F.PCT_REGIME_CUR _ _ rfl, if_neg (show ¬0 = Rg.precharge by decide)]
  unfold evtIf
  split
  · exact fget_evt_off (f := f) (g := F.PCT_REGEVT_RIDE_OUT) _ (by rw [hf]; decide)
  · rfl

/-! ### BOOT_COMPLETE, WAKE_COMPLETE -/

theorem fget_eng_fput (x : Polder) {f g : Fld} (v : Nat) (hf : f.off = A.PCT_ENG) (hg : g.off ≠ A.PCT_ENG) : fget (fput x g v) f = fget x f :=
  fget_fput_off x v (by rw [hf]; exact Ne.symm hg)

theorem rescue_bootStarted (now : Nat) (p : Polder) :
    rescue (fput { fput p F.PCT_BOOT_BOOTMS (min 65535 ((now - p.boot.t0) / ms)) with power := .awake } F.PCT_ENG_SE_STATE Eng.run) = rescue p := by
  have h1 : ∀ (x : Polder) (f : Fld) (v : Nat), f.hi < 24 ∨ f.off ≠ A.PCT_BOOT → rescue (fput x f v) = rescue x := fun x f v h => by
    unfold rescue fbit
    refine congrArg (· == 1) (h.elim (fun h => ?_) fun h => ?_)
    · exact fget_fput_bits (g := F.PCT_BOOT_RESCUE) x v (.inr h)
    · exact fget_fput_off (g := F.PCT_BOOT_RESCUE) x v (Ne.symm h)
  exact (h1 _ F.PCT_ENG_SE_STATE _ (.inr (by decide))).trans (h1 p F.PCT_BOOT_BOOTMS _ (.inl (by decide)))

theorem power_fput (x : Polder) (f : Fld) (v : Nat) : (fput x f v).power = x.power := rfl

theorem power_lanesStart (now : Nat) (x : Polder) : (lanesStart now x).power = x.power := rfl

theorem power_modAfe (f : AfeState → AfeState) (x : Polder) : (modAfe f x).power = x.power := rfl

theorem fget_modAfe (f : AfeState → AfeState) (x : Polder) (g : Fld) : fget (modAfe f x) g = fget x g := rfl

theorem power_settleStart (now since : Nat) (x : Polder) : (settleStart now since x).power = x.power := by
  unfold settleStart
  exact (power_fput _ _ _).trans (power_modAfe _ x)

theorem lane1_lanesStart (now : Nat) (x : Polder) : (lanesStart now x).spb.lane1 = true := rfl

theorem eng_lanesStart (now : Nat) (x : Polder) {f : Fld} (hf : f.off = A.PCT_ENG) : fget (lanesStart now x) f = fget x f :=
  (fget_eng_fput (g := F.SPB_STAT_STATE) _ 0 hf (by decide)).trans (fget_eng_fput (g := F.SPB_STAT_INP) x 0 hf (by decide))

theorem eng_settleStart (now since : Nat) (x : Polder) {f : Fld} (hf : f.off = A.PCT_ENG) : fget (settleStart now since x) f = fget x f := by
  unfold settleStart
  exact (fget_eng_fput (g := F.AFE_STAT_SETTLING) _ _ hf (by decide)).trans (fget_modAfe _ x f)

/-- The first steps of t5: both engines run. -/
theorem bootStarted_fields (x : Polder) : ({ x with power := .awake } : Polder).power = .awake ∧
    seState (fput { x with power := .awake } F.PCT_ENG_SE_STATE Eng.run) = Eng.run := ⟨rfl, seState_fput _ (by decide)⟩

theorem bootDone_normal (h : rescue p = false) : (bootDone now p).power = .awake ∧ ceState (bootDone now p) = Eng.run ∧ seState (bootDone now p) = Eng.run ∧
    (bootDone now p).spb.lane1 = true := by
  have hr := rescue_bootStarted now p
  unfold bootDone
  extract_lets p1 p2 p3 p4 p5
  change rescue p2 = _ at hr
  have h2 : p2.power = .awake ∧ seState p2 = Eng.run := bootStarted_fields p1
  clear_value p2
  obtain ⟨hpow, hse⟩ := h2
  rw [hr, h]
  have h3 : p3.power = p2.power ∧ p3.spb.lane1 = true :=
    ⟨(power_lanesStart _ _).trans ((power_settleStart _ _ _).trans (power_fput _ _ _)), lane1_lanesStart _ _⟩
  have he : ∀ f : Fld, f.off = A.PCT_ENG → fget p3 f = fget (fput p2 F.PCT_ENG_CE_STATE Eng.run) f := fun f hf =>
    (eng_lanesStart _ _ hf).trans (eng_settleStart _ _ _ hf)
  have hc3 : ceState p3 = Eng.run := (he F.PCT_ENG_CE_STATE rfl).trans (ceState_fput p2 (v := Eng.run) (by decide))
  have hs3 : seState p3 = Eng.run := (he F.PCT_ENG_SE_STATE rfl).trans ((fget_fput_bits p2 _ (by decide)).trans hse)
  clear_value p3
  obtain ⟨hp3, hl3⟩ := h3
  have h4 : aside p4 = aside p3 := aside_setRegimeFrom _ _ _ _ _
  have hc4 : ceState p4 = Eng.run := (eng_setRegimeFrom now Rg.standby 0 p3 rfl).trans hc3
  have hs4 : seState p4 = Eng.run := (eng_setRegimeFrom now Rg.standby 0 p3 rfl).trans hs3
  clear_value p4
  have h5 : p5.power = p4.power ∧ p5.spb.lane1 = p4.spb.lane1 ∧ ceState p5 = ceState p4 ∧ seState p5 = seState p4 := by
    unfold p5
    split <;> exact ⟨rfl, rfl, rfl, rfl⟩
  clear_value p5
  obtain ⟨hp5, hl5, hc5, hs5⟩ := h5
  have hl := (settles_logRec now 9 p5.boot.cause Sev.info (wBytes (rd p5 A.PCT_BOOT) ++ wBytes (rd p5 A.PCT_FWVER)) p5).trans (settles_linkKicks now _)
  show _ ∧ _ ∧ _ ∧ _
  refine ⟨?_, ?_, ?_, ?_⟩
  · exact hl.power.trans (hp5.trans ((congrArg (fun x => x.2.2.1) h4).trans (hp3.trans hpow)))
  · exact hl.ceState.trans (hc5.trans hc4)
  · exact hl.seState.trans (hs5.trans hs4)
  · exact hl.lane1.trans (hl5.trans ((congrArg (fun x => x.2.2.2.2) h4).trans hl3))

theorem bootDone_rescue (h : rescue p = true) : (bootDone now p).power = .awake ∧ ceState (bootDone now p) = Eng.reset ∧ seState (bootDone now p) = Eng.run := by
  have hr := rescue_bootStarted now p
  unfold bootDone
  extract_lets p1 p2 p3 p4 p5
  change rescue p2 = _ at hr
  have h2 : p2.power = .awake ∧ seState p2 = Eng.run := bootStarted_fields p1
  clear_value p2
  obtain ⟨hpow, hse⟩ := h2
  rw [hr, h]
  refine ⟨hpow, ?_, ?_⟩
  · exact (fget_eng_fput (g := F.PCT_REGIME_CUR) _ _ rfl (by decide)).trans (ceState_fput p2 (v := Eng.reset) (by decide))
  · exact (fget_eng_fput (g := F.PCT_REGIME_CUR) _ _ rfl (by decide)).trans ((fget_fput_bits p2 _ (by decide)).trans hse)

theorem wakeComplete_fields (h : p.power = .waking) : (wakeComplete now p).power = .awake ∧ (wakeComplete now p).spb.lane1 = true := by
  have h1 := (settles_dinResume now { p with power := .awake }).trans (settles_settlingEnd now _)
  unfold wakeComplete
  rw [if_pos h]
  generalize settlingEnd now (dinResume now { p with power := .awake }) = x at h1
  have hx : (lanesStart now x).power = .awake ∧ (lanesStart now x).spb.lane1 = true := ⟨h1.power, rfl⟩
  generalize lanesStart now x = y at hx
  obtain ⟨hy, hl⟩ := hx
  have h2 : aside (setRegime now Rg.standby 0 y) = aside y := aside_setRegimeFrom _ _ _ _ _
  have h3 := settles_linkKicks now (setRegime now Rg.standby 0 y)
  exact ⟨h3.power.trans ((congrArg (fun x => x.2.2.1) h2).trans hy), h3.lane1.trans ((congrArg (fun x => x.2.2.2.2) h2).trans hl)⟩

/-! ### Release of the reset -/

/-- Power and what a boot holds of itself. -/
def booting (p : Polder) : Power × BootState := (p.power, p.boot)

theorem booting_of_stores (h : Stores p q) : booting q = booting p := Prod.ext h.power h.boot

theorem booting_wr (p : Polder) (o : Nat) (w : Word) : booting (wr p o w) = booting p := rfl

theorem booting_fput (p : Polder) (f : Fld) (v : Nat) : booting (fput p f v) = booting p := rfl

theorem booting_modSpb (f : SpbState → SpbState) (p : Polder) : booting (modSpb f p) = booting p := rfl

theorem booting_modEng (f : EngState → EngState) (p : Polder) : booting (modEng f p) = booting p := rfl

theorem booting_setDom (n st : Nat) (p : Polder) : booting (setDom n st p) = booting p := by
  unfold setDom
  split <;> rfl

theorem booting_foldl_wr {α : Type} (f : Polder → α → Polder) (hf : ∀ q a, booting (f q a) = booting q) (l : List α) (p : Polder) :
    booting (l.foldl f p) = booting p := by
  induction l generalizing p with
  | nil => rfl
  | cons a l ih => exact (ih _).trans (hf p a)

theorem booting_testDue (p : Polder) : booting (testDue p) = booting p := by
  unfold testDue
  split <;> rfl

theorem booting_loadSections (r : NvRecord) (p : Polder) : booting (loadSections r p) = booting p := by
  unfold loadSections
  extract_lets p1 p2 p3
  have h1 : booting p1 = booting p := by
    unfold p1
    split
    · have hm : ∀ (f : ClkState → ClkState) (x : Polder), booting (modClk f x) = booting x := fun _ _ => rfl
      exact (hm _ _).trans ((booting_wr _ _ _).trans ((booting_wr _ _ _).trans (booting_wr _ _ _)))
    · rfl
  clear_value p1
  have h2 : booting p2 = booting p1 := by
    unfold p2
    split
    · refine (booting_testDue _).trans ?_
      have hq : ∀ (x : Polder) (w : Word), booting (wr x A.SPB_TESTAGE w) = booting x := fun x w => booting_wr x _ w
      split
      · exact (booting_wr _ _ _).trans ((booting_foldl_wr _ (by exact fun q _ => booting_wr q _ _) _ _).trans ((hq _ _).trans (booting_modSpb _ _)))
      · exact (hq _ _).trans (booting_modSpb _ _)
    · rfl
  clear_value p2
  have h3 : booting p3 = booting p2 := by
    unfold p3
    split
    · exact (booting_modSpb _ _).trans (booting_wr p2 _ _)
    · rfl
  clear_value p3
  exact h3.trans (h2.trans h1)

theorem booting_nvTouch (now sect : Nat) (x : NvRecord) (p : Polder) : booting (nvTouch now sect p x) = booting p := by
  unfold nvTouch
  split <;> rfl

theorem booting_setBootSec (now : Nat) (b : BootSec) (p : Polder) : booting (setBootSec now b p) = booting p :=
  (booting_wr _ _ _).trans ((booting_fput _ _ _).trans (booting_nvTouch _ _ _ p))

theorem booting_loadCode (slot : Nat) (p : Polder) : booting (loadCode slot p) = booting p := rfl

theorem booting_restoreLog (now : Nat) (p : Polder) : booting (restoreLog now p) = booting p := by
  unfold restoreLog
  extract_lets stored fresh top x p1
  have h1 : booting p1 = booting p := rfl
  clear_value p1
  split
  · exact h1
  · exact (booting_nvTouch _ _ _ p1).trans h1

theorem booting_nvShow (p : Polder) : booting (nvShow p) = booting p := booting_of_stores (stores_nvShow p)

/-- The polder of the slot chosen: its code, and the registers that show it. -/
theorem booting_slotChosen (c : Option (Nat × Bool × Bool)) (p : Polder) : booting (match c with
    | some (slot, trial, fall) =>
      wr (loadCode slot (fputB (fputB (fput p F.PCT_BOOT_SLOT slot) F.PCT_BOOT_TRIAL trial) F.PCT_BOOT_FALLBACK fall)) A.PCT_FWVER
        (wordN (u32At (slotBytes p slot 0 24) 20))
    | none => fput p F.PCT_BOOT_RESCUE 1) = booting p := by
  split
  · exact (booting_wr _ _ _).trans ((booting_loadCode _ _).trans (booting_fput _ _ _))
  · exact booting_fput _ _ _

theorem booting_ite {b : Prop} [Decidable b] {q r : Polder} (h : booting q = booting p) (g : booting r = booting p) : booting (if b then q else r) = booting p := by
  split
  · exact h
  · exact g

/-- The end of a boot's first part, from the choice `c` of the slot on: code, boot section, log and store (R450, R477). -/
def slotBooted (now : Nat) (c : Option (Nat × Bool × Bool) × BootSec) (p : Polder) : Polder :=
  let p8 := match c.1 with
    | some (slot, trial, fall) =>
      wr (loadCode slot (fputB (fputB (fput p F.PCT_BOOT_SLOT slot) F.PCT_BOOT_TRIAL trial) F.PCT_BOOT_FALLBACK fall)) A.PCT_FWVER
        (wordN (u32At (slotBytes p slot 0 24) 20))
    | none => fput p F.PCT_BOOT_RESCUE 1
  let p9 := fput (fput (fput p8 F.PCT_BOOT_CAUSE p8.boot.cause) F.PCT_BOOT_FWSTATE c.2.state.code) F.PCT_BOOT_REVOKED p8.boot.revoked
  let p10 := if c.2 = bootSec p9 then p9 else setBootSec now c.2 p9
  fput (fput (nvFlush now (restoreLog now p10)) F.PCT_ENG_CE_STATE Eng.loading) F.PCT_ENG_SE_STATE Eng.loading

theorem booting_slotBooted (now : Nat) (c : Option (Nat × Bool × Bool) × BootSec) (p : Polder) : booting (slotBooted now c p) = booting p := by
  unfold slotBooted
  extract_lets p8 p9 p10
  have h8 : booting p8 = booting p := booting_slotChosen c.1 p
  clear_value p8
  have h9 : booting p9 = booting p8 := (booting_fput _ _ _).trans ((booting_fput _ _ _).trans (booting_fput p8 _ _))
  clear_value p9
  have h10 : booting p10 = booting p9 := booting_ite rfl (booting_setBootSec now c.2 p9)
  clear_value p10
  have h11 : ∀ x, booting (fput (fput (nvFlush now x) F.PCT_ENG_CE_STATE Eng.loading) F.PCT_ENG_SE_STATE Eng.loading) = booting x := fun x =>
    (booting_fput _ _ _).trans ((booting_fput _ _ _).trans (booting_of_stores (stores_nvFlush now x)))
  exact (h11 (restoreLog now p10)).trans ((booting_restoreLog now p10).trans (h10.trans (h9.trans h8)))

/-- A boot is what follows from the choice of the slot, of a polder that boots at `now`. -/
theorem bootStart_eq (part : Part) (now hallEp dkhEp : Nat) (p : Polder) : ∃ q, bootStart part now hallEp dkhEp p = slotBooted now (bootChoice part q) q ∧
    q.power = .booting ∧ q.boot.t0 = now ∧ q.boot.bootCount = (p.boot.bootCount + 1) % 65536 := by
  unfold bootStart
  extract_lets pick r p1 p2 p3 p4 x2 x3 p5 x4 p6 p7 c p8 p9 p10
  have h1 : p1.power = .booting ∧ p1.boot = p.boot := ⟨rfl, rfl⟩
  have h2 : booting p2 = booting p1 := (booting_nvShow _).trans (booting_loadSections r p1)
  clear_value p1 p2
  have h3 : booting p3 = booting p2 := rfl
  clear_value p3
  have h4 : booting p4 = booting p3 :=
    (booting_modEng _ _).trans ((booting_setDom 1 _ _).trans (booting_setDom 0 _ p3))
  clear_value p4
  have h5 : p5.power = p4.power ∧ p5.boot.t0 = now ∧ p5.boot.bootCount = (p4.boot.bootCount + 1) % 65536 := ⟨rfl, rfl, rfl⟩
  clear_value p5
  have h6 : booting p6 = booting p5 := rfl
  clear_value p6
  have h7 : booting p7 = booting p6 := booting_wr _ _ _
  clear_value p7
  have hp : p7.power = .booting ∧ p7.boot.t0 = now ∧ p7.boot.bootCount = (p.boot.bootCount + 1) % 65536 := by
    obtain ⟨hpow7, hboot7⟩ := Prod.mk.inj (h7.trans h6)
    obtain ⟨-, hboot4⟩ := Prod.mk.inj (h4.trans (h3.trans h2))
    obtain ⟨hpow4, -⟩ := Prod.mk.inj (h4.trans (h3.trans h2))
    obtain ⟨hp1, hb1⟩ := h1
    obtain ⟨hp5, ht5, hb5⟩ := h5
    rw [hpow7, hboot7, hp5, ht5, hb5, hpow4, hboot4, hp1, hb1]
    exact ⟨rfl, rfl, rfl⟩
  exact ⟨p7, rfl, hp⟩

theorem bootStart_fields (part : Part) (now hallEp dkhEp : Nat) (p : Polder) : (bootStart part now hallEp dkhEp p).power = .booting ∧
    (bootStart part now hallEp dkhEp p).boot.t0 = now ∧ (bootStart part now hallEp dkhEp p).boot.bootCount = (p.boot.bootCount + 1) % 65536 := by
  obtain ⟨q, he, hq⟩ := bootStart_eq part now hallEp dkhEp p
  obtain ⟨hpow, hboot⟩ := Prod.mk.inj (booting_slotBooted now (bootChoice part q) q)
  rw [he, hpow, hboot]
  exact hq

end Sys2Proof.Machine
end

section
/-!
SUPPORT. Power, resets and the banks of the device (R444, R469, R496): what the events leave in the device.
-/
namespace Sys2Proof.Machine
open Sys2Proof

variable {s y : State} {now : Nat} {i j : PolderId}

/-! ### A polder after a reset -/

theorem pol_modDkh (f : Dikehouse → Dikehouse) (s : State) (i : PolderId) : (modDkh f s).pol i = s.pol i := by cases i <;> rfl

theorem pol_modHall (f : Hall → Hall) (s : State) (i : PolderId) : (modHall f s).pol i = s.pol i := by cases i <;> rfl

theorem pol_resetPol_ne (now cause : Nat) (sram : Bool) (s : State) (h : j ≠ i) : (resetPol now i cause sram s).pol j = s.pol j := by
  unfold resetPol
  rw [(talks_hallDrop _ _ _ _).pol, pol_modPol_ne _ _ h]

theorem rd_enterReset (cause : Nat) (sram : Bool) (p : Polder) {o : Nat} (h : o ≠ A.CAP_STAT) : rd (enterReset cause sram p) o = polReset o := by
  have h1 : ∀ v, rd (fput (resetPolder p.id) F.CAP_STAT_FIREPIN v) o = polReset o := fun v => rd_fput_ne (resetPolder p.id) F.CAP_STAT_FIREPIN v h
  exact h1 _

theorem brownOut_pols (now : Nat) (vdd : Bool) (h : (s.pol i).power ≠ .off) :
    (∃ b, (brownOut now i vdd s).pol i = enterReset Cause.brownOut (!vdd) (modBoot b (s.pol i))) ∧ ∀ j, j ≠ i → (brownOut now i vdd s).pol j = s.pol j := by
  unfold brownOut
  extract_lets s1
  have h1 : s1.pol i = modBoot (fun b => if vdd then { b with vdd := false } else { b with vdda := false }) (s.pol i) := by
    unfold s1 setHbLost
    rw [pol_modDkh, pol_modPol_self]
  have h2 : ∀ j, j ≠ i → s1.pol j = s.pol j := fun j hj => by
    unfold s1 setHbLost
    rw [pol_modDkh, pol_modPol_ne _ _ hj]
  clear_value s1
  rw [if_neg (by rw [h1]; exact h)]
  exact ⟨⟨_, by rw [pol_resetPol, h1]⟩, fun j hj => by rw [pol_resetPol_ne _ _ _ _ hj, h2 j hj]⟩

theorem extestHeld_pol (now : Nat) (h : (s.pol i).power ≠ .off) :
    ((extestHeld now i s).pol i).power = .off ∧ ((extestHeld now i s).pol i).boot.extest = true := by
  unfold extestHeld
  extract_lets s1
  have h1 : s1.pol i = modBoot (fun b => { b with extest := true }) (s.pol i) := pol_modPol_self _ _ _
  clear_value s1
  rw [if_neg (by rw [h1]; exact h), pol_resetPol, h1]
  exact ⟨rfl, rfl⟩

/-! ### Start and wake -/

theorem resetRelease_pol (hv : s.rails.vaon = true) (ht : s.rails.testen = false) (hu : s.dkh.up = true) (hc : (dpol s i).closed = true)
    (hr : (dpol s i).resetEnd = none) (hp : (s.pol i).power = .off) : ((resetRelease now i s).pol i).power = .booting ∧
      ((resetRelease now i s).pol i).boot.t0 = now ∧ ((resetRelease now i s).pol i).boot.bootCount = ((s.pol i).boot.bootCount + 1) % 65536 := by
  have hcond : (s.rails.vaon && !s.rails.testen && s.dkh.up && (dpol s i).closed && (dpol s i).resetEnd.isNone && (s.pol i).power == .off) = true := by
    rw [hv, ht, hu, hc, hr, hp]
    rfl
  unfold resetRelease
  extract_lets d x s1 s2
  rw [if_pos hcond]
  have h2 : s2.pol i = modBoot (fun b => { b with vdd := true, vdda := true, extest := false }) (s.pol i) := (pol_modPol_self s1 i _).trans (by cases i <;> rfl)
  clear_value s2
  unfold modDpol
  rw [pol_modDkh, pol_modPol_self, h2]
  exact bootStart_fields ..

theorem pol_superviseFrom (now : Nat) (s : State) : (superviseFrom now i s).pol i = s.pol i := by
  unfold superviseFrom modDpol
  rw [pol_modDkh]

theorem pol_bootDoneAt (h : (s.pol i).power = .booting) : (thenPolish now i (bootDoneAt now i s)).pol i = polish now (bootDone now (s.pol i)) := by
  unfold thenPolish bootDoneAt
  rw [pol_modPol_self, if_pos h, pol_superviseFrom, pol_modPol_self]
  unfold bootComplete
  rw [if_pos h]

theorem pol_wakeDoneAt (h : (s.pol i).power = .waking) : (thenPolish now i (wakeDoneAt now i s)).pol i = polish now (wakeComplete now (s.pol i)) := by
  unfold thenPolish wakeDoneAt
  rw [pol_modPol_self, if_pos h, pol_superviseFrom, pol_modPol_self]

theorem bootDoneAt_normal (h : (s.pol i).power = .booting) (hr : rescue (s.pol i) = false) (hy : y = thenPolish now i (bootDoneAt now i s)) :
    (y.pol i).power = .awake ∧ ceState (y.pol i) = Eng.run ∧ seState (y.pol i) = Eng.run ∧ (y.pol i).spb.lane1 = true := by
  rw [hy, pol_bootDoneAt h]
  obtain ⟨hp, hc, hs, hl⟩ := bootDone_normal (now := now) hr
  have hset := settles_polish now (bootDone now (s.pol i))
  exact ⟨hset.power.trans hp, hset.ceState.trans hc, hset.seState.trans hs, hset.lane1.trans hl⟩

theorem bootDoneAt_rescue (h : (s.pol i).power = .booting) (hr : rescue (s.pol i) = true) (hy : y = thenPolish now i (bootDoneAt now i s)) :
    (y.pol i).power = .awake ∧ ceState (y.pol i) = Eng.reset ∧ seState (y.pol i) = Eng.run := by
  rw [hy, pol_bootDoneAt h]
  obtain ⟨hp, hc, hs⟩ := bootDone_rescue (now := now) hr
  have hset := settles_polish now (bootDone now (s.pol i))
  exact ⟨hset.power.trans hp, hset.ceState.trans hc, hset.seState.trans hs⟩

theorem wakeDoneAt_fields (h : (s.pol i).power = .waking) (hy : y = thenPolish now i (wakeDoneAt now i s)) :
    (y.pol i).power = .awake ∧ (y.pol i).spb.lane1 = true := by
  rw [hy, pol_wakeDoneAt h]
  obtain ⟨hp, hl⟩ := wakeComplete_fields (now := now) h
  have hset := settles_polish now (wakeComplete now (s.pol i))
  exact ⟨hset.power.trans hp, hset.lane1.trans hl⟩

/-! ### Restarts -/

theorem powerRestart_pol (now : Nat) (sup : Bool) (cause : Nat) (h : (dpol s i).closed = true) :
    ((powerRestart now i sup cause s).pol i).power = .off ∧ ((powerRestart now i sup cause s).pol i).boot.cause = cause := by
  unfold powerRestart
  rw [h]
  extract_lets s1 s2 s3
  have h1 : s1.pol i = enterReset cause true (s.pol i) := pol_resetPol _ _ _ _
  clear_value s1
  have h2 : s2.pol i = s1.pol i := by
    unfold s2 modDpol
    rw [pol_modDkh]
  clear_value s2
  have h3 : s3.pol i = s2.pol i := by
    unfold s3
    split
    · rw [pol_modDkh]
    · rfl
  clear_value s3
  have h4 : (dkhNote now F.DKH_EVT_RESTART 0 i.num s3).pol i = s3.pol i := by
    unfold dkhNote
    dsimp only
    rw [pol_modDkh, pol_modDkh]
  show ((dkhNote now F.DKH_EVT_RESTART 0 i.num s3).pol i).power = .off ∧ ((dkhNote now F.DKH_EVT_RESTART 0 i.num s3).pol i).boot.cause = cause
  rw [h4, h3, h2, h1]
  exact enterReset_power _ _ _

theorem stores_regime {p q : Polder} (h : Stores p q) : regime q = regime p := h.regs.fget (by unfold nvRegs logRegs; decide)

theorem regime_putBootSec (now : Nat) (b : BootSec) (p : Polder) : regime (putBootSec now b p) = regime p := by
  refine (stores_regime (stores_nvFlush now _)).trans ?_
  unfold setBootSec
  refine (fget_wr_ne (f := F.PCT_REGIME_CUR) (o := A.PCT_MINRB) _ _ (by decide)).trans ((fget_fput_off (g := F.PCT_REGIME_CUR) (f := F.PCT_BOOT_FWSTATE) _ _
    (by decide)).trans ?_)
  exact fget_of_rd (rd_nvTouch _ _ _ _ _)

theorem withGuard_pol (now action : Nat) (sup : Bool) (cause : Nat) (ha : action ≠ 3) (hl : lawRegime (s.pol i) = false) (hc : (dpol s i).closed = true) :
    ((withGuard now i action sup cause s).pol i).power = .off ∧ ((withGuard now i action sup cause s).pol i).boot.cause = cause := by
  have hg : guarded s i = false := by
    unfold guarded
    rw [hl, Bool.and_false]
  unfold withGuard proceed
  rw [hg, if_neg Bool.false_ne_true, if_neg ha]
  exact powerRestart_pol now sup cause hc

theorem trialTimeout_pol {e : Nat} (ha : awake (s.pol i) = true) (hs : seState (s.pol i) = Eng.run) (hl : lawRegime (s.pol i) = false) (hg : (dpol s i).guard = none)
    (hc : (dpol s i).closed = true) (ht : (s.pol i).boot.trialEnd = some e) (he : e ≤ now) :
    ((trialTimeout now i s).pol i).power = .off ∧ ((trialTimeout now i s).pol i).boot.cause = Cause.revert := by
  have hcond : (awake (s.pol i) && seState (s.pol i) == Eng.run && decide (e ≤ now)) = true := by
    rw [ha, hs, decide_eq_true he]
    rfl
  unfold trialTimeout
  rw [ht]
  extract_lets s1
  have hd : dpol s1 i = dpol s i := by
    unfold dpol
    exact congrArg (fun d : Dikehouse => vget d.pols (i.num - 1) {}) (modPol_dkh s i _)
  have hl1 : lawRegime (s1.pol i) = false := by
    rw [← hl]
    unfold s1 lawRegime
    rw [pol_modPol_self, regime_putBootSec]
    rfl
  clear_value s1
  dsimp only
  rw [if_pos hcond, hd, hg]
  exact withGuard_pol now 4 false Cause.revert (by decide) hl1 (by rw [hd]; exact hc)

/-! ### Loss of a rail -/

/-- `y` differs from `s` in the polders and in the Hall's count of sampled values lost. -/
structure BesidePols (s y : State) : Prop where
  rails : y.rails = s.rails
  dkh : y.dkh = s.dkh
  hall : { y.hall with fifoLost := s.hall.fifoLost } = s.hall

section
variable {z : State}

theorem BesidePols.refl (s : State) : BesidePols s s := ⟨rfl, rfl, rfl⟩

theorem BesidePols.trans (h : BesidePols s y) (g : BesidePols y z) : BesidePols s z :=
  ⟨g.rails.trans h.rails, g.dkh.trans h.dkh, (congrArg (fun x : Hall => { x with fifoLost := s.hall.fifoLost }) g.hall).trans h.hall⟩

theorem BesidePols.foldl {α : Type} (f : State → α → State) (hf : ∀ x a, BesidePols x (f x a)) (l : List α) (s : State) : BesidePols s (l.foldl f s) := by
  induction l generalizing s with
  | nil => exact .refl s
  | cons a l ih => exact (hf s a).trans (ih _)

theorem besidePols_modPol (i : PolderId) (f : Polder → Polder) (s : State) : BesidePols s (s.modPol i f) := by
  cases i <;> exact ⟨rfl, rfl, rfl⟩

end

theorem besidePols_svFlush (count : Bool) (s : State) (i : PolderId) : BesidePols s (svFlush count s i) := by
  unfold svFlush
  exact (besidePols_modPol i _ s).trans ⟨rfl, rfl, rfl⟩

theorem besidePols_sessionsEnd (now : Nat) (s : State) : BesidePols s (sessionsEnd now s) := by
  unfold sessionsEnd
  refine .foldl _ (fun y p => ?_) _ s
  split
  · exact besidePols_modPol p _ y
  · exact .refl y

/-- The Hall as a reset leaves it: it does not run, no session is open, no token is held. -/
structure HallLost (s y : State) : Prop where
  up : y.hall.up = false
  sessions : y.hall.sessions = []
  tokens : ∀ k, vget y.hall.tokens k none = none
  rails : y.rails = s.rails
  dkh : y.dkh = s.dkh

theorem HallLost.besidePols {z : State} (h : HallLost s y) (g : BesidePols y z) : HallLost s z := by
  obtain ⟨hr, hd, hh⟩ := g
  exact ⟨(congrArg Hall.up hh).trans h.up, (congrArg Hall.sessions hh).trans h.sessions,
    fun k => (congrArg (fun x : Hall => vget x.tokens k none) hh).trans (h.tokens k), hr.trans h.rails, hd.trans h.dkh⟩

theorem hallDown_lost (now : Nat) (s : State) : HallLost s (hallDown now s) := by
  have h0 := besidePols_sessionsEnd now s
  unfold hallDown
  extract_lets s0 ep s1
  change BesidePols s s0 at h0
  have h1 : HallLost s s1 := ⟨rfl, rfl, fun k => by
    by_cases hk : k < 5
    · unfold vget
      simp [s1, modHall, hk]
    · unfold vget
      simp [s1, modHall, hk], h0.rails, h0.dkh⟩
  clear_value s1 ep
  exact h1.besidePols (.foldl _ (fun y i => (besidePols_modPol i _ y).trans (besidePols_svFlush false _ i)) _ s1)

theorem pol_foldl_modPol (f : Polder → Polder) (s : State) (j : PolderId) :
    ([PolderId.A, .B, .C, .D].foldl (fun y i => y.modPol i f) s).pol j = f (s.pol j) := by
  cases j <;> rfl

theorem vaonLost_fields (now : Nat) (s : State) : (vaonLost now s).dkh.up = false ∧ (vaonLost now s).hall.up = false ∧
    (∀ j, ((vaonLost now s).pol j).power = .off) ∧ (vaonLost now s).rails.vaon = false := by
  unfold vaonLost
  extract_lets d x cut s1 s2
  have h1 : HallLost { s with rails := { s.rails with vaon := false } } s1 := hallDown_lost _ _
  clear_value s1
  have h2 : HallLost { s with rails := { s.rails with vaon := false } } s2 := h1.besidePols (.foldl _ (fun y i => besidePols_modPol i _ y) _ s1)
  have hp : ∀ j, (s2.pol j).power = .off := fun j => by
    unfold s2
    rw [pol_foldl_modPol]
    rfl
  clear_value s2
  exact ⟨rfl, h2.up, fun j => by rw [pol_modDkh]; exact hp j, congrArg RailState.vaon h2.rails⟩

/-! ### Start of the Hall -/

theorem hrd_foldl_hwr_map (w : Nat → Word) (l : List Nat) (h : Hall) {o : Nat} (ho : o ∈ l ∨ hrd h o = w o) :
    hrd (l.foldl (fun y a => hwr y a (w a)) h) o = w o := by
  induction l generalizing h with
  | nil => exact ho.resolve_left (by simp)
  | cons a l ih =>
    refine ih _ ?_
    by_cases ha : o = a
    · exact .inr (by rw [ha, hrd_hwr_self])
    · exact ho.imp (fun hm => (List.mem_cons.mp hm).resolve_left ha) fun hh => (hrd_hwr_ne h _ ha).trans hh

/-- A Hall whose registers of R417 hold the values in force. -/
theorem hallStaged_loaded {h : Hall} {cfg : Cells} (ha : h.applied = cfg) :
    hallStaged (heldOffs.foldl (fun y o => hwr y o (cellGet hallReset cfg o)) h) = false := by
  have happ : ∀ (l : List Nat) (g : Hall), (l.foldl (fun y o => hwr y o (cellGet hallReset cfg o)) g).applied = g.applied := by
    intro l
    induction l with
    | nil => exact fun _ => rfl
    | cons a l ih => exact fun g => ih _
  unfold hallStaged
  rw [List.any_eq_false]
  intro o ho
  unfold hap
  rw [hrd_foldl_hwr_map _ heldOffs h (.inl ho), happ, ha, bne_self_eq_false]
  exact Bool.false_ne_true

theorem BesidePols.hallStaged (h : BesidePols s y) : hallStaged y.hall = hallStaged s.hall := by
  have := congrArg Machine.hallStaged h.hall
  exact this

theorem BesidePols.hallUp (h : BesidePols s y) : y.hall.up = s.hall.up := by
  have := congrArg Hall.up h.hall
  exact this

theorem up_foldl_hwr (f : Nat → Word) (l : List Nat) (h : Hall) : (l.foldl (fun y o => hwr y o (f o)) h).up = h.up := by
  induction l generalizing h with
  | nil => rfl
  | cons a l ih => exact ih _

theorem hallStart_fields (h1 : s.rails.vaon = true) (h2 : s.rails.testen = false) (h3 : s.dkh.up = true) (h4 : s.hall.up = false) :
    (hallStart s).hall.up = true ∧ hallStaged (hallStart s).hall = false := by
  have hc : ¬(!s.rails.vaon || s.rails.testen || !s.dkh.up || s.hall.up) = true := by
    rw [h1, h2, h3, h4]
    decide
  unfold hallStart
  rw [if_neg hc]
  extract_lets r w cfg x h h5 y
  have hf : h5.applied = cfg ∧ h5.up = true := by
    unfold h5
    split <;> exact ⟨rfl, rfl⟩
  clear_value h5 cfg
  obtain ⟨ha, hu⟩ := hf
  refine ⟨(BesidePols.foldl _ (besidePols_svFlush true) _ _).hallUp.trans ?_, (BesidePols.foldl _ (besidePols_svFlush true) _ _).hallStaged.trans ?_⟩
  · exact (up_foldl_hwr _ heldOffs h5).trans hu
  · exact hallStaged_loaded ha

end Sys2Proof.Machine
end

section
/-!
SUPPORT. O58: start-up, reset, sleep and the stores (R369 to R504).
-/
namespace Sys2Proof.Machine
open Sys2Proof

theorem devComplete_good {d : Dikehouse} {k t0 : Nat} {a : Bool} (now : Nat) (h : d.writing = some (k, t0, a)) : (devComplete now true d).writing = none ∧
    (if k = 0 then (devComplete now true d).bank0 else (devComplete now true d).bank1).data = d.writeData ∧
    (devComplete now true d).out = d.out ++ (d.waiting.take d.covered).map Out.answer ∧ (devComplete now true d).waiting = d.waiting.drop d.covered := by
  have hs : ∀ x : Dikehouse, (devShow x).writing = x.writing ∧ (devShow x).bank0 = x.bank0 ∧ (devShow x).bank1 = x.bank1 ∧ (devShow x).waiting = x.waiting ∧
      (devShow x).covered = x.covered ∧ (devShow x).out = x.out := fun x => ⟨rfl, rfl, rfl, rfl, rfl, rfl⟩
  unfold devComplete
  rw [h]
  dsimp only
  rw [if_pos rfl, releaseWaiting_ok]
  dsimp only
  obtain ⟨hw, h0, h1, hwait, hcov, hout⟩ := hs (kput { setDevBank k (DevBank.written (if k = 0 then d.bank0 else d.bank1).seq d.writeData) d with
    writing := none, lastEnd := now } F.DKH_NVSTAT_BANK k)
  rw [hw, h0, h1, hwait, hcov, hout]
  unfold setDevBank
  split <;> exact ⟨rfl, rfl, rfl, rfl⟩

/-- Settles O58: each event by what it leaves of the polder, of its store, or of Hall and Dikehouse. -/
theorem powerAndStoreEvents : Obligations.PowerAndStoreEvents := by
  unfold Obligations.PowerAndStoreEvents
  intro s t i now p hp hn hpol
  subst hn hpol
  have hat : (s.at' t).pol i = s.pol i := at_pol s t i
  refine ⟨fun v h => ?_, fun h1 h2 h3 h4 h5 h6 => ?_, fun h1 h2 => ?_, fun h1 h2 => ?_, fun h1 => ?_, fun e h1 h2 h3 h4 h5 h6 h7 => ?_,
    fun k t0 r h1 h2 => ?_, fun h1 => ?_, ?_, fun h1 h2 h3 h4 h5 h6 => ?_, fun k t0 a h1 h2 h3 => ?_, fun k t0 h1 h2 => ?_, fun h1 h2 h3 h4 => ?_,
    fun k t0 a h1 h2 _ => ?_, ?_, ?_, fun h1 h2 h3 h4 => ?_⟩
  · obtain ⟨⟨b, hb⟩, ho⟩ := brownOut_pols (s := s.at' t) (s.clock t) v (by rw [hat]; exact h)
    refine ⟨_, doesAll_of_part (k := .brownOut t i v) (f := fun now y => brownOut now i v y) rfl hp rfl, ?_, ?_, fun off hoff => ?_, fun j hj => ?_⟩
    · exact (congrArg Polder.power hb).trans rfl
    · exact (congrArg (fun x : Polder => x.boot.cause) hb).trans rfl
    · exact (congrArg (fun x : Polder => rd x off) hb).trans (rd_enterReset _ _ _ hoff)
    · exact (ho j hj).trans (at_pol s t j)
  · have := resetRelease_pol (s := s.at' t) (i := i) (now := s.clock t) h1 h2 h3 h4 h5 (by rw [hat]; exact h6)
    rw [hat] at this
    exact ⟨_, doesAll_of_part (k := .polderResetRelease t i) (f := fun now y => resetRelease now i y) rfl hp rfl, this⟩
  · exact ⟨_, doesAll_of_part (k := .bootComplete t i) (f := fun now y => thenPolish now i (bootDoneAt now i y)) rfl hp rfl,
      bootDoneAt_normal (s := s.at' t) (by rw [hat]; exact h1) (by rw [hat]; exact h2) rfl⟩
  · exact ⟨_, doesAll_of_part (k := .bootComplete t i) (f := fun now y => thenPolish now i (bootDoneAt now i y)) rfl hp rfl,
      bootDoneAt_rescue (s := s.at' t) (by rw [hat]; exact h1) (by rw [hat]; exact h2) rfl⟩
  · exact ⟨_, doesAll_of_part (k := .wakeComplete t i) (f := fun now y => thenPolish now i (wakeDoneAt now i y)) rfl hp rfl,
      wakeDoneAt_fields (s := s.at' t) (by rw [hat]; exact h1) rfl⟩
  · exact ⟨_, doesAll_of_part (k := .fwTrialTimeout t i) (f := fun now y => trialTimeout now i y) rfl hp rfl,
      trialTimeout_pol (s := s.at' t) (by rw [hat]; exact beq_iff_eq.mpr h1) (by rw [hat]; exact h2) (by rw [hat]; exact h3) h4 h5 (by rw [hat]; exact h6) h7⟩
  · exact ⟨_, does_of_onAwake (k := .flashEraseComplete t i) (f := fun _ q => eraseComplete q) rfl hp (beq_iff_eq.mpr h1) rfl, eraseComplete_fields h2⟩
  · exact ⟨_, doesAll_of_part (k := .extest t ⟨i, true⟩) (f := fun now y => extestHeld now i y) rfl hp rfl,
      extestHeld_pol (s := s.at' t) (s.clock t) (by rw [hat]; exact h1)⟩
  · exact doesAll_of_part (k := .extest t ⟨i, false⟩) (f := fun _ y => y) rfl hp rfl
  · refine ⟨_, does_of_onAwake (k := .nvWrite t (.polder i)) (f := ifSe nvWrite) rfl hp (beq_iff_eq.mpr h1) ?_, nvBegin_fields (now := s.clock t) h6⟩
    exact (if_pos h2).trans (nvWrite_of_due h3 h4 h5)
  · obtain ⟨hw, hb, hs, hn⟩ := nvGood_fields h3 (s.clock t) (s.pol i)
    refine ⟨_, does_of_onAwake (k := .nvWriteComplete t (.polder i) true) (f := fun now q => nvComplete now true q) rfl hp (beq_iff_eq.mpr h1)
      (nvComplete_good h2), hw, fun hl => ?_, ?_, hs, hn⟩
    · rw [hb]
      exact written_valid _ _ hl
    · rw [hb]
      rfl
  · exact ⟨_, does_of_onAwake (k := .nvWriteComplete t (.polder i) false) (f := fun now q => nvComplete now false q) rfl hp (beq_iff_eq.mpr h1)
      (nvComplete_again h2), rfl, rdN_addSat (s.pol i) A.NVS_FAILS 1⟩
  · exact ⟨modDkh (devWrite (s.clock t)) (s.at' t), doesAll_of_onDevice (k := .nvWrite t .device) (f := fun now y => if y.dkh.up then modDkh (devWrite now) y else y)
      rfl (if_pos h1), devWrite_of_due h1 h2 h3 h4⟩
  · exact ⟨modDkh (devComplete (s.clock t) true) (s.at' t), doesAll_of_onDevice (k := .nvWriteComplete t .device true)
      (f := fun now y => if y.dkh.up then modDkh (devComplete now true) y else y) rfl (if_pos h1), devComplete_good (s.clock t) h2⟩
  · have h := hallDown_lost (s.clock t) { s.at' t with rails := { s.rails with vddH := false } }
    exact ⟨_, doesAll_of_onDevice (k := .railLoss t .vddH) (f := fun now y => railLoss now .vddH y) rfl rfl, h.up, h.sessions, h.tokens,
      congrArg RailState.vddH h.rails⟩
  · exact ⟨_, doesAll_of_onDevice (k := .railLoss t .vaon) (f := fun now y => railLoss now .vaon y) rfl rfl, vaonLost_fields (s.clock t) (s.at' t)⟩
  · exact ⟨_, doesAll_of_onDevice (k := .hallResetRelease t) (f := fun _ y => hallStart y) rfl rfl, hallStart_fields (s := s.at' t) h1 h2 h3 h4⟩

end Sys2Proof.Machine
end

section
/-!
SUPPORT. A latched trip stands through all that follows from a change (R303, R310).
-/
namespace Sys2Proof.Machine
open Sys2Proof

variable {p q r : Polder}

/-- The latch of source 8, once set in `p`, is set in `q`. -/
def KeepsTrip (p q : Polder) : Prop := (rd p A.DIK_TRIPSRC).getLsbD 8 = true → (rd q A.DIK_TRIPSRC).getLsbD 8 = true

theorem KeepsTrip.trans (h : KeepsTrip p q) (g : KeepsTrip q r) : KeepsTrip p r := fun hp => g (h hp)

theorem KeepsTrip.of_rd (h : rd q A.DIK_TRIPSRC = rd p A.DIK_TRIPSRC) : KeepsTrip p q := fun hp => by rw [h]; exact hp

theorem KeepsTrip.of_within {S : Nat → Prop} (h : Within S p q) (hS : ¬S A.DIK_TRIPSRC) : KeepsTrip p q := .of_rd (h _ hS)

theorem KeepsTrip.ite {b : Prop} [Decidable b] (h : KeepsTrip p q) (g : KeepsTrip p r) : KeepsTrip p (if b then q else r) := by
  split
  · exact h
  · exact g

theorem not_logRegs_TRIPSRC : ¬logRegs A.DIK_TRIPSRC := by
  unfold logRegs
  decide

theorem keepsTrip_latchBits (now m : Nat) (p : Polder) : KeepsTrip p (latchBits now m p) := by
  by_cases hm : m = 0
  · exact .of_rd (by unfold latchBits; rw [if_pos hm])
  · exact fun h => by rw [rd_latchBits_TRIPSRC hm, BitVec.getLsbD_or, h, Bool.true_or]

theorem keepsTrip_settleDike (now : Nat) (p : Polder) : KeepsTrip p (settleDike now p) := by
  unfold settleDike
  extract_lets p1 a p2 wait new p3 x
  have h1 : KeepsTrip p p1 := .of_rd (rd_wr_ne _ _ (by decide))
  clear_value p1
  have h2 : KeepsTrip p1 p2 := .ite (.of_rd rfl) fun h => by
    rw [rd_wr_self, BitVec.getLsbD_and, h]
    rfl
  clear_value p2
  have h3 : KeepsTrip p2 p3 := keepsTrip_latchBits now new p2
  clear_value p3
  exact (h1.trans (h2.trans h3)).trans (.of_rd rfl)

theorem keepsTrip_spbReport (now : Nat) (log : Bool) (p : Polder) : KeepsTrip p (spbReport now log p) :=
  .of_within (within_spbReport (S := logRegs) (fun _ h => h) now log p) not_logRegs_TRIPSRC

theorem keepsTrip_fput (p : Polder) {f : Fld} (v : Nat) (h : f.off = A.SPB_STAT) : KeepsTrip p (fput p f v) :=
  .of_rd (rd_fput_ne p f v (by rw [h]; decide))

theorem keepsTrip_modSpb (f : SpbState → SpbState) (p : Polder) : KeepsTrip p (modSpb f p) := .of_rd rfl

theorem keepsTrip_spbSettle (now : Nat) (p : Polder) : KeepsTrip p (spbSettle now p) := by
  unfold spbSettle
  extract_lets d st p1 p2 p3 auto q1
  have h1 : KeepsTrip p p1 := (keepsTrip_fput p d (f := F.SPB_STAT_SRC) rfl).trans (keepsTrip_fput _ 0 rfl)
  clear_value p1
  have h2 : KeepsTrip p p2 := (h1.trans (keepsTrip_modSpb _ p1)).trans (.of_within (S := fun o => o = A.SPB_EVT) (within_evtIf _ _ rfl) (by decide))
  clear_value p2
  have h3 : KeepsTrip p p3 := by
    obtain ⟨o, h⟩ := answerAcks_shape Status.state p2
    refine h2.trans (.of_rd ?_)
    unfold p3
    rw [h]
    rfl
  clear_value p3
  have hq : KeepsTrip p q1 := ((keepsTrip_fput p 256 (f := F.SPB_STAT_SRC) rfl).trans (keepsTrip_fput _ 1 rfl)).trans (keepsTrip_modSpb _ _)
  clear_value q1
  exact .ite (.ite (h3.trans (keepsTrip_spbReport now true p3)) h3) (.ite (hq.trans (keepsTrip_spbReport now false q1)) (keepsTrip_fput p _ rfl))

theorem KeepsTrip.foldl {α : Type} (f : Polder → α → Polder) (hf : ∀ x a, KeepsTrip x (f x a)) (l : List α) (p : Polder) : KeepsTrip p (l.foldl f p) := by
  induction l generalizing p with
  | nil => exact id
  | cons a l ih => exact (hf p a).trans (ih _)

theorem keepsTrip_cmpFollow (now k : Nat) (p : Polder) : KeepsTrip p (cmpFollow now k p) := by
  unfold cmpFollow
  extract_lets c on' p1
  have h1 : KeepsTrip p p1 := .of_rd rfl
  clear_value p1
  exact .ite (h1.trans (.of_within (S := fun o => o = A.AFE_EVT) (within_evtBit F.AFE_EVT_OVR (8 + k) p1 rfl) (by decide))) h1

theorem keepsTrip_genTrack (now : Nat) (p : Polder) : KeepsTrip p (genTrack now p) := by
  unfold genTrack
  refine .foldl _ (fun q j => ?_) _ p
  split
  · exact id
  · exact keepsTrip_modSpb _ q

theorem keepsTrip_testHold (p : Polder) : KeepsTrip p (testHold p) := by
  unfold testHold
  split
  · exact keepsTrip_modSpb _ p
  · exact id

theorem keepsTrip_settle (now : Nat) (p : Polder) : KeepsTrip p (settle now p) := by
  unfold settle
  split
  · exact keepsTrip_settleDike now p
  · exact .of_rd rfl

theorem keepsTrip_settleAll (now : Nat) (p : Polder) : KeepsTrip p (settleAll now p) := by
  have h1 : KeepsTrip p (if awake p && p.spb.lane1 then spbSettle now p else p) := .ite (keepsTrip_spbSettle now p) id
  unfold settleAll
  exact ((h1.trans (keepsTrip_settle now _)).trans (keepsTrip_testHold _)).trans (keepsTrip_genTrack now _)

theorem keepsTrip_polish (now : Nat) (p : Polder) : KeepsTrip p (polish now p) := by
  have hl : ∀ x, KeepsTrip x (linkKicks now x) := fun x => .of_within (within_linkKicks now x) (by unfold inBlock; decide)
  have hc : KeepsTrip p (cmpSettle now p) := .foldl _ (fun q k => keepsTrip_cmpFollow now k q) _ p
  have hf : KeepsTrip p (follow now p) := .ite ((hc.trans (keepsTrip_settleAll now _)).trans (hl _)) id
  have hm : ∀ x, KeepsTrip x (mapKept now x) := fun x => by
    unfold mapKept
    dsimp only
    split
    · exact .of_rd rfl
    · exact .ite (.of_rd rfl) (.of_rd rfl)
  exact (hf.trans (hm _)).trans (.of_rd rfl)

theorem latched_polish {p : Polder} (now : Nat) (h : (latched p).testBit 8 = true) : (latched (polish now p)).testBit 8 = true := by
  rw [latched_testBit _ (by decide)] at h ⊢
  exact keepsTrip_polish now p h

end Sys2Proof.Machine
end

section
/-!
SUPPORT. What an evaluation of the Dikehouse's rules keeps (R458 to R461): actions leave alone what the evaluation itself holds.
-/
namespace Sys2Proof.Machine
open Sys2Proof

variable {s y z : State} {now : Nat} {i : PolderId}

/-- What an evaluation holds: its instant, the requests that wait, since when each condition has held. -/
def ruleState (d : Dikehouse) : Nat × List (Nat × Nat × CmdRef) × Vector (Option Nat) 16 := (d.lastEval, d.requests, d.held)

/-- What an evaluation holds stands in `y` as in `s`. -/
def Evals (s y : State) : Prop := ruleState y.dkh = ruleState s.dkh

theorem Evals.refl (s : State) : Evals s s := rfl

theorem Evals.trans (h : Evals s y) (g : Evals y z) : Evals s z := Eq.trans g h

theorem Evals.foldl {α : Type} (f : State → α → State) (hf : ∀ x a, Evals x (f x a)) (l : List α) (s : State) : Evals s (l.foldl f s) := by
  induction l generalizing s with
  | nil => exact .refl s
  | cons a l ih => exact (hf s a).trans (ih _)

theorem Evals.ite {b : Prop} [Decidable b] (h : Evals s y) (g : Evals s z) : Evals s (if b then y else z) := by
  split
  · exact h
  · exact g

theorem evals_modHall (f : Hall → Hall) (s : State) : Evals s (modHall f s) := rfl

theorem evals_modPol (i : PolderId) (f : Polder → Polder) (s : State) : Evals s (s.modPol i f) := congrArg ruleState (modPol_dkh s i f)

theorem evals_modDkh (f : Dikehouse → Dikehouse) (s : State) (h : ∀ d, ruleState (f d) = ruleState d) : Evals s (modDkh f s) := h s.dkh

theorem evals_modDpol (i : PolderId) (f : DkhPolder → DkhPolder) (s : State) : Evals s (modDpol i f s) := rfl

/-! ### Records of the device log -/

theorem ruleState_devTouch (now sect : Nat) (f : DevRecord → DevRecord) (d : Dikehouse) : ruleState (devTouch now sect f d) = ruleState d := by
  unfold devTouch
  split <;> rfl

theorem ruleState_devLog (now source code sev : Nat) (data : List Byte) (d : Dikehouse) : ruleState (devLog now source code sev data d) = ruleState d :=
  ruleState_devTouch _ _ _ _

theorem evals_dkhNote (now : Nat) (f : Fld) (rule pol : Nat) (s : State) : Evals s (dkhNote now f rule pol s) := by
  unfold dkhNote
  exact (evals_modDkh (kevt now f) s fun _ => rfl).trans (evals_modDkh _ _ fun d => ruleState_devLog _ _ _ _ _ d)

theorem evals_hallNote (now : Nat) (f : Fld) (x : Option Nat) (s : State) : Evals s (hallNote now f x s) := by
  unfold hallNote
  exact (evals_modHall _ s).trans (evals_modDkh _ _ fun d => ruleState_devLog _ _ _ _ _ d)

/-! ### What the Hall sends -/

theorem evals_hallCount (o : Nat) (s : State) : Evals s (hallCount o s) := evals_modHall _ s

theorem evals_spiLost (now : Nat) (s : State) : Evals s (hallNote now F.HAL_EVT_SPI_OVF none (hallCount A.HAL_SPIDROP s)) :=
  (evals_hallCount _ s).trans (evals_hallNote now _ none _)

theorem evals_spiPush (now : Nat) (note : Bool) (b : List Byte) (s : State) : Evals s (spiPush now note b s) := by
  unfold spiPush
  split
  · exact evals_modHall _ s
  · dsimp only
    split
    · exact (evals_modHall _ s).trans (evals_spiLost now _)
    · split
      · exact (evals_spiLost now s).trans ((evals_hallCount _ _).trans (evals_hallNote now _ none _))
      · exact evals_spiLost now s

theorem evals_sendTo (now : Nat) (src : Source) (note : Bool) (b : List Byte) (s : State) : Evals s (sendTo now src note b s) := by
  unfold sendTo
  split
  · exact evals_spiPush now note b s
  · exact evals_modHall _ s

theorem evals_modSess (j : Nat) (f : Session → Session) (s : State) : Evals s (modSess j f s) := evals_modHall _ s

theorem evals_sendReply (now : Nat) (src : Source) (a : Answer) (s : State) : Evals s (sendReply now src a s) := by
  unfold sendReply
  split
  · exact .refl s
  next x _ =>
    dsimp only
    have h1 := evals_sendTo now src false (replyPacket x src a) s
    split
    · exact (h1.trans (evals_modSess x.idx _ _)).trans (.foldl _ (fun y r => evals_sendTo now r false _ y) _ _)
    · exact h1

theorem evals_notify (now j t st k f : Nat) (b : List Byte) (s : State) : Evals s (notify now j t st k f b s) := by
  unfold notify
  split
  · exact .refl s
  · split
    · exact .refl s
    · dsimp only
      split
      · exact evals_modSess _ _ s
      · exact (evals_modSess _ _ s).trans (evals_sendTo _ _ _ _ _)

theorem evals_notifySubs (now c t k : Nat) (b : List Byte) (s : State) : Evals s (notifySubs now c t k b s) := by
  unfold notifySubs
  refine .foldl _ (fun y x => ?_) _ _
  generalize (if t = 0 ∨ t = 15 then 0 else t) = bit
  exact .ite (evals_notify _ _ _ _ _ _ _ y) (.refl y)

theorem evals_notifyDone (now : Nat) (a : Answer) (s : State) : Evals s (notifyDone now a s) := by
  unfold notifyDone
  dsimp only
  split <;> exact (evals_notify _ _ _ _ _ _ _ s).trans (evals_modSess _ _ _)

theorem evals_endFlight (now st dt : Nat) (s : State) (f : InFlight) : Evals s (endFlight now st dt s f) := by
  unfold endFlight
  dsimp only
  exact .trans (.ite (evals_notifyDone _ _ s) (evals_sendReply _ _ _ s)) (evals_modHall _ _)

theorem evals_hallDrop (now : Nat) (i : PolderId) (d : Nat) (s : State) : Evals s (hallDrop now i d s) := by
  unfold hallDrop
  dsimp only
  refine Evals.trans ?_ (.foldl _ (fun y f => evals_endFlight _ _ _ y f) _ _)
  refine Evals.trans ?_ (.foldl _ (fun y x => evals_sendReply _ _ _ y) _ _)
  exact evals_modHall _ s

/-! ### What the targets hand over -/

theorem evals_takeOut (now : Nat) (o : Out) (s : State) : Evals s (takeOut now o s) := by
  unfold takeOut
  split
  · exact .refl s
  · split
    · exact evals_modHall _ s
    · exact evals_modHall _ s
    · exact evals_notify _ _ _ _ _ _ _ s
    · exact evals_notifySubs _ _ _ _ _ s
    · exact evals_modHall _ s

theorem evals_takePolder (now : Nat) (s : State) (j : PolderId) : Evals s (takePolder now s j) := by
  unfold takePolder
  refine Evals.trans ?_ (.foldl _ (fun y o => evals_takeOut now o y) _ _)
  have hc : ∀ y n, Evals y (fifoCount j y n) := fun y n => .ite (.refl y) (evals_modHall _ y)
  exact (evals_modPol j (fun p => { p with out := [] }) s).trans (hc _ _)

theorem evals_collect (now : Nat) (s : State) : Evals s (collect now s) := by
  unfold collect
  refine Evals.trans ?_ (.foldl _ (fun y j => evals_takePolder now y j) _ _)
  exact Evals.trans (evals_modDkh _ s fun _ => rfl) (.foldl _ (fun y o => evals_takeOut now o y) _ _)

/-! ### Actions -/

theorem evals_setHbLost (i : PolderId) (b : Bool) (s : State) : Evals s (setHbLost i b s) := evals_modDkh _ s fun _ => rfl

theorem evals_resetPol (now : Nat) (i : PolderId) (cause : Nat) (sram : Bool) (s : State) : Evals s (resetPol now i cause sram s) :=
  (evals_modPol i _ s).trans (evals_hallDrop _ _ _ _)

theorem evals_powerOff (now : Nat) (i : PolderId) (s : State) : Evals s (powerOff now i s) :=
  ((evals_resetPol now i _ false s).trans (evals_modDpol i _ _)).trans (evals_setHbLost i false _)

theorem evals_powerRestart (now : Nat) (i : PolderId) (sup : Bool) (cause : Nat) (s : State) : Evals s (powerRestart now i sup cause s) := by
  unfold powerRestart
  split
  · exact evals_modDpol i _ s
  · extract_lets s1 s2 s3
    have h1 : Evals s s1 := evals_resetPol now i cause true s
    clear_value s1
    have h2 : Evals s1 s2 := evals_modDpol i _ s1
    clear_value s2
    have h3 : Evals s2 s3 := .ite (evals_modDkh _ s2 fun _ => rfl) (.refl s2)
    exact (h1.trans (h2.trans h3)).trans (evals_dkhNote _ _ _ _ s3)

theorem evals_proceed (now : Nat) (i : PolderId) (a : Nat) (sup : Bool) (cause : Nat) (s : State) : Evals s (proceed now i a sup cause s) :=
  .ite (evals_powerOff now i s) (evals_powerRestart now i sup cause s)

theorem evals_withGuard (now : Nat) (i : PolderId) (a : Nat) (sup : Bool) (cause : Nat) (s : State) : Evals s (withGuard now i a sup cause s) :=
  .ite ((evals_modPol i _ s).trans (evals_modDpol i _ _)) (evals_proceed now i a sup cause s)

theorem evals_toSleep (now : Nat) (i : PolderId) (s : State) : Evals s (toSleep now i s) :=
  (((evals_modPol i _ s).trans (evals_collect now _)).trans (evals_hallDrop _ _ _ _)).trans (evals_setHbLost i false _)

theorem evals_wakeUp (now : Nat) (i : PolderId) (s : State) : Evals s (wakeUp now i s) := by
  unfold wakeUp
  split
  · exact evals_modPol i _ s
  · exact .ite (.refl s) ((evals_modPol i _ s).trans (evals_modDpol i _ _))
  · exact .refl s

theorem evals_carryOut (now : Nat) (i : PolderId) (a : Nat) (policy : Option Nat) (s : State) : Evals s (carryOut now i a policy s) := by
  unfold carryOut
  extract_lets free sup
  have hm := fun f => evals_modDpol i f s
  split
  · exact .ite (.ite (.refl s) (hm _)) (.ite (hm _) (.ite (hm _) (.refl s)))
  · exact .ite (hm _) (.ite (evals_wakeUp now i s) (.ite (.ite (evals_toSleep now i s) (evals_dkhNote _ _ _ _ s))
      (.ite (.refl s) (evals_withGuard now i a sup _ s))))

theorem evals_actOn (now : Nat) (reqs : List (Nat × Nat)) (s : State) (i : PolderId) : Evals s (actOn now reqs s i) := by
  unfold actOn
  extract_lets mine policy s1 s2 own
  have h1 : Evals s s1 := evals_modDpol i _ s
  clear_value s1
  have h2 : Evals s s2 := h1.trans (.ite (evals_modPol i _ s1) (.refl s1))
  clear_value s2
  exact h2.trans (evals_carryOut now i _ _ s2)

theorem evals_dkhReply (op sess seq : Nat) (r : Reply) (s : State) : Evals s (dkhReply op sess seq r s) := evals_modDkh _ s fun _ => rfl

end Sys2Proof.Machine
end

section
/-!
SUPPORT. The evaluation of the Dikehouse's rules (R458, R459): its instant, its requests, and a condition that does not hold.
-/
namespace Sys2Proof.Machine
open Sys2Proof

variable {s y z : State} {now : Nat} {i : PolderId} {r : Nat}

/-! ### Conditions of rules -/

/-- `y` differs from `s` in no more than what rules do at an evaluation: timers, requests, records. -/
structure RuleSame (s y : State) : Prop where
  part : y.part = s.part
  now : y.now = s.now
  rails : y.rails = s.rails
  pol : ∀ i, y.pol i = s.pol i
  rtcAt : y.dkh.rtcAt = s.dkh.rtcAt
  regs : ∀ o, o ≠ A.DKH_EVT → o ≠ A.DKH_LOGNEXT → krd y.dkh o = krd s.dkh o

theorem RuleSame.refl (s : State) : RuleSame s s := ⟨rfl, rfl, rfl, fun _ => rfl, rfl, fun _ _ _ => rfl⟩

theorem RuleSame.trans (h : RuleSame s y) (g : RuleSame y z) : RuleSame s z :=
  ⟨g.part.trans h.part, g.now.trans h.now, g.rails.trans h.rails, fun i => (g.pol i).trans (h.pol i), g.rtcAt.trans h.rtcAt,
    fun o h1 h2 => (g.regs o h1 h2).trans (h.regs o h1 h2)⟩

theorem ruleSame_modDkh (f : Dikehouse → Dikehouse) (s : State) (ht : (f s.dkh).rtcAt = s.dkh.rtcAt)
    (hr : ∀ o, o ≠ A.DKH_EVT → o ≠ A.DKH_LOGNEXT → krd (f s.dkh) o = krd s.dkh o) : RuleSame s (modDkh f s) :=
  ⟨rfl, rfl, rfl, fun i => pol_modDkh f s i, ht, hr⟩

theorem rtcAt_devTouch (now sect : Nat) (f : DevRecord → DevRecord) (d : Dikehouse) : (devTouch now sect f d).rtcAt = d.rtcAt := by
  unfold devTouch
  split <;> rfl

theorem krd_devLog (now source code sev : Nat) (data : List Byte) (d : Dikehouse) {o : Nat} (h : o ≠ A.DKH_LOGNEXT) :
    krd (devLog now source code sev data d) o = krd d o := by
  unfold devLog
  dsimp only
  rw [krd_devTouch]
  exact krd_kwr_ne _ _ h

theorem rtcAt_devLog (now source code sev : Nat) (data : List Byte) (d : Dikehouse) : (devLog now source code sev data d).rtcAt = d.rtcAt := by
  unfold devLog
  exact rtcAt_devTouch _ _ _ _

theorem ruleSame_devLog (now source code sev : Nat) (data : List Byte) (s : State) : RuleSame s (modDkh (devLog now source code sev data) s) :=
  ruleSame_modDkh _ _ (rtcAt_devLog now source code sev data s.dkh) fun _ _ h => krd_devLog now source code sev data s.dkh h

theorem ruleSame_dkhNote {f : Fld} (hf : f.off = A.DKH_EVT) (now rule pol : Nat) (s : State) : RuleSame s (dkhNote now f rule pol s) := by
  have h1 : RuleSame s (modDkh (kevt now f) s) := ruleSame_modDkh _ s rfl fun o h _ => krd_kput_ne s.dkh _ (hf ▸ h)
  unfold dkhNote
  exact h1.trans (ruleSame_devLog _ _ _ _ _ _)

theorem RuleSame.krd (h : RuleSame s y) {o : Nat} (ho : o ≠ A.DKH_EVT ∧ o ≠ A.DKH_LOGNEXT) : krd y.dkh o = krd s.dkh o := h.regs o ho.1 ho.2

theorem RuleSame.kget (h : RuleSame s y) {f : Fld} (ho : f.off ≠ A.DKH_EVT ∧ f.off ≠ A.DKH_LOGNEXT) : kget y.dkh f = kget s.dkh f :=
  congrArg (bitsOf · f.hi f.lo) (h.krd ho)

theorem ruleRegs_apart (r : Nat) : A.DKH_RULE_A r ≠ A.DKH_EVT ∧ A.DKH_RULE_A r ≠ A.DKH_LOGNEXT := by
  unfold A.DKH_RULE_A A.DKH_EVT A.DKH_LOGNEXT
  omega

theorem winRegs_apart {k : Nat} (h : k < 16) : A.DKH_WIN k ≠ A.DKH_EVT ∧ A.DKH_WIN k ≠ A.DKH_LOGNEXT := by
  unfold A.DKH_WIN A.DKH_EVT A.DKH_LOGNEXT
  omega

theorem idx_lt (d : Dikehouse) (r : Nat) : kget d (F.DKH_RULE_A_IDX r) < 16 := Nat.mod_lt _ (show 0 < 16 by decide)

theorem RuleSame.ruleHolds (h : RuleSame s y) (r : Nat) : ruleHolds y r = ruleHolds s r := by
  have ha := ruleRegs_apart r
  have hb : ∀ i, brownedOut y i = brownedOut s i := fun i => by
    unfold brownedOut
    rw [h.pol, h.rails]
  have hl : ∀ i, hbLostBit y i = hbLostBit s i := fun i => by
    unfold hbLostBit
    rw [h.krd (o := A.DKH_STAT) (by decide)]
  have ht : rtcNow y.dkh y.now = rtcNow s.dkh s.now := by
    unfold rtcNow
    rw [h.krd (o := A.DKH_RTC) (by decide), h.rtcAt, h.now]
  have hi : Machine.kget y.dkh (F.DKH_RULE_A_IDX r) = Machine.kget s.dkh (F.DKH_RULE_A_IDX r) := h.kget ha
  have hw : Machine.kget y.dkh (F.DKH_WIN_STATE (Machine.kget s.dkh (F.DKH_RULE_A_IDX r))) =
      Machine.kget s.dkh (F.DKH_WIN_STATE (Machine.kget s.dkh (F.DKH_RULE_A_IDX r))) := h.kget (winRegs_apart (idx_lt s.dkh r))
  have he : kbit y.dkh (F.DKH_RULE_A_EN r) = kbit s.dkh (F.DKH_RULE_A_EN r) := congrArg (· == 1) (h.kget ha)
  have hs : Machine.kget y.dkh (F.DKH_RULE_A_SRC r) = Machine.kget s.dkh (F.DKH_RULE_A_SRC r) := h.kget ha
  have hm : Machine.kget y.dkh (F.DKH_RULE_A_MATCH r) = Machine.kget s.dkh (F.DKH_RULE_A_MATCH r) := h.kget ha
  unfold Machine.ruleHolds
  dsimp only
  simp only [hi, hw, he, hs, hm, hb, hl, ht, h.part, h.krd (o := A.DKH_ALARM) (by decide)]

/-! ### One rule -/

theorem ruleSame_timers (f : Dikehouse → Vector (Option Nat) 16) (g : Dikehouse → Vector Bool 16) (b : Dikehouse → Bool) (s : State) :
    RuleSame s (modDkh (fun d => { d with held := f d, fired := g d, wakeLow := b d }) s) := ruleSame_modDkh _ s rfl fun _ _ _ => rfl

theorem held_dkhNote (now : Nat) (f : Fld) (rule pol : Nat) (s : State) : (dkhNote now f rule pol s).dkh.held = s.dkh.held :=
  congrArg (fun x => x.2.2) (evals_dkhNote now f rule pol s)

theorem ruleStep_same (now : Nat) (x : List (Nat × Nat) × State) (r : Nat) : RuleSame x.2 (ruleStep now x r).2 ∧
    (ruleStep now x r).2.dkh.lastEval = x.2.dkh.lastEval ∧ (∀ k, k ≠ r → vget (ruleStep now x r).2.dkh.held k none = vget x.2.dkh.held k none) ∧
    (r < 16 → ruleHolds x.2 r = false → vget (ruleStep now x r).2.dkh.held r none = none) := by
  unfold ruleStep
  extract_lets s since s1 pols s2
  have hk : ∀ (v : Option Nat) k, k ≠ r → vget (vset s.dkh.held r v) k none = vget s.dkh.held k none := fun v k h => vget_vset_ne _ _ _ h
  have h1 : RuleSame s s1 ∧ s1.dkh.lastEval = s.dkh.lastEval ∧ s1.dkh.held = vset s.dkh.held r (some since) :=
    ⟨ruleSame_modDkh _ s rfl fun _ _ _ => rfl, rfl, rfl⟩
  clear_value s1
  obtain ⟨hs1, hl1, hh1⟩ := h1
  cases hr : ruleHolds s r with
  | false =>
    rw [if_pos (show (!false) = true from rfl)]
    exact ⟨ruleSame_timers (fun d => vset d.held r none) (fun d => vset d.fired r false) (fun d => d.wakeLow) s, rfl, hk none, fun h16 _ => vget_vset_self _ _ _ h16⟩
  | true =>
    have h2 : RuleSame s1 s2 ∧ s2.dkh.lastEval = s1.dkh.lastEval ∧ s2.dkh.held = s1.dkh.held :=
      ⟨(ruleSame_modDkh (fun d => { d with fired := vset d.fired r true, wakeLow := d.wakeLow || kbit d (F.DKH_RULE_B_WAKEPIN r) }) s1 rfl fun _ _ _ => rfl).trans
        (ruleSame_dkhNote rfl now r pols _), congrArg Prod.fst (evals_dkhNote now F.DKH_EVT_RULE r pols _), held_dkhNote now F.DKH_EVT_RULE r pols _⟩
    clear_value s2
    obtain ⟨hs2, hl2, hh2⟩ := h2
    have hf : ¬(true = false) := by decide
    split
    · exact absurd ‹_› (by decide)
    split
    · exact ⟨hs1, hl1, fun k h => by rw [hh1]; exact hk _ k h, fun _ h => absurd h hf⟩
    · have h3 : ∀ b : Bool, RuleSame s2 (if b then dkhNotify now s2 else s2) ∧ (if b then dkhNotify now s2 else s2).dkh.lastEval = s2.dkh.lastEval ∧
          (if b then dkhNotify now s2 else s2).dkh.held = s2.dkh.held := fun b => by
        cases b
        · exact ⟨.refl s2, rfl, rfl⟩
        · rw [if_pos rfl]
          exact ⟨ruleSame_modDkh _ s2 rfl (by exact fun _ _ _ => rfl), rfl, rfl⟩
      obtain ⟨hs3, hl3, hh3⟩ := h3 (kbit s.dkh (F.DKH_RULE_B_NOTIFY r))
      exact ⟨hs1.trans (hs2.trans hs3), hl3.trans (hl2.trans hl1), fun k h => by
        dsimp only
        rw [hh3, hh2, hh1]
        exact hk _ k h, fun _ h => absurd h hf⟩

theorem foldl_ruleStep (now : Nat) (l : List Nat) (x : List (Nat × Nat) × State) : RuleSame x.2 (l.foldl (ruleStep now) x).2 ∧
    (l.foldl (ruleStep now) x).2.dkh.lastEval = x.2.dkh.lastEval ∧
    ∀ r < 16, ruleHolds x.2 r = false → (r ∈ l ∨ vget x.2.dkh.held r none = none) → vget (l.foldl (ruleStep now) x).2.dkh.held r none = none := by
  induction l generalizing x with
  | nil => exact ⟨.refl _, rfl, fun r _ _ h => h.resolve_left (by simp)⟩
  | cons a l ih =>
    obtain ⟨hs, hl, hne, hself⟩ := ruleStep_same now x a
    obtain ⟨is', il, ih'⟩ := ih (ruleStep now x a)
    refine ⟨hs.trans is', il.trans hl, fun r h16 hr h => ih' r h16 ((hs.ruleHolds r).trans hr) ?_⟩
    by_cases ha : r = a
    · subst ha
      exact .inr (hself h16 hr)
    · exact h.imp (fun hm => (List.mem_cons.mp hm).resolve_left ha) fun hv => (hne r ha).trans hv

/-! ### The evaluation -/

theorem evals_guardCheck (now : Nat) (s : State) (i : PolderId) : Evals s (guardCheck now s i) := by
  unfold guardCheck
  split
  · exact .ite (.refl s) (evals_proceed now i _ _ _ s)
  · exact .refl s

theorem foldl_guardCheck_none (now : Nat) (l : List PolderId) (s : State) (h : ∀ j, (dpol s j).guard = none) : l.foldl (guardCheck now) s = s := by
  induction l with
  | nil => rfl
  | cons a l ih =>
    have ha : guardCheck now s a = s := by
      unfold guardCheck
      rw [h a]
    rw [List.foldl_cons, ha, ih]

theorem ruleEvaluation_fields (hu : s.dkh.up = true) (ht : s.dkh.lastEval + ms ≤ now) : (ruleEvaluation now s).dkh.lastEval = now ∧
    (ruleEvaluation now s).dkh.requests = [] ∧
    ∀ r < 16, ruleHolds s r = false → (∀ j, (dpol s j).guard = none) → vget (ruleEvaluation now s).dkh.held r none = none := by
  have hc : ¬(!s.dkh.up || decide (now < s.dkh.lastEval + ms)) = true := by
    rw [hu, decide_eq_false (by omega)]
    decide
  unfold ruleEvaluation
  rw [if_neg hc]
  extract_lets s0 r cmds bad good s1 s2 s3
  have h0 : s0.dkh.lastEval = now := congrArg Prod.fst (Evals.foldl (guardCheck now) (fun x i => evals_guardCheck now x i) (presentPolders s) _)
  have hg : (∀ j, (dpol s j).guard = none) → RuleSame s s0 := fun hg => by
    unfold s0
    rw [foldl_guardCheck_none now _ _ (by exact hg)]
    exact ruleSame_modDkh _ s rfl fun _ _ _ => rfl
  clear_value s0
  obtain ⟨hrs, hrl, hrh⟩ := foldl_ruleStep now (List.range 16) ([], s0)
  change RuleSame s0 r.2 at hrs
  change r.2.dkh.lastEval = s0.dkh.lastEval at hrl
  change ∀ k < 16, ruleHolds s0 k = false → _ → vget r.2.dkh.held k none = none at hrh
  clear_value r
  have h1 : ruleState s1.dkh = (now, [], r.2.dkh.held) := Prod.ext (hrl.trans h0) rfl
  clear_value s1
  have h2 : Evals s1 s2 := .foldl _ (fun x i => evals_actOn now _ x i) _ s1
  clear_value s2
  have h3 : Evals s2 s3 := .foldl _ (fun x e => evals_dkhReply _ _ _ _ x) _ s2
  have h4 : ∀ rep : Reply, Evals s3 (good.foldl (fun y e => dkhReply e.2.2.opcode e.2.2.sess e.2.2.seq rep y) s3) := fun rep =>
    .foldl _ (fun x e => evals_dkhReply _ _ _ _ x) _ s3
  have hall := Eq.trans (h2.trans (h3.trans (h4 (okWith (wBytes (dkhStat s3)))))) h1
  refine ⟨congrArg Prod.fst hall, congrArg (fun x => x.2.1) hall, fun k h16 hk hguard => ?_⟩
  have hh := congrArg (fun x => x.2.2) hall
  refine Eq.trans (congrArg (fun v : Vector (Option Nat) 16 => vget v k none) hh) ?_
  exact hrh k h16 (((hg hguard).ruleHolds k).trans hk) (.inl (List.mem_range.mpr h16))

end Sys2Proof.Machine
end

section
/-!
SUPPORT. O59: what the Dikehouse does of itself (R444, R456 to R464).
-/
namespace Sys2Proof.Machine
open Sys2Proof

variable {s y : State} {now : Nat} {i : PolderId}

/-! ### The Dikehouse's data of a polder, its flags and events -/

theorem num_pred_lt (i : PolderId) : i.num - 1 < 4 := by cases i <;> decide

theorem dpol_modDpol (i : PolderId) (f : DkhPolder → DkhPolder) (s : State) : dpol (modDpol i f s) i = f (dpol s i) :=
  vget_vmod_self _ f _ (num_pred_lt i)

theorem dpol_of_pols (h : y.dkh.pols = s.dkh.pols) : dpol y i = dpol s i := congrArg (fun v : Vector DkhPolder 4 => vget v (i.num - 1) {}) h

theorem pols_devTouch (now sect : Nat) (f : DevRecord → DevRecord) (d : Dikehouse) : (devTouch now sect f d).pols = d.pols := by
  unfold devTouch
  split <;> rfl

theorem pols_dkhNote (now : Nat) (f : Fld) (rule pol : Nat) (s : State) : (dkhNote now f rule pol s).dkh.pols = s.dkh.pols := pols_devTouch _ _ _ _

theorem krd_dkhNote (now : Nat) (f : Fld) (rule pol : Nat) (s : State) {o : Nat} (h : o ≠ A.DKH_LOGNEXT) :
    krd (dkhNote now f rule pol s).dkh o = krd (kput s.dkh f 1) o := krd_devLog _ _ _ _ _ _ h

theorem hbLostBit_of_krd (h : krd y.dkh A.DKH_STAT = krd s.dkh A.DKH_STAT) : hbLostBit y i = hbLostBit s i := by
  unfold hbLostBit
  rw [h]

theorem hbLostBit_setHbLost (i : PolderId) (b : Bool) (s : State) : hbLostBit (setHbLost i b s) i = b := by
  have hi := num_pred_lt i
  unfold hbLostBit setHbLost
  show (krd (kwr s.dkh A.DKH_STAT _) A.DKH_STAT).getLsbD _ = b
  rw [krd_kwr_self, withBits_getLsbD, decide_eq_true (by omega), if_pos ⟨le_refl _, le_refl _⟩, Nat.sub_self]
  cases b <;> rfl

/-- An event that is set stays set, and a new one sets its bit. -/
theorem bit_kput_one (d : Dikehouse) {f : Fld} (hf : f.hi = f.lo) {k : Nat} (hk : k < 32) (ho : f.off = A.DKH_EVT)
    (h : k = f.lo ∨ bitOf (krd d A.DKH_EVT) k = true) : bitOf (krd (kput d f 1) A.DKH_EVT) k = true := by
  unfold kput
  rw [ho, krd_kwr_self]
  unfold bitOf
  rw [withBits_getLsbD, decide_eq_true hk, hf, Bool.true_and]
  by_cases he : f.lo ≤ k ∧ k ≤ f.lo
  · rw [if_pos he, show k - f.lo = 0 by omega]
    rfl
  · rw [if_neg he]
    exact h.resolve_left (by omega)

theorem bit_dkhNote (now : Nat) {f : Fld} (rule pol : Nat) (hf : f.hi = f.lo) {k : Nat} (hk : k < 32) (ho : f.off = A.DKH_EVT)
    (h : k = f.lo ∨ bitOf (krd s.dkh A.DKH_EVT) k = true) : bitOf (krd (dkhNote now f rule pol s).dkh A.DKH_EVT) k = true := by
  rw [krd_dkhNote _ _ _ _ _ (by decide)]
  exact bit_kput_one s.dkh hf hk ho h

/-! ### Start -/

/-- What of the Dikehouse its start sets. -/
def started (s : State) : Bool × Nat × List (Nat × Nat × CmdRef) × Bool := (s.dkh.up, s.dkh.bootCount, s.dkh.requests, s.rails.vaon)

theorem started_devTouch (now sect : Nat) (f : DevRecord → DevRecord) (d : Dikehouse) : (devTouch now sect f d).up = d.up ∧
    (devTouch now sect f d).bootCount = d.bootCount ∧ (devTouch now sect f d).requests = d.requests := by
  unfold devTouch
  split <;> exact ⟨rfl, rfl, rfl⟩

theorem started_dkhNote (now : Nat) (f : Fld) (rule pol : Nat) (s : State) : started (dkhNote now f rule pol s) = started s := by
  have h : ∀ g d, (devTouch now 6 g d).up = d.up ∧ (devTouch now 6 g d).bootCount = d.bootCount ∧ (devTouch now 6 g d).requests = d.requests :=
    started_devTouch now 6
  unfold dkhNote devLog started modDkh
  dsimp only
  rw [(h _ _).1, (h _ _).2.1, (h _ _).2.2]
  rfl

theorem started_modPol (i : PolderId) (f : Polder → Polder) (s : State) : started (s.modPol i f) = started s := by cases i <;> rfl

theorem started_foldl {α : Type} (f : State → α → State) (hf : ∀ x a, started (f x a) = started x) (l : List α) (s : State) :
    started (l.foldl f s) = started s := by
  induction l generalizing s with
  | nil => rfl
  | cons a l ih => exact (ih _).trans (hf s a)

theorem started_loadPatch (now : Nat) (s : State) : started (loadPatch now s) = started s := by
  unfold loadPatch
  split
  · rfl
  · split
    · rfl
    · exact started_dkhNote _ _ _ _ s

theorem dkhStart_fields (h : s.dkh.up = false) : started (dkhStart now s) = (true, (s.dkh.bootCount + 1) % 65536, [], true) := by
  unfold dkhStart
  rw [if_neg (by rw [h]; decide)]
  extract_lets d pick r n d1 d2 x x2 s1 s2
  have h1 : started s1 = (true, (s.dkh.bootCount + 1) % 65536, [], true) := rfl
  clear_value s1
  have h2 : started s2 = started s1 := started_foldl _ (fun y j => by
    split
    · exact started_modPol j _ y
    · rfl) _ s1
  clear_value s2
  exact (started_loadPatch now s2).trans (h2.trans h1)

/-! ### Watch inputs -/

theorem kget_kput_self (d : Dikehouse) (f : Fld) (v : Nat) (h : f.hi < 32) : kget (kput d f v) f = v % 2 ^ (f.hi + 1 - f.lo) := by
  unfold kget kput
  rw [krd_kwr_self, bitsOf_withBits_self _ _ _ _ h]

theorem kget_kput_bits (d : Dikehouse) {f g : Fld} (v : Nat) (ho : g.off = f.off) (h : g.hi < f.lo ∨ f.hi < g.lo) : kget (kput d f v) g = kget d g := by
  unfold kget kput
  rw [ho, krd_kwr_self, bitsOf_withBits_ne _ _ h]

theorem watchState_lt (old y hi lo hys : Nat) : watchState old y hi lo hys < 4 := by
  unfold watchState
  dsimp only
  repeat' split
  all_goals decide

/-- A filter of factor 2^0 takes the code itself. -/
theorem unfiltered (y x : Nat) : ((y : Int) + ((x * 1048576 : Nat) - (y : Int)) / ((2 ^ 0 : Nat) : Int)).toNat = x * 1048576 := by
  rw [show ((2 ^ 0 : Nat) : Int) = 1 from rfl, Int.ediv_one]
  omega

theorem kget_filt (d : Dikehouse) (v : Vector Nat 8) (g : Fld) : kget { d with filt := v } g = kget d g := rfl

theorem watchSample_fields {k code : Nat} (hu : s.dkh.up = true) (hk : k ≤ 7) (hc : code ≤ 4095) (he : kbit s.dkh (F.DKH_WINCFG_EN k) = true)
    (hf : kget s.dkh (F.DKH_WINCFG_F k) = 0) : kget (watchSample k code s).dkh (F.DKH_WIN_RAW k) = code ∧
      kget (watchSample k code s).dkh (F.DKH_WIN_FILT k) = code ∧
      kget (watchSample k code s).dkh (F.DKH_WIN_STATE k) = watchState (kget s.dkh (F.DKH_WIN_STATE k)) (code * 1048576) (kget s.dkh (F.DKH_WINCFG_HI k))
        (kget s.dkh (F.DKH_WINCFG_LO k)) (kget s.dkh (F.DKH_WINCFG_HYS k)) := by
  have hcond : ¬(!s.dkh.up || decide (7 < k)) = true := by
    rw [hu, decide_eq_false (by omega)]
    decide
  unfold watchSample
  rw [if_neg hcond]
  dsimp only
  rw [he, hf, Nat.min_eq_left hc, unfiltered, if_neg (by decide)]
  have hlt := watchState_lt (kget s.dkh (F.DKH_WIN_STATE k)) (code * 1048576) (kget s.dkh (F.DKH_WINCFG_HI k)) (kget s.dkh (F.DKH_WINCFG_LO k))
    (kget s.dkh (F.DKH_WINCFG_HYS k))
  generalize watchState (kget s.dkh (F.DKH_WIN_STATE k)) (code * 1048576) (kget s.dkh (F.DKH_WINCFG_HI k)) (kget s.dkh (F.DKH_WINCFG_LO k))
    (kget s.dkh (F.DKH_WINCFG_HYS k)) = st at hlt
  rw [Nat.mul_div_cancel _ (by decide)]
  generalize code * 1048576 = y
  refine ⟨(kget_filt _ _ (F.DKH_WIN_RAW k)).trans ?_, (kget_filt _ _ (F.DKH_WIN_FILT k)).trans ?_, (kget_filt _ _ (F.DKH_WIN_STATE k)).trans ?_⟩
  · refine (kget_kput_bits (f := F.DKH_WIN_STATE k) (g := F.DKH_WIN_RAW k) _ _ rfl (.inl (show 27 < 30 by decide))).trans
      ((kget_kput_bits (f := F.DKH_WIN_FILT k) (g := F.DKH_WIN_RAW k) _ _ rfl (.inr (show 11 < 16 by decide))).trans
        ((kget_kput_self s.dkh (F.DKH_WIN_RAW k) code (show 27 < 32 by decide)).trans ?_))
    exact Nat.mod_eq_of_lt (show code < 4096 by omega)
  · refine (kget_kput_bits (f := F.DKH_WIN_STATE k) (g := F.DKH_WIN_FILT k) _ _ rfl (.inl (show 11 < 30 by decide))).trans
      ((kget_kput_self _ (F.DKH_WIN_FILT k) code (show 11 < 32 by decide)).trans ?_)
    exact Nat.mod_eq_of_lt (show code < 4096 by omega)
  · exact (kget_kput_self _ (F.DKH_WIN_STATE k) st (show 31 < 32 by decide)).trans (Nat.mod_eq_of_lt hlt)

end Sys2Proof.Machine
end

section
/-!
SUPPORT. O59: supervision, the guard, delayed actions and commands of the Hall bridge (R459 to R464).
-/
namespace Sys2Proof.Machine
open Sys2Proof

variable {s y : State} {now : Nat} {i : PolderId}

/-! ### Supervision -/

theorem dpol_setHbLost (i : PolderId) (b : Bool) (s : State) : dpol (setHbLost i b s) i = dpol s i := dpol_of_pols rfl

theorem heartbeatRead_fields (hw : watched s i = true) (hv : rd (s.pol i) A.PCT_HBEAT ≠ (dpol s i).hbValue) :
    (dpol (heartbeatRead i now s) i).hbAt = now ∧ (dpol (heartbeatRead i now s) i).hbValue = rd (s.pol i) A.PCT_HBEAT ∧
      (dpol (heartbeatRead i now s) i).lost = false ∧ hbLostBit (heartbeatRead i now s) i = false := by
  unfold heartbeatRead
  rw [hw, if_neg (by decide)]
  dsimp only
  rw [if_neg hv, dpol_setHbLost, dpol_modDpol]
  exact ⟨rfl, rfl, rfl, hbLostBit_setHbLost i false _⟩

theorem lost_dkhNote (now : Nat) (f : Fld) (rule pol : Nat) (s : State) : dpol (dkhNote now f rule pol s) i = dpol s i := dpol_of_pols (pols_dkhNote _ _ _ _ s)

theorem hbLostBit_dkhNote {f : Fld} (hf : f.off = A.DKH_EVT) (now rule pol : Nat) (s : State) : hbLostBit (dkhNote now f rule pol s) i = hbLostBit s i :=
  hbLostBit_of_krd ((krd_dkhNote _ _ _ _ _ (by decide)).trans (krd_kput_ne _ _ (by rw [hf]; decide)))

/-- What a lost heartbeat, or a failed boot that counts as one, leaves. -/
theorem heartbeatLost_fields (now : Nat) (i : PolderId) (b : Bool) (s : State) : hbLostBit (heartbeatLost now i b s) i = true ∧
    (dpol (heartbeatLost now i b s) i).lost = true ∧ bitOf (krd (heartbeatLost now i b s).dkh A.DKH_EVT) F.DKH_EVT_HBLOST.lo = true ∧
    (b = true → bitOf (krd (heartbeatLost now i b s).dkh A.DKH_EVT) F.DKH_EVT_BOOTFAIL.lo = true) := by
  unfold heartbeatLost
  extract_lets s1 s2 pol n
  have h1 : hbLostBit s1 i = true ∧ (dpol s1 i).lost = true := by
    refine ⟨hbLostBit_setHbLost i true _, ?_⟩
    unfold s1
    rw [dpol_setHbLost, dpol_modDpol]
  clear_value s1
  obtain ⟨hh1, hl1⟩ := h1
  have h2 : hbLostBit s2 i = true ∧ (dpol s2 i).lost = true ∧ bitOf (krd s2.dkh A.DKH_EVT) 1 = true ∧
      (b = true → bitOf (krd s2.dkh A.DKH_EVT) 5 = true) := by
    have hb : hbLostBit (if b then modDkh (kevt now F.DKH_EVT_BOOTFAIL) s1 else s1) i = true ∧
        (dpol (if b then modDkh (kevt now F.DKH_EVT_BOOTFAIL) s1 else s1) i).lost = true ∧
        (b = true → bitOf (krd (if b then modDkh (kevt now F.DKH_EVT_BOOTFAIL) s1 else s1).dkh A.DKH_EVT) 5 = true) := by
      cases b
      · exact ⟨hh1, hl1, fun h => absurd h (by decide)⟩
      · refine ⟨(hbLostBit_of_krd (krd_kput_ne s1.dkh (f := F.DKH_EVT_BOOTFAIL) 1 (by decide))).trans hh1, hl1, fun _ => ?_⟩
        exact bit_kput_one s1.dkh (f := F.DKH_EVT_BOOTFAIL) rfl (by decide) rfl (.inl rfl)
    unfold s2
    generalize (if b then modDkh (kevt now F.DKH_EVT_BOOTFAIL) s1 else s1) = x at hb
    obtain ⟨hx, hlx, hbx⟩ := hb
    refine ⟨(hbLostBit_dkhNote rfl _ _ _ x).trans hx, by rw [lost_dkhNote]; exact hlx, bit_dkhNote now 0 i.num rfl (by decide) rfl (.inl rfl), fun h => ?_⟩
    exact bit_dkhNote now 0 i.num (f := F.DKH_EVT_HBLOST) rfl (by decide) rfl (.inr (hbx h))
  clear_value s2
  obtain ⟨hh2, hl2, he2, hb2⟩ := h2
  have hw : ∀ w, hbLostBit (modDpol i (fun d => { d with wanted := w }) s2) i = true ∧ (dpol (modDpol i (fun d => { d with wanted := w }) s2) i).lost = true := fun w =>
    ⟨hh2, by rw [dpol_modDpol]; exact hl2⟩
  split
  · exact ⟨hh2, hl2, he2, hb2⟩
  split
  · obtain ⟨hhw, hlw⟩ := hw (some 3)
    refine ⟨(hbLostBit_dkhNote rfl _ _ _ _).trans hhw, by rw [lost_dkhNote]; exact hlw, ?_, fun h => ?_⟩
    · exact bit_dkhNote now 0 i.num (f := F.DKH_EVT_GIVEUP) rfl (by decide) rfl (.inr he2)
    · exact bit_dkhNote now 0 i.num (f := F.DKH_EVT_GIVEUP) rfl (by decide) rfl (.inr (hb2 h))
  · exact ⟨(hw _).1, (hw _).2, he2, hb2⟩

theorem hblost_eq (h1 : watched s i = true) (h2 : supF s i F.DKH_SUP_HB_EN = 1) (h3 : (dpol s i).lost = false) (h4 : (dpol s i).hbAt + 100 * ms ≤ now) :
    hblost now i s = heartbeatLost now i false s := by
  have hc : (watched s i && supF s i F.DKH_SUP_HB_EN == 1 && !(dpol s i).lost && decide ((dpol s i).hbAt + 100 * ms ≤ now)) = true := by
    rw [h1, h2, h3, decide_eq_true h4]
    rfl
  exact if_pos hc

theorem bootfail_fields (h1 : s.dkh.up = true) (h2 : (s.pol i).power = .booting) (h3 : (dpol s i).lost = false) (h4 : (s.pol i).boot.t0 + 600 * ms ≤ now) :
    (dpol (bootfail now i s) i).lost = true ∧ bitOf (krd (bootfail now i s).dkh A.DKH_EVT) F.DKH_EVT_BOOTFAIL.lo = true := by
  have hc : (s.dkh.up && (s.pol i).power == .booting && !(dpol s i).lost && decide ((s.pol i).boot.t0 + 600 * ms ≤ now)) = true := by
    rw [h1, h2, h3, decide_eq_true h4]
    rfl
  unfold bootfail
  rw [if_pos hc]
  split
  · obtain ⟨-, hl, -, hb⟩ := heartbeatLost_fields now i true s
    exact ⟨hl, hb rfl⟩
  · refine ⟨?_, bit_dkhNote now 0 i.num rfl (by decide) rfl (.inl rfl)⟩
    rw [lost_dkhNote, dpol_modDpol]

/-! ### The guard and delayed actions -/

theorem latched_dkhRequest_trip {p : Polder} (now : Nat) (he : (enabledMask p).testBit 8 = true) : (latched (dkhRequest now 4#32 p)).testBit 8 = true := by
  have h : dkhRequest now 4#32 p = swTrip now p := rfl
  rw [h]
  exact latched_swTrip he

theorem guardTimeout_fields {g : Guard} (hg : (dpol s i).guard = some g) (ht : g.tripped = none) (hr : guarded s i = true)
    (hd : g.since + supF s i F.DKH_SUP_STOPTMO * ms ≤ now) (he : (enabledMask (s.pol i)).testBit 8 = true) :
    (dpol (guardTimeout now i s) i).guard = some { g with tripped := some now } ∧ (latched ((guardTimeout now i s).pol i)).testBit 8 = true := by
  have hc : (g.tripped.isNone && guarded s i && decide (g.since + supF s i F.DKH_SUP_STOPTMO * ms ≤ now)) = true := by
    rw [ht, hr, decide_eq_true hd]
    rfl
  unfold guardTimeout
  rw [hg]
  dsimp only
  rw [if_pos hc, dpol_modDpol]
  refine ⟨rfl, ?_⟩
  unfold modDpol
  rw [pol_modDkh, pol_modPol_self]
  exact latched_polish now (latched_dkhRequest_trip now he)

theorem powerRestart_resetEnd (now : Nat) (sup : Bool) (cause : Nat) (h : (dpol s i).closed = true) :
    (dpol (powerRestart now i sup cause s) i).resetEnd = some (now + ms) := by
  unfold powerRestart
  rw [h]
  extract_lets s1 s2 s3
  have h2 : (dpol s2 i).resetEnd = some (now + ms) := by
    unfold s2
    rw [dpol_modDpol]
  clear_value s2
  have h3 : (dpol s3 i).resetEnd = (dpol s2 i).resetEnd := by
    unfold s3
    split
    · exact congrArg DkhPolder.resetEnd (dpol_of_pols rfl)
    · rfl
  clear_value s3
  show (dpol (dkhNote now F.DKH_EVT_RESTART 0 i.num s3) i).resetEnd = _
  rw [lost_dkhNote, h3, h2]

theorem delayEnd_restart {t0 : Nat} (hg : (dpol s i).guard = none) (hr : (dpol s i).restartAt = some t0) (ht : t0 ≤ now) :
    delayEnd now i s = powerRestart now i true Cause.restart s := by
  unfold delayEnd
  dsimp only
  rw [hg, hr]
  dsimp only
  rw [decide_eq_true ht]

theorem delayEnd_reset {t0 : Nat} (hg : (dpol s i).guard = none) (hn : (dpol s i).restartAt = none) (hr : (dpol s i).resetEnd = some t0) (ht : t0 ≤ now) :
    delayEnd now i s = modDpol i (fun x => { x with resetEnd := none }) s := by
  unfold delayEnd
  dsimp only
  rw [hg, hn, hr]
  dsimp only
  rw [decide_eq_true ht]

/-! ### DKH_CMD -/

/-- The row of DKH_CMD. -/
def dkhCmdRow : RegRow := ⟨0x8, 0x0, 1, [0x0], [⟨1, 1, .wo, .any⟩, ⟨0, 0, .wo, .any⟩]⟩

theorem directWord_CMD (old v kept : Word) : ∃ w, directWord dkhCmdRow old v kept = .word w (v &&& 3#32) := by
  unfold directWord
  rw [if_neg (by decide)]
  have hok : fieldsOk dkhCmdRow [.rw, .wo] (BitVec.allOnes 32) v = true := by
    refine List.all_eq_true.mpr fun f hf => ?_
    unfold dkhCmdRow at hf
    simp only [List.mem_cons, List.not_mem_nil, or_false] at hf
    rcases hf with rfl | rfl <;> exact Bool.or_eq_true_iff.mpr (.inr rfl)
  rw [hok]
  exact ⟨_, congrArg (fun m => WriteOut.word _ (v &&& m)) (show accMask dkhCmdRow [.wo] = 3#32 by decide)⟩

theorem dkhWrite_CMD (now id : Nat) (v : Word) (s : State) : (dkhWrite now id A.DKH_CMD v s).2 = modDkh (dkhAct now (v &&& 3#32)) s := by
  obtain ⟨w, hw⟩ := directWord_CMD (krd s.dkh A.DKH_CMD) v (setBits s.dkh.sets (now / dkhCyc) A.DKH_CMD)
  have hok : ∀ w, dkhWordOk A.DKH_CMD w = true := fun _ => rfl
  unfold dkhWrite
  rw [if_neg (by decide), show findRow rowsDKH A.DKH_CMD = some (dkhCmdRow, 0) from rfl]
  dsimp only
  rw [hw]
  dsimp only
  rw [hok, if_neg (by decide), if_pos rfl]

theorem doesAll_of_onDkhCmd {k : Instr} {t bit : Nat} (he : exec k s = onDkhCmd t bit s) (h1 : s.hall.up = true) (h2 : s.dkh.up = true) :
    DoesAll k s t (modDkh (dkhAct (s.clock t) (wordN (2 ^ bit) &&& 3#32)) (s.at' t)) := by
  have hc : ((s.at' t).hall.up && (s.at' t).dkh.up) = true := by
    rw [show (s.at' t).hall.up = true from h1, show (s.at' t).dkh.up = true from h2]
    rfl
  exact doesAll_of_onDevice (f := fun now y => if y.hall.up && y.dkh.up then (dkhWrite now 3 A.DKH_CMD (wordN (2 ^ bit)) y).2 else y) he
    ((if_pos hc).trans (dkhWrite_CMD _ _ _ _))

theorem image_dkhSave (now : Nat) (d : Dikehouse) : (dkhSave now d).image.dkh = some (dkhConfig d) := by
  unfold dkhSave devTouch
  split <;> rfl

/-- Settles O59: the rules by the frame of their evaluation, the other events by what they leave in the Dikehouse's data of the polder. -/
theorem dikehouseEvents : Obligations.DikehouseEvents := by
  unfold Obligations.DikehouseEvents
  intro s t i now hp hn
  subst hn
  have hat : (s.at' t).pol i = s.pol i := at_pol s t i
  have hw : watched (s.at' t) i = watched s i := by
    unfold watched
    rw [hat]
    rfl
  refine ⟨fun h => ?_, fun k code h1 h2 h3 h4 h5 => ?_, fun h1 h2 => ?_, fun h1 h2 => ?_, fun h1 h2 h3 h4 => ?_, fun h1 h2 h3 h4 => ?_,
    fun g h1 h2 h3 h4 h5 => ?_, fun t0 h1 h2 h3 h4 => ?_, fun t0 h1 h2 h3 h4 => ?_, fun h1 h2 => ⟨?_, ?_⟩⟩
  · have hs := dkhStart_fields (now := s.clock t) (s := s.at' t) h
    refine ⟨_, doesAll_of_onDevice (k := .vaonRise t) (f := dkhStart) rfl rfl, congrArg Prod.fst hs, congrArg (fun x => x.2.2.2) hs,
      congrArg (fun x => x.2.1) hs, congrArg (fun x => x.2.2.1) hs⟩
  · exact ⟨_, doesAll_of_onDevice (k := .watchSample t k code) (f := fun _ y => watchSample k code y) rfl rfl, watchSample_fields (s := s.at' t) h1 h2 h3 h4 h5⟩
  · exact ⟨_, doesAll_of_onDevice (k := .ruleEvaluation t) (f := ruleEvaluation) rfl rfl, ruleEvaluation_fields (s := s.at' t) h1 h2⟩
  · have := heartbeatRead_fields (now := s.clock t) (s := s.at' t) (hw.trans h1) (by rw [hat]; exact h2)
    rw [hat] at this
    exact ⟨_, doesAll_of_part (k := .heartbeatRead t i) (f := fun now y => heartbeatRead i now y) rfl hp rfl, this⟩
  · obtain ⟨hh, hl, he, -⟩ := heartbeatLost_fields (s.clock t) i false (s.at' t)
    exact ⟨_, doesAll_of_part (k := .hblost t i) (f := fun now y => hblost now i y) rfl hp (hblost_eq (s := s.at' t) (hw.trans h1) h2 h3 h4), hh, hl, he⟩
  · exact ⟨_, doesAll_of_part (k := .bootfail t i) (f := fun now y => bootfail now i y) rfl hp rfl,
      bootfail_fields (s := s.at' t) h1 (by rw [hat]; exact h2) h3 (by rw [hat]; exact h4)⟩
  · have hg : guarded (s.at' t) i = guarded s i := by
      unfold guarded
      rw [hat]
    exact ⟨_, doesAll_of_part (k := .guardTimeout t i) (f := fun now y => guardTimeout now i y) rfl hp rfl,
      guardTimeout_fields (s := s.at' t) h1 h2 (hg.trans h3) h4 (by rw [hat]; exact h5)⟩
  · obtain ⟨hpow, hcause⟩ := powerRestart_pol (s := s.at' t) (i := i) (s.clock t) true Cause.restart h2
    exact ⟨_, doesAll_of_part (k := .actionDelayEnd t i) (f := fun now y => delayEnd now i y) rfl hp (delayEnd_restart (s := s.at' t) h1 h3 h4), hpow, hcause,
      powerRestart_resetEnd (s := s.at' t) (s.clock t) true Cause.restart h2⟩
  · refine ⟨_, doesAll_of_part (k := .actionDelayEnd t i) (f := fun now y => delayEnd now i y) rfl hp (delayEnd_reset (s := s.at' t) h1 h2 h3 h4), ?_, ?_⟩
    · rw [dpol_modDpol]
    · unfold modDpol
      rw [pol_modDkh, hat]
  · exact ⟨_, doesAll_of_onDkhCmd (k := .wakeclr t) (bit := 0) rfl h1 h2, rfl⟩
  · have hd : dkhAct (s.clock t) (wordN (2 ^ 1) &&& 3#32) s.dkh = dkhSave (s.clock t) s.dkh := rfl
    refine ⟨_, doesAll_of_onDkhCmd (k := .dkhSave t) (bit := 1) rfl h1 h2, ?_, ?_⟩
    · exact (congrArg (fun d : Dikehouse => d.image.dkh) hd).trans (image_dkhSave _ _)
    · exact (congrArg (fun d : Dikehouse => d.dirtySince.isSome) hd).trans (dirtySince_devTouch _ _ _ _)

end Sys2Proof.Machine
end

section
/-!
SUPPORT. O60: the monitor's lines and events (R483 to R487).
-/
namespace Sys2Proof.Machine
open Sys2Proof

variable {k : Instr} {s : State} {t now need least : Nat} {i : PolderId} {p q : Polder}

/-! ### Lines -/

/-- A line of a session, by the level that it needs. -/
theorem does_of_onMonitor {f : Nat → State → Polder → Polder} (h : Types s t i least now p) (he : exec k s = onMonitor t i need s f) :
    Does k s t i (if monLevel p < need then monErr Status.locked p else f now s p) := by
  obtain ⟨hp, hs, ha, -, rfl, rfl⟩ := h
  have haw : awake (s.pol i) = true := by
    unfold monServed at hs
    simp only [Bool.and_eq_true] at hs
    exact hs.1.1.1
  refine does_of_onAwake (f := fun now q => monLine now need (f now s) q) he hp haw ?_
  unfold monLine
  rw [hs, ha]
  rfl

theorem does_of_line {f : Nat → State → Polder → Polder} (h : Types s t i need now p) (he : exec k s = onMonitor t i need s f) (hq : f now s p = q) :
    Does k s t i q := by
  subst hq
  have hd := does_of_onMonitor h he
  obtain ⟨-, -, -, hl, -, hp⟩ := h
  have hlp : ¬monLevel p < need := by
    rw [hp]
    exact Nat.not_lt.mpr hl
  rwa [if_neg hlp] at hd

theorem does_of_locked {f : Nat → State → Polder → Polder} (h : Types s t i least now p) (he : exec k s = onMonitor t i need s f) (hl : monLevel p < need) :
    Does k s t i (monErr Status.locked p) := by
  have hd := does_of_onMonitor h he
  rwa [if_pos hl] at hd

/-! ### What answers and records leave -/

theorem fget_monSay (o : MonOut) (p : Polder) (f : Fld) : fget (monSay o p) f = fget p f := rfl

theorem fget_record {f : Fld} (a b c : Nat) (d : List Byte) (p : Polder) (hf : f.off = A.PCT_MONSTAT) : fget (logRec now a b c d p) f = fget p f :=
  fget_logRec now a b c d p (by rw [hf]; unfold logRegs; decide)

theorem mon_logRec (a b c : Nat) (d : List Byte) (p : Polder) : (logRec now a b c d p).mon = p.mon := (settles_logRec now a b c d p).mon

theorem fget_monstat_bits {f g : Fld} (v : Nat) (p : Polder) (h : g.hi < f.lo ∨ f.hi < g.lo) : fget (fput p f v) g = fget p g := fget_fput_bits p v h

/-! ### The session -/

theorem monLock_fields (now : Nat) (p : Polder) : monLevel (monLock now p) = 0 ∧ monActive (monLock now p) = monActive p ∧ (monLock now p).eng = p.eng := by
  have h1 : monLevel (modMon (fun m => { m with challenge := none, admin := false }) (fput p F.PCT_MONSTAT_LEVEL 0)) = 0 :=
    fget_fput_self p F.PCT_MONSTAT_LEVEL 0 (by decide)
  have h2 : fget (modMon (fun m => { m with challenge := none, admin := false }) (fput p F.PCT_MONSTAT_LEVEL 0)) F.PCT_MONSTAT_ACTIVE =
      fget p F.PCT_MONSTAT_ACTIVE := fget_monstat_bits (f := F.PCT_MONSTAT_LEVEL) (g := F.PCT_MONSTAT_ACTIVE) 0 p (by decide)
  have h3 : (modMon (fun m => { m with challenge := none, admin := false }) (fput p F.PCT_MONSTAT_LEVEL 0)).eng = p.eng := rfl
  unfold monLock
  generalize modMon (fun m => { m with challenge := none, admin := false }) (fput p F.PCT_MONSTAT_LEVEL 0) = x at h1 h2 h3
  dsimp only
  split
  · exact ⟨h1, congrArg (· == 1) h2, h3⟩
  · exact ⟨(fget_record _ _ _ _ x rfl).trans h1, congrArg (· == 1) ((fget_record _ _ _ _ x rfl).trans h2), (settles_logRec _ _ _ _ _ x).eng.trans h3⟩

/-- No lock is left to a master whose locks are released. -/
theorem lockOwner_lockAuto {m : Nat} (hm : m ≠ 0) (p : Polder) {j : Nat} (hj : j < 16) : lockOwner (lockAuto m p) j ≠ m := by
  unfold lockAuto
  split
  · show vget (p.eng.locks.map fun o => if o = m then 0 else o) j 0 ≠ m
    unfold vget
    rw [Vector.getElem?_eq_getElem hj]
    show (p.eng.locks.map fun o => if o = m then 0 else o)[j] ≠ m
    rw [Vector.getElem_map]
    split
    · exact Ne.symm hm
    · assumption
  next h =>
    show vget p.eng.locks j 0 ≠ m
    unfold vget
    rw [Vector.getElem?_eq_getElem hj]
    intro he
    refine h (List.contains_iff_mem.mpr ?_)
    rw [← show p.eng.locks[j] = m from he]
    simp

theorem monEnd_fields (now : Nat) (h : monActive p = true) : monLevel (monEnd now p) = 0 ∧ monActive (monEnd now p) = false ∧
    ∀ j < 16, lockOwner (monEnd now p) j ≠ 5 := by
  obtain ⟨hl, -, -⟩ := monLock_fields now p
  have h1 : fget (fput (monLock now p) F.PCT_MONSTAT_ACTIVE 0) F.PCT_MONSTAT_LEVEL = 0 :=
    (fget_monstat_bits (f := F.PCT_MONSTAT_ACTIVE) (g := F.PCT_MONSTAT_LEVEL) 0 _ (by decide)).trans hl
  have h2 : fget (fput (monLock now p) F.PCT_MONSTAT_ACTIVE 0) F.PCT_MONSTAT_ACTIVE = 0 := fget_fput_self _ _ 0 (by decide)
  unfold monEnd
  rw [if_pos h]
  generalize fput (monLock now p) F.PCT_MONSTAT_ACTIVE 0 = x at h1 h2
  have hx : ∀ f : Fld, f.off = A.PCT_MONSTAT → fget (lockAuto 5 x) f = fget x f := fun f hf => by
    unfold lockAuto
    split
    · exact fget_evt_off (f := f) (g := F.MBX_EVT_LOCK_AUTOREL) _ (by rw [hf]; decide)
    · rfl
  exact ⟨(hx F.PCT_MONSTAT_LEVEL rfl).trans h1, congrArg (· == 1) ((hx F.PCT_MONSTAT_ACTIVE rfl).trans h2), fun j hj => lockOwner_lockAuto (by decide) x hj⟩

theorem monRate_fields {baud : Nat} (hs : monServed p = true) (hb : 112896 ≤ baud ∧ baud ≤ 3060000) : monActive (monRate now baud p) = true ∧
    fget (monRate now baud p) F.PCT_MONSTAT_BAUD = baud ∧ (monActive p = false → monLevel (monRate now baud p) = 0) := by
  have hc : (monServed p && decide (112896 ≤ baud ∧ baud ≤ 3060000)) = true := by rw [hs, decide_eq_true hb]; rfl
  have h1 : fget (modMon (fun m => { m with lastInput := now }) (fput p F.PCT_MONSTAT_BAUD baud)) F.PCT_MONSTAT_BAUD = baud :=
    (fget_fput_self p F.PCT_MONSTAT_BAUD baud (by decide)).trans (Nat.mod_eq_of_lt (lt_of_le_of_lt hb.2 (by decide)))
  have h2 : monActive (modMon (fun m => { m with lastInput := now }) (fput p F.PCT_MONSTAT_BAUD baud)) = monActive p :=
    congrArg (· == 1) (fget_monstat_bits (f := F.PCT_MONSTAT_BAUD) (g := F.PCT_MONSTAT_ACTIVE) baud p (by decide))
  unfold monRate
  rw [if_pos hc]
  dsimp only
  generalize modMon (fun m => { m with lastInput := now }) (fput p F.PCT_MONSTAT_BAUD baud) = x at h1 h2
  have hput : ∀ (f : Fld), f.hi < 31 → f.lo ≠ 31 → f.hi < 28 ∨ 29 < f.lo →
      fget (fput (fput x F.PCT_MONSTAT_LEVEL 0) F.PCT_MONSTAT_ACTIVE 1) f = fget x f := fun f h3 h4 h5 =>
    (fget_monstat_bits (f := F.PCT_MONSTAT_ACTIVE) 1 _ (.inl h3)).trans (fget_monstat_bits (f := F.PCT_MONSTAT_LEVEL) 0 x h5)
  cases hx : monActive x with
  | true => exact ⟨hx, h1, fun h => absurd (h2.symm.trans hx) (by rw [h]; decide)⟩
  | false =>
    refine ⟨congrArg (· == 1) (fget_fput_self _ F.PCT_MONSTAT_ACTIVE 1 (by decide)), (hput F.PCT_MONSTAT_BAUD (by decide) (by decide) (by decide)).trans h1, fun _ => ?_⟩
    exact (fget_monstat_bits (f := F.PCT_MONSTAT_ACTIVE) (g := F.PCT_MONSTAT_LEVEL) 1 _ (by decide)).trans (fget_fput_self x F.PCT_MONSTAT_LEVEL 0 (by decide))

theorem monTimeout_fields (ha : monActive p = true) (ht : p.mon.lastInput + 600 * sec ≤ now) :
    monActive (monTimeout now p) = false ∧ monLevel (monTimeout now p) = 0 := by
  obtain ⟨hl, hact, -⟩ := monEnd_fields now ha
  unfold monTimeout
  rw [if_pos (by rw [ha, decide_eq_true ht]; rfl)]
  exact ⟨hact, hl⟩

theorem monLockoutEnd_fields {e : Nat} (he : p.mon.lockEnd = some e) (ht : e ≤ now) : (monLockoutEnd now p).mon.lockEnd = none ∧
    fbit (monLockoutEnd now p) F.PCT_MONSTAT_LOCKOUT = false ∧ fget (monLockoutEnd now p) F.PCT_MONSTAT_FAILS = 0 := by
  unfold monLockoutEnd
  rw [he]
  dsimp only
  rw [if_pos ht]
  have hb : ∀ x, fget (fput (fput x F.PCT_MONSTAT_LOCKOUT 0) F.PCT_MONSTAT_FAILS 0) F.PCT_MONSTAT_LOCKOUT = 0 := fun x =>
    (fget_monstat_bits (f := F.PCT_MONSTAT_FAILS) (g := F.PCT_MONSTAT_LOCKOUT) 0 _ (by decide)).trans (fget_fput_self x F.PCT_MONSTAT_LOCKOUT 0 (by decide))
  exact ⟨rfl, congrArg (· == 1) (hb _), fget_fput_self _ F.PCT_MONSTAT_FAILS 0 (by decide)⟩

/-! ### Unlocking -/

theorem monUnlock_fields {x : KeySlot} (hl : p.mon.lockEnd = none) : ∃ ch, (monUnlock now (some x) p).mon.challenge = some (ch, now) ∧ ch.length = 8 ∧
    (monUnlock now (some x) p).mon.answers = (⟨[], ch, Status.ok⟩ :: p.mon.answers).take 16 := by
  unfold monUnlock
  rw [hl]
  refine ⟨(List.range 8).map (Config.challengeByte p.free), rfl, ?_, rfl⟩
  rw [List.length_map, List.length_range]

theorem monUnlock_locked {x : Option KeySlot} (hl : p.mon.lockEnd.isSome = true) : monUnlock now x p = monErr Status.locked p := by
  unfold monUnlock
  rw [hl]
  rfl

theorem monRespond_right {x : KeySlot} {ch : List Byte} {t0 : Nat} (hc : p.mon.challenge = some (ch, t0)) (ht : now ≤ t0 + 300 * sec) :
    monRespond now (some x) (monResponse x.key p ch) p = monRight now x p := by
  unfold monRespond
  rw [hc]
  exact if_pos ⟨ht, rfl⟩

theorem monRespond_wrong {x : KeySlot} {ch r : List Byte} {t0 : Nat} (hc : p.mon.challenge = some (ch, t0)) (hr : r ≠ monResponse x.key p ch) :
    monRespond now (some x) r p = monWrong now p := by
  unfold monRespond
  rw [hc]
  exact if_neg fun h => hr h.2

theorem monRight_fields (now : Nat) (x : KeySlot) (p : Polder) : monLevel (monRight now x p) = (if x.role = 0 then 1 else 2) ∧
    (monRight now x p).mon.admin = (x.role == 2) ∧ (monRight now x p).mon.challenge = none ∧ fget (monRight now x p) F.PCT_MONSTAT_FAILS = 0 := by
  unfold monRight
  extract_lets lv p1
  have hlv : lv < 4 := by
    unfold lv
    split <;> decide
  have h1 : fget p1 F.PCT_MONSTAT_LEVEL = lv ∧ fget p1 F.PCT_MONSTAT_FAILS = 0 ∧ p1.mon.admin = (x.role == 2) ∧ p1.mon.challenge = none := by
    refine ⟨(fget_monstat_bits (f := F.PCT_MONSTAT_FAILS) (g := F.PCT_MONSTAT_LEVEL) 0 _ (by decide)).trans
      ((fget_fput_self _ F.PCT_MONSTAT_LEVEL lv (by decide)).trans (Nat.mod_eq_of_lt hlv)), fget_fput_self _ F.PCT_MONSTAT_FAILS 0 (by decide), rfl, rfl⟩
  clear_value p1
  obtain ⟨hl, hf, had, hch⟩ := h1
  have hm := mon_logRec (now := now) 0x0B 1 Sev.warn (leBytes 1 lv) p1
  refine ⟨(fget_record 0x0B 1 Sev.warn (leBytes 1 lv) p1 rfl).trans hl, ?_, ?_, (fget_record 0x0B 1 Sev.warn (leBytes 1 lv) p1 rfl).trans hf⟩
  · exact (congrArg MonState.admin hm).trans had
  · exact (congrArg MonState.challenge hm).trans hch

theorem monWrong_fields (now : Nat) (p : Polder) : monLevel (monWrong now p) = monLevel p ∧
    fget (monWrong now p) F.PCT_MONSTAT_FAILS = min 5 (fget p F.PCT_MONSTAT_FAILS + 1) ∧
    (4 ≤ fget p F.PCT_MONSTAT_FAILS → fbit (monWrong now p) F.PCT_MONSTAT_LOCKOUT = true ∧ (monWrong now p).mon.lockEnd = some (now + 900 * sec)) := by
  unfold monWrong
  extract_lets n p1 p2
  have hn : n < 8 := lt_of_le_of_lt (Nat.min_le_left _ _) (by decide)
  have h1 : fget p1 F.PCT_MONSTAT_LEVEL = monLevel p ∧ fget p1 F.PCT_MONSTAT_FAILS = n :=
    ⟨fget_monstat_bits (f := F.PCT_MONSTAT_FAILS) (g := F.PCT_MONSTAT_LEVEL) n _ (by decide),
      (fget_fput_self _ F.PCT_MONSTAT_FAILS n (by decide)).trans (Nat.mod_eq_of_lt hn)⟩
  clear_value p1
  obtain ⟨hl1, hf1⟩ := h1
  have h2 : fget p2 F.PCT_MONSTAT_LEVEL = monLevel p ∧ fget p2 F.PCT_MONSTAT_FAILS = n ∧
      (n = 5 → fget p2 F.PCT_MONSTAT_LOCKOUT = 1 ∧ p2.mon.lockEnd = some (now + 900 * sec)) := by
    unfold p2
    split
    next h5 =>
      exact ⟨(fget_monstat_bits (f := F.PCT_MONSTAT_LOCKOUT) (g := F.PCT_MONSTAT_LEVEL) 1 _ (by decide)).trans hl1,
        (fget_monstat_bits (f := F.PCT_MONSTAT_LOCKOUT) (g := F.PCT_MONSTAT_FAILS) 1 _ (by decide)).trans hf1,
        fun _ => ⟨fget_fput_self _ F.PCT_MONSTAT_LOCKOUT 1 (by decide), rfl⟩⟩
    next h5 => exact ⟨hl1, hf1, fun h => absurd h h5⟩
  clear_value p2
  obtain ⟨hl2, hf2, hk2⟩ := h2
  have hr := fun (f : Fld) (hf : f.off = A.PCT_MONSTAT) => fget_record (now := now) 0x0B 3 Sev.warn (leBytes 1 (monLevel p2)) p2 hf
  have hm := mon_logRec (now := now) 0x0B 3 Sev.warn (leBytes 1 (monLevel p2)) p2
  refine ⟨(hr F.PCT_MONSTAT_LEVEL rfl).trans hl2, (hr F.PCT_MONSTAT_FAILS rfl).trans hf2, fun h4 => ?_⟩
  obtain ⟨hlo, hle⟩ := hk2 (by unfold n; omega)
  exact ⟨congrArg (· == 1) ((hr F.PCT_MONSTAT_LOCKOUT rfl).trans hlo), (congrArg MonState.lockEnd hm).trans hle⟩

end Sys2Proof.Machine
end

section
/-!
SUPPORT. O60: lines that read and write (R486, R487).
-/
namespace Sys2Proof.Machine
open Sys2Proof

variable {s : State} {t now : Nat} {i : PolderId} {p q : Polder} {a : Nat} {v : Word}

/-! ### Reading lines -/

theorem length_monRead (part : Part) (now : Nat) (n a : Nat) (p : Polder) : (monRead part now n a p).1.length = n := by
  induction n generalizing a p with
  | zero => rfl
  | succ n ih =>
    unfold monRead
    rw [List.length_cons, ih]

theorem monDump_of_ready {words first n : Nat} {f : Nat → Word} (h : first + n ≤ words) :
    monDump true words first n f p = monOk ((List.range n).map fun k => f (first + k)) p := by
  unfold monDump
  rw [if_neg (by decide), if_neg (Nat.not_lt.mpr h)]

/-! ### WR -/

theorem polRow_of_monMay {off : Nat} (h : monMay p off = true) : inMemory off = false ∧ (polRow off).isSome = true := by
  unfold monMay at h
  split at h
  · exact absurd h (by decide)
  next hc =>
    simp only [Bool.or_eq_true, not_or, Bool.not_eq_true] at hc
    refine ⟨hc.1.1, ?_⟩
    cases hr : polRow off with
    | none =>
      rw [hr] at h
      exact absurd h Bool.false_ne_true
    | some r => rfl

theorem aligned_of_busWrite_ok {m : Master} {off : Nat} (h : busWrite now m i off v p = (.ok, q)) : off % 4 = 0 := by
  by_contra ho
  unfold busWrite at h
  dsimp only at h
  split at h
  · exact absurd (congrArg Prod.fst h) (by simp)
  · exact absurd (congrArg Prod.fst h) (by simp)

theorem monStray_of_mapped (ha : a / 16777216 = 0x40 + (p.id.num - 1)) (h4 : a % 16777216 % 4 = 0) (hr : (polRow (a % 16777216)).isSome = true) :
    monStray a p = none := by
  unfold monStray
  rw [if_neg (not_not.mpr ha), if_neg (not_not.mpr h4), if_pos (by rw [hr, Bool.or_true])]

theorem monWr_ok (ha : a / 16777216 = 0x40 + (p.id.num - 1)) (hm : monMay p (a % 16777216) = true) (hd : a % 16777216 ≠ A.FIO_DOCMD)
    (hw : busWrite now (.mon p.id) p.id (a % 16777216) v p = (.ok, q)) : monWr now a v p = monOk [] (monRecord now 4 a v q) := by
  obtain ⟨-, hr⟩ := polRow_of_monMay hm
  unfold monWr
  dsimp only
  rw [monStray_of_mapped ha (aligned_of_busWrite_ok hw) hr]
  dsimp only
  rw [if_neg (by rw [hm]; simp [hd]), hw]

theorem monWr_refused (hs : monStray a p = none) (hm : monMay p (a % 16777216) = false) :
    monWr now a v p = monErr Status.locked (monRecord now 5 a v p) := by
  unfold monWr
  dsimp only
  rw [hs]
  exact if_pos (.inl hm)

theorem monWr_stray {k : Nat} (hs : monStray a p = some k) :
    monWr now a v p = monErr Status.locked (monRecord now 5 a v (accErr now k 5 (a % 16777216) p)) := by
  unfold monWr
  dsimp only
  rw [hs]
  rfl

/-! ### TRIP, CLEAR, DO, RESTART -/

theorem rd_record (a b c : Nat) (d : List Byte) (p : Polder) {o : Nat} (h : ¬logRegs o) : rd (logRec now a b c d p) o = rd p o :=
  within_logRec now a b c d p o h

theorem latched_monTrip (code : Nat) (he : (enabledMask p).testBit 8 = true) : (latched (monTrip now code p)).testBit 8 = true := by
  have h := latched_swTrip (now := now) he
  rw [latched_testBit _ (by decide)] at h ⊢
  rw [← h]
  exact congrArg (fun w : Word => w.getLsbD 8) (rd_record _ _ _ _ (swTrip now p) not_logRegs_TRIPSRC)

theorem monMay_DIK_CLR (h : switching p = false) : monMay p A.DIK_CLR = true := by
  unfold monMay
  rw [if_neg (by decide), show polRow A.DIK_CLR = (polRow A.DIK_CLR) from rfl, h]
  decide +kernel

theorem monClear_fields (m : Nat) (h : switching p = false) : rd (monClear now m p) A.DIK_TRIPSRC = rd (dikClear now m p).2 A.DIK_TRIPSRC ∧
    rd (monClear now m p) A.DIK_CLRRES = rd (dikClear now m p).2 A.DIK_CLRRES := by
  unfold monClear
  rw [monMay_DIK_CLR h]
  exact ⟨rd_record _ _ _ _ (dikClear now m p).2 not_logRegs_TRIPSRC, rd_record _ _ _ _ (dikClear now m p).2 (by unfold logRegs; decide)⟩

/-- Outputs that are free of the regime machine stay in the mask. -/
theorem mask_unassigned {m b : Nat} (h : m % 16 &&& b = 0) : m % 16 &&& (15 ^^^ b) = m % 16 := by
  refine Nat.eq_of_testBit_eq fun k => ?_
  have hk := congrArg (Nat.testBit · k) h
  simp only [Nat.testBit_and, Nat.zero_testBit] at hk
  rw [Nat.testBit_and, Nat.testBit_xor]
  by_cases h4 : k < 4
  · have h15 : Nat.testBit 15 k = true := by
      match k, h4 with
      | 0, _ | 1, _ | 2, _ | 3, _ => rfl
    rw [h15]
    cases hm : (m % 16).testBit k with
    | false => rfl
    | true =>
      rw [hm, Bool.true_and] at hk
      rw [hk]
      rfl
  · have hm : (m % 16).testBit k = false :=
      Nat.testBit_lt_two_pow (lt_of_lt_of_le (Nat.mod_lt m (by decide)) (Nat.pow_le_pow_right (n := 2) (by decide) (show 4 ≤ k by omega)))
    rw [hm]
    rfl

theorem orders_of_monitor {c m v : Nat} (hm : m % 16 &&& assigned (rd p A.PCT_REGCFG) = 0) (h : p.cyc.ordersIn c = []) :
    orders now c [(5, m, v)] p = ordered c 5 (m % 16) (order now (m % 16) v p) := by
  have h15 : m % 16 &&& 15 = m % 16 := (Nat.and_two_pow_sub_one_eq_mod (m % 16) 4).trans (Nat.mod_mod _ _)
  have hx : m % 16 &&& (15 ^^^ 0) = m % 16 := h15
  unfold orders orderOne
  simp only [List.foldl_cons, List.foldl_nil, or_true, if_true, mask_unassigned hm, h, List.filter_nil, List.map_nil, List.isEmpty_nil,
    List.append_nil, ite_self, hx]

theorem docmd_monDo {m v : Nat} (hm : m % 16 &&& assigned (rd p A.PCT_REGCFG) = 0) (h : p.cyc.ordersIn (now / cyc) = []) :
    docmd (monDo now m v p) = ((docmd p &&& (15 ^^^ m % 16)) ||| (v % 16 &&& m % 16)) := by
  have hd := docmd_order (now := now) (p := p) (m % 16) v
  rw [Nat.mod_mod] at hd
  unfold monDo
  dsimp only
  rw [if_neg (not_not.mpr hm), orders_of_monitor hm h, ← hd]
  exact congrArg (fun w : Word => bitsOf w 3 0) (rd_record _ _ _ _ (ordered (now / cyc) 5 (m % 16) (order now (m % 16) v p)) (by unfold logRegs; decide))

/-- RESTART leaves the polder in reset. -/
theorem monitorRestart_resets {k : PolderId} (h : Types s t k 2 now p) (ha : p.mon.admin = true) (hl : lawRegime p = false) :
    ∃ y, DoesAll (.monitorRestart t k) s t y ∧ (y.pol k).power = .off ∧ (y.pol k).boot.cause = Cause.monitor := by
  obtain ⟨hp, hs, hact, hlev, rfl, rfl⟩ := h
  have haw : awake (s.pol k) = true := by
    have := hs
    unfold monServed at this
    simp only [Bool.and_eq_true] at this
    exact this.1.1.1
  have hc : (monServed (s.pol k) && monActive (s.pol k) && decide (2 ≤ monLevel (s.pol k)) && monMayRestart (s.pol k)) = true := by
    have hmay : monMayRestart (s.pol k) = true := by
      unfold monMayRestart
      rw [show (s.pol k).mon.admin = true from ha, show lawRegime (s.pol k) = false from hl]
      rfl
    rw [hs, hact, decide_eq_true hlev, hmay]
    rfl
  refine ⟨_, doesAll_of_part (k := .monitorRestart t k) (f := fun now y => if awake (y.pol k) then
      let q := y.pol k
      let z := collect now (y.modPol k fun a => polish now (monLine now 2 monRestart a))
      if monServed q && monActive q && decide (2 ≤ monLevel q) && monMayRestart q then restartPol now k Cause.monitor z else z
    else y) rfl hp rfl, ?_⟩
  dsimp only
  rw [at_pol, if_pos haw, if_pos hc]
  exact pol_restartPol _ _ _

/-- Settles O60: each line by the level that it needs and by what it leaves of session, polder and record. -/
theorem monitorLinesComplete : Obligations.MonitorLinesComplete := by
  unfold Obligations.MonitorLinesComplete
  refine ⟨fun s t i now p h => ?_, fun s t i now p h => ?_, fun s t i now p h => ?_, fun s t i now p h => ?_⟩
  · have hact : monActive p = true := by
      obtain ⟨-, -, ha, -, -, rfl⟩ := h
      exact ha
    refine ⟨does_of_line (k := .monitorHelp t i) (f := fun _ _ => monSay ⟨[], monHelp, Status.ok⟩) h rfl rfl,
      does_of_line (k := .monitorId t i) (f := fun now _ q => monOk ([A.PCT_ID, A.PCT_FWVER, A.PCT_BOOT].map (viewWord s.part now q)) q) h rfl rfl,
      does_of_line (k := .monitorStat t i) (f := fun _ _ q =>
        monOk [wordN (regime q), rd q A.DIK_TRIPSRC, wordN (fget q F.SPB_STAT_STATE), rd q A.CLK_STAT, wordN (fget q F.TIM_STAT_QUAL)] q) h rfl rfl,
      fun k hl hk => ?_, fun hl => ?_, fun k ch t0 hc hk ht => ?_, fun k ch t0 r hc hk hr => ?_, ?_, ?_, fun hl a n => ?_, fun hl a v => ?_⟩
    · obtain ⟨ch, h1, h2, h3⟩ := monUnlock_fields (now := now) (x := k) hl
      exact ⟨_, ch, does_of_line (k := .unlock t i) (f := fun now y q => monUnlock now (monSlot y q) q) h rfl (by rw [hk]), h1, h2, h3⟩
    · exact does_of_line (k := .unlock t i) (f := fun now y q => monUnlock now (monSlot y q) q) h rfl (monUnlock_locked hl)
    · exact ⟨_, does_of_line (k := .unlockResponse t i _) (f := fun now y q => monRespond now (monSlot y q) (monResponse k.key p ch) q) h rfl
        (by rw [hk]; exact monRespond_right hc ht), monRight_fields now k p⟩
    · exact ⟨_, does_of_line (k := .unlockResponse t i r) (f := fun now y q => monRespond now (monSlot y q) r q) h rfl
        (by rw [hk]; exact monRespond_wrong hc hr), monWrong_fields now p⟩
    · obtain ⟨h1, h2, -⟩ := monLock_fields now p
      exact ⟨_, does_of_line (k := .lock t i) (f := fun now _ q => monOk [] (monLock now q)) h rfl rfl, h1, h2.trans hact⟩
    · exact ⟨_, does_of_line (k := .quit t i) (f := fun now _ q => monEnd now (monOk [] q)) h rfl rfl, monEnd_fields now (p := monOk [] p) hact⟩
    · exact does_of_locked (k := .rd t i a n) (f := fun now _ => monRd s.part now a n) h rfl hl
    · exact does_of_locked (k := .wr t i a v) (f := fun now _ => monWr now a v) h rfl hl
  · refine ⟨fun a n r hn hr => ⟨?_, ?_⟩, fun first n h1 hn => ?_, fun first n h1 h2 => ?_, fun first n h1 h2 => ?_, ?_⟩
    · subst hr
      exact does_of_line (k := .rd t i a n) (f := fun now _ => monRd s.part now a n) h rfl (if_neg (by omega))
    · subst hr
      exact length_monRead _ _ _ _ _
    · exact does_of_line (k := .monitorLog t i first n) (f := fun _ _ => monLog first n) h rfl (if_neg (by omega))
    · exact does_of_line (k := .dumpGal t i first n) (f := fun _ _ q => monDump (fget q F.GAL_STAT_STATE == Rec.done) (galCount q) first n (galWord q) q) h rfl
        (by rw [beq_iff_eq.mpr h1]; exact monDump_of_ready h2)
    · exact does_of_line (k := .dumpCap t i first n) (f := fun _ _ q => monDump (capState q == Rec.done) (rdN q A.CAP_ROWS * capRowWords q) first n (capWord q) q) h rfl
        (by rw [beq_iff_eq.mpr h1]; exact monDump_of_ready h2)
    · exact does_of_line (k := .eng t i) (f := fun now _ => monEng s.part now) h rfl rfl
  · refine ⟨fun a v q ha hm hd hw => ?_, fun a v hs hm => ?_, fun a v k hs => ?_, fun code he => ?_, fun m hs => ?_, fun m v hm ho => ?_, fun ha hl => ?_⟩
    · exact does_of_line (k := .wr t i a v) (f := fun now _ => monWr now a v) h rfl (monWr_ok ha hm hd hw)
    · exact does_of_line (k := .wr t i a v) (f := fun now _ => monWr now a v) h rfl (monWr_refused hs hm)
    · exact does_of_line (k := .wr t i a v) (f := fun now _ => monWr now a v) h rfl (monWr_stray hs)
    · exact ⟨_, does_of_line (k := .monitorTrip t i code) (f := fun now _ => monTrip now code) h rfl rfl, latched_monTrip code he⟩
    · exact ⟨_, does_of_line (k := .monitorClear t i m) (f := fun now _ => monClear now m) h rfl rfl, monClear_fields m hs⟩
    · exact ⟨_, does_of_line (k := .monitorDo t i m v) (f := fun now _ => monDo now m v) h rfl rfl, docmd_monDo hm ho⟩
    · exact monitorRestart_resets h ha hl
  · refine ⟨fun baud hs hb => ?_, fun ha ht => ?_, fun e he ht => ?_⟩
    · exact ⟨_, does_of_runs_onAwake (k := .monitorRateSet t i baud) (f := fun now => monRate now baud) rfl h rfl, monRate_fields hs hb⟩
    · exact ⟨_, does_of_runs_onAwake (k := .monitorSessionTimeout t i) (f := fun now => monTimeout now) rfl h rfl, monTimeout_fields ha ht⟩
    · exact ⟨_, does_of_runs_onAwake (k := .monitorLockoutEnd t i) (f := fun now => monLockoutEnd now) rfl h rfl, monLockoutEnd_fields he ht⟩

end Sys2Proof.Machine
end
